-- ==== Sys2Proof/Word.lean ====
section
/-! DEFINITION. The word types of the TBX-8256 and their plainest arithmetic. -/
namespace Sys2Proof

/-- A byte of memory, of a queue entry or of a port FIFO. -/
abbrev Byte := BitVec 8

/-- A word: 32 bits wherever no other width is stated (spec 00, Units). -/
abbrev W32 := BitVec 32

/-- A 64-bit register or Hearth value. -/
abbrev W64 := BitVec 64

/-- A general register number, g0 to g31 (R121). -/
abbrev Reg := Fin 32

/-- The two worlds; function 0 serves Slate and function 1 serves Granite (R1). -/
inductive World where
  | slate
  | granite
  deriving DecidableEq, Repr

/-- The other world. -/
def World.other : World → World
  | .slate => .granite
  | .granite => .slate

/-- The number of a world, which is its function number and the value of a WORLD bit. -/
def World.bit : World → Nat
  | .slate => 0
  | .granite => 1

/-- The world of a WORLD bit. -/
def World.ofBit (b : Bool) : World := if b then .granite else .slate

/-- One value for each world. -/
structure Two (α : Type) where
  slate : α
  granite : α
  deriving DecidableEq, Repr

/-- The value of one world. -/
def Two.get {α : Type} (t : Two α) : World → α
  | .slate => t.slate
  | .granite => t.granite

/-- The pair with the value of one world replaced. -/
def Two.set {α : Type} (t : Two α) (w : World) (a : α) : Two α :=
  match w with
  | .slate => { t with slate := a }
  | .granite => { t with granite := a }

/-- The pair with the value of one world changed. -/
def Two.upd {α : Type} (t : Two α) (w : World) (f : α → α) : Two α := t.set w (f (t.get w))

end Sys2Proof
end

