-- ==== Sys2Proof/Syntax.lean ====
section
/-! DEFINITION. The commands of the block: one constructor for each row of the spec's table of operations. -/
namespace Sys2Proof

/-- What the probe of the configuration flash meets (R65, states PROBE). -/
inductive FlashProbe where
  | octal
  | fallback
  | noAnswer
  deriving DecidableEq, Repr

/-- What the training of one Pantry channel measures (R342, R343, R356). -/
structure TrainReport where
  chan : Nat
  rdMin : Nat
  rdBall : Nat
  wrMin : Nat
  wrBall : Nat
  rpreOk : Bool
  alertOk : Bool
  verifyOk : Bool
  deriving DecidableEq, Repr

/-- How an FMK-or-MARK operation is given: the instruction with its register fields, or the MARK command of
the current CCW (R155, R87). -/
inductive MarkVia where
  | fmk (rd ra rb : Reg)
  | mark
  deriving DecidableEq, Repr

/-- One endpoint of a USB peripheral as its descriptors give it (R292, R305). -/
structure Endpoint where
  addr : Nat
  kind : Nat
  mps : Nat
  interval : Nat
  deriving DecidableEq, Repr

/-- The descriptors that an enumeration reads (R292, R311, R314). -/
structure Descriptors where
  speed : Nat
  vid : Nat
  pid : Nat
  bcd : Nat
  cls : Nat
  sub : Nat
  proto : Nat
  ifCls : Nat
  ifSub : Nat
  ifProto : Nat
  mps0 : Nat
  config : List Byte
  endpoints : List Endpoint
  /-- The HID usage page of the first interface, 0 for none (R63). -/
  usagePage : Nat := 0
  deriving DecidableEq, Repr

/-- What the check of a port FIFO word found as it was read: nothing, a corrected error, or an uncorrectable one (R321). -/
inductive WordCheck where
  | clean
  | corrected
  | failed
  deriving DecidableEq, Repr

/-- An item that arrives from a wire at a receive channel (R318): a UART character with its error marks, or a
byte of an SPI or I2C transfer. `last` marks the item that ends the transfer of an SPI or I2C command. -/
inductive RxItem where
  | char (v : Byte) (framing parity brk : Bool)
  | byte (v : Byte) (last : Bool)
  deriving DecidableEq, Repr

/-- How one burst of a Dumbwaiter, or one access on the link, ended (R365). -/
inductive LinkResult where
  | ok
  | busError
  deriving DecidableEq, Repr

/-- A request for leave that Boiler itself makes, and the work it is for (R418). -/
inductive BoilerWork where
  | cluster (k : Nat)
  | porch (port : Nat)
  | driveGroup (j : Nat)
  | dwDomain (d : Nat)
  deriving DecidableEq, Repr

/-- Who asks for leave (R418, R422). -/
inductive LeaveOwner where
  | context (c : Nat)
  | drive (n : Nat)
  | dumbwaiter (e : Nat)
  | boiler (work : BoilerWork)
  | pace
  deriving DecidableEq, Repr

/-- A read of the three copies of one word of a Granite control register at a sweep (R477): each copy reads good
with a value (corrected or not) or bad. -/
structure CopyRead where
  good : Bool
  corrected : Bool
  value : W32
  deriving DecidableEq, Repr

/-- What a debug read or write names (R506). -/
inductive DebugTarget where
  | record (c : Nat)
  | pantry (addr len : Nat)
  deriving DecidableEq, Repr

/-- The transaction that the SMBus host makes (R524): a Block Read of the command, with or without the packet error checking
byte, or another command or transaction. -/
inductive SmbAccess where
  | blockRead (pec : Bool)
  | other
  deriving DecidableEq, Repr

/-- A fuse field that FUSE_PROG names (R494, R497). -/
inductive FuseField where
  | fwKey (k : Nat)
  | imgKey (k : Nat)
  | grnKey (k : Nat)
  | revoke
  | lifecycle
  | deviceSecret
  | dsn
  | grade
  deriving DecidableEq, Repr

/-- A Hearth instruction of format A with its three register fields (R128); the fields that the instruction
leaves unused are operands too, because a 1 in one of them raises ILLEGAL_INSTRUCTION. -/
structure FmtA where
  rd : Reg
  ra : Reg
  rb : Reg
  deriving DecidableEq, Repr

/-- A Hearth instruction of format M: data register, base, mode and the 14 address bits (R128, R134). -/
structure FmtM where
  rd : Reg
  ra : Reg
  mode : BitVec 2
  low : BitVec 14
  deriving DecidableEq, Repr

/-- A Hearth instruction of format I (R128). -/
structure FmtI where
  rd : Reg
  ra : Reg
  imm : BitVec 16
  deriving DecidableEq, Repr

/-- A Hearth instruction of format F (R128). -/
structure FmtF where
  rd : Reg
  ra : Reg
  pos : BitVec 6
  len1 : BitVec 6
  s : Bool
  rsv : BitVec 3
  deriving DecidableEq, Repr

/-- A command of the block: one constructor for each row of spec/opcode_table.json, with the row's operands. -/
inductive Instr where
  /-- REGISTER_WRITE (R7). -/
  | registerWrite (fn : World) (off : Nat) (wide : Bool) (v : W64)
  /-- MISALIGNED_REG_ACCESS (R10). -/
  | misalignedRegAccess (fn : World) (off bytes : Nat) (isWrite : Bool)
  /-- LINKED_LOW_READ (R437). -/
  | linkedLowRead (fn : World) (off : Nat) (wide : Bool := false)
  /-- LINKED_HIGH_READ (R437). -/
  | linkedHighRead (fn : World) (off : Nat)
  /-- BAR2_ACCESS (R234). -/
  | bar2Access (fn : World) (off len : Nat) (data : Option (List Byte))
  /-- POWER_ON_RESET (R41). -/
  | powerOnReset (railsOk : Bool)
  /-- RESET_N (R41). -/
  | resetN (lowNs : Nat) (refPresent : Bool)
  /-- RESTART (R36). -/
  | restart
  /-- STUDY_WATCHDOG_EXPIRY (R41). -/
  | studyWatchdogExpiry
  /-- PERST_N_LOW (R44). -/
  | perstNLow
  /-- PERST_N_HIGH (R44). -/
  | perstNHigh
  /-- ATTIC_PROBE (R65). -/
  | atticProbe (r : FlashProbe)
  /-- FLASH_READ_TIMEOUT (R47). -/
  | flashReadTimeout (base : Nat)
  /-- FIRMWARE_SELECT (R57). -/
  | firmwareSelect
  /-- IMAGE_SELECT (R57). -/
  | imageSelect
  /-- CONFIG_APPLY (R69). -/
  | configApply (train : List TrainReport)
  /-- CELLAR_RESTORE (R490). -/
  | cellarRestore
  /-- ATTIC_DONE (R65). -/
  | atticDone
  /-- ATTIC_HALT (R72). -/
  | atticHalt (pfail vin12 : Bool)
  /-- START_RECORD_WRITE (R491). -/
  | startRecordWrite
  /-- KEY_REVOKE (R496). -/
  | keyRevoke
  /-- DEVKEY_DERIVED (R498). -/
  | devkeyDerived
  /-- FLASH_OPEN (R281). -/
  | flashOpen (fn : World) (bit : Nat)
  /-- FLASH_WRITE (R281). -/
  | flashWrite (fn : World) (bit : Nat)
  /-- FLASH_COMMIT (R281). -/
  | flashCommit (fn : World) (bit : Nat)
  /-- FLASH_ABORT (R281). -/
  | flashAbort (fn : World) (bit : Nat)
  /-- FLASH_STATUS (R281). -/
  | flashStatus (fn : World) (bit : Nat)
  /-- AUDIT_RECORD_WRITE (R504). -/
  | auditRecordWrite
  /-- PROGRAM_BIND (R80). -/
  | programBind (fn : World) (q : Nat) (link : LinkResult := .ok)
  /-- WRITE (R87). -/
  | write (c : Nat) (link : LinkResult := .ok)
  /-- READ (R87). -/
  | read (c : Nat) (link : LinkResult := .ok)
  /-- CONTROL (R87). -/
  | control (c : Nat) (link : LinkResult := .ok)
  /-- SENSE (R87). -/
  | sense (c : Nat) (link : LinkResult := .ok)
  /-- TIC (R96). -/
  | tic (c : Nat) (link : LinkResult := .ok)
  /-- NOP (R87). -/
  | nop (c : Nat) (link : LinkResult := .ok)
  /-- WAIT (R104). -/
  | wait (c : Nat) (link : LinkResult := .ok)
  /-- EXEC (R87). -/
  | exec (c : Nat) (link : LinkResult := .ok)
  /-- PLANT (R386). -/
  | plant (c : Nat) (link : LinkResult := .ok)
  /-- LEAVE_CCW (R424). -/
  | leaveCcw (c : Nat) (link : LinkResult := .ok)
  /-- POST (R92). -/
  | post (c : Nat) (link : LinkResult := .ok)
  /-- DEADLINE_MISS (R103). -/
  | deadlineMiss (c : Nat)
  /-- LATE_BUS_ERROR (R187). -/
  | lateBusError (c : Nat) (reason : Nat)
  /-- ASYNC_BUS_ERROR (R188). -/
  | asyncBusError (c : Nat)
  /-- ADD (R130). -/
  | add (c : Nat) (f : FmtA)
  /-- SUB (R130). -/
  | sub (c : Nat) (f : FmtA)
  /-- AND (R130). -/
  | and (c : Nat) (f : FmtA)
  /-- OR (R130). -/
  | or (c : Nat) (f : FmtA)
  /-- XOR (R130). -/
  | xor (c : Nat) (f : FmtA)
  /-- ANDN (R130). -/
  | andn (c : Nat) (f : FmtA)
  /-- NOR (R130). -/
  | nor (c : Nat) (f : FmtA)
  /-- SLL (R130). -/
  | sll (c : Nat) (f : FmtA)
  /-- SRL (R130). -/
  | srl (c : Nat) (f : FmtA)
  /-- SRA (R130). -/
  | sra (c : Nat) (f : FmtA)
  /-- ROTR (R130). -/
  | rotr (c : Nat) (f : FmtA)
  /-- MIN (R130). -/
  | min (c : Nat) (f : FmtA)
  /-- MAX (R130). -/
  | max (c : Nat) (f : FmtA)
  /-- MINU (R130). -/
  | minu (c : Nat) (f : FmtA)
  /-- MAXU (R130). -/
  | maxu (c : Nat) (f : FmtA)
  /-- CLZ (R130). -/
  | clz (c : Nat) (f : FmtA)
  /-- POPC (R130). -/
  | popc (c : Nat) (f : FmtA)
  /-- BSWAP (R130). -/
  | bswap (c : Nat) (f : FmtA)
  /-- MUL (R131). -/
  | mul (c : Nat) (f : FmtA)
  /-- MULH (R130). -/
  | mulh (c : Nat) (f : FmtA)
  /-- MULHU (R130). -/
  | mulhu (c : Nat) (f : FmtA)
  /-- DIV (R131). -/
  | div (c : Nat) (f : FmtA)
  /-- DIVU (R131). -/
  | divu (c : Nat) (f : FmtA)
  /-- REM (R131). -/
  | rem (c : Nat) (f : FmtA)
  /-- REMU (R131). -/
  | remu (c : Nat) (f : FmtA)
  /-- CEQ (R130). -/
  | ceq (c : Nat) (f : FmtA)
  /-- CNE (R130). -/
  | cne (c : Nat) (f : FmtA)
  /-- CLT (R130). -/
  | clt (c : Nat) (f : FmtA)
  /-- CLTU (R130). -/
  | cltu (c : Nat) (f : FmtA)
  /-- CLE (R130). -/
  | cle (c : Nat) (f : FmtA)
  /-- CLEU (R130). -/
  | cleu (c : Nat) (f : FmtA)
  /-- CBEF32 (R130). -/
  | cbef32 (c : Nat) (f : FmtA)
  /-- ADDI (R132). -/
  | addi (c : Nat) (f : FmtI)
  /-- ANDI (R132). -/
  | andi (c : Nat) (f : FmtI)
  /-- ORI (R132). -/
  | ori (c : Nat) (f : FmtI)
  /-- XORI (R132). -/
  | xori (c : Nat) (f : FmtI)
  /-- CEQI (R132). -/
  | ceqi (c : Nat) (f : FmtI)
  /-- CLTI (R132). -/
  | clti (c : Nat) (f : FmtI)
  /-- CLTUI (R132). -/
  | cltui (c : Nat) (f : FmtI)
  /-- SETH (R132). -/
  | seth (c : Nat) (f : FmtI)
  /-- SLLI (R132). -/
  | slli (c : Nat) (rd ra : Reg) (rsv : BitVec 8) (amount : BitVec 6)
  /-- SRLI (R132). -/
  | srli (c : Nat) (rd ra : Reg) (rsv : BitVec 8) (amount : BitVec 6)
  /-- SRAI (R132). -/
  | srai (c : Nat) (rd ra : Reg) (rsv : BitVec 8) (amount : BitVec 6)
  /-- ROTRI (R132). -/
  | rotri (c : Nat) (rd ra : Reg) (rsv : BitVec 8) (amount : BitVec 6)
  /-- EXTU (R132). -/
  | extu (c : Nat) (f : FmtF)
  /-- EXTS (R132). -/
  | exts (c : Nat) (f : FmtF)
  /-- INS (R132). -/
  | ins (c : Nat) (f : FmtF)
  /-- LDB (R135). -/
  | ldb (c : Nat) (f : FmtM) (link : LinkResult := .ok)
  /-- LDH (R135). -/
  | ldh (c : Nat) (f : FmtM) (link : LinkResult := .ok)
  /-- LDW (R135). -/
  | ldw (c : Nat) (f : FmtM) (link : LinkResult := .ok)
  /-- LDD (R135). -/
  | ldd (c : Nat) (f : FmtM) (link : LinkResult := .ok)
  /-- LDBS (R135). -/
  | ldbs (c : Nat) (f : FmtM) (link : LinkResult := .ok)
  /-- LDHS (R135). -/
  | ldhs (c : Nat) (f : FmtM) (link : LinkResult := .ok)
  /-- LDWS (R135). -/
  | ldws (c : Nat) (f : FmtM) (link : LinkResult := .ok)
  /-- STB (R135). -/
  | stb (c : Nat) (f : FmtM)
  /-- STH (R135). -/
  | sth (c : Nat) (f : FmtM)
  /-- STW (R135). -/
  | stw (c : Nat) (f : FmtM)
  /-- STD (R135). -/
  | std (c : Nat) (f : FmtM)
  /-- LEA (R135). -/
  | lea (c : Nat) (f : FmtM)
  /-- BZ (R139). -/
  | bz (c : Nat) (ra : Reg) (disp : BitVec 21)
  /-- BNZ (R139). -/
  | bnz (c : Nat) (ra : Reg) (disp : BitVec 21)
  /-- BR (R139). -/
  | br (c : Nat) (disp : BitVec 26)
  /-- CALL (R139). -/
  | call (c : Nat) (disp : BitVec 26)
  /-- JR (R140). -/
  | jr (c : Nat) (f : FmtA)
  /-- JALR (R139). -/
  | jalr (c : Nat) (f : FmtA)
  /-- LOOP (R143). -/
  | loop (c : Nat) (rsv : Reg) (ra : Reg) (len : BitVec 16)
  /-- LOOPI (R143). -/
  | loopi (c : Nat) (count : BitVec 10) (len : BitVec 16)
  /-- REP (R148). -/
  | rep (c : Nat) (rsv : BitVec 26)
  /-- MOVB (R152). -/
  | movb (c : Nat) (f : FmtA) (limit : Nat) (link : LinkResult := .ok)
  /-- FILLB (R152). -/
  | fillb (c : Nat) (f : FmtA) (limit : Nat)
  /-- MFC (R122). -/
  | mfc (c : Nat) (f : FmtA)
  /-- MTC (R122). -/
  | mtc (c : Nat) (f : FmtA)
  /-- RETX (R183). -/
  | retx (c : Nat) (f : FmtA)
  /-- FENCE (R136). -/
  | fence (c : Nat) (f : FmtA)
  /-- LOCK (R220). -/
  | lock (c : Nat) (f : FmtA)
  /-- UNLOCK (R220). -/
  | unlock (c : Nat) (f : FmtA)
  /-- YIELD (R153). -/
  | yield (c : Nat) (f : FmtA)
  /-- TRAP (R195). -/
  | trap (c : Nat) (n : BitVec 8) (rsv : BitVec 18)
  /-- NIW (R191). -/
  | niw (c : Nat) (k : BitVec 7) (rsv : BitVec 19)
  /-- FRD (R156), and what the check of the word read finds (R321). -/
  | frd (c : Nat) (f : FmtA) (chk : WordCheck := .clean)
  /-- FOPEN (R157). -/
  | fopen (c : Nat) (f : FmtA)
  /-- FPUT (R157). -/
  | fput (c : Nat) (f : FmtA)
  /-- FCLOSE (R157). -/
  | fclose (c : Nat) (f : FmtA)
  /-- SET_RX (R322). -/
  | setRx (c : Nat) (via : MarkVia)
  /-- SET_TX (R322). -/
  | setTx (c : Nat) (via : MarkVia)
  /-- RELEASE_RX (R322). -/
  | releaseRx (c : Nat) (via : MarkVia)
  /-- RELEASE_TX (R322). -/
  | releaseTx (c : Nat) (via : MarkVia)
  /-- REWIND_RX (R322). -/
  | rewindRx (c : Nat) (via : MarkVia)
  /-- REWIND_TX (R322). -/
  | rewindTx (c : Nat) (f : FmtA)
  /-- PSTAT (R307). -/
  | pstat (c : Nat) (f : FmtA)
  /-- XGET (R161). -/
  | xget (c : Nat) (f : FmtA) (link : LinkResult := .ok)
  /-- XPUT (R161). -/
  | xput (c : Nat) (f : FmtA) (link : LinkResult := .ok)
  /-- XREM (R155). -/
  | xrem (c : Nat) (f : FmtA)
  /-- HEND (R163). -/
  | hend (c : Nat) (f : FmtA) (link : LinkResult := .ok)
  /-- WAITE (R158). -/
  | waite (c : Nat) (f : FmtA)
  /-- DRD (R380). -/
  | drd (c : Nat) (f : FmtA) (item : BitVec 8)
  /-- RUN (R381). -/
  | run (c : Nat) (f : FmtA)
  /-- DUTY_A (R381). -/
  | dutyA (c : Nat) (f : FmtA)
  /-- DUTY_B (R381). -/
  | dutyB (c : Nat) (f : FmtA)
  /-- BURST (R381). -/
  | burst (c : Nat) (f : FmtA)
  /-- PWM_FREQ (R373). -/
  | pwmFreq (c : Nat) (f : FmtA)
  /-- DIR (R380). -/
  | dir (c : Nat) (f : FmtA)
  /-- ILIM (R374). -/
  | ilim (c : Nat) (f : FmtA)
  /-- SAFE_REQ (R387). -/
  | safeReq (c : Nat) (f : FmtA)
  /-- FAULT_CLEAR (R387). -/
  | faultClear (c : Nat) (f : FmtA)
  /-- ENC_CMP (R375). -/
  | encCmp (c : Nat) (f : FmtA)
  /-- ENC_ZERO (R380). -/
  | encZero (c : Nat) (f : FmtA)
  /-- LEAVE_INSTR (R423). -/
  | leaveInstr (c : Nat) (f : FmtA) (link : LinkResult := .ok)
  /-- CRC (R165). -/
  | crc (c : Nat) (f : FmtA) (alg : BitVec 4) (size : BitVec 2) (rsv : BitVec 4)
  /-- CRCB (R165). -/
  | crcb (c : Nat) (f : FmtA) (alg : BitVec 4) (size : BitVec 2) (rsv : BitVec 4) (limit : Nat) (link : LinkResult := .ok)
  /-- PI (R166). -/
  | pi (c : Nat) (f : FmtA) (link : LinkResult := .ok)
  /-- RLIM (R166). -/
  | rlim (c : Nat) (f : FmtA) (link : LinkResult := .ok)
  /-- FOM (R166). -/
  | fom (c : Nat) (f : FmtA) (link : LinkResult := .ok)
  /-- FLINIT (R168). -/
  | flinit (c : Nat) (f : FmtA)
  /-- FLABS (R167). -/
  | flabs (c : Nat) (f : FmtA) (limit : Nat) (link : LinkResult := .ok)
  /-- FLSQZ (R167). -/
  | flsqz (c : Nat) (f : FmtA)
  /-- FLVER (R167). -/
  | flver (c : Nat) (f : FmtA) (link : LinkResult := .ok)
  /-- FLEND (R167). -/
  | flend (c : Nat) (f : FmtA)
  /-- XBLK (R169). -/
  | xblk (c : Nat) (w : W32)
  /-- WAIT_END (R118). -/
  | waitEnd (c : Nat)
  /-- ISSUE_SLOT_FREE (R218). -/
  | issueSlotFree (h : Nat)
  /-- PREEMPTION (R219). -/
  | preemption (h : Nat)
  /-- QUANTUM_END (R219). -/
  | quantumEnd (c : Nat)
  /-- LOCK_WAIT_TIMEOUT (R222). -/
  | lockWaitTimeout (c : Nat)
  /-- CHECKER_MISMATCH (R225). -/
  | checkerMismatch (h : Nat)
  /-- MIGRATING_PLACED (R226). -/
  | migratingPlaced (c : Nat)
  /-- RESIDENT_RESTART (R230). -/
  | residentRestart (c : Nat)
  /-- LINK_DOWN (R37). -/
  | linkDown
  /-- FUNCTION_LEVEL_RESET (R244). -/
  | functionLevelReset (fn : World)
  /-- BUS_MASTER_DISABLE (R37). -/
  | busMasterDisable (fn : World) (d3hot : Bool)
  /-- FUNCTION_START (R241). -/
  | functionStart (fn : World) (bme d0 : Bool)
  /-- FUNCTION_STOP (R242). -/
  | functionStop (fn : World)
  /-- WATCHDOG_RESTART (R243). -/
  | watchdogRestart (fn : World) (v : W32)
  /-- HOST_WATCHDOG_EXPIRY (R243). -/
  | hostWatchdogExpiry (fn : World)
  /-- SQ_TAIL_DOORBELL (R254). -/
  | sqTailDoorbell (fn : World) (q : Nat) (v : W32)
  /-- DOORBELL_INV (R259). -/
  | doorbellInv (fn : World) (q : Nat) (v : W32)
  /-- DOORBELL_RESUME (R112). -/
  | doorbellResume (fn : World) (q : Nat) (v : W32)
  /-- CQ_HEAD_DOORBELL (R266). -/
  | cqHeadDoorbell (fn : World) (q : Nat) (v : W32)
  /-- SQ_ENTRY_FETCH (R258). -/
  | sqEntryFetch (fn : World) (q : Nat) (r : LinkResult)
  /-- NOT_BEFORE_EXPIRY (R258). -/
  | notBeforeExpiry (fn : World) (q : Nat)
  /-- INT_DELAY_EXPIRY (R267). -/
  | intDelayExpiry (fn : World) (q : Nat)
  /-- CREATE_CQ (R275). -/
  | createCq (fn : World)
  /-- DELETE_CQ (R269). -/
  | deleteCq (fn : World)
  /-- CREATE_SQ (R249). -/
  | createSq (fn : World)
  /-- DELETE_SQ (R261). -/
  | deleteSq (fn : World)
  /-- ENABLE_SQ (R262). -/
  | enableSq (fn : World)
  /-- DISABLE_SQ (R261). -/
  | disableSq (fn : World)
  /-- BIND_SQ (R275). -/
  | bindSq (fn : World)
  /-- INVALIDATE (R259). -/
  | invalidate (fn : World)
  /-- SUSPEND (R112). -/
  | suspend (fn : World)
  /-- RESUME (R112). -/
  | resume (fn : World)
  /-- HALT (R112). -/
  | halt (fn : World)
  /-- ADOPT (R275). -/
  | adopt (fn : World)
  /-- READ_CONTEXT (R275). -/
  | readContext (fn : World) (r : LinkResult)
  /-- LIST_CONTEXTS (R275). -/
  | listContexts (fn : World) (r : LinkResult)
  /-- LANE_SAFE (R31). -/
  | laneSafe (fn : World)
  /-- LANE_RELEASE (R31). -/
  | laneRelease (fn : World)
  /-- ATTEST (R507). -/
  | attest (fn : World)
  /-- MB_REQUEST (R279). -/
  | mbRequest (fn : World) (m : Nat) (v : W32)
  /-- MB_ACKNOWLEDGE (R279). -/
  | mbAcknowledge (m : Nat) (code : BitVec 16) (bit : Nat) (reply : List (Nat × W64))
  /-- MB_ACK_CLEAR (R279). -/
  | mbAckClear (fn : World) (m : Nat) (v : W32)
  /-- MB_NOTE (R279). -/
  | mbNote (m : Nat) (bits : BitVec 16)
  /-- MB_MSG_WRITE (R279). -/
  | mbMsgWrite (fn : World) (m i : Nat) (v : W64)
  /-- USB_CONNECT (R293). -/
  | usbConnect (port : Nat) (parent : Option (Nat × Nat)) (hub : Bool)
  /-- DEBOUNCE_STABLE (R309). -/
  | debounceStable (a : Nat)
  /-- ENUMERATION_DONE (R292). -/
  | enumerationDone (a : Nat) (d : Option Descriptors)
  /-- PROBE_END (R313). -/
  | probeEnd (a : Nat)
  /-- PROBE_TIMEOUT (R313). -/
  | probeTimeout (a : Nat)
  /-- REPROBE_TIMER (R309). -/
  | reprobeTimer (a : Nat)
  /-- USB_DISCONNECT (R309); or, with a hub port, the device refused there goes: at hub a, or at the port of a itself (R293). -/
  | usbDisconnect (a : Nat) (refused : Option Nat := none)
  /-- OVERCURRENT (R291). -/
  | overcurrent (port : Nat)
  /-- OC_RETRY_EXPIRY (R291). -/
  | ocRetryExpiry (port : Nat)
  /-- USB_CTRL (R305). -/
  | usbCtrl (c : Nat) (f : FmtA)
  /-- USB_IN (R305). -/
  | usbIn (c : Nat) (f : FmtA)
  /-- USB_OUT (R305). -/
  | usbOut (c : Nat) (f : FmtA)
  /-- USB_OUT_ZLP (R305). -/
  | usbOutZlp (c : Nat) (f : FmtA)
  /-- USB_INT_POLL (R305). -/
  | usbIntPoll (c : Nat) (f : FmtA)
  /-- INT_POLL_INTERVAL (R305). -/
  | intPollInterval (a ep : Nat)
  /-- USB_CLEAR_HALT (R305). -/
  | usbClearHalt (c : Nat) (f : FmtA)
  /-- USB_ABORT (R305). -/
  | usbAbort (c : Nat) (f : FmtA)
  /-- UART_BREAK (R305). -/
  | uartBreak (c : Nat) (f : FmtA)
  /-- UART_LINE (R296). -/
  | uartLine (c : Nat) (f : FmtA)
  /-- UART_RTS (R297). -/
  | uartRts (c : Nat) (f : FmtA)
  /-- UART_CLOSE (R298). -/
  | uartClose (c : Nat) (f : FmtA)
  /-- SPI_XFER (R299). -/
  | spiXfer (c : Nat) (f : FmtA)
  /-- SPI_READ (R305). -/
  | spiRead (c : Nat) (f : FmtA)
  /-- I2C_WRITE (R300). -/
  | i2cWrite (c : Nat) (f : FmtA)
  /-- I2C_READ (R300). -/
  | i2cRead (c : Nat) (f : FmtA)
  /-- I2C_WRITE_READ (R305). -/
  | i2cWriteRead (c : Nat) (f : FmtA)
  /-- I2C_GPIO (R305). -/
  | i2cGpio (c : Nat) (f : FmtA)
  /-- GPIO_SET (R305). -/
  | gpioSet (c : Nat) (f : FmtA)
  /-- GPIO_PULSE (R302). -/
  | gpioPulse (c : Nat) (f : FmtA)
  /-- PULSE_END (R302). -/
  | pulseEnd (port pin : Nat)
  /-- GPIO_BLINK (R305). -/
  | gpioBlink (c : Nat) (f : FmtA)
  /-- BLINK_TOGGLE (R305). -/
  | blinkToggle (port pin : Nat)
  /-- CMD_DONE (R327). -/
  | cmdDone (a ep : Nat) (err : Nat)
  /-- STRETCH_TIMEOUT (R300). -/
  | stretchTimeout (a : Nat)
  /-- CTS_CHANGE (R297). -/
  | ctsChange (port : Nat) (high : Bool)
  /-- RX_ITEM_ARRIVAL (R320). -/
  | rxItemArrival (a : Nat) (x : RxItem)
  /-- GAP_MARKER_STORED (R22). -/
  | gapMarkerStored (a : Nat)
  /-- RX_IDLE_CLOSE (R298). -/
  | rxIdleClose (port : Nat)
  /-- USB_IN_PACKET (R295), and how many transactions were retried for errors before it (R330). -/
  | usbInPacket (a ep : Nat) (data : List Byte) (retried : Nat := 0)
  /-- INPUT_CHANGE (R304). -/
  | inputChange (port : Nat) (levels : BitVec 4) (since : Nat)
  /-- TX_HANDOFF (R324), what the check of the words read finds (R321), and the USB transactions retried before it (R330). -/
  | txHandoff (a n : Nat) (chk : WordCheck := .clean) (retried : Nat := 0)
  /-- PN_ALERT (R339). -/
  | pnAlert (ch : Nat)
  /-- REFRESH (R341). -/
  | refresh (ch dev : Nat)
  /-- SCRUB (R347). -/
  | scrub
  /-- XLAT_COMMIT (R352). -/
  | xlatCommit (fn : World) (hi : W32)
  /-- XLAT_DRAIN_DONE (R352). -/
  | xlatDrainDone (fn : World)
  /-- DW_START (R360). -/
  | dwStart (fn : World) (e : Nat) (v : W32)
  /-- DW_PAUSE (R366). -/
  | dwPause (fn : World) (e : Nat) (v : W32)
  /-- DW_ENABLE (R368). -/
  | dwEnable (fn : World) (e : Nat) (v : W32)
  /-- DW_REQ (R362). -/
  | dwReq (fn : World) (e : Nat) (v : W32)
  /-- DW_BURST_DONE (R363). -/
  | dwBurstDone (e : Nat) (r : LinkResult)
  /-- DW_CQ_HEAD (R369). -/
  | dwCqHead (fn : World) (e : Nat) (v : W32)
  /-- DRIVE_FAULT (R376). -/
  | driveFault (n : Nat) (low : Bool)
  /-- ENCODER_EDGE (R375). -/
  | encoderEdge (n : Nat) (levels : BitVec 3)
  /-- ENC_TIMEOUT (R375). -/
  | encTimeout (n : Nat)
  /-- ADC_SAMPLE (R374). -/
  | adcSample (n ch : Nat) (v : BitVec 12)
  /-- PWM_PERIOD_END (R373). -/
  | pwmPeriodEnd (n : Nat)
  /-- RAMP_TICK (R383). -/
  | rampTick (n : Nat)
  /-- INRUSH_END (R382). -/
  | inrushEnd (n : Nat)
  /-- ZC_EDGE (R392). -/
  | zcEdge (n : Nat)
  /-- ZC_TIMEOUT (R392). -/
  | zcTimeout (n : Nat)
  /-- LANDING_REQUEST (R406). -/
  | landingRequest (k r : Nat) (tag : World) (beats : Nat) (lowers : Bool) (ctx : Option Nat) (sup : Bool := false)
  /-- GRANT_END (R407). -/
  | grantEnd (k used : Nat)
  /-- FREEZE (R410). -/
  | freeze (fn : World) (k : Nat) (v : W32)
  /-- LD_BIAS_WRITE (R412). -/
  | ldBiasWrite (fn : World) (r : Nat) (v : W32)
  /-- LEAVE_REQUEST (R419). -/
  | leaveRequest (work : BoilerWork)
  /-- BOILER_EVALUATE (R420). -/
  | boilerEvaluate (plant : Bool)
  /-- LEASE_OVERRUN (R422). -/
  | leaseOverrun (lease : Nat)
  /-- BOILER_MEASURE (R425). -/
  | boilerMeasure (milliV ma100 : Nat)
  /-- PACE_CHANGE (R428). -/
  | paceChange (fn : World) (v : W32)
  /-- PACE_DONE (R428). -/
  | paceDone (milliV : Nat)
  /-- PMBUS_ALERT (R429). -/
  | pmbusAlert (status : Option (BitVec 16))
  /-- REF_LOST (R435). -/
  | refLost (byLoss : Bool)
  /-- LF_EDGE (R436). -/
  | lfEdge (refGood : Bool)
  /-- LF_ABSENT (R436). -/
  | lfAbsent (refRuns : Bool)
  /-- COMPARE_MATCH (R440). -/
  | compareMatch (u : Nat)
  /-- CMP_TGT_WRITE (R442). -/
  | cmpTgtWrite (fn : World) (u : Nat) (v : W32)
  /-- CMP_INT_WRITE (R441). -/
  | cmpIntWrite (fn : World) (u : Nat) (v : W32)
  /-- CMP_ARM_WRITE (R442). -/
  | cmpArmWrite (fn : World) (u : Nat) (v : W32)
  /-- STAT_SYNC (R445). -/
  | statSync (since : Nat) (rising : Bool)
  /-- EPOCH_PERIOD (R450). -/
  | epochPeriod (fn : World)
  /-- EPOCH_NOW (R450). -/
  | epochNow (fn : World) (v : W32)
  /-- ST_PERIOD_WRITE (R451). -/
  | stPeriodWrite (fn : World) (v : W32)
  /-- EPOCH_PUBLISH (R453). -/
  | epochPublish (fn : World)
  /-- FAULT_MESSAGE (R464). -/
  | faultMessage (ext : Option (W64 × Option Nat))
  /-- ERR_PULSE_END (R468). -/
  | errPulseEnd
  /-- RECORD_CLEAR (R470): of a function's view, or of the Study view, which no host register reaches (R463). -/
  | recordClear (view : Option World) (src : Nat) (v : W32)
  /-- FAULT_INJECT (R471). -/
  | faultInject (fn : World) (hi : W32)
  /-- ERR_HOLD_WRITE (R469). -/
  | errHoldWrite (fn : World) (v : W32)
  /-- STUDY_HOLD_SET (R469). -/
  | studyHoldSet
  /-- TRIPLE_SWEEP (R477). -/
  | tripleSweep (word : Nat) (a b d : CopyRead)
  /-- SAVE_ARMED (R480). -/
  | saveArmed (milliV : Nat)
  /-- SAVE_START (R482). -/
  | saveStart (pfail vin12 : Bool)
  /-- SAVE_COMMIT (R485). -/
  | saveCommit
  /-- HOLDUP_COLLAPSE (R36). -/
  | holdupCollapse
  /-- IDCODE (R523). -/
  | idcode
  /-- SAMPLE (R523). -/
  | sample
  /-- EXTEST (R506). -/
  | extest
  /-- CLAMP (R523). -/
  | clamp
  /-- HIGHZ (R523). -/
  | highz
  /-- BYPASS (R523): its own code or one that no instruction has. -/
  | bypass (code : BitVec 8 := 0xFF)
  /-- DBG_HALT (R506). -/
  | dbgHalt
  /-- DBG_RUN (R523). -/
  | dbgRun
  /-- DBG_READ (R506). -/
  | dbgRead (t : DebugTarget)
  /-- DBG_WRITE (R506). -/
  | dbgWrite (t : DebugTarget) (data : List Byte)
  /-- FUSE_PROG (R497). -/
  | fuseProg (field : FuseField) (v : BitVec 768)
  /-- LC_ADVANCE (R505). -/
  | lcAdvance
  /-- LC_RETIRE (R505). -/
  | lcRetire
  /-- SMB_FY_ID (R524). -/
  | smbFyId (acc : SmbAccess := .blockRead false)
  /-- SMB_AT_STATUS (R524). -/
  | smbAtStatus (acc : SmbAccess := .blockRead false)
  /-- SMB_FAULT_SUMMARY (R524). -/
  | smbFaultSummary (acc : SmbAccess := .blockRead false)
  /-- SMB_DIE_MEAS (R524). -/
  | smbDieMeas (acc : SmbAccess := .blockRead false)
  /-- SMB_HOLDUP (R524). -/
  | smbHoldup (acc : SmbAccess := .blockRead false)
  /-- SMB_CL_STATUS (R524). -/
  | smbClStatus (acc : SmbAccess := .blockRead false)
  /-- LINK_UP (R69). -/
  | linkUp
  /-- PORT_PHY_FAULT (R326). -/
  | portPhyFault (port : Nat)
  /-- REPORT_WRITTEN (R507). -/
  | reportWritten (r : LinkResult)
  /-- DOMAIN_ON (R517). -/
  | domainOn (d : Nat)
  /-- SAVE_DISARMED (R480). -/
  | saveDisarmed (milliV : Nat)
  deriving DecidableEq, Repr

end Sys2Proof
end

