-- ==== Sys2Proof/Decode.lean ====
section
/-! DEFINITION. The words of the Hearth instructions by their opcodes and functions (R128, R129), and the command that a table word
spells: no row of the spec's table of operations gives bits, so none. -/
namespace Sys2Proof

/-! ### Fields of an instruction word (R128) -/

/-- A field of an instruction word. -/
def wField (w : W32) (lo n : Nat) : Nat := w.toNat / 2 ^ lo % 2 ^ n

/-- A register field. -/
def wReg (w : W32) (lo : Nat) : Reg := Fin.ofNat 32 (wField w lo 5)

/-- The formats A, I, M and F. -/
def fmtA (w : W32) : FmtA := { rd := wReg w 21, ra := wReg w 16, rb := wReg w 11 }
def fmtI (w : W32) : FmtI := { rd := wReg w 21, ra := wReg w 16, imm := BitVec.ofNat 16 (wField w 0 16) }
def fmtM (w : W32) : FmtM :=
  { rd := wReg w 21, ra := wReg w 16, mode := BitVec.ofNat 2 (wField w 14 2), low := BitVec.ofNat 14 (wField w 0 14) }
def fmtF (w : W32) : FmtF :=
  { rd := wReg w 21, ra := wReg w 16, pos := BitVec.ofNat 6 (wField w 10 6), len1 := BitVec.ofNat 6 (wField w 4 6)
    s := wField w 3 1 = 1, rsv := BitVec.ofNat 3 (wField w 0 3) }

/-! ### Functions by opcode (R130, R139, R151, R153, R155, R159, R165 to R167) -/

/-- Opcode ALU (R130). -/
def aluRow (c : Nat) (f : FmtA) : Nat → Option Instr
  | 1 => some (.add c f)
  | 2 => some (.sub c f)
  | 3 => some (.and c f)
  | 4 => some (.or c f)
  | 5 => some (.xor c f)
  | 6 => some (.andn c f)
  | 7 => some (.nor c f)
  | 8 => some (.sll c f)
  | 9 => some (.srl c f)
  | 10 => some (.sra c f)
  | 11 => some (.rotr c f)
  | 12 => some (.min c f)
  | 13 => some (.max c f)
  | 14 => some (.minu c f)
  | 15 => some (.maxu c f)
  | 16 => some (.clz c f)
  | 17 => some (.popc c f)
  | 18 => some (.bswap c f)
  | _ => none

/-- Opcode MULDIV (R130). -/
def muldivRow (c : Nat) (f : FmtA) : Nat → Option Instr
  | 1 => some (.mul c f)
  | 2 => some (.mulh c f)
  | 3 => some (.mulhu c f)
  | 4 => some (.div c f)
  | 5 => some (.divu c f)
  | 6 => some (.rem c f)
  | 7 => some (.remu c f)
  | _ => none

/-- Opcode CMP (R130). -/
def cmpRow (c : Nat) (f : FmtA) : Nat → Option Instr
  | 1 => some (.ceq c f)
  | 2 => some (.cne c f)
  | 3 => some (.clt c f)
  | 4 => some (.cltu c f)
  | 5 => some (.cle c f)
  | 6 => some (.cleu c f)
  | 7 => some (.cbef32 c f)
  | _ => none

/-- Opcode SYS (R153). -/
def sysRow (c : Nat) (f : FmtA) : Nat → Option Instr
  | 1 => some (.mfc c f)
  | 2 => some (.mtc c f)
  | 3 => some (.retx c f)
  | 4 => some (.fence c f)
  | 5 => some (.lock c f)
  | 6 => some (.unlock c f)
  | 7 => some (.yield c f)
  | _ => none

/-- Opcode JUMP (R139). -/
def jumpRow (c : Nat) (f : FmtA) : Nat → Option Instr
  | 1 => some (.jr c f)
  | 2 => some (.jalr c f)
  | _ => none

/-- Opcode BLOCK (R151), with the elements before an interruption. -/
def blockRow (c limit : Nat) (f : FmtA) : Nat → Option Instr
  | 1 => some (.movb c f limit)
  | 2 => some (.fillb c f limit)
  | _ => none

/-- The row of an FMK by its operation rb[2:0]; 6 and 7, which no mark operation has, are refused by any of them (R155). -/
def fmkRow (c : Nat) (f : FmtA) (op : Nat) : Instr :=
  let via : MarkVia := .fmk f.rd f.ra f.rb
  match op with
  | 1 => .setTx c via
  | 2 => .releaseRx c via
  | 3 => .releaseTx c via
  | 4 => .rewindRx c via
  | 5 => .rewindTx c f
  | _ => .setRx c via

/-- The row of a PCMD by its command code rb[7:0]; a code that no command has is refused by any of them (R305, R306). -/
def pcmdRow (c : Nat) (f : FmtA) : Nat → Instr
  | 2 => .usbIn c f
  | 3 => .usbOut c f
  | 4 => .usbOutZlp c f
  | 5 => .usbIntPoll c f
  | 6 => .usbClearHalt c f
  | 7 => .usbAbort c f
  | 8 => .uartBreak c f
  | 9 => .uartLine c f
  | 10 => .uartRts c f
  | 11 => .uartClose c f
  | 12 => .spiXfer c f
  | 13 => .spiRead c f
  | 14 => .i2cWrite c f
  | 15 => .i2cRead c f
  | 16 => .i2cWriteRead c f
  | 17 => .i2cGpio c f
  | 18 => .gpioSet c f
  | 19 => .gpioPulse c f
  | 20 => .gpioBlink c f
  | _ => .usbCtrl c f

/-- Opcode PORT (R155); `v` is the value of register rb. -/
def portRow (c : Nat) (f : FmtA) (v : W64) : Nat → Option Instr
  | 1 => some (.frd c f)
  | 2 => some (.fopen c f)
  | 3 => some (.fput c f)
  | 4 => some (.fclose c f)
  | 5 => some (fmkRow c f (v.toNat % 8))
  | 6 => some (pcmdRow c f (v.toNat % 256))
  | 7 => some (.pstat c f)
  | _ => none

/-- Opcode STREAM (R155). -/
def streamRow (c : Nat) (f : FmtA) : Nat → Option Instr
  | 1 => some (.xget c f)
  | 2 => some (.xput c f)
  | 3 => some (.xrem c f)
  | 4 => some (.hend c f)
  | _ => none

/-- The row of a DWR by its item (R159, R380). -/
def driveRow (c : Nat) (f : FmtA) : Nat → Option Instr
  | 1 => some (.run c f)
  | 2 => some (.dutyA c f)
  | 3 => some (.dutyB c f)
  | 4 => some (.burst c f)
  | 5 => some (.pwmFreq c f)
  | 6 => some (.dir c f)
  | 7 => some (.ilim c f)
  | 8 => some (.safeReq c f)
  | 9 => some (.faultClear c f)
  | 10 => some (.encCmp c f)
  | 11 => some (.encZero c f)
  | _ => none

/-- Opcode CTL (R166). -/
def ctlRow (c : Nat) (f : FmtA) : Nat → Option Instr
  | 1 => some (.pi c f)
  | 2 => some (.rlim c f)
  | 3 => some (.fom c f)
  | _ => none

/-- Opcode FLINT (R167). -/
def flintRow (c limit : Nat) (f : FmtA) : Nat → Option Instr
  | 1 => some (.flinit c f)
  | 2 => some (.flabs c f limit)
  | 3 => some (.flsqz c f)
  | 4 => some (.flver c f)
  | 5 => some (.flend c f)
  | _ => none

/-- SHIFTI by the kind of its immediate (R132). -/
def shiftRow (c : Nat) (rd ra : Reg) (imm : Nat) : Instr :=
  let rsv := BitVec.ofNat 8 (imm / 64 % 256)
  let amount := BitVec.ofNat 6 (imm % 64)
  match imm / 16384 with
  | 0 => .slli c rd ra rsv amount
  | 1 => .srli c rd ra rsv amount
  | 2 => .srai c rd ra rsv amount
  | _ => .rotri c rd ra rsv amount

/-! ### The opcode map (R129) -/

/-- What an instruction word is: the row of an instruction, a DWR of an item that takes no write, an extension instruction, or an
unassigned opcode or function. -/
inductive HearthWord where
  | row (i : Instr)
  | driveWrite (f : FmtA) (item : Nat)
  | extension
  | unassigned
  deriving DecidableEq, Repr

/-- A function of an opcode. -/
def HearthWord.ofRow : Option Instr → HearthWord
  | some i => .row i
  | none => .unassigned

/-- The word of a context by the opcode map; the registers give FMK and PCMD their operation, `limit` the block instructions
theirs. -/
def hearthWord (c limit : Nat) (g : Reg → W64) (w : W32) : HearthWord :=
  let f := fmtA w
  let i := fmtI w
  let m := fmtM w
  let fn := wField w 0 11
  match wField w 26 6 with
  | 0x00 => .ofRow (aluRow c f fn)
  | 0x01 => .ofRow (muldivRow c f fn)
  | 0x02 => .ofRow (cmpRow c f fn)
  | 0x03 => .ofRow (sysRow c f fn)
  | 0x04 => .row (.addi c i)
  | 0x05 => .row (.andi c i)
  | 0x06 => .row (.ori c i)
  | 0x07 => .row (.xori c i)
  | 0x08 => .row (.ceqi c i)
  | 0x09 => .row (.clti c i)
  | 0x0A => .row (.cltui c i)
  | 0x0B => .row (.seth c i)
  | 0x0C => .row (shiftRow c f.rd f.ra (wField w 0 16))
  | 0x0D => .row (if (fmtF w).s then .exts c (fmtF w) else .extu c (fmtF w))
  | 0x0E => .row (.ins c (fmtF w))
  | 0x10 => .row (.ldb c m)
  | 0x11 => .row (.ldh c m)
  | 0x12 => .row (.ldw c m)
  | 0x13 => .row (.ldd c m)
  | 0x14 => .row (.ldbs c m)
  | 0x15 => .row (.ldhs c m)
  | 0x16 => .row (.ldws c m)
  | 0x18 => .row (.stb c m)
  | 0x19 => .row (.sth c m)
  | 0x1A => .row (.stw c m)
  | 0x1B => .row (.std c m)
  | 0x1C => .row (.lea c m)
  | 0x20 => .row (.bz c f.rd (BitVec.ofNat 21 (wField w 0 21)))
  | 0x21 => .row (.bnz c f.rd (BitVec.ofNat 21 (wField w 0 21)))
  | 0x22 => .row (.br c (BitVec.ofNat 26 (wField w 0 26)))
  | 0x23 => .row (.call c (BitVec.ofNat 26 (wField w 0 26)))
  | 0x24 => .ofRow (jumpRow c f fn)
  | 0x25 => .row (.loop c f.rd f.ra (BitVec.ofNat 16 (wField w 0 16)))
  | 0x26 => .row (.loopi c (BitVec.ofNat 10 (wField w 16 10)) (BitVec.ofNat 16 (wField w 0 16)))
  | 0x28 => .ofRow (blockRow c limit f fn)
  | 0x2A => .row (.trap c (BitVec.ofNat 8 (wField w 0 8)) (BitVec.ofNat 18 (wField w 8 18)))
  | 0x2B => .row (.rep c (BitVec.ofNat 26 (wField w 0 26)))
  | 0x2C => .row (.niw c (BitVec.ofNat 7 (wField w 0 7)) (BitVec.ofNat 19 (wField w 7 19)))
  | 0x30 => .ofRow (portRow c f (g f.rb) fn)
  | 0x31 => .ofRow (streamRow c f fn)
  | 0x32 => .ofRow (if fn = 0 then some (.waite c f) else none)
  | 0x33 =>
    match fn % 8, driveRow c f (fn / 8) with
    | 1, _ => .row (.drd c f (BitVec.ofNat 8 (fn / 8)))
    | 2, some j => .row j
    | 2, none => .driveWrite f (fn / 8)
    | _, _ => .unassigned
  | 0x34 => .ofRow (if fn = 0 then some (.leaveInstr c f) else none)
  | 0x3C =>
    let alg := BitVec.ofNat 4 (fn / 128)
    let size := BitVec.ofNat 2 (fn / 32 % 4)
    let rsv := BitVec.ofNat 4 (fn % 16)
    .row (if fn / 16 % 2 = 1 then .crcb c f alg size rsv limit else .crc c f alg size rsv)
  | 0x3D => .ofRow (ctlRow c f fn)
  | 0x3E => .ofRow (flintRow c limit f fn)
  | 0x3F => .extension
  | _ => .unassigned

/-- The instruction of a word, where it is a row's. -/
def decodeHearth (c limit : Nat) (g : Reg → W64) (w : W32) : Option Instr :=
  match hearthWord c limit g w with
  | .row i => some i
  | _ => none

/-! ### JTAG codes (R523) -/

/-- A JTAG instruction code that selects BYPASS: its own, and every code that R523 lists for no other instruction. -/
def isBypassCode (code : BitVec 8) : Bool :=
  !([0x01, 0x02, 0x03, 0x04, 0x05, 0x20, 0x21, 0x22, 0x23, 0x30, 0x31, 0x32] : List (BitVec 8)).contains code

/-! ### Words of the table of operations -/

/-- The command of a table word: none, for the table gives no row any bits (spec/opcode_table.json). -/
def decodeTableWord (_nbits _w : Nat) : Option Instr := none

end Sys2Proof
end

