-- ==== Sys2Proof/Config.lean ====
section
/-! DEFINITION. What one implementation of the block fixes, and the free values that the spec leaves open. -/
namespace Sys2Proof

/-- The n-th value that the spec leaves unspecified (log 7): nothing constrains it. -/
opaque Config.freeValue : Nat → W64

/-- The byte of host memory at a bus address that this run has not written (log 15). -/
opaque Config.hostByte : Nat → Byte

/-- Byte i of the SHAKE256 output over a message (R50, R54, R55, R167; log 16). -/
opaque Config.shakeByte : List Byte → Nat → Byte

/-- Whether an SLH-DSA-SHAKE-256s signature verifies: key, message, signature (R53, R167; log 16). -/
opaque Config.slhVerify : List Byte → List Byte → List Byte → Bool

/-- Byte i of the SLH-DSA-SHAKE-256f signature of a message under the key of a device secret (R508; log 16). -/
opaque Config.slhSignByte : BitVec 768 → List Byte → Nat → Byte

/-- Byte i of the device public key of a device secret (R509; log 16). -/
opaque Config.devicePublicByte : BitVec 768 → Nat → Byte

/-- SHAKE256 of a message, n bytes of output (R50). -/
def Config.shake (msg : List Byte) (n : Nat) : List Byte := (List.range n).map (Config.shakeByte msg)

/-- The signature of a report: 49,856 bytes (R508). -/
def Config.slhSign (secret : BitVec 768) (msg : List Byte) : List Byte :=
  (List.range 49856).map (Config.slhSignByte secret msg)

/-- The device public key: 64 bytes (R509). -/
def Config.devicePublic (secret : BitVec 768) : List Byte := (List.range 64).map (Config.devicePublicByte secret)

/-- Vyesque's JEDEC manufacturer code, bits [11:1] of IDCODE (R523): the spec gives no number (log 17). -/
opaque Config.jedecId : BitVec 11

/-- Whether Boiler switches a domain off at a Quartz time at which it may (R35; log 113). -/
opaque Config.domainOff : Nat → Nat → Bool

/-- The level of DP_ZC of a drive at a time between rising edges (R380; log 122). -/
opaque Config.zcHigh : Nat → Nat → Bool

/-- What a cell of the boundary scan register holds at a time (R506, R523): the board shifts it, and no row does (log 98). -/
opaque Config.boundaryCell : Nat → Nat → Bool

/-- Nanoseconds of one advance on the 25 MHz reference (R434). -/
def Config.advanceNs : Nat := 40

end Sys2Proof
end

