-- ==== Sys2Proof/Machine/Tbl.lean ====
section
/-! DEFINITION. Sparse tables and byte memories, each a list of (key, value) pairs in one canonical form. -/
namespace Sys2Proof.Machine

/-- A sparse table: pairs of rising keys; a key without a pair has the table's default value, which no pair holds. -/
abbrev Tbl (α : Type) := List (Nat × α)

/-- The value at a key, or the default. -/
def Tbl.get {α : Type} (d : α) : Tbl α → Nat → α
  | [], _ => d
  | (k', v) :: t, k => if k = k' then v else Tbl.get d t k

/-- The table with a pair listed at a key, the default among its values too. -/
def Tbl.ins {α : Type} : Tbl α → Nat → α → Tbl α
  | [], k, v => [(k, v)]
  | (k', v') :: t, k, v =>
    if k < k' then (k, v) :: (k', v') :: t
    else if k = k' then (k, v) :: t
    else (k', v') :: Tbl.ins t k v

/-- The table with the value at a key replaced, in canonical form: the default is not listed. -/
def Tbl.put {α : Type} [DecidableEq α] (d : α) (t : Tbl α) (k : Nat) (v : α) : Tbl α :=
  if v = d then t.filter (fun p => decide (p.1 ≠ k)) else Tbl.ins t k v

/-- The table with the value at a key changed by a function. -/
def Tbl.upd {α : Type} [DecidableEq α] (d : α) (t : Tbl α) (k : Nat) (f : α → α) : Tbl α :=
  t.put d k (f (t.get d k))

/-- The value listed at a key, if any. -/
def Tbl.find {α : Type} : Tbl α → Nat → Option α
  | [], _ => none
  | (k', v) :: t, k => if k = k' then some v else Tbl.find t k

/-- The keys of a table all lie above a bound and rise. -/
def Tbl.rising {α : Type} : Option Nat → Tbl α → Bool
  | _, [] => true
  | none, (k, _) :: t => Tbl.rising (some k) t
  | some b, (k, _) :: t => decide (b < k) && Tbl.rising (some k) t

/-- The canonical form: rising keys and no pair that holds the default. -/
def Tbl.wf {α : Type} [DecidableEq α] (d : α) (t : Tbl α) : Bool :=
  Tbl.rising none t && t.all (fun p => decide (p.2 ≠ d))

/-- A byte memory. -/
abbrev Memory := List Host.Cell

/-- The canonical form of a byte memory whose unlisted bytes read as `d`. -/
def Memory.wf (d : Byte) (m : Memory) : Bool := Tbl.wf d m

/-- The byte at an address. -/
def Memory.byte (d : Byte) (m : Memory) (a : Nat) : Byte := Tbl.get d m a

/-- The memory with one byte written. -/
def Memory.setByte (d : Byte) (m : Memory) (a : Nat) (b : Byte) : Memory := Tbl.put d m a b

/-- n bytes from an address. -/
def Memory.bytes (d : Byte) (m : Memory) (a n : Nat) : List Byte :=
  (List.range n).map (fun i => Memory.byte d m (a + i))

/-- The memory with a list of bytes written from an address. -/
def Memory.write (d : Byte) (m : Memory) (a : Nat) : List Byte → Memory
  | [] => m
  | b :: bs => Memory.write d (Memory.setByte d m a b) (a + 1) bs

/-- Host memory: a byte not listed is the free byte of its address (log 15). -/
def hostByteOf (m : Memory) (a : Nat) : Byte := (Tbl.find m a).getD (Config.hostByte a)

/-- n bytes of host memory. -/
def hostBytesOf (m : Memory) (a n : Nat) : List Byte := (List.range n).map (fun i => hostByteOf m (a + i))

/-- Host memory with a list of bytes written. -/
def hostWriteOf (m : Memory) (a : Nat) : List Byte → Memory
  | [] => m
  | b :: bs => hostWriteOf (Tbl.ins m a b) (a + 1) bs

end Sys2Proof.Machine
end

