-- ==== Sys2Proof/Machine/Bits.lean ====
section
/-! DEFINITION. Bit fields, byte order, sign extension and checksums. -/
namespace Sys2Proof.Machine

/-- Bits [lo + n - 1 : lo] of a number. -/
def bits (v lo n : Nat) : Nat := (v / 2 ^ lo) % 2 ^ n

/-- Bit i of a number. -/
def bitAt (v i : Nat) : Bool := bits v i 1 = 1

/-- The number 1 or 0 of a bit. -/
def bnat (b : Bool) : Nat := if b then 1 else 0

/-- The value of a little-endian byte list (R6). -/
def leNat : List Byte → Nat
  | [] => 0
  | b :: bs => b.toNat + 256 * leNat bs

/-- n bytes of a number, least significant first (R6). -/
def leBytes : Nat → Nat → List Byte
  | 0, _ => []
  | n + 1, v => BitVec.ofNat 8 v :: leBytes n (v / 256)

/-- The n bytes at an offset of a byte list, short where the list ends. -/
def slice (l : List Byte) (off n : Nat) : List Byte := (l.drop off).take n

/-- The little-endian field of n bytes at an offset of a byte list. -/
def fieldAt (l : List Byte) (off n : Nat) : Nat := leNat (slice l off n)

/-- Whether all n bytes at an offset are 0. -/
def zeroAt (l : List Byte) (off n : Nat) : Bool := (slice l off n).all (fun b => b = 0)

/-- The signed value of the low n bits of a number. -/
def signed (n v : Nat) : Int :=
  let x := v % 2 ^ n
  if x < 2 ^ (n - 1) then (x : Int) else (x : Int) - (2 ^ n : Nat)

/-- The low n bits of an integer as a number. -/
def unsignedOf (n : Nat) (i : Int) : Nat := (i % ((2 ^ n : Nat) : Int)).toNat

/-- A number saturated at a bound. -/
def satAt (m v : Nat) : Nat := if v ≤ m then v else m

/-- A 32-bit counter advanced by one, saturating at 0xFFFF_FFFF. -/
def satInc32 (v : Nat) : Nat := satAt 0xFFFFFFFF (v + 1)

/-- One step of a reflected CRC by one bit. -/
def crcBitRefl (poly c : Nat) : Nat := if c % 2 = 1 then (c / 2) ^^^ poly else c / 2

/-- One step of a reflected CRC by one byte. -/
def crcByteRefl (poly c : Nat) (b : Byte) : Nat :=
  Nat.repeat (crcBitRefl poly) 8 (c ^^^ b.toNat)

/-- A reflected CRC over a byte list from a register value. -/
def crcRefl (poly c : Nat) (l : List Byte) : Nat := l.foldl (crcByteRefl poly) c

/-- One step of a CRC that is not reflected, by one bit of a register of n bits. -/
def crcBitPlain (n poly c : Nat) : Nat := if bitAt c (n - 1) then (2 * c % 2 ^ n) ^^^ poly else 2 * c % 2 ^ n

/-- A CRC that is not reflected, by one byte. -/
def crcBytePlain (n poly c : Nat) (b : Byte) : Nat := Nat.repeat (crcBitPlain n poly) 8 (c ^^^ (b.toNat * 2 ^ (n - 8)))

/-- CRC-32C with initial value and final exclusive-or of all ones (R364, R487). -/
def crc32c (l : List Byte) : Nat := crcRefl 0x82F63B78 0xFFFFFFFF l ^^^ 0xFFFFFFFF

/-- The world of item i in an assignment map of two bits an item; code 3 is taken as 0 (R501). -/
def mapWorld (m i : Nat) : Option World :=
  match bits m (2 * i) 2 with
  | 1 => some .slate
  | 2 => some .granite
  | _ => none

/-- ⌈a / b⌉ for b above 0. -/
def ceilDiv (a b : Nat) : Nat := (a + b - 1) / b

/-- a rounded up to a multiple of b. -/
def roundUp (a b : Nat) : Nat := ceilDiv a b * b

end Sys2Proof.Machine
end

