-- ==== Sys2Proof/Machine/State.lean ====
section
/-! DEFINITION. The state of the block as plain data, its faults and refusals, and the state after reset. -/
namespace Sys2Proof.Machine


/-! ### Start-up (02) -/

/-- What configuration is in force (R63, R64). -/
inductive ConfigKind where
  | none
  | bare
  | builtin
  | image
  deriving DecidableEq, Repr

/-- The Attic and the Study ROM (R41, R57, R65 to R68). -/
structure Attic where
  /-- AT_STATUS.STATE: 0 RESET, 1 PROBE, 2 FW, 3 SELECT, 4 APPLY, 5 RESTORE, 6 DONE, 7 HALTED (R65). -/
  state : Nat := 0
  sel : Nat := 0
  conflict : Bool := false
  fallback : Bool := false
  fwRecovery : Bool := false
  boardOk : Bool := false
  cellarRestored : Bool := false
  pantryFail : Bool := false
  aResult : Nat := 0
  bResult : Nat := 0
  resetCause : Nat := 0
  fwGen : Nat := 0
  genA : Nat := 0
  genB : Nat := 0
  mode : Nat := 0
  timeSafe : Nat := 0
  digest : Nat := 0
  gdigest : Nat := 0
  /-- The configuration chosen or in force. -/
  config : ConfigKind := .none
  /-- Flash base of the image copy in force, of the firmware copy and of the board record copy (R48). -/
  imageBase : Option Nat := none
  fwBase : Option Nat := none
  boardBase : Option Nat := none
  /-- Whether the flash is read in 8D-8D-8D (R45). -/
  octal : Bool := false
  /-- The ball XSPI_CS_N, high at reset and whenever no command reads or writes the flash (R42). -/
  xspiCsN : Bool := true
  /-- Flash addresses whose read has been retried once, and those whose retry failed too (R47). -/
  readRetry : List Nat := []
  readBad : List Nat := []
  /-- Kinds of copies found in conflict since the reset (R58). -/
  conflicts : List Nat := []
  /-- Step 7 has judged the Cellar slots (R69, R489). -/
  judged : Bool := false
  deriving DecidableEq, Repr

/-! ### Faults (13) -/

/-- A source record of one view (R463 to R465, R474). -/
structure FaultRec where
  active : Bool := false
  severe : Bool := false
  merged : Bool := false
  mixed : Bool := false
  count : Nat := 0
  first : W64 := 0
  tFirst : Nat := 0
  tLast : Nat := 0
  /-- The kinds whose cause can persist that the record has seen (R470). -/
  levels : List Nat := []
  winStart : Nat := 0
  winCount : Nat := 0
  deriving DecidableEq, Repr

/-- One history entry (R466, R475). -/
structure Hist where
  msg : W64 := 0
  time : Nat := 0
  ctx : Option Nat := none
  merged : Bool := false
  madeSevere : Bool := false
  count : Nat := 0
  deriving DecidableEq, Repr

/-- One view of the Fault Collector (R463, R473, R474). -/
structure View where
  recs : Tbl FaultRec := []
  hist : Tbl Hist := []
  histSeq : Nat := 0
  eventCnt : Nat := 0
  histLost : Nat := 0
  clearRefused : Bool := false
  injectDenied : Bool := false
  vec : Nat := 0xFFFF
  onSevere : Bool := false
  onEvent : Bool := false
  deriving DecidableEq, Repr

/-- A fault message and the context it concerns (R459, R462). -/
structure Report where
  msg : W64
  ctx : Option Nat := none
  deriving DecidableEq, Repr

/-- The threshold entry of one source (R472). -/
structure FaultCfg where
  n : Nat := 8
  wMs : Nat := 1000
  noErr : Bool := false
  deriving DecidableEq, Repr

/-- The Fault Collector (R463 to R478). -/
structure Collector where
  views : Two View := ⟨{}, {}⟩
  study : View := {}
  /-- Messages sent and not yet taken, oldest first (R467). -/
  buf : List Report := []
  pulse : Bool := false
  /-- The time of the latest severe event that pulsed ERR_N (R468). -/
  pulseAt : Nat := 0
  hold : Two Bool := ⟨false, false⟩
  studyHold : Bool := false
  /-- A severe event has pulsed ERR_N for which the Study hold is due (R469). -/
  holdDue : Bool := false
  graniteHalt : Bool := false
  /-- Entries of the FAULT section that differ from the built-in ones, STUDY_HOLD and the save areas (R472). -/
  cfg : Tbl FaultCfg := []
  /-- The three copies of the Granite control words that are not three good copies of the value in force (R476, R477). -/
  triples : Tbl (List CopyRead) := []
  studyHoldFlag : Bool := true
  saveAddr : Two Nat := ⟨0, 0⟩
  saveLen : Two Nat := ⟨0, 0⟩
  deriving DecidableEq, Repr

/-! ### Supply, hold-up and the Cellar (13, 15) -/

/-- What the Cellar is writing (R485, R491, R504). -/
inductive CellarJob where
  | idle
  | startRecord
  | auditRecord
  | save
  deriving DecidableEq, Repr

/-- The power-fail save (R482). -/
inductive SavePhase where
  /-- No save since the last reset. -/
  | none
  /-- Between steps 2 and 7. -/
  | running
  /-- The save has ended and the device waits in SAVING. -/
  | ended
  deriving DecidableEq, Repr

/-- Supplies, resets and the power monitor (R36, R41, R44, R480, R481, R515). -/
structure Power where
  railsOk : Bool := true
  /-- RESET is held by no source: the device is out of reset. -/
  perstLow : Bool := false
  pfailLow : Bool := false
  vin12Low : Bool := false
  holdupMv : Nat := 0
  ready : Bool := false
  phase : SavePhase := .none
  /-- The save writes nothing to the Cellar (R486). -/
  noWrite : Bool := false
  cause : Nat := 0
  saveStart : Nat := 0
  /-- HOLDUP is connected to VSAVE, from step 2 of the save; before that VSAVE carries VIN12 (R482, R513). -/
  vsaveHold : Bool := false
  /-- The supply has collapsed: only a power-on reset follows (R36). -/
  lost : Bool := false
  deriving DecidableEq, Repr

/-- The Cellar and its registers (R487 to R493). -/
structure Cellar where
  /-- One MiB in two slots; a byte not listed reads 0 (log 12). -/
  mem : Memory := []
  /-- The 8-byte words that read with an error that SECDED corrects, and those that it does not (R487; log 130). -/
  corr : List Nat := []
  bad : List Nat := []
  slotA : Nat := 0
  slotB : Nat := 0
  newestB : Bool := false
  hasNewest : Bool := false
  conflict : Bool := false
  restored : Bool := false
  foreign : Bool := false
  partSlot : Bool := false
  noValid : Bool := false
  startWritten : Bool := false
  seq : Nat := 0
  saveUs : Nat := 0
  omitted : Nat := 0
  lostStatus : Nat := 0
  job : CellarJob := .idle
  /-- Statistics were restored: the first boundary of each world carries RESTORED (R454). -/
  statsRestored : Bool := false
  /-- Highest valid SEQ found at step 7 or written since (R491). -/
  highSeq : Nat := 0
  deriving DecidableEq, Repr

/-! ### Quartz and statistics (12) -/

/-- A compare unit (R438 to R448). -/
structure CmpUnit where
  tgt : W32 := 0
  int : W32 := 0
  arm : Bool := false
  irq : Bool := false
  lock : Bool := false
  vec : Nat := 0
  fired : Bool := false
  late : Bool := false
  missed : Nat := 0
  pend : Bool := false
  /-- The present target was already passed at the advance that made it the target (R439). -/
  tgtLate : Bool := false
  deriving DecidableEq, Repr

/-- A register write to a compare unit that waits for the next advance (R442). -/
inductive CmpWrite where
  | tgt (v : W32)
  | int (v : W32)
  | ctl (v : W32) (msixCount : Nat)
  | stat (v : W32)
  | pend
  deriving DecidableEq, Repr

/-- A linked counter of the QZ or the ST block (R437): its block and the offset of its low word. -/
structure Snapshot where
  low : Option Nat := none
  high : W32 := 0
  deriving DecidableEq, Repr

/-- Quartz (R434 to R448). Times are nanoseconds below 2^64. -/
structure Quartz where
  now : Nat := 0
  /-- The counter before the last advance (R438). -/
  prev : Nat := 0
  lf : Bool := false
  /-- The 25 MHz reference is lost or stopped (R435). -/
  refLost : Bool := false
  debugHalt : Bool := false
  lfAbsent : Bool := false
  refLostBit : Bool := false
  /-- t_L, LF edges since it, and consecutive good LF periods (R436). -/
  tL : Nat := 0
  lfEdges : Nat := 0
  goodPeriods : Nat := 0
  lfCnt : Nat := 0
  sync : Nat := 0
  syncCnt : Nat := 0
  window : Bool := false
  /-- SYNC_FALLING of the TIMING section (R446). -/
  syncFalling : Bool := false
  torn : Two Bool := ⟨false, false⟩
  snap : Two Snapshot := ⟨{}, {}⟩
  units : Tbl CmpUnit := []
  /-- Writes accepted and not yet applied, oldest first (R442). -/
  writes : List (Nat × CmpWrite) := []
  deriving DecidableEq, Repr

/-- One bank of counters of a world: world counters, lane counters at 16 l + i, port counters at 8 n + i (R456). -/
structure Bank where
  world : Tbl Nat := []
  lane : Tbl Nat := []
  port : Tbl Nat := []
  deriving DecidableEq, Repr

/-- A table of counters of a bank. -/
inductive CounterTable where
  | world
  | lane
  | port
  deriving DecidableEq, Repr

/-- What a counter was advanced by, and when: at one time, or over an interval for a time-valued counter (R452). -/
structure Counted where
  table : CounterTable
  key : Nat
  start : Nat
  stop : Nat
  n : Nat
  deriving DecidableEq, Repr

/-- A closed epoch (R449, R453). -/
structure Epoch where
  bank : Bank := {}
  start : Nat := 0
  stop : Nat := 0
  cause : Nat := 0
  deriving DecidableEq, Repr

/-- The epoch engine of one world (R449 to R458). -/
structure EpochEngine where
  periodMs : Nat := 0
  lock : Bool := false
  syncEn : Bool := false
  seq : Nat := 0
  next : Nat := 0
  vec : Nat := 0xFFFF
  torn : Bool := false
  snap : Snapshot := {}
  /-- The running epoch: its counts, START, and the CAUSE bits that the next boundary will carry beside its own. -/
  bank : Bank := {}
  start : Nat := 0
  cause : Nat := 0
  running : Bool := false
  /-- What is counted from the time of a periodic boundary that is due and not yet taken (R452). -/
  bankNext : Bank := {}
  /-- What was counted in the last 100 µs: a STAT_SYNC edge is accepted after its time, which is that of its boundary (R445, R452). -/
  recent : List Counted := []
  /-- A boundary has been taken since step 8. -/
  bounded : Bool := false
  /-- A boundary taken and not yet published. -/
  latched : Option Epoch := none
  /-- The readable epoch. -/
  readable : Epoch := {}
  /-- Since when each lane has had a member of the world in safe state (R456, SAFE_NS). -/
  safeSince : Tbl Nat := []
  deriving DecidableEq, Repr

/-! ### Security and test (14, 15) -/

/-- The fuses (R494). A slot of all zeros is empty. -/
structure Fuses where
  fwKey : Tbl Nat := []
  imgKey : Tbl Nat := []
  grnKey : Tbl Nat := []
  revoke : Nat := 0
  /-- The lifecycle state code: the number of LIFECYCLE bits blown (R505). -/
  lifecycle : Nat := 0
  deviceSecret : BitVec 768 := 0
  dsn : Nat := 0
  grade : Bool := false
  deriving DecidableEq, Repr

/-- An attestation in progress (R507). -/
structure AttestJob where
  /-- CMD_TAG of the command, and where the report goes. -/
  tag : Nat
  dest : Nat
  report : List Byte
  deriving DecidableEq, Repr

/-- An ATTEST that waits for the device key (R507). -/
structure AttestReq where
  tag : Nat
  dest : Nat
  nonce : List Byte
  deriving DecidableEq, Repr

/-- Flint and the security registers (R503 to R510). -/
structure FlintUnit where
  /-- The lifecycle in force since the reset (R505). -/
  lifecycle : Nat := 0
  fwSlot : Nat := 0
  imgSlot : Nat := 0
  grnSlot : Nat := 0
  audit : Nat := 0
  attestCnt : Nat := 0
  debugCnt : Two Nat := ⟨0, 0⟩
  devkeyOk : Bool := false
  devkey : List Byte := []
  debugSlate : Bool := false
  slateObserved : Bool := false
  attest : Option AttestJob := none
  attestWait : Option AttestReq := none
  /-- How many audit records are due, one for each advance (R504). -/
  auditDue : Nat := 0
  /-- LC_ADVANCE waits for its audit record before it blows the fuse (R504). -/
  lcPending : Nat := 0
  deriving DecidableEq, Repr

/-- JTAG (R506, R523). -/
structure Jtag where
  /-- The instruction register (R523). -/
  ir : Nat := 0xFF
  /-- A debug session on Slate state or on Granite state is open. -/
  openSlate : Bool := false
  openGranite : Bool := false
  deriving DecidableEq, Repr

/-! ### Pantry and Dumbwaiters (09) -/

/-- Pantry, its controllers and the host window translation (R333 to R356). -/
structure Pantry where
  /-- The bytes of the device's own DRAM; a byte not listed reads 0 (log 10). -/
  mem : Memory := []
  /-- Burst numbers that stand uncorrectable (R346), and the places in error of a burst, 8 × ball + beat (R344, R345). -/
  poison : List Nat := []
  errs : Tbl (List Nat) := []
  /-- The channels whose PN_RST_N has been released (R337, R342). -/
  rstOff : List Nat := []
  /-- Translation entries by page: VALID, READ_ONLY, NO_SNOOP and BUS_ADDR (R351). -/
  xlat : Tbl W64 := []
  /-- Pages whose entry has an uncorrectable error (R354). -/
  xlatBad : List Nat := []
  busy : Two Bool := ⟨false, false⟩
  rejected : Two Bool := ⟨false, false⟩
  xlatIdx : Two Nat := ⟨0, 0⟩
  trained : List Nat := []
  failed : List Nat := []
  scrubActive : Bool := false
  errAddr : Two Nat := ⟨0, 0⟩
  scrubCnt : Nat := 0
  corr : Tbl Nat := []
  uncorr : Tbl Nat := []
  caErr : Tbl Nat := []
  /-- PN_TRAIN words by channel (R356). -/
  train : Tbl Nat := []
  /-- The next bank and row to refresh of device d of channel i, at 2 i + d (R341). -/
  refresh : Tbl Nat := []
  /-- The REFRESH words that channel i issued in the last 6 clocks, oldest first: time, device and word (R339). -/
  issued : Tbl (List (Nat × Nat × Nat)) := []
  /-- The next burst that the scrubber reads (R347). -/
  scrubBurst : Nat := 0
  deriving DecidableEq, Repr

/-- The state of a Dumbwaiter (R361). -/
inductive DwState where
  | disabled
  | idle
  | leaveWait
  | running
  | pausing
  | paused
  | cqWait
  | error
  deriving DecidableEq, Repr

/-- One Dumbwaiter (R358 to R370). -/
structure Dw where
  src : Nat := 0
  dst : Nat := 0
  cnt : Nat := 0
  tag : Nat := 0
  start : Bool := false
  pause : Bool := false
  enable : Bool := false
  burstLog : Nat := 0
  reqKind : Nat := 0
  reqUnit : Nat := 0
  irq : Bool := false
  state : DwState := .disabled
  descending : Bool := false
  cqFault : Bool := false
  last : Nat := 0
  reqPending : Nat := 0
  dl : Nat := 0
  leave : Nat := 1
  shSrc : Nat := 0
  shDst : Nat := 0
  shCnt : Nat := 0
  shArm : Bool := false
  shTag : Nat := 0
  cqBase : Nat := 0
  cqDepth : Nat := 0
  cqTail : Nat := 0
  cqTailWrap : Bool := false
  cqHead : Nat := 0
  cqHeadWrap : Bool := false
  vec : Nat := 0xFFFF
  reqLost : Nat := 0
  /-- The descriptor as taken, whether it came from the shadow set, and the bytes moved, in address order. -/
  tSrc : Nat := 0
  tDst : Nat := 0
  tCnt : Nat := 0
  tTag : Nat := 0
  handover : Bool := false
  moved : List Byte := []
  /-- The status of a record that waits for room in the ring (R369). -/
  waiting : Option Nat := none
  /-- After the waiting record the engine goes to DISABLED (R361). -/
  stopAfter : Bool := false
  /-- ENABLE was written and the domain is not on yet (R361). -/
  enableWait : Bool := false
  lease : Option Nat := none
  deriving DecidableEq, Repr

/-! ### Foyer, queues and mailboxes (07) -/

/-- The state of a function (R242). -/
inductive FState where
  | stopped
  | running
  | lost
  deriving DecidableEq, Repr

/-- The host state of a world (R36). -/
inductive HostState where
  | off
  | autonomous
  | hosted
  | saving
  deriving DecidableEq, Repr

/-- An MSI-X table entry (R233; as PCIe): address, data and the mask bit of its vector control. -/
structure MsixEntry where
  addr : W64 := 0
  data : W32 := 0
  masked : Bool := true
  deriving DecidableEq, Repr

/-- One function with its world's host state (R233 to R247, R276). -/
structure Func where
  host : HostState := .off
  bme : Bool := false
  d3hot : Bool := false
  drvVer : Nat := 0
  start : Bool := false
  fstate : FState := .stopped
  plain : Bool := false
  startErr : Nat := 0
  lostCause : Nat := 0
  featAccept : Nat := 0
  /-- The accepted word in force since the last start (R245, R248). -/
  accepted : Nat := 0
  aqSqBase : Nat := 0
  aqCqBase : Nat := 0
  aqDepth : Nat := 0
  wdogLast : Nat := 0
  event : Nat := 0
  eventMask : Nat := 0x1F
  eventVec : Nat := 0xFFFF
  dbErr : Nat := 0
  ovfHwm : Nat := 0
  msix : Tbl MsixEntry := []
  /-- The pending bit array of MSI-X (R233). -/
  pba : List Nat := []
  /-- Held low words of 64-bit registers, by the register's offset (R11, log 8). -/
  heldLow : Tbl W32 := []
  deriving DecidableEq, Repr

/-- The state of a submission queue (R261). -/
inductive SqState where
  | none
  | disabled
  | enabled
  | error
  | lost
  deriving DecidableEq, Repr

/-- An index and its wrap bit (R252). -/
structure Ptr where
  idx : Nat := 0
  wrap : Bool := false
  deriving DecidableEq, Repr

/-- A fetched, unbound entry: its first slot, the slots it takes in the ring, and its logical slots (R255 to R258). -/
structure Entry where
  first : Ptr
  ringSlots : Nat
  data : List Byte
  deriving DecidableEq, Repr

/-- A run of grouped entries of one queue (R263): members bound, members ended, members that posted their own
status, the BATCH entry's tag once bound, and the context that ended last. -/
structure Group where
  bound : Nat := 0
  ended : Nat := 0
  posted : Nat := 0
  lastTag : Nat := 0
  closed : Bool := false
  lastCtx : Nat := 0
  deriving DecidableEq, Repr

/-- A submission queue (R251 to R263, R276). -/
structure Sq where
  state : SqState := .none
  base : Nat := 0
  depth : Nat := 0
  cq : Nat := 0
  accepted : Nat := 0
  lanes : Nat := 0
  backOffice : Bool := false
  head : Ptr := {}
  tail : Ptr := {}
  errPtr : Ptr := {}
  errReason : Nat := 0
  held : Bool := false
  /-- The front entry has been counted in HT_BIND_WAIT_CNT (R215). -/
  bindWaited : Bool := false
  /-- The front entry has waited for a Hearth cluster to be switched on (R217). -/
  clusterWait : Bool := false
  /-- The next slot to fetch, and the entries fetched and not yet bound. -/
  fetch : Ptr := {}
  entries : List Entry := []
  /-- A plain job whose entries are being gathered: slots due and bytes so far (R257). -/
  job : Option Entry := none
  jobSlots : Nat := 0
  jobTag : Nat := 0
  /-- Groups by number, and the number of the open group (R263). -/
  groups : Tbl Group := []
  groupNo : Nat := 0
  groupOpen : Bool := false
  /-- Entries fetched so far of a group not yet closed (R260, GROUP). -/
  groupRun : Nat := 0
  /-- Programs bound from the queue that have not placed their final status (R258, ORDERED). -/
  live : Nat := 0
  deriving DecidableEq, Repr

/-- The state of a completion queue (R266). -/
inductive CqState where
  | none
  | active
  | lost
  deriving DecidableEq, Repr

/-- A completion queue (R264 to R267, R276). -/
structure Cq where
  state : CqState := .none
  base : Nat := 0
  depth : Nat := 0
  vector : Nat := 0xFFFF
  intCount : Nat := 1
  intDelayUs : Nat := 0
  head : Ptr := {}
  tail : Ptr := {}
  unannounced : Nat := 0
  firstAt : Nat := 0
  deriving DecidableEq, Repr

/-- The kind of a completion entry (R264). -/
inductive ComplKind where
  | program
  | admin
  | event
  | orphan
  deriving DecidableEq, Repr

/-- A completion entry before it takes its PHASE and its SQ_HEAD (R264). -/
structure Compl where
  body : List Byte
  sq : Nat := 0
  tag : Nat := 0
  ctx : Nat := 0
  kind : ComplKind := .program
  batch : Bool := false
  overflowed : Bool := false
  kindData : Nat := 0
  deriving DecidableEq, Repr

/-- An entry of the overflow store (R268): its world, its completion queue and whether it takes a reserved place. -/
structure OvfEntry where
  world : World
  cq : Nat
  compl : Compl
  reserved : Bool
  deriving DecidableEq, Repr

/-- A status that waits for a free entry of the store (R268). -/
structure WaitStatus where
  world : World
  cq : Nat
  compl : Compl
  deriving DecidableEq, Repr

/-- The queue manager of one world (R251 to R276). -/
structure Qm where
  sqs : Tbl Sq := []
  cqs : Tbl Cq := []
  /-- A HALT in progress: its context and tag; its admin completion waits for the final status (R275). -/
  haltWait : Option (Nat × Nat) := none
  /-- Orphans of the last start: how many, and how many are not yet placed in CQ 0 (R270). -/
  orphansPosted : Nat := 0
  orphansDue : Nat := 0
  /-- The queue that was fetched for last (R258). -/
  fetchLast : Nat := 0
  deriving DecidableEq, Repr

/-- A mailbox (R277 to R280). -/
structure Mailbox where
  req : Nat := 0
  note : Nat := 0
  reqMask : Nat := 0
  noteMask : Nat := 0
  ackCode : Nat := 0
  ackBit : Nat := 0
  ackValid : Bool := false
  /-- Acknowledges held while VALID is 1: code, bit and reply, oldest first (R279). -/
  held : List (Nat × Nat × List (Nat × W64)) := []
  collide : Bool := false
  vec : Nat := 0xFFFF
  msg : Tbl W64 := []
  /-- Held low words of the message registers on the partner's side (R11, log 8). -/
  partnerLow : Tbl W32 := []
  deriving DecidableEq, Repr

/-- A flash session (R281, R282). -/
structure FlashSession where
  world : World
  target : Nat
  copy : Nat
  base : Nat
  written : Nat := 0
  /-- A COMMIT of the Slate mailbox was denied: only STATUS and a Granite COMMIT follow. -/
  denied : Bool := false
  deriving DecidableEq, Repr

/-- The flash and its service (R46, R281). -/
structure Flash where
  /-- The first 32 MiB; a byte not listed is erased, 0xFF (log 5). -/
  mem : Memory := []
  session : Option FlashSession := none
  deriving DecidableEq, Repr

/-! ### Contexts and Hearths (03 to 06) -/

/-- The state of a context (R211). -/
inductive CtxState where
  | free
  | ready
  | running
  | waiting
  | suspended
  | error
  | migrating
  deriving DecidableEq, Repr

/-- A save register set (R173, R174). -/
structure SaveSet where
  pc : W64 := 0
  st : W64 := 0
  x : W64 := 0
  deriving DecidableEq, Repr

/-- A CCW as fetched, with the address it was fetched from (R82). -/
structure Ccw where
  loc : Nat := 0
  code : Nat := 0
  tgt : Nat := 0
  flags : Nat := 0
  count : Nat := 0
  param : Nat := 0
  addr : Nat := 0
  deriving DecidableEq, Repr

/-- The piece of a member's buffer that the transfer has reached: the entry of its IDAL, the member's byte that it starts
with, its address and its length (R101). -/
structure Piece where
  idx : Nat
  start : Nat
  addr : Nat
  len : Nat
  deriving DecidableEq, Repr

/-- The data stream of the current CCW and its chain (R95, R101, R110, R161). -/
structure Stream where
  /-- The members fetched so far, first to last; the first may be one that an earlier attempt had begun. -/
  members : List Ccw := []
  /-- Bytes of the first member that were done before this attempt. -/
  base : Nat := 0
  /-- Bytes moved through the stream by this attempt, and those of them committed at a receive commit point (R224). -/
  moved : Nat := 0
  committed : Nat := 0
  /-- Bytes that the port has handed off for this attempt (R223). -/
  handed : Nat := 0
  /-- The members whose interim status has gone out (R109, R227). -/
  posted : List Nat := []
  piece : Option Piece := none
  /-- The PARAM that bytes 0 to 3 of the data gave under DLN (R88). -/
  param : Option Nat := none
  deriving DecidableEq, Repr

/-- A handler activation (R155 to R164, R224). -/
structure Activation where
  /-- The command code of the CCW. -/
  code : Nat
  /-- The target index, and the attachment it names, if it names one. -/
  tgt : Nat
  att : Option Nat
  portDone : Bool := false
  channelDone : Bool := false
  /-- This activation set the RX mark of its attachment (R224), and its channel mark of R323. -/
  rxMark : Bool := false
  txMark : Bool := false
  deriving DecidableEq, Repr

/-- The attachment latch of an activation or context (R158). -/
structure AttLatch where
  att : Nat
  events : Nat
  deriving DecidableEq, Repr

/-- A Flint hashing session (R168). -/
structure FlintSession where
  absorbed : List Byte := []
  squeezing : Bool := false
  pos : Nat := 0
  deriving DecidableEq, Repr

/-- A store to a host window page that waits to be issued (R136, R187). -/
structure BufStore where
  world : World
  addr : Nat
  data : List Byte
  ccw : Nat
  /-- The program that made the store is no longer bound (R188). -/
  old : Bool := false
  deriving DecidableEq, Repr

/-- A lock held: its number, the world it belongs to, and whether a visit took it (R220, R221). -/
structure LockRef where
  num : Nat
  world : World
  visit : Bool
  deriving DecidableEq, Repr

/-- What a WAITING context waits for (R118, R213). -/
inductive Wait where
  | none
  /-- A WAIT CCW on a target with an event mask (R104). -/
  | ccw (tgt mask : Nat)
  /-- WAITE on an attachment with an event mask, through target latch `tgt` or the attachment latch (R158). -/
  | waite (att mask : Nat) (tgt : Option Nat)
  | lock (num : Nat) (world : World)
  /-- LEAVE, by instruction or CCW (R423, R424). -/
  | leave
  | drive (n : Nat)
  | flint
  /-- FLVER, for leave and then for Flint (R24, R167). -/
  | flverLeave
  | flver
  /-- A receive or transmit FIFO of an attachment has no space (R21). -/
  | txSpace (att : Nat)
  /-- A status waits for room in the overflow store (R268). -/
  | status
  /-- After a migration: the port has still to end what the CCW handed off (R227). -/
  | portEnd
  deriving DecidableEq, Repr

/-- The visit of a context to the other world (R198, R210). -/
structure Visit where
  frame : Nat
  callerSuper : Bool
  callerWorld : World
  deriving DecidableEq, Repr

/-- A late bus error that waits for delivery (R188, R189). -/
structure AsyncErr where
  reason : Nat
  addr : Nat
  multi : Bool := false
  deriving DecidableEq, Repr

/-- A CCW end that is due at the next boundary that R164 and R186 allow: status, unit code, and the context state
that follows. -/
structure DueEnd where
  status : Nat
  unit : Nat
  async : Bool := false
  deriving DecidableEq, Repr

/-- A lease that a context waits for or has been answered: none while it waits (R422). -/
inductive LeaveAnswer where
  | none
  | granted (lease : Nat)
  | refused
  /-- A lock that was handed to a waiting LOCK (R220). -/
  | locked (num : Nat)
  /-- Flint has finished an FLVER (R168). -/
  | verified
  deriving DecidableEq, Repr

/-- One context: its record (R210) and its issue-slot state (R116, R211). -/
structure Ctx where
  state : CtxState := .free
  resumePending : Bool := false
  byCommand : Bool := false
  /-- SUSPEND was recorded and takes effect at the next boundary (R112). -/
  suspendDue : Bool := false
  /-- After RESUME of a context that the SUSPEND command stopped, the named CCW executes even with SUS (R112). -/
  susPass : Bool := false
  /-- The program has ended and its final status waits to be placed (R268). -/
  ending : Bool := false
  /-- The context is to be SUSPENDED once its interim status, which waits for room, has been placed (R213, R268). -/
  parked : Bool := false
  /-- Attachments of its target table that have been removed since the program started (R113). -/
  gone : List Nat := []
  /-- The lease that an FLVER holds (R24, R418). -/
  flverLease : Option Nat := none
  /-- The loss of the issue slot is held by a window or a delay slot (R186, R194). -/
  slotDue : Bool := false
  /-- The deadline is kept at the next start of the CCW, which migration begins again (R227). -/
  keepDl : Bool := false
  /-- The lease that LEAVE CCWs made on each budget, 0 die and 1 plant; 0 for none (R424). -/
  ccwLease : Tbl Nat := []
  suspendCause : Nat := 0
  lane : Nat := 0
  level : Nat := 0
  home : Nat := 0
  migCount : Nat := 0
  sq : Nat := 0
  cq : Nat := 0
  tag : Nat := 0
  header : Nat := 0
  ccwAddr : Nat := 0
  /-- The current CCW as last fetched (CCW_IMAGE). -/
  ccw : Option Ccw := none
  /-- The current CCW has started. -/
  started : Bool := false
  bindTime : Nat := 0
  deadline : Nat := 0xFFFFFFFFFFFFFFFF
  pdeadline : Nat := 0xFFFFFFFFFFFFFFFF
  tgtCount : Nat := 0
  softDl : Bool := false
  /-- The target table, by index (R78). -/
  targets : Tbl Nat := []
  il : Bool := false
  long : Bool := false
  cond : Bool := false
  late : Bool := false
  timeout : Bool := false
  interimPosted : Bool := false
  outputHanded : Bool := false
  /-- COND of the most recent command CCW, which a TIC tests (R97). -/
  lastCond : Bool := false
  ticRun : Nat := 0
  rxCommit : Option Nat := none
  locks : List LockRef := []
  leases : List Nat := []
  lastStatus : Nat := 0
  lastUnit : Nat := 0
  /-- CCW_ADDR and RESIDUAL of the last status posted (R112, HALT). -/
  postedAddr : Nat := 0
  postedResid : Nat := 0
  restarts : Nat := 0
  /-- When a resident program is bound again (R230). -/
  restartAt : Option Nat := none
  visit : Option Visit := none
  latch : Tbl Nat := []
  commitSeq : Nat := 0
  ccwSeq : Nat := 0
  regs : Tbl W64 := []
  pc : W64 := 0
  st : W64 := 0
  lc : Nat := 0
  ls : W64 := 0
  le : W64 := 0
  rc : Nat := 0
  user : SaveSet := {}
  super : SaveSet := {}
  gate : SaveSet := {}
  /-- The branch whose delay slot is next: its address and where control goes after the slot (R139). -/
  branch : Option (W64 × W64) := none
  /-- Delayed results that the next retirement writes (R138). -/
  delayed : List (Reg × W64) := []
  /-- REP is in progress: the next command is one repetition of the instruction after it (R148). -/
  rep : Bool := false
  /-- The next instruction is the shadow of an entry (R185). -/
  shadow : Bool := false
  asyncErr : Option AsyncErr := none
  /-- R115 ends the program at its next boundary: the CCW whose store failed. -/
  asyncCcw : Option Nat := none
  stores : List BufStore := []
  wait : Wait := .none
  waitSince : Nat := 0
  answer : LeaveAnswer := .none
  /-- When the answer to its LEAVE or to its drive write was given (R89, R103). -/
  answeredAt : Nat := 0
  /-- The binding of its resident program has asked for the switch-on of a cluster (R217). -/
  placeAsked : Bool := false
  /-- When its last program ended (R313). -/
  endedAt : Nat := 0
  slot : Nat := 0
  retired : Nat := 0
  /-- The order of becoming READY (R218). -/
  readySeq : Nat := 0
  act : Option Activation := none
  stream : Stream := {}
  attLatch : Option AttLatch := none
  due : Option DueEnd := none
  flint : Option FlintSession := none
  /-- The group of its entry, and whether its entry is the BATCH entry (R263). -/
  group : Option Nat := none
  batch : Bool := false
  /-- The submission queue that the program was bound from, which ADOPT leaves. -/
  bindSq : Nat := 0
  /-- ORDERED bookkeeping: the context counts in its queue's live programs (R258). -/
  counted : Bool := false
  /-- Profile last used on each target (R113). -/
  profiles : Tbl Nat := []
  migStart : Nat := 0
  /-- Restored from the Cellar: RESUME fetches its header and its CCW again (R490). -/
  refetch : Bool := false
  /-- Bound before a host loss of its world: its queue numbers name queues of that time, until ADOPT (R270, R275). -/
  orphaned : Bool := false
  /-- A word of the record, by its index, has an uncorrectable error that no read has met yet (R210, R212). -/
  recordBad : Option Nat := none
  deriving DecidableEq, Repr

/-- Hearth counters of one world (R208, R231). -/
structure HearthCnt where
  nested : Nat := 0
  async : Nat := 0
  refused : Nat := 0
  viol : Nat := 0
  mig : Nat := 0
  migMax : Nat := 0
  spill : Nat := 0
  bindWait : Nat := 0
  lockTo : Nat := 0
  lockOrd : Nat := 0
  lockRel : Nat := 0
  restart : Nat := 0
  deriving DecidableEq, Repr

/-- The Hearths (R225, R231). -/
structure Hearths where
  /-- Hearths out of service until the next reset. -/
  failed : List Nat := []
  cnt : Two HearthCnt := ⟨{}, {}⟩
  readySeq : Nat := 0
  /-- Clusters whose switch-on Boiler refused, until one is granted (R217). -/
  refusedClusters : List Nat := []
  /-- Probe requests made (R313). -/
  probeSeq : Nat := 0
  deriving DecidableEq, Repr

/-- A probe session of an attachment: the context that runs it (R313). -/
structure ProbeRun where
  ctx : Nat
  cand : Nat
  deriving DecidableEq, Repr

/-! ### The configuration loaded from the image (05, 06, 07, 08, 09, 10, 11, 13, 14) -/

/-- A Pantry region (R501). -/
structure Region where
  base : Nat
  len : Nat
  world : World
  deriving DecidableEq, Repr

/-- A host window page range (R501). -/
structure Window where
  first : Nat
  count : Nat
  world : World
  deriving DecidableEq, Repr

/-- A HANDLER entry (R204). -/
structure HandlerEntry where
  key : Nat
  kind : Nat
  mask : Nat
  entry : Nat
  deriving DecidableEq, Repr

/-- A RESIDENT entry (R228). -/
structure ResidentEntry where
  ctx : Nat
  lane : Nat
  cluster : Nat
  restart : Bool
  limit : Nat
  header : Nat
  delayMs : Nat
  deriving DecidableEq, Repr

/-- A Pantry buffer pool (R349). -/
structure Pool where
  region : Nat
  offset : Nat
  size : Nat
  count : Nat
  deriving DecidableEq, Repr

/-- What the image fixes for one world. -/
structure WorldCfg where
  /-- KERNEL (R203): loaded, load address, vector table, region attributes by region number. -/
  kernel : Bool := false
  kernelAddr : Nat := 0
  vbase : Nat := 0
  attrs : Tbl Nat := []
  /-- HANDLER (R204). -/
  handler : Bool := false
  handlerAddr : Nat := 0
  handlers : List HandlerEntry := []
  /-- GATES (R206). -/
  niMax : Nat := 0
  frameBase : Nat := 0
  gates : Tbl Nat := []
  /-- RESIDENT (R228). -/
  residents : List ResidentEntry := []
  lockWaitUs : Nat := 0
  /-- HOST (R250): whether the world has that section. -/
  hosted : Bool := false
  sqShare : Nat := 0
  cqShare : Nat := 0
  msixCount : Nat := 0
  maxLevel : Nat := 0
  flashMb : Nat := 0xFF
  wdogMs : Nat := 0
  bar2 : Bool := false
  featureMask : Nat := 0
  partner : Tbl Nat := []
  /-- TEXT entries by port (R315). -/
  text : Tbl (List Byte) := []
  /-- Probe contexts (R311). -/
  probes : List Nat := []
  deriving DecidableEq, Repr

/-! ### Porch (08) -/

/-- A loaded PORT entry (R286, R287). -/
structure PortCfg where
  mode : Nat := 0
  dropOvr : Bool := false
  drop : Bool := false
  flow : Bool := false
  rs485 : Bool := false
  vbusSafeOff : Bool := false
  hubs : Bool := false
  pktMax : Nat := 0
  resRx : Tbl Nat := []
  resTx : Tbl Nat := []
  cands : List Nat := []
  ocFilterUs : Nat := 0
  ocRetryMs : Nat := 0
  /-- LINE words, RX_IDLE, EOP_CHAR, EOP_EN and TX_TURN of a UART port. -/
  line : Tbl Nat := []
  rxIdle : Nat := 0
  eopChar : Nat := 0
  eopEn : Bool := false
  txTurn : Nat := 0
  sckHz : Nat := 0
  spiMode : Nat := 0
  csSetup : Nat := 0
  csHold : Nat := 0
  csIdle : Nat := 0
  sclHz : Nat := 0
  addr : Tbl Nat := []
  stretchUs : Nat := 0
  gpioDir : Nat := 0
  gpioSafe : Nat := 0
  /-- PIN entries: DIR, SAFE, FILTER_US, PULSE_MAX_MS, PULSE_GAP_MS by pin. -/
  pinDir : Tbl Nat := []
  pinSafe : Tbl Nat := []
  pinFilter : Tbl Nat := []
  pulseMax : Tbl Nat := []
  pulseGap : Tbl Nat := []
  deriving DecidableEq, Repr

/-- One output pin of a port (R301 to R303, R305). -/
structure Pin where
  level : Bool := false
  /-- Quartz time at which a running pulse ends, and the earliest time of the next. -/
  pulseEnd : Option Nat := none
  gapUntil : Nat := 0
  /-- A running blink: on and off times in 10 ms units. -/
  blink : Option (Nat × Nat) := none
  deriving DecidableEq, Repr

/-- One lane port (R284 to R304, R330, R331). -/
structure Port where
  cfg : PortCfg := {}
  /-- LP_A to LP_D are high impedance with the pull-down: from reset until step 8 enables the port (R42). -/
  lpZ : Bool := true
  /-- Ungated and working (PO_STATUS.ENABLED). -/
  enabled : Bool := false
  safe : Bool := false
  vbus : Bool := false
  ocLockout : Bool := false
  /-- Times of the overcurrents of the last 60 s, newest first, and when power returns. -/
  ocTimes : List Nat := []
  ocRetry : Option Nat := none
  refuseStatus : Nat := 0
  refuseParent : Nat := 0
  refusePort : Nat := 0
  event : Nat := 0
  rxLost : Nat := 0
  gapCnt : Nat := 0
  eccCorr : Nat := 0
  eccUncorr : Nat := 0
  lineErr : Nat := 0
  ocCnt : Nat := 0
  lineSel : Nat := 0
  /-- RTS of a UART port, but for RS485, where it is the driver enable: high until TX_TURN after the last stop bit (R297). -/
  rts : Bool := false
  txEnd : Nat := 0
  /-- Since when the driver of an RS485 port has been enabled for the characters to come (R297). -/
  rtsAt : Option Nat := none
  /-- The slot of the attachment whose control or bulk data was served last (R290). -/
  rrSlot : Nat := 0
  /-- The number of the next command accepted on the port (R300). -/
  cmdSeq : Nat := 0
  /-- Where devices were refused: the hub port, or the port itself, stays disabled until the device goes (R293). -/
  refused : List (Option (Nat × Nat)) := []
  cts : Bool := false
  pins : Tbl Pin := []
  /-- Filtered input levels (R304). -/
  inputs : Nat := 0
  deriving DecidableEq, Repr

/-- The state of an attachment (R309). -/
inductive AttState where
  | empty
  | debounce
  | enumerating
  | probing
  | ready
  | failed
  deriving DecidableEq, Repr

/-- A pending port command: its code, endpoint and arguments (R305). -/
structure PortCmd where
  code : Nat
  ep : Nat
  arg : Nat
  /-- Bytes still to send, bytes still to receive, and bytes sent in the present stage. -/
  toSend : Nat := 0
  toRecv : Nat := 0
  sent : Nat := 0
  /-- The setup packet of a control transfer, as far as it has been handed off. -/
  setup : List Byte := []
  /-- The fill byte that SPI_READ sends (R305). -/
  fill : Nat := 0
  /-- Its place in the order of acceptance on its port (R300). -/
  order : Nat := 0
  output : Bool := false
  ctx : Nat := 0
  deriving DecidableEq, Repr

/-- A word of a port FIFO (R317, R318): a head word of a packet, a data word, or a gap marker, with its ECC state. -/
structure FifoWord where
  w : W32
  head : Bool := false
  /-- Of a head word: the data words of its packet, by the channel's own record. -/
  span : Nat := 0
  /-- The word has an uncorrectable error, or a correctable one (R321). -/
  bad : Bool := false
  soft : Bool := false
  /-- The loss items that a data word holds: bytes, one character, or the event whose first word it is (R318, R326). -/
  items : Nat := 0
  deriving DecidableEq, Repr

/-- A receive channel (R316 to R325). Positions count words from the channel's creation. -/
structure RxChan where
  /-- Words not yet freed, oldest first; the first stands at position `freed`. -/
  words : List FifoWord := []
  freed : Nat := 0
  /-- The position of the next word to be read, and of the end of what is visible. -/
  read : Nat := 0
  visible : Nat := 0
  mark : Option Nat := none
  /-- The open packet: the position of its head word, its items, and whether some had a line error. -/
  openAt : Option Nat := none
  openItems : Nat := 0
  openErr : Bool := false
  /-- The endpoint whose USB transfer the open packet, or the loss in progress, belongs to (R295). -/
  openEp : Nat := 0
  /-- The pending marker: its count; it has taken a word at that position; its boundary has passed. -/
  gap : Nat := 0
  gapAt : Option Nat := none
  gapBoundary : Bool := false
  /-- Items are discarded until the next boundary (R320). -/
  discard : Bool := false
  deriving DecidableEq, Repr

/-- A transmit packet (R157, R322). -/
structure TxPacket where
  words : List W32 := []
  /-- The context that opened it. -/
  ctx : Nat := 0
  /-- Length in bytes once closed. -/
  len : Option Nat := none
  /-- Bytes handed off. -/
  handed : Nat := 0
  bad : Bool := false
  deriving DecidableEq, Repr

/-- A transmit channel (R316, R322 to R325). -/
structure TxChan where
  /-- Packets not yet handed off whole, oldest first; the last may be open. -/
  packets : List TxPacket := []
  /-- The context whose packet is open. -/
  owner : Option Nat := none
  /-- Words ever written, and the write position of the mark. -/
  written : Nat := 0
  mark : Option Nat := none
  deriving DecidableEq, Repr

/-- One attachment (R307, R309, R332). -/
structure Att where
  state : AttState := .empty
  hub : Bool := false
  speed : Nat := 0
  tier : Nat := 0
  parent : Nat := 0
  hubPort : Nat := 0
  profile : Nat := 0
  pver : Nat := 0
  resRx : Nat := 0
  resTx : Nat := 0
  status : Nat := 0
  seq : Nat := 0
  error : Nat := 0
  errEp : Nat := 0
  cmds : List PortCmd := []
  /-- The endpoint served last (R290). -/
  rrEp : Nat := 0
  /-- The place in the PROFILE body of the entry that was accepted (R311, R312). -/
  profEntry : Option Nat := none
  /-- The data toggle of each endpoint, by its address (R305). -/
  toggles : Tbl Nat := []
  /-- The USB device address in use and the configuration set, 0 before (R290, R292, R311). -/
  addr : Nat := 0
  config : Nat := 0
  attempts : Nat := 0
  desc : Option Descriptors := none
  probe : Option ProbeRun := none
  /-- A probe waits for a probe context: the candidate index (R313). -/
  probeWait : Option Nat := none
  probeStart : Nat := 0
  /-- When the attachment entered its state. -/
  since : Nat := 0
  /-- The place of its waiting probe in the order of requests (R313). -/
  probeOrder : Nat := 0
  /-- The waiting probe has asked for the switch-on of a cluster (R217). -/
  probeAsked : Bool := false
  rx : RxChan := {}
  tx : TxChan := {}
  deriving DecidableEq, Repr

/-- A PROFILE entry (R311). -/
structure Profile where
  num : Nat
  usb : Bool
  matchBits : Nat
  vid : Nat
  pid : Nat
  cls : Nat
  sub : Nat
  proto : Nat
  config : Nat
  bcdMin : Nat
  bcdMax : Nat
  probe : Nat
  verMin : Nat
  verMax : Nat
  defIn : Nat
  defOut : Nat
  timeoutMs : Nat
  outputMask : Nat
  deriving DecidableEq, Repr

/-- A PROFILE body (R311). -/
structure ProfileCfg where
  loaded : Bool := false
  stride : Nat := 0
  base : Nat := 0
  profiles : List Profile := []
  deriving DecidableEq, Repr

/-- A lane (R289). -/
structure LaneCfg where
  owner : Nat := 0
  cluster : Nat := 0xFF
  listed : Bool := false
  ports : Nat := 0
  drives : Nat := 0
  deriving DecidableEq, Repr

/-! ### Drives (10) -/

/-- A loaded PLANT entry, with the ROM program fields of PLANT_BASIC (R378, R396). -/
structure DriveCfg where
  mode : Nat := 0
  keep : Bool := false
  adcSync : Bool := false
  quad : Bool := false
  safeAction : Nat := 0
  pwmFreq : Nat := 0
  deadNs : Nat := 0
  rampUp : Nat := 0
  rampDn : Nat := 0
  stopRampMs : Nat := 0
  safeDuty : Nat := 0
  loadW : Nat := 0
  inrushW : Nat := 0
  inrushMs : Nat := 0
  cls : Nat := 0
  encFilter : Nat := 0
  stopPort : Nat := 0xFFFF
  stopPin : Nat := 0
  stopLevel : Bool := false
  ilim : Nat := 0
  zcDelayUs : Nat := 0
  /-- 0 none, 1 master, 2 slave of a gang (R377, R399). -/
  gang : Nat := 0
  master : Nat := 0
  romProg : Nat := 0
  romDuty : Nat := 0
  defrostEvery : Nat := 0
  defrostMax : Nat := 0
  defrostEnd : Nat := 0
  dripMin : Nat := 0
  floatAvg : Nat := 0
  chgIlim : Nat := 0
  deriving DecidableEq, Repr

/-- A waiting increase of a drive item (R381, R384): the item, its value, and the writer. -/
structure Increase where
  item : Nat
  value : Nat
  ctx : Option Nat
  demand : Nat
  est : Nat
  /-- The number of its leave request. -/
  order : Nat
  deriving DecidableEq, Repr

/-- What an answered write leaves for its re-executed DWR or its PLANT (R159, R384). -/
structure DriveAnswer where
  ctx : Nat
  result : Nat
  unit : Nat := 0
  deriving DecidableEq, Repr

/-- How the output moves (R383, R388). -/
inductive Motion where
  /-- Toward the targets, by RAMP_UP and RAMP_DN. -/
  | follow
  /-- A linear stop from an output, begun at a time. -/
  | stop (fromA fromB start : Nat)
  /-- Held at SAFE_DUTY by FIXED, or falling to 0 from it. -/
  | fixed
  | fall
  /-- Outputs low. -/
  | off
  deriving DecidableEq, Repr

/-- One drive port (R371 to R400). -/
structure Drive where
  cfg : DriveCfg := {}
  run : Bool := false
  dutyA : Nat := 0
  dutyB : Nat := 0
  burst : Nat := 0
  freq : Nat := 0
  dir : Bool := false
  dirNow : Bool := false
  ilim : Nat := 0
  encCmp : Nat := 0
  /-- Actual output of A or BURST and of B, and what the current PWM period still shows (R373). -/
  actA : Nat := 0
  actB : Nat := 0
  perA : Nat := 0
  perB : Nat := 0
  perFreq : Nat := 0
  /-- The current period has been cut by the current limit (R374). -/
  cut : Bool := false
  ilimAt : Option Nat := none
  motion : Motion := .follow
  /-- Balls: A, B and EN driven high. -/
  pwmA : Bool := false
  pwmB : Bool := false
  en : Bool := false
  adc0 : Nat := 0
  adc1 : Nat := 0
  /-- The last 1,024 samples of each converter, newest first (R374). -/
  hist0 : List Nat := []
  hist1 : List Nat := []
  encPos : Nat := 0
  encPeriod : Nat := 0xFFFFFFFF
  encLast : Option Nat := none
  encLevels : Nat := 0
  hallBad : Bool := false
  faultLow : Bool := false
  faultHighAt : Nat := 0
  zcOk : Bool := false
  zcPeriod : Nat := 0
  zcLast : Option Nat := none
  zcCount : Nat := 0
  zcLevel : Bool := false
  acc : Nat := 0
  fire : Bool := false
  causeMember : Bool := false
  causeFault : Bool := false
  causeProgram : Bool := false
  causeEye : Bool := false
  causeRequest : Bool := false
  causePower : Bool := false
  memberSafe : Bool := false
  /-- The plant lease held, and when its inrush ends (R382). -/
  lease : Option Nat := none
  inrushEnd : Option Nat := none
  waiting : List Increase := []
  answers : List DriveAnswer := []
  event : Nat := 0
  faultCnt : Nat := 0
  stopCnt : Nat := 0
  ilimCnt : Nat := 0
  /-- ROM program state: next defrost, end of heat, end of drip, next PI step, integrator (R397). -/
  romNext : Nat := 0
  romPhase : Nat := 0
  romUntil : Nat := 0
  romInt : Nat := 0
  deriving DecidableEq, Repr

/-! ### Landings and Boiler (11) -/

/-- A request at a Landing (R401 to R408). -/
structure LandReq where
  req : Nat
  lst : Nat
  tag : World
  beats : Nat
  entered : Nat
  order : Nat
  background : Bool
  /-- A write of a drive that lowers or stops output (R411). -/
  lowers : Bool
  /-- The context in whose issue slot the request was made (R401, R409). -/
  ctx : Option Nat
  /-- The level of the issuer: supervisor (R26). -/
  super : Bool := false
  deriving DecidableEq, Repr

/-- One Landing (R406 to R414). -/
structure Landing where
  burst : Nat := 0
  freeze : Bool := false
  queue : List LandReq := []
  held : List LandReq := []
  grant : Option LandReq := none
  /-- The winner decided when the grant began: its place in arrival order. -/
  next : Option Nat := none
  grantCnt : Nat := 0
  fullCnt : Nat := 0
  lateCnt : Nat := 0
  maxWait : Nat := 0
  deriving DecidableEq, Repr

/-- A lease (R422). -/
structure Lease where
  owner : LeaveOwner
  plant : Bool
  cls : Nat
  amount : Nat
  estMs : Nat
  granted : Nat
  overrun : Bool := false
  deriving DecidableEq, Repr

/-- A waiting leave request (R419). -/
structure LeaveReq where
  owner : LeaveOwner
  plant : Bool
  cls : Nat
  amount : Nat
  estMs : Nat
  /-- The lease to enlarge, or none for a new one. -/
  lease : Option Nat
  lst : Nat
  order : Nat
  since : Nat
  world : Option World
  deriving DecidableEq, Repr

/-- A pace change in progress (R428). -/
structure PaceJob where
  /-- Waiting at step 2, or VOUT_COMMAND has been sent. -/
  sent : Bool
  slate : Nat
  granite : Nat
  rail : Nat
  deriving DecidableEq, Repr

/-- The BOILER body in force (R431). -/
structure BoilerCfg where
  coreImax : Nat := 0
  dieBase : Nat := 0
  plantCap : Nat := 0
  dieRes : Tbl Nat := []
  plantRes : Tbl Nat := []
  bgUs : Nat := 0
  negb : Two Nat := ⟨0, 0⟩
  clusterDie : Nat := 0
  portDie : Nat := 0
  driveDie : Nat := 0
  dwDie : Nat := 0
  flintDie : Nat := 0
  pmbusAddr : Nat := 0
  pec : Bool := false
  bursts : Tbl Nat := []
  deriving DecidableEq, Repr

/-- Boiler (R415 to R433). -/
structure Boiler where
  cfg : BoilerCfg := {}
  /-- The PACE fields of BL_MODE as written, and the paces in force. -/
  modePace : Two Nat := ⟨0, 0⟩
  pace : Two Nat := ⟨0, 0⟩
  rail : Nat := 0
  job : Option PaceJob := none
  event : Two Nat := ⟨0, 0⟩
  vec : Two Nat := ⟨0xFFFF, 0xFFFF⟩
  refused : Two Nat := ⟨0, 0⟩
  overrun : Nat := 0
  leases : Tbl (Option Lease) := []
  waiting : List LeaveReq := []
  order : Nat := 0
  measOver : Bool := false
  overRun : Nat := 0
  meas : Nat := 0
  railMv : Nat := 0
  railMa100 : Nat := 0
  pmbusFault : Bool := false
  pmbusStatus : Nat := 0
  /-- Until the charged total fits a lowered capacity, no die grant is made (R428). -/
  lowering : Bool := false
  /-- Power domains switched on, and those with a switch-on under way (R34, R517). -/
  domains : List Nat := []
  switching : List Nat := []
  /-- Domains switched off whose Landings Boiler has frozen (R411). -/
  frozen : List Nat := []
  /-- Ports whose ungating waits for leave, and the save has ended all grants (R285, R430). -/
  ungate : List Nat := []
  stopped : Bool := false
  deriving DecidableEq, Repr

/-! ### The configuration shared by both worlds -/

/-- What the image fixes for the whole device (R228, R289, R348, R431, R446, R501). -/
structure ImageCfg where
  portMap : Nat := 0
  driveMap : Nat := 0
  cmpMap : Nat := 0
  mbMap : Nat := 0
  dwMap : Nat := 0
  ctxMap : Nat := 0
  mbAddr : Tbl Nat := []
  regions : List Region := []
  windows : List Window := []
  lanes : Tbl LaneCfg := []
  worlds : Two WorldCfg := ⟨{}, {}⟩
  profiles : Two ProfileCfg := ⟨{}, {}⟩
  /-- PANTRY (R348). -/
  chMask : Nat := 0
  devices : Nat := 0
  rate : Nat := 0
  strong : Bool := false
  cap : Nat := 0
  xlatBase : Nat := 0
  hostPages : Nat := 0
  pools : Tbl (Option Pool) := []
  /-- TIMING entries: unit, flags, first, interval (R446). -/
  timing : List (Nat × Nat × Nat × Nat) := []
  deriving DecidableEq, Repr

/-! ### What the block has put out -/

/-- An item that the block has put on a wire, the link or a pin (log 2). -/
inductive OutItem where
  | msix (fn : World) (vec : Nat)
  /-- An MSI-X message that was masked or could not go out now is pending; see the PBA. -/
  | wire (port slot : Nat) (data : List Byte)
  /-- A command word on PN_CA of a channel, to a device (R339). -/
  | pnCommand (ch dev : Nat) (word : Nat)
  | usbZlp (port slot : Nat)
  /-- SET_ADDRESS and SET_CONFIGURATION sent to a device (R290, R292). -/
  | usbAddress (port slot addr : Nat)
  | usbConfig (port slot config : Nat)
  /-- What the Porch asks of a hub: power on all its ports, begin to poll its status-change endpoint, reset a port (R294). -/
  | hubPower (port slot : Nat)
  | hubPoll (port slot : Nat)
  | hubReset (port slot hubPort : Nat)
  /-- CLEAR_FEATURE(ENDPOINT_HALT) (R305). -/
  | usbClearHalt (port slot ep : Nat)
  | uartBreak (port bits : Nat)
  | pmbusVout (milliV : Nat)
  /-- CLEAR_FAULTS (R429). -/
  | pmbusClear
  | readData (v : W64)
  | readBytes (data : List Byte)
  | jtag (v : W32)
  | smbus (data : List Byte)
  /-- A transaction that the SMBus target does not acknowledge (R524). -/
  | smbusNak
  deriving DecidableEq, Repr

/-- The whole state of the block. -/
structure State where
  pw : Power := {}
  attic : Attic := {}
  img : ImageCfg := {}
  qz : Quartz := {}
  stats : Two EpochEngine := ⟨{}, {}⟩
  fc : Collector := {}
  cellar : Cellar := {}
  fuses : Fuses := {}
  flint : FlintUnit := {}
  jtag : Jtag := {}
  linkUp : Bool := false
  fns : Two Func := ⟨{}, {}⟩
  qm : Two Qm := ⟨{}, {}⟩
  ovf : List OvfEntry := []
  ovfWait : List WaitStatus := []
  mbs : Tbl Mailbox := []
  flash : Flash := {}
  hearths : Hearths := {}
  ctxs : Tbl Ctx := []
  ports : Tbl Port := []
  atts : Tbl Att := []
  pantry : Pantry := {}
  dws : Tbl Dw := []
  drives : Tbl Drive := []
  lands : Tbl Landing := []
  bias : Two (Tbl Nat) := ⟨[], []⟩
  landOrder : Nat := 0
  boiler : Boiler := {}
  /-- Host memory as DMA has left it; a byte not listed is free (log 15). -/
  hostMem : Memory := []
  /-- The reads on the link of the command under way end with an error or a timeout (R354); false between commands. -/
  linkBad : Bool := false
  /-- What the block has put out, oldest first (log 2). -/
  out : List OutItem := []
  /-- The number of free values taken (log 7). -/
  free : Nat := 0
  /-- The commands that wait, first in, first out. -/
  pending : List Instr := []
  deriving DecidableEq, Repr

/-- Why the model stops. No command stops it: every exception, check and violation of the spec is a next state. -/
inductive Fault where
  /-- Raised by nobody: the block has no condition that stops it without a defined effect. Safe. -/
  | never
  deriving DecidableEq, Repr

/-- Why a command has no meaning. -/
inductive Refusal where
  /-- The command has no meaning yet: raised by an arm of exec that is not written. Safe. -/
  | notModelled (mnemonic : String)
  deriving DecidableEq, Repr

/-- The state right after a reset of the whole device, before step 2 of start-up (R9, R41): every register at its
reset value, Quartz 0, no configuration, the Attic in RESET. The fields whose value no rule gives are named in
log 4 to log 15. -/
def State.reset : State := {}

end Sys2Proof.Machine
end

