-- ==== Sys2Proof/Machine/Ops.lean ====
section
/-! DEFINITION. The operations that every family shares: tables of the state, worlds of items, statistics, MSI-X,
fault messages, event latches and readiness. -/
namespace Sys2Proof.Machine

/-- A next state, for meanings that always have one. -/
abbrev Result := Host.Outcome State Fault Refusal

/-! ### Reading and writing the tables of the state -/

/-- Quartz now (R434). -/
def State.now (s : State) : Nat := s.qz.now

/-- A context. -/
def State.ctx (s : State) (c : Nat) : Ctx := Tbl.get {} s.ctxs c

/-- The state with a context replaced. -/
def State.setCtx (s : State) (c : Nat) (x : Ctx) : State := { s with ctxs := Tbl.put {} s.ctxs c x }

/-- The state with a context changed. -/
def State.modCtx (s : State) (c : Nat) (f : Ctx → Ctx) : State := s.setCtx c (f (s.ctx c))

/-- A function. -/
def State.fn (s : State) (w : World) : Func := s.fns.get w

/-- The state with a function changed. -/
def State.modFn (s : State) (w : World) (f : Func → Func) : State := { s with fns := s.fns.upd w f }

/-- A submission queue of a world. -/
def State.sq (s : State) (w : World) (q : Nat) : Sq := Tbl.get {} (s.qm.get w).sqs q

/-- The state with a submission queue changed. -/
def State.modSq (s : State) (w : World) (q : Nat) (f : Sq → Sq) : State :=
  { s with qm := s.qm.upd w (fun m => { m with sqs := Tbl.upd {} m.sqs q f }) }

/-- A completion queue of a world. -/
def State.cq (s : State) (w : World) (q : Nat) : Cq := Tbl.get {} (s.qm.get w).cqs q

/-- The state with a completion queue changed. -/
def State.modCq (s : State) (w : World) (q : Nat) (f : Cq → Cq) : State :=
  { s with qm := s.qm.upd w (fun m => { m with cqs := Tbl.upd {} m.cqs q f }) }

/-- A lane port. -/
def State.port (s : State) (n : Nat) : Port := Tbl.get {} s.ports n

/-- The state with a lane port changed. -/
def State.modPort (s : State) (n : Nat) (f : Port → Port) : State := { s with ports := Tbl.upd {} s.ports n f }

/-- An attachment. -/
def State.att (s : State) (a : Nat) : Att := Tbl.get {} s.atts a

/-- The state with an attachment changed. -/
def State.modAtt (s : State) (a : Nat) (f : Att → Att) : State := { s with atts := Tbl.upd {} s.atts a f }

/-- A drive port. -/
def State.drive (s : State) (n : Nat) : Drive := Tbl.get {} s.drives n

/-- The state with a drive port changed. -/
def State.modDrive (s : State) (n : Nat) (f : Drive → Drive) : State :=
  { s with drives := Tbl.upd {} s.drives n f }

/-- A Dumbwaiter. -/
def State.dw (s : State) (e : Nat) : Dw := Tbl.get {} s.dws e

/-- The state with a Dumbwaiter changed. -/
def State.modDw (s : State) (e : Nat) (f : Dw → Dw) : State := { s with dws := Tbl.upd {} s.dws e f }

/-- The power domain of a Dumbwaiter: D61 or D62 (R34). -/
def dwDomain (e : Nat) : Nat := if e < 16 then 61 else 62

/-- A mailbox. -/
def State.mb (s : State) (m : Nat) : Mailbox := Tbl.get {} s.mbs m

/-- The state with a mailbox changed. -/
def State.modMb (s : State) (m : Nat) (f : Mailbox → Mailbox) : State := { s with mbs := Tbl.upd {} s.mbs m f }

/-- A compare unit. -/
def State.cmp (s : State) (u : Nat) : CmpUnit := Tbl.get {} s.qz.units u

/-- The state with a compare unit changed. -/
def State.modCmp (s : State) (u : Nat) (f : CmpUnit → CmpUnit) : State :=
  { s with qz := { s.qz with units := Tbl.upd {} s.qz.units u f } }

/-- What the image fixes for a world. -/
def State.wcfg (s : State) (w : World) : WorldCfg := s.img.worlds.get w

/-- The state with Pantry changed. -/
def State.modPn (s : State) (f : Pantry → Pantry) : State := { s with pantry := f s.pantry }

/-- The state with Boiler changed. -/
def State.modBl (s : State) (f : Boiler → Boiler) : State := { s with boiler := f s.boiler }

/-- The state with an item put out (log 2). -/
def State.emit (s : State) (o : OutItem) : State := { s with out := s.out ++ [o] }

/-- The next free value, and the state after it is taken (log 7). -/
def State.takeFree (s : State) : W64 × State := (Config.freeValue s.free, { s with free := s.free + 1 })

/-! ### Worlds of items (R25, R501) -/

def State.portWorld (s : State) (n : Nat) : Option World := if n < 256 then mapWorld s.img.portMap n else none
def State.driveWorld (s : State) (n : Nat) : Option World := if n < 64 then mapWorld s.img.driveMap n else none
def State.cmpWorld (s : State) (u : Nat) : Option World := if u < 1024 then mapWorld s.img.cmpMap u else none
def State.mbWorld (s : State) (m : Nat) : Option World := if m < 16 then mapWorld s.img.mbMap m else none
def State.dwWorld (s : State) (e : Nat) : Option World := if e < 32 then mapWorld s.img.dwMap e else none
def State.ctxWorld (s : State) (c : Nat) : Option World := if c < 16384 then mapWorld s.img.ctxMap c else none

/-- The home world of a context; a context of no world never leaves FREE. -/
def State.home (s : State) (c : Nat) : World := (s.ctxWorld c).getD .slate

/-- Whether a RESIDENT section names a context (R211). -/
def State.isResident (s : State) (c : Nat) : Bool :=
  (s.wcfg .slate).residents.any (fun e => e.ctx = c) || (s.wcfg .granite).residents.any (fun e => e.ctx = c)

/-- Whether a context is a probe context of its world (R215, R311). -/
def State.isProbe (s : State) (c : Nat) : Bool := (s.wcfg (s.home c)).probes.contains c

/-- The lane of a lane port (R289). -/
def State.portLane (s : State) (n : Nat) : Option Nat :=
  (s.img.lanes.find? (fun p => bitAt p.2.ports n)).map (fun p => p.1)

/-- The lane of a drive port (R289). -/
def State.driveLane (s : State) (n : Nat) : Option Nat :=
  (s.img.lanes.find? (fun p => bitAt p.2.drives n)).map (fun p => p.1)

/-! ### Statistics (R452, R456) -/

/-- A 64-bit counter advanced, saturating at all ones. -/
def satAdd64 (v n : Nat) : Nat := satAt 0xFFFFFFFFFFFFFFFF (v + n)

/-- A bank with one of its counters changed. -/
def Bank.upd (b : Bank) (t : CounterTable) (k : Nat) (f : Nat → Nat) : Bank :=
  match t with
  | .world => { b with world := Tbl.upd 0 b.world k f }
  | .lane => { b with lane := Tbl.upd 0 b.lane k f }
  | .port => { b with port := Tbl.upd 0 b.port k f }

/-- The part of a count that belongs to the epoch that begins at a time: the interval that lies past it (R452). -/
def Counted.past (c : Counted) (tb : Nat) : Nat :=
  if c.start = c.stop then (if tb ≤ c.stop then c.n else 0) else c.stop - Nat.max c.start tb

/-- The counts of the last 100 µs with one more; counts of one counter at one time are one. -/
def recentAdd (l : List Counted) (c : Counted) : List Counted :=
  let kept := l.filter (fun x => c.stop < x.stop + 100000)
  let same := fun (x : Counted) => x.table = c.table && x.key = c.key && x.start = c.start && x.stop = c.stop
  if kept.any same then kept.map (fun x => if same x then { x with n := x.n + c.n } else x) else kept ++ [c]

/-- Count in the running epoch of a world: what lies at or past a periodic boundary that is due belongs to the epoch that follows
it (R452). -/
def State.countBank (s : State) (w : World) (c : Counted) : State :=
  { s with stats := s.stats.upd w (fun e =>
      if e.running then
        let late := if e.periodMs = 0 then 0 else c.past e.next
        { e with
          bank := e.bank.upd c.table c.key (fun v => satAdd64 v (c.n - late))
          bankNext := e.bankNext.upd c.table c.key (fun v => satAdd64 v late)
          recent := recentAdd e.recent c }
      else e) }

/-- An event that happens now, in a counter. -/
def State.countOf (s : State) (t : CounterTable) (k n : Nat) : Counted := { table := t, key := k, start := s.now, stop := s.now, n := n }

/-- An interval that ends now, in a time-valued counter. -/
def State.spanOf (s : State) (t : CounterTable) (k since : Nat) : Counted :=
  { table := t, key := k, start := since, stop := s.now, n := s.now - since }

/-- Count in a world counter of the running epoch of a world. -/
def State.countWorld (s : State) (w : World) (i n : Nat) : State := s.countBank w (s.countOf .world i n)

/-- Count in a lane counter; LANE 0xFF counts in no lane. -/
def State.countLane (s : State) (w : World) (lane i n : Nat) : State :=
  if lane < 128 then s.countBank w (s.countOf .lane (16 * lane + i) n) else s

/-- Count in a port counter of the port's world. -/
def State.countPort (s : State) (port i n : Nat) : State :=
  match s.portWorld port with
  | some w => s.countBank w (s.countOf .port (8 * port + i) n)
  | none => s

/-- Count in a world counter and in the lane counter beside it. -/
def State.countBoth (s : State) (w : World) (lane iw il : Nat) : State :=
  (s.countWorld w iw 1).countLane w lane il 1

/-! ### MSI-X (R233, as PCIe) -/

/-- Whether a function is RUNNING (R242). -/
def State.running (s : State) (w : World) : Bool := (s.fn w).fstate = .running

/-- Send MSI-X to a vector of a function: a masked vector sets its pending bit; 0xFFFF and a vector outside the
table send nothing. -/
def State.msix (s : State) (w : World) (vec : Nat) : State :=
  if vec < (s.wcfg w).msixCount then
    if (Tbl.get {} (s.fn w).msix vec).masked then
      s.modFn w (fun f => { f with pba := if f.pba.contains vec then f.pba else f.pba ++ [vec] })
    else s.emit (.msix w vec)
  else s

/-- Send MSI-X only while the function is RUNNING. -/
def State.msixRunning (s : State) (w : World) (vec : Nat) : State := if s.running w then s.msix w vec else s

/-! ### Fault messages (R459 to R469) -/

/-- A fault message (R459). -/
def faultMsg (source sub kind addr : Nat) (w : Option World) (severe : Bool) : W64 :=
  BitVec.ofNat 64 (source % 256 + sub % 16 * 2 ^ 8 + kind % 256 * 2 ^ 12 + addr % 2 ^ 40 * 2 ^ 20
    + (match w with
       | none => 0
       | some .slate => 2 ^ 60
       | some .granite => 2 ^ 60 + 2 ^ 61)
    + bnat severe * 2 ^ 63)

def msgSource (m : W64) : Nat := bits m.toNat 0 8
def msgKind (m : W64) : Nat := bits m.toNat 12 8
def msgWorld (m : W64) : Option World :=
  if bitAt m.toNat 60 then some (World.ofBit (bitAt m.toNat 61)) else none
def msgSevere (m : W64) : Bool := bitAt m.toNat 63

/-- The message as the Study view holds it: ADDR and SUB are 0 for an event of a world (R463). -/
def studyMsg (m : W64) : W64 :=
  if bitAt m.toNat 60 then
    BitVec.ofNat 64 (m.toNat - bits m.toNat 8 4 * 2 ^ 8 - bits m.toNat 20 40 * 2 ^ 20)
  else m

/-- The kinds whose cause can persist (R461). -/
def levelKinds : List Nat := [0x03, 0x0B, 0x0D, 0x0E, 0x0F, 0x10, 0x12, 0x13, 0x17]

/-- What entering a message into a view gives: the view, whether the record became severe, and whether ERR_N is to
be pulsed (before NO_ERR). -/
structure Entered where
  view : View
  becameSevere : Bool
  pulse : Bool

/-- Enter a message into a view (R464 to R466). Without history it is only merged, and FC_HIST_LOST advances
(R467). -/
def View.enter (v : View) (cfg : FaultCfg) (t : Nat) (m : W64) (ctx : Option Nat) (history : Bool) : Entered :=
  let src := msgSource m
  let r := Tbl.get {} v.recs src
  let lv := if levelKinds.contains (msgKind m) && !r.levels.contains (msgKind m)
    then r.levels ++ [msgKind m] else r.levels
  let open1 : FaultRec :=
    if r.active then
      let inWin := t ≤ r.winStart + cfg.wMs * 1000000
      { r with
        merged := true
        mixed := r.mixed || msgKind m != msgKind r.first
        count := satAt 65535 (r.count + 1)
        tLast := t
        levels := lv
        winStart := if inWin then r.winStart else t
        winCount := if inWin then r.winCount + 1 else 1 }
    else
      { active := true, count := 1, first := m, tFirst := t, tLast := t, winStart := t, winCount := 1,
        levels := if levelKinds.contains (msgKind m) then [msgKind m] else [] }
  let now := msgSevere m || (cfg.n ≠ 0 && cfg.n ≤ open1.winCount)
  let became := now && !open1.severe
  let rec1 := { open1 with severe := open1.severe || now }
  let h : Hist := { msg := m, time := t, ctx := ctx, merged := r.active, madeSevere := became, count := rec1.count }
  { view := { v with
      recs := Tbl.put {} v.recs src rec1
      hist := if history then Tbl.put {} v.hist (v.histSeq % 32) h else v.hist
      histSeq := if history then (v.histSeq + 1) % 2 ^ 32 else v.histSeq
      histLost := if history then v.histLost else satInc32 v.histLost
      eventCnt := satInc32 v.eventCnt }
    becameSevere := became
    pulse := became || (open1.severe && msgSevere m) }

/-- Whether a message enters the view of a world (R463). -/
def entersView (m : W64) (w : World) : Bool :=
  match msgWorld m with
  | none => true
  | some x => x = w

/-- Enter a message into the view of one function, with its MSI-X (R463, R473). -/
def State.enterFnView (s : State) (w : World) (m : W64) (ctx : Option Nat) (history : Bool) : State × Bool :=
  if entersView m w then
    let e := (s.fc.views.get w).enter (Tbl.get {} s.fc.cfg (msgSource m)) s.now m ctx history
    let s1 := { s with fc := { s.fc with views := s.fc.views.set w e.view } }
    let send := (e.becameSevere && e.view.onSevere) || e.view.onEvent
    (if send then s1.msixRunning w e.view.vec else s1, e.pulse)
  else (s, false)

/-- Enter a message into every view it belongs to; a severe event pulses ERR_N (R463 to R469). -/
def State.enterViews (s : State) (m : W64) (ctx : Option Nat) (history : Bool) : State :=
  let cfg := Tbl.get {} s.fc.cfg (msgSource m)
  let a := s.enterFnView .slate m ctx history
  let b := a.1.enterFnView .granite m ctx history
  let e := b.1.fc.study.enter cfg s.now (studyMsg m) ctx history
  let pulse := (a.2 || b.2 || e.pulse) && !cfg.noErr
  let hosted := (s.fn .slate).host = .hosted || (s.fn .granite).host = .hosted
  { b.1 with fc := { b.1.fc with
      study := e.view
      pulse := b.1.fc.pulse || pulse
      pulseAt := if pulse then s.now else b.1.fc.pulseAt
      holdDue := b.1.fc.holdDue || (pulse && b.1.fc.studyHoldFlag && !hosted) } }

/-- A block sends a fault message (R462, R467): it waits in its source's buffer of 4, or merges at once. -/
def State.report (s : State) (m : W64) (ctx : Option Nat := none) : State :=
  if (s.fc.buf.filter (fun r => msgSource r.msg = msgSource m)).length < 4 then
    { s with fc := { s.fc with buf := s.fc.buf ++ [{ msg := m, ctx := ctx }] } }
  else s.enterViews m ctx false

/-- The Fault Collector takes the oldest message (R464). -/
def State.takeReport (s : State) : State :=
  match s.fc.buf with
  | [] => s
  | r :: rest => ({ s with fc := { s.fc with buf := rest } }).enterViews r.msg r.ctx true

/-- Whether ERR_N is low (R469). -/
def State.errLow (s : State) : Bool :=
  s.fc.pulse || s.fc.hold.slate || s.fc.hold.granite || s.fc.studyHold

/-- Whether an item of a view still holds a level cause (R461, R470): `view` is none for the Study view. -/
def State.levelHolds (s : State) (view : Option World) (src kind : Nat) : Bool :=
  let mine : Option World → Bool := fun w => match view with
    | none => true
    | some v => w = some v
  match kind with
  | 0x03 => s.hearths.failed.contains src
  | 0x0B => !s.attic.conflicts.isEmpty
  | 0x0D => s.pantry.failed.contains (src - 88)
  | 0x0E => (List.range 16).any (fun i =>
      (s.port (16 * (src - 64) + i)).ocLockout && mine (s.portWorld (16 * (src - 64) + i)))
  | 0x0F => (List.range 8).any (fun i =>
      (s.drive (8 * (src - 80) + i)).causeFault && mine (s.driveWorld (8 * (src - 80) + i)))
  | 0x10 => s.boiler.pmbusFault
  | 0x12 => s.boiler.measOver
  | 0x13 => s.qz.lfAbsent
  | 0x17 => s.fc.graniteHalt
  | _ => false

/-- CAUSE_PRESENT of a record of a view (R470). -/
def State.causePresent (s : State) (view : Option World) (src : Nat) : Bool :=
  let v := match view with
    | none => s.fc.study
    | some w => s.fc.views.get w
  (Tbl.get ({} : FaultRec) v.recs src).levels.any (fun k => s.levelHolds view src k)

/-! ### Boiler events (R535) and queue manager events (R276) -/

/-- Set a BL_EVENT bit of one function, with its MSI-X (R535). -/
def State.blEvent1 (s : State) (w : World) (bit : Nat) : State :=
  (s.modBl (fun b => { b with event := b.event.upd w (fun e => e ||| 2 ^ bit) })).msixRunning w (s.boiler.vec.get w)

/-- Set a BL_EVENT bit of both functions. -/
def State.blEvent (s : State) (bit : Nat) : State := (s.blEvent1 .slate bit).blEvent1 .granite bit

/-- Set a QM_EVENT bit: MSI-X to QM_EVENT_VEC unless the bit is masked (R276). -/
def State.qmEvent (s : State) (w : World) (bit : Nat) : State :=
  let f := s.fn w
  let s1 := s.modFn w (fun f => { f with event := f.event ||| 2 ^ bit })
  if bitAt f.eventMask bit then s1 else s1.msix w f.eventVec

/-- A doorbell error: DB_ERROR, QM_DB_ERR and a fault record (R254, R266). -/
def State.dbError (s : State) (w : World) (off : Nat) : State :=
  ((s.modFn w (fun f => { f with dbErr := off % 2 ^ 21 })).qmEvent w 4).report
    (faultMsg 94 w.bit 0x19 off (some w) false)

/-- Whether the device has its supplies and is not held in reset (R515). -/
def State.powered (s : State) : Bool := s.pw.railsOk && !s.pw.lost

/-- What a command does while the power-on reset is not held; held, it keeps the device as it is (R515). -/
def State.whenPowered (s t : State) : Result := .next (if s.powered then t else s)

/-- Record a refused register access of a function (R10, R236). -/
def State.accessFault (s : State) (w : World) (off : Nat) : State :=
  s.report (faultMsg 108 w.bit 0x05 off (some w) false)

/-- Record a discarded write of a function, by the block whose register it is; SUB is the function for the sources that name it
(R460). -/
def State.discardFault (s : State) (w : World) (src off : Nat) : State :=
  s.report (faultMsg src (if src = 93 ∨ src = 94 ∨ src = 108 then w.bit else 0) 0x19 off (some w) false)

/-- Whether the Attic has reached DONE (R65). -/
def State.done (s : State) : Bool := s.attic.state = 6

/-- Whether the contexts of a world keep their checkpoints: the power-fail save has begun, or Granite is halted (R478, R483). -/
def State.frozen (s : State) (w : World) : Bool := s.pw.phase != .none || (s.fc.graniteHalt && w = .granite)

/-- Whether the contexts of a world issue at all (R478, R482, R506). -/
def State.issues (s : State) (w : World) : Bool := !s.frozen w && !s.qz.debugHalt

/-- A host access to a per-item register: before DONE it is discarded (R74), for an item of no world too (R25), and
for an item of the other world it is discarded and recorded (R236). -/
def State.hostItem (s : State) (fn : World) (off : Nat) (item : Option World) (k : State → State) : State :=
  if s.done then
    match item with
    | none => s
    | some w => if w = fn then k s else s.accessFault fn off
  else s

/-! ### Readiness and event latches (R105, R158, R213, R218) -/

/-- A context becomes READY: it takes its place in the order of R218. -/
def State.makeReady (s : State) (c : Nat) : State :=
  let n := s.hearths.readySeq
  { (s.modCtx c (fun x => { x with state := .ready, wait := .none, readySeq := n, slotDue := false })) with
    hearths := { s.hearths with readySeq := n + 1 } }

/-- The indices of a context's targets that name an item: kind 0 attachment, 1 drive, 2 compare (R78). -/
def Ctx.targetsNaming (x : Ctx) (kind id : Nat) : List Nat :=
  (List.range x.tgtCount).filter (fun i =>
    let t := Tbl.get 0 x.targets i
    bits t 12 2 = kind && bits t 0 12 = id)

/-- A WAIT whose deadline has passed with nothing latched that it waits for has ended with TIMEOUT, whatever comes later (R104). -/
def Ctx.waitExpires (x : Ctx) (now : Nat) : Ctx :=
  let y := x.ccw.getD {}
  let mask := if bitAt y.flags 7 then 0 else y.param % 65536
  let l := Tbl.get 0 x.latch y.tgt
  if x.started && y.code = 7 && x.deadline < now && (if mask = 0 then l else l &&& mask) = 0 then { x with timeout := true } else x

/-- Latch events of an item in every target of every context that names it (R105), and in the attachment latch of a
context that has it open (R158). -/
def State.latchEvents (s : State) (kind id events : Nat) : State :=
  { s with ctxs := s.ctxs.map (fun p =>
      let x := p.2
      if x.state = .free then p else
        let z := x.waitExpires s.now
        let l := (x.targetsNaming kind id).foldl (fun l i => Tbl.upd 0 l i (fun e => e ||| events)) x.latch
        let al := match x.attLatch with
          | some a => if kind = 0 && a.att = id then some { a with events := a.events ||| events } else some a
          | none => none
        (p.1, { z with latch := l, attLatch := al })) }

/-- An attachment event (R327). -/
def State.attEvent (s : State) (a bit : Nat) : State := s.latchEvents 0 a (2 ^ bit)

/-- A drive event, latched also in PD_EVENT (R386). -/
def State.driveEvent (s : State) (n bit : Nat) : State :=
  (s.modDrive n (fun d => { d with event := d.event ||| 2 ^ bit })).latchEvents 1 n (2 ^ bit)

/-! ### The configuration of the PCIe functions (R233) -/

/-- Device ID of a function. -/
def pciDeviceId : World → Nat
  | .slate => 0x8256
  | .granite => 0x8257

/-- Class code: serial bus controller, other. -/
def pciClassCode : Nat := 0x0C8000

/-- Bytes of a base address register pair: BAR0/BAR1 the register map, BAR2/BAR3 Pantry; 0 for one that is not implemented. -/
def pciBarBytes (bar : Nat) : Nat := if bar = 0 then 2 ^ 24 else if bar = 2 then 2 ^ 32 else 0

/-- Whether a base address register is prefetchable. -/
def pciBarPrefetchable (bar : Nat) : Bool := bar = 2

/-- The capabilities of a function. -/
inductive PciCapability where
  | pciExpress
  | powerManagement
  | msix
  | aer
  | deviceSerialNumber
  deriving DecidableEq, Repr

/-- The capabilities that each function presents. -/
def pciCapabilities : List PciCapability := [.pciExpress, .powerManagement, .msix, .aer, .deviceSerialNumber]

/-- The MSI-X Table Size field of a function: one less than MSIX_COUNT of its world. -/
def State.msixTableSize (s : State) (w : World) : Nat := (s.wcfg w).msixCount - 1

/-- Where the MSI-X table and the pending bits lie in BAR0. -/
def msixTableOffset : Nat := 0xC0000
def msixPbaOffset : Nat := 0xC8000

/-- Whether a lane port takes part in work: it belongs to a world and is ungated (R285). -/
def State.portOn (s : State) (n : Nat) : Bool := (s.port n).enabled

end Sys2Proof.Machine
end

