-- ==== Sys2Proof/Machine/Landings.lean ====
section
/-! DEFINITION. The Landings: keys, decisions, grants, freeze and bias (R401 to R414). -/
namespace Sys2Proof.Machine

/-- The low word of Quartz. -/
def State.now32 (s : State) : Nat := s.now % 2 ^ 32

/-- The latest-service time of background rank (R401). -/
def State.backgroundLst (s : State) : Nat := (s.now + s.boiler.cfg.bgUs * 1000) % 2 ^ 32

/-- The latest-service time of an absolute deadline; all ones is no deadline (R401). -/
def State.lstOf (s : State) (deadline : Nat) : Nat :=
  if deadline = 0xFFFFFFFFFFFFFFFF then s.backgroundLst else deadline % 2 ^ 32

/-- raw of R402: how far a latest-service time lies ahead. -/
def lstRaw (lst now : Nat) : Int := signed 32 (lst % 2 ^ 32 + 2 ^ 32 - now % 2 ^ 32)

/-- The key of R402, with a bias in µs. -/
def lstKey (lst now : Nat) (bias : Int) : Int :=
  let k := lstRaw lst now + 1000 * bias
  if k < -134217728 then -134217728 else if 2000000000 < k then 2000000000 else k

/-- The stored latest-service time never lies more than 2^27 ns before Quartz (R403). -/
def lstKept (lst now : Nat) : Nat := if lstRaw lst now < -134217728 then (now + 2 ^ 32 - 134217728) % 2 ^ 32 else lst

/-- A request with its stored latest-service time kept under R403. -/
def LandReq.kept (q : LandReq) (now : Nat) : LandReq := { q with lst := lstKept q.lst now }

/-- The stored latest-service times of every Landing, of pending and of held requests, kept under R403. -/
def State.landsKeep (s : State) : State :=
  { s with lands := s.lands.map (fun p =>
      (p.1, { p.2 with queue := p.2.queue.map (fun q => q.kept s.now32), held := p.2.held.map (fun q => q.kept s.now32) })) }

/-- A Landing. -/
def State.landing (s : State) (k : Nat) : Landing := Tbl.get {} s.lands k

/-- The state with a Landing changed. -/
def State.modLanding (s : State) (k : Nat) (f : Landing → Landing) : State := { s with lands := Tbl.upd {} s.lands k f }

/-- The bias that a request runs under: that of its tag's world (R405, R412). -/
def State.biasOf (s : State) (q : LandReq) : Int := signed 32 (Tbl.get 0 (s.bias.get q.tag) q.req)

/-- The key of a request at a Landing now. -/
def State.landKey (s : State) (q : LandReq) : Int := lstKey q.lst s.now32 (s.biasOf q)

/-- Whether one request goes before another: key, then order of entry, then requester number (R402). -/
def State.nearer (s : State) (a b : LandReq) : Bool :=
  s.landKey a < s.landKey b ||
    (s.landKey a = s.landKey b && (a.order < b.order || (a.order = b.order && a.req < b.req)))

/-- The nearest request of a list. -/
def State.nearest (s : State) : List LandReq → Option LandReq
  | [] => none
  | q :: qs =>
    match s.nearest qs with
    | none => some q
    | some r => if s.nearer q r then some q else some r

/-- The requests that a Landing may grant: while frozen only a drive's writes that lower output, held ones too (R410, R411). -/
def Landing.grantable (l : Landing) : List LandReq := if l.freeze then (l.queue ++ l.held).filter (fun q => q.lowers) else l.queue

/-- Held requests enter the pending queue as places free, nearest first; the order of ties is that of entry into it (R402, R408). -/
def State.refill (s : State) (k : Nat) : State :=
  let l := s.landing k
  if l.queue.length < 32 then
    match s.nearest l.held with
    | some q => { s with landOrder := s.landOrder + 1 }.modLanding k (fun l =>
        { l with queue := l.queue ++ [{ q with order := s.landOrder }], held := l.held.filter (fun r => r.order != q.order) })
    | none => s
  else s

/-- A grant begins: the counters, the freed place, and the decision for the next grant (R406). -/
def State.grantTo (s : State) (k : Nat) (q : LandReq) : State :=
  let s1 := s.modLanding k (fun l =>
    { l with
      grant := some q
      queue := l.queue.filter (fun r => r.order != q.order)
      held := l.held.filter (fun r => r.order != q.order)
      grantCnt := satInc32 l.grantCnt
      lateCnt := if s.landKey q < 0 then satInc32 l.lateCnt else l.lateCnt
      maxWait := Nat.max l.maxWait (satAt 0xFFFFFFFF (s.now - q.entered)) })
  let s2 := s1.refill k
  s2.modLanding k (fun l => { l with
    queue := l.queue.map (fun r => r.kept s.now32)
    held := l.held.map (fun r => r.kept s.now32)
    next := (s2.nearest l.queue).map (fun r => r.order) })

/-- A Landing without a grant gives one to its decided winner where it may still be granted, or decides afresh. -/
def State.landGrant (s : State) (k : Nat) : State :=
  let l := s.landing k
  if l.grant.isSome then s else
  match l.next.bind (fun n => l.grantable.find? (fun q => q.order = n)) with
  | some q => s.grantTo k q
  | none =>
    match s.nearest l.grantable with
    | some q => s.grantTo k q
    | none => s.modLanding k (fun l => { l with next := none })

/-- A request enters a Landing, its latest-service time kept: its queue of 32 places, or held at its entry (R403, R408). -/
def State.landEnter (s : State) (k : Nat) (q : LandReq) : State :=
  let q1 := { q.kept s.now32 with order := s.landOrder, entered := s.now }
  let s1 := { s with landOrder := s.landOrder + 1 }
  s1.modLanding k (fun l =>
    if l.queue.length < 32 then { l with queue := l.queue ++ [q1] }
    else { l with held := l.held ++ [q1], fullCnt := satInc32 l.fullCnt })

/-- Whether k is the number of a Landing (R404). -/
def landExists (k : Nat) : Bool := k < 392 && k != 7

/-- The world of a drive or lane port Landing; the others serve both worlds. -/
def State.landWorld (s : State) (k : Nat) : Option World :=
  if k < 72 then none else if k < 136 then s.driveWorld (k - 72) else s.portWorld (k - 136)

/-- The offset DW_DL of a burst that is released now, none for background rank (R362). -/
def State.dwDue (s : State) (e : Nat) : Option Nat :=
  if (s.dw e).dl = 0 then none else some ((s.now + 1000 * (s.dw e).dl) % 2 ^ 32)

/-- The latest-service time that a context's deadline gives, none for background rank (R401). -/
def State.ctxDue (s : State) (c : Nat) : Option Nat :=
  if (s.ctx c).deadline = 0xFFFFFFFFFFFFFFFF then none else some ((s.ctx c).deadline % 2 ^ 32)

/-- The latest-service time of a requester, none for background rank: of a Hearth, of the queue manager and of Flint that of the
context in whose work the request is made; of a Dumbwaiter under R362; of the statistics unit the epoch boundary of the world that it
latches; of the Fault Collector and the save the time of the request (R401, R405). -/
def State.requestDue (s : State) (r : Nat) (tag : World) (ctx : Option Nat) : Option Nat :=
  if r < 64 ∨ r = 96 ∨ r = 100 then ctx.bind s.ctxDue
  else if r < 96 then s.dwDue (r - 64)
  else if r = 101 then some ((s.stats.get tag).start % 2 ^ 32)
  else if r = 102 then some s.now32
  else none

/-- LANDING_REQUEST: a request with the latest-service time of its requester, and the world and level of its issuer (R26, R401,
R406, R408). The level of a Hearth's request is that of the context in its issue slot; another issuer sends its own, `sup`. The Landing of another world's drive or lane port refuses it, and the Fault Collector records it (R26). In a debug halt no requester acts (R506, log 148). -/
def execLandingRequest (k r : Nat) (tag : World) (beats : Nat) (lowers : Bool) (ctx : Option Nat) (sup : Bool) (s : State) : Result :=
  if landExists k && r < 103 && 0 < beats && !s.qz.debugHalt && s.powered then
    if 72 ≤ k && s.landWorld k != some tag then .next (s.report (faultMsg 97 0 0x04 k (some tag) false) ctx)
    else
      let due := s.requestDue r tag ctx
      let q : LandReq :=
        { req := r, lst := due.getD s.backgroundLst, tag := tag, beats := beats, entered := 0, order := 0, background := due.isNone,
          lowers := lowers && 72 ≤ k && k < 136, ctx := ctx
          super := match ctx with
            | some c => if r < 64 then bitAt (s.ctx c).st.toNat 2 else sup
            | none => sup }
      .next ((s.landEnter k q).landGrant k)
  else .next s

/-- GRANT_END: the holder drops its request after `used` beats, or is cut off by the burst limit and re-enters with
the beats left and the same latest-service time (R407). -/
def execGrantEnd (k used : Nat) (s : State) : Result :=
  let l := s.landing k
  match (if s.qz.debugHalt then none else l.grant) with
  | none => .next s
  | some q =>
    let limit := Nat.max 1 l.burst
    let s1 := s.modLanding k (fun l => { l with grant := none })
    let s2 := if limit ≤ used ∧ limit < q.beats then s1.landEnter k { q with beats := q.beats - limit } else s1
    .next (s2.landGrant k)

/-- FREEZE returns to 0: a fresh decision (R410). -/
def State.landThaw (s : State) (k : Nat) : State :=
  let t1 := s.modLanding k (fun l => { l with freeze := false })
  let t2 := t1.modLanding k (fun l => { l with next := (t1.nearest l.queue).map (fun r => r.order) })
  t2.landGrant k

/-- The Landings of the resources that a power domain holds (R34, R404). -/
def domainLandings (d : Nat) : List Nat :=
  if d < 32 then (List.range 8).map (fun i => 136 + 8 * d + i)
  else if d < 48 then (List.range 4).map (fun i => 8 + 4 * (d - 32) + i)
  else if d < 56 then (List.range 8).map (fun i => 72 + 8 * (d - 48) + i)
  else if d < 60 then [d - 56]
  else if d = 60 then [4]
  else if d = 63 then [6]
  else []

/-- Boiler freezes the Landings of a domain before it switches it off (R411). -/
def State.landsFreeze (s : State) (d : Nat) : State :=
  ((domainLandings d).foldl (fun t k => t.modLanding k (fun l => { l with freeze := true })) s).modBl (fun b =>
    { b with frozen := b.frozen.filter (fun i => i != d) ++ [d] })

/-- Boiler clears the freeze of a domain that it had switched off and that is on again (R411). -/
def State.landsThaw (s : State) (d : Nat) : State :=
  if s.boiler.frozen.contains d then
    ((domainLandings d).foldl (fun t k => t.landThaw k) s).modBl (fun b => { b with frozen := b.frozen.filter (fun i => i != d) })
  else s

/-- A write of LD_CTL (R410, R414). -/
def State.ldCtlWrite (s : State) (fn : World) (k v : Nat) : State :=
  if 72 ≤ k && k < 392 then
    s.hostItem fn (0xF00000 + 32 * k) (s.landWorld k) (fun t =>
      let b := bits v 0 7
      let was := (t.landing k).freeze
      let t1 := t.modLanding k (fun l =>
        { l with burst := if 1 ≤ b ∧ b ≤ 64 then b else l.burst, freeze := bitAt v 8 })
      if was && !bitAt v 8 then t1.landThaw k else t1)
  else s

/-- FREEZE: a write of LD_CTL. -/
def execFreeze (fn : World) (k : Nat) (v : W32) (s : State) : Result := .next (s.ldCtlWrite fn k v.toNat)

/-- Whether LD_BIAS of a requester may be written by a function (R405). -/
def State.biasWritable (s : State) (fn : World) (r : Nat) : Bool :=
  r < 64 || (64 ≤ r && r < 96 && s.dwWorld (r - 64) = some fn) || r = 96 || r = 97 || r = 100

/-- A write of LD_BIAS: saturated to −NEGB and +1,000,000 (R412). -/
def State.ldBiasSet (s : State) (fn : World) (r : Nat) (v : W32) : State :=
  if s.done && s.biasWritable fn r then
    let b := signed 32 v.toNat
    let lo := -((s.boiler.cfg.negb.get fn : Nat) : Int)
    let x := if b < lo then lo else if 1000000 < b then 1000000 else b
    { s with bias := s.bias.upd fn (fun t => Tbl.put 0 t r (unsignedOf 32 x)) }
  else s

/-- LD_BIAS_WRITE. -/
def execLdBiasWrite (fn : World) (r : Nat) (v : W32) (s : State) : Result := .next (s.ldBiasSet fn r v)

/-- Whether a request is one that a Hearth made for a context (R401, R409). -/
def LandReq.ofCtx (q : LandReq) (c : Nat) : Bool := q.ctx = some c && q.req < 64

/-- Withdraw the requests that a predicate names from every Landing; held requests enter the places that this frees (R408, R409). -/
def State.landWithdraw (s : State) (p : LandReq → Bool) : State :=
  let s1 : State := { s with lands := s.lands.map (fun x =>
      (x.1, { x.2 with queue := x.2.queue.filter (fun q => !p q), held := x.2.held.filter (fun q => !p q) })) }
  s1.lands.foldl (fun t x => x.2.held.foldl (fun u _ => u.refill x.1) t) s1

/-- The word that a 32-bit read of the Landing block returns (R413, R414). -/
def State.ldRead (s : State) (fn : World) (off : Nat) : Nat :=
  if off < 0xF03100 then
    let k := (off - 0xF00000) / 32
    if !landExists k || (72 ≤ k && s.landWorld k != some fn) then 0 else
    let l := s.landing k
    match off % 32 / 4 with
    | 0 => l.burst + bnat l.freeze * 256
    | 1 => l.queue.length + 64 * bnat l.grant.isSome + 128 * bnat (l.freeze && l.grant.isNone)
        + (match l.grant with
           | some q => q.req
           | none => 0x7F) * 2 ^ 8 + satAt 255 l.held.length * 2 ^ 16
    | 2 => l.grantCnt
    | 3 => l.fullCnt
    | 4 => l.lateCnt
    | 5 => l.maxWait
    | _ => 0
  else if 0xF08000 ≤ off ∧ off < 0xF08200 then Tbl.get 0 (s.bias.get fn) ((off - 0xF08000) / 4)
  else 0

/-- A 32-bit write to the Landing block. -/
def State.ldWrite (s : State) (fn : World) (off : Nat) (v : W32) : State :=
  if off < 0xF03100 ∧ off % 32 = 0 then s.ldCtlWrite fn ((off - 0xF00000) / 32) v.toNat
  else if 0xF08000 ≤ off ∧ off < 0xF08200 then s.ldBiasSet fn ((off - 0xF08000) / 4) v
  else s

end Sys2Proof.Machine
end

