-- ==== Sys2Proof/Machine/Lease.lean ====
section
/-! DEFINITION. Boiler's budgets, leases and waiting requests (R415 to R422, R426), and the BL registers. -/
namespace Sys2Proof.Machine

/-- V_rail of a pace in mV (R426). -/
def paceMv (pace : Nat) : Nat := if pace = 0 then 850 else if pace = 2 then 620 else 750

/-- CHARGE of a pace (R426). -/
def paceCharge (pace : Nat) : Nat := if pace = 0 then 100 else if pace = 2 then 54 else 78

/-- The rail that a pace needs, as RAIL_PACE names it (R433). -/
def paceRail (pace : Nat) : Nat := if pace = 3 then 1 else pace

/-- The rail of two paces: the higher voltage (R427). -/
def railOf (a b : Nat) : Nat := Nat.min (paceRail a) (paceRail b)

/-- The issue slots of a world below the rail (R426). -/
def paceSlots (pace : Nat) : Nat := if pace = 0 then 8 else if pace = 2 then 4 else 6

/-- CHARGE in force: 100 while PMBUS_FAULT stands (R429). -/
def Boiler.chargePct (b : Boiler) : Nat := if b.pmbusFault then 100 else paceCharge b.rail

/-- The charged amount of a lease of a budget. -/
def Boiler.charged (b : Boiler) (plant : Bool) (amount : Nat) : Nat :=
  if plant then amount else ceilDiv (amount * b.chargePct) 100

/-- C of a budget: for the die that of FRUGAL while PMBUS_FAULT stands (R415, R429). -/
def Boiler.capacity (b : Boiler) (plant : Bool) : Nat :=
  if plant then b.cfg.plantCap else b.cfg.coreImax * (if b.pmbusFault then 620 else paceMv b.rail) / 10000

/-- What DIE_BASE charges; the plant budget has no base. -/
def Boiler.base (b : Boiler) (plant : Bool) : Nat := if plant then 0 else b.charged false b.cfg.dieBase

/-- RES of a class (R416). -/
def Boiler.reserve (b : Boiler) (plant : Bool) (c : Nat) : Nat :=
  Tbl.get 0 (if plant then b.cfg.plantRes else b.cfg.dieRes) c

/-- The sum of the reserves of the classes other than one. -/
def Boiler.otherReserves (b : Boiler) (plant : Bool) (c : Nat) : Nat :=
  ((List.range 8).map (fun i => if i = c then 0 else b.reserve plant i)).sum

/-- The sum of all reserves. -/
def Boiler.reserves (b : Boiler) (plant : Bool) : Nat := ((List.range 8).map (b.reserve plant)).sum

/-- A lease by its number. -/
def Boiler.lease (b : Boiler) (n : Nat) : Option Lease := Tbl.get none b.leases n

/-- The leases of a budget. -/
def Boiler.held (b : Boiler) (plant : Bool) : List Lease := (b.leases.filterMap (fun p => p.2)).filter (fun l => l.plant = plant)

/-- The charged total of the leases of a class. -/
def Boiler.classTotal (b : Boiler) (plant : Bool) (c : Nat) : Nat :=
  (((b.held plant).filter (fun l => l.cls = c)).map (fun l => b.charged plant l.amount)).sum

/-- The common pool of a budget (R416). -/
def Boiler.pool (b : Boiler) (plant : Bool) : Nat := b.capacity plant - b.base plant - b.reserves plant

/-- The common pool in use. -/
def Boiler.poolUsed (b : Boiler) (plant : Bool) : Nat :=
  ((List.range 8).map (fun c => b.classTotal plant c - b.reserve plant c)).sum

/-- The charged total of a budget, with the base. -/
def Boiler.used (b : Boiler) (plant : Bool) : Nat :=
  b.base plant + ((List.range 8).map (b.classTotal plant)).sum

/-- What a request adds to the charge of its lease. -/
def Boiler.requestCharge (b : Boiler) (q : LeaveReq) : Nat :=
  match q.lease.bind b.lease with
  | some l => b.charged q.plant (l.amount + q.amount) - b.charged q.plant l.amount
  | none => b.charged q.plant q.amount

/-- The total of the lease that a request would make. -/
def Boiler.requestTotal (b : Boiler) (q : LeaveReq) : Nat :=
  match q.lease.bind b.lease with
  | some l => l.amount + q.amount
  | none => q.amount

/-- Whether a request is refused outright (R421). -/
def Boiler.denied (b : Boiler) (q : LeaveReq) : Bool :=
  b.capacity q.plant - b.base q.plant - b.otherReserves q.plant q.cls < b.charged q.plant (b.requestTotal q)

/-- The lowest free lease number, 1 to 1,023. -/
def Boiler.freeLease (b : Boiler) : Option Nat :=
  ((List.range 1023).map (fun i => i + 1)).find? (fun n => (b.lease n).isNone)

/-- Whether a request fits its class reserve alone. -/
def Boiler.fitsReserve (b : Boiler) (q : LeaveReq) : Bool :=
  b.requestCharge q ≤ b.reserve q.plant q.cls - b.classTotal q.plant q.cls

/-- Whether a request fits its class reserve and the common pool together. -/
def Boiler.fitsOpen (b : Boiler) (q : LeaveReq) : Bool :=
  b.requestCharge q ≤ (b.reserve q.plant q.cls - b.classTotal q.plant q.cls) + (b.pool q.plant - b.poolUsed q.plant)

/-- Whether a number for the lease is there (R422). -/
def Boiler.hasNumber (b : Boiler) (q : LeaveReq) : Bool := q.lease.isSome || b.freeLease.isSome

/-- The world of an owner's item. -/
def State.ownerWorld (s : State) : LeaveOwner → Option World
  | .context c => some (s.home c)
  | .drive n => s.driveWorld n
  | .dumbwaiter e => s.dwWorld e
  | .boiler _ => none
  | .pace => none

/-- A request is refused outright: BL_REFUSED_CNT and BL_EVENT.REFUSED, and for Boiler's own request a severe fault
(R421, R535). -/
def State.noteRefused (s : State) (q : LeaveReq) : State :=
  let own := match q.owner with
    | .boiler _ | .pace => true
    | _ => false
  let s1 := match q.world with
    | some w => s.modBl (fun b => { b with refused := b.refused.upd w satInc32 })
    | none => s
  if own then (s1.blEvent 1).report (faultMsg 98 0 0x1B q.cls none true)
  else match q.world with
    | some w => s1.blEvent1 w 1
    | none => s1

/-- A request arrives at Boiler: refused outright (true) or waiting. -/
def State.leaveArrive (s : State) (q : LeaveReq) : Bool × State :=
  if s.boiler.denied q then (true, s.noteRefused q)
  else
    (false, s.modBl (fun b => { b with
      waiting := b.waiting ++ [{ q with order := b.order, since := s.now }], order := b.order + 1 }))

/-- A request of an owner, by its parts. -/
def State.leaveReq (s : State) (owner : LeaveOwner) (plant : Bool) (cls amount estMs : Nat) (lease : Option Nat)
    (lst : Nat) : LeaveReq :=
  { owner := owner, plant := plant, cls := cls, amount := amount, estMs := estMs, lease := lease, lst := lst, order := 0,
    since := 0, world := s.ownerWorld owner }

/-- The time that a request waited counts in its world (R456). -/
def State.countWait (s : State) (q : LeaveReq) : State :=
  match q.world with
  | some w => s.countBank w (s.spanOf .world 8 q.since)
  | none => s

/-- Withdraw the waiting requests that a predicate names. -/
def State.leaveWithdraw (s : State) (p : LeaveReq → Bool) : State :=
  let gone := s.boiler.waiting.filter p
  let s1 := gone.foldl (fun t q => t.countWait q) s
  s1.modBl (fun b => { b with waiting := b.waiting.filter (fun q => !p q) })

/-- Withdraw every waiting request of an owner. -/
def State.leaveWithdrawOwner (s : State) (o : LeaveOwner) : State := s.leaveWithdraw (fun q => q.owner = o)

/-- Release a lease: at once, with the increases that wait for it; a LEAVE CCW that made it holds none on its budget then (R422, R424). -/
def State.leaseRelease (s : State) (n : Nat) : State :=
  let s1 := (s.leaveWithdraw (fun q => q.lease = some n)).modBl (fun b => { b with leases := Tbl.put none b.leases n none })
  match s.boiler.lease n with
  | some l => match l.owner with
    | .context c => s1.modCtx c (fun x => { x with
        leases := x.leases.filter (fun m => m != n), ccwLease := x.ccwLease.filter (fun p => p.2 != n) })
    | _ => s1
  | none => s1

/-- Reduce a lease to an amount; its estimate goes on (R422). -/
def State.leaseReduce (s : State) (n amount : Nat) : State :=
  match s.boiler.lease n with
  | some l => s.modBl (fun b => { b with leases := Tbl.put none b.leases n (some { l with amount := amount }) })
  | none => s

/-- Make or enlarge the lease of a granted request; the answer is its number. -/
def State.leaseGrant (s : State) (q : LeaveReq) : Nat × State :=
  let s0 := (s.countWait q).modBl (fun b => { b with waiting := b.waiting.filter (fun r => r.order != q.order) })
  match q.lease with
  | some n =>
    match s.boiler.lease n with
    | some l =>
      let l1 := { l with amount := l.amount + q.amount, estMs := q.estMs, granted := s.now, overrun := false }
      (n, s0.modBl (fun b => { b with leases := Tbl.put none b.leases n (some l1) }))
    | none => (n, s0)
  | none =>
    let n := s.boiler.freeLease.getD 0
    let l : Lease :=
      { owner := q.owner, plant := q.plant, cls := q.cls, amount := q.amount, estMs := q.estMs, granted := s.now }
    (n, s0.modBl (fun b => { b with leases := Tbl.put none b.leases n (some l) }))

/-- Whether one waiting request comes before another: key order, then order of arrival (R419). -/
def State.leaveBefore (s : State) (a b : LeaveReq) : Bool :=
  lstKey a.lst s.now32 0 < lstKey b.lst s.now32 0 ||
    (lstKey a.lst s.now32 0 = lstKey b.lst s.now32 0 && a.order ≤ b.order)

/-- A request put at its place in a list in order. -/
def State.leaveInsert (s : State) (q : LeaveReq) : List LeaveReq → List LeaveReq
  | [] => [q]
  | r :: l => if s.leaveBefore q r then q :: r :: l else r :: s.leaveInsert q l

/-- The waiting requests of a budget in order. -/
def State.leaveOrder (s : State) (plant : Bool) : List LeaveReq :=
  (s.boiler.waiting.filter (fun q => q.plant = plant)).foldr s.leaveInsert []

/-- The lease of a context's FLVER is released, if it holds one (R24, R418). -/
def State.flverRelease (s : State) (c : Nat) : State :=
  match (s.ctx c).flverLease with
  | some n => (s.leaseRelease n).modCtx c (fun x => { x with flverLease := none })
  | none => s

/-- A context's leases are released and its waiting requests withdrawn (R213, R230, R422). -/
def State.ctxLeasesEnd (s : State) (c : Nat) : State :=
  (s.ctx c).leases.foldl (fun t n => t.leaseRelease n) ((s.leaveWithdrawOwner (.context c)).flverRelease c)

/-- Whether a lease has outlived its estimate (R422). -/
def Lease.overdue (l : Lease) (now : Nat) : Bool := l.estMs != 65535 && l.granted + l.estMs * 1000000 < now

/-- LEASE_OVERRUN: a lease has outlived its estimate: recorded once, and it stands (R422). -/
def execLeaseOverrun (lease : Nat) (s : State) : Result :=
  match s.boiler.lease lease with
  | some l =>
    if l.overdue s.now && !l.overrun then
      let s1 := s.modBl (fun b => { b with
        leases := Tbl.put none b.leases lease (some { l with overrun := true }), overrun := satInc32 b.overrun })
      .next ((s1.blEvent 2).report (faultMsg 98 0 0x11 lease (s.ownerWorld l.owner) false))
    else .next s
  | none => .next s

/-! ### Registers (R432, R433) -/

/-- BL_MODE: the mode word of the start with the PACE fields as written (R60, R433). -/
def State.blMode (s : State) : Nat :=
  s.attic.mode / 16 * 16 + s.boiler.modePace.slate % 4 + s.boiler.modePace.granite % 4 * 4

/-- The word that a 32-bit read of the Boiler block returns. -/
def State.blRead (s : State) (fn : World) (off : Nat) : Nat :=
  let b := s.boiler
  let pair := fun (lo hi : Nat) => lo % 65536 + hi % 65536 * 65536
  let count := fun (plant : Bool) => (b.waiting.filter (fun q => q.plant = plant)).length
  let resUse := fun (plant : Bool) (c : Nat) => Nat.min (b.classTotal plant c) (b.reserve plant c)
  if off = 0x300000 then s.blMode
  else if off = 0x300004 then
    b.rail + 4 * b.pace.get fn + 16 * bnat b.job.isSome + 32 * bnat b.pmbusFault + 64 * bnat b.measOver
      + 128 * bnat (s.pw.phase != .none)
  else if off = 0x300008 then b.event.get fn
  else if off = 0x30000C then b.vec.get fn
  else if off = 0x300010 then pair (b.capacity false) (b.pool false)
  else if off = 0x300014 then pair (b.used false) (b.poolUsed false)
  else if off = 0x300018 then b.meas
  else if off = 0x30001C then pair (b.capacity true) (b.pool true)
  else if off = 0x300020 then pair (b.used true) (b.poolUsed true)
  else if off = 0x300024 then pair (count false) (count true)
  else if off = 0x300028 then pair b.railMv b.railMa100
  else if off = 0x30002C then b.refused.get fn
  else if off = 0x300030 then b.overrun
  else if off = 0x300034 then (b.leases.filter (fun p => p.2.isSome)).length
  else if 0x300040 ≤ off ∧ off < 0x300060 then
    pair (resUse false ((off - 0x300040) / 4)) (resUse true ((off - 0x300040) / 4))
  else 0

/-- A 32-bit write to the Boiler block, BL_MODE apart. -/
def State.blWrite (s : State) (fn : World) (off : Nat) (v : W32) : State :=
  if off = 0x300008 then
    s.modBl (fun b => { b with event := b.event.upd fn (fun e =>
      ((List.range 5).map (fun i => if bitAt e i && !bitAt v.toNat i then 2 ^ i else 0)).sum) })
  else if off = 0x30000C then s.modBl (fun b => { b with vec := b.vec.set fn (v.toNat % 65536) })
  else s

end Sys2Proof.Machine
end

