-- ==== Sys2Proof/Machine/Drives.lean ====
section
/-! DEFINITION. The drive ports: items, ramps, leases, safe output, encoders, converters, burst firing, and the PD
registers (chapter 10). -/
namespace Sys2Proof.Machine

/-! ### Status (R382, R387, R400) -/

/-- Whether the domain of a drive's group is on (R34). -/
def State.driveDomainOn (s : State) (n : Nat) : Bool := s.boiler.domains.contains (48 + n / 8)

/-- ENABLED: not DISABLED, or a slave, and the domain on (R400). -/
def State.driveEnabled (s : State) (n : Nat) : Bool :=
  let d := s.drive n
  (d.cfg.mode != 0 || d.cfg.gang = 2) && s.driveDomainOn n

/-- Whether a drive is in safe output: at least one cause is set (R387). -/
def Drive.safeOut (d : Drive) : Bool :=
  d.causeMember || d.causeFault || d.causeProgram || d.causeEye || d.causeRequest || d.causePower

/-- The outputs' unit: 1,000 per mille in BURST, else 10,000. -/
def DriveCfg.full (c : DriveCfg) : Nat := if c.mode = 3 then 1000 else 10000

/-- Whether the balls of a drive work: from step 8 of start-up, outside the bare safe state, for no DISABLED drive and with the domain
of its group on; else its inputs are ignored (R42, R64, R72, R372, R517). -/
def State.driveLive (s : State) (n : Nat) : Bool :=
  n < 64 && s.done && s.attic.config != .bare && s.driveEnabled n

/-- The drive whose items govern a drive: its master for a slave, else itself (R377). -/
def State.governor (s : State) (n : Nat) : Nat := if (s.drive n).cfg.gang = 2 then (s.drive n).cfg.master else n

/-- The demand of an output in W (R382). -/
def DriveCfg.demand (c : DriveCfg) (a b : Nat) : Nat :=
  if c.mode = 3 then ceilDiv (c.loadW * a) 1000
  else if c.mode = 2 then ceilDiv (c.loadW * Nat.max a b) 10000
  else ceilDiv (c.loadW * a) 10000

/-- The target of A or BURST. -/
def Drive.targetA (d : Drive) : Nat := if d.cfg.mode = 3 then d.burst else d.dutyA

/-- The target of B: only PWM_INDEP has one of its own. -/
def Drive.targetB (d : Drive) : Nat := if d.cfg.mode = 2 then d.dutyB else 0

/-- The lease that a drive holds, in W (R382). -/
def State.leaseW (s : State) (n : Nat) : Nat :=
  match (s.drive n).lease.bind s.boiler.lease with
  | some l => l.amount
  | none => 0

/-- The drives that a drive's FAULT_N and Hall state act on: the three of a gang, or itself (R377). -/
def State.gangOf (s : State) (n : Nat) : List Nat :=
  let c := (s.drive n).cfg
  match c.gang with
  | 1 => [n, n + 1, n + 2]
  | 2 => [c.master, c.master + 1, c.master + 2]
  | _ => [n]

/-- PD_STATUS (R400). -/
def State.pdStatus (s : State) (n : Nat) : Nat :=
  let d := s.drive n
  bnat (s.driveEnabled n) + 2 * bnat d.run + 4 * bnat d.safeOut + 8 * bnat d.memberSafe + 16 * bnat d.causeMember
    + 32 * bnat d.causeFault + 64 * bnat d.causeProgram + 128 * bnat d.causeEye + 256 * bnat d.causeRequest
    + 512 * bnat d.causePower + 1024 * bnat d.faultLow + 2048 * bnat d.zcOk + 4096 * bnat (d.waiting != [])
    + 8192 * bnat d.dirNow + 16384 * bnat d.hallBad

/-- The mean of the samples kept, in 1/16 LSB; 0 before the first (R374, log 11). -/
def adcMean (h : List Nat) : Nat := if h = [] then 0 else h.sum * 16 / h.length

/-! ### Outputs (R372, R373, R376, R377) -/

/-- Ticks of a PWM period, and of the high time of a duty (R373). -/
def pwmTicks (freq : Nat) : Nat := if freq = 0 then 0 else 200000000 / (100 * freq)

/-- The high time of a duty, to the nearest tick. -/
def pwmHigh (freq duty : Nat) : Nat := (pwmTicks freq * duty + 5000) / 10000

/-- Whether a pulse of some ticks is emitted (R373). -/
def pulseEmitted (deadNs ticks : Nat) : Bool := 2 * deadNs + 10 ≤ 5 * ticks

/-- Whether DP_EN is high: RUN and the motion are those of the governing drive, the causes its own (R376, R377). -/
def State.driveEn (s : State) (n : Nat) : Bool :=
  let d := s.drive n
  let m := s.drive (s.governor n)
  let ramping := match m.motion with
    | .stop _ _ _ => m.actA != 0 || m.actB != 0
    | .fixed => true
    | _ => false
  s.driveEnabled n && (m.run || ramping) && !d.causeFault && !d.causePower

/-- The phase that is + and the phase that is − for a Hall state and direction, 0 U, 1 V, 2 W (R377). -/
def hallPhases (hall : Nat) (reverse : Bool) : Option (Nat × Nat) :=
  let f := match hall with
    | 5 => some (0, 1)
    | 4 => some (0, 2)
    | 6 => some (1, 2)
    | 2 => some (1, 0)
    | 3 => some (2, 0)
    | 1 => some (2, 1)
    | _ => none
  f.map (fun p => if reverse then (p.2, p.1) else p)

/-- The levels of A and B in the present period, each true where the output is driven high in it. -/
def State.driveOutputs (s : State) (n : Nat) : Bool × Bool :=
  let d := s.drive n
  let m := s.drive (s.governor n)
  let hi := pwmHigh m.perFreq m.perA
  let lo := pwmTicks m.perFreq - hi
  if d.causeFault || d.causePower then (false, false)
  else match m.cfg.mode with
  | 1 => (m.perA != 0 && !m.cut && pulseEmitted m.cfg.deadNs hi, m.perA != 0 && !m.cut && pulseEmitted m.cfg.deadNs lo)
  | 2 => (m.perA != 0 && !m.cut && pulseEmitted m.cfg.deadNs hi, m.perB != 0 && pulseEmitted m.cfg.deadNs (pwmHigh m.perFreq m.perB))
  | 3 => (m.fire && m.zcOk && !m.cut, false)
  | 4 =>
    let phase := if d.cfg.gang = 2 then n - d.cfg.master else 0
    match hallPhases m.encLevels m.dirNow with
    | some (p, q) =>
      if m.perA = 0 || (phase = p && d.cut) then (false, false)
      else if phase = p then (pulseEmitted m.cfg.deadNs hi, pulseEmitted m.cfg.deadNs lo)
      else (false, phase = q)
    | none => (false, false)
  | _ => (false, false)

/-- Set the balls of a drive and of its gang. -/
def State.driveBalls (s : State) (n : Nat) : State :=
  (s.gangOf n).foldl (fun t i =>
    let o := t.driveOutputs i
    t.modDrive i (fun d => { d with pwmA := o.1, pwmB := o.2, en := t.driveEn i })) s

/-! ### Increases that wait (R381, R384) -/

/-- Answer a waiting increase that is withdrawn: result 1 with 0xFE03, or 2 with 0xFE01 (R384). -/
def State.driveAnswer (s : State) (n : Nat) (i : Increase) (result unit : Nat) : State :=
  match i.ctx with
  | some c => (s.modDrive n (fun d => { d with answers := d.answers ++ [{ ctx := c, result := result, unit := unit }] })).modCtx c
      (fun x => { x with answeredAt := s.now })
  | none => s

/-- Withdraw the waiting increases of a drive that a predicate names. -/
def State.driveWithdraw (s : State) (n : Nat) (p : Increase → Bool) (result unit : Nat) : State :=
  let gone := (s.drive n).waiting.filter p
  gone.foldl (fun t i => (t.leaveWithdraw (fun q => q.order = i.order)).driveAnswer n i result unit)
    (s.modDrive n (fun d => { d with waiting := d.waiting.filter (fun i => !p i) }))

/-- The lease follows a fall: down to what actual output and targets need, released at 0; not during an inrush
(R382). -/
def State.driveTrim (s : State) (n : Nat) : State :=
  let d := s.drive n
  match d.lease with
  | none => s
  | some l =>
    if d.inrushEnd.isSome then s else
    let goal := if d.run then d.cfg.demand d.targetA d.targetB
      else match d.motion with
        | .fixed => Nat.min (s.leaseW n) (d.cfg.demand d.cfg.safeDuty d.cfg.safeDuty)
        | _ => 0
    let want := Nat.max (d.cfg.demand d.actA d.actB) goal
    if want = 0 then
      let s1 := s.driveWithdraw n (fun _ => true) 1 0xFE03
      (s1.leaseRelease l).modDrive n (fun d => { d with lease := none })
    else if want < s.leaseW n then s.leaseReduce l want
    else s

/-- The output is 0: STOPPED where it was not, and the lease follows (R383, R386). -/
def State.driveZero (s : State) (n : Nat) : State :=
  let d := s.drive n
  let moved := d.actA != 0 || d.actB != 0
  let s1 := s.modDrive n (fun d => { d with actA := 0, actB := 0, motion := .off })
  let s2 := if moved then s1.driveEvent n 1 else s1
  (s2.driveTrim n).driveBalls n

/-- Begin a stop from the present output over STOP_RAMP_MS (R383). -/
def State.driveStop (s : State) (n : Nat) : State :=
  let d := s.drive n
  let s1 := s.modDrive n (fun d => { d with run := false, inrushEnd := none })
  if d.actA = 0 && d.actB = 0 then (s1.driveZero n)
  else (s1.modDrive n (fun d => { d with motion := .stop d.actA d.actB s.now })).driveBalls n

/-- Outputs low at once, by hardware: the action OFF (R376, R388). -/
def State.driveOff (s : State) (n : Nat) : State :=
  (s.modDrive n (fun d => { d with run := false, inrushEnd := none, perA := 0, perB := 0, fire := false })).driveZero n

/-! ### Requests for leave -/

/-- A drive's own request for leave to rise to a total: waiting, refused outright, or not needed. -/
inductive DriveAsk where
  | within
  | refused
  | waiting
  deriving DecidableEq, Repr

/-- Ask leave for a total demand on behalf of an increase (R381, R382). -/
def State.driveAsk (s : State) (n item value : Nat) (ctx : Option Nat) (total est : Nat) (lst : Nat) : DriveAsk × State :=
  let d := s.drive n
  if total ≤ s.leaseW n then (.within, s) else
  let q := s.leaveReq (.drive n) true d.cfg.cls (total - s.leaseW n) est d.lease lst
  let order := s.boiler.order
  match s.leaveArrive q with
  | (true, s1) => (.refused, s1)
  | (false, s1) =>
    let i : Increase := { item := item, value := value, ctx := ctx, demand := total, est := est, order := order }
    (.waiting, s1.modDrive n (fun d => { d with waiting := d.waiting ++ [i] }))

/-- The FIXED action: the output is at most SAFE_DUTY at once, the lease following, and rises to it with leave; STOPPED where that
brings it to 0 (R382, R386, R388). -/
def State.driveFixed (s : State) (n : Nat) : State :=
  let moved := (s.drive n).actA != 0 || (s.drive n).actB != 0
  let s1 := s.modDrive n (fun d =>
    { d with run := false, inrushEnd := none, motion := .fixed
             actA := Nat.min d.actA d.cfg.safeDuty
             actB := if d.cfg.mode = 2 then Nat.min d.actB d.cfg.safeDuty else 0 })
  let d := s1.drive n
  let want := d.cfg.demand d.cfg.safeDuty d.cfg.safeDuty
  let below := d.actA < d.cfg.safeDuty || (d.cfg.mode = 2 && d.actB < d.cfg.safeDuty)
  let s2 := if below then (s1.driveAsk n 0 0 none want 65535 s.backgroundLst).2 else s1
  let s3 := if moved && d.actA = 0 && d.actB = 0 then s2.driveEvent n 1 else s2
  (s3.driveTrim n).driveBalls n

/-! ### Safe output (R387, R388) -/

/-- The causes of safe output. -/
inductive Cause where
  | member
  | fault
  | program
  | eye
  | request
  | power
  deriving DecidableEq, Repr

/-- Whether a cause is set. -/
def Drive.hasCause (d : Drive) : Cause → Bool
  | .member => d.causeMember
  | .fault => d.causeFault
  | .program => d.causeProgram
  | .eye => d.causeEye
  | .request => d.causeRequest
  | .power => d.causePower

/-- A drive with a cause set or cleared. -/
def Drive.setCause (d : Drive) (c : Cause) (b : Bool) : Drive :=
  match c with
  | .member => { d with causeMember := b }
  | .fault => { d with causeFault := b }
  | .program => { d with causeProgram := b }
  | .eye => { d with causeEye := b }
  | .request => { d with causeRequest := b }
  | .power => { d with causePower := b }

/-- A cause is set: on entry RUN becomes 0, waiting increases are withdrawn, and the drive acts by SAFE_ACTION; FAULT and
POWER act as OFF and EYE as RAMP, whenever they come (R384, R387, R388). -/
def State.driveCauseSet (s : State) (n : Nat) (c : Cause) : State :=
  let d := s.drive n
  let entry := !d.safeOut
  let s1 := s.modDrive n (fun d => d.setCause c true)
  let s2 := if c = .fault then s1.driveEvent n 0 else s1
  let cut := c = .fault || c = .power || c = .eye
  let s3 := if entry then (s2.driveEvent n 5).driveWithdraw n (fun _ => true) 2 0xFE01
    else if cut then s2.driveWithdraw n (fun _ => true) 2 0xFE01 else s2
  match c with
  | .fault => s3.driveOff n
  | .power => s3.driveOff n
  | .eye => if d.hasCause .eye then s3 else s3.driveStop n
  | _ =>
    if !entry then s3
    else match d.cfg.safeAction with
    | 1 => s3.driveStop n
    | 2 => s3.driveFixed n
    | _ => s3.driveOff n

/-- A cause is cleared: with the last one the drive leaves safe output with RUN 0, a FIXED output falling (R388). -/
def State.driveCauseClear (s : State) (n : Nat) (c : Cause) : State :=
  let d := s.drive n
  if !d.hasCause c then s else
  let s1 := s.modDrive n (fun d => d.setCause c false)
  if (s1.drive n).safeOut then s1
  else
    let s2 := s1.driveEvent n 5
    match d.motion with
    | .fixed =>
      let s3 := s2.driveWithdraw n (fun i => i.item = 0) 1 0
      (s3.modDrive n (fun d => { d with motion := .fall })).driveBalls n
    | _ => s2.driveBalls n

/-! ### Items (R380, R381, R384, R386) -/

/-- How a write of an item ends. -/
inductive WriteEnd where
  | accepted
  /-- Refused for lack of leave. -/
  | noLeave
  /-- Refused with a unit code: 0xFE01 SAFE_OUTPUT, 0xFE02 DISABLED, 0xFE04 FAULT_PRESENT. -/
  | refused (unit : Nat)
  | waits
  deriving DecidableEq, Repr

/-- The range of a writable item; none for a reserved, unlisted or RO code (R380). -/
def itemRange : Nat → Option (Int × Int)
  | 0x01 => some (0, 1)
  | 0x02 => some (0, 10000)
  | 0x03 => some (0, 10000)
  | 0x04 => some (0, 1000)
  | 0x05 => some (200, 1000)
  | 0x06 => some (0, 1)
  | 0x07 => some (0, 4095)
  | 0x08 => some (0, 1)
  | 0x09 => some (1, 1)
  | 0x0A => some (-2147483648, 2147483647)
  | 0x0B => some (1, 1)
  | _ => none

/-- Whether an item governs output, so that a slave of a gang refuses its write (R377). -/
def outputItem (item : Nat) : Bool := [0x01, 0x02, 0x03, 0x04, 0x05, 0x06, 0x08, 0x09].contains item

/-- The target that an item sets. -/
def Drive.itemTarget (d : Drive) : Nat → Nat
  | 0x02 => d.dutyA
  | 0x03 => d.dutyB
  | _ => d.burst

/-- A drive with a target set. -/
def Drive.setTarget (d : Drive) (item v : Nat) : Drive :=
  match item with
  | 0x02 => { d with dutyA := v }
  | 0x03 => { d with dutyB := v }
  | _ => { d with burst := v }

/-- An increase takes effect: RUN starts from the present output, taking DIR where that is 0; a target is set (R380,
R383, R392). -/
def State.driveApply (s : State) (n item v : Nat) (inrushMs : Nat) : State :=
  if item = 0x01 then
    (s.modDrive n (fun d => { d with
      dirNow := if d.actA = 0 && d.actB = 0 then d.dir else d.dirNow
      run := true, acc := 0, motion := .follow
      inrushEnd := if inrushMs ≠ 0 then some (s.now + inrushMs * 1000000) else d.inrushEnd })).driveBalls n
  else if item = 0 then s
  else (s.modDrive n (fun d => d.setTarget item v)).driveBalls n

/-- A write that raises output: refused in safe output or, from a queue-bound context, in member safe state; else within
the lease held, refused outright, or waiting for leave (R381, R382, R384, R386). -/
def State.driveRaise (s : State) (n item v : Nat) (ctx : Option Nat) (lst : Nat) : WriteEnd × State :=
  let d := s.drive n
  let resident := match ctx with
    | some c => s.isResident c
    | none => true
  if d.safeOut || (d.memberSafe && !resident) then (.refused 0xFE01, s) else
  let s1 := s.driveWithdraw n (fun i => i.item = item) 1 0xFE03
  let d1 := if item = 0x01 then d else d.setTarget item v
  let dem := d.cfg.demand d1.targetA d1.targetB
  let start := item = 0x01 && d.actA = 0 && d.actB = 0 && d.cfg.inrushMs ≠ 0
  let total := if start then Nat.max d.cfg.inrushW dem else dem
  match s1.driveAsk n item v ctx total (if start then d.cfg.inrushMs else 65535) lst with
  | (.within, s2) => (.accepted, s2.driveApply n item v (if start then d.cfg.inrushMs else 0))
  | (.refused, s2) => (.noLeave, s2)
  | (.waiting, s2) => (.waits, s2)

/-- Clear cause FAULT: FAULT_N high for 10 ms on every drive of the gang, and a valid Hall state (R387). -/
def State.driveFaultClear (s : State) (n : Nat) : WriteEnd × State :=
  let d := s.drive n
  if !d.causeFault then (.accepted, s)
  else
    let gang := s.gangOf n
    let high := gang.all (fun i => !(s.drive i).faultLow && (s.drive i).faultHighAt + 10000000 ≤ s.now)
    let hall := d.cfg.gang ≠ 1 || (d.encLevels ≠ 0 && d.encLevels ≠ 7)
    if high && hall then
      (.accepted, gang.foldl (fun t i => (t.modDrive i (fun d => { d with hallBad := false })).driveCauseClear i .fault) s)
    else (.refused 0xFE04, s)

/-- Latch ENC_MATCH where ENC_POS has become equal to ENC_CMP (R375). -/
def State.encMatch (s : State) (n : Nat) (before : Bool) : State :=
  let d := s.drive n
  if !before && d.encPos = d.encCmp then s.driveEvent n 3 else s

/-- The current limit cuts the outputs for the rest of the PWM period: counted once a period, with ILIM latched at most
once per ms; the master's items govern the phases of a gang (R374, R377, R386). -/
def State.ilimCut (s : State) (n : Nat) : State :=
  let d := s.drive n
  let top := (s.drive (s.governor n)).ilim
  if top = 4095 || d.adc1 ≤ top || d.cut then s else
  let ev := match d.ilimAt with
    | some t => decide (t + 1000000 ≤ s.now)
    | none => true
  let s1 := s.modDrive n (fun d => { d with
    cut := true, ilimCnt := satInc32 d.ilimCnt, ilimAt := if ev then some s.now else d.ilimAt })
  (if ev then s1.driveEvent n 6 else s1).driveBalls n

/-- Write an item of a drive, its value in range (R380 to R387). RUN := 0 withdraws the waiting writes that raise, not the leave that a
FIXED output asks for itself (item 0, R384, R388). -/
def State.driveWrite (s : State) (n item : Nat) (v : Int) (ctx : Option Nat) (lst : Nat) : WriteEnd × State :=
  let d := s.drive n
  let u := v.toNat
  if !s.driveEnabled n then (.refused 0xFE02, s) else
  match item with
  | 0x01 =>
    if u = 0 then
      let s1 := s.driveWithdraw n (fun i => i.item != 0) 1 0xFE03
      (.accepted, if d.run then s1.driveStop n else s1)
    else if d.run then (.accepted, s)
    else s.driveRaise n item 1 ctx lst
  | 0x02 | 0x03 | 0x04 =>
    if d.run && d.itemTarget item < u then s.driveRaise n item u ctx lst
    else
      let s1 := if u < d.itemTarget item || !d.run then s.driveWithdraw n (fun i => i.item = item) 1 0xFE03 else s
      (.accepted, (s1.modDrive n (fun d => d.setTarget item u)).driveTrim n)
  | 0x05 => (.accepted, s.modDrive n (fun d => { d with freq := u }))
  | 0x06 => (.accepted, s.modDrive n (fun d => { d with dir := u = 1 }))
  | 0x07 => (.accepted, if d.ilim = u then s else (s.modDrive n (fun d => { d with ilim := u })).ilimCut n)
  | 0x08 => (.accepted, if u = 1 then (if d.causeRequest then s else s.driveCauseSet n .request)
      else s.driveCauseClear n .request)
  | 0x09 => s.driveFaultClear n
  | 0x0A =>
    let b := d.encPos = d.encCmp
    (.accepted, (s.modDrive n (fun d => { d with encCmp := unsignedOf 32 v })).encMatch n b)
  | _ =>
    let b := d.encPos = d.encCmp
    (.accepted, (s.modDrive n (fun d => { d with encPos := 0 })).encMatch n b)

/-- The level of DP_ZC: high at a rising edge; the table has no command for a falling edge, so between edges it is a free value
(R380, log 122). -/
def State.zcHigh (s : State) (n : Nat) : Bool :=
  let d := s.drive n
  if d.zcLevel && d.zcLast = some s.now then true else d.zcLevel && Config.zcHigh n s.now

/-- The value of an item, sign-extended where it is signed; none for a write-only or unlisted code (R380). A write-only
item is not readable. -/
def State.driveRead (s : State) (n item : Nat) : Option Int :=
  let d := s.drive n
  match item with
  | 0x01 => some (bnat d.run)
  | 0x02 => some d.dutyA
  | 0x03 => some d.dutyB
  | 0x04 => some d.burst
  | 0x05 => some d.freq
  | 0x06 => some (bnat d.dir)
  | 0x07 => some d.ilim
  | 0x08 => some 0
  | 0x09 => some 0
  | 0x0A => some (signed 32 d.encCmp)
  | 0x0B => some 0
  | 0x10 => some d.adc0
  | 0x11 => some d.adc1
  | 0x12 => some (adcMean d.hist0)
  | 0x13 => some (adcMean d.hist1)
  | 0x14 => some (signed 32 d.encPos)
  | 0x15 => some d.encPeriod
  | 0x16 => some (d.encLevels + 8 * bnat (s.zcHigh n) + 16 * bnat d.faultLow : Nat)
  | 0x17 => some (if d.zcOk then d.zcPeriod else 0 : Nat)
  | 0x18 => some (s.pdStatus n)
  | 0x19 => some (d.actA + d.actB * 65536 : Nat)
  | 0x1A => some (s.leaseW n)
  | _ => none

/-- The sense record of a drive (R386). -/
def State.driveSense (s : State) (n : Nat) : List Byte :=
  let d := s.drive n
  leBytes 4 (s.pdStatus n) ++ leBytes 2 d.actA ++ leBytes 2 d.actB ++ leBytes 2 d.adc0 ++ leBytes 2 d.adc1
    ++ leBytes 2 (adcMean d.hist0) ++ leBytes 2 (adcMean d.hist1) ++ leBytes 4 d.encPos ++ leBytes 4 d.encPeriod
    ++ leBytes 4 (if d.zcOk then d.zcPeriod else 0) ++ leBytes 2 (s.leaseW n) ++ leBytes 2 0

/-- Boiler grants a drive's request: the lease is the drive's one lease, and the increase takes effect (R381, R422). -/
def State.driveGranted (s : State) (n lease order : Nat) : State :=
  let s0 := s.modBl (fun b => { b with waiting := b.waiting.map (fun q =>
    if q.owner = .drive n then { q with lease := some lease } else q) })
  let s1 := s0.modDrive n (fun d => { d with lease := some lease })
  match (s.drive n).waiting.find? (fun i => i.order = order) with
  | some i =>
    let s2 := s1.modDrive n (fun d => { d with waiting := d.waiting.filter (fun j => j.order != order) })
    (s2.driveApply n i.item i.value (if i.est = 65535 then 0 else i.est)).driveAnswer n i 0 0
  | none => s1

/-- Boiler refuses a waiting request of a drive (R421). -/
def State.driveRefused (s : State) (n order : Nat) : State :=
  match (s.drive n).waiting.find? (fun i => i.order = order) with
  | some i =>
    (s.modDrive n (fun d => { d with waiting := d.waiting.filter (fun j => j.order != order) })).driveAnswer n i 1 0
  | none => s

/-! ### Commands of the drive hardware -/

/-- DRIVE_FAULT: the filtered level of DP_FAULT_N (R376, R377). -/
def execDriveFault (n : Nat) (low : Bool) (s : State) : Result :=
  let d := s.drive n
  if !s.driveLive n then .next s
  else if !low then
    .next (if d.faultLow then s.modDrive n (fun d => { d with faultLow := false, faultHighAt := s.now }) else s)
  else if d.faultLow then .next s
  else
    let s1 := s.modDrive n (fun d => { d with faultLow := true })
    let s2 := (s.gangOf n).foldl (fun t i =>
      (t.modDrive i (fun d => { d with faultCnt := satInc32 d.faultCnt })).driveCauseSet i .fault) s1
    .next ((s2.driveBalls n).report (faultMsg (80 + n / 8) (n % 8) 0x0F n (s.driveWorld n) false))

/-- The step of a quadrature decoder: ENC0 leading ENC1 counts up (log 20). -/
def quadStep (old new : Nat) : Int :=
  match old % 4, new % 4 with
  | 0, 1 | 1, 3 | 3, 2 | 2, 0 => 1
  | 1, 0 | 3, 1 | 2, 3 | 0, 2 => -1
  | _, _ => 0

/-- ENCODER_EDGE: the filtered levels of ENC0 to ENC2 change (R375, R377). -/
def execEncoderEdge (n : Nat) (levels : BitVec 3) (s : State) : Result :=
  if !s.driveLive n then .next s else
  let d := s.drive n
  let l := levels.toNat
  let step : Int := if d.cfg.quad then quadStep d.encLevels l
    else if !bitAt d.encLevels 0 && bitAt l 0 then 1 else 0
  let was := d.encPos = d.encCmp
  let s1 := s.modDrive n (fun d =>
    if step = 0 then { d with encLevels := l }
    else { d with
      encLevels := l
      encPos := unsignedOf 32 (d.encPos + step)
      encPeriod := match d.encLast with
        | some t => satAt 0xFFFFFFFE (s.now - t)
        | none => d.encPeriod
      encLast := some s.now })
  let s2 := if step = 0 then s1 else s1.encMatch n was
  if d.cfg.gang = 1 then
    if l = 0 || l = 7 then
      let s3 := (s2.gangOf n).foldl (fun t i =>
        (t.modDrive i (fun d => { d with faultCnt := satInc32 d.faultCnt })).driveCauseSet i .fault)
        (s2.modDrive n (fun d => { d with hallBad := true }))
      .next ((s3.driveBalls n).report (faultMsg (80 + n / 8) (n % 8) 0x0F n (s.driveWorld n) false))
    else .next (s2.driveBalls n)
  else .next s2

/-- ENC_TIMEOUT: no counting edge for 1 s (R375). -/
def execEncTimeout (n : Nat) (s : State) : Result :=
  let old := match (s.drive n).encLast with
    | some t => decide (t + 1000000000 ≤ s.now)
    | none => true
  .next (if old && n < 64 then s.modDrive n (fun d => { d with encPeriod := 0xFFFFFFFF }) else s)

/-- ADC_SAMPLE: a conversion completes (R374). -/
def execAdcSample (n ch : Nat) (v : BitVec 12) (s : State) : Result :=
  if !s.driveLive n then .next s
  else if ch = 0 then
    .next (s.modDrive n (fun d => { d with adc0 := v.toNat, hist0 := (v.toNat :: d.hist0).take 1024 }))
  else if ch = 1 then
    .next ((s.modDrive n (fun d => { d with adc1 := v.toNat, hist1 := (v.toNat :: d.hist1).take 1024 })).ilimCut n)
  else .next s

/-- PWM_PERIOD_END: changes of duty and frequency take effect, a cut ends, and a stop over 0 ms reaches 0 (R373, R374,
R383). -/
def execPwmPeriodEnd (n : Nat) (s : State) : Result :=
  if 64 ≤ n then .next s else
  let d := s.drive n
  let s1 := match d.motion with
    | .stop _ _ _ => if d.cfg.stopRampMs = 0 then s.driveZero n else s
    | _ => s
  let s2 := (s1.gangOf n).foldl (fun t i => t.modDrive i (fun d => { d with cut := false })) s1
  .next ((s2.modDrive n (fun d => { d with perA := d.actA, perB := d.actB, perFreq := d.freq, cut := false })).driveBalls n)

/-- One step of a ramp toward a target. -/
def rampStep (x target up dn : Nat) : Nat :=
  if x < target then Nat.min target (x + up) else Nat.max target (x - dn)

/-- RAMP_TICK: 1 ms of ramp (R383, R388), and the lease follows a fall (R382). The output of a stop is a whole item value, rounded down
(log 147). -/
def execRampTick (n : Nat) (s : State) : Result :=
  if 64 ≤ n then .next s else
  let d := s.drive n
  let c := d.cfg
  match d.motion with
  | .stop a b start =>
    let k := (s.now - start) / 1000000
    if c.stopRampMs = 0 then .next s
    else if c.stopRampMs ≤ k then
      .next (if d.actA = 0 && d.actB = 0 then s else s.driveZero n)
    else
      let a1 := a * (c.stopRampMs - k) / c.stopRampMs
      let b1 := b * (c.stopRampMs - k) / c.stopRampMs
      .next (if a1 = 0 && b1 = 0 then s.driveZero n
        else ((s.modDrive n (fun d => { d with actA := a1, actB := b1 })).driveTrim n).driveBalls n)
  | .follow =>
    if !d.run then .next s else
    let a := rampStep d.actA d.targetA c.rampUp c.rampDn
    let b := rampStep d.actB d.targetB c.rampUp c.rampDn
    let moved := a != d.actA || b != d.actB
    let s1 := s.modDrive n (fun d => { d with actA := a, actB := b })
    let s2 := if moved && a = d.targetA && b = d.targetB then s1.driveEvent n 2 else s1
    .next ((s2.driveTrim n).driveBalls n)
  | .fixed =>
    let ok := c.demand c.safeDuty c.safeDuty ≤ s.leaseW n
    if ok then
      .next (((s.modDrive n (fun d => { d with
        actA := rampStep d.actA c.safeDuty c.rampUp c.rampDn
        actB := if c.mode = 2 then rampStep d.actB c.safeDuty c.rampUp c.rampDn else 0 })).driveTrim n).driveBalls n)
    else .next s
  | .fall =>
    let a := d.actA - c.rampDn
    let b := d.actB - c.rampDn
    if a = 0 && b = 0 then .next (s.driveZero n)
    else .next (((s.modDrive n (fun d => { d with actA := a, actB := b })).driveTrim n).driveBalls n)
  | .off => .next s

/-- INRUSH_END: the lease falls to the demand of the target (R382). -/
def execInrushEnd (n : Nat) (s : State) : Result :=
  match (s.drive n).inrushEnd with
  | some t =>
    if t ≤ s.now then .next ((s.modDrive n (fun d => { d with inrushEnd := none })).driveTrim n) else .next s
  | none => .next s

/-- ZC_OK falls: ZC_LOST is latched, A is held low and the accumulator holds (R392). -/
def State.zcLost (s : State) (n : Nat) : State :=
  let was := (s.drive n).zcOk
  let s1 := s.modDrive n (fun d => { d with zcOk := false, zcCount := 0, fire := false })
  (if was then s1.driveEvent n 4 else s1).driveBalls n

/-- The firing decision at a rising edge (R392). -/
def Drive.fireDecide (d : Drive) : Drive :=
  if d.zcOk && d.cfg.mode = 3 && (d.run || d.actA != 0) then
    let acc := d.acc + d.actA
    if 1000 ≤ acc then { d with fire := true, acc := acc - 1000 } else { d with fire := false, acc := acc }
  else { d with fire := false }

/-- ZC_EDGE: a rising edge of the filtered DP_ZC (R392). -/
def execZcEdge (n : Nat) (s : State) : Result :=
  if !s.driveLive n then .next s else
  let d := s.drive n
  match d.zcLast with
  | none => .next (s.modDrive n (fun d => { d with zcLast := some s.now, zcLevel := true }))
  | some t =>
    let p := s.now - t
    if p < 12000000 then .next s
    else
      let s1 := s.modDrive n (fun d => { d with zcLast := some s.now, zcLevel := true })
      if 15300000 ≤ p ∧ p ≤ 22300000 then
        let s2 := s1.modDrive n (fun d =>
          { d with zcPeriod := p, zcCount := satAt 4 (d.zcCount + 1), zcOk := d.zcOk || 3 ≤ d.zcCount })
        .next ((s2.modDrive n Drive.fireDecide).driveBalls n)
      else .next (s1.zcLost n)

/-- ZC_TIMEOUT: no rising edge for 40 ms (R392). -/
def execZcTimeout (n : Nat) (s : State) : Result :=
  let old := match (s.drive n).zcLast with
    | some t => decide (t + 40000000 ≤ s.now)
    | none => false
  .next (if old && n < 64 then s.zcLost n else s)

/-- The filtered level of a stop link's pin is passed to its drives (R390). -/
def State.stopLink (s : State) (port pin : Nat) (level : Bool) : State :=
  (List.range 64).foldl (fun t n =>
    let c := (t.drive n).cfg
    if c.mode ≠ 0 && c.stopPort = port && c.stopPin = pin then
      if level = c.stopLevel then
        let t1 := (t.driveCauseSet n .eye).driveEvent n 7
        let t2 := t1.modDrive n (fun d => { d with stopCnt := satInc32 d.stopCnt })
        match t.driveWorld n, t.driveLane n with
        | some w, some l => t2.countLane w l 7 1
        | _, _ => t2
      else t.driveCauseClear n .eye
    else t) s

/-- A lane member that is a drive enters member safe state (R389). -/
def State.driveMemberSafe (s : State) (n : Nat) : State :=
  let d := s.drive n
  let s1 := s.modDrive n (fun d => { d with memberSafe := true })
  if d.cfg.keep then
    let s2 := s1.driveWithdraw n (fun i => match i.ctx with
      | some c => !s.isResident c
      | none => false) 2 0xFE01
    if d.memberSafe then s2 else s2.driveEvent n 5
  else if d.causeMember then s1
  else
    let s2 := s1.driveCauseSet n .member
    if d.memberSafe then s2 else s2.driveEvent n 5

/-- A drive leaves member safe state (R31, R387). -/
def State.driveMemberRelease (s : State) (n : Nat) : State :=
  let d := s.drive n
  let s1 := s.modDrive n (fun d => { d with memberSafe := false })
  let s2 := if d.memberSafe then s1.driveEvent n 5 else s1
  if d.causeMember then s2.driveCauseClear n .member else s2

/-! ### Registers (R398, R399) -/

/-- PD_CFG (R399). -/
def State.pdCfg (s : State) (n : Nat) : Nat :=
  let c := (s.drive n).cfg
  let lane := s.driveLane n
  (if c.gang = 2 then 4 else c.mode) + 8 * bnat c.keep + 16 * (match s.driveWorld n with
      | some w => w.bit
      | none => 0) + 32 * bnat lane.isSome + 64 * lane.getD 0 + (n / 8) * 2 ^ 13 + (48 + n / 8) * 2 ^ 16
    + c.gang * 2 ^ 22 + c.safeAction * 2 ^ 24 + bnat (c.stopPort != 0xFFFF) * 2 ^ 26

/-- The word that a 32-bit read of the drive block returns. -/
def State.pdRead (s : State) (fn : World) (off : Nat) : Nat :=
  let n := (off - 0xA00000) / 256
  let d := s.drive n
  if s.driveWorld n ≠ some fn then 0 else
  match off % 256 with
  | 0x00 => s.pdCfg n
  | 0x04 => s.pdStatus n
  | 0x08 => d.event
  | 0x0C => d.actA + d.targetA * 65536
  | 0x10 => d.adc0 + d.adc1 * 65536
  | 0x14 => d.encPos
  | 0x18 => d.encPeriod
  | 0x1C => if d.zcOk then d.zcPeriod else 0
  | 0x20 => s.leaseW n
  | 0x24 => d.faultCnt
  | 0x28 => d.stopCnt
  | 0x2C => d.ilimCnt
  | _ => 0

/-- A 32-bit write to the drive block: PD_EVENT. -/
def State.pdWrite (s : State) (fn : World) (off : Nat) (v : W32) : State :=
  let n := (off - 0xA00000) / 256
  s.hostItem fn off (s.driveWorld n) (fun t =>
    if off % 256 = 0x08 then t.modDrive n (fun d => { d with event := (d.event ||| v.toNat % 256) ^^^ (v.toNat % 256) })
    else t)

end Sys2Proof.Machine
end

