-- ==== Sys2Proof/Machine/Fifo.lean ====
section
/-! DEFINITION. The port FIFOs: units, receive and transmit channels, packets, gap markers, marks and hand-off (R19 to R22,
R156, R157, R316 to R327). -/
namespace Sys2Proof.Machine

/-! ### Units and room (R316) -/

/-- The position of the next word of a receive channel. -/
def RxChan.wpos (r : RxChan) : Nat := r.freed + r.words.length

/-- The physical units that a receive channel holds. -/
def RxChan.units (r : RxChan) : Nat :=
  if r.words.isEmpty then 0 else Nat.min 16 ((r.wpos - 1) / 64 - r.freed / 64 + 1)

/-- The words of a transmit packet, with its head word. -/
def TxPacket.span (p : TxPacket) : Nat := 1 + p.words.length

/-- The words of the packets of a transmit channel. -/
def TxChan.spans (t : TxChan) : Nat := (t.packets.map TxPacket.span).sum

/-- The position of the first head word of a transmit channel. -/
def TxChan.first (t : TxChan) : Nat := t.written - t.spans

/-- The physical units that a transmit channel holds: the head word of the packet in hand-off stays until its last data
word goes (R322). -/
def TxChan.units (t : TxChan) : Nat :=
  match t.packets with
  | [] => 0
  | p :: _ =>
    let lo := if p.handed = 0 then t.first / 64 else (t.first + 1 + p.handed / 4) / 64
    Nat.min 16 ((t.written - 1) / 64 - lo + 1 + bnat (lo != t.first / 64))

/-- The words that a channel can take: `first` is its first unfreed word, `units` what it holds and `more` what it may
take of the pool. -/
def chanFree (first wpos units more : Nat) : Nat :=
  let limit := 1024 - (wpos - first)
  if units = 0 then
    if more = 0 then 0 else Nat.min limit (64 - wpos % 64 + 64 * (more - 1))
  else
    let new := (64 - wpos % 64) % 64 + 64 * more
    if limit - first % 64 ≤ new then limit else Nat.min limit new

/-- The attachments of the port of an attachment. -/
def portAtts (a : Nat) : List Nat := (List.range 16).map (fun i => a / 16 * 16 + i)

/-- The units that a channel may take beyond its own: those beyond the reserves that others do not yet hold. -/
def unitsMore (a : Nat) (held reserve : Nat → Nat) : Nat :=
  16 - ((portAtts a).map held).sum - ((portAtts a).map (fun b => if b = a then 0 else reserve b - held b)).sum

/-- The words free to a receive channel. -/
def State.rxFree (s : State) (a : Nat) : Nat :=
  let r := (s.att a).rx
  chanFree r.freed r.wpos r.units (unitsMore a (fun b => (s.att b).rx.units) (fun b => (s.att b).resRx))

/-- The words free to a transmit channel. -/
def State.txFree (s : State) (a : Nat) : Nat :=
  let t := (s.att a).tx
  chanFree t.first t.written t.units (unitsMore a (fun b => (s.att b).tx.units) (fun b => (s.att b).resTx))

/-- Whether an attachment has channels (R294, R309). -/
def Att.hasChannels (t : Att) : Bool :=
  match t.state with
  | .probing => true
  | .ready => !t.hub
  | .failed => t.status = 3
  | _ => false

/-- The level TX_SPACE: at least 256 bytes free (R327). -/
def State.txSpace (s : State) (a : Nat) : Bool := 64 ≤ s.txFree a

/-- The event TX_SPACE as a level. A latch that is cleared while it holds is latched again at once, so whoever reads a latch of an
attachment takes the level with it, and `txSpaceLatch` keeps it where it is about to end (R327). -/
def State.levelEvents (s : State) (a : Nat) : Nat := if (s.att a).hasChannels && s.txSpace a then 2 else 0

/-- The level TX_SPACE is latched before a word is taken, or the channel goes (R327). -/
def State.txSpaceLatch (s : State) (a : Nat) : State := if s.txSpace a then s.attEvent a 1 else s

/-- The same for every channel of the port of an attachment: a unit that one takes is free to none of them (R316, R327). -/
def State.txSpaceLatches (s : State) (a : Nat) : State :=
  (portAtts a).foldl (fun t b => if b = a || (t.att b).hasChannels then t.txSpaceLatch b else t) s

/-! ### Policies (R60, R62, R319) -/

/-- The policy in force for a port: true for DROP (R60, R62, R286). -/
def State.portDrop (s : State) (n : Nat) : Bool :=
  let c := (s.port n).cfg
  let set := fun (field : Nat) => if c.dropOvr then c.drop else bits s.attic.mode field 2 = 1
  if c.mode = 1 then set 8
  else if c.mode = 2 then c.rs485 || !c.flow || set 10
  else false

/-- The packet limit of a port in bytes or characters (R319). -/
def PortCfg.limit (c : PortCfg) : Nat :=
  if c.mode = 2 then (if c.pktMax = 0 then 512 else Nat.min c.pktMax 1023)
  else if c.pktMax = 0 then 2048 else Nat.min c.pktMax 4092

/-- RTS under FLOW and HOLD: off below 64 bytes of free space, on above 256 (R60, R297). -/
def State.rtsFlow (s : State) (n : Nat) : State :=
  let c := (s.port n).cfg
  if c.mode = 2 && c.flow && !s.portDrop n then
    let f := 4 * s.rxFree (16 * n)
    if f < 64 then s.modPort n (fun p => { p with rts := false })
    else if 256 < f then s.modPort n (fun p => { p with rts := true })
    else s
  else s

/-! ### Receive: the producer (R21, R22, R319, R320) -/

/-- The state with the receive channel of an attachment changed. -/
def State.modRx (s : State) (a : Nat) (f : RxChan → RxChan) : State := s.modAtt a (fun t => { t with rx := f t.rx })

/-- The state with the transmit channel of an attachment changed. -/
def State.modTx (s : State) (a : Nat) (f : TxChan → TxChan) : State := s.modAtt a (fun t => { t with tx := f t.tx })

/-- Whether every word of a transmit channel has been handed off (R324; log 154). -/
def TxChan.drained (t : TxChan) : Bool := t.packets.all (fun p => p.len.isNone && p.words.isEmpty)

/-- A transmit channel changed: TX_DRAINED is latched where that leaves every word handed off (R324). -/
def State.txChange (s : State) (a : Nat) (f : TxChan → TxChan) : State :=
  let s1 := s.modTx a f
  if !(s.att a).tx.drained && (s1.att a).tx.drained then s1.attEvent a 2 else s1

/-- Count lost items of a port. -/
def State.countLost (s : State) (n k : Nat) : State :=
  (s.modPort n (fun p => { p with rxLost := satAt 0xFFFFFFFF (p.rxLost + k) })).countPort n 4 k

/-- A pending marker takes a word if one is free, and closes once its boundary has passed (R22, R320). -/
def State.rxGapTry (s : State) (a : Nat) : State :=
  let r := (s.att a).rx
  if r.gap = 0 then s else
  let s1 := if r.gapAt.isNone && 0 < s.rxFree a then
      s.modRx a (fun r => { r with gapAt := some r.wpos, words := r.words ++ [{ w := 0, head := true }] })
    else s
  match (s1.att a).rx.gapAt with
  | some p =>
    if r.gapBoundary then
      let n := a / 16
      let w := BitVec.ofNat 32 (2 * 2 ^ 28 + bnat (65535 < r.gap) * 2 ^ 16 + satAt 65535 r.gap)
      let s2 := s1.modRx a (fun r => { r with
        words := r.words.set (p - r.freed) { w := w, head := true }
        visible := p + 1, gap := 0, gapAt := none, gapBoundary := false })
      let s3 := (s2.modPort n (fun p => { p with gapCnt := satInc32 p.gapCnt, event := p.event ||| 16 })).countPort n 5 1
      s3.attEvent a 0
    else s1
  | none => s1

/-- Items find no room: an open packet is cancelled with them, and the port discards until a boundary (R320). -/
def State.rxLose (s : State) (a k : Nat) : State :=
  let r := (s.att a).rx
  let n := k + (if r.openAt.isSome then r.openItems else 0)
  let s1 := (s.modRx a (fun r => { r with
    words := match r.openAt with
      | some p => r.words.take (p - r.freed)
      | none => r.words
    openAt := none, openItems := 0, openErr := false
    gap := r.gap + n, gapBoundary := false, discard := true })).countLost (a / 16) n
  s1.rxGapTry a

/-- The wire reaches a packet boundary: discarding ends, and a pending marker may close (R320). -/
def State.rxBoundary (s : State) (a : Nat) : State :=
  let s1 := s.modRx a (fun r => { r with discard := false, gapBoundary := r.gapBoundary || r.gap != 0 })
  s1.rxGapTry a

/-- Close the open packet with head flags: the length slot is written and the notice given (R319). -/
def State.rxClose (s : State) (a flags : Nat) : State :=
  let r := (s.att a).rx
  match r.openAt with
  | some p =>
    let n := a / 16
    let w := BitVec.ofNat 32 (2 ^ 28 + flags * 2 ^ 16 + bnat r.openErr * 2 ^ 19 + r.openItems % 2 ^ 16)
    let s1 := s.modRx a (fun r => { r with
      words := r.words.set (p - r.freed) { w := w, head := true, span := r.wpos - p - 1 }
      visible := r.wpos, openAt := none, openItems := 0, openErr := false })
    (s1.countPort n 2 1).attEvent a 0
  | none => s

/-- Whether the next item must be lost: discarding, or a marker that still has no word (R22, R320). -/
def RxChan.shut (r : RxChan) : Bool := r.discard || r.gap != 0

/-- Open a packet at its first item: two words must be free (R319). -/
def State.rxOpen (s : State) (a : Nat) : Option State :=
  if (s.att a).rx.openAt.isSome then some s
  else if 2 ≤ s.rxFree a then
    some (s.modRx a (fun r => { r with openAt := some r.wpos, openItems := 0, words := r.words ++ [{ w := 0, head := true }] }))
  else none

/-- Store one character word in the open packet, or lose it; what is stored counts at once (R318, R320, R456). -/
def State.rxWord (s : State) (a : Nat) (w : W32) (err : Bool) : Bool × State :=
  let s0 := s.rxGapTry a
  if (s0.att a).rx.shut then (false, s0.rxLose a 1) else
  match s0.rxOpen a with
  | none => (false, s0.rxLose a 1)
  | some s1 =>
    if s1.rxFree a = 0 then (false, s1.rxLose a 1)
    else (true, (s1.modRx a (fun r => { r with
      words := r.words ++ [{ w := w, items := 1 }], openItems := r.openItems + 1, openErr := r.openErr || err })).countPort (a / 16) 0 1)

/-- The last word of a channel with a byte added at a place within it. -/
def packLast (l : List FifoWord) (i : Nat) (b : Byte) : List FifoWord :=
  match l.reverse with
  | x :: xs => (xs.reverse) ++ [{ x with w := x.w ||| (b.setWidth 32 <<< (8 * i)), items := x.items + 1 }]
  | [] => []

/-- Store bytes in the open packet, four to a word, the first in bits 7 to 0 (R318); there must be room. -/
def State.rxPack (s : State) (a : Nat) : List Byte → State
  | [] => s
  | b :: bs =>
    let i := (s.att a).rx.openItems % 4
    (s.modRx a (fun r => { r with
      words := if i = 0 then r.words ++ [{ w := b.setWidth 32, items := 1 }] else packLast r.words i b
      openItems := r.openItems + 1 })).rxPack a bs

/-- Store bytes that arrive together, or lose them together; what is stored counts at once (R295, R318, R320, R456). -/
def State.rxBytes (s : State) (a : Nat) (data : List Byte) : Bool × State :=
  let s0 := s.rxGapTry a
  let k := Nat.max 1 data.length
  if (s0.att a).rx.shut then (false, s0.rxLose a k) else
  match s0.rxOpen a with
  | none => (false, s0.rxLose a k)
  | some s1 =>
    let have1 := (s1.att a).rx.openItems
    if s1.rxFree a < ceilDiv (have1 + data.length) 4 - ceilDiv have1 4 then (false, s1.rxLose a k)
    else (true, (s1.rxPack a data).countPort (a / 16) 0 data.length)

/-- A packet of length 0 (R319): it needs its head word only. -/
def State.rxZero (s : State) (a flags : Nat) : State :=
  let s0 := s.rxGapTry a
  if (s0.att a).rx.shut || s0.rxFree a = 0 then s0.rxLose a 1
  else (s0.modRx a (fun r => { r with openAt := some r.wpos, openItems := 0, words := r.words ++ [{ w := 0, head := true }] })
    ).rxClose a flags

/-- GAP_MARKER_STORED: a pending marker takes the first word that is free, and closes at its boundary (R22). -/
def execGapMarkerStored (a : Nat) (s : State) : Result := .next (if (s.att a).hasChannels then s.rxGapTry a else s)

/-- RX_IDLE_CLOSE: RX_IDLE bit times without a start bit (R298, R320). -/
def execRxIdleClose (port : Nat) (s : State) : Result :=
  let c := (s.port port).cfg
  let a := 16 * port
  .next (if c.mode = 2 && c.rxIdle ≠ 0 && (s.port port).enabled && (s.att a).hasChannels then
    ((s.rxClose a 0).rxBoundary a).rtsFlow port else s)

/-! ### Receive: the consumer (R156, R321, R322) -/

/-- Free the words of a receive channel before a position. -/
def RxChan.freeTo (r : RxChan) (p : Nat) : RxChan :=
  { r with words := r.words.drop (p - r.freed), freed := Nat.max r.freed p }

/-- Free what has been read, as far as a mark allows (R322). -/
def RxChan.release (r : RxChan) : RxChan :=
  match r.mark with
  | some m => r.freeTo m
  | none => r.freeTo r.read

/-- The idle word (R317). -/
def idleWord : W32 := 0xF0000000

/-- Count and record a port FIFO word that fails its check, read at a place of its ring (R321, R330, R331). -/
def State.portWordBad (s : State) (n at_ : Nat) : State :=
  (s.modPort n (fun p => { p with eccUncorr := satInc32 p.eccUncorr, event := p.event ||| 32 })).report
    (faultMsg (64 + n / 16) (n % 16) 0x02 (at_ % 1024) (s.portWorld n) false)

/-- Count a port FIFO word that its check corrects (R321, R330). -/
def State.portWordSoft (s : State) (n : Nat) : State := s.modPort n (fun p => { p with eccCorr := satInc32 p.eccCorr })

/-- FRD: the kind and the word, and whether the word was a LENGTH or GAP head (R156, R224). The data bits of a word that
fails its check are a free value (log 7). -/
def State.fifoRead (s : State) (a : Nat) (chk : WordCheck := .clean) : Nat × W32 × State :=
  let r := (s.att a).rx
  let n := a / 16
  if !(s.att a).hasChannels || r.visible ≤ r.read then (3, idleWord, s)
  else match r.words[r.read - r.freed]? with
  | none => (3, idleWord, s)
  | some f =>
    let bad := f.bad || chk = .failed
    let skip := if bad && f.head then f.span else 0
    let s1 := s.modRx a (fun r => ({ r with read := r.read + 1 + skip } : RxChan).release)
    if bad then
      let v := (s1.portWordBad n r.read).takeFree
      (4, v.1.setWidth 32, v.2.rtsFlow n)
    else
      let s2 := if f.soft || chk = .corrected then s1.portWordSoft n else s1
      (if !f.head then 0 else if bits f.w.toNat 28 4 = 2 then 2 else 1, f.w, s2.rtsFlow n)

/-- SET_RX: the mark moves to the next word to be read (R322). -/
def RxChan.setMark (r : RxChan) : RxChan := ({ r with mark := some r.read } : RxChan).freeTo r.read

/-- RELEASE_RX. -/
def RxChan.releaseMark (r : RxChan) : RxChan :=
  if r.mark.isSome then ({ r with mark := none } : RxChan).freeTo r.read else r

/-- REWIND_RX. -/
def RxChan.rewind (r : RxChan) : RxChan :=
  match r.mark with
  | some m => { r with read := m }
  | none => r

/-! ### Transmit (R157, R322 to R325) -/

/-- FOPEN: reserve the head word of a new packet; there must be room. -/
def State.txOpen (s : State) (a c : Nat) : State :=
  (s.txSpaceLatches a).modTx a (fun t =>
    { t with packets := t.packets ++ [{ ctx := c }], owner := some c, written := t.written + 1 })

/-- A packet list with its last packet changed. -/
def modLast (f : TxPacket → TxPacket) : List TxPacket → List TxPacket
  | [] => []
  | [p] => [f p]
  | p :: ps => p :: modLast f ps

/-- FPUT: a word of the open packet; there must be room. -/
def State.txPut (s : State) (a : Nat) (w : W32) : State :=
  (s.txSpaceLatches a).modTx a (fun t =>
    { t with packets := modLast (fun p => { p with words := p.words ++ [w] }) t.packets, written := t.written + 1 })

/-- The words written to the open packet. -/
def TxChan.openWords (t : TxChan) : Nat :=
  match t.packets.getLast? with
  | some p => p.words.length
  | none => 0

/-- A channel without the packets at its front that are handed off whole. -/
def TxChan.trim (t : TxChan) : TxChan :=
  { t with packets := t.packets.dropWhile (fun p => match p.len with
      | some n => n ≠ 0 && n ≤ p.handed
      | none => false) }

/-- FCLOSE: the packet's length and notice. -/
def State.txClose (s : State) (a len : Nat) : State :=
  s.modTx a (fun t => { t with packets := modLast (fun p => { p with len := some len }) t.packets, owner := none })

/-- The bytes of a packet, by its length. -/
def TxPacket.bytes (p : TxPacket) : List Byte :=
  (p.words.flatMap (fun w => leBytes 4 w.toNat)).take (p.len.getD 0)

/-- The bytes of the closed packets that are not handed off yet. -/
def TxChan.waiting (t : TxChan) : Nat :=
  (t.packets.map (fun p => match p.len with
    | some n => n - p.handed
    | none => 0)).sum

/-- What one hand-off took: the bytes, the packets finished, the bytes of each context in order, and the packets left. -/
structure Handed where
  data : List Byte
  done : Nat
  shares : List (Nat × Nat)
  rest : List TxPacket

/-- Hand off up to n bytes of the closed packets at the front, as far as none fails its check. -/
def handOff : Nat → List TxPacket → Handed
  | _, [] => { data := [], done := 0, shares := [], rest := [] }
  | n, p :: ps =>
    match (if p.bad then none else p.len) with
    | none => { data := [], done := 0, shares := [], rest := p :: ps }
    | some l =>
      let k := Nat.min n (l - p.handed)
      let d := slice p.bytes p.handed k
      if p.handed + k < l then { data := d, done := 0, shares := [(p.ctx, k)], rest := { p with handed := p.handed + k } :: ps }
      else if n = 0 && l ≠ 0 then { data := [], done := 0, shares := [], rest := p :: ps }
      else
        let r := handOff (n - k) ps
        { data := d ++ r.data, done := r.done + 1, shares := (p.ctx, k) :: r.shares, rest := r.rest }

/-- A mark that lies before the words that are left moves to the first of them (R324). -/
def TxChan.clampMark (t : TxChan) : TxChan :=
  let front := t.first + (match t.packets with
    | p :: _ => if p.handed = 0 then 0 else 1 + p.handed / 4
    | [] => 0)
  { t with mark := t.mark.map (fun m => Nat.max m front) }

/-- Hand off n bytes of a channel (R324): the words are freed, and a mark over them is released. -/
def State.txTake (s : State) (a n : Nat) : Handed × State :=
  let t := (s.att a).tx
  let h := handOff n t.packets
  let port := a / 16
  let s1 := s.txChange a (fun t => ({ t with packets := h.rest } : TxChan).clampMark)
  (h, (s1.countPort port 1 h.data.length).countPort port 3 h.done)

/-- The packet at the front of a channel whose word fails its check: counted, recorded, and the rest of it discarded (R321). -/
def State.txWordBad (s : State) (a : Nat) : State :=
  let t := (s.att a).tx
  match t.packets with
  | p :: ps =>
    let s1 := s.portWordBad (a / 16) (t.first + 1 + p.handed / 4)
    if p.len.isSome then s1.txChange a (fun t => ({ t with packets := ps } : TxChan).clampMark) else s1
  | [] => s.portWordBad (a / 16) t.first

/-- The packets that a rewind to a mark leaves, the first head word standing at `pos` (R322). -/
def rewindPackets (mark : Option Nat) : Nat → List TxPacket → List TxPacket
  | _, [] => []
  | pos, p :: ps =>
    let rest := rewindPackets mark (pos + p.span) ps
    match p.len with
    | none => rest
    | some l =>
      let before := match mark with
        | some m => if pos + p.span ≤ m then l else 4 * (m - (pos + 1))
        | none => 0
      let keep := Nat.min l (Nat.max p.handed before)
      let ahead := match mark with
        | some m => decide (pos + p.span ≤ m)
        | none => false
      if keep = 0 && p.handed = 0 && !ahead then rest
      else { p with len := some keep, words := p.words.take (ceilDiv keep 4) } :: rest

/-- A break follows what is left of the data that was queued before it (R305, R322). -/
def PortCmd.clampBreak (left : Nat) (x : PortCmd) : PortCmd :=
  if x.code = 8 then { x with toSend := Nat.min x.toSend left } else x

/-- REWIND_TX (R322). -/
def State.txRewind (s : State) (a : Nat) : State :=
  let s1 := s.txChange a (fun t =>
    let l := rewindPackets t.mark t.first t.packets
    ({ t with packets := l, owner := none, written := t.first + (l.map TxPacket.span).sum } : TxChan).trim)
  s1.modAtt a (fun t => { t with cmds := t.cmds.map (PortCmd.clampBreak t.tx.waiting) })

/-- A packet still open is cancelled (R325). -/
def State.txCancelOpen (s : State) (a : Nat) : State :=
  s.txChange a (fun t =>
    let l := t.packets.filter (fun p => p.len.isSome)
    { t with packets := l, owner := none, written := t.first + (l.map TxPacket.span).sum })

/-- SET_TX: the mark moves to the next word to be written (R322). -/
def State.txMark (s : State) (a : Nat) : State := s.modTx a (fun t => { t with mark := some t.written })

/-- RELEASE_TX. -/
def State.txUnmark (s : State) (a : Nat) : State := s.modTx a (fun t => { t with mark := none })

/-- Every channel of an attachment is cleared at detach or disable: unread items count as lost (R326). -/
def State.chanClear (s : State) (a : Nat) : State :=
  let r := (s.att a).rx
  let items := (((r.words.drop (r.read - r.freed)).filter (fun f => !f.head)).map FifoWord.items).sum
  (s.modAtt a (fun t => { t with rx := {}, tx := {} })).countLost (a / 16) items

end Sys2Proof.Machine
end

