-- ==== Sys2Proof/Machine/Ports.lean ====
section
/-! DEFINITION. The lane ports: port commands, GPIO, the wire side of the FIFOs, safe state of lane port members, and
the PO registers (R284 to R308, R324, R327 to R332). -/
namespace Sys2Proof.Machine

/-! ### Attachment entries (R307, R309, R332) -/

/-- The code of an attachment state. -/
def AttState.code : AttState → Nat
  | .empty => 0
  | .debounce => 1
  | .enumerating => 2
  | .probing => 3
  | .ready => 4
  | .failed => 5

/-- PO_ATT without SEQ. -/
def Att.entry (t : Att) : Nat :=
  t.state.code + 8 * bnat t.hub + 16 * t.speed + 64 * t.tier + t.parent * 2 ^ 8 + t.hubPort * 2 ^ 12
    + t.profile * 2 ^ 16 + t.pver * 2 ^ 32 + t.resRx * 2 ^ 40 + t.resTx * 2 ^ 45 + t.status * 2 ^ 50

/-- PO_ATT. -/
def Att.word (t : Att) : Nat := t.entry + t.seq * 2 ^ 56

/-- Change an attachment: SEQ advances with its entry, and PORT_EVENT is latched at a change of ERROR or STATE (R307,
R327, R332). -/
def State.attChange (s : State) (a : Nat) (f : Att → Att) : State :=
  let old := s.att a
  let new := f old
  let new1 := if new.entry = old.entry then new else { new with seq := (new.seq + 1) % 16 }
  let s1 := s.modAtt a (fun _ => new1)
  if new.state != old.state || new.error != old.error then s1.attEvent a 3 else s1

/-- The profile that an attachment negotiated: the entry that was accepted (R311). -/
def State.profileOf (s : State) (a : Nat) : Option Profile :=
  match s.portWorld (a / 16) with
  | some w => (s.att a).profEntry.bind (fun i => (s.img.profiles.get w).profiles[i]?)
  | none => none

/-- An endpoint of an attachment by its address. -/
def Att.endpoint (t : Att) (ep : Nat) : Option Endpoint :=
  match t.desc with
  | some d => if ep = 0 then some { addr := 0, kind := 0, mps := d.mps0, interval := 0 } else d.endpoints.find? (fun e => e.addr = ep)
  | none => none

/-! ### Pins (R301 to R303) -/

/-- The pin of a port. -/
def Port.pin (p : Port) (i : Nat) : Pin := Tbl.get {} p.pins i

/-- The state with a pin changed. -/
def State.modPin (s : State) (n i : Nat) (f : Pin → Pin) : State :=
  s.modPort n (fun p => { p with pins := Tbl.upd {} p.pins i f })

/-- The direction of a pin, 0 for an input: PIN[p].DIR of a GPIO port, GPIO_DIR of an I2C port (R287). -/
def PortCfg.dir (c : PortCfg) (i : Nat) : Nat :=
  if c.mode = 4 then bits c.gpioDir i 1 else Tbl.get 0 c.pinDir i

/-- The SAFE code of a pin (R287). -/
def PortCfg.safe (c : PortCfg) (i : Nat) : Nat :=
  if c.mode = 4 then bits c.gpioSafe i 1 else Tbl.get 0 c.pinSafe i

/-- The output pins of a port. -/
def PortCfg.outputs (c : PortCfg) : List Nat :=
  if c.mode = 4 then (List.range 2).filter (fun i => c.dir i ≠ 0)
  else if c.mode = 5 then (List.range 4).filter (fun i => c.dir i ≠ 0)
  else []

/-- Set the ERROR of an attachment. -/
def State.attError (s : State) (a e : Nat) : State := s.attChange a (fun t => { t with error := e })

/-- A command ends with an error: ERROR, and the port's count (R307, R456). -/
def State.attFail (s : State) (a e : Nat) : State := (s.attError a e).countPort (a / 16) 6 1

/-- A pulse is cut: the pin goes low and both events are latched (R303). -/
def State.pulseCut (s : State) (n i : Nat) : State :=
  if ((s.port n).pin i).pulseEnd.isSome then
    let gap := Tbl.get 0 (s.port n).cfg.pulseGap i
    let s1 := s.modPin n i (fun p => { p with level := false, pulseEnd := none, gapUntil := s.now + gap * 1000000 })
    (((s1.attFail (16 * n) 0x0E).attEvent (16 * n) 5).attEvent (16 * n) 6)
  else s

/-- The outputs of a port go to their SAFE levels; a pin with SAFE = 2 keeps its level, and blinks no more (R301, R303). -/
def State.pinsSafe (s : State) (n : Nat) : State :=
  (s.port n).cfg.outputs.foldl (fun t i =>
    let t1 := t.pulseCut n i
    let sf := (t1.port n).cfg.safe i
    t1.modPin n i (fun p => { p with level := if sf = 2 then p.level else sf = 1, blink := none })) s

/-! ### Port commands (R305, R306) -/

/-- The mode that a command code belongs to; 0 for a reserved code. -/
def cmdMode (code : Nat) : Nat :=
  if code = 0 then 0 else if code ≤ 7 then 1 else if code ≤ 11 then 2 else if code ≤ 13 then 3
  else if code ≤ 17 then 4 else if code ≤ 20 then 5 else 0

/-- Whether a line setting is valid (R287). -/
def lineOk (v : Nat) : Bool :=
  300 ≤ bits v 0 24 && bits v 0 24 ≤ 12000000 && bits v 26 2 ≠ 3 && bits v 29 3 = 0

/-- The endpoint that a USB command names: the profile's default for 0 (R305). -/
def State.cmdEp (s : State) (a code arg8 : Nat) : Nat :=
  let dflt := fun (f : Profile → Nat) => match s.profileOf a with
    | some p => f p
    | none => 0
  if code = 1 then 0
  else if arg8 ≠ 0 then arg8
  else if code = 2 then dflt Profile.defIn
  else if code = 3 || code = 4 then dflt Profile.defOut
  else 0

/-- Whether a command's arguments are refused with BAD_ARGUMENT; for USB_CTRL a next transmit packet that is there and is not the 8
bytes of a setup (R303, R305, log 125). -/
def State.cmdBad (s : State) (a code arg8 arg16 : Nat) : Bool :=
  let c := (s.port (a / 16)).cfg
  let ep := s.cmdEp a code arg8
  let noEp := fun (ok : Endpoint → Bool) => match (s.att a).endpoint ep with
    | some e => e.kind = 1 || !ok e
    | none => true
  match code with
  | 1 => match (s.att a).tx.packets with
    | p :: _ => p.len.any (fun l => l - p.handed ≠ 8)
    | [] => false
  | 2 => arg16 = 0 || noEp (fun e => bitAt e.addr 7)
  | 3 | 4 => arg16 = 0 || ep = 0 || noEp (fun e => !bitAt e.addr 7)
  | 5 => arg16 = 0 || noEp (fun e => bitAt e.addr 7 && e.kind = 3)
  | 6 | 7 => noEp (fun _ => true)
  | 8 => arg16 = 0
  | 9 => 3 < arg8 || !lineOk (Tbl.get 0 c.line arg8)
  | 10 => c.flow || c.rs485
  | 12 | 13 | 14 | 15 => arg16 = 0
  | 16 => arg8 = 0 || arg16 = 0
  | 17 => c.dir (arg8 % 2) = 0
  | 18 | 20 => c.dir (arg8 % 4) = 0
  | 19 => c.dir (arg8 % 4) = 0 || arg16 = 0 || Tbl.get 0 c.pulseMax (arg8 % 4) < arg16
  | _ => false

/-- Whether a command is refused in safe state (R328). -/
def State.cmdUnsafe (s : State) (a c code arg8 : Nat) : Bool :=
  let p := s.port (a / 16)
  if !p.safe then false
  else if 17 ≤ code then !(p.cfg.mode = 5 && p.cfg.safe (arg8 % 4) = 2 && s.isResident c)
  else !(s.isResident c || s.isProbe c) && (match s.profileOf a with
    | some f => bitAt f.outputMask code
    | none => false)

/-- Whether a command is refused as BUSY (R303, R305, R306): one pending command per endpoint or attachment, or a pulse that
runs on the port; USB_ABORT reaches the command it ends. -/
def State.cmdBusy (s : State) (a code ep : Nat) : Bool :=
  let t := s.att a
  match cmdMode code with
  | 1 => code ≠ 7 && t.cmds.any (fun x => x.ep = ep)
  | 5 => (List.range 4).any (fun i => ((s.port (a / 16)).pin i).pulseEnd.isSome)
  | _ => !t.cmds.isEmpty

/-- The refusal of a port command, 0 for none, in the order of R306. -/
def State.cmdRefusal (s : State) (a c word : Nat) : Nat :=
  let t := s.att a
  let p := s.port (a / 16)
  let code := bits word 0 8
  let arg8 := bits word 8 8
  let arg16 := bits word 16 16
  let probe := t.probe.any (fun r => r.ctx = c) && t.state = .probing
  if (t.state ≠ .ready && !probe) || t.hub then 3
  else if cmdMode code = 0 || cmdMode code ≠ p.cfg.mode then 1
  else if s.cmdBad a code arg8 arg16 then 2
  else if s.cmdUnsafe a c code arg8 then 5
  else if p.cfg.mode = 1 && !p.vbus then 6
  else if s.cmdBusy a code (s.cmdEp a code arg8) then 4
  else if code = 19 && s.now < (p.pin (arg8 % 4)).gapUntil then 7
  else 0

/-- The pending commands with one added, in its place in the port's order (R300). -/
def State.cmdAdd (s : State) (a : Nat) (x : PortCmd) : State :=
  let n := (s.port (a / 16)).cmdSeq
  (s.modAtt a (fun t => { t with cmds := t.cmds ++ [{ x with order := n }] })).modPort (a / 16) (fun p => { p with cmdSeq := n + 1 })

/-- Whether a pending command's transaction is the one in progress: on an I2C port that of the command accepted first (R300). -/
def State.cmdTurn (s : State) (a : Nat) (x : PortCmd) : Bool :=
  cmdMode x.code ≠ 4 || (portAtts a).all (fun b => (s.att b).cmds.all (fun y => x.order ≤ y.order))

/-- An open packet of a USB transfer closes with head flags, and the transfer's end is a boundary, where the packet or the loss in
progress is that transfer's (R295, R320). -/
def State.usbClose (s : State) (a ep flags : Nat) : State :=
  if (s.att a).rx.openEp = ep then (s.rxClose a flags).rxBoundary a else s

/-- A command that ends at once: CMD_DONE (R327). -/
def State.cmdNow (s : State) (a : Nat) : State := s.attEvent a 5

/-- USB_ABORT: the pending transfer of the endpoint ends with ABORTED, and data received so far is closed as a packet
with ABORTED set (R305). -/
def State.cmdAbort (s : State) (a ep : Nat) : State :=
  if (s.att a).cmds.any (fun x => x.ep = ep) then
    let s1 := if bitAt ep 7 || ep = 0 then s.usbClose a ep 4 else s
    let s2 := s1.modAtt a (fun t => { t with cmds := t.cmds.filter (fun x => x.ep != ep), errEp := ep })
    (s2.attFail a 0x0D).cmdNow a
  else s.cmdNow a

/-- The effect of an accepted port command (R296 to R305). -/
def State.cmdStart (s0 : State) (a c word : Nat) : State :=
  let s := s0.attError a 0
  let n := a / 16
  let code := bits word 0 8
  let arg8 := bits word 8 8
  let arg16 := bits word 16 16
  let ep := s.cmdEp a code arg8
  let output := match s.profileOf a with
    | some p => bitAt p.outputMask code
    | none => false
  let x : PortCmd := { code := code, ep := ep, arg := arg16, output := output, ctx := c }
  match code with
  | 1 => s.cmdAdd a { x with toSend := 8 }
  | 2 | 5 => s.cmdAdd a { x with toRecv := arg16 }
  | 3 | 4 => s.cmdAdd a { x with toSend := arg16 }
  | 6 => (s.cmdAdd a x).emit (.usbClearHalt n (a % 16) ep)
  | 7 => s.cmdAbort a ep
  | 8 => s.cmdAdd a { x with toSend := (s.att a).tx.waiting }
  | 9 => s.cmdAdd a { x with arg := arg8 }
  | 10 => (s.modPort n (fun p => { p with rts := bitAt arg8 0 })).cmdNow a
  | 11 => (s.rxClose a 48).cmdNow a
  | 12 => s.cmdAdd a { x with toSend := arg16, toRecv := arg16 }
  | 13 => s.cmdAdd a { x with toRecv := arg16, fill := arg8 }
  | 14 => s.cmdAdd a { x with toSend := arg16 }
  | 15 => s.cmdAdd a { x with toRecv := arg16 }
  | 16 => s.cmdAdd a { x with toSend := arg8, toRecv := arg16 }
  | 17 => (s.modPin n (arg8 % 2) (fun p => { p with level := bitAt arg16 0 })).cmdNow a
  | 18 => (s.modPin n (arg8 % 4) (fun p => { p with level := bitAt arg16 0, blink := none })).cmdNow a
  | 19 => s.modPin n (arg8 % 4) (fun p =>
      { p with level := true, blink := none, pulseEnd := some (s.now + arg16 * 1000000) })
  | 20 =>
    (s.modPin n (arg8 % 4) (fun p =>
      if arg16 % 256 = 0 then { p with level := false, blink := none }
      else { p with level := true, blink := some (arg16 % 256, arg16 / 256) })).cmdNow a
  | _ => s

/-- PCMD: the answer for rd, and the state (R306). -/
def State.portCommand (s : State) (a c word : Nat) : Nat × State :=
  let r := s.cmdRefusal a c word
  if r = 0 then (0, s.cmdStart a c word) else (r, s)

/-- Count characters with LINE_ERR, or USB transactions retried for errors (R330). -/
def State.lineErrs (s : State) (n k : Nat) : State :=
  if k = 0 then s else (s.modPort n (fun p => { p with lineErr := satAt 0xFFFFFFFF (p.lineErr + k) })).countPort n 7 k

/-- The data toggle of an endpoint after k data packets: those of endpoint 0 begin anew with each stage (R305). -/
def Att.toggled (t : Att) (ep k : Nat) : Att :=
  if ep % 128 = 0 || t.desc.isNone then t else { t with toggles := Tbl.put 0 t.toggles ep ((Tbl.get 0 t.toggles ep + k) % 2) }

/-- A pending command ends, normally (0) or with an error; an open packet closes at the end of an SPI or I2C command and
of a USB transfer (R299, R305, R307, R320). A transaction that failed after three attempts was retried (R308, R330), and a
transmit word that failed its check takes the rest of its packet with it (R321). -/
def State.cmdEnd (s : State) (a : Nat) (x : PortCmd) (err : Nat) : State :=
  let n := a / 16
  let s1 := s.modAtt a (fun t => { t with cmds := t.cmds.erase x, errEp := if err = 0 then t.errEp else x.ep })
  let s2 := if cmdMode x.code = 3 || cmdMode x.code = 4 then (s1.rxClose a 0).rxBoundary a
    else if bitAt x.ep 7 || x.code = 1 then s1.usbClose a x.ep 0 else s1
  let s3 := if err = 0x0A then s2.txWordBad a
    else if (err = 2 || err = 3) && cmdMode x.code = 1 then s2.lineErrs n 1 else s2
  let s4 := match x.code with
    | 4 =>
      let mps := match (s.att a).endpoint x.ep with
        | some e => e.mps
        | none => 0
      if err = 0 && x.arg % mps = 0 then (s3.modAtt a (fun t => t.toggled x.ep 1)).emit (.usbZlp n (a % 16)) else s3
    | 6 => if err = 0 then s3.modAtt a (fun t => { t with toggles := Tbl.put 0 t.toggles x.ep 0 }) else s3
    | 8 => if err = 0 then s3.emit (.uartBreak n x.arg) else s3
    | 9 => if err = 0 then s3.modPort n (fun p => { p with lineSel := x.arg }) else s3
    | _ => s3
  (if err = 0 then s4 else s4.attFail a err).cmdNow a

/-- Whether the transmitter of a UART port is idle: the last character handed off has ended (R296). -/
def State.txIdle (s : State) (n : Nat) : Bool := (s.port n).txEnd ≤ s.now

/-- Whether a command has done its work, so that it can end normally; a break follows what was sent, and a line setting waits for
the transmitter to be idle (R296, R305). -/
def State.cmdComplete (s : State) (a : Nat) (x : PortCmd) : Bool :=
  x.toSend = 0 && x.toRecv = 0 && x.code ≠ 5 && (x.code ≠ 9 || (s.att a).tx.waiting = 0)
    && ((x.code ≠ 8 && x.code ≠ 9) || s.txIdle (a / 16))

/-- CMD_DONE: a pending command completes, normally once its data has moved, or with an error of R308. -/
def execCmdDone (a ep : Nat) (err : Nat) (s : State) : Result :=
  match (s.att a).cmds.find? (fun x => cmdMode x.code ≠ 1 || x.ep = ep) with
  | some x =>
    if !s.cmdTurn a x then .next s
    else if err = 0 then .next (if s.cmdComplete a x then s.cmdEnd a x 0 else s)
    else if err ≤ 0x0E then .next (s.cmdEnd a x err)
    else .next s
  | none => .next s

/-- STRETCH_TIMEOUT: a target stretches SCL beyond its limit (R300). -/
def execStretchTimeout (a : Nat) (s : State) : Result :=
  match (s.att a).cmds with
  | x :: _ => .next (if cmdMode x.code = 4 && s.cmdTurn a x then s.cmdEnd a x 0x09 else s)
  | [] => .next s

/-- INT_POLL_INTERVAL: a bInterval passes and one transfer of the poll begins (R305). -/
def execIntPollInterval (a ep : Nat) (s : State) : Result :=
  .next (s.modAtt a (fun t => { t with cmds := t.cmds.map (fun x =>
    if x.code = 5 ∧ x.ep = ep ∧ x.toRecv = 0 then { x with toRecv := x.arg } else x) }))

/-- PULSE_END: the width of a pulse has passed (R302). -/
def execPulseEnd (port pin : Nat) (s : State) : Result :=
  match ((s.port port).pin pin).pulseEnd with
  | some t =>
    if t ≤ s.now then
      let gap := Tbl.get 0 (s.port port).cfg.pulseGap pin
      let s1 := s.modPin port pin (fun p => { p with level := false, pulseEnd := none, gapUntil := s.now + gap * 1000000 })
      .next ((s1.cmdNow (16 * port)).attEvent (16 * port) 6)
    else .next s
  | none => .next s

/-- BLINK_TOGGLE: an on or off period passes (R305). -/
def execBlinkToggle (port pin : Nat) (s : State) : Result :=
  .next (if ((s.port port).pin pin).blink.isSome then s.modPin port pin (fun p => { p with level := !p.level }) else s)

/-- CTS_CHANGE (R297). -/
def execCtsChange (port : Nat) (high : Bool) (s : State) : Result :=
  .next (if (s.port port).cfg.mode = 2 && (s.port port).enabled then s.modPort port (fun p => { p with cts := high }) else s)

/-! ### The wire (R295, R298 to R300, R304, R324) -/

/-- The device discards input while the built-in safe configuration is in force (R63). -/
def State.wireOpen (s : State) (a : Nat) : Bool :=
  (s.att a).hasChannels && (s.port (a / 16)).enabled && s.attic.config = .image

/-- A bit time of a UART line setting in ns: the nearest multiple of 1/16 of the divider from 12 MHz (R296). -/
def bitNs (line : Nat) : Nat :=
  let r := bits line 0 24
  if r = 0 then 0 else Nat.max 16 ((2 * 192000000 + r) / (2 * r)) * 125 / 24

/-- The bits of a UART character with its start, parity and stop bits (R287). -/
def charBits (line : Nat) : Nat := 7 + bits line 24 2 + bnat (bits line 26 2 != 0) + bits line 28 1

/-- The line setting in force on a UART port. -/
def Port.lineWord (p : Port) : Nat := Tbl.get 0 p.cfg.line p.lineSel

/-- Whether the driver of an RS485 port is enabled: from one bit time before the first start bit, while data waits for it, to TX_TURN
after the last stop bit (R297). -/
def State.driverOn (s : State) (n : Nat) : Bool :=
  let p := s.port n
  p.cfg.rs485 && (match p.rtsAt with
    | some t => (p.txEnd ≤ t && 0 < (s.att (16 * n)).tx.waiting) || s.now < p.txEnd + p.cfg.txTurn * bitNs p.lineWord
    | none => false)

/-- Whether a start bit may begin: on an RS485 port one bit time after the driver was enabled (R297). -/
def State.mayStart (s : State) (n : Nat) : Bool :=
  let p := s.port n
  p.cfg.mode ≠ 2 || !p.cfg.rs485 || (s.driverOn n && p.rtsAt.all (fun t => t + bitNs p.lineWord ≤ s.now))

/-- The driver of an RS485 port is enabled for the characters to come (R297, log 145). -/
def State.driverRaise (s : State) (n : Nat) : State :=
  if s.driverOn n then s else s.modPort n (fun p => { p with rtsAt := some s.now })

/-- The level of RTS: the driver enable under RS485 (R297). -/
def State.rtsLevel (s : State) (n : Nat) : Bool := if (s.port n).cfg.rs485 then s.driverOn n else (s.port n).rts

/-- A UART port sends k characters after those it is sending (R296, R297). -/
def State.uartSends (s : State) (n k : Nat) : State :=
  s.modPort n (fun p => { p with txEnd := Nat.max p.txEnd s.now + k * charBits p.lineWord * bitNs p.lineWord })

/-- A UART character arrives: its unused high bits are 0; while the driver of an RS485 port is enabled the receiver ignores RX
(R297, R298, R318). -/
def State.uartChar (s : State) (n : Nat) (v : Byte) (framing parity brk : Bool) : State :=
  let a := 16 * n
  let c := (s.port n).cfg
  if s.driverOn n then s else
  let ch := v.toNat % 2 ^ (5 + bits (s.port n).lineWord 24 2)
  let err := framing || parity || brk
  let w : W32 := BitVec.ofNat 32 ((if brk then 0 else ch) + 256 * bnat err + 512 * bnat parity + 1024 * bnat brk)
  let s1 := s.lineErrs n (bnat err)
  let r := s1.rxWord a w err
  let eop := c.eopEn && !err && ch = c.eopChar
  let s2 := if eop then (r.2.rxClose a 16).rxBoundary a
    else if (r.2.att a).rx.openItems = c.limit then r.2.rxClose a 32
    else r.2
  s2.rtsFlow n

/-- Whether a command takes a byte now: an SPI_XFER one that has been sent, an I2C_WRITE_READ all of them, on an I2C port in the
order of the commands (R299, R300, R305). -/
def State.takesByte (s : State) (a : Nat) (x : PortCmd) : Bool :=
  0 < x.toRecv && (x.code ≠ 12 || x.toSend < x.toRecv) && (x.code ≠ 16 || x.toSend = 0) && s.cmdTurn a x

/-- A byte of an SPI or I2C transfer arrives (R299, R300): the port waits for room, so that none is lost; SPI_READ sends its fill
byte for it (R305). -/
def State.serialByte (s : State) (a : Nat) (v : Byte) (last : Bool) : State :=
  match (s.att a).cmds.find? (s.takesByte a) with
  | some x =>
    let y := { x with toRecv := x.toRecv - 1 }
    let s0 := if x.code = 13 then s.emit (.wire (a / 16) (a % 16) [BitVec.ofNat 8 x.fill]) else s
    let s1 := s0.modAtt a (fun t => { t with cmds := t.cmds.map (fun z => if z = x then y else z) })
    let s2 := (s1.rxBytes a [v]).2
    if last || y.toRecv = 0 then (s2.rxClose a 0).rxBoundary a
    else if (s2.att a).rx.openItems = (s.port (a / 16)).cfg.limit then s2.rxClose a 1
    else s2
  | none => s

/-- Whether a byte finds room: in the last word of the open packet, in a new word, or with a head word of its own (R299, R300,
R319). -/
def State.byteRoom (s : State) (a : Nat) : Bool :=
  let r := (s.att a).rx
  if r.openAt.isSome then r.openItems % 4 ≠ 0 || 1 ≤ s.rxFree a else 2 ≤ s.rxFree a

/-- RX_ITEM_ARRIVAL: a UART character, or a byte of an SPI or I2C transfer (R318, R320). -/
def execRxItemArrival (a : Nat) (x : RxItem) (s : State) : Result :=
  let m := (s.port (a / 16)).cfg.mode
  if !s.wireOpen a then .next s
  else match x with
  | .char v f p b => .next (if m = 2 && a % 16 = 0 then s.uartChar (a / 16) v f p b else s)
  | .byte v last => .next (if (m = 3 || m = 4) && s.byteRoom a then s.serialByte a v last else s)

/-- An event packet of a GPIO port (R304, R318): each event is its own boundary. -/
def State.gpioEvent (s : State) (a levels changed since : Nat) : State :=
  let s0 := s.rxGapTry a
  if (s0.att a).rx.shut || s0.rxFree a < 3 then (s0.rxLose a 1).rxBoundary a
  else
    let r := (s0.att a).rx
    let s1 := s0.modRx a (fun r => { r with
      words := r.words ++ [{ w := 0, head := true }, { w := BitVec.ofNat 32 (levels + 16 * changed), items := 1 },
                           { w := BitVec.ofNat 32 since }]
      openAt := some r.wpos, openItems := 8 })
    if r.openAt.isSome then s0 else (s1.countPort (a / 16) 0 8).rxClose a 0

/-- The filter of an input pin in ns (R304). -/
def PortCfg.filterNs (c : PortCfg) (pin : Nat) : Nat := if c.mode = 4 then 10000 else 1000 * Tbl.get 0 c.pinFilter pin

/-- INPUT_CHANGE: raw levels that differ and have been stable since the raw edge for as long as the filter of their pin are
accepted together (R304), and reach the stop links (R390). -/
def execInputChange (port : Nat) (levels : BitVec 4) (since : Nat) (s : State) : Result :=
  let p := s.port port
  let c := p.cfg
  let ins := if c.mode = 5 then (List.range 4).filter (fun i => c.dir i = 0)
    else if c.mode = 4 then (List.range 2).filter (fun i => c.dir i = 0) else []
  let ch := ins.filter (fun i => bitAt levels.toNat i != bitAt p.inputs i && since + c.filterNs i ≤ s.now)
  if !p.enabled || ch.isEmpty then .next s
  else
    let mask := (ch.map (fun i => 2 ^ i)).sum
    let now := p.inputs ^^^ mask
    let s1 := s.modPort port (fun p => { p with inputs := now })
    if c.mode = 5 then
      let s2 := if s.wireOpen (16 * port) then s1.gpioEvent (16 * port) now mask since else s1
      .next (ch.foldl (fun t i => t.stopLink port i (bitAt now i)) (s2.attEvent (16 * port) 4))
    else .next ((portAtts (16 * port)).foldl (fun t a => if (t.att a).state = .empty then t else t.attEvent a 4) s1)

/-- The commit of handed-off bytes in the record of the context whose WRITE, CONTROL or EXEC sends them (R223). -/
def State.ctxHandoff (s : State) (a c k : Nat) : State :=
  match (s.ctx c).act with
  | some x =>
    if x.att = some a && k ≠ 0 && (x.code = 1 || x.code = 3 || x.code = 9) then
      s.modCtx c (fun y => { y with stream := { y.stream with handed := y.stream.handed + k }, commitSeq := y.commitSeq + 1 })
    else s
  | none => s

/-- The pending command that sends next: round robin among the endpoints of an attachment, from the one served last; where one
command sends, that one (R290, R305). -/
def Att.sender (t : Att) : Option PortCmd :=
  (t.cmds.filter (fun x => 0 < x.toSend)).foldl (fun b x => match b with
    | none => some x
    | some y => if (x.ep + 255 - t.rrEp) % 256 < (y.ep + 255 - t.rrEp) % 256 then some x else b) none

/-- Whether the next transmit packet can feed a command: a setup packet is one of 8 bytes (R305). -/
def TxChan.feeds (t : TxChan) (x : PortCmd) : Bool :=
  x.code ≠ 1 || x.setup ≠ [] || (match t.packets with
    | p :: _ => p.len.all (fun l => l - p.handed = 8)
    | [] => true)

/-- Whether a UART port sends on its own, a packet of length 0 included: no break is due and CTS does not hold it (R297, R305). -/
def State.uartFree (s : State) (a : Nat) : Bool :=
  let p := s.port (a / 16)
  p.cfg.mode = 2 && !(p.cfg.flow && p.cts) && (s.att a).sender.isNone && !(s.att a).cmds.any (fun x => x.code = 8)

/-- The bytes that the receive channel of an SPI attachment takes without a pause: to the end of the open packet, or of a new one
(R299, R319). -/
def State.byteSpace (s : State) (a : Nat) : Nat :=
  let r := (s.att a).rx
  let l := (s.port (a / 16)).cfg.limit
  if r.openAt.isSome then Nat.min (l - r.openItems) ((4 - r.openItems % 4) % 4 + 4 * s.rxFree a)
  else Nat.min l (4 * (s.rxFree a - 1))

/-- Whether a transfer of an endpoint takes part in the round robin of a USB port: control and bulk (R290). -/
def Att.shares (t : Att) (ep : Nat) : Bool := (t.endpoint ep).all (fun e => e.kind ≠ 3)

/-- Whether an attachment of a USB port has control or bulk data to send now (R290). -/
def State.usbReady (s : State) (a : Nat) : Bool :=
  let t := s.att a
  t.hasChannels && 0 < t.tx.waiting && t.sender.any (fun x => t.shares x.ep && t.tx.feeds x)

/-- The distance of a slot from the one served last, in the round robin of a USB port (R290). -/
def Port.rrDist (p : Port) (slot : Nat) : Nat := (slot + 15 - p.rrSlot) % 16

/-- Whether an attachment may be served on an endpoint: round robin among the attachments whose control or bulk data is ready. What a
device has to send is known only once it answers, so an IN transfer is passed over until its packet comes (R290, log 146). -/
def State.usbTurn (s : State) (a ep : Nat) : Bool :=
  let p := s.port (a / 16)
  p.cfg.mode ≠ 1 || !(s.att a).shares ep
    || (portAtts a).all (fun b => b = a || !s.usbReady b || p.rrDist (a % 16) < p.rrDist (b % 16))

/-- An attachment has been served with a packet of control or bulk data (R290). -/
def State.usbServed (s : State) (a ep : Nat) : State :=
  if (s.port (a / 16)).cfg.mode = 1 && (s.att a).shares ep then s.modPort (a / 16) (fun p => { p with rrSlot := a % 16 }) else s

/-- The bytes that an attachment may hand off now: what its oldest sending command asks, as far as its turn, and for SPI the room for
what comes back, allow; or for a UART whatever is closed while CTS lets it send (R290, R297, R299, R305). -/
def State.sendLimit (s : State) (a : Nat) : Nat :=
  let t := s.att a
  let p := s.port (a / 16)
  match t.sender with
  | some x =>
    if (p.cfg.mode = 2 && p.cfg.flow && p.cts) || !s.cmdTurn a x || !t.tx.feeds x || !s.usbTurn a x.ep then 0
    else if x.code = 12 then Nat.min x.toSend (s.byteSpace a - (x.toRecv - x.toSend))
    else if (t.cmds.filter (fun y => 0 < y.toSend)).length ≤ 1 && (portAtts a).all (fun b => b = a || p.cfg.mode ≠ 1 || !s.usbReady b) then
      x.toSend
    else match t.endpoint x.ep with
      | some e => Nat.min x.toSend (e.mps - x.sent % e.mps)
      | none => x.toSend
  | none =>
    if p.cfg.mode = 2 && !(p.cfg.flow && p.cts) && !t.cmds.any (fun x => x.code = 8) then t.tx.waiting else 0

/-- A command after k bytes of its data have been handed off: the setup packet of a control transfer opens its data stage, of wLength
bytes out or in (R305). -/
def PortCmd.sends (x : PortCmd) (data : List Byte) : PortCmd :=
  let k := data.length
  if x.code ≠ 1 || 8 ≤ x.setup.length then { x with toSend := x.toSend - k, sent := x.sent + k }
  else
    let u := x.setup ++ data
    let len := fieldAt u 6 2
    if u.length < 8 then { x with setup := u, toSend := x.toSend - k }
    else if bitAt (fieldAt u 0 1) 7 then { x with setup := u, toSend := 0, toRecv := len }
    else { x with setup := u, toSend := len }

/-- The records of what a hand-off sent: the sending command, the endpoint served, the shares of the contexts, and the wire. -/
def State.handed (s : State) (a : Nat) (x : Option PortCmd) (h : Handed) : State :=
  let s1 := match x with
    | some y =>
      let z := y.sends h.data
      let mps := match (s.att a).endpoint y.ep with
        | some e => e.mps
        | none => 1
      let whole := z.toSend = 0 || z.sent % mps = 0
      let k := z.sent / mps - y.sent / mps + bnat (z.toSend = 0 && z.sent % mps ≠ 0)
      let s0 := s.modAtt a (fun t => ({ t with
        rrEp := if whole then y.ep else t.rrEp
        cmds := t.cmds.map (fun u => if u = y then z else u) } : Att).toggled y.ep k)
      if whole then s0.usbServed a y.ep else s0
    | none => s
  let s2 := h.shares.foldl (fun t p => t.ctxHandoff a p.1 p.2) s1
  let s3 := if (s.port (a / 16)).cfg.mode = 2 then s2.uartSends (a / 16) h.data.length else s2
  if h.data = [] then s3 else s3.emit (.wire (a / 16) (a % 16) h.data)

/-- TX_HANDOFF: n bytes pass the hand-off point, the driver of an RS485 port being enabled one bit time before (R223, R297, R324); or a word fails its check as it is read, and the rest of its packet
is discarded and the command ends with TX_DATA_ECC (R321). -/
def execTxHandoff (a n : Nat) (s0 : State) (chk : WordCheck := .clean) (retried : Nat := 0) : Result :=
  let s := if (s0.port (a / 16)).cfg.mode = 1 then s0.lineErrs (a / 16) retried else s0
  let k := Nat.min n (s.sendLimit a)
  let x := (s.att a).sender
  if !(s.att a).hasChannels || !(s.port (a / 16)).enabled || (k = 0 && !s.uartFree a) then .next s
  else if (s.att a).tx.packets.head?.any (fun p => p.len.isSome && (p.bad || chk = .failed)) then
    .next (match x with
      | some y => s.cmdEnd a y 0x0A
      | none => s.txWordBad a)
  else
    let r := s.txTake a k
    if r.1.data.isEmpty && r.1.done = 0 then .next s
    else if k ≠ 0 && !s.mayStart (a / 16) then .next (s.driverRaise (a / 16))
    else .next ((if chk = .corrected then r.2.portWordSoft (a / 16) else r.2).handed a x r.1)

/-- USB_IN_PACKET: a data packet of a pending transfer arrives (R295, R305): stored, or under DROP lost; under HOLD no
token goes out while there is no room for one, nor while a packet of another transfer is open (log 124). -/
def execUsbInPacket (a ep : Nat) (data : List Byte) (s0 : State) (retried : Nat := 0) : Result :=
  let n := a / 16
  let s := if (s0.port n).cfg.mode = 1 then s0.lineErrs n retried else s0
  let t := s.att a
  match t.cmds.find? (fun x => x.ep % 128 = ep % 128 && 0 < x.toRecv && (bitAt x.ep 7 || x.code = 1)), t.endpoint ep with
  | some x, some e =>
    let room := s.rxFree a - bnat t.rx.openAt.isNone
    if !s.wireOpen a || e.mps < data.length || (t.rx.openAt.isSome && t.rx.openEp ≠ x.ep) || !s.usbTurn a x.ep then .next s
    else if !s.portDrop n && 4 * room < e.mps then .next s
    else
      let take := data.take x.toRecv
      let left := x.toRecv - take.length
      let ends := data.length < e.mps || left = 0
      let short := data.length < e.mps
      let s1 := (s.usbServed a x.ep).modAtt a (fun t => { t.toggled x.ep 1 with
        rrEp := x.ep
        rx := if t.rx.openAt.isSome || t.rx.shut then t.rx else { t.rx with openEp := x.ep }
        cmds := t.cmds.map (fun z => if z = x then { x with toRecv := if ends then 0 else left } else z) })
      let s2 := if t.rx.openAt.isSome && (s.port n).cfg.limit < t.rx.openItems + take.length then s1.rxClose a 1 else s1
      let s3 := if take = [] then (if (s2.att a).rx.openAt.isSome || !ends then s2 else s2.rxZero a (2 * bnat short))
        else (s2.rxBytes a take).2
      .next (if ends then s3.usbClose a x.ep (2 * bnat short) else s3)
  | _, _ => .next s

/-! ### Power of USB ports, safe state (R291, R301, R329) -/

/-- VBUS_EN of a port: on while enabled, but for an overcurrent and for VBUS_SAFE_OFF in safe state (R291). -/
def State.portPower (s : State) (n : Nat) : State :=
  s.modPort n (fun p => { p with vbus :=
    p.cfg.mode = 1 && p.enabled && !p.ocLockout && p.ocRetry.isNone && !(p.cfg.vbusSafeOff && p.safe) })

/-- The hardware of a port whose member enters safe state; an overcurrent lockout ends (R291, R301). -/
def State.portSafeOn (s : State) (n : Nat) : State :=
  let was := (s.port n).safe
  let s1 := s.modPort n (fun p => { p with
    safe := true, ocLockout := false, ocTimes := if p.ocLockout then [] else p.ocTimes
    event := if was then p.event else p.event ||| 128 })
  let s2 := if (s.port n).enabled then s1.pinsSafe n else s1
  s2.portPower n

/-- A port's member leaves safe state: outputs keep their levels (R329). -/
def State.portSafeOff (s : State) (n : Nat) : State :=
  let was := (s.port n).safe
  (s.modPort n (fun p => { p with safe := false, event := if was then p.event ||| 128 else p.event })).portPower n

/-! ### Status (R307, R330, R331) -/

/-- PSTAT (R307). A pulse is pending until its CMD_DONE (R302). -/
def State.portStatus (s : State) (a : Nat) : Nat :=
  let t := s.att a
  let p := s.port (a / 16)
  let four := fun (f : Nat → Bool) => ((List.range 4).map (fun i => bnat (f i) * 2 ^ i)).sum
  let mode := match p.cfg.mode with
    | 1 => t.speed % 4 + t.errEp % 256 * 2 ^ 8
    | 2 => bnat p.cts + 2 * bnat (s.rtsLevel (a / 16))
    | 4 => p.inputs % 4 + 4 * bnat (p.pin 0).level + 8 * bnat (p.pin 1).level
    | 5 => p.inputs % 16 + 16 * four (fun i => (p.pin i).level) + 256 * four (fun i => (p.pin i).pulseEnd.isSome)
        + 4096 * four (fun i => (p.pin i).blink.isSome)
    | _ => 0
  t.error % 65536 + t.state.code * 2 ^ 16 + bnat p.safe * 2 ^ 19
    + bnat (if p.cfg.mode = 1 then p.vbus else p.enabled) * 2 ^ 20 + bnat t.tx.owner.isSome * 2 ^ 21
    + bnat (!t.cmds.isEmpty || (p.cfg.mode = 5 && (List.range 4).any (fun i => (p.pin i).pulseEnd.isSome))) * 2 ^ 22 + mode * 2 ^ 32

/-- The sense record's and PO_STATUS' count of attachments. -/
def State.attCount (s : State) (n : Nat) : Nat := ((portAtts (16 * n)).filter (fun a => (s.att a).state ≠ .empty)).length

/-- The word that a 32-bit read of the Porch block returns. -/
def State.poRead (s : State) (fn : World) (off : Nat) : Nat :=
  let n := (off - 0x800000) / 256
  let p := s.port n
  if s.portWorld n ≠ some fn then 0 else
  match off % 256 with
  | 0x00 =>
    let lane := s.portLane n
    p.cfg.mode + 8 * fn.bit + 16 * bnat lane.isSome + 32 * lane.getD 0 + bnat (s.portDrop n) * 2 ^ 12
      + bnat p.cfg.flow * 2 ^ 13 + bnat p.cfg.rs485 * 2 ^ 14 + bnat p.cfg.hubs * 2 ^ 15 + n / 16 * 2 ^ 16
      + n / 8 * 2 ^ 20
  | 0x04 =>
    bnat p.enabled + 2 * bnat p.safe + 4 * bnat p.vbus + 8 * bnat p.ocLockout + s.attCount n * 2 ^ 4
      + p.refuseStatus * 2 ^ 9 + p.refuseParent * 2 ^ 13 + p.refusePort * 2 ^ 17
  | 0x08 => p.event
  | 0x10 => p.rxLost
  | 0x14 => p.gapCnt
  | 0x18 => p.eccCorr
  | 0x1C => p.eccUncorr
  | 0x20 => p.lineErr
  | 0x24 => p.ocCnt
  | x =>
    if 0x80 ≤ x then
      let w := (s.att (16 * n + (x - 0x80) / 8)).word
      if x % 8 = 0 then w % 2 ^ 32 else w / 2 ^ 32
    else 0

/-- A 32-bit write to the Porch block: PO_EVENT. -/
def State.poWrite (s : State) (fn : World) (off : Nat) (v : W32) : State :=
  let n := (off - 0x800000) / 256
  s.hostItem fn off (s.portWorld n) (fun t =>
    if off % 256 = 0x08 then t.modPort n (fun p => { p with event := (p.event ||| v.toNat % 256) ^^^ (v.toNat % 256) })
    else t)

end Sys2Proof.Machine
end

