-- ==== Sys2Proof/Machine/Access.lean ====
section
/-! DEFINITION. The device buffer space: what an address names, who may access it, and reads and writes of Pantry and
of host memory (R86, R133, R179, R180, R333 to R335, R344 to R346, R351, R354). -/
namespace Sys2Proof.Machine

/-- The kind of an access. -/
inductive AccKind where
  | read
  | write
  | fetch
  deriving DecidableEq, Repr

/-- Why an access is denied (R133, R180). -/
inductive Deny where
  | address
  | world
  | privileged
  deriving DecidableEq, Repr

/-- What a device buffer address names (R333, R334). -/
inductive Place where
  | absent
  /-- A byte of a region: its world and the region's attribute (R179). -/
  | region (w : World) (attr : Nat)
  /-- A host window page: its world and its number. -/
  | page (w : World) (i : Nat)
  deriving DecidableEq, Repr

/-- The base of the host window range. -/
def windowBase : Nat := 0x100000000

/-- The bytes of a host window page. -/
def pageBytes : Nat := 0x200000

/-- The number of the region that holds an address, counted from `i`. -/
def findRegion (a : Nat) : List Region → Nat → Option (Nat × Region)
  | [], _ => none
  | r :: rs, i => if r.base ≤ a ∧ a < r.base + r.len then some (i, r) else findRegion a rs (i + 1)

/-- The world of a host window page (R501). -/
def State.pageWorld (s : State) (i : Nat) : Option World :=
  if i < s.img.hostPages then (s.img.windows.find? (fun w => w.first ≤ i ∧ i < w.first + w.count)).map (fun w => w.world)
  else none

/-- What an address names. -/
def State.place (s : State) (a : Nat) : Place :=
  if a < windowBase then
    if a < s.img.cap then
      match findRegion a s.img.regions 0 with
      | some (i, r) => .region r.world (Tbl.get 0 (s.wcfg r.world).attrs i)
      | none => .absent
    else .absent
  else
    match s.pageWorld ((a - windowBase) / pageBytes) with
    | some w => if a < 2 ^ 38 then .page w ((a - windowBase) / pageBytes) else .absent
    | none => .absent

/-- The translation entry of a page: VALID, READ_ONLY, NO_SNOOP and BUS_ADDR (R351). -/
def State.xlatOf (s : State) (i : Nat) : Nat := (Tbl.get 0 s.pantry.xlat i).toNat

/-- Whether a page counts as a page of its world (R334, R354). -/
def State.pageValid (s : State) (i : Nat) : Bool := bitAt (s.xlatOf i) 0 && !s.pantry.xlatBad.contains i

/-- The rights of a region attribute (R179, R180). -/
def regionDeny (attr : Nat) (super : Bool) (k : AccKind) : Option Deny :=
  let code := attr = 2 || attr = 3
  if !super && (attr = 1 || attr = 3) then some .privileged
  else match k with
    | .read => none
    | .write => if code then some .address else none
    | .fetch => if attr = 2 && !super || attr = 3 && super then none else some .address

/-- Whether an address lies in a host window page of a world. -/
def State.inPageOf (s : State) (w : World) (a : Nat) : Bool :=
  match s.place a with
  | .page x _ => x = w
  | _ => false

/-- Whether an access to one byte by a world at a level is denied. -/
def State.deny (s : State) (w : World) (super : Bool) (k : AccKind) (a : Nat) : Option Deny :=
  match s.place a with
  | .absent => some .address
  | .region x attr => if x = w then regionDeny attr super k else some .world
  | .page x i =>
    if x = w then
      if !s.pageValid i then some .address
      else match k with
        | .read => none
        | .write => if bitAt (s.xlatOf i) 1 then some .address else none
        | .fetch => some .address
    else some .world

/-- The bytes from an address that share its rights: regions and pages are made of blocks of 64 KiB. -/
def blockLeft (a : Nat) : Nat := 65536 - a % 65536

/-- How many of n bytes from an address may be accessed before one is denied, and the denial (R86). -/
def State.allowed (s : State) (w : World) (super : Bool) (k : AccKind) : Nat → Nat → Nat → Nat × Option Deny
  | 0, _, _ => (0, none)
  | fuel + 1, a, n =>
    if n = 0 then (0, none) else
    match s.deny w super k a with
    | some d => (0, some d)
    | none =>
      let b := Nat.min n (blockLeft a)
      let r := s.allowed w super k fuel (a + b) (n - b)
      (b + r.1, r.2)

/-- Whether all of n bytes may be accessed. -/
def State.denyAll (s : State) (w : World) (super : Bool) (k : AccKind) (a n : Nat) : Option Deny :=
  (s.allowed w super k (n / 65536 + 2) a n).2

/-! ### Pantry (R338, R344 to R346) -/

/-- The channel of a Pantry address (R338). -/
def State.pnChannel (s : State) (a : Nat) : Nat :=
  if s.img.chMask = 0xF then bits a 8 2 else if s.img.chMask = 3 then bits a 8 1 else 0

/-- y of R338: the burst index of a Pantry address within its channel. -/
def State.pnIndex (s : State) (a : Nat) : Nat :=
  let k := if s.img.chMask = 0xF then 2 else if s.img.chMask = 3 then 1 else 0
  a / 2 ^ (8 + k) * 8 + bits a 5 3

/-- The device of a Pantry address, 0 with one device (R338). -/
def State.pnDevice (s : State) (a : Nat) : Nat := if s.img.devices = 2 then bits (s.pnIndex a) 24 1 else 0

/-- The bank of a Pantry address: bits [6:3] of its command word (R338, R339). -/
def State.pnBank (s : State) (a : Nat) : Nat := bits (s.pnIndex a) 3 4

/-- The burst address of a Pantry address within its bank: bits [26:7] of its command word (R338, R339). -/
def State.pnAddr (s : State) (a : Nat) : Nat := bits (s.pnIndex a) 7 17 * 8 + bits (s.pnIndex a) 0 3

/-- A command word: CMD, BANK and ADDR, with even parity over bits [26:0] in PAR (R339). -/
def pnCommand (cmd bank addr : Nat) : Nat :=
  let w := cmd % 8 + bank % 16 * 2 ^ 3 + addr % 2 ^ 20 * 2 ^ 7
  w + ((List.range 27).filter (bitAt w)).length % 2 * 2 ^ 27

/-- The command word of a READ (1) or a WRITE (2) of the burst of a Pantry address (R338, R339; log 149). -/
def State.pnBurstWord (s : State) (cmd a : Nat) : Nat := pnCommand cmd (s.pnBank a) (s.pnAddr a)

/-- PN_SEL_N[i][1:0] as a command is issued to the device of a Pantry address: low for it alone; index 1 is held high with one device
(R337, R339; log 149). -/
def State.pnSelN (s : State) (a : Nat) : Nat := if s.pnDevice a = 1 then 1 else 2

/-! ### The checks of a burst (R344) -/

/-- The symbol of a place of a burst, ball 0 to 35 and beat 0 to 7 as 8 × ball + beat (R344). -/
def eccSymbol (p : Nat) : Nat := 9 * (p % 8 / 2) + p / 8 / 4

/-- What the check of a burst finds. -/
inductive EccEnd where
  | clean
  | corrected
  | uncorrectable
  deriving DecidableEq, Repr

/-- The check of a burst with errors at some places: STANDARD corrects one symbol, STRONG two symbols or one ball; more is uncorrectable
(R344; log 118). -/
def eccJudge (strong : Bool) (errs : List Nat) : EccEnd :=
  if errs = [] then .clean
  else if (errs.map eccSymbol).dedup.length ≤ (if strong then 2 else 1) || (strong && (errs.map (fun p => p / 8)).dedup.length ≤ 1) then
    .corrected
  else .uncorrectable

/-- The check of a burst: a poisoned one stays uncorrectable (R345, R346). -/
def State.pnJudge (s : State) (burst : Nat) : EccEnd :=
  if s.pantry.poison.contains burst then .uncorrectable else eccJudge s.img.strong (Tbl.get [] s.pantry.errs burst)

/-- Whether a burst reads uncorrectable. -/
def State.pnBad (s : State) (burst : Nat) : Bool := s.pnJudge burst = .uncorrectable

/-- The world of the region that holds a Pantry address. -/
def State.regionWorld (s : State) (a : Nat) : Option World :=
  match s.place a with
  | .region w _ => some w
  | _ => none

/-- An uncorrectable burst has been read: counted, recorded, and PN_ERR_ADDR of the region's world loaded (R345). -/
def State.pnUncorrectable (s : State) (burst : Nat) : State :=
  let a := 32 * burst
  let ch := s.pnChannel a
  let w := s.regionWorld a
  let s1 := s.modPn (fun p => { p with
    uncorr := Tbl.upd 0 p.uncorr ch satInc32
    errAddr := match w with
      | some x => p.errAddr.set x a
      | none => p.errAddr })
  s1.report (faultMsg (88 + ch) (s.pnDevice a) 0x02 a w false)

/-- A correctable burst has been read: counted and written back (R345). -/
def State.pnCorrected (s : State) (burst : Nat) : State :=
  s.modPn (fun p => { p with
    corr := Tbl.upd 0 p.corr (s.pnChannel (32 * burst)) satInc32
    errs := Tbl.put [] p.errs burst [] })

/-- The bursts that n bytes from an address touch. -/
def burstsOf (a n : Nat) : List Nat :=
  if n = 0 then [] else (List.range ((a + n - 1) / 32 - a / 32 + 1)).map (fun i => a / 32 + i)

/-- The check of every burst of a read: whether all are good, and the counts it leaves. -/
def State.pnCheck (s : State) (a n : Nat) : Bool × State :=
  (burstsOf a n).foldl (fun r b =>
    match r.2.pnJudge b with
    | .uncorrectable => (false, r.2.pnUncorrectable b)
    | .corrected => (r.1, r.2.pnCorrected b)
    | .clean => r) (true, s)

/-- The address that an uncorrectable read names: the first byte of the read in its first uncorrectable burst (R171, R345; log 140). -/
def State.eccAt (s : State) (a n : Nat) : Nat :=
  match (burstsOf a n).find? s.pnBad with
  | some b => Nat.max a (32 * b)
  | none => a

/-- n bytes of Pantry, unchecked. -/
def State.pnBytes (s : State) (a n : Nat) : List Byte := Memory.bytes 0 s.pantry.mem a n

/-- Bytes written to Pantry: a burst written whole loses its poison, one written in part keeps it (R346). -/
def State.pnWrite (s : State) (a : Nat) (data : List Byte) : State :=
  let whole := fun b => a ≤ 32 * b && 32 * b + 32 ≤ a + data.length
  s.modPn (fun p => { p with
    mem := Memory.write 0 p.mem a data
    poison := p.poison.filter (fun b => !whole b)
    errs := p.errs.filter (fun e => !whole e.1) })

/-! ### Host memory -/

/-- The bus address that a host window address translates to (R351). -/
def State.busAddr (s : State) (a : Nat) : Nat :=
  let i := (a - windowBase) / pageBytes
  s.xlatOf i / pageBytes * pageBytes + (a - windowBase) % pageBytes

/-- Whether a function's requests reach the host: the link is up, Bus Master Enable is 1 and it is in D0. -/
def State.dmaOk (s : State) (w : World) : Bool := s.linkUp && (s.fn w).bme && !(s.fn w).d3hot

/-- n bytes of host memory at a bus address. -/
def State.hostBytes (s : State) (a n : Nat) : List Byte := hostBytesOf s.hostMem a n

/-- Bytes written to host memory at a bus address. -/
def State.hostWrite (s : State) (a : Nat) (data : List Byte) : State := { s with hostMem := hostWriteOf s.hostMem a data }

/-! ### Accesses of the device buffer space -/

/-- How a read of the buffer space ends. -/
inductive ReadEnd where
  | ok (data : List Byte)
  | ecc
  | busError
  deriving DecidableEq, Repr

/-- Read n bytes, allowed and within one block of rights, for a world: with the counts of R456 and R345. A read on the link fails
where the function cannot send it, and where it completes with an error or reaches the completion timeout (R354). -/
def State.readBlock (s : State) (w : World) (a n : Nat) : ReadEnd × State :=
  if a < windowBase then
    let r := (s.countWorld w 12 n).pnCheck a n
    (if r.1 then .ok (r.2.pnBytes a n) else .ecc, r.2)
  else if s.dmaOk w && !s.linkBad then
    (.ok (s.hostBytes (s.busAddr a) n), s.countWorld w 10 n)
  else (.busError, s)

/-- Write bytes, allowed and within one block of rights, for a world. -/
def State.writeBlock (s : State) (w : World) (a : Nat) (data : List Byte) : State :=
  if a < windowBase then (s.countWorld w 12 data.length).pnWrite a data
  else (s.countWorld w 11 data.length).hostWrite (s.busAddr a) data

/-- Record an access to an entry of the translation table that has an uncorrectable error (R354). -/
def State.xlatNote (s : State) (a : Nat) : State :=
  let i := (a - windowBase) / pageBytes
  if windowBase ≤ a ∧ s.pantry.xlatBad.contains i then s.report (faultMsg 92 0 0x02 i (s.pageWorld i) false) else s

/-- A command whose reads on the link end as given: with an error or a timeout each is a BUS_ERROR for its requester (R354). -/
def State.onLink (s : State) (r : LinkResult) (k : State → Result) : Result :=
  match r with
  | .ok => k s
  | .busError =>
    match k { s with linkBad := true } with
    | .next t => .next { t with linkBad := s.linkBad }
    | o => o

/-- How a transfer over several blocks stopped. -/
inductive XferStop where
  | done
  | denied (d : Deny)
  | ecc
  | busError
  deriving DecidableEq, Repr

/-- Read up to n bytes block by block, as far as rights and errors allow (R86). -/
def State.readSpan (s : State) (w : World) (super : Bool) : Nat → Nat → Nat → List Byte × XferStop × State
  | 0, _, _ => ([], .done, s)
  | fuel + 1, a, n =>
    if n = 0 then ([], .done, s) else
    match s.deny w super .read a with
    | some d => ([], .denied d, s.xlatNote a)
    | none =>
      let b := Nat.min n (blockLeft a)
      match s.readBlock w a b with
      | (.ok data, s1) =>
        let r := s1.readSpan w super fuel (a + b) (n - b)
        (data ++ r.1, r.2)
      | (.ecc, s1) => ([], .ecc, s1)
      | (.busError, s1) => ([], .busError, s1)

/-- Read n bytes for a world. -/
def State.readBytes (s : State) (w : World) (super : Bool) (a n : Nat) : List Byte × XferStop × State :=
  s.readSpan w super (n / 65536 + 2) a n

/-- Write bytes block by block, as far as rights allow; the count is of the bytes written. -/
def State.writeSpan (s : State) (w : World) (super : Bool) : Nat → Nat → List Byte → Nat × XferStop × State
  | 0, _, _ => (0, .done, s)
  | fuel + 1, a, data =>
    if data = [] then (0, .done, s) else
    match s.deny w super .write a with
    | some d => (0, .denied d, s.xlatNote a)
    | none =>
      let b := Nat.min data.length (blockLeft a)
      let r := (s.writeBlock w a (data.take b)).writeSpan w super fuel (a + b) (data.drop b)
      (b + r.1, r.2)

/-- Write bytes for a world. -/
def State.writeBytes (s : State) (w : World) (super : Bool) (a : Nat) (data : List Byte) : Nat × XferStop × State :=
  s.writeSpan w super (data.length / 65536 + 2) a data

end Sys2Proof.Machine
end

