-- ==== Sys2Proof/Machine/Queue.lean ====
section
/-! DEFINITION. The queue manager: ring pointers, doorbells, fetching, completions, the overflow store, groups and
events (R251 to R273, R276). -/
namespace Sys2Proof.Machine

/-! ### Pointers (R252) -/

/-- A pointer as one position in two laps of the ring. -/
def Ptr.pos (p : Ptr) (depth : Nat) : Nat := p.idx + bnat p.wrap * depth

/-- The slots outstanding from a head to a tail. -/
def ptrDist (head tail : Ptr) (depth : Nat) : Nat := (tail.pos depth + 2 * depth - head.pos depth) % (2 * depth)

/-- A pointer advanced by n slots. -/
def Ptr.add (p : Ptr) (depth n : Nat) : Ptr :=
  let x := (p.pos depth + n) % (2 * depth)
  { idx := x % depth, wrap := depth ≤ x }

/-- The register form of a pointer. -/
def Ptr.word (p : Ptr) : Nat := p.idx + bnat p.wrap * 65536

/-- A pointer from a register form. -/
def ptrOf (v : Nat) : Ptr := { idx := v % 65536, wrap := bitAt v 16 }

/-- Equal indices with differing wrap bits: the ring is full. -/
def ptrFull (head tail : Ptr) : Bool := head.idx = tail.idx && head.wrap != tail.wrap

/-! ### Completions (R264 to R268) -/

/-- The 32 bytes of a completion entry as it is placed (R264). -/
def Compl.bytes (e : Compl) (sqHead : Nat) (phase : Bool) : List Byte :=
  let kind := match e.kind with
    | .program => 0
    | .admin => 1
    | .event => 2
    | .orphan => 3
  (e.body ++ List.replicate 16 0).take 16 ++ leBytes 2 (e.sq % 8192) ++ leBytes 2 e.tag ++ leBytes 4 sqHead
    ++ leBytes 2 (e.ctx % 16384) ++ leBytes 1 kind
    ++ leBytes 1 (bnat e.batch + 2 * bnat e.overflowed + 128 * bnat phase) ++ leBytes 4 e.kindData

/-- Whether a completion queue is full (R265). -/
def Cq.full (q : Cq) : Bool := ptrFull q.head q.tail

/-- The store entries of a queue. -/
def State.storeOf (s : State) (w : World) (n : Nat) : List OvfEntry := s.ovf.filter (fun e => e.world = w && e.cq = n)

/-- Send the message of a completion queue and start its count anew (R267). -/
def State.cqAnnounce (s : State) (w : World) (n : Nat) : State :=
  (s.modCq w n (fun q => { q with unannounced := 0 })).msix w (s.cq w n).vector

/-- Write an entry into a completion ring that has room, with MSI-X under moderation (R265, R267). -/
def State.cqRaw (s : State) (w : World) (n : Nat) (e : Compl) : State :=
  let q := s.cq w n
  let head := (s.sq w e.sq).head.word
  let s1 := s.hostWrite (q.base + 32 * q.tail.idx) (e.bytes head (!q.tail.wrap))
  let s2 := s1.modCq w n (fun q => { q with
    tail := q.tail.add q.depth 1
    firstAt := if q.unannounced = 0 then s.now else q.firstAt
    unannounced := q.unannounced + 1 })
  let q2 := s2.cq w n
  if q2.intDelayUs = 0 || q2.intCount ≤ q2.unannounced then s2.cqAnnounce w n else s2

/-- An event entry (R264, R271). -/
def eventCompl (code detail now : Nat) : Compl :=
  { body := leBytes 2 code ++ leBytes 2 detail ++ leBytes 8 now, kind := .event }

/-- Place an event entry on CQ 0 where EVENTS is accepted and CQ 0 has room (R271). -/
def State.eventEntry (s : State) (w : World) (code detail : Nat) : State :=
  let q := s.cq w 0
  if bitAt (s.fn w).accepted 8 && q.state = .active && !q.full && (s.storeOf w 0).isEmpty then
    let s1 := s.cqRaw w 0 (eventCompl code detail s.now)
    if (s1.cq w 0).full then s1.qmEvent w 0 else s1
  else s

/-- A QM event with its event entry: CQ_FULL 0, OVF_STALL 1, SQ_ERROR 2, ORPHANS 3 (R271, R276). -/
def State.qmEventEntry (s : State) (w : World) (bit code detail : Nat) : State :=
  (s.qmEvent w bit).eventEntry w code detail

/-- Place an entry in a queue that has room; CQ_FULL where the queue becomes full. -/
def State.cqPut (s : State) (w : World) (n : Nat) (e : Compl) : State :=
  let s1 := s.cqRaw w n e
  if (s1.cq w n).full then s1.qmEventEntry w 0 1 n else s1

/-- Store entries of a world, and those that take shared places. -/
def State.ovfCount (s : State) (w : World) : Nat := (s.ovf.filter (fun e => e.world = w)).length

/-- Shared entries in use. -/
def State.ovfShared (s : State) : Nat := (s.ovf.filter (fun e => !e.reserved)).length

/-- Reserved entries of a world in use. -/
def State.ovfReserved (s : State) (w : World) : Nat := (s.ovf.filter (fun e => e.world = w && e.reserved)).length

/-- Whether the store has a free entry for a world (R268). -/
def State.ovfRoom (s : State) (w : World) : Bool := s.ovfReserved w < 256 || s.ovfShared < 512

/-- An entry goes to the store: the world's reserve first. -/
def State.ovfPut (s : State) (w : World) (n : Nat) (e : Compl) : State :=
  let x : OvfEntry :=
    { world := w, cq := n, compl := { e with overflowed := true }, reserved := s.ovfReserved w < 256 }
  let s1 := { s with ovf := s.ovf ++ [x] }
  s1.modFn w (fun f => { f with ovfHwm := Nat.max f.ovfHwm (s1.ovfCount w) })

/-- An entry becomes an orphan for CQ 0, with its original queue (R264, R270). -/
def Compl.orphan (e : Compl) (n : Nat) : Compl :=
  { e with kind := .orphan, kindData := e.kindData % 65536 + n % 8192 * 65536 }

/-- Whether a status of a queue waits for the store (R268). -/
def State.cqWaits (s : State) (w : World) (n : Nat) : Bool := s.ovfWait.any (fun x => x.world = w && x.cq = n)

/-- Whether an entry may be written into a queue at once: it is ACTIVE with room, and none of its own waits in the store. -/
def State.cqOpen (s : State) (w : World) (n : Nat) : Bool :=
  (s.cq w n).state = .active && !(s.cq w n).full && (s.storeOf w n).isEmpty

/-- Place an entry: in its queue, in the store where the queue is full, LOST or has entries there, or waiting for the
store, behind the entries of its queue that wait already. A queue that is no more gives way to CQ 0. The answer says whether it
was placed (R267, R268, R270, R275). -/
def State.complete (s : State) (w : World) (n : Nat) (e : Compl) : Bool × State :=
  let gone := (s.cq w n).state = .none
  let m := if gone then 0 else n
  let e1 := if gone && e.kind != .orphan then e.orphan n else e
  if s.cqOpen w m && !s.cqWaits w m then (true, s.cqPut w m e1)
  else if s.ovfRoom w && !s.cqWaits w m then (true, s.ovfPut w m e1)
  else (false, ({ s with ovfWait := s.ovfWait ++ [(⟨w, m, e1⟩ : WaitStatus)] }).qmEventEntry w 1 3 0)

/-- Place an entry for a program that may have outlived a host loss: its queue number then names a queue that is no more,
unless it is LOST still (R270, R275). -/
def State.completeOld (s : State) (w : World) (n : Nat) (orphaned : Bool) (e : Compl) : Bool × State :=
  if orphaned && (s.cq w n).state ≠ .lost then s.complete w 0 (e.orphan n) else s.complete w n e

/-- An orphan has been placed: with the last one, ORPHANS is set (R270, R271). -/
def State.orphanPlaced (s : State) (w : World) (e : Compl) : State :=
  let m := s.qm.get w
  if e.kind = .orphan && 0 < m.orphansDue then
    let s1 := { s with qm := s.qm.set w { m with orphansDue := m.orphansDue - 1 } }
    if m.orphansDue = 1 then s1.qmEventEntry w 3 4 (satAt 65535 m.orphansPosted) else s1
  else s

/-- Statuses that wait go, oldest first, to their queue where it has room, or take the free entries of the store (R268). -/
def State.ovfAdmit (s : State) : List WaitStatus → State
  | [] => s
  | x :: xs =>
    let s1 := { s with ovfWait := s.ovfWait.erase x }
    if s.cqOpen x.world x.cq then ((s1.cqPut x.world x.cq x.compl).orphanPlaced x.world x.compl).ovfAdmit xs
    else if s.ovfRoom x.world then (s1.ovfPut x.world x.cq x.compl).ovfAdmit xs
    else s.ovfAdmit xs

/-- The entries of one queue leave the store in order while the queue has room; the count is World counter 9. -/
def State.ovfDrain (s : State) (w : World) (n : Nat) : Nat → State
  | 0 => s
  | fuel + 1 =>
    let q := s.cq w n
    if q.state = .active && !q.full then
      match s.storeOf w n with
      | [] => s
      | e :: _ =>
        let s1 := ({ s with ovf := s.ovf.erase e }).countWorld w 9 1
        let s2 := (s1.cqPut w n e.compl).orphanPlaced w e.compl
        (s2.ovfAdmit s2.ovfWait).ovfDrain w n fuel
    else s

/-- Drain the store for one queue, and place what waited for room. -/
def State.cqDrain (s : State) (w : World) (n : Nat) : State :=
  let s1 := s.ovfDrain w n (s.ovf.length + s.ovfWait.length)
  s1.ovfAdmit s1.ovfWait

/-- An administrative completion (R273). -/
def State.adminDone (s : State) (w : World) (tag astatus result0 result1 : Nat) : State :=
  (s.complete w 0 { body := leBytes 8 result0 ++ leBytes 2 0 ++ leBytes 1 astatus ++ leBytes 5 0,
                    tag := tag, kind := .admin, kindData := result1 }).2

/-! ### Groups (R263) -/

/-- Post the covering completion of a group whose members have all placed their final status. -/
def State.groupCover (s : State) (w : World) (q g cq : Nat) (orphaned : Bool) : State :=
  let x := Tbl.get {} (s.sq w q).groups g
  if x.closed && x.ended = x.bound && 0 < x.bound then
    let body := leBytes 8 0 ++ leBytes 2 0 ++ leBytes 1 0 ++ leBytes 1 0 ++ leBytes 2 8 ++ leBytes 2 x.posted
    let s1 := s.modSq w q (fun y => { y with groups := Tbl.put {} y.groups g {} })
    (s1.completeOld w cq orphaned { body := body, sq := q, tag := x.lastTag, ctx := x.lastCtx, batch := true, kindData := x.bound }).2
  else s

/-- A cut of the open group of a queue: the last bound member stands for the BATCH entry (R263). -/
def State.groupCut (s : State) (w : World) (q : Nat) : State :=
  let x := s.sq w q
  let s1 := s.modSq w q (fun y => { y with groupRun := 0 })
  if x.groupOpen then
    let s2 := s1.modSq w q (fun y => { y with
      groups := Tbl.upd {} y.groups x.groupNo (fun g => { g with closed := true })
      groupNo := y.groupNo + 1, groupOpen := false })
    s2.groupCover w q x.groupNo x.cq false
  else s1

/-! ### Submission queues (R251 to R262) -/

/-- The fetched, unbound entries of a queue are discarded; fetching starts again at the head. Of a group that stays open the bound
members still count (R260). -/
def Sq.discard (q : Sq) : Sq :=
  { q with
    entries := [], job := none, jobSlots := 0, fetch := q.head, held := false, bindWaited := false, clusterWait := false
    groupRun := if q.groupOpen then (Tbl.get ({} : Group) q.groups q.groupNo).bound else 0 }

/-- A queue meets a malformed entry or doorbell (R254, R260). -/
def State.sqError (s : State) (w : World) (q : Nat) (first : Ptr) (reason : Nat) : State :=
  (s.modSq w q (fun x => { x with state := .error, errPtr := first, errReason := reason, job := none, jobSlots := 0 })
    ).qmEventEntry w 2 2 q

/-- The highest level of a queue (R249). -/
def Sq.level (q : Sq) : Nat := if bitAt q.accepted 2 then 3 else if bitAt q.accepted 1 then 2 else 1

/-- Whether a queue is in plain mode; queue 0 has entries of four slots too (R249, R257, R272). -/
def Sq.plain (q : Sq) : Bool := !bitAt q.accepted 0

/-- The tail part of an SQ tail doorbell: the tail, and the INV flag; the answer says whether RESUME is to act. -/
def State.sqDoorbell (s : State) (fn : World) (q : Nat) (v : Nat) : Bool × State :=
  let off := 0x100000 + 8 * q
  if !s.done then (false, s) else
  let x := s.sq fn q
  if (s.wcfg fn).sqShare ≤ q || x.state = .none || x.state = .lost then (false, s.dbError fn off) else
  let s1 := if bitAt v 17 && !bitAt x.accepted 7 then s.dbError fn off else s
  let s2 := if bitAt v 18 && !bitAt x.accepted 6 then s1.dbError fn off else s1
  let p := ptrOf v
  let s3 :=
    if p = x.tail then s2
    else if p.idx < x.depth ∧ ptrDist x.head x.tail x.depth ≤ ptrDist x.head p x.depth
        ∧ ptrDist x.head p x.depth ≤ x.depth then s2.modSq fn q (fun y => { y with tail := p })
    else s2.sqError fn q x.tail 7
  let s4 := if bitAt v 17 && bitAt x.accepted 7 then s3.modSq fn q Sq.discard else s3
  (bitAt v 18 && bitAt x.accepted 6, s4)

/-- The bytes of n slots of a ring from a pointer (R251). -/
def State.ringBytes (s : State) (x : Sq) (p : Ptr) (n : Nat) : List Byte :=
  (List.range n).flatMap (fun i => s.hostBytes (x.base + 16 * (p.add x.depth i).idx) 16)

/-- The fields of slot 0 (R255). -/
structure Slot0 where
  opcode : Nat
  slots : Nat
  tag : Nat
  flags : Nat
  rsv : Bool
  addr : Nat
  deriving DecidableEq, Repr

/-- Slot 0 of an entry. -/
def slot0Of (d : List Byte) : Slot0 :=
  { opcode := fieldAt d 0 1, slots := fieldAt d 1 1, tag := fieldAt d 2 2, flags := fieldAt d 4 1,
    rsv := !zeroAt d 5 3 || bits (fieldAt d 4 1) 6 2 != 0, addr := fieldAt d 8 8 }

/-- The administrative opcodes of R275. -/
def adminOpcodes : List Nat :=
  [0x10, 0x11, 0x12, 0x13, 0x14, 0x15, 0x16, 0x17, 0x20, 0x21, 0x22, 0x23, 0x24, 0x25, 0x30, 0x31, 0x40]

/-- The first malformation of an entry or of the first entry of a plain job, in the order of R260: `run` entries of an
open group precede it. -/
def malformed (x : Sq) (q : Nat) (d : List Byte) : Option Nat :=
  let h := slot0Of d
  let flag := fun i => bitAt h.flags i
  let hasOpt := q ≠ 0 && 2 ≤ h.slots
  let inl := if hasOpt then fieldAt d 16 2 else 0
  let nb := if hasOpt then fieldAt d 24 8 else 0
  if q = 0 && !adminOpcodes.contains h.opcode || q ≠ 0 && h.opcode ≠ 1 then some 1
  else if h.slots = 0 || 32 < h.slots || q = 0 && h.slots ≠ 4 || q ≠ 0 && x.plain && 4 < h.slots && !flag 2 then some 2
  else if h.rsv || hasOpt && !zeroAt d 18 6 then some 3
  else if (flag 4 != (inl != 0)) || 16 * (h.slots - 2) < inl || flag 4 && h.slots < 2 then some 4
  else if (if q = 0 then !(flag 2 && flag 3) else if x.plain then !flag 2 || (flag 3 != decide (h.slots ≤ 4))
           else flag 2 || flag 3) then some 5
  else if flag 1 && !flag 0 || flag 0 && 256 ≤ x.groupRun then some 6
  else if (flag 0 || flag 1) && !bitAt x.accepted 3 || flag 4 && !bitAt x.accepted 4
      || (flag 5 || nb ≠ 0) && !bitAt x.accepted 5 then some 9
  else none

/-- The entries in a job of n logical slots beyond its first (R257). -/
def jobEntries (n : Nat) : Nat := ceilDiv (n - 4) 3

/-- The malformation of a following entry of a plain job, by the same conditions in the same order: `last` says that it must carry
LAST. A PROGRAM entry in its place breaks the count of the job, unless an earlier condition holds of it (R257, R260). -/
def contMalformed (x : Sq) (q : Nat) (d : List Byte) (tag : Nat) (last : Bool) : Option Nat :=
  let h := slot0Of d
  let flag := fun i => bitAt h.flags i
  if h.opcode = 1 then (match malformed x q d with
    | some r => some (Nat.min r 5)
    | none => some 5)
  else if h.opcode ≠ 2 then some 1
  else if h.slots ≠ 0 then some 2
  else if h.rsv then some 3
  else if flag 4 then some 4
  else if h.tag ≠ tag || flag 2 || (flag 3 != last) then some 5
  else if flag 1 && !flag 0 then some 6
  else if (flag 0 || flag 1) && !bitAt x.accepted 3 || flag 5 && !bitAt x.accepted 5 then some 9
  else none

/-- The group run after an entry (R260, GROUP). -/
def groupRunAfter (run flags : Nat) : Nat :=
  if bitAt flags 0 then (if bitAt flags 1 then 0 else run + 1) else run

/-- An entry has been parsed whole. -/
def Sq.take (x : Sq) (e : Entry) (next : Ptr) : Sq :=
  { x with entries := x.entries ++ [e], fetch := next, job := none, jobSlots := 0,
           groupRun := groupRunAfter x.groupRun (fieldAt e.data 4 1) }

/-- The bytes that a queue's fetched, unbound entries take (R258). -/
def Sq.cached (x : Sq) : Nat :=
  (x.entries.map (fun e => 16 * e.ringSlots)).sum + (match x.job with
    | some e => 16 * e.ringSlots
    | none => 0)

/-- The bytes that a function's fetched, unbound entries take (R259). -/
def State.fnCached (s : State) (w : World) : Nat := ((s.qm.get w).sqs.map (fun p => p.2.cached)).sum

/-! ### What holds an entry (R215, R216, R258) -/

/-- The contexts resident on a Hearth: every state but FREE (R214). -/
def State.residentsOn (s : State) (h : Nat) : Nat := (s.ctxs.filter (fun p => p.2.state != .free && p.2.home = h)).length

/-- The placement limit of R216. -/
def State.placeLimit (s : State) : Nat := if bitAt s.attic.mode 6 then 256 else 352

/-- The lowest-numbered FREE context of a world that a queue may take (R215). -/
def State.freeCtx (s : State) (w : World) : Option Nat :=
  (List.range 16384).find? (fun c => s.ctxWorld c = some w && (s.ctx c).state = .free && !s.isResident c && !s.isProbe c)

/-! ### Placement (R216, R217, R226) -/

/-- The contexts resident in a cluster. -/
def State.clusterLoad (s : State) (k : Nat) : Nat := ((List.range 4).map (fun i => s.residentsOn (4 * k + i))).sum

/-- The Hearth of a cluster with the fewest resident contexts below a limit, the lowest number on a tie. -/
def State.fewestIn (s : State) (k limit : Nat) : Option Nat :=
  ((List.range 4).map (fun i => 4 * k + i)).foldl (fun best h =>
    if s.hearths.failed.contains h || limit ≤ s.residentsOn h then best
    else match best with
    | none => some h
    | some b => if s.residentsOn h < s.residentsOn b then some h else some b) none

/-- The home cluster of a lane; of the back office, the cluster with the fewest resident contexts (R216). -/
def State.homeCluster (s : State) (lane : Nat) : Nat :=
  if lane < 128 then
    let k := (Tbl.get ({} : LaneCfg) s.img.lanes lane).cluster
    if k < 16 then k else lane % 16
  else ((List.range 16).foldl (fun b k => if s.clusterLoad k < s.clusterLoad b then k else b) 0)

/-- What placement answers. -/
inductive Placed where
  | hearth (h : Nat)
  /-- The cluster's domain is off: its switch-on is asked for. -/
  | switchOn (k : Nat)
  | none
  deriving DecidableEq, Repr

/-- Whether a request for the switch-on of a cluster waits. -/
def State.clusterAsked (s : State) (k : Nat) : Bool := s.boiler.waiting.any (fun q => q.owner = .boiler (.cluster k))

/-- Try clusters in order. A cluster whose switch-on was refused is not eligible, but for one that `home` excepts (R216, R217). -/
def State.placeFrom (s : State) (limit : Nat) (home : Nat → Bool) : List Nat → Placed
  | [] => .none
  | k :: ks =>
    match s.fewestIn k limit with
    | none => s.placeFrom limit home ks
    | some h =>
      if s.boiler.domains.contains (32 + k) then .hearth h
      else if s.hearths.refusedClusters.contains k && !home k then s.placeFrom limit home ks
      else .switchOn k

/-- The clusters in the order of R216, from one of them. -/
def clustersFrom (k : Nat) : List Nat := (List.range 16).map (fun i => (k + i) % 16)

/-- Placement at a binding whose home cluster is k: a home cluster that was refused is asked for again, once by each binding, which then
waits while that request waits; `asked` says that this binding has asked (R217). -/
def State.placeHome (s : State) (k : Nat) (asked : Bool) : Placed :=
  s.placeFrom s.placeLimit (fun i => i = k && (!asked || s.clusterAsked k)) (clustersFrom k)

/-- LANE and PDEADLINE in the header of the program of an entry: of its inline data, or in memory. -/
def State.entryHeader (s : State) (w : World) (e : Entry) : Nat × Nat :=
  let z := slot0Of e.data
  let h := if bitAt z.flags 4 then slice e.data 32 8 else (s.readBytes w false (z.addr % 2 ^ 38) 8).1
  (fieldAt h 2 1, fieldAt h 4 4)

/-- The placement of the entry at the front of a queue. -/
def State.entryPlaced (s : State) (w : World) (q : Nat) (e : Entry) : Placed :=
  s.placeHome (s.homeCluster (s.entryHeader w e).1) (s.sq w q).clusterWait

/-- Whether a Hearth anywhere takes the entry at the front of a queue (R216, step 4). -/
def State.hearthFree (s : State) (w : World) (q : Nat) (e : Entry) : Bool := s.entryPlaced w q e ≠ .none

/-- Whether NOT_BEFORE or ORDERED holds an entry at the front of its queue (R258). -/
def State.entryHeld (s : State) (x : Sq) (e : Entry) : Bool :=
  let z := slot0Of e.data
  (2 ≤ z.slots && s.now < fieldAt e.data 24 8) || (bitAt z.flags 5 && 0 < x.live)

/-- Whether a queue is held now: QM_SQ_STATUS.HELD (R258). -/
def State.sqHeld (s : State) (w : World) (q : Nat) : Bool :=
  match (s.sq w q).entries with
  | [] => false
  | e :: _ => q != 0 && (s.entryHeld (s.sq w q) e || (s.freeCtx w).isNone || !s.hearthFree w q e)

/-- Whether the front entry of a queue has been found to lack a context or a Hearth, and still does (R215, R216). -/
def State.bindStuck (s : State) (w : World) (q : Nat) : Bool :=
  (s.sq w q).bindWaited && ((s.freeCtx w).isNone || !((s.sq w q).entries.head?.any (fun e => s.hearthFree w q e)))

/-- Whether the queue manager fetches for a queue now: enabled, the function running, no debug halt, Granite not halted but for queue 0,
no entry of it without a context, and room for an administrative completion (R215, R258, R268, R478, R506, log 148). -/
def State.mayFetch (s : State) (w : World) (q : Nat) : Bool :=
  (s.sq w q).state = .enabled && s.running w && s.pw.phase = .none && !s.qz.debugHalt && !(s.fc.graniteHalt && w = .granite && q ≠ 0)
    && !s.bindStuck w q
    && !(q = 0 && ((s.cq w 0).full && !s.ovfRoom w || s.ovfWait.any (fun x => x.world = w && x.cq = 0 && x.compl.kind = .admin)))

/-- Whether a queue takes part in the sharing of fetching: entries are outstanding and there is room for them (R258, R259). -/
def State.fetchable (s : State) (w : World) (q : Nat) : Bool :=
  let x := s.sq w q
  s.mayFetch w q && x.fetch ≠ x.tail && x.cached + 512 ≤ 2048 && s.fnCached w + 512 ≤ 65536

/-- The queue of a function whose turn it is: round robin from the one fetched for last (R258). -/
def State.fetchTurn (s : State) (w : World) : Option Nat :=
  let qs := (((s.qm.get w).sqs.map (fun p => p.1)).filter (s.fetchable w))
  match qs.find? (fun q => (s.qm.get w).fetchLast < q) with
  | some q => some q
  | none => qs.head?

/-- Fetch the next entry of a plain-mode queue or of queue 0: 64 bytes (R257). -/
def State.fetchPlain (s : State) (w : World) (q : Nat) : State :=
  let x := s.sq w q
  if ptrDist x.fetch x.tail x.depth < 4 then s else
  let d := s.ringBytes x x.fetch 4
  let next := x.fetch.add x.depth 4
  match x.job with
  | none =>
    match malformed x q d with
    | some r => s.sqError w q x.fetch r
    | none =>
      let h := slot0Of d
      let e : Entry := { first := x.fetch, ringSlots := 4, data := d.take (16 * h.slots) }
      if h.slots ≤ 4 then s.modSq w q (fun y => y.take e next)
      else s.modSq w q (fun y => { y with job := some e, jobSlots := h.slots, jobTag := h.tag, fetch := next })
  | some e =>
    let last := e.ringSlots / 4 = jobEntries x.jobSlots
    match contMalformed x q d x.jobTag last with
    | some r => s.sqError w q x.fetch r
    | none =>
      let e1 : Entry := { e with ringSlots := e.ringSlots + 4, data := (e.data ++ d.drop 16).take (16 * x.jobSlots) }
      if last then s.modSq w q (fun y => y.take e1 next)
      else s.modSq w q (fun y => { y with job := some e1, fetch := next })

/-- Fetch the next entry of a variable-mode queue (R255, R258). -/
def State.fetchVariable (s : State) (w : World) (q : Nat) : State :=
  let x := s.sq w q
  let avail := ptrDist x.fetch x.tail x.depth
  if avail = 0 then s else
  let n := (slot0Of (s.ringBytes x x.fetch 1)).slots
  if 1 ≤ n ∧ n ≤ 32 ∧ avail < n then s else
  let d := s.ringBytes x x.fetch (if n ≤ 32 then Nat.max 1 n else 1)
  match malformed x q d with
  | some r => s.sqError w q x.fetch r
  | none => s.modSq w q (fun y => y.take { first := x.fetch, ringSlots := n, data := d } (x.fetch.add x.depth n))

/-- SQ_ENTRY_FETCH: a ring read completes for the queue whose turn it is; the queue holds at most 2 KiB and the function 64 KiB of
fetched entries (R258 to R260). -/
def execSqEntryFetch (fn : World) (q : Nat) (r : LinkResult) (s : State) : Result :=
  let x := s.sq fn q
  if s.fetchTurn fn = some q then
    let s1 : State := { s with qm := s.qm.upd fn (fun (m : Qm) => { m with fetchLast := q }) }
    match r with
    | .busError => .next (s1.sqError fn q x.fetch 8)
    | .ok => .next (if q = 0 || x.plain then s1.fetchPlain fn q else s1.fetchVariable fn q)
  else .next s

/-- NOT_BEFORE_EXPIRY: the time of the entry that holds a queue has come (R258). -/
def execNotBeforeExpiry (fn : World) (q : Nat) (s : State) : Result :=
  match (s.sq fn q).entries with
  | e :: _ =>
    if (s.sq fn q).held && (2 ≤ fieldAt e.data 1 1) && fieldAt e.data 24 8 ≤ s.now then
      .next (s.modSq fn q (fun x => { x with held := false }))
    else .next s
  | [] => .next s

/-- INT_DELAY_EXPIRY: INT_DELAY_US has passed since the first entry not announced (R267). -/
def execIntDelayExpiry (fn : World) (q : Nat) (s : State) : Result :=
  let x := s.cq fn q
  .next (if 0 < x.unannounced ∧ x.firstAt + x.intDelayUs * 1000 ≤ s.now then s.cqAnnounce fn q else s)

/-- A write of a CQ head doorbell (R266). -/
def State.cqDoorbell (s : State) (fn : World) (q v : Nat) : State :=
  let off := 0x110000 + 8 * q
  if !s.done then s else
  let x := s.cq fn q
  let p := ptrOf v
  if (s.wcfg fn).cqShare ≤ q || x.state ≠ .active then s.dbError fn off
  else if x.depth ≤ p.idx || ptrDist x.head x.tail x.depth < ptrDist x.head p x.depth then s.dbError fn off
  else (s.modCq fn q (fun y => { y with head := p })).cqDrain fn q

/-- CQ_HEAD_DOORBELL. -/
def execCqHeadDoorbell (fn : World) (q : Nat) (v : W32) (s : State) : Result := .next (s.cqDoorbell fn q v.toNat)

/-! ### Registers (R253, R276) -/

/-- The code of a submission queue's state (R261). -/
def SqState.code : SqState → Nat
  | .none => 0
  | .disabled => 1
  | .enabled => 2
  | .error => 3
  | .lost => 4

/-- The code of a completion queue's state (R266). -/
def CqState.code : CqState → Nat
  | .none => 0
  | .active => 1
  | .lost => 2

/-- The word of an MSI-X table entry. -/
def MsixEntry.word (e : MsixEntry) : Nat → Nat
  | 0 => e.addr.toNat % 2 ^ 32
  | 1 => e.addr.toNat / 2 ^ 32
  | 2 => e.data.toNat
  | _ => bnat e.masked

/-- The word that a 32-bit read of the queue manager block returns, MSI-X and doorbells included. -/
def State.qmRead (s : State) (fn : World) (off : Nat) : Nat :=
  let f := s.fn fn
  let c := s.wcfg fn
  if off = 0x10000 then c.sqShare + c.cqShare * 65536
  else if off = 0x10004 then c.msixCount + c.maxLevel * 4096
  else if off = 0x10008 then f.event
  else if off = 0x1000C then f.eventMask
  else if off = 0x10010 then f.eventVec
  else if off = 0x10014 then s.ovfCount fn + (512 - s.ovfShared) * 65536
  else if off = 0x10018 then f.ovfHwm
  else if off = 0x1001C then f.dbErr
  else if 0x20000 ≤ off ∧ off < 0x40000 then
    let q := (off - 0x20000) / 16
    let x := s.sq fn q
    if c.sqShare ≤ q then 0 else
    match off % 16 / 4 with
    | 0 => x.state.code + 8 * bnat (s.sqHeld fn q) + 16 * (if x.state = .none then 0 else x.level)
    | 1 => x.head.word
    | 2 => x.tail.word
    | _ => x.errPtr.word + x.errReason * 2 ^ 24
  else if 0x40000 ≤ off ∧ off < 0x60000 then
    let q := (off - 0x40000) / 16
    let x := s.cq fn q
    if c.cqShare ≤ q then 0 else
    let n := (s.storeOf fn q).length
    match off % 16 / 4 with
    | 0 => x.state.code + 4 * bnat x.full + 8 * bnat (0 < n) + 16 * n
    | 1 => x.tail.word
    | 2 => x.head.word
    | _ => 0
  else if 0xC0000 ≤ off ∧ off < 0xC8000 then
    if (off - 0xC0000) / 16 < c.msixCount then
      (Tbl.get ({} : MsixEntry) f.msix ((off - 0xC0000) / 16)).word (off % 16 / 4)
    else 0
  else if 0xC8000 ≤ off ∧ off < 0xC8100 then
    ((List.range 32).map (fun b => if f.pba.contains (8 * (off - 0xC8000) + b) then 2 ^ b else 0)).sum
  else if 0x100000 ≤ off ∧ off < 0x110000 ∧ off % 8 = 0 then
    if (off - 0x100000) / 8 < c.sqShare then (s.sq fn ((off - 0x100000) / 8)).tail.word else 0
  else if 0x110000 ≤ off ∧ off < 0x120000 ∧ off % 8 = 0 then
    if (off - 0x110000) / 8 < c.cqShare then (s.cq fn ((off - 0x110000) / 8)).head.word else 0
  else 0

/-- A write to a word of an MSI-X table entry; a vector that is unmasked while pending is sent (R233, as PCIe). -/
def State.msixWrite (s : State) (fn : World) (v i : Nat) (d : W32) : State :=
  if v < (s.wcfg fn).msixCount then
    let s1 := s.modFn fn (fun f => { f with msix := Tbl.upd {} f.msix v (fun e =>
      match i with
      | 0 => { e with addr := BitVec.ofNat 64 (e.addr.toNat / 2 ^ 32 * 2 ^ 32 + d.toNat) }
      | 1 => { e with addr := BitVec.ofNat 64 (e.addr.toNat % 2 ^ 32 + d.toNat * 2 ^ 32) }
      | 2 => { e with data := d }
      | _ => { e with masked := bitAt d.toNat 0 }) })
    if i = 3 && !bitAt d.toNat 0 && (s.fn fn).pba.contains v then
      (s1.modFn fn (fun f => { f with pba := f.pba.filter (fun x => x != v) })).emit (.msix fn v)
    else s1
  else s

/-- A 32-bit write to the queue manager block, doorbells apart. -/
def State.qmWrite (s : State) (fn : World) (off : Nat) (v : W32) : State :=
  if off = 0x10008 then
    s.modFn fn (fun f => { f with event :=
      ((List.range 5).map (fun i => if bitAt f.event i && !bitAt v.toNat i then 2 ^ i else 0)).sum })
  else if off = 0x1000C then s.modFn fn (fun f => { f with eventMask := v.toNat % 32 })
  else if off = 0x10010 then s.modFn fn (fun f => { f with eventVec := v.toNat % 65536 })
  else if 0xC0000 ≤ off ∧ off < 0xC8000 then s.msixWrite fn ((off - 0xC0000) / 16) (off % 16 / 4) v
  else s

end Sys2Proof.Machine
end

