-- ==== Sys2Proof/Machine/Status.lean ====
section
/-! DEFINITION. Status blocks and their posting, locks, Flint sessions, late stores, the end of an activation and the end of
a program (R106 to R110, R115, R164, R168, R187 to R189, R213, R220 to R224, R229, R230, R263). -/
namespace Sys2Proof.Machine

/-! ### Counters of the Hearth blocks (R208, R231) -/

/-- The state with the Hearth counters of a world changed. -/
def State.modHt (s : State) (w : World) (f : HearthCnt → HearthCnt) : State :=
  { s with hearths := { s.hearths with cnt := s.hearths.cnt.upd w f } }

/-! ### Locks (R220, R221) -/

/-- The world under which a lock is one lock: only the handler state locks are one set for each world. -/
def lockWorld (num : Nat) (w : World) : World := if num < 0x1000 then w else .slate

/-- The context that holds a lock. -/
def State.lockHolder (s : State) (num : Nat) (w : World) : Option Nat :=
  (s.ctxs.find? (fun p => p.2.locks.any (fun l => l.num = num && l.world = w))).map (fun p => p.1)

/-- The order of R220 among waiters: DEADLINE, then who began waiting first, then the lower context ID. -/
def waitsBefore (a b : Nat × Ctx) : Bool :=
  a.2.deadline < b.2.deadline || (a.2.deadline = b.2.deadline &&
    (a.2.waitSince < b.2.waitSince || (a.2.waitSince = b.2.waitSince && a.1 < b.1)))

/-- The first of some waiters. -/
def firstWaiter : List (Nat × Ctx) → Option (Nat × Ctx)
  | [] => none
  | a :: l => match firstWaiter l with
    | none => some a
    | some b => if waitsBefore b a then some b else some a

/-- The contexts that wait for one thing. -/
def State.waiters (s : State) (w : Wait) : List (Nat × Ctx) :=
  s.ctxs.filter (fun p => p.2.state = .waiting && p.2.wait = w)

/-- A lock becomes free: the first waiter acquires it (R220). -/
def State.lockPass (s : State) (num : Nat) (w : World) : State :=
  match firstWaiter (s.waiters (.lock num w)) with
  | none => s
  | some (c, _) =>
    (s.modCtx c (fun x => { x with
      locks := x.locks ++ [{ num := num, world := w, visit := x.visit.isSome }], answer := .locked num })).makeReady c

/-- A context gives a lock up. -/
def State.lockDrop (s : State) (c : Nat) (l : LockRef) : State :=
  (s.modCtx c (fun x => { x with locks := x.locks.filter (fun m => m != l) })).lockPass l.num l.world

/-- Every lock that a context still holds is released at a CCW end (R221). -/
def State.locksEnd (s : State) (c : Nat) : State :=
  let l := (s.ctx c).locks
  (l.foldl (fun t k => t.lockDrop c k) s).modHt (s.home c) (fun h => { h with lockRel := satAt 0xFFFFFFFF (h.lockRel + l.length) })

/-- The locks taken during a visit are released with it (R221). -/
def State.visitLocksEnd (s : State) (c : Nat) : State :=
  ((s.ctx c).locks.filter (fun k => k.visit)).foldl (fun t k => t.lockDrop c k) s

/-! ### Flint sessions (R168) -/

/-- The open sessions. -/
def State.flintOpen (s : State) : Nat := (s.ctxs.filter (fun p => p.2.flint.isSome)).length

/-- A context's session closes: the freed session goes to the first FLINIT that waits. -/
def State.flintClose (s : State) (c : Nat) : State :=
  if (s.ctx c).flint.isSome then
    let s1 := s.modCtx c (fun x => { x with flint := none })
    match firstWaiter (s1.waiters .flint) with
    | none => s1
    | some (d, _) => (s1.modCtx d (fun x => { x with flint := some {} })).makeReady d
  else s

/-! ### Late stores to host windows (R115, R136, R187 to R189) -/

/-- The fault source of the Hearth that runs a context, with its issue slot as SUB. -/
def State.hearthMsg (s : State) (c kind addr : Nat) (w : World) : W64 :=
  faultMsg ((s.ctx c).home % 64) ((s.ctx c).slot % 8) kind addr (some w) false

/-- A late bus error is found for a store of a context; of a program that is no longer bound only the record is made (R188, R189). -/
def State.lateError (s : State) (c : Nat) (b : BufStore) (reason : Nat) : State :=
  let s0 := s.report (s.hearthMsg c 0x06 b.addr b.world) (some c)
  if b.old then s0 else
  let s1 := s0.modHt b.world (fun h => { h with async := satInc32 h.async })
  s1.modCtx c (fun x => { x with
    asyncErr := match x.asyncErr with
      | none => some { reason := reason, addr := b.addr }
      | some e => some { e with multi := true }
    asyncCcw := match x.asyncCcw with
      | none => some b.ccw
      | some a => some a })

/-- One buffered store is issued on the link: its page must still be valid (R187). -/
def State.issueOne (s : State) (c : Nat) (b : BufStore) : State :=
  if s.pageValid ((b.addr - windowBase) / pageBytes) then
    (s.countWorld b.world 11 b.data.length).hostWrite (s.busAddr b.addr) b.data
  else s.lateError c b 1

/-- Every buffered store of a context is issued, in program order (R136). -/
def State.issueStores (s : State) (c : Nat) : State :=
  (s.ctx c).stores.foldl (fun t b => t.issueOne c b) (s.modCtx c (fun x => { x with stores := [] }))

/-- Stores that wait when their world suffers host loss are discarded and recorded (R187). -/
def State.storesLost (s : State) (w : World) : State :=
  (s.ctxs.flatMap (fun p => (p.2.stores.filter (fun b => b.world = w)).map (fun b => (p.1, b)))).foldl
    (fun t p => (t.modCtx p.1 (fun x => { x with stores := x.stores.filter (fun b => b.world != w) })).report
      (t.hearthMsg p.1 0x19 p.2.addr w) (some p.1)) s

/-! ### Status blocks (R106 to R110) -/

/-- A channel status block. -/
structure Block where
  addr : Nat
  residual : Nat
  status : Nat
  flags : Nat
  unit : Nat
  deriving DecidableEq, Repr

/-- The 16 bytes of a block. -/
def Block.bytes (b : Block) : List Byte :=
  leBytes 8 (b.addr % 2 ^ 38) ++ leBytes 2 b.residual ++ leBytes 1 b.status ++ leBytes 1 0 ++ leBytes 2 b.flags
    ++ leBytes 2 b.unit

/-- The order of R108: 0 is first. -/
def statusRank (st : Nat) : Nat :=
  let order := [0x04, 0x05, 0x0D, 0x0B, 0x0C, 0x0A, 0x06, 0x0F, 0x02, 0x07, 0x08, 0x09, 0x03, 0x01, 0x00]
  order.idxOf st

/-- The flag bits of a status block. -/
def fPort : Nat := 1
def fChan : Nat := 2
def fInterim : Nat := 4
def fFinal : Nat := 8
def fCond : Nat := 16
def fIl : Nat := 32
def fLong : Nat := 64
def fLate : Nat := 128
def fTimeout : Nat := 256
def fAsync : Nat := 512

/-- The flags of a status, without INTERIM and FINAL (R106). -/
def Ctx.flagBits (x : Ctx) (port chan il late : Bool) : Nat :=
  bnat port * fPort + bnat chan * fChan + bnat x.cond * fCond + bnat il * fIl + bnat x.long * fLong + bnat late * fLate
    + bnat x.timeout * fTimeout

/-- When the events of a LEAVE or PLANT CCW occurred that its Boiler or its drive has answered (R89). -/
def State.answered (s : State) (c : Nat) : Option Nat :=
  let x := s.ctx c
  let y := x.ccw.getD {}
  let held : Bool := match y.code with
    | 0xB => x.answer ≠ .none
    | 0xA => (s.drive (Tbl.get 0 x.targets y.tgt % 4096)).answers.any (fun a => a.ctx = c)
    | _ => false
  if held then some x.answeredAt else none

/-- Whether the deadline of a context lies before now, or before the events of its CCW where those have occurred (R103). -/
def State.deadlinePast (s : State) (c : Nat) : Bool := (s.ctx c).deadline < (s.answered c).getD s.now

/-- Whether the current CCW is late under soft deadlines, and whether its hard deadline has passed; a WAIT is neither (R103,
R104). -/
def State.lateSoft (s : State) (c : Nat) : Bool :=
  let x := s.ctx c
  x.late || (x.softDl && (x.ccw.getD {}).code ≠ 7 && s.deadlinePast c)
def State.latePast (s : State) (c : Nat) : Bool :=
  let x := s.ctx c
  x.started && !x.softDl && (x.ccw.getD {}).code ≠ 7 && s.deadlinePast c

/-- The completion entry of a context's status (R264). -/
def State.statusCompl (s : State) (c : Nat) (b : Block) (reports : Nat) : Compl :=
  let x := s.ctx c
  { body := b.bytes, sq := x.sq, tag := x.tag, ctx := c, kind := .program, kindData := reports }

/-- Post an interim status. A resident program and a probe post none (R229, R313). A status that finds no room makes the context
wait; one that is SUSPENDED is so again once its status has been placed (R213, R268). -/
def State.postInterim (s : State) (c : Nat) (b : Block) : State :=
  let s0 := s.modCtx c (fun x => { x with postedAddr := b.addr, postedResid := b.residual })
  if s.isResident c || s.isProbe c then s0
  else
    let r := s0.completeOld (s.home c) (s.ctx c).cq (s.ctx c).orphaned (s0.statusCompl c { b with flags := b.flags ||| fInterim } 0)
    if r.1 then r.2
    else r.2.modCtx c (fun x => { x with
      state := .waiting, wait := .status, waitSince := s.now, parked := x.parked || decide (x.state = .suspended) })

/-! ### The end of a program (R109, R115, R213, R229, R230, R263) -/

/-- What a record keeps when its context becomes FREE: stores of its program that are not issued yet stay (R188). -/
def Ctx.freed (x : Ctx) : Ctx :=
  { lastStatus := x.lastStatus, lastUnit := x.lastUnit, restarts := x.restarts
    stores := x.stores.map (fun b => { b with old := true }) }

/-- A context becomes FREE: its leases are released and its Flint session closed; a HALT that waits for it completes
(R213, R275). -/
def State.ctxFree (s : State) (c : Nat) : State :=
  let w := s.home c
  let s1 := ((s.ctxLeasesEnd c).flintClose c).modCtx c (fun x => { x.freed with endedAt := s.now })
  match (s1.qm.get w).haltWait with
  | some (d, tag) =>
    if d = c then
      ({ s1 with qm := s1.qm.upd w (fun m => { m with haltWait := none }) }).adminDone w tag 0 0 0
    else s1
  | none => s1

/-- The final status of a queued program has been placed or withheld: its group and its queue's live count, and the
context becomes FREE (R258, R263). `posted` says that a member posted its own status. -/
def State.programGone (s : State) (c : Nat) (posted : Bool) : State :=
  let x := s.ctx c
  let w := s.home c
  let s1 := if x.counted then s.modSq w x.bindSq (fun q => { q with live := q.live - 1 }) else s
  let s2 := match x.group with
    | some g => (s1.modSq w x.bindSq (fun q => { q with groups := Tbl.upd {} q.groups g (fun y =>
        { y with ended := y.ended + 1, posted := y.posted + bnat posted, lastCtx := c }) })).groupCover w x.bindSq g x.cq x.orphaned
    | none => s1
  s2.ctxFree c

/-- How a program ends. -/
structure Ending where
  status : Nat
  unit : Nat := 0
  addr : Nat := 0
  residual : Nat := 0
  flags : Nat := 0
  /-- The context enters ERROR (R177, R184). -/
  error : Bool := false
  deriving DecidableEq, Repr

/-- A late bus error of the program ranks in its final status (R108, R115). -/
def Ending.withAsync (e : Ending) (a : Option Nat) : Ending :=
  match a with
  | none => e
  | some addr =>
    if statusRank 0x0A ≤ statusRank e.status then
      { e with status := 0x0A, unit := 0, addr := addr, residual := 0, flags := e.flags ||| fAsync }
    else { e with flags := e.flags ||| fAsync }

/-- The final statuses that the statistics count (R456). -/
def State.countFinal (s : State) (c status : Nat) : State :=
  let s1 := s.countBoth (s.home c) (s.ctx c).lane 1 0
  if status = 0 then s1 else s1.countBoth (s.home c) (s.ctx c).lane 2 1

/-- The drives that a program names as DRIVE targets. -/
def Ctx.driveTargets (x : Ctx) : List Nat :=
  ((List.range x.tgtCount).map (fun i => Tbl.get 0 x.targets i)).filterMap (fun t =>
    if bits t 12 2 = 1 then some (bits t 0 12) else none)

/-- The RESIDENT entry of a context. -/
def State.residentOf (s : State) (c : Nat) : Option ResidentEntry :=
  (s.wcfg (s.home c)).residents.find? (fun e => e.ctx = c)

/-- A resident program ends (R229, R230): LAST_STATUS, and unless SUCCESS a record, safe state of its drives, and a restart
where its entry allows one. -/
def State.residentEnd (s : State) (c : Nat) (e : Ending) : State :=
  let w := s.home c
  let s0 := s.modCtx c (fun x => { x with lastStatus := e.status, lastUnit := e.unit })
  if e.status = 0 then s0.ctxFree c
  else
    let s1 := s0.report (faultMsg 95 0 0x1A (e.status % 256) (some w) false) (some c)
    let s2 := ((s.ctx c).driveTargets.filter (fun n => s.driveWorld n = some w)).foldl (fun t n => t.driveCauseSet n .program) s1
    let s3 := (s2.ctxLeasesEnd c).flintClose c
    let again := match s.residentOf c with
      | some r => if r.restart && (r.limit = 0 || (s.ctx c).restarts < r.limit) then some (s.now + r.delayMs * 1000000) else none
      | none => none
    s3.modCtx c (fun x => { x with state := .error, wait := .none, restartAt := again, suspendDue := false })

/-- A program ends: exactly one final status, withheld for a group member that ends with SUCCESS; a status that finds no
room keeps the context until it is placed (R109, R213, R263, R268). -/
def State.programEnd (s : State) (c : Nat) (e0 : Ending) : State :=
  let x := s.ctx c
  let w := s.home c
  let e := e0.withAsync x.asyncCcw
  let s0 := s.countFinal c e.status
  if s.isProbe c then
    (s.modCtx c (fun x => { x with lastStatus := e.status, lastUnit := e.unit })).ctxFree c
  else if s.isResident c then s0.residentEnd c e
  else if x.group.isSome && e.status = 0 then s0.programGone c false
  else
    let b : Block := { addr := e.addr, residual := e.residual, status := e.status, flags := e.flags ||| fFinal, unit := e.unit }
    let r := s0.completeOld w x.cq x.orphaned (s0.statusCompl c b 1)
    if r.1 then r.2.programGone c true
    else r.2.modCtx c (fun y => { y with
      state := if e.error then .error else .waiting, wait := .status, waitSince := s.now, ending := true, parked := false })

/-! ### The end of an activation (R164, R201, R224, R323, R325) -/

/-- A visit is abandoned: its locks go, the gate set is discarded (R173, R201, R221). -/
def State.visitAbandon (s : State) (c : Nat) : State :=
  if (s.ctx c).visit.isSome then
    ((s.landWithdraw (fun q => q.ofCtx c)).visitLocksEnd c).modCtx c (fun x => { x with visit := none, gate := {} })
  else s

/-- The architectural state of a context after its activation: nothing of it carries meaning (R211). -/
def Ctx.quiet (x : Ctx) : Ctx :=
  { x with regs := [], pc := 0, st := 0, lc := 0, ls := 0, le := 0, rc := 0, user := {}, super := {}, gate := {}
           branch := none, delayed := [], rep := false, shadow := false, act := none, attLatch := none, due := none
           answer := .none, wait := .none, slotDue := false }

/-- Whether a command takes part in receiving, and in sending (R161, R224, R323). -/
def cmdReads (code : Nat) : Bool := code = 2 || code = 4 || code = 9
def cmdWrites (code : Nat) : Bool := code = 1 || code = 3 || code = 9

/-- The index that RX_COMMIT records (R210, R224). -/
def RxChan.markIndex (r : RxChan) : Option Nat := r.mark.map (fun m => m % 1024)

/-- A receive commit point (R223, R224): what the activation has put into the stream is committed, once its stores are issued. -/
def State.commitPoint (s : State) (c a : Nat) : State :=
  let s1 := s.issueStores c
  s1.modCtx c (fun x => { x with
    rxCommit := (s1.att a).rx.markIndex, commitSeq := x.commitSeq + 1
    stream := { x.stream with committed := x.stream.moved } })

/-- The receive side of an activation's end: a commit point, and the activation mark is taken away (R224). -/
def State.actRxEnd (s : State) (c a : Nat) (own : Bool) : State :=
  let s1 := if (s.att a).rx.mark.isSome then s.modRx a RxChan.setMark else s
  let s2 := s1.commitPoint c a
  (if own then s2.modRx a RxChan.releaseMark else s2).rtsFlow (a / 16)

/-- The transmit side of an activation's end: an abnormal end rewinds what is not handed off (R110, R323, R329). -/
def State.actTxEnd (s : State) (a : Nat) (own abnormal : Bool) : State :=
  let s1 := if abnormal then s.txRewind a else s
  if own then s1.txUnmark a else s1

/-- The packets that a context has open, on whatever attachment, are cancelled as its activation ends (R325). -/
def State.openCancel (s : State) (c : Nat) : State :=
  ((s.atts.filter (fun p => p.2.tx.owner = some c)).map (fun p => p.1)).foldl (fun t a => t.txCancelOpen a) s

/-- The requests of a context for leave and for drives end, the lease of an FLVER is released, and no drive keeps an answer for it
(R381, R384, R409, R418). -/
def State.requestsEnd (s : State) (c : Nat) : State :=
  let s1 := (s.leaveWithdrawOwner (.context c)).flverRelease c
  let s2 := match (s.ctx c).wait with
    | .drive n => s1.driveWithdraw n (fun i => i.ctx = some c) 1 0xFE03
    | _ => s1
  ((s2.drives.filter (fun p => p.2.answers.any (fun y => y.ctx = c))).map (fun p => p.1)).foldl
    (fun t n => t.modDrive n (fun d => { d with answers := d.answers.filter (fun y => y.ctx != c) })) s2

/-- An activation ends. The requests of the context at Landings, for leave and for drives end with it (R409). -/
def State.actEnd (s : State) (c : Nat) (abnormal : Bool) : State :=
  let s3 := ((s.landWithdraw (fun q => q.ofCtx c)).visitAbandon c).requestsEnd c
  let s4 := match (s.ctx c).act with
    | some y =>
      match y.att with
      | some a =>
        if (s.att a).hasChannels then
          (if cmdReads y.code then s3.actRxEnd c a y.rxMark else s3).actTxEnd a y.txMark abnormal
        else s3
      | none => s3
    | none => s3
  (s4.openCancel c).modCtx c Ctx.quiet

end Sys2Proof.Machine
end

