-- ==== Sys2Proof/Machine/Stream.lean ====
section
/-! DEFINITION. Channel command words: their fields, the checks of R534, the memory accesses of a program, the data stream of
a CCW and its chain, and the interim status of a member (R76 to R101, R109, R110, R161, R182). -/
namespace Sys2Proof.Machine

/-! ### Fields (R82 to R85) -/

/-- A CCW from its 16 bytes. -/
def ccwOf (loc : Nat) (d : List Byte) : Ccw :=
  { loc := loc, code := fieldAt d 0 1 % 16, tgt := fieldAt d 0 1 / 16, flags := fieldAt d 1 1, count := fieldAt d 2 2,
    param := fieldAt d 4 4, addr := fieldAt d 8 8 }

/-- The flags of R84. -/
def Ccw.cd (y : Ccw) : Bool := bitAt y.flags 0
def Ccw.cc (y : Ccw) : Bool := bitAt y.flags 1
def Ccw.skp (y : Ccw) : Bool := bitAt y.flags 2
def Ccw.sus (y : Ccw) : Bool := bitAt y.flags 3
def Ccw.pst (y : Ccw) : Bool := bitAt y.flags 4
def Ccw.ida (y : Ccw) : Bool := bitAt y.flags 5
def Ccw.sli (y : Ccw) : Bool := bitAt y.flags 6
def Ccw.dln (y : Ccw) : Bool := bitAt y.flags 7

/-- CONTROL without control data (R87, R88). -/
def Ccw.nodata (y : Ccw) : Bool := y.code = 3 && !y.dln && bitAt y.param 31

/-- The bytes of COUNT that a command transfers. -/
def Ccw.bytes (y : Ccw) : Nat :=
  if y.code = 1 || y.code = 2 || y.code = 4 || y.code = 9 || (y.code = 3 && !y.nodata) then y.count else 0

/-- The effective address of an ADDR-format field; none where a reserved bit or SPACE is set, or the sum passes 38 bits
(R85). -/
def effAddr (header raw : Nat) : Option Nat :=
  let a := raw % 2 ^ 38
  if raw / 2 ^ 42 ≠ 0 then none
  else match bits raw 38 4 with
  | 0 => some a
  | 1 => if header % 2 ^ 38 + a < 2 ^ 38 then some (header % 2 ^ 38 + a) else none
  | _ => none

/-- The address of a program's header. -/
def Ctx.headerAddr (x : Ctx) : Nat := x.header % 2 ^ 38

/-- A target entry of a context by index (R78). -/
def Ctx.target (x : Ctx) (i : Nat) : Nat := Tbl.get 0 x.targets i

/-- The KIND of a target. -/
def Ctx.kind (x : Ctx) (i : Nat) : Nat := bits (x.target i) 12 2

/-- PROGRAM_CHECK reasons (R108). -/
def pcLevel : Nat := 1
def pcLane : Nat := 2
def pcTargetCount : Nat := 3
def pcTarget : Nat := 4
def pcTargetIndex : Nat := 5
def pcCode : Nat := 6
def pcFlags : Nat := 7
def pcCount : Nat := 8
def pcParameter : Nat := 9
def pcAlign : Nat := 0xA
def pcSpace : Nat := 0xB
def pcTicLoop : Nat := 0xC
def pcIdal : Nat := 0xD
def pcHandler : Nat := 0xE
def pcHeader : Nat := 0xF

/-! ### The checks of a CCW (R81 to R101, R534) -/

/-- Whether a command names a target (R87). -/
def cmdTargets (code : Nat) : Bool := [1, 2, 3, 4, 7, 8, 9, 0xA].contains code

/-- The level of a command (R81). -/
def cmdLevel (code : Nat) : Nat :=
  if code ≤ 6 then 1 else if code = 0xA || code = 0xB then 3 else 2

/-- The level of a target kind (R81). -/
def kindLevel (k : Nat) : Nat := if k = 1 then 3 else if k = 2 then 2 else 1

/-- The flags that a command accepts, CD in bit 0 (R93). -/
def flagsAccepted (code : Nat) : Nat :=
  if code = 1 || code = 3 then 0xFB else if code = 2 || code = 4 then 0xFF else if code = 9 then 0xFA
  else if code = 7 then 0x9A else 0x1A

/-- Whether a command accepts a target kind (R87). -/
def kindAccepted (code k : Nat) : Bool :=
  if code = 4 then k = 0 || k = 1 else if code = 7 || code = 9 then k ≤ 2 else if code = 0xA then k = 1 else k = 0

/-- The reserved bits of the WAIT event mask of a target kind (R327, R386, R444). -/
def waitReserved (k : Nat) : Nat := if k = 0 then 7 else if k = 1 then 8 else 2

/-- The value of a PLANT: sign-extended for ENC_CMP (R380). -/
def plantValue (item v : Nat) : Int := if item = 0x0A then signed 16 v else v % 65536

/-- Whether a PLANT names no writable item, or a value outside the item's range (R380). -/
def plantBad (p : Nat) : Bool :=
  match itemRange (p % 256) with
  | none => true
  | some (lo, hi) => decide (plantValue (p % 256) (bits p 16 16) < lo) || decide (hi < plantValue (p % 256) (bits p 16 16))

/-- A reserved or refused PARAM (R87, R380, R386, R417). -/
def paramBad (code k p : Nat) : Bool :=
  match code with
  | 4 => bits p 16 16 ≠ 0 || (k = 1 && p ≠ 0)
  | 7 => bits p 16 16 ≠ 0 || bits p 0 16 / 2 ^ waitReserved k ≠ 0
  | 8 => p / 8 ≠ 0 || 4 < p % 8
  | 0xA => bits p 8 8 ≠ 0 || plantBad p
  | 0xB => bits p 4 4 ≠ 0 || bits p 1 3 = 0 || bits p 1 3 = 7
  | 0xC => bits p 16 16 ≠ 0
  | _ => false

/-- Whether COUNT is out of range; `member` for a chain member after the first (R83, R87, R88). -/
def Ccw.countBad (y : Ccw) (member : Bool) : Bool :=
  if y.code = 3 && !member && y.dln || y.code = 9 && y.dln then y.count < 4
  else y.count = 0 && (member || y.code = 1 || y.code = 2 || y.code = 4 || y.code = 0xB || (y.code = 3 && !y.nodata))

/-- Whether the command uses ADDR (R87, R100). -/
def Ccw.usesAddr (y : Ccw) (member : Bool) : Bool :=
  y.code = 1 || ((y.code = 2 || y.code = 4) && !y.skp) || (y.code = 3 && (member || !y.nodata)) || (y.code = 9 && y.count ≠ 0)

/-- The PROGRAM_CHECK reason of a command CCW, or of a chain member with its command code and target filled in, in the order
of R534, `slave` for a PLANT whose drive is the slave of a gang (R377); HANDLER apart. -/
def Ccw.check (y : Ccw) (x : Ctx) (resident member : Bool) (slave : Bool := false) : Option Nat :=
  let known := y.tgt < x.tgtCount
  let k := x.kind y.tgt
  let used := if y.code = 0xC then y.flags - bits y.flags 4 1 * 16 else y.flags
  if y.code = 0 || y.code = 5 || 0xD ≤ y.code then some pcCode
  else if x.level < cmdLevel y.code || (x.level < 2 && (bitAt used 3 || bitAt used 5 || bitAt used 7))
      || (cmdTargets y.code && known && x.level < kindLevel k) then some pcLevel
  else if used &&& (255 - flagsAccepted y.code) ≠ 0 || y.cd && y.cc
      || (!member && y.nodata && (y.cd || y.ida || y.skp)) || (member && (y.sus || y.dln)) || (resident && y.sus) then some pcFlags
  else if cmdTargets y.code && !known then some pcTargetIndex
  else if cmdTargets y.code && (!kindAccepted y.code k || (y.code = 0xA && slave)) then some pcTarget
  else if y.countBad member then some pcCount
  else if !member && (if y.dln then y.param = 0 || 2000000 < y.param else paramBad y.code k y.param) then some pcParameter
  else if y.usesAddr member then
    match effAddr x.header y.addr with
    | none => some pcSpace
    | some a => if y.ida && a % 8 ≠ 0 then some pcAlign else none
  else none

/-- Whether a target of a program is a drive that is the slave of a gang (R377). -/
def State.slaveTarget (s : State) (x : Ctx) (tgt : Nat) : Bool :=
  x.kind tgt = 1 && (s.drive (x.target tgt % 4096)).cfg.gang = 2

/-- The PROGRAM_CHECK reason of a TIC; inside a data chain its condition must be ALWAYS (R87, R95, R96). -/
def Ccw.checkTic (y : Ccw) (x : Ctx) (member : Bool) : Option Nat :=
  if y.param / 4 ≠ 0 || y.param % 4 = 3 || (member && y.param % 4 ≠ 0) then some pcParameter
  else match effAddr x.header y.addr with
  | none => some pcSpace
  | some a => if a % 16 ≠ 0 then some pcAlign else none

/-! ### The memory accesses of a program (R86, R136, R182, R229) -/

/-- The status and the unit code of an access that stops (R86, R107). -/
def XferStop.status : XferStop → Nat × Nat
  | .done => (0, 0)
  | .denied _ => (0x05, 3)
  | .ecc => (0x06, 0)
  | .busError => (0x0A, 0)

/-- Record an access that R86 denies. -/
def State.noteDenied (s : State) (c a : Nat) : XferStop → State
  | .denied _ => s.report (s.hearthMsg c 0x04 a (s.home c)) (some c)
  | _ => s

/-- How many of n bytes from an address a program may reach: a resident program reaches no host window page (R229). -/
def State.progReach (s : State) (c a n : Nat) : Nat := if s.isResident c then Nat.min n (windowBase - a) else n

/-- A read by a program, at user level; host window stores of the context go first. -/
def State.progRead (s : State) (c a n : Nat) : List Byte × XferStop × State :=
  let k := s.progReach c a n
  let s0 := if windowBase < a + k then s.issueStores c else s
  let r := s0.readBytes (s.home c) false a k
  let stop := if r.2.1 = .done ∧ k < n then XferStop.denied .address else r.2.1
  (r.1, stop, r.2.2.noteDenied c (a + r.1.length) stop)

/-- The member that holds a byte, and the byte's offset in it; none past the last fetched. -/
def memberAt : List Ccw → Nat → Option (Ccw × Nat)
  | [], _ => none
  | m :: ms, p => if p < m.bytes then some (m, p) else memberAt ms (p - m.bytes)

/-- The address of the CCW that a context is at: in a chain, of the member at the stream's position (R95, R115). -/
def Ctx.curLoc (x : Ctx) : Nat :=
  match memberAt x.stream.members (x.stream.base + x.stream.moved), x.stream.members.getLast? with
  | some (m, _), _ => m.loc
  | none, some m => m.loc
  | none, none => x.ccwAddr

/-- A store to a host window page is buffered, split where it crosses pages. -/
def State.bufStore (s : State) (c : Nat) (w : World) (a : Nat) (data : List Byte) : State :=
  let k := pageBytes - a % pageBytes
  let one := fun (b : Nat) (d : List Byte) => if d = [] then [] else [({ world := w, addr := b, data := d, ccw := (s.ctx c).curLoc } : BufStore)]
  s.modCtx c (fun x => { x with stores := x.stores ++ one a (data.take k) ++ one (a + k) (data.drop k) })

/-- Bytes that are allowed are stored: to Pantry at once, to a host window into the buffer. -/
def State.placeBytes (s : State) (c : Nat) (w : World) (a : Nat) (data : List Byte) : State :=
  let k := Nat.min data.length (windowBase - a)
  let s1 := if k = 0 then s else s.writeBlock w a (data.take k)
  if k < data.length then s1.bufStore c w (a + k) (data.drop k) else s1

/-- A write by a program, at user level: the bytes stored, and how it stopped. -/
def State.progWrite (s : State) (c a : Nat) (data : List Byte) : Nat × XferStop × State :=
  let n := s.progReach c a data.length
  let r := s.allowed (s.home c) false .write (n / 65536 + 2) a n
  let stop := match r.2 with
    | some d => XferStop.denied d
    | none => if n < data.length then .denied .address else .done
  let s1 := s.placeBytes c (s.home c) a (data.take r.1)
  let s2 := match stop with
    | .denied _ => s1.xlatNote (a + r.1)
    | _ => s1
  (r.1, stop, s2.noteDenied c (a + r.1) stop)

/-! ### Fetching (R76, R83, R95) -/

/-- How a fetch of a CCW ends: the CCW, or the status and unit code that end the program. -/
inductive Fetched where
  | ok (y : Ccw)
  | stop (status unit : Nat)
  deriving DecidableEq, Repr

/-- Fetch the CCW at an address. -/
def State.ccwFetch (s : State) (c loc : Nat) : Fetched × State :=
  if loc % 16 ≠ 0 then (.stop 0x04 pcAlign, s)
  else match s.progRead c loc 16 with
  | (d, .done, s1) => (.ok (ccwOf loc d), s1)
  | (_, e, s1) => (.stop e.status.1 e.status.2, s1)

/-- The member that follows a member with CD: fetched through an unconditional TIC found there. The answer holds the CCW
that is concerned, and the status that ends the program, if any (R95). -/
def State.memberFetch (s : State) (c : Nat) (m : Ccw) : Ccw × Option (Nat × Nat) × State :=
  let x := s.ctx c
  let at1 := m.loc + 16
  match s.ccwFetch c at1 with
  | (.stop a b, s1) => ({ loc := at1 }, some (a, b), s1)
  | (.ok y, s1) =>
    if y.code = 5 then
      match y.checkTic x true with
      | some r => (y, some (0x04, r), s1)
      | none =>
        let at2 := (effAddr x.header y.addr).getD 0
        match s1.ccwFetch c at2 with
        | (.stop a b, s2) => ({ loc := at2 }, some (a, b), s2)
        | (.ok z, s2) => (z, none, s2)
    else (y, none, s1)

/-- A CCW with the command and target of the first member of its chain; its PARAM takes no effect (R95). -/
def Ccw.asMember (y first : Ccw) : Ccw := { y with code := first.code, tgt := first.tgt, param := 0 }

/-- Whether CMD_TGT of a chain member equals the first member's or is 0x00 (R95). -/
def Ccw.memberCode (y first : Ccw) : Bool := (y.code = 0 && y.tgt = 0) || (y.code = first.code && y.tgt = first.tgt)

/-! ### The stream (R95, R98, R101, R110, R161) -/

/-- The bytes of the members fetched so far. -/
def Stream.total (t : Stream) : Nat := (t.members.map Ccw.bytes).sum

/-- The position in the members, from the start of the first. -/
def Stream.pos (t : Stream) : Nat := t.base + t.moved

/-- What is left to do of a stream from a position: its member from there, or nothing of the last one (R114, R227). -/
def Stream.from (t : Stream) (pos : Nat) : Stream :=
  match memberAt t.members pos with
  | some (m, off) => { members := [m], base := off, param := t.param, posted := t.posted }
  | none => { members := t.members.getLast?.toList, base := (t.members.getLast?.map Ccw.bytes).getD 0, param := t.param, posted := t.posted }

/-- The bytes of a CCW that count as transferred (R110): handed off for WRITE and CONTROL. -/
def Stream.doneOf (t : Stream) (code : Nat) : Nat := t.base + (if code = 1 || code = 3 then t.handed else t.moved)

/-- CCW_ADDR and RESIDUAL: the member that holds the first byte not transferred (R110; log 152). -/
def Stream.names (t : Stream) (code : Nat) : Nat × Nat :=
  match memberAt t.members (t.doneOf code) with
  | some (m, o) => (m.loc, m.bytes - o)
  | none => match t.members.getLast? with
    | some m => (m.loc, 0)
    | none => (0, 0)

/-- The state with the stream of a context changed. -/
def State.modStream (s : State) (c : Nat) (f : Stream → Stream) : State := s.modCtx c (fun x => { x with stream := f x.stream })

/-- Post the interim status of a member's channel done, its stores issued first (R84, R95, R108, R109, R110, R223). -/
def State.memberPst (s : State) (c : Nat) (m : Ccw) (residual : Nat) : State :=
  let late := s.lateSoft c
  let s1 := (s.issueStores c).modCtx c (fun x => { x with
    late := late, interimPosted := true, commitSeq := x.commitSeq + 1
    stream := { x.stream with posted := x.stream.posted ++ [m.loc] } })
  s1.postInterim c
    { addr := m.loc, residual := residual, status := 0, flags := (s1.ctx c).flagBits ((s1.ctx c).act.any (fun a => a.portDone)) true (s1.ctx c).long late, unit := 0 }

/-- At the end of a member with CD: its interim status, and the fetch of the next member (R95). -/
def State.streamStep (s : State) (c : Nat) : Option (Nat × Nat) × State :=
  let t := (s.ctx c).stream
  match t.members.head?, t.members.getLast? with
  | some first, some m =>
    if m.cd && t.total ≤ t.pos then
      let s1 := if m.pst && !t.posted.contains m.loc then s.memberPst c m 0 else s
      let r := s1.memberFetch c m
      let z := r.1.asMember first
      let e := match r.2.1 with
        | some e => some e
        | none =>
          if !r.1.memberCode first then some (0x04, pcCode)
          else (z.check (r.2.2.ctx c) (r.2.2.isResident c) true).map (fun q => (0x04, q))
      (e, r.2.2.modStream c (fun t => { t with members := t.members ++ [z], piece := none }))
    else (none, s)
  | _, _ => (none, s)

/-- An entry of an IDAL as a piece, unless it is at fault (R101). -/
def idalPiece (header : Nat) (idx start : Nat) (e : Nat) : Option Piece :=
  if bits e 48 16 = 0 || bits e 42 6 ≠ 0 then none
  else (effAddr header (e % 2 ^ 42)).map (fun a => { idx := idx, start := start, addr := a, len := bits e 48 16 })

/-- Read entries of a member's IDAL until a piece holds a byte of it. -/
def State.idalFind (s : State) (c : Nat) (base off : Nat) : Nat → Nat → Nat → Except (Nat × Nat) Piece × State
  | 0, _, _ => (.error (0x04, pcIdal), s)
  | fuel + 1, idx, start =>
    match s.progRead c (base + 8 * idx) 8 with
    | (d, .done, s1) =>
      match idalPiece (s.ctx c).header idx start (leNat d) with
      | none => (.error (0x04, pcIdal), s1)
      | some p => if off < start + p.len then (.ok p, s1) else s1.idalFind c base off fuel (idx + 1) (start + p.len)
    | (_, e, s1) => (.error e.status, s1)

/-- The piece of the buffer that holds byte `off` of a member. -/
def State.pieceOf (s : State) (c : Nat) (m : Ccw) (off : Nat) : Except (Nat × Nat) Piece × State :=
  let x := s.ctx c
  let base := (effAddr x.header m.addr).getD 0
  if !m.ida then (.ok { idx := 0, start := 0, addr := base, len := m.bytes }, s)
  else
    let r := match x.stream.piece with
      | some p =>
        if p.start ≤ off ∧ off < p.start + p.len then (Except.ok p, s)
        else if p.start + p.len ≤ off then s.idalFind c base off 65536 (p.idx + 1) (p.start + p.len)
        else s.idalFind c base off 65536 0 0
      | none => s.idalFind c base off 65536 0 0
    match r with
    | (.ok p, s1) => (.ok p, s1.modStream c (fun t => { t with piece := some p }))
    | (.error e, s1) => (.error e, s1)

/-- What stands at the stream's position: a run of buffer bytes, the end, or a status that ends the CCW. -/
inductive Span where
  | run (addr len : Nat) (skip : Bool)
  | exhausted
  | stop (e : Nat × Nat)
  deriving DecidableEq, Repr

/-- The run of buffer bytes at the stream's position. -/
def State.streamSpan (s : State) (c : Nat) : Span × State :=
  match s.streamStep c with
  | (some e, s1) => (.stop e, s1)
  | (none, s1) =>
    let t := (s1.ctx c).stream
    match memberAt t.members t.pos with
    | none => (.exhausted, s1)
    | some (m, off) =>
      if m.skp then (.run 0 (m.bytes - off) true, s1)
      else match s1.pieceOf c m off with
      | (.error e, s2) => (.stop e, s2)
      | (.ok p, s2) => (.run (p.addr + (off - p.start)) (Nat.min (p.start + p.len) m.bytes - off) false, s2)

/-- The stream's position advanced. -/
def State.streamMoved (s : State) (c n : Nat) : State := s.modStream c (fun t => { t with moved := t.moved + n })

/-- Take up to n bytes from the stream: the bytes, and the status that ends the CCW, if any (R161). -/
def State.streamTake (s : State) (c : Nat) : Nat → Nat → List Byte × Option (Nat × Nat) × State
  | 0, _ => ([], none, s)
  | fuel + 1, n =>
    if n = 0 then ([], none, s) else
    match s.streamSpan c with
    | (.exhausted, s1) => ([], none, s1)
    | (.stop e, s1) => ([], some e, s1)
    | (.run a len _, s1) =>
      let k := Nat.min n len
      match s1.progRead c a k with
      | (d, .done, s2) =>
        let r := (s2.streamMoved c k).streamTake c fuel (n - k)
        (d ++ r.1, r.2)
      | (d, e, s2) => (d, some e.status, s2.streamMoved c d.length)

/-- Put bytes into the stream: how many it accepted, and the status that ends the CCW, if any (R100, R161). -/
def State.streamPut (s : State) (c : Nat) : Nat → List Byte → Nat × Option (Nat × Nat) × State
  | 0, _ => (0, none, s)
  | fuel + 1, data =>
    if data = [] then (0, none, s) else
    match s.streamSpan c with
    | (.exhausted, s1) => (0, none, s1)
    | (.stop e, s1) => (0, some e, s1)
    | (.run a len skip, s1) =>
      let k := Nat.min data.length len
      let w := if skip then (k, XferStop.done, s1) else s1.progWrite c a (data.take k)
      match w with
      | (_, .done, s2) =>
        let r := (s2.streamMoved c k).streamPut c fuel (data.drop k)
        (k + r.1, r.2)
      | (j, e, s2) => (j, some e.status, s2.streamMoved c j)

/-- XGET's share of the stream, with the fetch of the next member where a member is exhausted (R95). -/
def State.streamGet (s : State) (c n : Nat) : List Byte × Option (Nat × Nat) × State :=
  let r := s.streamTake c (n + 1) n
  match r.2.1 with
  | some e => (r.1, some e, r.2.2)
  | none =>
    let t := r.2.2.streamStep c
    (r.1, t.1, t.2)

/-- XPUT's share of the stream. -/
def State.streamStore (s : State) (c : Nat) (data : List Byte) : Nat × Option (Nat × Nat) × State :=
  let r := s.streamPut c (data.length + 1) data
  match r.2.1 with
  | some e => (r.1, some e, r.2.2)
  | none =>
    let t := r.2.2.streamStep c
    (r.1, t.1, t.2)

/-- The bytes left in the current member, and its CD (R155, XREM). -/
def Stream.left (t : Stream) : Nat × Bool :=
  match memberAt t.members t.pos with
  | some (m, o) => (m.bytes - o, m.cd)
  | none => match t.members.getLast? with
    | some m => (0, m.cd)
    | none => (0, false)

/-! ### The last member of a chain (R98, R99) -/

/-- Walk a chain's flags from a member to the last, through its TICs; or the CCW and the status that end the program. -/
def State.chainLast (s : State) (c : Nat) : Nat → Ccw → Except (Ccw × Nat × Nat) Ccw × State
  | 0, m => (.ok m, s)
  | fuel + 1, m =>
    if m.cd then
      match s.memberFetch c m with
      | (y, some e, s1) => (.error (y, e), s1)
      | (y, none, s1) => s1.chainLast c fuel y
    else (.ok m, s)

end Sys2Proof.Machine
end

