-- ==== Sys2Proof/Machine/Place.lean ====
section
/-! DEFINITION. Boiler's own requests for leave, and the placement of contexts on Hearths (R34, R215 to R217, R226, R418). -/
namespace Sys2Proof.Machine

/-! ### Boiler's own requests (R418) -/

/-- The power domain that a piece of Boiler's own work switches on (R34). -/
def workDomain : BoilerWork → Nat
  | .cluster k => 32 + k
  | .porch n => n / 8
  | .driveGroup j => 48 + j
  | .dwDomain d => d

/-- The die amount of a piece of work (R418, R431). -/
def Boiler.workAmount (b : Boiler) : BoilerWork → Nat
  | .cluster _ => b.cfg.clusterDie
  | .porch _ => b.cfg.portDie
  | .driveGroup _ => b.cfg.driveDie
  | .dwDomain _ => b.cfg.dwDie

/-- Whether a piece of work still has to be done: its domain is off, or its port is gated and due. -/
def State.workDue (s : State) (k : BoilerWork) : Bool :=
  let asked := s.boiler.waiting.any (fun q => q.owner = .boiler k)
  let held := s.boiler.leases.any (fun p => match p.2 with
    | some l => l.owner = .boiler k
    | none => false)
  !asked && !held && (match k with
    | .porch n => s.boiler.ungate.contains n
    | _ => !s.boiler.domains.contains (workDomain k) && !s.boiler.switching.contains (workDomain k))

/-- A piece of work whose request was refused does not take place: a refused cluster counts as not eligible until one is granted, a
port is not ungated, and the engines that wait for their domain are enabled no more (R217, R421). -/
def State.workRefused (s : State) (k : BoilerWork) : State :=
  match k with
  | .cluster i => { s with hearths := { s.hearths with refusedClusters := s.hearths.refusedClusters.filter (fun j => j != i) ++ [i] } }
  | .porch n => s.modBl (fun b => { b with ungate := b.ungate.filter (fun m => m != n) })
  | .dwDomain d => (List.range 32).foldl (fun t e =>
      if dwDomain e = d && (t.dw e).enableWait then t.modDw e (fun x => { x with enableWait := false }) else t) s
  | .driveGroup _ => s

/-- Boiler asks itself for leave for a piece of work. -/
def State.boilerAsk (s : State) (k : BoilerWork) (lst : Nat) : State :=
  if s.workDue k && !s.boiler.stopped then
    match s.leaveArrive (s.leaveReq (.boiler k) false 0 (s.boiler.workAmount k) 65535 none lst) with
    | (true, s1) => s1.workRefused k
    | (false, s1) => s1
  else s

/-- The deadline of the entry at the front of a queue, were it bound now: none where its header gives none. -/
def State.entryLst (s : State) (w : World) (e : Entry) : Nat :=
  let pd := (s.entryHeader w e).2
  s.lstOf (if pd = 0 then 0xFFFFFFFFFFFFFFFF else s.now + pd * 1000)

/-- The keys of the work that waits for a cluster: its READY and MIGRATING contexts, and the bindings that wait for it. -/
def State.clusterLsts (s : State) (k : Nat) : List Nat :=
  let cs := (s.ctxs.filter (fun p => (p.2.state = .ready || p.2.state = .migrating) && p.2.home / 4 = k)).map (fun p => s.lstOf p.2.deadline)
  let es := [World.slate, World.granite].flatMap (fun w => ((s.qm.get w).sqs.filter (fun p => p.2.clusterWait)).filterMap (fun p =>
    match p.2.entries with
    | e :: _ => if s.homeCluster (s.entryHeader w e).1 = k then some (s.entryLst w e) else none
    | [] => none))
  cs ++ es

/-- The LST of a piece of Boiler's own work: the first deadline of the work that needs it, and background rank without one (R419). -/
def State.workLst (s : State) : BoilerWork → Nat
  | .cluster k => (s.clusterLsts k).foldl (fun b l => if lstKey l s.now32 0 < lstKey b s.now32 0 then l else b) s.backgroundLst
  | _ => s.backgroundLst

/-- LEAVE_REQUEST: Boiler asks for the leave that a piece of its own work needs (R418, R419). -/
def execLeaveRequest (work : BoilerWork) (s : State) : Result := s.whenPowered (s.boilerAsk work (s.workLst work))

/-! ### Placement (R216) -/

/-- HT_SPILL_CNT for a placement outside the home cluster. -/
def State.countSpill (s : State) (w : World) (k h : Nat) : State :=
  if h / 4 = k then s else s.modHt w (fun x => { x with spill := satInc32 x.spill })

end Sys2Proof.Machine
end

