-- ==== Sys2Proof/Machine/Program.lean ====
section
/-! DEFINITION. Binding a program to a context, the end of a CCW and what follows it, suspension, and the start of a CCW and of
a handler activation (R76 to R115, R160, R205, R215, R223, R224, R256, R258, R263, R323, R328). -/
namespace Sys2Proof.Machine

/-! ### Suspension (R109, R112 to R114, R213, R214) -/

/-- A late bus error ends the program of a context (R115). -/
def State.asyncEnd (s : State) (c : Nat) : State :=
  match (s.ctx c).asyncCcw with
  | some a => s.programEnd c { status := 0x0A, addr := a, flags := fAsync }
  | none => s

/-- A context becomes SUSPENDED with its interim status, which is a commit (R223); a late bus error ends it there at once (R115). A
probe, whose status nobody takes, ends with that status instead (R313). -/
def State.suspendAt (s : State) (c cause addr resid flags : Nat) : State :=
  if s.isProbe c then
    s.programEnd c { status := cause, addr := addr, residual := resid, flags := flags }
  else
    ((s.modCtx c (fun x => { x with
      state := .suspended, wait := .none, suspendCause := cause, suspendDue := false, started := false, interimPosted := true
      commitSeq := x.commitSeq + 1 })).postInterim c
        { addr := addr, residual := resid, status := cause, flags := flags, unit := 0 }).asyncEnd c

/-- The COUNT of the CCW that stands at an address, for the status of a context that stops before it. -/
def State.peekCount (s : State) (c loc : Nat) : Nat × State :=
  match s.ccwFetch c loc with
  | (.ok y, s1) => (y.count, s1)
  | (.stop _ _, s1) => (0, s1)

/-- A context reaches a CCW boundary: a late bus error ends its program, a suspension that is due takes effect (R38, R112,
R115). -/
def State.boundary (s : State) (c : Nat) : State :=
  if s.frozen (s.home c) then s else
  let x := s.ctx c
  if x.asyncCcw.isSome then s.asyncEnd c
  else if x.suspendDue then
    let r := s.peekCount c x.ccwAddr
    (r.2.modCtx c (fun x => { x with byCommand := x.suspendCause = 0x0E })).suspendAt c x.suspendCause x.ccwAddr r.1 0
  else s

/-! ### The end of a CCW (R90, R97 to R99, R103, R108 to R110, R221, R223) -/

/-- How a CCW ends: its status and unit code, whether its two events have occurred, whether the port ended the transfer
normally, and the CCW that its status names where the stream does not tell. -/
structure CcwOut where
  status : Nat := 0
  unit : Nat := 0
  portDone : Bool := true
  chanDone : Bool := true
  normal : Bool := false
  named : Option (Nat × Nat) := none
  /-- The context goes to ERROR (R177, R184). -/
  error : Bool := false
  deriving DecidableEq, Repr

/-- The member in which the last byte was transferred; the first where none was. -/
def Stream.last (t : Stream) (code : Nat) (y : Ccw) : Ccw :=
  match memberAt t.members (t.doneOf code - 1) with
  | some (m, _) => m
  | none => t.members.getLast?.getD y

/-- The length indication (R98): the port ended the transfer with bytes left, or more bytes arrived than the chain holds. -/
def Ctx.lengthIndication (x : Ctx) (o : CcwOut) (code : Nat) : Bool :=
  x.long || (o.normal && (x.stream.doneOf code < x.stream.total || (x.stream.members.getLast?.getD {}).cd && x.stream.total ≠ 0))

/-- A context starts its next CCW from an address: no progress, and a checkpoint commit (R223). -/
def Ctx.atNext (x : Ctx) (loc : Nat) : Ctx :=
  { x with
    ccwAddr := loc, started := false, stream := {}, lastCond := x.cond, cond := false, il := false, long := false, late := false
    timeout := false, interimPosted := false, outputHanded := false, rxCommit := none, commitSeq := x.commitSeq + 1
    deadline := x.pdeadline }

/-- How a CCW ends whose hard deadline has passed: with DEADLINE_MISS, unless what ends it comes first in the order of R108. Its
second event would be stamped too late (R103). -/
def State.missed (s : State) (c : Nat) (o : CcwOut) : CcwOut :=
  if s.latePast c && statusRank 8 < statusRank o.status then { status := 8, portDone := false, chanDone := false } else o

/-- The misses of hard deadlines are counted for the lane and the world (R103, R456). -/
def State.countMiss (s : State) (c : Nat) : State := s.countBoth (s.home c) (s.ctx c).lane 4 3

/-- A CCW ends. Its stores are issued before its status; the activation ends, abnormally where the status is no SUCCESS, and the locks go;
then the program ends, or the context suspends, or chaining names the next CCW (R99, R109, R110). Its interim status is a commit of its
own (R223). -/
def State.ccwFinish (s0 : State) (c : Nat) (o0 : CcwOut) : State :=
  let o := s0.missed c o0
  let s := if o = o0 then s0 else s0.countMiss c
  let x0 := s.ctx c
  let y := x0.ccw.getD {}
  let late := s.lateSoft c
  let il := x0.lengthIndication o y.code
  let cur := if x0.stream.members = [] then y else x0.stream.last y.code y
  let st := if o.status ≠ 0 then o.status else if il && !cur.sli then 1 else 0
  let s1 := ((s.issueStores c).actEnd c (st ≠ 0)).locksEnd c
  let x := s1.ctx c
  let t := x.stream
  let n := match o.named with
    | some p => p
    | none => if t.members = [] then (x.ccwAddr, 0) else t.names y.code
  let flags := x.flagBits o.portDone o.chanDone il late
  let k := Nat.max 1 t.members.length
  let s2 := ((s1.countWorld (s.home c) 3 k).countLane (s.home c) x.lane 2 k).modCtx c (fun x =>
    { x with ccwSeq := x.ccwSeq + k, il := il, late := late })
  let s3 := if late then s2.countBoth (s.home c) x.lane 5 4 else s2
  if st = 0x0B || st = 0x0C then
    let rest := if t.members = [] then {} else t.from (t.doneOf y.code)
    (s3.modCtx c (fun x => { x with stream := rest, byCommand := false, susPass := true })).suspendAt c st n.1 n.2 flags
  else if st = 0x0E then
    (s3.modCtx c (fun x => { x with stream := {}, byCommand := true })).suspendAt c st n.1 n.2 flags
  else if st ≠ 0 then
    s3.programEnd c { status := st, unit := o.unit, addr := n.1, residual := n.2, flags := flags, error := o.error }
  else
    match s3.chainLast c 65536 cur with
    | (.error (m, e), s4) => s4.programEnd c { status := e.1, unit := e.2, addr := m.loc, residual := m.count, flags := flags }
    | (.ok last, s4) =>
      if !last.cc then s4.programEnd c { status := 0, unit := o.unit, addr := n.1, residual := n.2, flags := flags }
      else
        let s5 := if y.code = 0xC || (cur.pst && !t.posted.contains cur.loc) then
            (s4.modCtx c (fun x => { x with interimPosted := true, commitSeq := x.commitSeq + 1 })).postInterim c
              { addr := n.1, residual := n.2, status := 0, flags := flags, unit := o.unit }
          else s4
        (s5.modCtx c (fun x => x.atNext (last.loc + 16))).boundary c

/-- A CCW ends with DEADLINE_MISS, with the events that occurred in time (R103). -/
def State.missEnd (s : State) (c : Nat) (port chan : Bool) : State :=
  (s.countMiss c).ccwFinish c { status := 8, portDone := port, chanDone := chan }

/-- Whether an interruption may take effect now: not between a branch and its delay slot, nor inside an open non-interruptible
window (R164, R186). -/
def Ctx.interruptible (x : Ctx) : Bool := x.branch.isNone && !bitAt x.st.toNat 4

/-- The end of an activation that is due takes effect (R164). -/
def State.dueEnd (s : State) (c : Nat) : State :=
  let x := s.ctx c
  match x.due, x.act with
  | some d, some a => s.ccwFinish c { status := d.status, unit := d.unit, portDone := a.portDone, chanDone := a.channelDone }
  | some d, none => s.ccwFinish c { status := d.status, unit := d.unit, portDone := false, chanDone := false }
  | none, _ => s

/-- A CCW ends for a cause other than its own completion: at once, or at the next boundary that R164 allows. Of two causes the
first in the order of R108 stands. A MIGRATING context is suspended only once it has been placed (R213). -/
def State.ccwStop (s : State) (c status unit : Nat) : State :=
  if s.frozen (s.home c) then s else
  let x := s.ctx c
  let better := match x.due with
    | some d => decide (statusRank status < statusRank d.status)
    | none => true
  let s1 := if better then s.modCtx c (fun x => { x with due := some { status := status, unit := unit } }) else s
  if x.act.isSome && x.state = .running && !x.interruptible then s1
  else if x.state = .migrating && (status = 0x0B || status = 0x0C || status = 0x0E) then s1 else s1.dueEnd c

/-! ### Binding (R76 to R80, R213, R229, R256, R534) -/

/-- What is wrong with a target entry for a lane and a world: TARGET, then TARGET_WORLD; R79, R534. -/
inductive TargetBad where
  | target
  | world
  deriving DecidableEq, Repr

/-- The check of one target entry. -/
def State.targetCheck (s : State) (w : World) (lane t : Nat) : Option TargetBad :=
  let k := bits t 12 2
  let id := bits t 0 12
  let unit := bits t 16 8
  let usb := k = 0 && (s.port (id / 16)).cfg.mode = 1
  let l := if k = 0 then s.portLane (id / 16) else if k = 1 then s.driveLane id else none
  let own := if k = 0 then s.portWorld (id / 16) else if k = 1 then s.driveWorld id else s.cmpWorld id
  if bits t 14 2 ≠ 0 || bits t 24 8 ≠ 0 || k = 3 || (unit ≠ 0 && !usb) || (k = 1 && 64 ≤ id) || (k = 2 && 1024 ≤ id) then some .target
  else if l.isSome && l ≠ some lane then some .target
  else match own with
  | none => some .target
  | some x => if x = w then none else some .world

/-- What binding requires: the highest level, whether a lane is bound, and the LEVEL and LANE checks' inputs. -/
structure BindRules where
  level : Nat
  lanes : Nat
  backOffice : Bool
  deriving DecidableEq, Repr

/-- Whether a header LANE is bound. -/
def BindRules.laneOk (b : BindRules) (lane : Nat) : Bool :=
  if lane < 128 then bitAt b.lanes lane else lane = 0xFF && b.backOffice

/-- The first status that the header alone earns, in the order of R534. -/
def BindRules.head (r : BindRules) (hdr : List Byte) : Option (Nat × Nat) :=
  if bits (fieldAt hdr 3 1) 6 2 ≠ 0 then some (4, pcHeader)
  else if fieldAt hdr 0 1 = 0 || r.level < fieldAt hdr 0 1 then some (4, pcLevel)
  else if !r.laneOk (fieldAt hdr 2 1) then some (4, pcLane)
  else if 16 < bits (fieldAt hdr 3 1) 0 5 then some (4, pcTargetCount)
  else if 2000000 < fieldAt hdr 4 4 then some (4, pcParameter)
  else none

/-- The first status that the header and the target table earn, in the order of R534. -/
def State.bindCheck (s : State) (w : World) (r : BindRules) (hdr tgts : List Byte) : Option (Nat × Nat) :=
  let n := bits (fieldAt hdr 3 1) 0 5
  let lane := fieldAt hdr 2 1
  let res := (List.range n).map (fun i => s.targetCheck w lane (fieldAt tgts (4 * i) 4))
  if (r.head hdr).isSome then r.head hdr
  else if res.contains (some .target) then some (4, pcTarget)
  else if fieldAt hdr 1 1 ≠ w.bit + 1 then some (5, 1)
  else if res.contains (some .world) then some (5, 2)
  else none

/-- The targets of the other world, for the record of R26. -/
def State.noteTargets (s : State) (c : Nat) (w : World) (lane n : Nat) (tgts : List Byte) : State :=
  match (List.range n).find? (fun i => s.targetCheck w lane (fieldAt tgts (4 * i) 4) = some .world) with
  | some i => s.report (faultMsg 94 w.bit 0x04 (fieldAt tgts (4 * i) 4 % 16384) (some w) false) (some c)
  | none => s

/-- A bind check fails: no CCW is executed, and the final status names the header address (R80). -/
def State.bindFail (s : State) (c status unit : Nat) : State :=
  s.programEnd c { status := status, unit := unit, addr := (s.ctx c).headerAddr }

/-- A target table by index, from its bytes (R78). -/
def targetTable (n : Nat) (tgts : List Byte) : Tbl Nat :=
  (List.range n).foldl (fun t i => Tbl.put 0 t i (fieldAt tgts (4 * i) 4)) []

/-- The context with the lane and the targets of its program, which it keeps where the bind checks fail (R230). -/
def Ctx.withTargets (x : Ctx) (lane n : Nat) (tgts : List Byte) : Ctx :=
  { x with lane := lane, tgtCount := n, targets := targetTable n tgts }

/-- A program is bound to a context whose record says where it came from: the checks of R80, then the context is READY at the
first CCW. A TARGET error among the entries read comes before the end of a table whose reading stops part-way (R534). -/
def State.bindProgram (s : State) (c : Nat) (rules : BindRules) : State :=
  let x := s.ctx c
  let w := s.home c
  if effAddr 0 (x.header % 2 ^ 38) = none || x.header / 2 ^ 38 ≠ 0 then s.bindFail c 4 pcSpace
  else if x.headerAddr % 16 ≠ 0 then s.bindFail c 4 pcAlign
  else match s.progRead c x.headerAddr 8 with
  | (hdr, .done, s1) =>
    let n := bits (fieldAt hdr 3 1) 0 5
    let lane := fieldAt hdr 2 1
    match rules.head hdr with
    | some (st, u) =>
      let m := Nat.min n 16
      (s1.modCtx c (fun x => x.withTargets lane m (s1.readBytes w false (x.headerAddr + 8) (4 * m)).1)).bindFail c st u
    | none =>
    match s1.progRead c (x.headerAddr + 8) (4 * n) with
    | (tgts, .done, s2) =>
      let pd := fieldAt hdr 4 4
      match s2.bindCheck w rules hdr tgts with
      | some (st, u) => ((if st = 5 ∧ u = 2 then s2.noteTargets c w lane n tgts else s2).modCtx c (fun x =>
          x.withTargets lane n tgts)).bindFail c st u
      | none =>
        let limit := if pd = 0 then 0xFFFFFFFFFFFFFFFF else s.now + pd * 1000
        (s2.modCtx c (fun x => { x.withTargets lane n tgts with
          level := fieldAt hdr 0 1, softDl := bitAt (fieldAt hdr 3 1) 5
          pdeadline := limit, deadline := limit
          ccwAddr := x.headerAddr + roundUp (8 + 4 * n) 16 })).makeReady c
    | (tgts, e, s2) =>
      if (List.range (tgts.length / 4)).any (fun i => s2.targetCheck w lane (fieldAt tgts (4 * i) 4) = some .target) then s2.bindFail c 4 pcTarget
      else s2.bindFail c e.status.1 e.status.2
  | (_, e, s1) => s1.bindFail c e.status.1 e.status.2

/-- Inline data is copied to the header address before the checks: a user-level write of the program's world (R256). -/
def State.inlineCopy (s : State) (c : Nat) (data : List Byte) : Option (Nat × Nat) × State :=
  let x := s.ctx c
  if data = [] then (none, s)
  else if x.header / 2 ^ 38 ≠ 0 then (some (4, pcSpace), s)
  else match s.progWrite c x.headerAddr data with
  | (_, .done, s1) => (none, s1.issueStores c)
  | (_, e, s1) => (some e.status, s1.issueStores c)

/-! ### PROGRAM_BIND (R215, R216, R252, R258, R263) -/

/-- The entry of a queue that is next to be bound, unless a rule of R258 holds it now. -/
def State.bindable (s : State) (w : World) (q : Nat) : Option Entry :=
  let x := s.sq w q
  if q = 0 || !s.running w || s.pw.phase ≠ .none || s.qz.debugHalt || (s.fc.graniteHalt && w = .granite) then none
  else match x.entries with
  | [] => none
  | e :: _ => some e

/-- The front entry leaves its queue: the head passes it (R252). -/
def State.entryTaken (s : State) (w : World) (q : Nat) (e : Entry) : State :=
  s.modSq w q (fun y => { y with
    entries := y.entries.drop 1, head := e.first.add y.depth e.ringSlots, held := false, bindWaited := false, clusterWait := false })

/-- The entry joins the open group of its queue, or opens one; BATCH closes it (R263). -/
def State.groupJoin (s : State) (w : World) (q : Nat) (flags tag : Nat) : Option Nat × State :=
  if !bitAt flags 0 then (none, s)
  else
    let x := s.sq w q
    let g := x.groupNo
    let batch := bitAt flags 1
    (some g, s.modSq w q (fun y => { y with
      groups := Tbl.upd {} y.groups g (fun z => { z with bound := z.bound + 1, lastTag := tag, closed := batch })
      groupOpen := !batch, groupNo := if batch then g + 1 else g }))

/-- The entry waits for a context or a Hearth, counted once (R215, R231). -/
def State.bindWait (s : State) (w : World) (q : Nat) : State :=
  if (s.sq w q).bindWaited then s.modSq w q (fun y => { y with held := true })
  else (s.modSq w q (fun y => { y with held := true, bindWaited := true })).modHt w (fun h => { h with bindWait := satInc32 h.bindWait })

/-- Bind an entry to a context on a Hearth. -/
def State.bindEntry (s : State) (w : World) (q : Nat) (e : Entry) (c h : Nat) : State :=
  let y := s.sq w q
  let z := slot0Of e.data
  let inl := if bitAt z.flags 4 then slice e.data 32 (fieldAt e.data 16 2) else []
  let s1 := s.entryTaken w q e
  let g := s1.groupJoin w q z.flags z.tag
  let lane := fieldAt (s.progRead c (z.addr % 2 ^ 38) 3).1 2 1
  let rec0 : Ctx :=
    { state := .ready, lane := lane, home := h, sq := q, cq := y.cq, tag := z.tag, header := z.addr, bindTime := s.now, group := g.1
      batch := bitAt z.flags 1, bindSq := q, counted := true, stores := (s.ctx c).stores }
  let s2 := (g.2.setCtx c rec0).modSq w q (fun y => { y with live := y.live + 1 })
  let s3 := s2.countWorld w 0 1
  match s3.inlineCopy c inl with
  | (some (st, u), s4) => s4.bindFail c st u
  | (none, s4) => s4.bindProgram c { level := y.level, lanes := y.lanes, backOffice := y.backOffice }

/-- PROGRAM_BIND: the queue manager binds the next entry of a queue, unless NOT_BEFORE, ORDERED, or the want of a context or
a Hearth holds it. -/
def State.programBind (s : State) (fn : World) (q : Nat) : Result :=
  match s.bindable fn q with
  | none => .next s
  | some e =>
    let y := s.sq fn q
    if s.entryHeld y e then .next (s.modSq fn q (fun y => { y with held := true }))
    else match s.freeCtx fn with
    | none => .next (s.bindWait fn q)
    | some c =>
      match s.entryPlaced fn q e with
      | .none => .next (s.bindWait fn q)
      | .switchOn i =>
        .next ((s.boilerAsk (.cluster i) (s.entryLst fn e)).modSq fn q (fun y => { y with held := true, clusterWait := true }))
      | .hearth h => .next ((s.bindEntry fn q e c h).countSpill fn (s.homeCluster (s.entryHeader fn e).1) h)

/-- PROGRAM_BIND, with how its reads on the link end. -/
def execProgramBind (fn : World) (q : Nat) (s : State) (link : LinkResult := .ok) : Result := s.onLink link (fun u => u.programBind fn q)

/-! ### The start of a CCW (R83, R87, R88, R102, R103, R105, R112, R113) -/

/-- What the start of a CCW gives: nothing to do, the state that follows an end, or the CCW with its PARAM to execute. -/
inductive Begun where
  | no
  | done (s : State)
  | go (y : Ccw) (param : Nat) (s : State)

/-- A PROGRAM_CHECK found when a CCW is fetched or starts: RESIDUAL is COUNT as fetched (R110). -/
def State.programCheck (s : State) (c : Nat) (y : Ccw) (reason : Nat) : State :=
  (s.modCtx c (fun x => { x with ccw := some y })).ccwFinish c
    { status := 4, unit := reason, portDone := false, chanDone := false, named := some (y.loc, y.count) }

/-- The CCW that a context executes next: the interrupted one, the one built for a probe, or the one fetched. -/
def State.nextCcw (s : State) (c : Nat) : Fetched × State :=
  let x := s.ctx c
  match x.stream.members, x.ccw with
  | _ :: _, some y => (.ok y, s)
  | _, _ =>
    if s.isProbe c then
      match x.ccw with
      | some y => (.ok y, s)
      | none => (.stop 4 pcCode, s)
    else s.ccwFetch c x.ccwAddr

/-- The attachment that a command CCW of a context addresses, if its target is one. -/
def Ctx.addressed (x : Ctx) (y : Ccw) : Option Nat :=
  if cmdTargets y.code && x.kind y.tgt = 0 then some (x.target y.tgt % 4096) else none

/-- Whether a CCW addresses a hub, for which no handler is found (R294). -/
def State.onHub (s : State) (c : Nat) (y : Ccw) : Bool := ((s.ctx c).addressed y).any (fun a => (s.att a).hub)

/-- Whether an EXEC's handler number is absent, or its target a hub (R87, R205, R294). -/
def State.execAbsent (s : State) (c : Nat) (y : Ccw) : Bool :=
  let k := s.wcfg (s.home c)
  y.code = 9 && (s.onHub c y || (!y.dln && (!k.handler || !k.handlers.any (fun h => h.kind = 1 && h.key = y.param % 65536))))

/-- Whether an attachment ID holds something that answers a context: READY, or PROBING for the probe that runs on it (R309,
R313). -/
def State.attThere (s : State) (c a : Nat) : Bool :=
  let t := s.att a
  t.state = .ready || (t.state = .probing && t.probe.any (fun r => r.ctx = c))

/-- Whether an attachment is not absent: it is there, and has not been removed since the program started (R113). -/
def State.attPresent (s : State) (c a : Nat) : Bool := s.attThere c a && !(s.ctx c).gone.contains a

/-- The entry point of the handler for a command: by profile and command for KIND PORT, by number for EXEC (R205). -/
def WorldCfg.handlerFor (k : WorldCfg) (code profile param : Nat) : Option Nat :=
  if !k.handler then none
  else (k.handlers.find? (fun h =>
    if code = 9 then h.kind = 1 && h.key = param % 65536
    else h.kind = 0 && h.key = profile && bitAt h.mask (code - 1))).map (fun h => k.handlerAddr + h.entry)

/-- Whether the attachment that a CCW addresses is absent (R113). -/
def State.targetAbsent (s : State) (c : Nat) (y : Ccw) : Bool := ((s.ctx c).addressed y).any (fun a => !s.attPresent c a)

/-- Whether no handler matches a WRITE, READ, CONTROL or SENSE on an attachment that is there (R205, R294). -/
def State.portHandlerAbsent (s : State) (c : Nat) (y : Ccw) : Bool :=
  1 ≤ y.code && y.code ≤ 4 && !s.targetAbsent c y && ((s.ctx c).addressed y).any (fun a =>
    (s.att a).hub || ((s.wcfg (s.home c)).handlerFor y.code (s.att a).profile 0).isNone)

/-- The start of a command CCW of a running context: the row's code must be the CCW's, or the CCW is one that ends the
program. -/
def State.ccwBegin (s : State) (c code : Nat) : Begun :=
  let x := s.ctx c
  if x.state ≠ .running || x.started || x.act.isSome || !s.issues (s.home c) then .no
  else
    let cont := x.stream.members ≠ []
    match s.nextCcw c with
    | (.stop st u, s1) => .done ((s1.modCtx c (fun x => { x with ccw := none })).ccwFinish c
        { status := st, unit := u, portDone := false, chanDone := false, named := some (x.ccwAddr, 0) })
    | (.ok y, s1) =>
      if y.code ≠ code ∧ 1 ≤ y.code ∧ y.code ≤ 0xC then .no
      else match y.check x (s.isResident c) false (s.slaveTarget x y.tgt) with
      | some r => if cont then .no else .done (s1.programCheck c y r)
      | none =>
        if s.execAbsent c y then .done (s1.programCheck c y pcHandler)
        else if y.sus && !x.susPass && !cont then
          .done ((s1.modCtx c (fun x => { x with ccw := some y, resumePending := false, byCommand := false })).suspendAt c 0x0E x.ccwAddr y.count 0)
        else if !cont && s.portHandlerAbsent c y then .done (s1.programCheck c y pcHandler)
        else
          let dl := if x.keepDl then x.deadline else if y.dln then s.now + y.param * 1000 else x.pdeadline
          let passed := code ≠ 7 && dl < s.now
          let s2 := s1.modCtx c (fun x => { x with
            ccw := some y, started := true, susPass := false, keepDl := false, ticRun := 0, lastCond := false, cond := false
            il := false, long := x.keepDl && x.long && cmdReads code, late := passed && x.softDl, timeout := false
            interimPosted := x.keepDl && x.interimPosted, deadline := dl
            latch := if cmdTargets code && code ≠ 7 then Tbl.put 0 x.latch y.tgt 0 else x.latch })
          if passed && !x.softDl && !s.targetAbsent c y then
            .done ((s2.countMiss c).ccwFinish c
              { status := 8, portDone := false, chanDone := false, named := if cont then none else some (y.loc, y.bytes) })
          else .go y (if y.dln then 0 else y.param) s2

/-- A CCW addresses an absent attachment: it does not start (R113). -/
def State.withdrawn (s : State) (c loc resid : Nat) : State :=
  (s.modCtx c (fun x => { x with susPass := true, byCommand := false })).suspendAt c 0x0C loc resid 0

/-! ### The start of a handler activation (R88, R155, R160, R205, R224, R323, R328) -/

/-- Registers g5 to g31 at entry are unspecified: free values (R160, log 7). -/
def freeRegs (n : Nat) : Tbl W64 :=
  (List.range 27).foldl (fun t i => Tbl.put 0 t (5 + i) (Config.freeValue (n + i))) []

/-- The address of an attachment's handler state block (R314); a free value where the target is no attachment (log 7). -/
def State.stateBlock (s : State) (w : World) (a : Option Nat) (n : Nat) : W64 :=
  match a with
  | some i => BitVec.ofNat 64 ((s.img.profiles.get w).base + (s.img.profiles.get w).stride * i)
  | none => Config.freeValue n

/-- The activation begins: its marks, and the registers of R160. -/
def State.activate (s : State) (c : Nat) (y : Ccw) (param entry : Nat) (a : Option Nat) : State :=
  let w := s.home c
  let x := s.ctx c
  let code := y.code
  let t := x.target y.tgt
  let left := if y.nodata then y.count else match x.stream.members with
    | m :: _ => m.bytes - (if x.stream.param.isSome && x.stream.base ≤ 4 then 0 else x.stream.base)
    | [] => 0
  let rxOwn := match a with
    | some i => cmdReads code && (s.att i).hasChannels && (s.att i).rx.mark.isNone
    | none => false
  let txOwn := match a with
    | some i => cmdWrites code && (s.att i).hasChannels && (s.att i).tx.mark.isNone
    | none => false
  let s1 := match a with
    | some i =>
      let u := if rxOwn then s.modRx i RxChan.setMark else s
      if txOwn then u.txMark i else u
    | none => s
  let g1 := code + y.tgt * 16 + y.flags * 2 ^ 8 + left * 2 ^ 16 + param % 2 ^ 32 * 2 ^ 32
  let g2 := t % 0x4000 + bits t 16 8 * 2 ^ 16 + y.tgt * 2 ^ 24
  let regs0 := Tbl.put 0 (Tbl.put 0 (Tbl.put 0 (Tbl.put 0 (freeRegs (s.free + 1)) 1 (BitVec.ofNat 64 g1)) 2 (BitVec.ofNat 64 g2))
    3 (s.stateBlock w a s.free)) 4 (BitVec.ofNat 64 x.deadline)
  let s2 := s1.modCtx c (fun x => { x with
    regs := regs0, pc := BitVec.ofNat 64 entry, st := BitVec.ofNat 64 (8 * w.bit), lc := 0, ls := 0, le := 0, rc := 0
    user := {}, super := {}, gate := {}, branch := none, delayed := [], rep := false, shadow := false, attLatch := none
    due := none, answer := .none
    act := some { code := code, tgt := y.tgt, att := a, rxMark := rxOwn, txMark := txOwn }
    rxCommit := match a with
      | some i => if cmdReads code then (s1.att i).rx.markIndex else none
      | none => none })
  { s2 with free := s.free + 28 }

/-- The PARAM of a CONTROL or EXEC with DLN: bytes 0 to 3 of the data (R88); or how the CCW ends. -/
def State.paramOf (s : State) (c : Nat) (y : Ccw) (param : Nat) : Except CcwOut Nat × State :=
  match (s.ctx c).stream.param with
  | some p => (.ok p, s)
  | none =>
    if y.dln && (y.code = 3 || y.code = 9) then
      match s.streamGet c 4 with
      | (d, none, s1) =>
        let p := leNat d
        let s2 := s1.modStream c (fun t => { t with param := some p, base := t.base + t.moved, moved := 0 })
        if y.code = 3 && bitAt p 31 then
          (.error { status := 4, unit := pcParameter, portDone := false, chanDone := false, named := some (y.loc, y.count) }, s2)
        else (.ok p, s2)
      | (_, some e, s1) => (.error { status := e.1, unit := e.2, portDone := false, chanDone := false }, s1)
    else (.ok param, s)

/-- WRITE, READ, CONTROL, SENSE on an attachment, and EXEC: the checks at the start, and the activation. -/
def State.handlerStart (s : State) (c : Nat) (y : Ccw) (param : Nat) : State :=
  let x := s.ctx c
  let w := s.home c
  let t := x.target y.tgt
  let a := if bits t 12 2 = 0 then some (bits t 0 12) else none
  let cont := x.stream.members ≠ []
  let s0 := if cont then s else s.modStream c (fun _ => { members := [y] })
  let rest := (s0.ctx c).stream.names y.code
  let absent := match a with
    | some i => !s.attPresent c i
    | none => false
  let unsafe1 := match a with
    | some i => (s.port (i / 16)).safe && !s.isResident c && !s.isProbe c && cmdWrites y.code
    | none => false
  if absent then
    (if cont then s else s.modStream c (fun _ => {})).withdrawn c rest.1 rest.2
  else if unsafe1 then s0.ccwFinish c { status := 3, unit := 0xFF01, portDone := false, chanDone := false }
  else
    let s1 := match a with
      | some i => s0.modCtx c (fun x => { x with profiles := Tbl.put 0 x.profiles i ((s.att i).profile + 1) })
      | none => s0
    match s1.paramOf c y param with
    | (.error o, s2) => s2.ccwFinish c o
    | (.ok p, s2) =>
      let profile := match a with
        | some i => (s.att i).profile
        | none => 0
      match (s.wcfg w).handlerFor y.code profile p with
      | none => s2.ccwFinish c { status := 4, unit := pcHandler, portDone := false, chanDone := false, named := some (y.loc, y.count) }
      | some e => s2.activate c y p e a

end Sys2Proof.Machine
end

