-- ==== Sys2Proof/Machine/Ccws.lean ====
section
/-! DEFINITION. The channel commands: what each CCW does once it has begun, TIC, and the deadline of a CCW (R87 to R105, R386,
R424). -/
namespace Sys2Proof.Machine

/-- What a row does after the start of its CCW. -/
def Begun.run (b : Begun) (s : State) (f : Ccw → Nat → State → State) : State :=
  match b with
  | .no => s
  | .done t => t
  | .go y p t => f y p t

/-- The attachment that a CCW names, if its target is one. -/
def Ctx.attOf (x : Ctx) (y : Ccw) : Option Nat := if x.kind y.tgt = 0 then some (x.target y.tgt % 4096) else none

/-- A CCW that begins: absent attachments keep it from starting (R113). -/
def State.ccwPresent (s : State) (c : Nat) (y : Ccw) (f : State → State) : State :=
  match (s.ctx c).attOf y with
  | some a => if s.attPresent c a then f s else s.withdrawn c y.loc y.bytes
  | none => f s

/-! ### Commands with handlers -/

/-- WRITE (R87, R89). -/
def execWrite (c : Nat) (s : State) (link : LinkResult := .ok) : Result :=
  s.onLink link (fun u => .next ((u.ccwBegin c 1).run u (fun y p t => t.handlerStart c y p)))

/-- READ (R87, R89). -/
def execRead (c : Nat) (s : State) (link : LinkResult := .ok) : Result :=
  s.onLink link (fun u => .next ((u.ccwBegin c 2).run u (fun y p t => t.handlerStart c y p)))

/-- CONTROL (R87 to R89). -/
def execControl (c : Nat) (s : State) (link : LinkResult := .ok) : Result :=
  s.onLink link (fun u => .next ((u.ccwBegin c 3).run u (fun y p t => t.handlerStart c y p)))

/-- The sense record of a drive goes into the stream; what does not fit sets LONG (R98, R386). -/
def State.driveSenseCcw (s : State) (c : Nat) (y : Ccw) : State :=
  let n := (s.ctx c).target y.tgt % 4096
  let s0 := s.modStream c (fun t => if t.members = [] then { members := [y] } else t)
  let data := (s.driveSense n).drop ((s0.ctx c).stream.base)
  match s0.streamStore c data with
  | (_, some e, s1) => s1.ccwFinish c { status := e.1, unit := e.2, portDone := false, chanDone := false }
  | (k, none, s1) => (s1.modCtx c (fun x => { x with long := k < data.length })).ccwFinish c { normal := true }

/-- SENSE: by the handler of an attachment, or the sense record of a drive (R87, R386). -/
def execSense (c : Nat) (s : State) (link : LinkResult := .ok) : Result :=
  s.onLink link (fun u => .next ((u.ccwBegin c 4).run u (fun y p t =>
    if (t.ctx c).kind y.tgt = 1 then t.driveSenseCcw c y else t.handlerStart c y p)))

/-- EXEC (R87 to R89, R205). -/
def execExec (c : Nat) (s : State) (link : LinkResult := .ok) : Result :=
  s.onLink link (fun u => .next ((u.ccwBegin c 9).run u (fun y p t => t.handlerStart c y p)))

/-! ### TIC, NOP, POST, MARK -/

/-- Whether a TIC's condition holds (R97). -/
def ticTakes (param : Nat) (cond : Bool) : Bool :=
  match param % 4 with
  | 0 => true
  | 1 => cond
  | _ => !cond

/-- TIC: control passes to the target or to the next CCW; a fifth TIC in a row ends the program (R96, R97). -/
def State.ticStep (s : State) (c : Nat) : Result :=
  let x := s.ctx c
  if x.state ≠ .running || x.started || x.act.isSome || s.isProbe c || x.stream.members ≠ [] || !s.issues (s.home c) then .next s
  else match s.ccwFetch c x.ccwAddr with
  | (.stop st u, s1) => .next ((s1.modCtx c (fun x => { x with ccw := none })).ccwFinish c
      { status := st, unit := u, portDone := false, chanDone := false, named := some (x.ccwAddr, 0) })
  | (.ok y, s1) =>
    if y.code ≠ 5 then .next s
    else match y.checkTic x false with
    | some r => .next (s1.programCheck c y r)
    | none =>
      if 4 ≤ x.ticRun then .next (s1.programCheck c y pcTicLoop)
      else
        let dest := if ticTakes y.param x.lastCond then (effAddr x.header y.addr).getD 0 else x.ccwAddr + 16
        .next ((s1.modCtx c (fun x => { x with
          ccw := some y, ccwAddr := dest, ticRun := x.ticRun + 1, susPass := false, commitSeq := x.commitSeq + 1 })).boundary c)

/-- TIC, with how its reads on the link end. -/
def execTic (c : Nat) (s : State) (link : LinkResult := .ok) : Result := s.onLink link (fun u => u.ticStep c)

/-- NOP (R87). -/
def execNop (c : Nat) (s : State) (link : LinkResult := .ok) : Result :=
  s.onLink link (fun u => .next ((u.ccwBegin c 6).run u (fun _ _ t => t.ccwFinish c {})))

/-- POST: its status carries PARAM as the unit code (R92). -/
def execPost (c : Nat) (s : State) (link : LinkResult := .ok) : Result :=
  s.onLink link (fun u => .next ((u.ccwBegin c 0xC).run u (fun _ p t => t.ccwFinish c { unit := p % 65536 })))

/-- A MARK CCW whose operation is `op`: what it does to its attachment's FIFO, where that has channels (R87, R322). -/
def State.markCcw (s : State) (c op : Nat) (f : Nat → State → State) : State :=
  match s.ccwBegin c 8 with
  | .no => s
  | .done t => t
  | .go y p t =>
    if p % 8 ≠ op then s
    else t.ccwPresent c y (fun u =>
      let a := (u.ctx c).target y.tgt % 4096
      (if (u.att a).hasChannels then f a u else u).ccwFinish c {})

/-! ### WAIT (R104, R105) -/

/-- The latched events of a target, an attachment's with its level (R105, R210, R327). -/
def State.eventLatch (s : State) (c i : Nat) : Nat :=
  let x := s.ctx c
  Tbl.get 0 x.latch i ||| (if i < x.tgtCount && x.kind i = 0 then s.levelEvents (x.target i % 4096) else 0)

/-- The events latched for a target that a mask selects (R105). -/
def State.waitEvents (s : State) (c tgt mask : Nat) : Nat :=
  let l := s.eventLatch c tgt
  if mask = 0 then l else l &&& mask

/-- A WAIT that has started: satisfied, at its deadline, or waiting. An event that comes after the deadline has ended it with TIMEOUT
already (R104). -/
def State.waitRun (s : State) (c : Nat) (y : Ccw) (mask : Nat) : State :=
  let x := s.ctx c
  if x.timeout then s.ccwFinish c {}
  else if s.waitEvents c y.tgt mask ≠ 0 then
    (s.modCtx c (fun x => { x with cond := true, latch := Tbl.put 0 x.latch y.tgt 0 })).ccwFinish c {}
  else if x.deadline ≤ s.now then (s.modCtx c (fun x => { x with timeout := true })).ccwFinish c {}
  else s.modCtx c (fun x => { x with state := .waiting, wait := .ccw y.tgt mask, waitSince := s.now })

/-- A CCW that has begun and waited, executed again from its wait (R213). -/
def State.ccwAgain (s : State) (c code : Nat) : Option Ccw :=
  let x := s.ctx c
  if x.state = .running && x.started && x.act.isNone && s.issues (s.home c) then
    match x.ccw with
    | some y => if y.code = code then some y else none
    | none => none
  else none

/-- The mask of a WAIT CCW; 0 under DLN (R88). -/
def Ccw.waitMask (y : Ccw) : Nat := if y.dln then 0 else y.param % 65536

/-- WAIT (R104). -/
def State.waitStep (s : State) (c : Nat) : Result :=
  match s.ccwAgain c 7 with
  | some y => .next (s.waitRun c y y.waitMask)
  | none => .next ((s.ccwBegin c 7).run s (fun y p t => t.ccwPresent c y (fun u => u.waitRun c y (p % 65536))))

/-- WAIT, with how its reads on the link end. -/
def execWait (c : Nat) (s : State) (link : LinkResult := .ok) : Result := s.onLink link (fun u => u.waitStep c)

/-! ### PLANT (R91, R386) -/

/-- The end of a PLANT by what the drive answers. -/
def plantOut : WriteEnd → CcwOut
  | .accepted => {}
  | .noLeave => { status := 9 }
  | .refused u => { status := 3, unit := u }
  | .waits => {}

/-- A PLANT that has begun. -/
def State.plantRun (s : State) (c : Nat) (y : Ccw) (p : Nat) : State :=
  let n := (s.ctx c).target y.tgt % 4096
  let item := p % 256
  match s.driveWrite n item (plantValue item (bits p 16 16)) (some c) (s.lstOf (s.ctx c).deadline) with
  | (.waits, s1) => s1.modCtx c (fun x => { x with state := .waiting, wait := .drive n, waitSince := s.now })
  | (e, s1) => s1.ccwFinish c (plantOut e)

/-- The answer that a drive holds for a context, taken (R384). -/
def State.driveAnswerTake (s : State) (n c : Nat) : Option DriveAnswer × State :=
  ((s.drive n).answers.find? (fun a => a.ctx = c),
   s.modDrive n (fun d => { d with answers := d.answers.filter (fun a => a.ctx != c) }))

/-- The end of a PLANT that waited: granted, refused outright, or withdrawn with a unit code (R384). -/
def plantAnswer (a : DriveAnswer) : CcwOut :=
  if a.result = 0 then {} else if a.unit = 0 then { status := 9 } else { status := 3, unit := a.unit }

/-- PLANT (R386). The answer goes with the end of the CCW, which its time stamps (R89, R103). -/
def State.plantStep (s : State) (c : Nat) : Result :=
  match s.ccwAgain c 0xA with
  | some y =>
    match (s.driveAnswerTake ((s.ctx c).target y.tgt % 4096) c).1 with
    | some a => .next (s.ccwFinish c (plantAnswer a))
    | none => .next (s.plantRun c y y.param)
  | none => .next ((s.ccwBegin c 0xA).run s (fun y p t => t.plantRun c y p))

/-- PLANT, with how its reads on the link end. -/
def execPlant (c : Nat) (s : State) (link : LinkResult := .ok) : Result := s.onLink link (fun u => u.plantStep c)

/-! ### LEAVE (R91, R424) -/

/-- The lease that the program's LEAVE CCWs hold on a budget. -/
def Ctx.budgetLease (x : Ctx) (budget : Nat) : Option Nat :=
  let n := Tbl.get 0 x.ccwLease budget
  if n ≠ 0 ∧ x.leases.contains n then some n else none

/-- A request for leave by a LEAVE CCW: refused outright, or waiting. -/
def State.leaveCcwAsk (s : State) (c : Nat) (q : LeaveReq) : State :=
  match s.leaveArrive q with
  | (true, s1) => s1.ccwFinish c { status := 9 }
  | (false, s1) => s1.modCtx c (fun x => { x with state := .waiting, wait := .leave, answer := .none, waitSince := s.now })

/-- A LEAVE CCW that has begun. -/
def State.leaveCcwRun (s : State) (c : Nat) (y : Ccw) (p : Nat) : State :=
  let x := s.ctx c
  let budget := p % 2
  let amount := bits p 8 24
  let ask := fun (cls n : Nat) (l : Option Nat) =>
    s.leaveCcwAsk c (s.leaveReq (.context c) (budget = 1) cls n y.count l (s.lstOf x.deadline))
  match x.budgetLease budget with
  | some n =>
    match s.boiler.lease n with
    | some l =>
      if amount = 0 then ((s.leaseRelease n).modCtx c (fun x => { x with ccwLease := Tbl.put 0 x.ccwLease budget 0 })).ccwFinish c {}
      else if amount ≤ l.amount then (s.leaseReduce n amount).ccwFinish c {}
      else ask l.cls (amount - l.amount) (some n)
    | none => s.ccwFinish c {}
  | none =>
    if amount = 0 then s.ccwFinish c {}
    else if 4 ≤ x.leases.length then s.ccwFinish c { status := 9, unit := 1 }
    else ask (bits p 1 3) amount none

/-- LEAVE (R424). The answer goes with the end of the CCW, which its time stamps (R89, R103). -/
def State.leaveCcwStep (s : State) (c : Nat) : Result :=
  match s.ccwAgain c 0xB with
  | some y =>
    match (s.ctx c).answer with
    | .granted n => .next ((s.modCtx c (fun x => { x with ccwLease := Tbl.put 0 x.ccwLease (y.param % 2) n })).ccwFinish c {})
    | .refused => .next (s.ccwFinish c { status := 9 })
    | _ => .next (s.leaveCcwRun c y y.param)
  | none => .next ((s.ccwBegin c 0xB).run s (fun y p t => t.leaveCcwRun c y p))

/-- LEAVE, with how its reads on the link end. -/
def execLeaveCcw (c : Nat) (s : State) (link : LinkResult := .ok) : Result := s.onLink link (fun u => u.leaveCcwStep c)

/-! ### Deadlines and late stores (R103, R115, R187) -/

/-- DEADLINE_MISS: a hard deadline passes while the CCW runs or waits (R103). -/
def execDeadlineMiss (c : Nat) (s : State) : Result :=
  let x := s.ctx c
  let live := x.state = .ready || x.state = .running || (x.state = .waiting && x.wait ≠ .status)
  .next (if live && !s.frozen (s.home c) && s.latePast c && x.due.isNone then (s.countMiss c).ccwStop c 8 0 else s)

/-- LATE_BUS_ERROR: the oldest buffered store of a context fails before its issue (R187, R188); a suspended program ends at
once (R115). -/
def execLateBusError (c reason : Nat) (s : State) : Result :=
  let x := s.ctx c
  match x.stores with
  | [] => .next s
  | b :: rest =>
    let bad := !s.pageValid ((b.addr - windowBase) / pageBytes)
    if reason = 0 || 3 < reason || (reason = 1 && !bad) then .next s
    else
      let s1 := (s.modCtx c (fun x => { x with stores := rest })).lateError c b reason
      .next (if x.state = .suspended || x.parked then s1.asyncEnd c else s1)

end Sys2Proof.Machine
end

