-- ==== Sys2Proof/Machine/Contexts.lean ====
section
/-! DEFINITION. Suspension, resumption and the end of contexts by command, the ends of waits, the issue of contexts to slots,
Hearth failure and migration, and resident programs (R112, R113, R118, R213, R218, R219, R222, R225 to R230). -/
namespace Sys2Proof.Machine

/-! ### SUSPEND, RESUME, HALT (R112 to R114) -/

/-- Whether a context stands between two CCWs: the next has not started and nothing of it has been done. -/
def Ctx.atBoundary (x : Ctx) : Bool := !x.started && x.act.isNone && x.stream.members = []

/-- Whether a context has a program that has not placed its final status. -/
def Ctx.live (x : Ctx) : Bool := x.state ≠ .free && x.state ≠ .error && !x.ending

/-- Whether a context waits in a WAIT CCW, which a suspension or host loss ends there (R104, log 121). -/
def Ctx.inWait (x : Ctx) : Bool :=
  match x.wait with
  | .ccw _ _ => x.state = .waiting
  | _ => false

/-- A suspension falls due; of two causes the first in the order of R108 stands. -/
def State.suspendDueSet (s : State) (c cause : Nat) : State :=
  if s.frozen (s.home c) then s else
  let x := s.ctx c
  let better := !x.suspendDue || decide (statusRank cause < statusRank x.suspendCause)
  let s1 := s.modCtx c (fun x => { x with suspendDue := true, suspendCause := if better then cause else x.suspendCause })
  if x.inWait then s.ccwStop c cause 0
  else if x.atBoundary && (x.state = .ready || x.state = .running) then s1.boundary c else s1

/-- A Hearth for a context of a failed one: a peer of its cluster, else step 3 of R216, each up to 352 (R226). -/
def State.migrateTo (s : State) (h : Nat) : Placed :=
  match s.fewestIn (h / 4) 352 with
  | some p => .hearth p
  | none => s.placeFrom 352 (fun _ => false) ((clustersFrom (h / 4)).drop 1)

/-- A context moves from a failed Hearth where there is room; its requests go (R225, R409). -/
def State.moveCtx (s : State) (c : Nat) : State :=
  let x := s.ctx c
  match s.migrateTo x.home with
  | .hearth p =>
    (((s.modCtx c (fun x => { x with home := p })).modHt (s.home c) (fun h => { h with mig := satInc32 h.mig })).countWorld
      (s.home c) 7 1).countSpill (s.home c) (x.home / 4) p
  | .switchOn k => s.boilerAsk (.cluster k) (s.lstOf x.deadline)
  | .none => s

/-- SUSPEND of a READY, RUNNING or WAITING context: at its next CCW boundary. -/
def State.suspendOp (s : State) (c : Nat) : State :=
  let x := s.ctx c
  if x.live && x.state ≠ .suspended && !x.parked then s.suspendDueSet c 0x0E else s

/-- The header of a context that the Cellar restored is fetched again: its targets and deadlines, or the program ends (R490,
log 25). -/
def State.headerAgain (s : State) (c : Nat) : State :=
  let x := s.ctx c
  match s.progRead c x.headerAddr 8 with
  | (hdr, .done, s1) =>
    let n := bits (fieldAt hdr 3 1) 0 5
    let rules : BindRules := { level := 3, lanes := 2 ^ 128 - 1, backOffice := true }
    match rules.head hdr with
    | some (st, u) => s1.bindFail c st u
    | none =>
    match s1.progRead c (x.headerAddr + 8) (4 * n) with
    | (tgts, .done, s2) =>
      match s2.bindCheck (s.home c) rules hdr tgts with
      | some (st, u) => s2.bindFail c st u
      | none =>
        let pd := fieldAt hdr 4 4
        let limit := if pd = 0 then 0xFFFFFFFFFFFFFFFF else s.now + pd * 1000
        s2.modCtx c (fun x => { x with
          level := fieldAt hdr 0 1, tgtCount := n, softDl := bitAt (fieldAt hdr 3 1) 5
          targets := targetTable n tgts
          pdeadline := limit, deadline := limit, refetch := false })
    | (_, e, s2) => s2.bindFail c e.status.1 e.status.2
  | (_, e, s1) => s1.bindFail c e.status.1 e.status.2

/-- The CCW of a restored context that had progress is fetched again, and the member that its progress names (R114, R490). -/
def State.progressAgain (s : State) (c : Nat) : State :=
  let x := s.ctx c
  match x.stream.members with
  | [] => s
  | m :: _ =>
    match s.ccwFetch c x.ccwAddr with
    | (.stop st u, s1) => s1.programEnd c { status := st, unit := u, addr := x.ccwAddr }
    | (.ok y, s1) =>
      match (s1.modCtx c (fun z => { z with ccw := some y, stream := { members := [y] } })).paramOf c y y.param with
      | (.error o, s2) => s2.ccwFinish c o
      | (.ok _, s2) =>
        match s2.ccwFetch c m.loc with
        | (.stop st u, s3) => s3.programEnd c { status := st, unit := u, addr := m.loc }
        | (.ok z, s3) => s3.modStream c (fun t => { members := [z.asMember y], base := x.stream.base, param := t.param })

/-- A context that the Cellar restored is made ready to be resumed. -/
def State.refetch (s : State) (c : Nat) : State :=
  let s1 := s.headerAgain c
  if (s1.ctx c).state = .suspended && !(s1.ctx c).refetch then s1.progressAgain c else s1

/-- A SUSPENDED context is READY again. One whose Hearth is out of service takes a peer's place first, and waits for one with the resume
held (R225, R226). -/
def State.resumeNow (s0 : State) (c : Nat) (pass : Bool) : State :=
  let s := if s0.hearths.failed.contains (s0.ctx c).home then s0.moveCtx c else s0
  if s.hearths.failed.contains (s.ctx c).home then
    s.modCtx c (fun x => { x with resumePending := true, susPass := pass || x.susPass })
  else
  let s1 := if (s.ctx c).refetch then s.refetch c else s
  if (s1.ctx c).state = .suspended then
    (s1.modCtx c (fun x => { x with
      suspendCause := 0, byCommand := false, resumePending := false, susPass := pass || x.susPass })).makeReady c
  else s1

/-- The attachment that the CCW of a context names that was stopped by a withdrawal. -/
def Ctx.stoppedAtt (x : Ctx) : Option Nat :=
  match x.ccw with
  | some y => if cmdTargets y.code && y.code ≠ 0xA && x.kind y.tgt = 0 then some (x.target y.tgt % 4096) else none
  | none => none

/-- RESUME of a context stopped by PORT_WITHDRAWN: what the attachment ID now holds decides (R113). -/
def State.resumeWithdrawn (s : State) (c : Nat) : State :=
  let x := s.ctx c
  match x.stoppedAtt with
  | some a =>
    if !s.attThere c a then s.suspendAt c 0x0C x.postedAddr x.postedResid 0
    else
      let used := Tbl.get 0 x.profiles a
      if used ≠ 0 ∧ used ≠ (s.att a).profile + 1 then
        s.programEnd c { status := 0x0C, addr := x.postedAddr, residual := x.postedResid }
      else (s.modCtx c (fun x => { x with gone := x.gone.filter (fun i => i != a) })).resumeNow c false
  | none => s.resumeNow c false

/-- Resume: by the RESUME command, or by a doorbell's RESUME flag (R112; log 144). -/
def State.resumeOp (s : State) (c : Nat) (command : Bool) : State :=
  if s.frozen (s.home c) then s else
  let x := s.ctx c
  match x.state with
  | .suspended =>
    if x.suspendCause = 0x0E then
      if x.byCommand then (if command then s.resumeNow c true else s) else s.resumeNow c false
    else if !command then s
    else if x.suspendCause = 0x0C then s.resumeWithdrawn c
    else s.resumeNow c false
  | .ready | .running | .waiting | .migrating =>
    if x.live then s.modCtx c (fun x => { x with resumePending := true }) else s
  | _ => s

/-- HALT: the current CCW ends at once, or a suspended program ends as last posted (R112). -/
def State.haltOp (s : State) (c : Nat) : State :=
  let x := s.ctx c
  if !x.live || s.frozen (s.home c) then s
  else if x.state = .suspended then s.programEnd c { status := 0x0D, addr := x.postedAddr, residual := x.postedResid }
  else if x.atBoundary then
    let r := s.peekCount c x.ccwAddr
    (r.2.landWithdraw (fun q => q.ofCtx c)).programEnd c { status := 0x0D, addr := x.ccwAddr, residual := r.1 }
  else
    s.ccwStop c 0x0D 0

/-- Whether an attachment is a target of a context's program. -/
def Ctx.targetsAtt (x : Ctx) (a : Nat) : Bool :=
  (List.range x.tgtCount).any (fun i => x.kind i = 0 && x.target i % 4096 = a)

/-- The removal of an attachment: it is absent for every program under way that has it as a target, and the CCWs that run on it
stop (R113). -/
def State.attWithdrawn (s : State) (a : Nat) : State :=
  (s.ctxs.map (fun p => p.1)).foldl (fun t c =>
    let x := t.ctx c
    let t1 := if x.live && x.targetsAtt a && !x.gone.contains a then t.modCtx c (fun x => { x with gone := x.gone ++ [a] }) else t
    if x.live && x.state ≠ .suspended && !x.parked && x.started && x.stoppedAtt = some a then t1.ccwStop c 0x0C 0 else t1) s

/-! ### The ends of waits (R118, R213) -/

/-- The WAITE events of a context that waits (R158). -/
def State.waiteEvents (s : State) (c a mask : Nat) (tgt : Option Nat) : Nat :=
  let x := s.ctx c
  let l := match tgt with
    | some i => Tbl.get 0 x.latch i
    | none => match x.attLatch with
      | some l => if l.att = a then l.events else 0
      | none => 0
  (l ||| s.levelEvents a) &&& mask

/-- Whether what a WAITING context waits for has come. -/
def State.waitOver (s : State) (c : Nat) : Bool :=
  let x := s.ctx c
  match x.wait with
  | .none => false
  | .ccw t m => s.waitEvents c t m ≠ 0 || decide (x.deadline ≤ s.now)
  | .waite a m t => s.waiteEvents c a m t ≠ 0
  | .lock _ _ => false
  | .leave => x.answer ≠ .none
  | .drive n => (s.drive n).answers.any (fun y => y.ctx = c)
  | .flint => s.flintOpen < 64
  | .flverLeave => false
  | .flver => true
  | .txSpace a => (0 < s.txFree a && ((s.att a).tx.owner.isNone || (s.att a).tx.owner = some c)) || !(s.att a).hasChannels
  | .status => !s.ovfWait.any (fun y =>
      y.world = s.home c && (y.compl.kind = .program || y.compl.kind = .orphan) && y.compl.ctx = c)
  | .portEnd =>
    !s.atts.any (fun p => p.2.cmds.any (fun k => k.ctx = c && (k.output || (k.sent ≠ 0 && k.toSend = 0))))
      && (match x.stoppedAtt with
          | some a => !(s.port (a / 16)).pins.any (fun p => p.2.pulseEnd.isSome)
          | none => true)

/-- A context is READY again; at a CCW boundary, what is due there takes effect first (R112, R115). -/
def State.readyAgain (s : State) (c : Nat) : State :=
  if (s.ctx c).atBoundary then (s.makeReady c).boundary c else s.makeReady c

/-- Whether the final status of a context waits for its place, in whatever state that keeps the context (R213, R225, R268). -/
def Ctx.endWaits (x : Ctx) : Bool :=
  x.ending && (x.state = .waiting || x.state = .ready || x.state = .migrating || x.state = .error)

/-- A context whose status has been placed: SUSPENDED, where that status was of its suspension, and READY again where a resume at
SUS has come in the meantime (R112, R213, R268). -/
def State.statusPlaced (s : State) (c : Nat) : State :=
  let x := s.ctx c
  if x.parked then
    let t := s.modCtx c (fun y => { y with state := .suspended, wait := .none, parked := false })
    if x.suspendCause = 0x0E && !x.byCommand && x.resumePending then t.resumeNow c false else t
  else s.readyAgain c

/-- WAIT_END: a waiting context has what it waited for. It is READY; a program whose status has been placed is gone; a CCW
whose port has ended what was handed off before a migration ends (R213, R227, R268). -/
def execWaitEnd (c : Nat) (s : State) : Result :=
  let x := s.ctx c
  if (x.state = .waiting || x.endWaits) && s.waitOver c && !s.frozen (s.home c) then
    if x.ending then .next (s.programGone c true)
    else match x.wait with
    | .portEnd =>
      let bad : Bool := match x.stoppedAtt with
        | some a => decide ((s.att a).error ≠ 0)
        | none => false
      let t := s.ccwFinish c { status := if bad then 2 else 0 }
      .next (if (t.ctx c).state = .waiting && (t.ctx c).wait = .none then t.makeReady c else t)
    | .flver => .next ((s.modCtx c (fun x => { x with answer := .verified })).makeReady c)
    | .flint => .next ((s.modCtx c (fun x => { x with flint := some {} })).makeReady c)
    | .status => .next (s.statusPlaced c)
    | _ => .next (s.makeReady c)
  else .next s

/-! ### Issue (R218, R219, R426, R427) -/

/-- The contexts of a Hearth in a state. -/
def State.onHearth (s : State) (h : Nat) (st : CtxState) : List (Nat × Ctx) :=
  s.ctxs.filter (fun p => p.2.state = st && p.2.home = h)

/-- The order of R218. -/
def issuesBefore (a b : Nat × Ctx) : Bool :=
  a.2.deadline < b.2.deadline || (a.2.deadline = b.2.deadline &&
    (a.2.readySeq < b.2.readySeq || (a.2.readySeq = b.2.readySeq && a.1 < b.1)))

/-- The first of some READY contexts. -/
def firstReady : List (Nat × Ctx) → Option (Nat × Ctx)
  | [] => none
  | a :: l => match firstReady l with
    | none => some a
    | some b => if issuesBefore b a then some b else some a

/-- The issue slots of a Hearth that a world's contexts may take (R427). -/
def State.slotCap (s : State) (w : World) : Nat :=
  let p := s.boiler.pace.get w
  if paceMv p < paceMv s.boiler.rail then paceSlots p else 8

/-- Whether a READY context may take a slot of its Hearth under the share of its world. -/
def State.mayIssue (s : State) (h c : Nat) : Bool :=
  let w := s.home c
  s.issues w && ((s.onHearth h .running).filter (fun p => s.home p.1 = w)).length < s.slotCap w

/-- The lowest issue slot of a Hearth that no context holds. -/
def State.freeSlot (s : State) (h : Nat) : Option Nat :=
  (List.range 8).find? (fun i => !(s.onHearth h .running).any (fun p => p.2.slot = i))

/-- A record with an uncorrectable word: the context's program ends with DATA_CHECK, and the context goes to ERROR (R212, R213). -/
def State.recordError (s : State) (c word : Nat) : State :=
  let x := s.ctx c
  let s1 := s.report (faultMsg 95 0 0x02 word (some (s.home c)) false) (some c)
  match x.act with
  | some a => s1.ccwFinish c { status := 0x06, portDone := a.portDone, chanDone := a.channelDone, error := true }
  | none => (s1.locksEnd c).programEnd c { status := 0x06, addr := x.ccwAddr, error := true }

/-- Whether a context that takes a slot goes on waiting at once: for its port or the place of its status, after a migration, or as the
program of a ROM (R213, R227, R397). -/
def State.waitsAtIssue (s : State) (c : Nat) : Bool :=
  let x := s.ctx c
  x.wait = .portEnd || x.wait = .status || (s.attic.config = .builtin && s.isResident c)

/-- ISSUE_SLOT_FREE: a free issue slot goes to the first READY context of its Hearth (R218), unless its record, as it is read,
is uncorrectable (R212). -/
def execIssueSlotFree (h : Nat) (s : State) : Result :=
  if s.hearths.failed.contains h then .next s
  else if !s.boiler.domains.contains (32 + h / 4) then
    match firstReady ((s.onHearth h .ready).filter (fun p => s.issues (s.home p.1))) with
    | some (_, x) => .next (if h < 64 then s.boilerAsk (.cluster (h / 4)) (s.lstOf x.deadline) else s)
    | none => .next s
  else match s.freeSlot h, firstReady ((s.onHearth h .ready).filter (fun p => s.mayIssue h p.1)) with
  | some i, some (c, _) =>
    match (s.ctx c).recordBad with
    | some k => .next (s.recordError c k)
    | none =>
      let w := s.waitsAtIssue c
      .next (s.modCtx c (fun x => { x with
        slot := i, retired := 0, state := if w then .waiting else .running, waitSince := if w then s.now else x.waitSince }))
  | _, _ => .next s

/-- The running context that preemption takes the slot from: the latest deadline, the higher ID on a tie (R219). -/
def lastRunning : List (Nat × Ctx) → Option (Nat × Ctx)
  | [] => none
  | a :: l => match lastRunning l with
    | none => some a
    | some b => if a.2.deadline < b.2.deadline || (a.2.deadline = b.2.deadline && a.1 < b.1) then some b else some a

/-- A running context loses its slot, at once or at the boundary that R186 and R194 allow next. -/
def State.slotLost (s : State) (c : Nat) : State :=
  if (s.ctx c).interruptible then s.makeReady c else s.modCtx c (fun x => { x with slotDue := true })

/-- PREEMPTION: with every slot busy, a READY context of an earlier deadline takes a running one's slot (R219). -/
def execPreemption (h : Nat) (s : State) : Result :=
  match s.freeSlot h, firstReady ((s.onHearth h .ready).filter (fun p => s.issues (s.home p.1))), lastRunning (s.onHearth h .running) with
  | none, some (_, b), some (v, y) =>
    .next (if b.deadline < y.deadline then s.slotLost v else s)
  | _, _, _ => .next s

/-- QUANTUM_END: after 4,096 retired instructions a context gives way to a READY one of no later deadline (R219). -/
def execQuantumEnd (c : Nat) (s : State) : Result :=
  let x := s.ctx c
  .next (if x.state = .running && 4096 ≤ x.retired
      && (s.onHearth x.home .ready).any (fun p => p.2.deadline ≤ x.deadline) then s.slotLost c else s)

/-! ### The wait limit (R222) -/

/-- Whether a wait is one of R118. -/
def Wait.ofInstr : Wait → Bool
  | .waite _ _ _ | .lock _ _ | .leave | .drive _ | .flint | .flverLeave | .flver | .txSpace _ => true
  | _ => false

/-- LOCK_WAIT_TIMEOUT: the limit of a wait passes: the CCW ends with DEADLINE_MISS (R222). -/
def execLockWaitTimeout (c : Nat) (s : State) : Result :=
  let x := s.ctx c
  let locked := x.locks ≠ [] || (match x.wait with
    | .lock _ _ => true
    | _ => false)
  let limit := Nat.min x.deadline (x.waitSince + 1000 * (s.wcfg (s.home c)).lockWaitUs)
  .next (if x.state = .waiting && !s.frozen (s.home c) && x.act.isSome && x.wait.ofInstr && locked && limit < s.now then
    (s.modHt (s.home c) (fun h => { h with lockTo := satInc32 h.lockTo })).ccwStop c 8 0
  else s)

/-! ### Hearth failure and migration (R225 to R227) -/

/-- A context of a failed Hearth: it is MIGRATING, with what its Hearth has not issued gone, and an end that was due waits until it has been
placed; or SUSPENDED or ERROR as it was (R213, R225, log 120). -/
def State.migrateCtx (s : State) (c : Nat) : State :=
  let x := s.ctx c
  if x.state = .free then s
  else if x.state ≠ .suspended && x.state ≠ .error then
    ((s.requestsEnd c).modCtx c (fun x => { x with
      state := .migrating, migStart := s.now, migCount := satAt 255 (x.migCount + 1)
      stores := x.stores.filter (fun b => b.old) })).moveCtx c
  else s.moveCtx c

/-- CHECKER_MISMATCH: a Hearth leaves service: its Landing requests and grants end, and its contexts move (R225). -/
def execCheckerMismatch (h : Nat) (s : State) : Result :=
  if 64 ≤ h || s.hearths.failed.contains h || !s.powered then .next s
  else
    let mine := fun (q : LandReq) => decide (q.req = h)
    let ks := (s.lands.filter (fun p => p.2.grant.any mine)).map (fun p => p.1)
    let s1 := s.landWithdraw mine
    let s2 := ks.foldl (fun t k => (t.modLanding k (fun l => { l with grant := none })).landGrant k) s1
    let s3 := { s2 with hearths := { s2.hearths with failed := s2.hearths.failed ++ [h] } }
    let s4 := s3.report (faultMsg h 0 0x03 0 none false)
    .next (((s.ctxs.filter (fun p => p.2.home = h && p.2.state ≠ .free)).map (fun p => p.1)).foldl (fun t c => t.migrateCtx c) s4)

/-- The FIFOs of an abandoned attempt: what is not handed off is rewound, and the receive side returns to its mark (R227). -/
def State.actMigrate (s : State) (c : Nat) : State :=
  match (s.ctx c).act with
  | some y =>
    match y.att with
    | some a =>
      if (s.att a).hasChannels then
        let s1 := if cmdReads y.code then
            let u := s.modRx a RxChan.rewind
            if y.rxMark then u.modRx a RxChan.releaseMark else u
          else s
        if cmdWrites y.code then s1.actTxEnd a y.txMark true else s1
      else s
    | none => s
  | none => s

/-- The stream of a CCW that migration begins again, by its command (R227). -/
def Ctx.restored (x : Ctx) : Stream :=
  let t := x.stream
  match x.ccw with
  | some y =>
    if !x.started || t.members = [] then t
    else if y.code = 1 then t.from (t.base + t.handed)
    else if y.code = 2 || y.code = 4 then t.from (t.base + t.committed)
    else { members := t.members.take 1, posted := t.posted }
  | none => t

/-- Whether a CONTROL or EXEC has put something out, so that it is not executed again (R227). -/
def Ctx.handedOut (x : Ctx) : Bool :=
  match x.ccw with
  | some y => (y.code = 3 || y.code = 9) && x.started && (x.outputHanded || x.stream.handed ≠ 0)
  | none => false

/-- MIGRATING_PLACED: a migrating context is restored from its checkpoint and READY on its new Hearth, where the end of its CCW that has
fallen due takes effect; a SUSPENDED or ERROR one whose Hearth has failed gets its new HOME (R213, R225 to R227). -/
def execMigratingPlaced (c : Nat) (s : State) : Result :=
  if s.frozen (s.home c) then .next s
  else if (s.ctx c).state = .suspended || (s.ctx c).state = .error then
    let s0 := if s.hearths.failed.contains (s.ctx c).home then s.moveCtx c else s
    .next (if (s0.ctx c).state = .suspended && (s0.ctx c).resumePending && !s0.hearths.failed.contains (s0.ctx c).home then s0.resumeNow c false else s0)
  else if (s.ctx c).state ≠ .migrating then .next s
  else
    let s0 := if s.hearths.failed.contains (s.ctx c).home then s.moveCtx c else s
    if s0.hearths.failed.contains (s0.ctx c).home then .next s0
    else
      let x := s0.ctx c
      let s1 := ((((s0.flintClose c).locksEnd c).visitAbandon c).actMigrate c).openCancel c
      let out := x.handedOut
      let s2 := (s1.modCtx c Ctx.quiet).modCtx c (fun z => { z with
        stream := if out then { z.stream with moved := if (x.ccw.getD {}).code = 9 then x.stream.handed else z.stream.moved } else x.restored
        long := z.long && x.stream.committed = x.stream.moved
        started := out, keepDl := (x.started || x.keepDl) && !out, susPass := x.susPass || x.started })
      let s3 := s2.modHt (s.home c) (fun h => { h with migMax := Nat.max h.migMax (satAt 0xFFFFFFFF (s.now - x.migStart)) })
      .next (if x.due.isSome then
          (s3.makeReady c).ccwFinish c { status := (x.due.map (·.status)).getD 0, unit := (x.due.map (·.unit)).getD 0
                                         portDone := x.act.any (·.portDone), chanDone := x.act.any (·.channelDone) }
        else if out then (s3.readyAgain c).modCtx c (fun z => { z with wait := .portEnd })
        else if x.wait = .status then (s3.makeReady c).modCtx c (fun z => { z with wait := .status })
        else s3.readyAgain c)

/-! ### Resident programs (R228 to R230) -/

/-- The home Hearth of a resident program is chosen as for any other; `f` binds it there. Where none takes it, the context stays as
it is and the binding is tried again (R216, R217, R230). `lst` is its program's deadline for Boiler; `again` counts a restart. -/
def State.residentPlace (s : State) (w : World) (e : ResidentEntry) (lst : Nat) (again : Bool) (f : State → Nat → Nat → State) : State :=
  let k := if e.cluster < 16 then e.cluster else s.homeCluster e.lane
  match s.placeHome k (s.ctx e.ctx).placeAsked with
  | .none => s.modCtx e.ctx (fun x => { x with restartAt := some s.now })
  | .switchOn i => (s.boilerAsk (.cluster i) lst).modCtx e.ctx (fun x => { x with restartAt := some s.now, placeAsked := true })
  | .hearth h =>
    let s1 := if again then (s.modCtx e.ctx (fun x => { x with restarts := satAt 255 (x.restarts + 1) })).modHt w
        (fun h => { h with restart := satInc32 h.restart }) else s
    (f (s1.countWorld w 0 1) k h).countSpill w k h

/-- The record of a resident program that is bound. -/
def ResidentEntry.record (e : ResidentEntry) (now h : Nat) (x : Ctx) : Ctx :=
  { x.freed with state := .ready, lane := e.lane, home := h, header := e.header, bindTime := now }

/-- Bind the program of a RESIDENT entry to its context, which clears cause PROGRAM of the drives it names (R228, R229, R387). -/
def State.bindResident (s : State) (w : World) (e : ResidentEntry) (again : Bool) : State :=
  let pd := fieldAt (s.readBytes w false (e.header % 2 ^ 38) 8).1 4 4
  let lst := s.lstOf (if pd = 0 then 0xFFFFFFFFFFFFFFFF else s.now + pd * 1000)
  s.residentPlace w e lst again (fun t _ h =>
    let s1 := (t.modCtx e.ctx (e.record s.now h)).bindProgram e.ctx
      { level := 3, lanes := if e.lane < 128 then 2 ^ e.lane else 0, backOffice := e.lane = 0xFF }
    if (s1.ctx e.ctx).state = .ready then (s1.ctx e.ctx).driveTargets.foldl (fun t n => t.driveCauseClear n .program) s1 else s1)

end Sys2Proof.Machine
end

