-- ==== Sys2Proof/Machine/Mailbox.lean ====
section
/-! DEFINITION. The mailboxes, from the host's side and from the partner's (R277 to R280). -/
namespace Sys2Proof.Machine

/-- The flash mailbox of a world, if it has one (R250). -/
def State.flashMb (s : State) (w : World) : Option Nat :=
  let m := (s.wcfg w).flashMb
  if m < 16 && s.mbWorld m = some w then some m else none

/-- The partner of a mailbox: 0 NONE, 1 KERNEL, 2 STUDY; the flash mailbox is STUDY whatever its byte says (R250). -/
def State.mbPartner (s : State) (m : Nat) : Nat :=
  match s.mbWorld m with
  | some w => if s.flashMb w = some m then 2 else Tbl.get 0 (s.wcfg w).partner m
  | none => 0

/-- A host access to a mailbox of its world that has a partner (R236, R277). -/
def State.mbHost (s : State) (fn : World) (m off : Nat) (k : State → State) : State :=
  s.hostItem fn (0x200000 + 256 * m + off) (s.mbWorld m) (fun t => if t.mbPartner m = 0 then t else k t)

/-- A write of MB_DB: REQ bits set, NOTE bits cleared (R278). -/
def State.mbDbWrite (s : State) (fn : World) (m v : Nat) : State :=
  s.mbHost fn m 0 (fun t => t.modMb m (fun x =>
    { x with req := x.req ||| v % 65536, note := (x.note ||| v / 65536 % 65536) ^^^ (v / 65536 % 65536) }))

/-- MB_REQUEST: a write of MB_DB. -/
def execMbRequest (fn : World) (m : Nat) (v : W32) (s : State) : Result := .next (s.mbDbWrite fn m v.toNat)

/-- An acknowledge reaches the host: reply, CODE and BIT, REQ bit cleared, VALID set, MSI-X (R279). -/
def State.mbDeliver (s : State) (m code b : Nat) (reply : List (Nat × W64)) : State :=
  let s1 := s.modMb m (fun x =>
    { x with
      msg := reply.foldl (fun t p => if p.1 < 8 then Tbl.put 0 t p.1 p.2 else t) x.msg
      ackCode := code, ackBit := b, ackValid := true
      req := if bitAt x.req b then x.req - 2 ^ b else x.req })
  match s.mbWorld m with
  | some w => s1.msix w (s.mb m).vec
  | none => s1

/-- A partner's acknowledge: held while VALID is 1 (R279). -/
def State.mbAck (s : State) (m code b : Nat) (reply : List (Nat × W64)) : State :=
  if (s.mb m).ackValid then s.modMb m (fun x => { x with held := x.held ++ [(code, b, reply)] })
  else s.mbDeliver m code b reply

/-- MB_ACKNOWLEDGE: by the partner of the mailbox; a halted Granite kernel gives none (R279, R478). -/
def execMbAcknowledge (m : Nat) (code : BitVec 16) (bit : Nat) (reply : List (Nat × W64)) (s : State) : Result :=
  let halted := s.fc.graniteHalt && s.mbWorld m = some .granite && s.mbPartner m = 1
  .next (if s.mbPartner m = 0 || halted || 16 ≤ bit then s else s.mbAck m code.toNat bit reply)

/-- A write of MB_ACK: VALID is cleared, and an acknowledge held by the partner follows (R279). -/
def State.mbAckWrite (s : State) (fn : World) (m v : Nat) : State :=
  s.mbHost fn m 8 (fun t =>
    if bitAt v 31 && (t.mb m).ackValid then
      match (t.mb m).held with
      | [] => t.modMb m (fun x => { x with ackValid := false })
      | (c, b, r) :: rest => (t.modMb m (fun x => { x with ackValid := false, held := rest })).mbDeliver m c b r
    else t)

/-- MB_ACK_CLEAR. -/
def execMbAckClear (fn : World) (m : Nat) (v : W32) (s : State) : Result := .next (s.mbAckWrite fn m v.toNat)

/-- The partner sets NOTE bits; MSI-X unless every bit set is masked (R279). -/
def State.mbNoteSet (s : State) (m v : Nat) : State :=
  let s1 := s.modMb m (fun x => { x with note := x.note ||| v })
  let open1 := (List.range 16).any (fun i => bitAt v i && !bitAt (s.mb m).noteMask i)
  match s.mbWorld m with
  | some w => if open1 then s1.msix w (s.mb m).vec else s1
  | none => s1

/-- MB_NOTE. -/
def execMbNote (m : Nat) (bits : BitVec 16) (s : State) : Result :=
  .next (if s.mbPartner m = 0 then s else s.mbNoteSet m bits.toNat)

/-- A host write of MB_MSG_i: discarded with COLLIDE while the registers belong to the partner (R279). -/
def State.mbMsgSet (s : State) (fn : World) (m i : Nat) (v : W64) : State :=
  if i < 8 then
    s.mbHost fn m (0x40 + 8 * i) (fun t => t.modMb m (fun x =>
      if x.req ≠ 0 ∨ x.ackValid then { x with collide := true } else { x with msg := Tbl.put 0 x.msg i v }))
  else s

/-- MB_MSG_WRITE. -/
def execMbMsgWrite (fn : World) (m i : Nat) (v : W64) (s : State) : Result := .next (s.mbMsgSet fn m i v)

/-- The word at an offset of a mailbox block (R277, R278). -/
def State.mbWord (s : State) (m off : Nat) : Nat :=
  let x := s.mb m
  let flash := match s.mbWorld m with
    | some w => s.flashMb w = some m
    | none => false
  match off with
  | 0x00 => x.req + x.note * 65536
  | 0x04 => x.reqMask + x.noteMask * 65536
  | 0x08 => x.ackCode + x.ackBit * 65536 + bnat x.ackValid * 2 ^ 31
  | 0x0C => s.mbPartner m + 4 * bnat flash + 8 * bnat x.collide
  | 0x10 => x.vec
  | _ =>
    if 0x40 ≤ off ∧ off < 0x80 then
      let v := (Tbl.get 0 x.msg ((off - 0x40) / 8)).toNat
      if off % 8 = 0 then v % 2 ^ 32 else v / 2 ^ 32
    else 0

/-- The word that a 32-bit host read of the mailbox region returns. -/
def State.mbRead (s : State) (fn : World) (off : Nat) : Nat :=
  let m := (off - 0x200000) / 256
  if s.mbWorld m = some fn && s.mbPartner m ≠ 0 then s.mbWord m (off % 256) else 0

/-- A 32-bit host write to the mailbox region, message registers apart. -/
def State.mbWrite (s : State) (fn : World) (off : Nat) (v : W32) : State :=
  let m := (off - 0x200000) / 256
  match off % 256 with
  | 0x00 => s.mbDbWrite fn m v.toNat
  | 0x04 => s.mbHost fn m 4 (fun t => t.modMb m (fun x => { x with noteMask := v.toNat / 65536 }))
  | 0x08 => s.mbAckWrite fn m v.toNat
  | 0x0C => s.mbHost fn m 12 (fun t => t.modMb m (fun x => { x with collide := x.collide && !bitAt v.toNat 3 }))
  | 0x10 => s.mbHost fn m 16 (fun t => t.modMb m (fun x => { x with vec := v.toNat % 65536 }))
  | _ => s

/-- The KERNEL mailbox whose partner block holds an address of a world (R502). -/
def State.mbBlockAt (s : State) (w : World) (a : Nat) : Option Nat :=
  (List.range 16).find? (fun m =>
    let b := Tbl.get 0 s.img.mbAddr m
    s.mbWorld m = some w && s.mbPartner m = 1 && b ≤ a && a < b + 256)

/-- Whether an access of n bytes at an offset of a partner block is neither an aligned one of 32 bits nor one of whole, aligned 64-bit
words: narrower than 32 bits, or not aligned to its own size (R10; log 115). -/
def mbMisaligned (off n : Nat) : Bool := !((n = 4 && off % 4 = 0) || (n % 8 = 0 && off % 8 = 0))

/-- A supervisor's access to a partner block that R10 refuses is reported, with the register's BAR0 offset (log 115). -/
def State.mbPartnerFault (s : State) (m off n : Nat) : State :=
  if mbMisaligned off n then s.report (faultMsg 107 m 0x05 (0x200000 + 256 * m + off) (s.mbWorld m) false) else s

/-- What the supervisor reads in a partner block: n bytes at an offset, 0 where R10 refuses the access (R10, R277, R502; log 19). -/
def State.mbPartnerRead (s : State) (m off n : Nat) : List Byte :=
  if mbMisaligned off n then List.replicate n 0
  else slice ((List.range 64).flatMap (fun i => leBytes 4 (s.mbWord m (4 * i)))) off n

/-- What a supervisor's store of 32 bits to a partner block does: NOTE, REQ_MASK, an acknowledge, or half of a message register, of
which the low word is held until the high word is stored; other stores have no effect (R11, R278, R279; log 19). -/
def State.mbPartnerWord (s : State) (m off v : Nat) : State :=
  match off with
  | 0x00 => s.mbNoteSet m (v / 65536 % 65536)
  | 0x04 => s.modMb m (fun x => { x with reqMask := v % 65536 })
  | 0x08 => s.mbAck m (v % 65536) (v / 65536 % 16) []
  | _ =>
    let i := (off - 0x40) / 8
    let whole := fun (x : Mailbox) => BitVec.ofNat 64 ((Tbl.get 0 x.partnerLow i).toNat + v % 2 ^ 32 * 2 ^ 32)
    if 0x40 ≤ off ∧ off < 0x80 then
      if off % 8 = 0 then s.modMb m (fun x => { x with partnerLow := Tbl.put 0 x.partnerLow i (BitVec.ofNat 32 v) })
      else s.modMb m (fun x => { x with msg := Tbl.put 0 x.msg i (whole x) })
    else s

/-- What a supervisor's store of 64 bits to a partner block does: it takes a message register whole, and elsewhere acts as its two
words (R11, R278, R279; log 19). -/
def State.mbPartnerLong (s : State) (m off v : Nat) : State :=
  if 0x40 ≤ off ∧ off < 0x80 then
    s.modMb m (fun x => { x with msg := Tbl.put 0 x.msg ((off - 0x40) / 8) (BitVec.ofNat 64 v) })
  else (s.mbPartnerWord m off (v % 2 ^ 32)).mbPartnerWord m (off + 4) (v / 2 ^ 32)

/-- What a supervisor's store to a partner block does: a word, or its 64-bit words in ascending order; one that R10 refuses is
discarded and reported (R10, R11, R278, R279; logs 19 and 115). -/
def State.mbPartnerWrite (s : State) (m off : Nat) (data : List Byte) : State :=
  if mbMisaligned off data.length then s.mbPartnerFault m off data.length
  else if data.length = 4 then s.mbPartnerWord m off (leNat data)
  else (List.range (data.length / 8)).foldl (fun t i => t.mbPartnerLong m (off + 8 * i) (leNat (slice data (8 * i) 8))) s

end Sys2Proof.Machine
end

