-- ==== Sys2Proof/Machine/Exceptions.lean ====
section
/-! DEFINITION. Taking an exception and returning from one, gates and visits, and the retirement of an instruction (R116 to R120,
R137 to R150, R164, R171 to R202). -/
namespace Sys2Proof.Machine

/-! ### The running level and world (R125, R173) -/

/-- Whether a context runs at supervisor level. -/
def Ctx.super1 (x : Ctx) : Bool := bitAt x.st.toNat 2

/-- The world that is running. -/
def Ctx.world (x : Ctx) : World := World.ofBit (bitAt x.st.toNat 3)

/-- A save set by the level that is running: user, supervisor, or gate during a visit. -/
inductive SetName where
  | user
  | super
  | gate
  deriving DecidableEq, Repr

/-- The save set of the running level (R124). -/
def Ctx.setName (x : Ctx) : SetName := if !x.super1 then .user else if x.visit.isSome then .gate else .super

/-- A save set. -/
def Ctx.save (x : Ctx) : SetName → SaveSet
  | .user => x.user
  | .super => x.super
  | .gate => x.gate

/-- The context with a save set replaced. -/
def Ctx.setSave (x : Ctx) (n : SetName) (v : SaveSet) : Ctx :=
  match n with
  | .user => { x with user := v }
  | .super => { x with super := v }
  | .gate => { x with gate := v }

/-- Fields of sv_x (R174). -/
def SaveSet.code (v : SaveSet) : Nat := bits v.x.toNat 0 8
def SaveSet.live (v : SaveSet) : Bool := bitAt v.x.toNat 16
def SaveSet.shadow (v : SaveSet) : Bool := bitAt v.x.toNat 21
def SaveSet.action (v : SaveSet) : Nat := bits v.x.toNat 22 2

/-- The value of a general register; g0 reads 0 (R121). -/
def Ctx.g (x : Ctx) (r : Reg) : W64 := if r = 0 then 0 else Tbl.get 0 x.regs r.val

/-- The context with a general register written; a write of g0 is discarded. -/
def Ctx.setG (x : Ctx) (r : Reg) (v : W64) : Ctx := if r = 0 then x else { x with regs := Tbl.put 0 x.regs r.val v }

/-- The context with a list of register writes done in order. -/
def Ctx.setAll (x : Ctx) (l : List (Reg × W64)) : Ctx := l.foldl (fun y p => y.setG p.1 p.2) x

/-- The context with its delayed results written (R138). -/
def Ctx.flush (x : Ctx) : Ctx := { x.setAll x.delayed with delayed := [] }

/-! ### Exceptions (R171 to R177) -/

/-- An exception with its detail; `item` is what the Fault Collector records of a world violation. -/
structure Exc where
  code : Nat
  info : Nat := 0
  addr : Nat := 0
  fetch : Bool := false
  write : Bool := false
  refused : Bool := false
  multi : Bool := false
  item : Nat := 0
  /-- A resident program reaches a host window page: no exception, its CCW ends (R229). -/
  reach : Bool := false
  deriving DecidableEq, Repr

/-- The exceptions that need no detail. -/
def excIllegal : Exc := { code := 1 }
def excOperand (r : Reg) : Exc := { code := 2, info := r.val }
def excAlign (a : Nat) : Exc := { code := 4, addr := a }

/-- sv_x as an entry writes it (R174, R175, R185). -/
def Exc.svx (e : Exc) (info : Nat) (shadow : Bool) : W64 :=
  BitVec.ofNat 64 (e.code + info % 256 * 2 ^ 8 + 2 ^ 16 + bnat e.refused * 2 ^ 17 + bnat e.multi * 2 ^ 18 + bnat e.fetch * 2 ^ 19
    + bnat e.write * 2 ^ 20 + bnat shadow * 2 ^ 21 + e.addr % 2 ^ 38 * 2 ^ 26)

/-- The attribute of a region of a world at an address; none elsewhere. -/
def State.attrAt (s : State) (w : World) (a : Nat) : Option Nat :=
  match s.place a with
  | .region x attr => if x = w then some attr else none
  | _ => none

/-- The read of a vector entry of a world, checked as every read of Pantry (R176, R178, R345): the entry, and what the check leaves.
One that is uncorrectable gives no usable vector (log 118). -/
def State.vectorRead (s : State) (w : World) (code : Nat) : Nat × State :=
  if (s.wcfg w).kernel then
    let a := (s.wcfg w).vbase + 8 * code
    let r := s.pnCheck a 8
    (if r.1 then leNat (s.pnBytes a 8) else 0, r.2)
  else (0, s)

/-- A vector entry of a world; 0 where it is uncorrectable. -/
def State.vectorWord (s : State) (w : World) (code : Nat) : Nat := (s.vectorRead w code).1

/-- The address of a vector for a target level, if it is usable (R176). -/
def State.vectorAddr (s : State) (w : World) (code : Nat) (super : Bool) : Option Nat :=
  let v := s.vectorWord w code
  let a := v / 4 * 4
  if v = 0 || (bitAt v 0 && !(code = 4 || code = 9 || code = 0xA)) then none
  else if s.attrAt w a = some (if super then 3 else 2) then some a else none

/-- A context goes to ERROR with its program's end HANDLER_FAULT (R177, R184). -/
def State.contextError (s : State) (c unit : Nat) : State :=
  match (s.ctx c).act with
  | some a => s.ccwFinish c { status := 0xF, unit := unit, portDone := a.portDone, chanDone := a.channelDone, error := true }
  | none => s.ccwFinish c { status := 0xF, unit := unit, portDone := false, chanDone := false, error := true }

/-- A nested fault (R177). -/
def State.nestedFault (s : State) (c code : Nat) : State :=
  let w := (s.ctx c).world
  ((s.modHt w (fun h => { h with nested := satInc32 h.nested })).report (s.hearthMsg c 0x07 code w) (some c)).contextError c code

/-- What the counters and the Fault Collector take of an exception (R119, R155, R208, R231). -/
def State.excNote (s : State) (c : Nat) (e : Exc) : State :=
  let w := (s.ctx c).world
  if e.code = 6 then
    (s.modHt w (fun h => { h with viol := satInc32 h.viol })).report (s.hearthMsg c 0x04 (if e.addr ≠ 0 then e.addr else e.item) w) (some c)
  else if e.code = 0xD then s.modHt w (fun h => { h with lockOrd := satInc32 h.lockOrd })
  else if e.code = 0xB && e.refused then s.modHt w (fun h => { h with refused := satInc32 h.refused })
  else s

/-- Control passes to the vector of an exception, or the exception is a nested fault (R176). -/
def State.toVector (s : State) (c : Nat) (e : Exc) (super : Bool) (x : Ctx) : State :=
  let w := (s.ctx c).world
  match s.vectorAddr w e.code super with
  | some a => s.setCtx c { x with pc := BitVec.ofNat 64 a, branch := none, rep := false, shadow := super }
  | none => (s.report (s.hearthMsg c 0x08 e.code w) (some c)).nestedFault c e.code

/-- Taking an exception, with the address that sv_pc names and whether it was taken in a delay slot (R142, R175, R185). -/
def State.takeExc (s : State) (c : Nat) (e : Exc) (pc : W64) (ds : Bool) : State :=
  let s0 := (((s.modCtx c Ctx.flush).vectorRead (s.ctx c).world e.code).2).excNote c e
  let x := s0.ctx c
  let usr := bitAt (s0.vectorWord x.world e.code) 0
  let toUser := !x.super1 && x.visit.isNone && usr && !x.user.live
  let n := if toUser then SetName.user else if x.visit.isSome then .gate else .super
  let v := x.save n
  if v.live then
    if x.shadow && !v.shadow then
      s0.toVector c e true (x.setSave n { v with x := e.svx v.code true })
    else s0.nestedFault c e.code
  else
    let st := x.st.toNat
    let y := x.setSave n { pc := pc, st := BitVec.ofNat 64 (st % 2 ^ 15 + bnat ds * 32), x := e.svx e.info false }
    s0.toVector c e (!toUser) { y with st := BitVec.ofNat 64 (bnat (!toUser) * 4 + bits st 3 1 * 8) }

/-! ### Late bus errors (R188 to R190) -/

/-- The exception of a pending late bus error. -/
def AsyncErr.exc (a : AsyncErr) : Exc := { code := 0xE, info := a.reason, addr := a.addr, multi := a.multi }

/-- A pending late bus error may be delivered now: at user level, at a boundary that R186 allows. -/
def Ctx.asyncDue (x : Ctx) : Bool :=
  x.state = .running && x.act.isSome && x.asyncErr.isSome && !x.super1 && x.interruptible && x.due.isNone
    && x.answer = .none

/-- Deliver a pending late bus error at an instruction. -/
def State.asyncTake (s : State) (c : Nat) : State :=
  match (s.ctx c).asyncErr with
  | some a => (s.modCtx c (fun x => { x with asyncErr := none })).takeExc c a.exc (s.ctx c).pc false
  | none => s

/-- ASYNC_BUS_ERROR: the delivery of a pending late bus error (R188). -/
def execAsyncBusError (c : Nat) (s : State) : Result :=
  .next (if (s.ctx c).asyncDue && s.issues (s.home c) then s.asyncTake c else s)

/-! ### Instructions (R117 to R120, R137 to R150, R164, R186, R191 to R194) -/

/-- What an instruction leaves when it retires. -/
structure Ret where
  /-- Registers written at once, and by the next retirement. -/
  writes : List (Reg × W64) := []
  late : List (Reg × W64) := []
  /-- Of a branch: where control goes after the delay slot. -/
  branch : Option W64 := none
  /-- Where control goes next, if not on. -/
  goto : Option W64 := none
  /-- A block instruction interrupted between elements: pc stays. -/
  stay : Bool := false
  /-- The instructions that it counts in an open window (R191). -/
  count : Nat := 1
  yield : Bool := false
  /-- REP begins: the next command is a repetition (R148). -/
  startRep : Bool := false
  deriving DecidableEq, Repr

/-- How an instruction ends: an exception, a wait, retirement, or the end of its activation. -/
inductive IStep where
  | exc (e : Exc) (s : State)
  | wait (w : Wait) (s : State)
  | retire (r : Ret) (s : State)
  | ended (s : State)

/-- Where an instruction may not stand (R141, R145, R149). -/
structure Place1 where
  noSlot : Bool := false
  noLe : Bool := false
  noRep : Bool := false
  deriving DecidableEq, Repr

/-- An instruction without restriction, one that may not be repeated, and one that transfers control. -/
def anyPlace : Place1 := {}
def norepPlace : Place1 := { noRep := true }
def blockPlace : Place1 := { noSlot := true, noRep := true }
def flowPlace : Place1 := { noSlot := true, noLe := true, noRep := true }

/-- A denied access as an exception (R133, R180). -/
def denyExc (d : Deny) (a : Nat) (k : AccKind) : Exc :=
  let e : Exc := { code := 5, addr := a, fetch := k = .fetch, write := k = .write }
  match d with
  | .address => e
  | .world => { e with code := 6 }
  | .privileged => { e with code := 3 }

/-- What stops a resident program's handler at a host window page (R229). -/
def reachExc (a : Nat) (k : AccKind) : Exc := { code := 5, addr := a, write := k = .write, reach := true }

/-- The exception of an access to n bytes from an effective address, n at most a block of rights and within it. -/
def State.accessExc (s : State) (c : Nat) (k : AccKind) (ea : Nat) : Option Exc :=
  let x := s.ctx c
  if 2 ^ 38 ≤ ea then some { code := 5, addr := ea, fetch := k = .fetch, write := k = .write }
  else if s.isResident c && s.inPageOf x.world ea && decide (k ≠ .fetch) then some (reachExc ea k)
  else (s.deny x.world x.super1 k ea).map (fun d => denyExc d ea k)

/-- The fetch of the instruction at an address (R133, R172); one that is not 4-byte aligned raises ALIGN (R119, R128, log 26). -/
def State.fetchExc (s : State) (c : Nat) (a : Nat) : Option Exc × State :=
  match s.accessExc c .fetch a with
  | some e => (some e, s)
  | none =>
    if a % 4 ≠ 0 then (some { code := 4, addr := a, fetch := true }, s) else
    let r := s.pnCheck a 4
    (if r.1 then none else some { code := 7, addr := a, fetch := true }, r.2)

/-- st with an open window counted down by n retired instructions (R191). -/
def windowAfter (st n : Nat) : Nat :=
  let k := bits st 8 7
  if k ≤ n then st - k * 256 - bits st 4 1 * 16 else st - n * 256

/-- The next address after the instruction at `pc` retires, with the loop-back decision (R144). -/
def Ctx.seqNext (x : Ctx) (pc : W64) : Ctx :=
  if x.lc ≠ 0 ∧ pc = x.le then
    if 1 < x.lc then { x with lc := x.lc - 1, pc := x.ls } else { x with lc := 0, pc := x.le + 4 }
  else { x with pc := pc + 4 }

/-- The program counter after a retirement: repetitions, delay slots, transfers and loops (R139, R144, R148). -/
def Ctx.advance (x : Ctx) (r : Ret) : Ctx :=
  if r.stay then x
  else if r.startRep then { x with rep := true }
  else if x.rep then
    if x.rc ≤ 1 then ({ x with rc := 0, rep := false }).seqNext (x.pc + 4) else { x with rc := x.rc - 1 }
  else match r.branch with
  | some t => { x with branch := some (x.pc, t), pc := x.pc + 4 }
  | none =>
    match x.branch, r.goto with
    | some (_, t), _ => { x with branch := none, pc := t }
    | none, some t => { x with pc := t }
    | none, none => x.seqNext x.pc

/-- What a retirement counts in an open window: a REP counts when its last repetition has retired, or with rc 0 at once (R191). -/
def Ctx.windowCount (x : Ctx) (r : Ret) : Nat :=
  if r.startRep then 0 else if x.rep && decide (x.rc ≤ 1) then r.count + 1 else r.count

/-- The instructions that a retirement counts: none where REP begins, two with the last repetition (R148, R191). -/
def Ctx.retireCount (x : Ctx) (r : Ret) : Nat := if r.startRep then 0 else Nat.max 1 (x.windowCount r)

/-- The context after its instruction retires: its results, the delayed results of the one before, the window, and pc. A block
instruction that is interrupted between elements has not retired and leaves those results pending (log 116). The shadow of an entry ends
with the retirement, that of a REP before its repetitions (R185; log 142). -/
def Ctx.retire (x : Ctx) (r : Ret) : Ctx :=
  let y := if r.stay then x.setAll r.writes else (x.setAll r.writes).flush
  let z := { y with
    delayed := if r.stay then x.delayed else r.late, st := BitVec.ofNat 64 (windowAfter y.st.toNat (if r.yield then 127 else x.windowCount r)), retired := y.retired + x.retireCount r
    shadow := y.shadow && r.stay }
  z.advance r

/-- What takes effect at the boundary after a retirement: an end that is due, or a late bus error and the loss of the slot (R164,
R188, R194). -/
def State.afterRetire (s : State) (c : Nat) : State :=
  if (s.ctx c).due.isSome && (s.ctx c).interruptible then s.dueEnd c
  else
    let s1 := if (s.ctx c).asyncDue then s.asyncTake c else s
    let x := s1.ctx c
    if x.slotDue && x.interruptible && x.state = .running && x.act.isSome then s1.makeReady c else s1

/-- An instruction that ends in an exception: it is taken, unless a resident program reached a host window page: then its CCW ends with
PROTECTION_CHECK, reason ADDRESS (R229). -/
def State.raise (s : State) (c : Nat) (e : Exc) (pc : W64) (ds : Bool) : State :=
  if e.reach then (s.report (s.hearthMsg c 0x04 e.addr (s.ctx c).world) (some c)).ccwStop c 5 3 else s.takeExc c e pc ds

/-- The elements of a block instruction that are done when one raises an exception count as retired instructions (R152, R191). -/
def blockExc (c done : Nat) (e : Exc) (s : State) : IStep :=
  if done = 0 then .exc e s
  else .exc e ((s.countWorld (s.home c) 6 done).modCtx c (fun x => { x with
    st := BitVec.ofNat 64 (windowAfter x.st.toNat done), retired := x.retired + done }))

/-- The elements of a block instruction before an interruption: where an open window holds one back, no more than the window still
has (R152, R191, R194). -/
def Ctx.elements (x : Ctx) (limit : Nat) : Nat :=
  if bitAt x.st.toNat 4 && (x.due.isSome || x.slotDue || (x.asyncErr.isSome && !x.super1)) then Nat.min limit (bits x.st.toNat 8 7)
  else limit

/-- A context gives up its slot to wait; an open window closes (R118, R192). -/
def State.enterWait (s : State) (c : Nat) (w : Wait) : State :=
  let s1 := s.modCtx c (fun x => { x with
    state := .waiting, wait := w, waitSince := s.now, st := BitVec.ofNat 64 (windowAfter x.st.toNat 127) })
  if (s.ctx c).due.isSome then s1.dueEnd c else s1

/-- An instruction of a running activation: the fetch, its place, its operation, and its end. -/
def State.instr (s : State) (c : Nat) (p : Place1) (f : State → Ctx → IStep) : State :=
  let x := s.ctx c
  if x.state ≠ .running || x.act.isNone || (x.rep && p.noRep) || !s.issues (s.home c) then s
  else if x.asyncDue then s.asyncTake c
  else
    let a := if x.rep then x.pc + 4 else x.pc
    let at1 := match x.branch with
      | some (b, _) => b
      | none => x.pc
    let ds := x.branch.isSome
    match s.fetchExc c a.toNat with
    | (some e, s1) => s1.takeExc c e at1 ds
    | (none, s1) =>
      if (ds && p.noSlot) || (x.lc ≠ 0 && a = x.le && !x.rep && (p.noLe || ds)) then s1.takeExc c excIllegal at1 ds
      else match f s1 x with
      | .exc e s2 => s2.raise c e at1 ds
      | .wait w s2 => s2.enterWait c w
      | .ended s2 => s2.countWorld (s.home c) 6 1
      | .retire r s2 =>
        let s3 := ((s2.countWorld (s.home c) 6 (x.retireCount r)).modCtx c (fun y => y.retire r)).afterRetire c
        if r.yield && (s3.ctx c).state = .running && (s3.ctx c).act.isSome then s3.makeReady c else s3

/-! ### Gates (R195 to R199) -/

/-- The frame that a cross gate writes (R199). -/
def Ctx.frame (x : Ctx) (n : Nat) : List Byte :=
  (List.range 24).flatMap (fun i => leBytes 8 (Tbl.get 0 x.regs (8 + i)).toNat) ++ leBytes 4 x.lc ++ leBytes 4 x.rc
    ++ leBytes 8 x.ls.toNat ++ leBytes 8 x.le.toNat ++ leBytes 8 x.st.toNat ++ leBytes 8 (x.pc + 4).toNat ++ leBytes 1 n
    ++ List.replicate 23 0

/-- A registers table with g8 to g31 replaced. -/
def highRegs (regs : Tbl W64) (f : Nat → W64) : Tbl W64 :=
  (List.range 24).foldl (fun t i => Tbl.put 0 t (8 + i) (f i)) regs

/-- A pending late bus error found at a gate or a FENCE: it is delivered there (R188, R190). -/
def State.asyncAt (s : State) (c : Nat) : Option Exc × State :=
  match (s.ctx c).asyncErr with
  | some a => (some a.exc, s.modCtx c (fun x => { x with asyncErr := none }))
  | none => (none, s)

/-- Entry into the other world through a cross gate (R198). -/
def State.crossGate (s : State) (c n entry : Nat) : IStep :=
  match (s.issueStores c).asyncAt c with
  | (some e, s1) => .exc e s1
  | (none, s1) =>
    let x := (s1.ctx c).flush
    let w := s.home c
    let fa := (s.wcfg w).frameBase + 256 * c
    match s1.denyAll w true .write fa 256 with
    | some _ => .exc { code := 5, addr := fa, write := true } s1
    | none =>
      let o := w.other
      let s2 := (s1.placeBytes c w fa (x.frame n)).setCtx c { x with
        visit := some { frame := fa, callerSuper := x.super1, callerWorld := w }
        regs := highRegs x.regs (fun _ => 0), lc := 0, ls := 0, le := 0, rc := 0
        gate := { pc := 0, st := BitVec.ofNat 64 (bits x.st.toNat 2 2 * 4), x := ({ code := 0xB } : Exc).svx n false }
        st := BitVec.ofNat 64 (4 + 8 * o.bit), pc := BitVec.ofNat 64 ((s.wcfg o).kernelAddr + 4 * entry)
        shadow := true, retired := x.retired + 1 }
      .ended s2

/-- TRAP n by the gate table of the world that is running (R195, R196). -/
def State.trap (s : State) (c n : Nat) : IStep :=
  let x := s.ctx c
  let g := Tbl.get 0 (s.wcfg x.world).gates n
  let from1 := if x.super1 then bitAt g 3 else bitAt g 2
  let o := x.world.other
  let open1 := (s.wcfg o).kernel && !(s.fc.graniteHalt && o = .granite)
  if g % 4 = 1 && from1 then .exc { code := 0xB, info := n } s
  else if g % 4 = 2 && from1 && x.visit.isNone && open1 then s.crossGate c n (bits g 8 24)
  else .exc { code := 0xB, info := n, refused := true } s

/-! ### RETX (R183, R184, R200) -/

/-- The check of the saved status at RETX (R183, step 1). -/
def State.retxStatusBad (s : State) (v : SaveSet) : Bool :=
  let st := v.st.toNat
  let ni := bitAt st 4
  let nic := bits st 8 7
  (ni && nic = 0) || (!ni && nic ≠ 0) || (s.wcfg (World.ofBit (bitAt st 3))).niMax < nic || bits st 6 2 ≠ 0 || st / 2 ^ 15 ≠ 0

/-- The end of a visit: the caller's registers return from the frame (R200). -/
def State.visitReturn (s : State) (c : Nat) (v : Visit) : IStep :=
  match (s.issueStores c).asyncAt c with
  | (some e, s1) => .exc e s1
  | (none, s1) =>
    match s1.readBytes v.callerWorld true v.frame 256 with
    | (d, .done, s2) =>
      let s3 := s2.visitLocksEnd c
      let st := fieldAt d 216 8 % 4 + bnat v.callerSuper * 4 + v.callerWorld.bit * 8
      .ended ((s3.modCtx c (fun x0 =>
        let x := x0.flush
        { x with
          regs := highRegs x.regs (fun i => BitVec.ofNat 64 (fieldAt d (8 * i) 8)), lc := fieldAt d 192 4, rc := fieldAt d 196 4
          ls := BitVec.ofNat 64 (fieldAt d 200 8), le := BitVec.ofNat 64 (fieldAt d 208 8), st := BitVec.ofNat 64 st
          pc := BitVec.ofNat 64 (fieldAt d 224 8), gate := {}, visit := none, shadow := false, retired := x.retired + 1
          })).afterRetire c)
    | (_, .denied _, s2) => .exc { code := 5, addr := v.frame } s2
    | (_, .busError, s2) => .exc { code := 8, addr := v.frame } s2
    | (_, _, s2) => .exc { code := 7, addr := s1.eccAt v.frame 256 } s2

/-- RETX that loads pc and st from the save set. -/
def retxLoad (v : SaveSet) (s : State) (c : Nat) : IStep :=
  if v.pc.toNat % 4 ≠ 0 then .exc (excAlign (v.pc.toNat % 2 ^ 38)) s
  else .retire { goto := some v.pc, count := 0 } (s.modCtx c (fun x => { x with st := BitVec.ofNat 64 (v.st.toNat - bits v.st.toNat 5 1 * 32) }))

/-- END_CONTEXT (R184). -/
def State.endContext (s : State) (c code : Nat) : State :=
  (s.report (s.hearthMsg c 0x1C code (s.ctx c).world) (some c)).contextError c code

/-- RETX (R183, R184). -/
def State.retx (s : State) (c : Nat) : IStep :=
  let x := s.ctx c
  let v := x.save x.setName
  let lvl := bitAt v.st.toNat 2
  let wld := World.ofBit (bitAt v.st.toNat 3)
  if s.retxStatusBad v then .exc { code := 2, info := 7 } s
  else if v.action = 3 then .exc { code := 2, info := 8 } s
  else if v.action = 1 then .ended (s.ccwStop c 0xF v.code)
  else if v.action = 2 then .ended (s.endContext c v.code)
  else match x.visit, x.super1 with
  | some u, true =>
    if lvl && wld = x.world then retxLoad v s c
    else if lvl = u.callerSuper && wld = u.callerWorld then s.visitReturn c u
    else .exc { code := 6 } s
  | _, true => if wld = s.home c then retxLoad v s c else .exc { code := 6 } s
  | _, false => if lvl then .exc { code := 3 } s else if wld = s.home c then retxLoad v s c else .exc { code := 6 } s

end Sys2Proof.Machine
end

