-- ==== Sys2Proof/Machine/Flags.lean ====
section
/-! DEFINITION. Overflow, division and relations of 64-bit values, as the arithmetic instructions define them (R130, R131). The
Hearth has no flag register: what other machines hold in flags, these decide on the spot. -/
namespace Sys2Proof.Machine

/-- Whether an exact signed result lies outside 64 bits (R131). -/
def overflows (v : Int) : Bool := v < -9223372036854775808 || 9223372036854775807 < v

/-- What R131 finds at an arithmetic instruction: its wrapped result, and whether OVERFLOW and DIVIDE_ZERO apply. -/
structure Arith where
  value : W64
  ovf : Bool := false
  zero : Bool := false
  deriving DecidableEq, Repr

/-- An exact result, wrapped, with its overflow. -/
def arith (v : Int) : Arith := { value := BitVec.ofInt 64 v, ovf := overflows v }

def addA (a b : W64) : Arith := arith (a.toInt + b.toInt)
def subA (a b : W64) : Arith := arith (a.toInt - b.toInt)
def mulA (a b : W64) : Arith := arith (a.toInt * b.toInt)

/-- The quotient rounded toward zero; all ones for a divisor of 0. -/
def divA (a b : W64) : Arith := if b = 0 then { value := BitVec.allOnes 64, zero := true } else arith (a.toInt.tdiv b.toInt)

/-- The remainder, with the sign of the dividend; the dividend for a divisor of 0. -/
def remA (a b : W64) : Arith := if b = 0 then { value := a, zero := true } else { value := BitVec.ofInt 64 (a.toInt.tmod b.toInt) }

def divuA (a b : W64) : Arith :=
  if b = 0 then { value := BitVec.allOnes 64, zero := true } else { value := BitVec.ofNat 64 (a.toNat / b.toNat) }
def remuA (a b : W64) : Arith := if b = 0 then { value := a, zero := true } else { value := BitVec.ofNat 64 (a.toNat % b.toNat) }

/-- 1 or 0. -/
def bit64 (b : Bool) : W64 := if b then 1 else 0

/-- The half-range question: whether a is before b (R130). -/
def before32 (a b : W64) : Bool := 2 ^ 31 ≤ (a.toNat % 2 ^ 32 + 2 ^ 32 - b.toNat % 2 ^ 32) % 2 ^ 32

/-- The number of leading zero bits. -/
def clz64 (a : W64) : Nat := ((List.range 64).find? (fun i => a.getLsbD (63 - i))).getD 64

/-- The number of one bits. -/
def popc64 (a : W64) : Nat := ((List.range 64).filter (fun i => a.getLsbD i)).length

/-- The eight bytes reversed. -/
def bswap64 (a : W64) : W64 := BitVec.ofNat 64 (leNat (leBytes 8 a.toNat).reverse)

/-- An integer saturated at the limits of s64 (R166). -/
def sat64 (v : Int) : Int :=
  if v < -9223372036854775808 then -9223372036854775808 else if 9223372036854775807 < v then 9223372036854775807 else v

end Sys2Proof.Machine
end

