-- ==== Sys2Proof/Machine/Operands.lean ====
section
/-! DEFINITION. The operand forms of the Hearth instructions: register results, effective addresses, accesses of one word, port,
drive and lock references (R128, R133 to R137, R155, R159, R220). -/
namespace Sys2Proof.Machine

/-! ### Results -/

/-- Retire with one register written. -/
def retireW (s : State) (rd : Reg) (v : W64) : IStep := .retire { writes := [(rd, v)] } s

/-- Retire with one delayed result (R137). -/
def retireD (s : State) (rd : Reg) (v : W64) : IStep := .retire { late := [(rd, v)] } s

/-- Raise ILLEGAL_INSTRUCTION unless a condition holds. -/
def legal (ok : Bool) (s : State) (k : IStep) : IStep := if ok then k else .exc excIllegal s

/-- The result of an arithmetic instruction under st.OVE and st.DZE (R131, R172). -/
def arithStep (s : State) (x : Ctx) (rd : Reg) (r : Arith) : IStep :=
  if r.ovf && bitAt x.st.toNat 0 then .exc { code := 9 } s
  else if r.zero && bitAt x.st.toNat 1 then .exc { code := 0xA } s
  else retireW s rd r.value

/-- Sign extension of an immediate. -/
def sext64 {n : Nat} (v : BitVec n) : W64 := v.signExtend 64

/-! ### Effective addresses (R134, R135) -/

/-- The address of a memory instruction, and the base register's new value, or ILLEGAL_INSTRUCTION. -/
def memEa (f : FmtM) (x : Ctx) (size : Nat) (load : Bool) : Option (W64 × List (Reg × W64)) :=
  let a := x.g f.ra
  let z := BitVec.ofNat 64 size
  match f.mode.toNat with
  | 0 => some (a + sext64 f.low, [])
  | 1 => if f.low ≠ 0 ∨ f.ra = 0 ∨ (load ∧ f.rd = f.ra) then none else some (a, [(f.ra, a + z)])
  | 2 => if f.low ≠ 0 ∨ f.ra = 0 ∨ (load ∧ f.rd = f.ra) then none else some (a - z, [(f.ra, a - z)])
  | _ =>
    let v := f.low.toNat
    if bits v 0 7 ≠ 0 then none
    else some (a + (x.g (Fin.ofNat 32 (bits v 9 5)) <<< bits v 7 2), [])

/-! ### Accesses (R133, R135, R136, R172, R502) -/

/-- The exception of a read that its memory does not answer (R119). -/
def readExc (a : Nat) : XferStop → Option Exc
  | .done => none
  | .denied d => some (denyExc d a .read)
  | .ecc => some { code := 7, addr := a }
  | .busError => some { code := 8, addr := a }

/-- The parts of an access at the edges of 256-byte blocks, each with its address and length (R502). -/
def blockParts (a n : Nat) : List (Nat × Nat) :=
  if n = 0 then []
  else (List.range ((a + n - 1) / 256 - a / 256 + 1)).map (fun i =>
    let lo := Nat.max a (256 * (a / 256 + i))
    (lo, Nat.min (a + n) (256 * (a / 256 + i + 1)) - lo))

/-- Whether an access of the running level reaches a partner block of one of its mailboxes (R502). -/
def State.meetsPartner (s : State) (x : Ctx) (a n : Nat) : Bool :=
  x.super1 && (blockParts a n).any (fun p => (s.mbBlockAt x.world p.1).isSome)

/-- Read n bytes within a block of 256, or outside every partner block, that the rights allow, for the running level: a supervisor
reads the partner blocks of its mailboxes there. -/
def State.hReadPart (s : State) (c : Nat) (a n : Nat) : List Byte × Option Exc × State :=
  let x := s.ctx c
  match (if x.super1 then s.mbBlockAt x.world a else none) with
  | some m =>
    let off := a - Tbl.get 0 s.img.mbAddr m
    (s.mbPartnerRead m off n, none, s.mbPartnerFault m off n)
  | none =>
    let s1 := if windowBase < a + n then s.issueStores c else s
    let r := s1.readBytes x.world x.super1 a n
    let at1 := a + r.1.length
    (r.1, readExc (if r.2.1 = .ecc then s1.eccAt at1 (a + n - at1) else at1) r.2.1, r.2.2)

/-- Read the parts of an access in ascending order, up to the first that raises an exception. -/
def State.hReadParts (c : Nat) : List (Nat × Nat) → State → List Byte × Option Exc × State
  | [], s => ([], none, s)
  | p :: l, s =>
    match s.hReadPart c p.1 p.2 with
    | (d, some e, s1) => (d, some e, s1)
    | (d, none, s1) =>
      let r := State.hReadParts c l s1
      (d ++ r.1, r.2)

/-- Read n bytes that the rights allow, for the running level; an access over an edge of a partner block is read in parts. -/
def State.hRead (s : State) (c : Nat) (a n : Nat) : List Byte × Option Exc × State :=
  if s.meetsPartner (s.ctx c) a n then State.hReadParts c (blockParts a n) s else s.hReadPart c a n

/-- Write bytes that the rights allow, for the running level, within a block of 256 or outside every partner block. -/
def State.hWritePart (s : State) (c : Nat) (a : Nat) (data : List Byte) : State :=
  let x := s.ctx c
  match (if x.super1 then s.mbBlockAt x.world a else none) with
  | some m => s.mbPartnerWrite m (a - Tbl.get 0 s.img.mbAddr m) data
  | none => s.placeBytes c x.world a data

/-- Write bytes that the rights allow, for the running level; an access over an edge of a partner block is written in parts. -/
def State.hWrite (s : State) (c : Nat) (a : Nat) (data : List Byte) : State :=
  if s.meetsPartner (s.ctx c) a data.length then
    (blockParts a data.length).foldl (fun t p => t.hWritePart c p.1 (slice data (p.1 - a) p.2)) s
  else s.hWritePart c a data

/-- Bytes of the running level that can be read without an exception, with no effect; none where they cannot. -/
def State.hPeek (s : State) (c : Nat) (a n : Nat) : Option (List Byte) :=
  match s.hRead c a n with
  | (d, none, _) => some d
  | _ => none

/-- The exception of an access to n bytes that the rights deny: it names the first byte denied (R133, R152, R172). -/
def State.rangeExc (s : State) (c : Nat) (k : AccKind) (a n : Nat) : Option Exc :=
  let x := s.ctx c
  let own := s.isResident c
  let m := Nat.min n ((if own then windowBase else 2 ^ 38) - a)
  match s.allowed x.world x.super1 k (m / 65536 + 2) a m with
  | (j, some d) => some (denyExc d (a + j) k)
  | (j, none) =>
    if n ≤ m then none
    else if own && a + j < 2 ^ 38 then s.accessExc c k (a + j)
    else some { code := 5, addr := a + j, write := k = .write }

/-- An aligned load of `size` bytes (R135). -/
def loadStep (f : FmtM) (c size : Nat) (sx : Bool) (s : State) (x : Ctx) : IStep :=
  match memEa f x size true with
  | none => .exc excIllegal s
  | some (ea, up) =>
    if ea.toNat % size ≠ 0 then .exc (excAlign ea.toNat) s
    else match s.accessExc c .read ea.toNat with
    | some e => .exc e (s.xlatNote ea.toNat)
    | none =>
      match s.hRead c ea.toNat size with
      | (_, some e, s1) => .exc e s1
      | (d, none, s1) =>
        let v := leNat d
        let r := if sx then BitVec.ofInt 64 (signed (8 * size) v) else BitVec.ofNat 64 v
        .retire { writes := up, late := [(f.rd, r)] } s1

/-- An aligned store of the low `size` bytes of rd (R135). -/
def storeStep (f : FmtM) (c size : Nat) (s : State) (x : Ctx) : IStep :=
  match memEa f x size false with
  | none => .exc excIllegal s
  | some (ea, up) =>
    if ea.toNat % size ≠ 0 then .exc (excAlign ea.toNat) s
    else match s.accessExc c .write ea.toNat with
    | some e => .exc e (s.xlatNote ea.toNat)
    | none => .retire { writes := up } (s.hWrite c ea.toNat (leBytes size (x.g f.rd).toNat))

/-! ### References (R155, R159, R220) -/

/-- The attachment that a port reference in a register names, with its target index, or the exception (R155). -/
def State.portRef (s : State) (x : Ctx) (r : Reg) : Except Exc (Nat × Option Nat) :=
  let v := (x.g r).toNat
  if bits v 12 3 ≠ 0 then .error (excOperand r)
  else
    let i := bits v 0 4
    let byTgt := bitAt v 15
    if byTgt ∧ (x.tgtCount ≤ i ∨ x.kind i ≠ 0) then .error (excOperand r)
    else
      let a := if byTgt then x.target i % 4096 else bits v 0 12
      if s.portWorld (a / 16) = some x.world then .ok (a, if byTgt then some i else none)
      else .error { code := 6, info := r.val, item := a }

/-- An instruction on a port reference. -/
def withPort (s : State) (x : Ctx) (r : Reg) (k : Nat → Option Nat → IStep) : IStep :=
  match s.portRef x r with
  | .error e => .exc e s
  | .ok (a, t) => k a t

/-- An instruction on a drive number (R159). -/
def withDrive (s : State) (x : Ctx) (r : Reg) (k : Nat → IStep) : IStep :=
  let n := (x.g r).toNat
  if 63 < n then .exc (excOperand r) s
  else if s.driveWorld n ≠ some x.world then .exc { code := 6, info := r.val, item := n } s
  else k n

/-- The world of a pool (R349). -/
def State.poolWorld (s : State) (p : Nat) : Option World :=
  match Tbl.get none s.img.pools p with
  | some q => (s.img.regions[q.region]?).map (fun r => r.world)
  | none => none

/-- The exception of a lock number (R220). -/
def State.lockExc (s : State) (x : Ctx) (r : Reg) : Option Exc :=
  let n := (x.g r).toNat % 65536
  let viol : Option Exc := some { code := 6, info := r.val, item := n }
  if n < 0x1000 then none
  else if n < 0x1100 then (if s.portWorld (n - 0x1000) = some x.world then none else viol)
  else if n < 0x1140 then (if s.driveWorld (n - 0x1100) = some x.world then none else viol)
  else if 0x1200 ≤ n ∧ n < 0x1240 then
    match s.poolWorld (n - 0x1200) with
    | some w => if w = x.world then none else viol
    | none => some (excOperand r)
  else some (excOperand r)

end Sys2Proof.Machine
end

