-- ==== Sys2Proof/Machine/Mem.lean ====
section
/-! DEFINITION. Loads, stores, LEA, FENCE and the block instructions (R133 to R138, R151, R152). -/
namespace Sys2Proof.Machine

/-- LDB: a load of 1 byte (R135, R137). -/
def execLdb (c : Nat) (f : FmtM) (s : State) (link : LinkResult := .ok) : Result :=
  s.onLink link (fun u => .next (u.instr c norepPlace (loadStep f c 1 false)))

/-- LDH: a load of 2 bytes (R135, R137). -/
def execLdh (c : Nat) (f : FmtM) (s : State) (link : LinkResult := .ok) : Result :=
  s.onLink link (fun u => .next (u.instr c norepPlace (loadStep f c 2 false)))

/-- LDW: a load of 4 bytes (R135, R137). -/
def execLdw (c : Nat) (f : FmtM) (s : State) (link : LinkResult := .ok) : Result :=
  s.onLink link (fun u => .next (u.instr c norepPlace (loadStep f c 4 false)))

/-- LDD: a load of 8 bytes (R135, R137). -/
def execLdd (c : Nat) (f : FmtM) (s : State) (link : LinkResult := .ok) : Result :=
  s.onLink link (fun u => .next (u.instr c norepPlace (loadStep f c 8 false)))

/-- LDBS: a load of 1 byte (R135, R137). -/
def execLdbs (c : Nat) (f : FmtM) (s : State) (link : LinkResult := .ok) : Result :=
  s.onLink link (fun u => .next (u.instr c norepPlace (loadStep f c 1 true)))

/-- LDHS: a load of 2 bytes (R135, R137). -/
def execLdhs (c : Nat) (f : FmtM) (s : State) (link : LinkResult := .ok) : Result :=
  s.onLink link (fun u => .next (u.instr c norepPlace (loadStep f c 2 true)))

/-- LDWS: a load of 4 bytes (R135, R137). -/
def execLdws (c : Nat) (f : FmtM) (s : State) (link : LinkResult := .ok) : Result :=
  s.onLink link (fun u => .next (u.instr c norepPlace (loadStep f c 4 true)))

/-- STB: a store of 1 byte (R135, R136). -/
def execStb (c : Nat) (f : FmtM) (s : State) : Result := .next (s.instr c anyPlace (storeStep f c 1))

/-- STH: a store of 2 bytes (R135, R136). -/
def execSth (c : Nat) (f : FmtM) (s : State) : Result := .next (s.instr c anyPlace (storeStep f c 2))

/-- STW: a store of 4 bytes (R135, R136). -/
def execStw (c : Nat) (f : FmtM) (s : State) : Result := .next (s.instr c anyPlace (storeStep f c 4))

/-- STD: a store of 8 bytes (R135, R136). -/
def execStd (c : Nat) (f : FmtM) (s : State) : Result := .next (s.instr c anyPlace (storeStep f c 8))

/-- LEA: the address of mode 0 or 3 (R135). -/
def execLea (c : Nat) (f : FmtM) (s : State) : Result :=
  .next (s.instr c anyPlace (fun t x =>
    if f.mode.toNat = 1 ∨ f.mode.toNat = 2 then .exc excIllegal t
    else match memEa f x 1 false with
    | none => .exc excIllegal t
    | some (ea, _) => retireW t f.rd ea))

/-- Whether the three register fields of a format A word are 0 (R128). -/
def noRegs (f : FmtA) : Bool := f.rd = 0 && f.ra = 0 && f.rb = 0

/-- FENCE: every buffered store of the context is issued; a late bus error is delivered here (R136, R188). -/
def execFence (c : Nat) (f : FmtA) (s : State) : Result :=
  .next (s.instr c anyPlace (fun t _ => legal (noRegs f) t
    (match (t.issueStores c).asyncAt c with
     | (some e, u) => .exc e u
     | (none, u) => .retire {} u)))

/-! ### Block instructions (R151, R152) -/

/-- The cursors of a block instruction after n bytes: rd, ra unless it is no cursor, and rb. -/
def Ctx.cursors (x : Ctx) (f : FmtA) (moveRa : Bool) (n : Nat) : Ctx :=
  let k := BitVec.ofNat 64 n
  let y := x.setG f.rd (x.g f.rd + k)
  let z := if moveRa then y.setG f.ra (x.g f.ra + k) else y
  z.setG f.rb (x.g f.rb - k)

/-- The bytes of the next element of a copy: at most 64, and none that the element itself would have to write first, so that
the result is that of ascending order (R151, R152). -/
def copyElement (rd ra rb : Nat) : Nat :=
  let k := Nat.min 64 rb
  if ra < rd ∧ rd < ra + k then rd - ra else k

/-- MOVB: elements until rb is 0 or the number of elements before an interruption is reached (log 143). -/
def movbRun (f : FmtA) (c : Nat) : Nat → Nat → State → IStep
  | fuel, done, s =>
    let x := s.ctx c
    let n := (x.g f.rb).toNat
    if n = 0 then .retire { count := Nat.max 1 done } s
    else match fuel with
    | 0 => .retire { stay := true, count := done } s
    | fuel + 1 =>
      let src := (x.g f.ra).toNat
      let dst := (x.g f.rd).toNat
      let k := copyElement dst src n
      match s.rangeExc c .read src k, s.rangeExc c .write dst k with
      | some e, _ => blockExc c done e (s.xlatNote e.addr)
      | none, some e => blockExc c done e (s.xlatNote e.addr)
      | none, none =>
        match s.hRead c src k with
        | (_, some e, s1) => blockExc c done e s1
        | (d, none, s1) => movbRun f c fuel (done + 1) ((s1.hWrite c dst d).modCtx c (fun y => y.cursors f true k))

/-- MOVB (R151, R152). -/
def execMovb (c : Nat) (f : FmtA) (limit : Nat) (s : State) (link : LinkResult := .ok) : Result :=
  s.onLink link (fun u => .next (u.instr c blockPlace (fun t x => movbRun f c (x.elements limit) 0 t)))

/-- FILLB: elements until rb is 0 or the number of elements before an interruption is reached. -/
def fillbRun (f : FmtA) (c : Nat) : Nat → Nat → State → IStep
  | fuel, done, s =>
    let x := s.ctx c
    let n := (x.g f.rb).toNat
    if n = 0 then .retire { count := Nat.max 1 done } s
    else match fuel with
    | 0 => .retire { stay := true, count := done } s
    | fuel + 1 =>
      let dst := (x.g f.rd).toNat
      let k := Nat.min 64 n
      match s.rangeExc c .write dst k with
      | some e => blockExc c done e (s.xlatNote e.addr)
      | none =>
        let d := List.replicate k ((x.g f.ra).setWidth 8)
        fillbRun f c fuel (done + 1) ((s.hWrite c dst d).modCtx c (fun y => y.cursors f false k))

/-- FILLB (R151, R152). -/
def execFillb (c : Nat) (f : FmtA) (limit : Nat) (s : State) : Result :=
  .next (s.instr c blockPlace (fun t x => fillbRun f c (x.elements limit) 0 t))

end Sys2Proof.Machine
end

