-- ==== Sys2Proof/Machine/Flow.lean ====
section
/-! DEFINITION. Branches, loops, REP, and the system instructions (R122 to R127, R139 to R150, R153, R154, R183, R191, R195,
R220). -/
namespace Sys2Proof.Machine

/-! ### Branches (R139, R140) -/

/-- A branch: where control goes after the delay slot. -/
def branchTo (t : State) (w : List (Reg × W64)) (to1 : W64) : IStep := .retire { writes := w, branch := some to1 } t

/-- A displacement in words from an instruction. -/
def dispTo {n : Nat} (pc : W64) (d : BitVec n) : W64 := pc + 4 * sext64 d

/-- BZ (R139). -/
def execBz (c : Nat) (ra : Reg) (disp : BitVec 21) (s : State) : Result :=
  .next (s.instr c flowPlace (fun t x => branchTo t [] (if x.g ra = 0 then dispTo x.pc disp else x.pc + 8)))

/-- BNZ (R139). -/
def execBnz (c : Nat) (ra : Reg) (disp : BitVec 21) (s : State) : Result :=
  .next (s.instr c flowPlace (fun t x => branchTo t [] (if x.g ra ≠ 0 then dispTo x.pc disp else x.pc + 8)))

/-- BR (R139). -/
def execBr (c : Nat) (disp : BitVec 26) (s : State) : Result :=
  .next (s.instr c flowPlace (fun t x => branchTo t [] (dispTo x.pc disp)))

/-- CALL: g31 := branch address + 8 (R139). -/
def execCall (c : Nat) (disp : BitVec 26) (s : State) : Result :=
  .next (s.instr c flowPlace (fun t x => branchTo t [(31, x.pc + 8)] (dispTo x.pc disp)))

/-- A jump to a register, which must be 4-byte aligned (R140). -/
def jumpTo (t : State) (w : List (Reg × W64)) (a : W64) : IStep :=
  if a.toNat % 4 ≠ 0 then .exc (excAlign (a.toNat % 2 ^ 38)) t else branchTo t w a

/-- JR (R139, R140). -/
def execJr (c : Nat) (f : FmtA) (s : State) : Result :=
  .next (s.instr c flowPlace (fun t x => legal (f.rd = 0 && f.rb = 0) t (jumpTo t [] (x.g f.ra))))

/-- JALR (R139, R140). -/
def execJalr (c : Nat) (f : FmtA) (s : State) : Result :=
  .next (s.instr c flowPlace (fun t x => legal (f.rb = 0) t (jumpTo t [(f.rd, x.pc + 8)] (x.g f.ra))))

/-! ### Loops and REP (R143 to R150) -/

/-- Start a loop of `count` passes over `len` instructions; a count of 0 skips the body (R143). -/
def loopStart (t : State) (c : Nat) (x : Ctx) (count len : Nat) : IStep :=
  let le := x.pc + BitVec.ofNat 64 (4 * len)
  let u := t.modCtx c (fun y => { y with lc := count, ls := x.pc + 4, le := le })
  .retire { goto := if count = 0 then some (le + 4) else none } u

/-- LOOP (R143). -/
def execLoop (c : Nat) (rsv ra : Reg) (len : BitVec 16) (s : State) : Result :=
  .next (s.instr c flowPlace (fun t x => legal (rsv = 0 && len ≠ 0) t
    (if 0xFFFFFFFF < (x.g ra).toNat then .exc (excOperand ra) t else loopStart t c x (x.g ra).toNat len.toNat)))

/-- LOOPI (R143). -/
def execLoopi (c : Nat) (count : BitVec 10) (len : BitVec 16) (s : State) : Result :=
  .next (s.instr c flowPlace (fun t x => legal (len ≠ 0) t (loopStart t c x count.toNat len.toNat)))

/-- Whether an instruction word may not be prefixed by REP (R149). -/
def repForbidden (w : Nat) : Bool :=
  let op := bits w 26 6
  let fn := bits w 0 11
  match op with
  | 0x03 => (fn = 2 && bits w 21 5 = 5) || fn = 3 || fn = 5
  | 0x10 | 0x11 | 0x12 | 0x13 | 0x14 | 0x15 | 0x16 => true
  | 0x20 | 0x21 | 0x22 | 0x23 | 0x24 | 0x25 | 0x26 | 0x28 | 0x2A | 0x2B | 0x2C | 0x32 | 0x33 | 0x34 | 0x3D | 0x3F => true
  | 0x30 => 1 ≤ fn && fn ≤ 3
  | 0x31 => fn = 1 || fn = 4
  | 0x3C => bitAt fn 4
  | 0x3E => 1 ≤ fn && fn ≤ 4
  | _ => false

/-- REP: the prefixed instruction is checked, which one of no assigned opcode or function does not pass, and executes rc times (R129,
R148, R149). -/
def execRep (c : Nat) (rsv : BitVec 26) (s : State) : Result :=
  .next (s.instr c flowPlace (fun t x => legal (rsv = 0) t
    (match t.fetchExc c (x.pc + 4).toNat with
     | (some e, u) => .exc e u
     | (none, u) =>
       let w := leNat (u.pnBytes (x.pc + 4).toNat 4)
       if repForbidden w || hearthWord c 0 x.g (BitVec.ofNat 32 w) = .unassigned then .exc excIllegal u
       else if x.rc = 0 then
         let y := x.seqNext (x.pc + 4)
         .retire { goto := some y.pc } (u.modCtx c (fun z => { z with lc := y.lc }))
       else .retire { startRep := true } u)))

/-! ### System instructions (R122 to R127, R153) -/

/-- sv_st as it reads: its reserved bits [7:6] and [63:15] read 0 (R8, R125, R126). -/
def svstStored (v : W64) : W64 := BitVec.ofNat 64 (bits v.toNat 0 6 + bits v.toNat 8 7 * 256)

/-- The value of a control register (R122, R124, R127). -/
def State.creg (s : State) (c : Nat) (x : Ctx) : Nat → W64
  | 0 => if x.rep then x.pc + 4 else x.pc
  | 1 => x.st
  | 2 => BitVec.ofNat 64 x.lc
  | 3 => x.ls
  | 4 => x.le
  | 5 => BitVec.ofNat 64 x.rc
  | 6 => (x.save x.setName).pc
  | 7 => svstStored (x.save x.setName).st
  | 8 => (x.save x.setName).x
  | 9 => BitVec.ofNat 64 (c % 2 ^ 14 + x.home % 64 * 2 ^ 16 + x.slot % 8 * 2 ^ 24)
  | 10 => 2
  | 11 => BitVec.ofNat 64 s.now
  | _ => BitVec.ofNat 64 x.deadline

/-- MFC (R122). -/
def execMfc (c : Nat) (f : FmtA) (s : State) : Result :=
  .next (s.instr c anyPlace (fun t x => legal (f.rb = 0 && f.ra.val ≤ 12) t (retireW t f.rd (t.creg c x f.ra.val))))

/-- A context with the save set of its running level changed. -/
def Ctx.modSave (x : Ctx) (f : SaveSet → SaveSet) : Ctx := x.setSave x.setName (f (x.save x.setName))

/-- sv_x as stored: its reserved bits read 0 (R174). -/
def svxStored (v : W64) : W64 := BitVec.ofNat 64 (v.toNat - bits v.toNat 24 2 * 2 ^ 24)

/-- Write a control register, or raise (R122, R123). -/
def mtcStep (t : State) (c : Nat) (x : Ctx) (n : Nat) (v : W64) (ra : Reg) : IStep :=
  let put := fun (g : Ctx → Ctx) => IStep.retire {} (t.modCtx c g)
  match n with
  | 1 => if v.toNat / 4 ≠ x.st.toNat / 4 then .exc excIllegal t else put (fun y => { y with st := v })
  | 2 => if 0xFFFFFFFF < v.toNat then .exc (excOperand ra) t else put (fun y => { y with lc := v.toNat })
  | 3 => put (fun y => { y with ls := v })
  | 4 => put (fun y => { y with le := v })
  | 5 => if 0xFFFFFFFF < v.toNat then .exc (excOperand ra) t else put (fun y => { y with rc := v.toNat })
  | 6 => put (fun y => y.modSave (fun z => { z with pc := v }))
  | 7 => put (fun y => y.modSave (fun z => { z with st := v }))
  | 8 => put (fun y => y.modSave (fun z => { z with x := svxStored v }))
  | _ => .exc excIllegal t

/-- MTC (R122). -/
def execMtc (c : Nat) (f : FmtA) (s : State) : Result :=
  .next (s.instr c (if f.rd.val = 5 then norepPlace else anyPlace) (fun t x => legal (f.rb = 0) t
    (mtcStep t c x f.rd.val (x.g f.ra) f.ra)))

/-- Whether a non-interruptible window is open. -/
def Ctx.inWindow (x : Ctx) : Bool := bitAt x.st.toNat 4

/-- RETX (R183, R191). -/
def execRetx (c : Nat) (f : FmtA) (s : State) : Result :=
  .next (s.instr c flowPlace (fun t x => legal (noRegs f && !x.inWindow) t (t.retx c)))

/-- TRAP (R191, R195). -/
def execTrap (c : Nat) (n : BitVec 8) (rsv : BitVec 18) (s : State) : Result :=
  .next (s.instr c flowPlace (fun t x => legal (rsv = 0 && !x.inWindow) t (t.trap c n.toNat)))

/-- NIW (R191). -/
def execNiw (c : Nat) (k : BitVec 7) (rsv : BitVec 19) (s : State) : Result :=
  .next (s.instr c flowPlace (fun t x =>
    legal (rsv = 0 && !x.inWindow && k ≠ 0 && k.toNat ≤ (t.wcfg x.world).niMax) t
      (.retire { count := 0 } (t.modCtx c (fun y => { y with st := BitVec.ofNat 64 (y.st.toNat + 16 + 256 * k.toNat) })))))

/-- YIELD (R153, R219). -/
def execYield (c : Nat) (f : FmtA) (s : State) : Result :=
  .next (s.instr c anyPlace (fun t _ => legal (noRegs f) t (.retire { yield := true } t)))

/-! ### Locks (R154, R220) -/

/-- LOCK of a number that its rules allow: acquired, or waiting. -/
def State.lockTake (s : State) (c : Nat) (x : Ctx) (r : Reg) : IStep :=
  let n := (x.g r).toNat % 65536
  let w := lockWorld n x.world
  if x.answer = .locked n then .retire {} (s.modCtx c (fun y => { y with answer := .none }))
  else match s.lockExc x r with
  | some e => if e.code = 2 || x.locks.length < 8 then .exc e s else .exc (excOperand r) s
  | none =>
    if 8 ≤ x.locks.length then .exc (excOperand r) s
    else if x.locks.any (fun l => n ≤ l.num) then .exc { code := 0xD } s
    else if (s.lockHolder n w).isSome then .wait (.lock n w) s
    else .retire {} (s.modCtx c (fun y => { y with locks := y.locks ++ [{ num := n, world := w, visit := y.visit.isSome }] }))

/-- LOCK (R154, R220). -/
def execLock (c : Nat) (f : FmtA) (s : State) : Result :=
  .next (s.instr c norepPlace (fun t x => legal (f.rd = 0 && f.rb = 0) t (t.lockTake c x f.ra)))

/-- UNLOCK (R154, R220). -/
def execUnlock (c : Nat) (f : FmtA) (s : State) : Result :=
  .next (s.instr c anyPlace (fun t x => legal (f.rd = 0 && f.rb = 0) t
    (let n := (x.g f.ra).toNat % 65536
     let held := x.locks.find? (fun l => l.num = n && l.world = lockWorld n x.world)
     match t.lockExc x f.ra, held with
     | some e, none => if e.code = 2 then .exc e t else .exc (excOperand f.ra) t
     | some e, some _ => .exc e t
     | none, none => .exc (excOperand f.ra) t
     | none, some l => .retire {} (t.lockDrop c l))))

end Sys2Proof.Machine
end

