-- ==== Sys2Proof/Machine/PortIns.lean ====
section
/-! DEFINITION. The port instructions, the mark operations and the port commands (R155 to R158, R224, R305, R306, R322, R323). -/
namespace Sys2Proof.Machine

/-- Whether a context runs an activation on an attachment whose command a predicate names. -/
def Ctx.actOn (x : Ctx) (a : Nat) (p : Nat → Bool) : Bool :=
  match x.act with
  | some y => y.att = some a && p y.code
  | none => false

/-! ### Receive (R156, R224) -/

/-- A receive commit point at a position of the channel: the mark moves there, and the stream's bytes are committed (R223,
R224). -/
def State.rxCommitAt (s : State) (c a pos : Nat) : State :=
  (s.modRx a (fun r => ({ r with mark := some pos } : RxChan).freeTo pos)).commitPoint c a

/-- FRD (R156, R321). -/
def execFrd (c : Nat) (f : FmtA) (s : State) (chk : WordCheck := .clean) : Result :=
  .next (s.instr c norepPlace (fun t x => legal (f.rb = 0) t (withPort t x f.ra (fun a _ =>
    match t.fifoRead a chk with
    | (k, w, t1) =>
      let t2 := if (k = 1 || k = 2) && x.actOn a cmdReads && (t1.att a).rx.mark.isSome then
          (t1.rxCommitAt c a ((t1.att a).rx.read - 1)).rtsFlow (a / 16)
        else t1
      retireD t2 f.rd (BitVec.ofNat 64 (w.toNat + k * 2 ^ 32))))))

/-! ### Transmit (R157, R325) -/

/-- FOPEN: waits on a full channel, and while another context's packet is open (R157, R325). -/
def execFopen (c : Nat) (f : FmtA) (s : State) : Result :=
  .next (s.instr c norepPlace (fun t x => legal (f.rd = 0 && f.rb = 0) t (withPort t x f.ra (fun a _ =>
    if !(t.att a).hasChannels then .retire {} t
    else if (t.att a).tx.owner = some c then .exc (excOperand f.ra) t
    else if (t.att a).tx.owner.isSome || t.txFree a = 0 then .wait (.txSpace a) t
    else .retire {} (t.txOpen a c)))))

/-- FPUT (R157; log 153). -/
def execFput (c : Nat) (f : FmtA) (s : State) : Result :=
  .next (s.instr c norepPlace (fun t x => legal (f.rd = 0) t (withPort t x f.ra (fun a _ =>
    if !(t.att a).hasChannels then .retire {} t
    else if (t.att a).tx.owner ≠ some c then .exc (excOperand f.ra) t
    else if t.txFree a = 0 then .wait (.txSpace a) t
    else .retire {} (t.txPut a ((x.g f.rb).setWidth 32))))))

/-- FCLOSE: the length lies in the last word written (R157; log 153). -/
def execFclose (c : Nat) (f : FmtA) (s : State) : Result :=
  .next (s.instr c anyPlace (fun t x => legal (f.rd = 0) t (withPort t x f.ra (fun a _ =>
    let n := (x.g f.rb).toNat
    let k := (t.att a).tx.openWords
    if !(t.att a).hasChannels then .retire {} t
    else if (t.att a).tx.owner ≠ some c then .exc (excOperand f.ra) t
    else if 4 * k < n || (0 < k && n ≤ 4 * (k - 1)) then .exc (excOperand f.rb) t
    else .retire {} (t.txClose a n)))))

/-! ### Marks (R322, R323) -/

/-- SET_RX on a channel: in an activation that receives, a commit point. -/
def State.setRxMark (s : State) (c a : Nat) : State :=
  if (s.ctx c).actOn a cmdReads then (s.rxCommitAt c a (s.att a).rx.read).rtsFlow (a / 16)
  else (s.modRx a RxChan.setMark).rtsFlow (a / 16)

/-- RELEASE_RX on a channel: in an activation that receives, it moves the mark as SET_RX does. -/
def State.releaseRxMark (s : State) (c a : Nat) : State :=
  if (s.ctx c).actOn a cmdReads then (s.rxCommitAt c a (s.att a).rx.read).rtsFlow (a / 16)
  else (s.modRx a RxChan.releaseMark).rtsFlow (a / 16)

/-- REWIND_RX on a channel: in an activation that receives, the stream returns to its last commit point too. -/
def State.rewindRxMark (s : State) (c a : Nat) : State :=
  let s1 := s.modRx a RxChan.rewind
  if (s.ctx c).actOn a cmdReads then s1.modStream c (fun t => { t with moved := t.committed }) else s1

/-- SET_TX on a channel: no effect in an activation that sends. -/
def State.setTxMark (s : State) (c a : Nat) : State := if (s.ctx c).actOn a cmdWrites then s else s.txMark a

/-- RELEASE_TX on a channel: no effect in an activation that sends. -/
def State.releaseTxMark (s : State) (c a : Nat) : State := if (s.ctx c).actOn a cmdWrites then s else s.txUnmark a

/-- FMK with the operation that a row names: rb[2:0] must name it; 6 and 7 are out of range (R155). -/
def State.fmk (s : State) (c op : Nat) (rd ra rb : Reg) (g : State → Nat → State) : State :=
  let v := ((s.ctx c).g rb).toNat % 8
  if v ≠ op ∧ v < 6 then s
  else s.instr c anyPlace (fun t x => legal (rd = 0) t (
    if 6 ≤ v then .exc (excOperand rb) t
    else withPort t x ra (fun a _ => .retire {} (if (t.att a).hasChannels then g t a else t))))

/-- A mark operation by FMK or by MARK. -/
def State.markOp (s : State) (c op : Nat) (via : MarkVia) (g : State → Nat → State) : State :=
  match via with
  | .fmk rd ra rb => s.fmk c op rd ra rb g
  | .mark => s.markCcw c op (fun a t => g t a)

/-- SET_RX (R322). -/
def execSetRx (c : Nat) (via : MarkVia) (s : State) : Result := .next (s.markOp c 0 via (fun t a => t.setRxMark c a))

/-- SET_TX (R322). -/
def execSetTx (c : Nat) (via : MarkVia) (s : State) : Result := .next (s.markOp c 1 via (fun t a => t.setTxMark c a))

/-- RELEASE_RX (R322). -/
def execReleaseRx (c : Nat) (via : MarkVia) (s : State) : Result := .next (s.markOp c 2 via (fun t a => t.releaseRxMark c a))

/-- RELEASE_TX (R322). -/
def execReleaseTx (c : Nat) (via : MarkVia) (s : State) : Result := .next (s.markOp c 3 via (fun t a => t.releaseTxMark c a))

/-- REWIND_RX (R322). -/
def execRewindRx (c : Nat) (via : MarkVia) (s : State) : Result := .next (s.markOp c 4 via (fun t a => t.rewindRxMark c a))

/-- REWIND_TX: FMK alone (R322). -/
def execRewindTx (c : Nat) (f : FmtA) (s : State) : Result := .next (s.fmk c 5 f.rd f.ra f.rb (fun t a => t.txRewind a))

/-! ### Status and commands (R155, R305 to R307) -/

/-- PSTAT (R307). -/
def execPstat (c : Nat) (f : FmtA) (s : State) : Result :=
  .next (s.instr c anyPlace (fun t x => legal (f.rb = 0) t (withPort t x f.ra (fun a _ =>
    retireW t f.rd (BitVec.ofNat 64 (t.portStatus a))))))

/-- An accepted output action is a commit of its CONTROL or EXEC (R223). -/
def State.outputCommit (s : State) (c a code : Nat) : State :=
  let out := match s.profileOf a with
    | some p => bitAt p.outputMask code
    | none => false
  let mine := match (s.ctx c).act with
    | some y => y.code = 3 || y.code = 9
    | none => false
  if out && mine then s.modCtx c (fun x => { x with outputHanded := true, commitSeq := x.commitSeq + 1 }) else s

/-- PCMD with the command that a row names: rb[7:0] must name it, or no command at all (R155, R305, R306). -/
def State.pcmd (s : State) (c code : Nat) (f : FmtA) : State :=
  let w := ((s.ctx c).g f.rb).toNat % 2 ^ 32
  if w % 256 ≠ code ∧ cmdMode (w % 256) ≠ 0 then s
  else s.instr c anyPlace (fun t x => withPort t x f.ra (fun a _ =>
    match t.portCommand a c w with
    | (r, t1) => retireW (if r = 0 then t1.outputCommit c a (w % 256) else t1) f.rd (BitVec.ofNat 64 r)))

/-- USB_CTRL (R305). -/
def execUsbCtrl (c : Nat) (f : FmtA) (s : State) : Result := .next (s.pcmd c 1 f)

/-- USB_IN (R305). -/
def execUsbIn (c : Nat) (f : FmtA) (s : State) : Result := .next (s.pcmd c 2 f)

/-- USB_OUT (R305). -/
def execUsbOut (c : Nat) (f : FmtA) (s : State) : Result := .next (s.pcmd c 3 f)

/-- USB_OUT_ZLP (R305). -/
def execUsbOutZlp (c : Nat) (f : FmtA) (s : State) : Result := .next (s.pcmd c 4 f)

/-- USB_INT_POLL (R305). -/
def execUsbIntPoll (c : Nat) (f : FmtA) (s : State) : Result := .next (s.pcmd c 5 f)

/-- USB_CLEAR_HALT (R305). -/
def execUsbClearHalt (c : Nat) (f : FmtA) (s : State) : Result := .next (s.pcmd c 6 f)

/-- USB_ABORT (R305). -/
def execUsbAbort (c : Nat) (f : FmtA) (s : State) : Result := .next (s.pcmd c 7 f)

/-- UART_BREAK (R305). -/
def execUartBreak (c : Nat) (f : FmtA) (s : State) : Result := .next (s.pcmd c 8 f)

/-- UART_LINE (R305). -/
def execUartLine (c : Nat) (f : FmtA) (s : State) : Result := .next (s.pcmd c 9 f)

/-- UART_RTS (R305). -/
def execUartRts (c : Nat) (f : FmtA) (s : State) : Result := .next (s.pcmd c 10 f)

/-- UART_CLOSE (R305). -/
def execUartClose (c : Nat) (f : FmtA) (s : State) : Result := .next (s.pcmd c 11 f)

/-- SPI_XFER (R305). -/
def execSpiXfer (c : Nat) (f : FmtA) (s : State) : Result := .next (s.pcmd c 12 f)

/-- SPI_READ (R305). -/
def execSpiRead (c : Nat) (f : FmtA) (s : State) : Result := .next (s.pcmd c 13 f)

/-- I2C_WRITE (R305). -/
def execI2cWrite (c : Nat) (f : FmtA) (s : State) : Result := .next (s.pcmd c 14 f)

/-- I2C_READ (R305). -/
def execI2cRead (c : Nat) (f : FmtA) (s : State) : Result := .next (s.pcmd c 15 f)

/-- I2C_WRITE_READ (R305). -/
def execI2cWriteRead (c : Nat) (f : FmtA) (s : State) : Result := .next (s.pcmd c 16 f)

/-- I2C_GPIO (R305). -/
def execI2cGpio (c : Nat) (f : FmtA) (s : State) : Result := .next (s.pcmd c 17 f)

/-- GPIO_SET (R305). -/
def execGpioSet (c : Nat) (f : FmtA) (s : State) : Result := .next (s.pcmd c 18 f)

/-- GPIO_PULSE (R305). -/
def execGpioPulse (c : Nat) (f : FmtA) (s : State) : Result := .next (s.pcmd c 19 f)

/-- GPIO_BLINK (R305). -/
def execGpioBlink (c : Nat) (f : FmtA) (s : State) : Result := .next (s.pcmd c 20 f)

/-! ### WAITE (R158) -/

/-- The target latch that a port reference uses: the target of its index, or the lowest that holds its ID. -/
def Ctx.latchFor (x : Ctx) (a : Nat) : Option Nat → Option Nat
  | some i => some i
  | none => (x.targetsNaming 0 a).head?

/-- The events that an attachment latch takes at its opening (R158; log 154). -/
def State.openingEvents (s : State) (a : Nat) : Nat :=
  let t := s.att a
  if t.hasChannels then
    bnat (t.rx.read < t.rx.visible) + 2 * bnat (s.txSpace a) + 4 * bnat t.tx.packets.isEmpty
  else if t.state = .empty then 8 else 0

/-- The context with its attachment latch open for an attachment. -/
def State.latchOpen (s : State) (c a : Nat) : State :=
  match (s.ctx c).attLatch with
  | some l => if l.att = a then s else s.modCtx c (fun x => { x with attLatch := some { att := a, events := s.openingEvents a } })
  | none => s.modCtx c (fun x => { x with attLatch := some { att := a, events := s.openingEvents a } })

/-- The context without the events that WAITE returns. -/
def Ctx.latchTake (x : Ctx) (tgt : Option Nat) (ev : Nat) : Ctx :=
  match tgt with
  | some i => { x with latch := Tbl.upd 0 x.latch i (fun e => e - (e &&& ev)) }
  | none => { x with attLatch := x.attLatch.map (fun l => { l with events := l.events - (l.events &&& ev) }) }

/-- WAITE (R158). -/
def execWaite (c : Nat) (f : FmtA) (s : State) : Result :=
  .next (s.instr c norepPlace (fun t x =>
    let mask := (x.g f.rb).toNat % 128
    if mask = 0 then .exc (excOperand f.rb) t
    else withPort t x f.ra (fun a i =>
      let tgt := x.latchFor a i
      let t1 := if tgt.isNone then t.latchOpen c a else t
      let ev := t1.waiteEvents c a mask tgt ||| (if (t1.att a).state = .empty then 8 &&& mask else 0)
      if ev = 0 then .wait (.waite a mask tgt) t1
      else retireW (t1.modCtx c (fun y => y.latchTake tgt ev)) f.rd (BitVec.ofNat 64 ev))))

end Sys2Proof.Machine
end

