-- ==== Sys2Proof/Machine/StreamIns.lean ====
section
/-! DEFINITION. The stream, drive and leave instructions (R155, R159, R161 to R164, R380 to R386, R423). -/
namespace Sys2Proof.Machine

/-! ### XGET, XPUT, XREM (R161) -/

/-- The command code of the activation in progress. -/
def Ctx.actCode (x : Ctx) : Nat := match x.act with
  | some y => y.code
  | none => 0

/-- The end of a CCW that its stream causes: it takes effect at the end of the instruction or when R164 allows. -/
def State.streamDue (s : State) (c : Nat) (e : Nat × Nat) : State :=
  s.modCtx c (fun x => { x with due := some { status := e.1, unit := e.2 } })

/-- XGET: up to 8 bytes of the stream; both results are delayed. With rd and rb one register the value left is open (log 7; log 155). -/
def execXget (c : Nat) (f : FmtA) (s : State) (link : LinkResult := .ok) : Result :=
  s.onLink link (fun u => .next (u.instr c norepPlace (fun t x =>
    let n := (x.g f.rb).toNat
    legal (f.ra = 0 && [1, 3, 9].contains x.actCode) t (
      if n = 0 ∨ 8 < n then .exc (excOperand f.rb) t
      else if x.due.isSome then .retire { late := [(f.rd, 0), (f.rb, 0)] } t
      else match t.streamGet c n with
      | (_, some e, t1) => .retire { late := [(f.rd, 0), (f.rb, 0)] } (t1.streamDue c e)
      | (d, none, t1) =>
        if f.rd = f.rb then
          let v := t1.takeFree
          retireD v.2 f.rd v.1
        else .retire { late := [(f.rd, BitVec.ofNat 64 (leNat d)), (f.rb, BitVec.ofNat 64 d.length)] } t1))))

/-- XPUT: up to 8 bytes into the stream; what it does not accept sets LONG (log 155). -/
def execXput (c : Nat) (f : FmtA) (s : State) (link : LinkResult := .ok) : Result :=
  s.onLink link (fun u => .next (u.instr c anyPlace (fun t x =>
    let n := (x.g f.rb).toNat
    legal (f.rd = 0 && [2, 4, 9].contains x.actCode) t (
      if n = 0 ∨ 8 < n then .exc (excOperand f.rb) t
      else if x.due.isSome then retireW t f.rb 0
      else match t.streamStore c (leBytes n (x.g f.ra).toNat) with
      | (_, some e, t1) => retireW (t1.streamDue c e) f.rb 0
      | (k, none, t1) =>
        retireW (if k < n then t1.modCtx c (fun y => { y with long := true }) else t1) f.rb (BitVec.ofNat 64 k)))))

/-- XREM: the bytes left in the current member, and its CD. -/
def execXrem (c : Nat) (f : FmtA) (s : State) : Result :=
  .next (s.instr c anyPlace (fun t x => legal (f.ra = 0 && f.rb = 0) t (
    let l := x.stream.left
    retireW t f.rd (BitVec.ofNat 64 (l.1 + bnat l.2 * 2 ^ 63)))))

/-! ### HEND (R162, R163) -/

/-- The events that a HEND with SUCCESS signals; an EXEC's one event is both (R89, R163). -/
def hendEvents (code flags : Nat) : Bool × Bool :=
  let ch := bitAt flags 0
  let po := bitAt flags 1
  if code = 9 then (ch || po, ch || po) else (ch, po)

/-- The interim status at channel done of a CCW with PST before port done (R84, R109, R110). -/
def State.chanDonePst (s : State) (c : Nat) (y : Activation) : State :=
  let t := (s.ctx c).stream
  match t.members.getLast? with
  | some m =>
    if m.pst && !t.posted.contains m.loc then
      let r := if cmdWrites y.code then 0 else m.bytes - (t.pos - (t.total - m.bytes))
      s.memberPst c m r
    else s
  | none => s

/-- HEND with SUCCESS in an activation: the events signalled, and the CCW's end with the second of them. -/
def State.hendDone (s : State) (c : Nat) (y : Activation) (flags unit : Nat) : IStep :=
  let ev := hendEvents y.code flags
  let po := y.portDone || ev.2
  let ch := y.channelDone || ev.1
  let s1 := s.modCtx c (fun x => { x with
    cond := x.cond || bitAt flags 2, act := some { y with portDone := po, channelDone := ch } })
  if po && ch && s.latePast c then .ended (s.missEnd c y.portDone y.channelDone)
  else if po && ch then .ended (s1.ccwFinish c { unit := unit, normal := true })
  else
    let s2 := if ch && !y.channelDone then s1.chanDonePst c y else s1
    .retire {} s2

/-- HEND (R162, R163; log 155). -/
def execHend (c : Nat) (f : FmtA) (s : State) (link : LinkResult := .ok) : Result :=
  s.onLink link (fun u => .next (u.instr c blockPlace (fun t x =>
    let v := (x.g f.ra).toNat
    let code := bits v 0 8
    let unit := bits v 16 16
    legal (f.rb = 0 && f.rd.val < 8) t (
      if !([0, 2, 3, 6, 7] : List Nat).contains code then .exc (excOperand f.ra) t
      else match x.due, x.act with
      | none, some y =>
        if code ≠ 0 then .ended (t.ccwFinish c { status := code, unit := unit })
        else t.hendDone c y f.rd.val unit
      | _, _ => .retire {} t))))

/-! ### Drives (R159, R380 to R386) -/

/-- DRD: one item of a drive (R159, R380). -/
def execDrd (c : Nat) (f : FmtA) (item : BitVec 8) (s : State) : Result :=
  .next (s.instr c norepPlace (fun t x => legal (f.rb = 0) t (withDrive t x f.ra (fun n =>
    match t.driveRead n item.toNat with
    | some v => retireD t f.rd (BitVec.ofInt 64 v)
    | none => .exc { code := 2 } t))))

/-- The result of a DWR in rd (R159). -/
def dwrResult : WriteEnd → W64
  | .accepted => 0
  | .noLeave => 1
  | .refused _ => 2
  | .waits => 0

/-- DWR of an item: a waiting increase that has been answered retires with its answer (R159, R380, R381, R384). -/
def State.dwr (s : State) (c item : Nat) (f : FmtA) : State :=
  s.instr c norepPlace (fun t x => withDrive t x f.ra (fun n =>
    match t.driveAnswerTake n c with
    | (some a, t1) => retireW t1 f.rd (BitVec.ofNat 64 a.result)
    | (none, _) =>
      let v : Int := if item = 0x0A then (x.g f.rb).toInt else (x.g f.rb).toNat
      match itemRange item with
      | none => .exc { code := 2 } t
      | some (lo, hi) =>
        if outputItem item && (t.drive n).cfg.gang = 2 then .exc (excOperand f.ra) t
        else if v < lo ∨ hi < v then .exc (excOperand f.rb) t
        else match t.driveWrite n item v (some c) (t.lstOf x.deadline) with
        | (.waits, t1) => .wait (.drive n) t1
        | (r, t1) => retireW t1 f.rd (dwrResult r)))

/-- DWR of item 1 (R380). -/
def execRun (c : Nat) (f : FmtA) (s : State) : Result := .next (s.dwr c 1 f)

/-- DWR of item 2 (R380). -/
def execDutyA (c : Nat) (f : FmtA) (s : State) : Result := .next (s.dwr c 2 f)

/-- DWR of item 3 (R380). -/
def execDutyB (c : Nat) (f : FmtA) (s : State) : Result := .next (s.dwr c 3 f)

/-- DWR of item 4 (R380). -/
def execBurst (c : Nat) (f : FmtA) (s : State) : Result := .next (s.dwr c 4 f)

/-- DWR of item 5 (R380). -/
def execPwmFreq (c : Nat) (f : FmtA) (s : State) : Result := .next (s.dwr c 5 f)

/-- DWR of item 6 (R380). -/
def execDir (c : Nat) (f : FmtA) (s : State) : Result := .next (s.dwr c 6 f)

/-- DWR of item 7 (R380). -/
def execIlim (c : Nat) (f : FmtA) (s : State) : Result := .next (s.dwr c 7 f)

/-- DWR of item 8 (R380). -/
def execSafeReq (c : Nat) (f : FmtA) (s : State) : Result := .next (s.dwr c 8 f)

/-- DWR of item 9 (R380). -/
def execFaultClear (c : Nat) (f : FmtA) (s : State) : Result := .next (s.dwr c 9 f)

/-- DWR of item 10 (R380). -/
def execEncCmp (c : Nat) (f : FmtA) (s : State) : Result := .next (s.dwr c 10 f)

/-- DWR of item 11 (R380). -/
def execEncZero (c : Nat) (f : FmtA) (s : State) : Result := .next (s.dwr c 11 f)

/-! ### LEAVE (R159, R423) -/

/-- A LEAVE whose request block has been read (R423). -/
def State.leaveBlock (s : State) (c : Nat) (x : Ctx) (f : FmtA) (d : List Byte) : IStep :=
  let amount := fieldAt d 0 3
  let plant := fieldAt d 4 1
  let cls := fieldAt d 5 1
  let n := fieldAt d 6 2
  let est := fieldAt d 8 4
  let dl := fieldAt d 12 4
  let bad := fieldAt d 3 1 ≠ 0 || 1 < plant || cls = 0 || 6 < cls || est = 0 || 65535 < est || 2000000 < dl
  let lst := s.lstOf (if dl = 0 then x.deadline else s.now + 1000 * dl)
  let ask := fun (q : LeaveReq) => match s.leaveArrive q with
    | (true, s1) => retireW s1 f.rd 0
    | (false, s1) => .wait .leave s1
  if bad || (n ≠ 0 && !x.leases.contains n) || (amount = 0 && n = 0) || (n = 0 && 4 ≤ x.leases.length) then .exc (excOperand f.ra) s
  else if n = 0 then ask (s.leaveReq (.context c) (plant = 1) cls amount est none lst)
  else match s.boiler.lease n with
  | some l =>
    if amount = 0 then retireW (s.leaseRelease n) f.rd (BitVec.ofNat 64 n)
    else if amount ≤ l.amount then retireW (s.leaseReduce n amount) f.rd (BitVec.ofNat 64 n)
    else ask (s.leaveReq (.context c) l.plant l.cls (amount - l.amount) est (some n) lst)
  | none => .exc (excOperand f.ra) s

/-- LEAVE: an answered request retires with its lease number, or 0 (R159, R423). -/
def execLeaveInstr (c : Nat) (f : FmtA) (s : State) (link : LinkResult := .ok) : Result :=
  s.onLink link (fun u => .next (u.instr c norepPlace (fun t x => legal (f.rb = 0) t (
    let clear := t.modCtx c (fun y => { y with answer := .none })
    match x.answer with
    | .granted n => retireW clear f.rd (BitVec.ofNat 64 n)
    | .refused => retireW clear f.rd 0
    | _ =>
      let a := (x.g f.ra).toNat
      if a % 16 ≠ 0 then .exc (excAlign (a % 2 ^ 38)) t
      else match t.accessExc c .read a with
      | some e => .exc e (t.xlatNote a)
      | none => match t.hRead c a 16 with
        | (_, some e, t1) => .exc e t1
        | (d, none, t1) => t1.leaveBlock c x f d))))

end Sys2Proof.Machine
end

