-- ==== Sys2Proof/Machine/Coproc.lean ====
section
/-! DEFINITION. The coprocessors: the CRC and checksum unit, the control unit, and the Flint interface (R165 to R168). -/
namespace Sys2Proof.Machine

/-! ### CRC and checksum unit (R165) -/

/-- The ones' complement sum with a 16-bit word. -/
def onesAdd (a b : Nat) : Nat := (a + b) % 65536 + (a + b) / 65536

/-- The ones' complement sum over bytes, first byte high. -/
def csum16 : Nat → List Byte → Nat
  | c, a :: b :: l => csum16 (onesAdd c (a.toNat * 256 + b.toNat)) l
  | c, _ => c

/-- The running value in its width (R165). -/
def crcWidth (alg : Nat) : Nat := if alg ≤ 1 then 32 else if alg = 4 || alg = 6 || alg = 7 then 8 else 16

/-- The running value of an algorithm after some bytes; none for a reserved ALG. -/
def crcUpdate (alg v : Nat) (d : List Byte) : Option Nat :=
  let c := v % 2 ^ crcWidth alg
  match alg with
  | 0 => some (crcRefl 0x82F63B78 c d)
  | 1 => some (crcRefl 0xEDB88320 c d)
  | 2 => some (d.foldl (crcBytePlain 16 0x1021) c)
  | 3 => some (crcRefl 0xA001 c d)
  | 4 => some (d.foldl (crcBytePlain 8 0x07) c)
  | 5 => some (csum16 c d)
  | 6 => some ((d.foldl (fun a b => a + b.toNat) c) % 256)
  | 7 => some (d.foldl (fun a b => a ^^^ b.toNat) c)
  | _ => none

/-- CRC: the element form (R165). -/
def execCrc (c : Nat) (f : FmtA) (alg : BitVec 4) (size : BitVec 2) (rsv : BitVec 4) (s : State) : Result :=
  .next (s.instr c anyPlace (fun t x => legal (rsv = 0) t (
    match crcUpdate alg.toNat (x.g f.ra).toNat (leBytes (2 ^ size.toNat) (x.g f.rb).toNat) with
    | none => .exc excIllegal t
    | some v => if alg = 5 ∧ size = 0 then .exc { code := 2 } t else retireW t f.rd (BitVec.ofNat 64 v))))

/-- CRCB: elements until rb is 0 or the number of elements before an interruption is reached (R152, R165). -/
def crcbRun (f : FmtA) (alg c : Nat) : Nat → Nat → State → IStep
  | fuel, done, s =>
    let x := s.ctx c
    let n := (x.g f.rb).toNat
    if n = 0 then .retire { count := Nat.max 1 done } s
    else match fuel with
    | 0 => .retire { stay := true, count := done } s
    | fuel + 1 =>
      let a := (x.g f.ra).toNat
      let k := Nat.min 64 n
      match s.rangeExc c .read a k with
      | some e => blockExc c done e (s.xlatNote e.addr)
      | none =>
        match s.hRead c a k with
        | (_, some e, s1) => blockExc c done e s1
        | (d, none, s1) =>
          let v := (crcUpdate alg (x.g f.rd).toNat d).getD 0
          crcbRun f alg c fuel (done + 1) (s1.modCtx c (fun y =>
            ((y.setG f.rd (BitVec.ofNat 64 v)).setG f.ra (x.g f.ra + BitVec.ofNat 64 k)).setG f.rb (x.g f.rb - BitVec.ofNat 64 k)))

/-- CRCB: the block form, with SIZE 0 (R165). -/
def execCrcb (c : Nat) (f : FmtA) (alg : BitVec 4) (size : BitVec 2) (rsv : BitVec 4) (limit : Nat) (s : State)
    (link : LinkResult := .ok) : Result :=
  s.onLink link (fun u => .next (u.instr c blockPlace (fun t x => legal (rsv = 0 && size = 0 && alg.toNat < 8) t (
    if alg = 5 ∧ (x.g f.rb).toNat % 2 = 1 then .exc (excOperand f.rb) t else crcbRun f alg.toNat c (x.elements limit) 0 t))))

/-! ### Control unit (R166) -/

/-- A control-unit instruction: its block is read, updated and written back in one access; the result is delayed. The operation
gives the result and the bytes that it writes at an offset. A part of the block may refuse it: where that part can be read, it does so
before the rights to the rest of the block, the right to write it and an uncorrectable word count (R172; log 141). -/
def ctlStep (f : FmtA) (c size : Nat) (refuse : Nat × Nat × (List Byte → Bool)) (op : List Byte → Int → Int × Nat × List Byte) (t : State)
    (x : Ctx) : IStep :=
  let a := (x.g f.ra).toNat
  let part := a + refuse.1
  if a % 8 ≠ 0 then .exc (excAlign (a % 2 ^ 38)) t
  else if (t.rangeExc c .read part refuse.2.1).isNone && ((t.hPeek c part refuse.2.1).any refuse.2.2) then .exc (excOperand f.ra) t
  else match t.rangeExc c .read a size with
  | some e => .exc e (t.xlatNote e.addr)
  | none =>
    match t.rangeExc c .write a size with
    | some e => .exc e (t.xlatNote e.addr)
    | none =>
      match t.hRead c a size with
      | (_, some e, t1) => .exc e t1
      | (d, none, t1) =>
        let r := op d (signed 32 (x.g f.rb).toNat)
        retireD (t1.hWrite c (a + r.2.1) r.2.2) f.rd (BitVec.ofInt 64 r.1)

/-- A block that no part of it refuses. -/
def refusesNone : Nat × Nat × (List Byte → Bool) := (0, 0, fun _ => false)

/-- A signed field of n bytes. -/
def sfield (d : List Byte) (off n : Nat) : Int := signed (8 * n) (fieldAt d off n)

/-- UMIN over UMAX in the 8 bytes from byte 8 of a PI block (R166). -/
def piRefuse : Nat × Nat × (List Byte → Bool) := (8, 8, fun d => decide (sfield d 4 4 < sfield d 0 4))

/-- The PI step (R166). -/
def piOp (d : List Byte) (e : Int) : Int × Nat × List Byte :=
  let umin := sfield d 8 4
  let umax := sfield d 12 4
  let i := sfield d 16 8
  let p := (sfield d 0 4 * e).fdiv 65536
  let i1 := sat64 (i + sfield d 4 4 * e)
  let u := sat64 (p + i1.fdiv 65536)
  let r : Int × Int :=
    if umax < u then (umax, if 0 < e then i else i1)
    else if u < umin then (umin, if e < 0 then i else i1)
    else (u, i1)
  (r.1, 16, leBytes 8 (unsignedOf 64 r.2) ++ leBytes 4 (unsignedOf 32 r.1))

/-- PI (R166). -/
def execPi (c : Nat) (f : FmtA) (s : State) (link : LinkResult := .ok) : Result :=
  s.onLink link (fun u => .next (u.instr c norepPlace (ctlStep f c 32 piRefuse piOp)))

/-- The rate limit (R166). -/
def rlimOp (d : List Byte) (t : Int) : Int × Nat × List Byte :=
  let up : Int := fieldAt d 0 4
  let dn : Int := fieldAt d 4 4
  let y := sfield d 8 4
  let d1 := if up < t - y then up else t - y
  let d2 := if d1 < -dn then -dn else d1
  (y + d2, 8, leBytes 4 (unsignedOf 32 (y + d2)))

/-- RLIM (R166). -/
def execRlim (c : Nat) (f : FmtA) (s : State) (link : LinkResult := .ok) : Result :=
  s.onLink link (fun u => .next (u.instr c norepPlace (ctlStep f c 16 refusesNone rlimOp)))

/-- The first-order model step (R166). -/
def fomOp (d : List Byte) (x : Int) : Int × Nat × List Byte :=
  let a : Int := fieldAt d 0 2
  let y := sfield d 8 4
  let v := y + (a * (x - y) + 32768).fdiv 65536
  (v, 8, leBytes 4 (unsignedOf 32 v))

/-- FOM (R166). -/
def execFom (c : Nat) (f : FmtA) (s : State) (link : LinkResult := .ok) : Result :=
  s.onLink link (fun u => .next (u.instr c norepPlace (ctlStep f c 16 refusesNone fomOp)))

/-! ### Flint (R167, R168) -/

/-- FLINIT: open or restart the session; waits while 64 are open. -/
def execFlinit (c : Nat) (f : FmtA) (s : State) : Result :=
  .next (s.instr c norepPlace (fun t x => legal (noRegs f) t (
    if x.flint.isNone && 64 ≤ t.flintOpen then .wait .flint t
    else .retire {} (t.modCtx c (fun y => { y with flint := some {} })))))

/-- FLABS: elements until rb is 0 or the number of elements before an interruption is reached (R152, R167). -/
def flabsRun (f : FmtA) (c : Nat) : Nat → Nat → State → IStep
  | fuel, done, s =>
    let x := s.ctx c
    let n := (x.g f.rb).toNat
    if n = 0 then .retire { count := Nat.max 1 done } s
    else match fuel with
    | 0 => .retire { stay := true, count := done } s
    | fuel + 1 =>
      let a := (x.g f.ra).toNat
      let k := Nat.min 64 n
      match s.rangeExc c .read a k with
      | some e => blockExc c done e (s.xlatNote e.addr)
      | none =>
        match s.hRead c a k with
        | (_, some e, s1) => blockExc c done e s1
        | (d, none, s1) =>
          flabsRun f c fuel (done + 1) (s1.modCtx c (fun y =>
            let z := (y.setG f.ra (x.g f.ra + BitVec.ofNat 64 k)).setG f.rb (x.g f.rb - BitVec.ofNat 64 k)
            { z with flint := z.flint.map (fun q => { q with absorbed := q.absorbed ++ d }) }))

/-- FLABS: needs an open session that absorbs (R168). -/
def execFlabs (c : Nat) (f : FmtA) (limit : Nat) (s : State) (link : LinkResult := .ok) : Result :=
  s.onLink link (fun u => .next (u.instr c blockPlace (fun t x => legal (f.rd = 0) t (
    match x.flint with
    | some q => if q.squeezing then .exc { code := 2 } t else flabsRun f c (x.elements limit) 0 t
    | none => .exc { code := 2 } t))))

/-- FLSQZ: the next 8 output bytes, delayed (R137, R167, R168). -/
def execFlsqz (c : Nat) (f : FmtA) (s : State) : Result :=
  .next (s.instr c norepPlace (fun t x => legal (f.ra = 0 && f.rb = 0) t (
    match x.flint with
    | some q =>
      let v := leNat ((List.range 8).map (fun i => Config.shakeByte q.absorbed (q.pos + i)))
      retireD (t.modCtx c (fun y => { y with flint := some { q with squeezing := true, pos := q.pos + 8 } })) f.rd
        (BitVec.ofNat 64 v)
    | none => .exc { code := 2 } t)))

/-- The exception of the FLVER block and of the buffers it names. -/
def State.flverExc (s : State) (c : Nat) (l : List (Nat × Nat)) : Option Exc :=
  (l.filterMap (fun p => s.rangeExc c .read p.1 p.2)).head?

/-- FLVER asks Boiler for leave, as part of its wait: FLINT_DIE of the die budget, class SECURITY, with the deadline of the context. One
that is refused outright, or whose context holds 4 leases, goes on waiting (R24, R118, R418, R422; log 119). -/
def State.flverAsk (s : State) (c : Nat) : IStep :=
  .wait .flverLeave (if 4 ≤ (s.ctx c).leases.length then s else
    (s.leaveArrive (s.leaveReq (.context c) false 5 s.boiler.cfg.flintDie 65535 none (s.lstOf (s.ctx c).deadline))).2)

/-- FLVER with its block read: waits for leave and for Flint, then reads and verifies, and its leave ends (R167, R418; log 143). -/
def flverBlock (t : State) (c : Nat) (x : Ctx) (f : FmtA) (d : List Byte) : IStep :=
  let ma := fieldAt d 0 8
  let ml := fieldAt d 8 8
  let sa := fieldAt d 16 8
  let ka := fieldAt d 24 8
  let t0 := if x.answer = .verified then (t.flverRelease c).modCtx c (fun y => { y with answer := .none }) else t
  match t.flverExc c [(ma, ml), (sa, 29792), (ka, 64)] with
  | some e => .exc e t0
  | none =>
    if x.answer ≠ .verified then t.flverAsk c
    else
      match t0.hRead c ma ml with
      | (_, some e, t1) => .exc e t1
      | (m, none, t1) => match t1.hRead c sa 29792 with
        | (_, some e, t2) => .exc e t2
        | (g, none, t2) => match t2.hRead c ka 64 with
          | (_, some e, t3) => .exc e t3
          | (k, none, t3) => retireW t3 f.rd (if Config.slhVerify k m g then 0 else 1)

/-- FLVER (R167). -/
def execFlver (c : Nat) (f : FmtA) (s : State) (link : LinkResult := .ok) : Result :=
  s.onLink link (fun u => .next (u.instr c norepPlace (fun t x => legal (f.rb = 0) t (
    let a := (x.g f.ra).toNat
    if a % 8 ≠ 0 then .exc (excAlign (a % 2 ^ 38)) t
    else match t.rangeExc c .read a 32 with
    | some e => .exc e (t.xlatNote e.addr)
    | none => match t.hRead c a 32 with
      | (_, some e, t1) => .exc e t1
      | (d, none, t1) => flverBlock t1 c x f d))))

/-- FLEND (R167, R168). -/
def execFlend (c : Nat) (f : FmtA) (s : State) : Result :=
  .next (s.instr c anyPlace (fun t _ => legal (noRegs f) t (.retire {} (t.flintClose c))))

end Sys2Proof.Machine
end

