-- ==== Sys2Proof/Machine/Discovery.lean ====
section
/-! DEFINITION. Members in safe state, and the attachments of lane ports: discovery, probes, detach and overcurrent (R31, R32,
R291 to R294, R309 to R315, R326, R329). -/
namespace Sys2Proof.Machine

/-! ### Members in safe state (R31, R38, R329, R389, R456) -/

/-- The lane ports of a world. -/
def State.worldPorts (s : State) (w : World) : List Nat := (List.range 256).filter (fun n => s.portWorld n = some w)

/-- The drive ports of a world. -/
def State.worldDrives (s : State) (w : World) : List Nat := (List.range 64).filter (fun n => s.driveWorld n = some w)

/-- Whether a lane has a member of a world in safe state. -/
def State.laneHasSafe (s : State) (w : World) (l : Nat) : Bool :=
  (s.worldPorts w).any (fun n => s.portLane n = some l && (s.port n).safe)
    || (s.worldDrives w).any (fun n => s.driveLane n = some l && (s.drive n).memberSafe)

/-- SAFE_ENTRIES and the start of SAFE_NS for a member that enters safe state. -/
def State.laneEntered (s : State) (w : World) : Option Nat → State
  | some l =>
    let s1 := s.countLane w l 5 1
    if (s1.stats.get w).safeSince.any (fun p => p.1 = l) then s1
    else { s1 with stats := s1.stats.upd w (fun e => { e with safeSince := Tbl.ins e.safeSince l s.now }) }
  | none => s

/-- SAFE_NS of a lane whose last member leaves safe state. -/
def State.laneLeft (s : State) (w : World) : Option Nat → State
  | some l =>
    match Tbl.find (s.stats.get w).safeSince l with
    | some t =>
      if s.laneHasSafe w l then s
      else
        let s1 := if l < 128 then s.countBank w (s.spanOf .lane (16 * l + 6) t) else s
        { s1 with stats := s1.stats.upd w (fun e => { e with safeSince := e.safeSince.filter (fun p => p.1 != l) }) }
    | none => s
  | none => s

/-- A lane port enters safe state: queue-bound CCWs that run on its attachments end with PERIPH_REFUSED (R329). -/
def State.portMemberSafe (s : State) (n : Nat) : State :=
  if (s.port n).safe then s
  else
    let s1 := (s.ctxs.map (fun p => p.1)).foldl (fun t c =>
      let on := (t.ctx c).act.any (fun y => y.att.any (fun a => a / 16 = n))
      if on && (t.ctx c).live && !t.isResident c && !t.isProbe c then t.ccwStop c 3 0xFF01 else t) (s.portSafeOn n)
    match s.portWorld n with
    | some w => s1.laneEntered w (s.portLane n)
    | none => s1

/-- A lane port is released from safe state (R31, R329). -/
def State.portMemberRelease (s : State) (n : Nat) : State :=
  if !(s.port n).safe then s
  else match s.portWorld n with
  | some w => (s.portSafeOff n).laneLeft w (s.portLane n)
  | none => s.portSafeOff n

/-- A drive enters member safe state, with its lane's counts. -/
def State.driveSafeIn (s : State) (n : Nat) : State :=
  match (s.drive n).memberSafe, s.driveWorld n with
  | false, some w => (s.driveMemberSafe n).laneEntered w (s.driveLane n)
  | _, _ => s.driveMemberSafe n

/-- A drive is released from member safe state, with its lane's counts. -/
def State.driveSafeOut (s : State) (n : Nat) : State :=
  match (s.drive n).memberSafe, s.driveWorld n with
  | true, some w => (s.driveMemberRelease n).laneLeft w (s.driveLane n)
  | _, _ => s.driveMemberRelease n

/-- Every member of a world enters safe state (R36, R38). -/
def State.worldSafe (s : State) (w : World) : State :=
  (s.worldDrives w).foldl (fun t n => t.driveSafeIn n) ((s.worldPorts w).foldl (fun t n => t.portMemberSafe n) s)

/-! ### Detach and disable (R309, R326) -/

/-- Count an attachment that became READY (8) or EMPTY (9) in its lane. -/
def State.laneAtt (s : State) (a i : Nat) : State :=
  match s.portWorld (a / 16), s.portLane (a / 16) with
  | some w, some l => s.countLane w l i 1
  | _, _ => s

/-- An attachment becomes EMPTY: CCWs on it stop, a pending command ends with OVERCURRENT or DETACHED (R308), its channels are
discarded, and its entry keeps STATUS and SEQ. -/
def State.attDetach (s : State) (a status : Nat) : State :=
  let t := s.att a
  if t.state = .empty then s
  else
    let cut := !t.cmds.isEmpty
    let e := if !cut then t.error else if status = 5 then 0x0B else 0x0C
    let s0 := (((if t.hasChannels then s.txSpaceLatch a else s).attWithdrawn a).chanClear a).attChange a (fun t => { seq := t.seq, status := status, error := e, since := s.now })
    let s1 := if cut then (s0.attEvent a 5).countPort (a / 16) 6 1 else s0
    let s2 := s1.laneAtt a 9
    if t.state = .debounce then s2 else s2.modPort (a / 16) (fun p => { p with event := p.event ||| 2 })

/-- The attachments directly behind a hub. -/
def State.behind (s : State) (a : Nat) : List Nat :=
  (portAtts a).filter (fun b => b ≠ a && (s.att b).state ≠ .empty && (s.att b).tier ≠ 0 && (s.att b).parent = a % 16)

/-- An attachment goes, with all that is behind it (R294). -/
def State.detachTree (s : State) (a status : Nat) : Nat → State
  | 0 => s
  | k + 1 => (s.behind a).foldl (fun t b => t.detachTree b status k) (s.attDetach a status)

/-- Every attachment of a port is detached. -/
def State.detachAll (s : State) (n status : Nat) : State := (portAtts (16 * n)).foldl (fun t a => t.attDetach a status) s

/-- The outputs of a port that is disabled: pulses end at once, and every pin goes low (R42, R303). -/
def State.pinsOff (s : State) (n : Nat) : State :=
  (s.port n).cfg.outputs.foldl (fun t i => (t.pulseCut n i).modPin n i (fun p => { p with level := false, blink := none })) s

/-- A port is disabled: its pulses end, its attachments go, and its power with it (R291, R303, R326). -/
def State.portDisable (s : State) (n : Nat) : State :=
  (((s.pinsOff n).detachAll n 0).modPort n (fun p => { p with enabled := false, lpZ := true, ocRetry := none, rts := false, rtsAt := none, refused := [] })).portPower n

/-- PORT_PHY_FAULT: a fault of the port's PHY or of its port-group PLL disables the port (R326). -/
def execPortPhyFault (port : Nat) (s : State) : Result :=
  .next (if (s.port port).enabled then s.portDisable port else s)

/-- OVERCURRENT: power off, every attachment detached; the third within 60 s locks the port out (R291). -/
def execOvercurrent (port : Nat) (s : State) : Result :=
  let p := s.port port
  if !p.vbus then .next s
  else
    let times := s.now :: p.ocTimes.filter (fun t => s.now ≤ t + 60000000000)
    let lock := 3 ≤ times.length
    let s1 := (s.detachAll port 5).modPort port (fun p => { p with
      vbus := false, ocTimes := times, ocLockout := lock, event := p.event ||| 8, ocCnt := satInc32 p.ocCnt
      refused := []
      ocRetry := if lock then none else some (s.now + p.cfg.ocRetryMs * 1000000) })
    .next (s1.report (faultMsg (64 + port / 16) (port % 16) 0x0E port (s.portWorld port) false))

/-- OC_RETRY_EXPIRY: power returns OC_RETRY_MS after an overcurrent (R291). -/
def execOcRetryExpiry (port : Nat) (s : State) : Result :=
  match (s.port port).ocRetry with
  | some t => .next (if t ≤ s.now then (s.modPort port (fun p => { p with ocRetry := none })).portPower port else s)
  | none => .next s

/-! ### Candidates and probes (R288, R311 to R314) -/

/-- The units reserved for a slot: the entry's, or the default plan (R288). -/
def PortCfg.reserve (c : PortCfg) (t : Tbl Nat) (slot : Nat) : Nat :=
  if c.resRx = [] && c.resTx = [] then
    (if c.mode = 1 then (if slot = 0 then 16 else 1)
     else if c.mode = 4 then 16 / Nat.max 1 c.addr.length
     else if slot = 0 then 16 else 0)
  else Tbl.get 0 t slot

/-- Whether a USB profile's selected criteria hold of a device (R311). -/
def Profile.accepts (p : Profile) (d : Descriptors) : Bool :=
  let m := p.matchBits
  let triple := if d.cls = 0 then (d.ifCls, d.ifSub, d.ifProto) else (d.cls, d.sub, d.proto)
  (!bitAt m 0 || p.vid = d.vid) && (!bitAt m 1 || p.pid = d.pid) && (!bitAt m 2 || p.cls = triple.1)
    && (!bitAt m 3 || p.sub = triple.2.1) && (!bitAt m 4 || p.proto = triple.2.2)
    && (!bitAt m 5 || (p.bcdMin ≤ d.bcd && d.bcd ≤ p.bcdMax))

/-- The places in the PROFILE body of the candidates of an attachment, in order (R312). -/
def State.candEntries (s : State) (a : Nat) : List Nat :=
  match s.portWorld (a / 16) with
  | none => []
  | some w =>
    let k := s.img.profiles.get w
    let c := (s.port (a / 16)).cfg
    let named := fun (f : Profile → Bool) => (List.range k.profiles.length).filter (fun i => k.profiles[i]?.any f)
    if !k.loaded then []
    else if c.mode = 1 then
      match (s.att a).desc with
      | some d => named (fun p => p.usb && p.accepts d)
      | none => []
    else c.cands.flatMap (fun n => if n = 0 then [] else named (fun p => !p.usb && p.num = n))

/-- The candidates of an attachment in order (R312). -/
def State.candidates (s : State) (a : Nat) : List Profile :=
  match s.portWorld (a / 16) with
  | none => []
  | some w => (s.candEntries a).filterMap (fun i => (s.img.profiles.get w).profiles[i]?)

/-- The address of an attachment's state block, if its world has a PROFILE body (R314). -/
def State.blockAt (s : State) (a : Nat) : Option (Nat × Nat) :=
  match s.portWorld (a / 16) with
  | none => none
  | some w =>
    let k := s.img.profiles.get w
    if k.loaded then some (k.base + k.stride * a, k.stride) else none

/-- The content of a state block at the entry into PROBING (R314). -/
def State.blockBytes (s : State) (a stride : Nat) : List Byte :=
  let t := s.att a
  let usb := (s.port (a / 16)).cfg.mode = 1
  let d := t.desc.getD { speed := 3, vid := 0, pid := 0, bcd := 0, cls := 0, sub := 0, proto := 0, ifCls := 0, ifSub := 0
                         ifProto := 0, mps0 := 0, config := [], endpoints := [] }
  let cfg := if usb then d.config.take (stride - 64) else []
  let head := leBytes 2 a ++ leBytes 3 0 ++ leBytes 1 t.speed ++ leBytes 1 t.tier ++ leBytes 1 (if usb then 1 + a % 16 else 0)
    ++ leBytes 2 d.vid ++ leBytes 2 d.pid ++ leBytes 2 d.bcd ++ leBytes 1 d.cls ++ leBytes 1 d.sub ++ leBytes 1 d.proto
    ++ leBytes 1 0 ++ leBytes 2 d.mps0 ++ leBytes 2 cfg.length ++ leBytes 2 0 ++ leBytes 8 s.now ++ List.replicate 32 0
  head ++ cfg ++ List.replicate (stride - 64 - cfg.length) 0

/-- The state block is zeroed and filled. -/
def State.blockInit (s : State) (a : Nat) : State :=
  match s.blockAt a with
  | some (base, stride) => s.pnWrite base (s.blockBytes a stride)
  | none => s

/-- The TEXT string of a port: its own entry, or the world's default (R315). -/
def State.portText (s : State) (n : Nat) : List Byte :=
  match s.portWorld n with
  | some w =>
    let t := (s.wcfg w).text
    match Tbl.find t n with
    | some x => x
    | none => Tbl.get [] t 0xFFFF
  | none => []

/-- The ROM handlers send the text of a port to an attachment, under the built-in safe configuration (R63, R315). -/
def State.textOut (s : State) (a : Nat) : State :=
  if s.attic.config = .builtin && s.portText (a / 16) ≠ [] then s.emit (.wire (a / 16) (a % 16) (s.portText (a / 16))) else s

/-- SET_CONFIGURATION of a USB device with a value, or with that of its first configuration for 0 (R292, R294, R311). -/
def State.usbConfigure (s : State) (a want : Nat) : State :=
  match (s.att a).desc with
  | some d =>
    let v := if want = 0 then fieldAt d.config 5 1 else want
    (s.modAtt a (fun t => { t with config := v, toggles := [] })).emit (.usbConfig (a / 16) (a % 16) v)
  | none => s

/-- Whether an attachment is a USB HID auxiliary display (R63). -/
def Att.display (t : Att) : Bool := t.desc.any (fun d => d.usagePage = 0x14)

/-- An attachment is READY with its profile and version, those of the entry accepted (R309, R311, R314): a USB device is configured, and a display gets the closed
message from the ROM (R63, R69, R292, R311). -/
def State.attAccept (s0 : State) (a num ver : Nat) (entry : Option Nat := none) : State :=
  let p0 := s0.modAtt a (fun t => { t with profEntry := entry })
  let s := p0.usbConfigure a ((p0.profileOf a).elim 0 Profile.config)
  let s1 := (s.attChange a (fun t => { t with
    state := .ready, profile := num, pver := ver, probe := none, probeWait := none, since := s.now })).modPort (a / 16)
      (fun p => { p with event := p.event ||| 1 })
  let s2 := s1.laneAtt a 8
  let s3 := if (s.att a).display then s2.textOut a else s2
  match s.blockAt a with
  | some (base, _) => s3.pnWrite (base + 2) (leBytes 2 num ++ leBytes 1 ver)
  | none => s3

/-- The attachment whose probe waits longest in a world. -/
def State.probeWaiting (s : State) (w : World) : Option Nat :=
  (s.atts.filter (fun p => p.2.probeWait.isSome && s.portWorld (p.1 / 16) = some w)).foldl (fun b p => match b with
    | none => some p.1
    | some a => if p.2.probeOrder < (s.att a).probeOrder then some p.1 else b) none

/-- The one-CCW program of a probe: an EXEC of the handler, with the attachment as target and the profile number as
operand (R313). -/
def probeRecord (s : State) (a lane h : Nat) (p : Profile) : Ctx :=
  { state := .ready, lane := lane, level := 3, home := h, bindTime := s.now, tgtCount := 1, targets := Tbl.put 0 [] 0 a
    ccw := some { code := 9, param := p.probe + p.num * 65536 } }

/-- Start the probe that has waited longest in a world, if a probe context is FREE, no result of its last probe is still due, and it
has a Hearth: whether it was started. -/
def State.probeBegin (s : State) (w : World) : Bool × State :=
  match s.probeWaiting w, (s.wcfg w).probes.find? (fun c =>
      (s.ctx c).state = .free && !s.atts.any (fun p => p.2.probe.any (fun r => r.ctx = c))) with
  | some a, some c =>
    match (s.att a).probeWait, s.candidates a with
    | some i, l =>
      match l[i]? with
      | some p =>
        let lane := (s.portLane (a / 16)).getD 0xFF
        let k := s.homeCluster lane
        match s.placeHome k (s.att a).probeAsked with
        | .hearth h =>
          let s1 := (((s.setCtx c (probeRecord s a lane h p)).countSpill w k h).makeReady c)
          (true, s1.modAtt a (fun t => { t with
            probe := some { ctx := c, cand := i }, probeWait := none, probeAsked := false, probeStart := s.now }))
        | .switchOn j => (false, (s.modAtt a (fun t => { t with probeAsked := true })).boilerAsk (.cluster j) s.backgroundLst)
        | .none => (false, s)
      | none => (false, s)
    | none, _ => (false, s)
  | _, _ => (false, s)

/-- Start the waiting probes of a world, in the order of their requests. -/
def State.probesStart (s : State) (w : World) : Nat → State
  | 0 => s
  | n + 1 =>
    match s.probeBegin w with
    | (true, s1) => s1.probesStart w n
    | (false, s1) => s1

/-- Start the waiting probes of a port's world. -/
def State.probesOf (s : State) (a : Nat) : State :=
  match s.portWorld (a / 16) with
  | some w => s.probesStart w 16
  | none => s

/-- Try the candidates of an attachment from one of them: accepted, asked by a probe, or none is left (R309, R313). The
built-in safe configuration names no profile: its attachments are READY with PROFILE 0 (log 22). -/
def State.tryCand (s : State) (a i : Nat) : State :=
  if s.attic.config ≠ .image then s.attAccept a 0 0
  else match (s.candidates a)[i]? with
  | none => s.attChange a (fun t => { t with state := .failed, status := 3, probe := none, probeWait := none, since := s.now })
  | some p =>
    if p.probe = 0 then s.attAccept a p.num p.verMax (s.candEntries a)[i]?
    else
      let n := s.hearths.probeSeq
      let s1 := s.modAtt a (fun t => { t with probe := none, probeWait := some i, probeOrder := n, probeAsked := false })
      ({ s1 with hearths := { s1.hearths with probeSeq := n + 1 } }).probesOf a

/-- An attachment enters PROBING: its channels, its state block, and its first candidate (R309, R314). -/
def State.enterProbing (s : State) (a : Nat) : State :=
  let c := (s.port (a / 16)).cfg
  let s1 := (s.txSpaceLatches a).attChange a (fun t => { t with
    state := .probing, status := 0, since := s.now, probe := none, probeWait := none
    speed := if c.mode = 1 then t.speed else 3
    resRx := c.reserve c.resRx (a % 16), resTx := c.reserve c.resTx (a % 16) })
  ((s1.blockInit a).txSpaceLatch a).tryCand a 0

/-- Whether the probe of an attachment has ended before its PROBE_TIMEOUT_MS passed (R313). -/
def State.probeInTime (s : State) (a : Nat) (p : Profile) : Bool :=
  let t := s.att a
  t.probe.any (fun r => (s.ctx r.ctx).state = .free && (s.ctx r.ctx).endedAt ≤ t.probeStart + p.timeoutMs * 1000000)

/-- PROBE_END: the probe program of an attachment has ended; its status decides. Probes that wait take the context
(R313). -/
def execProbeEnd (a : Nat) (s : State) : Result :=
  let t := s.att a
  match t.state, t.probe with
  | .probing, some r =>
    let x := s.ctx r.ctx
    if x.state ≠ .free then .next (s.probesOf a)
    else match (s.candidates a)[r.cand]? with
    | some p =>
      let ok := x.lastStatus = 0 && p.verMin ≤ x.lastUnit && x.lastUnit ≤ p.verMax && s.probeInTime a p
      .next ((if ok then s.attAccept a p.num x.lastUnit (s.candEntries a)[r.cand]? else s.tryCand a (r.cand + 1)).probesOf a)
    | none => .next ((s.tryCand a (r.cand + 1)).probesOf a)
  | _, _ => .next (s.probesOf a)

/-- PROBE_TIMEOUT: PROBE_TIMEOUT_MS has passed since the probe started, and it had not ended before: its program is ended, the
candidate rejected (R313). -/
def execProbeTimeout (a : Nat) (s : State) : Result :=
  let t := s.att a
  match t.state, t.probe with
  | .probing, some r =>
    match (s.candidates a)[r.cand]? with
    | some p =>
      .next (if t.probeStart + p.timeoutMs * 1000000 ≤ s.now && !s.probeInTime a p then
        (((s.modAtt a (fun t => { t with probe := none })).haltOp r.ctx).tryCand a (r.cand + 1)).probesOf a
      else s)
    | none => .next s
  | _, _ => .next s

/-- REPROBE_TIMER: a failed serial attachment is probed again 5 s after it failed (R309). -/
def execReprobeTimer (a : Nat) (s : State) : Result :=
  let t := s.att a
  .next (if t.state = .failed && (s.port (a / 16)).cfg.mode ≠ 1 && t.since + 5000000000 ≤ s.now then s.enterProbing a else s)

/-! ### Discovery (R291 to R294, R309) -/

/-- A device is refused with ATTACH_LIMIT: PO_STATUS and PO_EVENT say so, and its hub port, or the port itself, is disabled
(R293). -/
def State.attRefuse (s : State) (n : Nat) (place : Option (Nat × Nat)) : State :=
  let w := place.getD (0, 0)
  s.modPort n (fun p => { p with
    refuseStatus := 1, refuseParent := w.1, refusePort := w.2, event := p.event ||| 4
    refused := if p.refused.contains place then p.refused else p.refused ++ [place] })

/-- The places of a port that stay disabled after a refusal, as far as a predicate keeps them: a device that goes, a hub that goes or
power that fails ends it (R293). -/
def State.keepRefused (s : State) (n : Nat) (keep : Option (Nat × Nat) → Bool) : State :=
  s.modPort n (fun p => { p with refused := p.refused.filter keep })

/-- Where an attachment is connected: the slot of its hub and the hub's port. -/
def Att.place (t : Att) : Option (Nat × Nat) := if t.tier = 0 then none else some (t.parent, t.hubPort)

/-- A number added in ascending order. -/
def insNat (x : Nat) : List Nat → List Nat
  | [] => [x]
  | y :: l => if x ≤ y then x :: y :: l else y :: insNat x l

/-- Connections of one hub found together, taken in ascending order of hub port: the slots of a group take the hub ports, and a hub
port that no slot is left for is refused (R293). -/
def State.groupTake (s : State) (n par : Nat) (slots hps : List Nat) : State :=
  let t := (slots.zip hps).foldl (fun t p => t.attChange p.1 (fun x => { x with hubPort := p.2 })) s
  (hps.drop slots.length).foldl (fun t hp => t.attRefuse n (some (par, hp))) t

/-- Where a connection is: the hubs before it, the slot of its hub and the hub's port; none where no device can be seen. -/
def State.connection (s : State) (n : Nat) : Option (Nat × Nat) → Option (Nat × Nat × Nat)
  | none => if (s.att (16 * n)).state = .empty && !(s.port n).refused.contains none then some (0, 0, 0) else none
  | some (slot, hp) =>
    let h := s.att (16 * n + slot)
    let taken := (s.behind (16 * n + slot)).any (fun b => (s.att b).hubPort = hp)
    if slot < 16 && hp < 16 && h.hub && h.state = .ready && h.tier < 2 && !taken
        && !(s.port n).refused.contains (some (slot, hp)) then some (h.tier + 1, slot, hp) else none

/-- USB_DISCONNECT: an attachment or a hub is removed, or a device that was refused goes: its hub port, or the port, is enabled again
(R293, R294, R309). -/
def execUsbDisconnect (a : Nat) (s : State) (refused : Option Nat := none) : Result :=
  let n := a / 16
  if (s.port n).cfg.mode ≠ 1 then .next s
  else match refused with
  | some hp =>
    let gone := if (s.att a).hub then some (a % 16, hp) else none
    .next (s.keepRefused n (fun p => p != gone))
  | none =>
    let t := s.detachTree a 0 3
    .next (if (s.att a).hub then t.keepRefused n (fun p => p.all (fun w => (t.att (16 * n + w.1)).hub)) else t)

/-- The attachments of a hub whose connection was found at this very time. -/
def State.foundNow (s : State) (n tier par : Nat) : List Nat :=
  (portAtts (16 * n)).filter (fun b => let t := s.att b
    t.state = .debounce && t.since = s.now && t.tier = tier && t.parent = par && tier ≠ 0)

/-- USB_CONNECT: a device takes the lowest free slot, directly on the port slot 0, or is refused; connections of a hub at one time are
taken in ascending order of hub port (R32, R293). -/
def execUsbConnect (port : Nat) (parent : Option (Nat × Nat)) (hub : Bool) (s : State) : Result :=
  let p := s.port port
  if p.cfg.mode ≠ 1 || !p.vbus then .next s
  else match s.connection port parent with
  | none => .next s
  | some (tier, par, hp) =>
    let place := if tier = 0 then none else some (par, hp)
    let group := s.foundNow port tier par
    let hps := group.foldl (fun l b => insNat (s.att b).hubPort l) [hp]
    if hub && (!p.cfg.hubs || tier = 2) then .next (s.attRefuse port place)
    else match (portAtts (16 * port)).find? (fun a => (s.att a).state = .empty) with
    | some a =>
      let s1 := s.attChange a (fun t => { seq := t.seq, state := .debounce, tier := tier, parent := par, hubPort := hp, since := s.now })
      .next (if group = [] then s1 else s1.groupTake port par (insNat a group) hps)
    | none => .next (if tier = 0 then s.attRefuse port none else s.groupTake port par group hps)

/-- Step 3 of discovery begins behind a hub: the Porch resets the hub's port (R292, R294). -/
def State.hubReset (s : State) (a : Nat) : State :=
  let t := s.att a
  if t.tier = 0 then s else s.emit (.hubReset (a / 16) t.parent t.hubPort)

/-- DEBOUNCE_STABLE: stable for 100 ms, enumeration begins (R292, R309). -/
def execDebounceStable (a : Nat) (s : State) : Result :=
  let t := s.att a
  .next (if t.state = .debounce && t.since + 100000000 ≤ s.now then
    (s.attChange a (fun t => { t with state := .enumerating, since := s.now })).hubReset a else s)

/-- The largest IN packet that a device can send (R309). -/
def maxInOf (d : Descriptors) : Nat :=
  (d.endpoints.filter (fun e => bitAt e.addr 7 && e.kind ≠ 1)).foldl (fun m e => Nat.max m e.mps) d.mps0

/-- A hub that is configured: its ports get power, and its status-change endpoint is polled from now on (R294). -/
def State.hubStart (s : State) (a : Nat) : State :=
  (s.emit (.hubPower (a / 16) (a % 16))).emit (.hubPoll (a / 16) (a % 16))

/-- The descriptors of a device have been read, once it has its address (R290, R292 to R294, R309). -/
def State.enumerated (s0 : State) (a : Nat) (d : Descriptors) : State :=
  let s := (s0.modAtt a (fun t => { t with addr := 1 + a % 16 })).emit (.usbAddress (a / 16) (a % 16) (1 + a % 16))
  let t := s.att a
  let c := (s.port (a / 16)).cfg
  if d.cls = 9 then
    if c.hubs && t.tier < 2 then
      (((s.attChange a (fun t => { t with state := .ready, hub := true, speed := d.speed, desc := some d, since := s.now })).modPort
        (a / 16) (fun p => { p with event := p.event ||| 1 })).laneAtt a 8).usbConfigure a 0 |>.hubStart a
    else
      (s.attChange a (fun t => { seq := t.seq, status := 1, since := s.now })).attRefuse (a / 16) t.place
  else
    let room := (s.modAtt a (fun t => { t with
      resRx := c.reserve c.resRx (a % 16), resTx := c.reserve c.resTx (a % 16) })).rxFree a
    let s1 := s.modAtt a (fun t => { t with desc := some d })
    if room < ceilDiv (maxInOf d) 4 + 1 then
      s1.attChange a (fun t => { t with state := .failed, status := 4, speed := d.speed, since := s.now })
    else (s1.modAtt a (fun t => { t with speed := d.speed })).enterProbing a

/-- ENUMERATION_DONE: the descriptors are read, or an attempt fails: the third leaves the attachment FAILED (R292, R309). -/
def execEnumerationDone (a : Nat) (d : Option Descriptors) (s : State) : Result :=
  let t := s.att a
  if t.state ≠ .enumerating || s.now < t.since + 60000000 then .next s
  else match d with
  | some x => .next (s.enumerated a x)
  | none =>
    if 2 ≤ t.attempts then
      .next ((s.attChange a (fun t => { t with state := .failed, status := 2, since := s.now })).modPort (a / 16)
        (fun p => { p with event := p.event ||| 64 }))
    else .next ((s.modAtt a (fun t => { t with attempts := t.attempts + 1, since := s.now })).hubReset a)

/-! ### A port is ungated (R285, R291, R309) -/

/-- A port is ungated and works: USB power, outputs at their SAFE levels, and serial attachments PROBING. Under the built-in
safe configuration a UART port sends its string once (R63). -/
def State.portEnable (s : State) (n : Nat) : State :=
  let c := (s.port n).cfg
  if (s.port n).enabled || c.mode = 0 then s
  else
    let s1 := (s.modPort n (fun p => { p with enabled := true, lpZ := false })).portPower n
    let s2 := if (s1.port n).safe then s1.pinsSafe n else s1
    let s3 := if c.mode = 2 then s2.rtsFlow n else s2
    let slots := if c.mode = 4 then (List.range 16).filter (fun i => Tbl.get 0 c.addr i ≠ 0) else if c.mode = 1 then [] else [0]
    let s4 := slots.foldl (fun t i => t.enterProbing (16 * n + i)) s3
    if c.mode = 2 then s4.textOut (16 * n) else s4

end Sys2Proof.Machine
end

