-- ==== Sys2Proof/Machine/Quartz.lean ====
section
/-! DEFINITION. Quartz, its compare units and linked counters, and the statistics epochs (chapter 12). -/
namespace Sys2Proof.Machine

/-! ### Advances and compare units -/

/-- Whether a target is passed at a counter value: both are taken modulo 2^32. -/
def cmpPassed (t q : Nat) : Bool := (q % 2 ^ 32 + 2 ^ 32 - t % 2 ^ 32) % 2 ^ 32 < 2 ^ 31

/-- The match condition of R438 at an advance from `prev` to `now`. -/
def CmpUnit.matchesAt (u : CmpUnit) (window : Bool) (prev now : Nat) : Bool :=
  u.arm && (if window then cmpPassed u.tgt.toNat now else
    let d := (u.tgt.toNat + 2 ^ 32 - prev % 2 ^ 32) % 2 ^ 32
    1 ≤ d && d ≤ (now % 2 ^ 32 + 2 ^ 32 - prev % 2 ^ 32) % 2 ^ 32)

/-- The automatic adds that pass the present value (R440), for an interval of at most 2^31. -/
def cmpAdds (tgt int now : Nat) : Nat := (now % 2 ^ 32 + 2 ^ 32 - tgt % 2 ^ 32) % 2 ^ 32 / int + 1

/-- The unit after a match, and whether the event is LATE (R439, R440). -/
def CmpUnit.afterMatch (u : CmpUnit) (now : Nat) : CmpUnit × Bool :=
  if u.int = 0 then ({ u with arm := false, tgtLate := false }, u.tgtLate)
  else
    let n := cmpAdds u.tgt.toNat u.int.toNat now
    ({ u with
        tgt := BitVec.ofNat 32 (u.tgt.toNat + n * u.int.toNat)
        missed := satAt 65535 (u.missed + (n - 1))
        tgtLate := false }, u.tgtLate || 1 < n)

/-- A write applied at the advance to `now`; the second value is an event that the write itself delivers (R441). -/
def CmpUnit.applyWrite (u : CmpUnit) (now : Nat) : CmpWrite → CmpUnit × Bool
  | .tgt v => ({ u with tgt := v, tgtLate := cmpPassed v.toNat now }, false)
  | .int v =>
    if u.arm && u.int ≠ 0 && v ≠ 0 then
      let base := u.tgt - u.int
      if cmpPassed (base + v).toNat now then
        ({ u with int := v, tgt := BitVec.ofNat 32 now + v, tgtLate := false }, true)
      else ({ u with int := v, tgt := base + v, tgtLate := false }, false)
    else ({ u with int := v }, false)
  | .ctl v msixCount =>
    let armed := bitAt v.toNat 0
    let vec := bits v.toNat 16 11
    ({ u with
        arm := armed
        irq := bitAt v.toNat 1
        vec := if vec < msixCount then vec else u.vec
        tgtLate := if armed && !u.arm then cmpPassed u.tgt.toNat now else u.tgtLate }, false)
  | .stat v =>
    ({ u with
        fired := u.fired && !bitAt v.toNat 0
        missed := if bitAt v.toNat 0 then 0 else u.missed
        late := u.late && !bitAt v.toNat 1 }, false)
  | .pend => ({ u with pend := false }, false)

/-- One request for a burst at a Dumbwaiter: counted while a descriptor is taken, up to 255, lost beyond, and
discarded otherwise (R362). -/
def Dw.request (d : Dw) : Dw :=
  match d.state with
  | .disabled | .idle | .error => d
  | _ => if d.reqPending < 255 then { d with reqPending := d.reqPending + 1 } else { d with reqLost := satInc32 d.reqLost }

/-- One request to every Dumbwaiter that waits on a compare unit. -/
def State.dwRequestUnit (s : State) (u : Nat) : State :=
  { s with dws := s.dws.map (fun p => if p.2.reqKind = 2 && p.2.reqUnit = u then (p.1, p.2.request) else p) }

/-- The effects of an event of a unit (R443). -/
def State.cmpEvent (s : State) (u : Nat) (late : Bool) : State :=
  let s1 := s.modCmp u (fun x => { x with fired := true, late := x.late || late, pend := true })
  let s2 := (s1.latchEvents 2 u (if late then 3 else 1)).dwRequestUnit u
  match s.cmpWorld u with
  | some w => if (s2.cmp u).irq then s2.msixRunning w (s2.cmp u).vec else s2
  | none => s2

/-- Evaluate the match of a unit at the last advance and deliver its event. -/
def State.cmpMatch (s : State) (u : Nat) : State :=
  let x := s.cmp u
  if x.matchesAt s.qz.window s.qz.prev s.qz.now then
    let r := x.afterMatch s.qz.now
    (s.modCmp u (fun _ => r.1)).cmpEvent u r.2
  else s

/-- Apply writes to one unit, oldest first; the second value says whether one of them delivers an event. -/
def CmpUnit.applyAll (u : CmpUnit) (now : Nat) : List CmpWrite → CmpUnit × Bool
  | [] => (u, false)
  | w :: ws =>
    let a := u.applyWrite now w
    let b := a.1.applyAll now ws
    (b.1, a.2 || b.2)

/-- Apply the waiting writes of a unit at the last advance, then evaluate its match (R442): at most one event. -/
def State.cmpApply (s : State) (ws : List (Nat × CmpWrite)) (u : Nat) : State :=
  let r := (s.cmp u).applyAll s.qz.now ((ws.filter (fun p => p.1 = u)).map (fun p => p.2))
  let s1 := s.modCmp u (fun _ => r.1)
  if r.2 then s1.cmpEvent u true else s1.cmpMatch u

/-- An advance of the counter, at which the waiting writes apply and the Landings keep their latest-service times (R403, R434, R442). -/
def State.advanceTo (s : State) (q : Nat) : State :=
  let ws := s.qz.writes
  let s1 := { s with qz := { s.qz with prev := s.qz.now, now := q % 2 ^ 64, writes := [] } }.landsKeep
  (ws.map (fun p => p.1)).dedup.foldl (fun t u => t.cmpApply ws u) s1

/-- One advance on the reference (R434). In LF running, and while the device has no supply, the counter holds. -/
def State.tick (s : State) : State :=
  if s.qz.lf || s.pw.lost || !s.pw.railsOk then s else s.advanceTo (s.qz.now + Config.advanceNs)

/-- Accept a write to a unit: it takes effect at the first advance after it (R442), which on the reference is the
one that follows at once. -/
def State.cmpAccept (s : State) (u : Nat) (w : CmpWrite) : State :=
  ({ s with qz := { s.qz with writes := s.qz.writes ++ [(u, w)] } }).tick

/-- A host write to a register of a unit: of the own world, not locked (R446, R447). -/
def State.cmpHostWrite (s : State) (fn : World) (u : Nat) (off : Nat) (w : CmpWrite) : State :=
  s.hostItem fn off (s.cmpWorld u) (fun t =>
    if (t.cmp u).lock then t.discardFault fn 99 off else t.cmpAccept u w)

/-- A host write of QZ_CMP_TGT. -/
def State.cmpWriteTgt (s : State) (fn : World) (u : Nat) (v : W32) : State :=
  s.cmpHostWrite fn u (0x401000 + 16 * u) (.tgt v)

/-- A host write of QZ_CMP_INT: a value of 1 to 999 or above 2,000,000,000 is discarded and recorded (R447). -/
def State.cmpWriteInt (s : State) (fn : World) (u : Nat) (v : W32) : State :=
  if (1 ≤ v.toNat ∧ v.toNat ≤ 999) ∨ 2000000000 < v.toNat then
    s.hostItem fn (0x401004 + 16 * u) (s.cmpWorld u) (fun t => t.discardFault fn 99 (0x401004 + 16 * u))
  else s.cmpHostWrite fn u (0x401004 + 16 * u) (.int v)

/-- A host write of QZ_CMP_CTL. -/
def State.cmpWriteCtl (s : State) (fn : World) (u : Nat) (v : W32) : State :=
  s.cmpHostWrite fn u (0x401008 + 16 * u) (.ctl v (s.wcfg fn).msixCount)

/-- A host write of QZ_CMP_STAT. -/
def State.cmpWriteStat (s : State) (fn : World) (u : Nat) (v : W32) : State :=
  s.cmpHostWrite fn u (0x40100C + 16 * u) (.stat v)

/-- A host write of QZ_PEND_w: the bits of the other world are not there. -/
def State.pendWrite (s : State) (fn : World) (w : Nat) (v : W32) : State :=
  if s.done then
    let us := (List.range 32).filter (fun b => bitAt v.toNat b && (s.cmpWorld (32 * w + b) = some fn))
    if us = [] then s else
    ({ s with qz := { s.qz with writes := s.qz.writes ++ us.map (fun b => (32 * w + b, CmpWrite.pend)) } }).tick
  else s

/-! ### The two clocks (R435, R436) -/

/-- Enter LF running: the count of entries advances, and the running epochs carry CAUSE LF. -/
def State.enterLf (s : State) : State :=
  if s.qz.lf then s else
  { s with
    qz := { s.qz with lf := true, lfCnt := satInc32 s.qz.lfCnt }
    stats := (s.stats.upd .slate (fun e => { e with cause := e.cause ||| 64 })).upd .granite
      (fun e => { e with cause := e.cause ||| 64 }) }

/-- Leave LF running at the present counter value. -/
def State.leaveLf (s : State) : State :=
  { s with qz := { s.qz with lf := false, refLost := false, tL := s.qz.now, lfEdges := 0 } }

/-- The consecutive LF periods that the reference has run without loss, at an edge that says whether it ran in the last one; 32 are
enough (R436). -/
def goodAfter (g : Nat) (refGood : Bool) : Nat := if refGood then Nat.min 32 (g + 1) else 0

/-- ⌊k × 30,517.578125⌋ (R436). -/
def lfNs (k : Nat) : Nat := k * 1953125 / 64

/-- REF_LOST: a loss of the reference, which is recorded, or the board's stop of it (R435). -/
def execRefLost (byLoss : Bool) (s : State) : Result :=
  let s1 := s.enterLf
  let entered := !s.qz.lf && byLoss
  let s2 := { s1 with qz := { s1.qz with
    refLost := true, goodPeriods := 0, refLostBit := s1.qz.refLostBit || entered } }
  s.whenPowered (if byLoss then s2.report (faultMsg 99 0 0x13 1 none false) else s2)

/-- LF_EDGE: on the reference it fixes t_L; in LF running it sets the counter, and after 32 good periods without a
debug halt Quartz returns to the reference. An edge that leaves the counter as it is is no advance (R434, R436, R442). An edge ends
LF_ABSENT (log 18). -/
def execLfEdge (refGood : Bool) (s : State) : Result :=
  let s0 := { s with qz := { s.qz with lfAbsent := false } }
  if !s.powered then .next s
  else if s.qz.lf then
    let k := s.qz.lfEdges + 1
    let g := goodAfter s.qz.goodPeriods refGood
    let s1 := { s0 with qz := { s0.qz with lfEdges := k, goodPeriods := g } }
    let q := Nat.max s.qz.now (s.qz.tL + lfNs k)
    let s2 := if q = s.qz.now then s1 else s1.advanceTo q
    .next (if 32 ≤ g ∧ !s.qz.debugHalt then s2.leaveLf else s2)
  else .next { s0 with qz := { s0.qz with tL := s.qz.now, lfEdges := 0, goodPeriods := goodAfter s.qz.goodPeriods refGood } }

/-- LF_ABSENT: no LF edge for 100 µs. The first report sets the bit with a severe fault; while it lasts, a counter
held by a lost reference runs again when the reference does (log 18). -/
def execLfAbsent (refRuns : Bool) (s : State) : Result :=
  let s1 := if s.qz.lfAbsent then s else
    ({ s with qz := { s.qz with lfAbsent := true } }).report (faultMsg 99 0 0x13 2 none true)
  s.whenPowered (if s1.qz.lf && refRuns && !s1.qz.debugHalt then s1.leaveLf else s1)

/-! ### Commands of the compare units -/

/-- CMP_TGT_WRITE. -/
def execCmpTgtWrite (fn : World) (u : Nat) (v : W32) (s : State) : Result := .next (s.cmpWriteTgt fn u v)

/-- CMP_INT_WRITE. -/
def execCmpIntWrite (fn : World) (u : Nat) (v : W32) (s : State) : Result := .next (s.cmpWriteInt fn u v)

/-- CMP_ARM_WRITE: a write of QZ_CMP_CTL. -/
def execCmpArmWrite (fn : World) (u : Nat) (v : W32) (s : State) : Result := .next (s.cmpWriteCtl fn u v)

/-! ### Epochs (R449 to R458) -/

/-- The sum of two banks. -/
def Bank.plus (a b : Bank) : Bank :=
  { world := b.world.foldl (fun t p => Tbl.upd 0 t p.1 (fun v => satAdd64 v p.2)) a.world
    lane := b.lane.foldl (fun t p => Tbl.upd 0 t p.1 (fun v => satAdd64 v p.2)) a.lane
    port := b.port.foldl (fun t p => Tbl.upd 0 t p.1 (fun v => satAdd64 v p.2)) a.port }

/-- Publish the latched epoch: the bank, then ST_EPOCH_SEQ, then MSI-X (R453). -/
def State.publish (s : State) (w : World) : State :=
  match (s.stats.get w).latched with
  | none => s
  | some e =>
    ({ s with stats := s.stats.upd w (fun x =>
        { x with readable := e, latched := none, seq := (x.seq + 1) % 2 ^ 32 }) }).msixRunning w (s.stats.get w).vec

/-- ST_NEXT after a boundary (R450). -/
def nextEpoch (tb periodMs : Nat) : Nat :=
  if periodMs = 0 then 0xFFFFFFFFFFFFFFFF else tb + periodMs * 1000000

/-- Close the time-valued counters of a world at a boundary: SAFE_NS of its lanes and LEAVE_WAIT_NS (R452). -/
def State.closeTimes (s : State) (w : World) (tb : Nat) : State :=
  let e := s.stats.get w
  let waits := (s.boiler.waiting.filter (fun r => r.world = some w)).map (fun r => tb - r.since)
  let lane := e.safeSince.foldl (fun t p => Tbl.upd 0 t (16 * p.1 + 6) (fun v => satAdd64 v (tb - p.2))) e.bank.lane
  let world := waits.foldl (fun t n => Tbl.upd 0 t 8 (fun v => satAdd64 v n)) e.bank.world
  { s with
    stats := s.stats.set w { e with
      bank := { e.bank with lane := lane, world := world }
      safeSince := e.safeSince.map (fun p => (p.1, Nat.max p.2 tb)) }
    boiler := { s.boiler with waiting := s.boiler.waiting.map (fun r =>
      if r.world = some w then { r with since := Nat.max r.since tb } else r) } }

/-- A counter value without a part of it; a saturated one stays. -/
def satSub64 (v n : Nat) : Nat := if v = 0xFFFFFFFFFFFFFFFF then v else v - n

/-- A closing bank and the one that begins, where what was counted past a boundary time goes over from the one to the other (R452). -/
def Bank.splitAt (b : Bank) (tb : Nat) (l : List Counted) : Bank × Bank :=
  l.foldl (fun p c => (p.1.upd c.table c.key (fun v => satSub64 v (c.past tb)), p.2.upd c.table c.key (fun v => satAdd64 v (c.past tb))))
    (b, {})

/-- Take a boundary at T_b with CAUSE bits; `split` says that it is the periodic one, past which has been counted apart. What was counted
at T_b or since goes over, for END is exclusive (R452). A boundary not yet published is published first. -/
def State.takeBoundary (s : State) (w : World) (tb cause : Nat) (split : Bool) : State :=
  let s1 := (s.publish w).closeTimes w tb
  let e := s1.stats.get w
  let r := if split then (e.bank, e.bankNext) else (e.bank.plus e.bankNext).splitAt tb e.recent
  { s1 with stats := s1.stats.set w { e with
      latched := some { bank := r.1, start := e.start, stop := tb, cause := cause ||| e.cause }
      bank := r.2
      bankNext := {}
      start := tb
      cause := if s1.qz.lf then 64 else 0
      next := nextEpoch tb e.periodMs
      bounded := true } }

/-- The periodic boundary that is due. -/
def State.duePeriod (s : State) (w : World) : State :=
  let e := s.stats.get w
  if e.running && e.periodMs ≠ 0 && e.next ≤ s.now then
    s.takeBoundary w e.next 1 true
  else s

/-- A trigger other than the period, at T_b: merged into a boundary less than 10 µs before it (R450). -/
def State.trigger (s : State) (w : World) (tb cause : Nat) : State :=
  let s1 := s.duePeriod w
  let e := s1.stats.get w
  if !e.running then s1
  else if e.bounded && tb < e.start + 10000 then
    { s1 with stats := s1.stats.set w (match e.latched with
        | some l => { e with latched := some { l with cause := l.cause ||| cause } }
        | none => { e with readable := { e.readable with cause := e.readable.cause ||| cause } }) }
  else s1.takeBoundary w tb cause false

/-- EPOCH_PERIOD: Quartz has reached ST_NEXT. -/
def execEpochPeriod (fn : World) (s : State) : Result := .next (s.duePeriod fn)

/-- A write of ST_CTL. -/
def State.stCtlWrite (s : State) (fn : World) (v : Nat) : State :=
  if s.done && bitAt v 0 then s.trigger fn s.now 4 else s

/-- EPOCH_NOW: a write of ST_CTL. -/
def execEpochNow (fn : World) (v : W32) (s : State) : Result := .next (s.stCtlWrite fn v.toNat)

/-- A write of ST_PERIOD_MS (R451). -/
def State.stPeriodSet (s : State) (fn : World) (v : Nat) : State :=
  if s.done then
    if (s.stats.get fn).lock || 86400000 < v then s.discardFault fn 100 0xC00008
    else
      let s1 := s.duePeriod fn
      let e := s1.stats.get fn
      let s2 := { s1 with stats := s1.stats.set fn { e with periodMs := v } }
      if v ≠ 0 && e.start + v * 1000000 ≤ s.now then s2.trigger fn s.now 9
      else { s2 with stats := s2.stats.set fn { e with periodMs := v, next := nextEpoch e.start v } }
  else s

/-- ST_PERIOD_WRITE. -/
def execStPeriodWrite (fn : World) (v : W32) (s : State) : Result := .next (s.stPeriodSet fn v.toNat)

/-- EPOCH_PUBLISH: not before 10 µs after T_b (R453). -/
def execEpochPublish (fn : World) (s : State) : Result :=
  match (s.stats.get fn).latched with
  | some e => .next (if e.stop + 10000 ≤ s.now then s.publish fn else s)
  | none => .next s

/-- STAT_SYNC: an edge since which the level has been stable; accepted when of the chosen polarity, stable for 1 µs,
and not less than 100 µs after the last accepted edge (R445). -/
def execStatSync (since : Nat) (rising : Bool) (s : State) : Result :=
  let stable := since + (if s.qz.lf then 0 else 1000) ≤ s.now
  let apart := s.qz.syncCnt = 0 || s.qz.sync + 100000 ≤ since
  if s.powered && stable && apart && (rising != s.qz.syncFalling) then
    let s1 := { s with qz := { s.qz with sync := since, syncCnt := satInc32 s.qz.syncCnt } }
    let s2 := if (s1.stats.get .slate).syncEn then s1.trigger .slate since 2 else s1
    .next (if (s2.stats.get .granite).syncEn then s2.trigger .granite since 2 else s2)
  else .next s

/-! ### Linked counters (R437, R457) -/

/-- The block of a linked counter: Quartz or statistics. -/
inductive LinkedBlock where
  | qz
  | st
  deriving DecidableEq, Repr

/-- The linked counter whose low word lies at an offset of a function: its block and its value. -/
def State.linkedAt (s : State) (fn : World) (off : Nat) : Option (LinkedBlock × Nat) :=
  let e := s.stats.get fn
  if off = 0x400000 then some (.qz, s.qz.now)
  else if off = 0x400010 then some (.qz, s.qz.sync)
  else if off = 0xC00010 then some (.st, e.readable.start)
  else if off = 0xC00018 then some (.st, e.readable.stop)
  else if off = 0xC00020 then some (.st, e.next)
  else if 0xC00100 ≤ off ∧ off < 0xC00168 ∧ off % 8 = 0 then
    some (.st, Tbl.get 0 e.readable.bank.world ((off - 0xC00100) / 8))
  else if 0xC10000 ≤ off ∧ off < 0xC18000 ∧ off % 8 = 0 ∧ off % 256 < 80 then
    some (.st, Tbl.get 0 e.readable.bank.lane (16 * ((off - 0xC10000) / 256) + off % 256 / 8))
  else if 0xC20000 ≤ off ∧ off < 0xC30000 ∧ off % 8 = 0 ∧ off % 256 < 64 then
    if s.portWorld ((off - 0xC20000) / 256) = some fn then
      some (.st, Tbl.get 0 e.readable.bank.port (8 * ((off - 0xC20000) / 256) + off % 256 / 8))
    else none
  else none

/-- The port whose statistics lie at an offset, if any. -/
def statPort (off : Nat) : Option Nat :=
  if 0xC20000 ≤ off ∧ off < 0xC30000 ∧ off % 256 < 64 then some ((off - 0xC20000) / 256) else none

/-- The snapshot register of a block for a function. -/
def State.snapOf (s : State) (fn : World) : LinkedBlock → Snapshot
  | .qz => s.qz.snap.get fn
  | .st => (s.stats.get fn).snap

/-- The state with a snapshot register replaced. -/
def State.setSnap (s : State) (fn : World) (b : LinkedBlock) (x : Snapshot) : State :=
  match b with
  | .qz => { s with qz := { s.qz with snap := s.qz.snap.set fn x } }
  | .st => { s with stats := s.stats.upd fn (fun e => { e with snap := x }) }

/-- The state with TORN_RISK of a block set. -/
def State.setTorn (s : State) (fn : World) : LinkedBlock → State
  | .qz => { s with qz := { s.qz with torn := s.qz.torn.set fn true } }
  | .st => { s with stats := s.stats.upd fn (fun e => { e with torn := true }) }

/-- A 32-bit read of a low word of a linked counter: its value, and the snapshot of the high word (R437). -/
def State.linkedLow (s : State) (fn : World) (off : Nat) : Option (W64 × State) :=
  if s.done then
    (s.linkedAt fn off).map (fun (b, v) =>
      (BitVec.ofNat 64 (v % 2 ^ 32), s.setSnap fn b { low := some off, high := BitVec.ofNat 32 (v / 2 ^ 32) }))
  else none

/-- A 64-bit read of a linked counter: its value at one moment, with no snapshot (R437). -/
def State.linkedWide (s : State) (fn : World) (off : Nat) : Option W64 :=
  if s.done then (s.linkedAt fn off).map (fun p => BitVec.ofNat 64 p.2) else none

/-- A 32-bit read of a high word of a linked counter: the snapshot of the same counter, or the live word with TORN_RISK (R437). -/
def State.linkedHigh (s : State) (fn : World) (off : Nat) : Option (W64 × State) :=
  if s.done && 4 ≤ off then
    (s.linkedAt fn (off - 4)).map (fun (b, v) =>
      let x := s.snapOf fn b
      if x.low = some (off - 4) then (BitVec.ofNat 64 x.high.toNat, s)
      else (BitVec.ofNat 64 (v / 2 ^ 32 % 2 ^ 32), s.setTorn fn b))
  else none

/-! ### Registers of the QZ and ST blocks -/

/-- The word that a 32-bit read of the QZ block returns, linked words apart (R447, R448). -/
def State.qzRead (s : State) (fn : World) (off : Nat) : Nat :=
  let own := fun u => s.cmpWorld u = some fn
  if off = 0x400008 then
    bnat s.qz.lf + 2 * bnat s.qz.debugHalt + 4 * bnat (s.qz.torn.get fn) + 8 * bnat s.qz.refLostBit
      + 16 * bnat s.qz.lfAbsent + 32 * bnat s.qz.window
  else if off = 0x40000C then s.qz.lfCnt
  else if off = 0x400018 then s.qz.syncCnt
  else if 0x400100 ≤ off ∧ off < 0x400180 then
    let w := (off - 0x400100) / 4
    ((List.range 32).map (fun b => if own (32 * w + b) && (s.cmp (32 * w + b)).pend then 2 ^ b else 0)).sum
  else if 0x401000 ≤ off ∧ off < 0x405000 then
    let u := (off - 0x401000) / 16
    if own u then
      let x := s.cmp u
      match off % 16 with
      | 0 => x.tgt.toNat
      | 4 => x.int.toNat
      | 8 => bnat x.arm + 2 * bnat x.irq + 4 * bnat x.lock + x.vec * 2 ^ 16
      | 12 => bnat x.fired + 2 * bnat x.late + x.missed * 2 ^ 16
      | _ => 0
    else 0
  else 0

/-- A 32-bit write to the QZ block. -/
def State.qzWrite (s : State) (fn : World) (off : Nat) (v : W32) : State :=
  if off = 0x400008 then
    { s with qz := { s.qz with
      torn := s.qz.torn.upd fn (fun b => b && !bitAt v.toNat 2)
      refLostBit := s.qz.refLostBit && !bitAt v.toNat 3 } }
  else if 0x400100 ≤ off ∧ off < 0x400180 then s.pendWrite fn ((off - 0x400100) / 4) v
  else if 0x401000 ≤ off ∧ off < 0x405000 then
    let u := (off - 0x401000) / 16
    match off % 16 with
    | 0 => s.cmpWriteTgt fn u v
    | 4 => s.cmpWriteInt fn u v
    | 8 => s.cmpWriteCtl fn u v
    | 12 => s.cmpWriteStat fn u v
    | _ => s
  else s

/-- The word that a 32-bit read of the ST block returns, linked words apart (R457, R458). -/
def State.stRead (s : State) (fn : World) (off : Nat) : Nat :=
  let e := s.stats.get fn
  if off = 0xC00004 then bnat e.torn + 2 * bnat e.lock + 4 * bnat e.syncEn
  else if off = 0xC00008 then e.periodMs
  else if off = 0xC0000C then e.seq
  else if off = 0xC00028 then e.readable.cause
  else if off = 0xC0002C then e.vec
  else 0

/-- A 32-bit write to the ST block; one to the counters of another world's port is recorded (R236). -/
def State.stWrite (s : State) (fn : World) (off : Nat) (v : W32) : State :=
  if off = 0xC00000 then s.stCtlWrite fn v.toNat
  else if off = 0xC00004 then
    { s with stats := s.stats.upd fn (fun e => { e with torn := e.torn && !bitAt v.toNat 0 }) }
  else if off = 0xC00008 then s.stPeriodSet fn v.toNat
  else if off = 0xC0002C then { s with stats := s.stats.upd fn (fun e => { e with vec := v.toNat % 65536 }) }
  else match statPort off with
  | some p => s.hostItem fn off (s.portWorld p) (fun t => t)
  | none => s

end Sys2Proof.Machine
end

