-- ==== Sys2Proof/Machine/Dumbwaiters.lean ====
section
/-! DEFINITION. The Dumbwaiters: descriptors, bursts, records, and the DW registers (R357 to R370). -/
namespace Sys2Proof.Machine

/-- Whether a descriptor is accepted: alignment, count, and reserved address bits that were written 0 (R360). -/
def dwAligned (src dst cnt : Nat) : Bool :=
  src % 64 = 0 && dst % 64 = 0 && cnt != 0 && cnt % 64 = 0 && decide (src < 2 ^ 38) && decide (dst < 2 ^ 38)

/-- Whether a copy runs in descending order (R363). -/
def dwDescends (src dst cnt : Nat) : Bool :=
  (decide (src < windowBase) == decide (dst < windowBase)) && decide (src < dst) && decide (dst < src + cnt)

/-- The bytes of a burst (R363). -/
def Dw.burst (d : Dw) : Nat := Nat.min (64 * 2 ^ Nat.min d.burstLog 6) d.cnt

/-- The latest-service time of a burst that is released now (R362). -/
def State.dwLst (s : State) (e : Nat) : Nat := (s.dwDue e).getD s.backgroundLst

/-- Whether a burst may be performed now: a request waits where requests are asked for (R362). -/
def Dw.released (d : Dw) : Bool := (d.reqKind != 1 && d.reqKind != 2) || 0 < d.reqPending

/-- The world of an engine; a free engine's never acts. -/
def State.dwHome (s : State) (e : Nat) : World := (s.dwWorld e).getD .slate

/-- The record of the descriptor as taken (R370). -/
def Dw.record (d : Dw) (status : Nat) : List Byte :=
  leBytes 8 (d.tSrc % 2 ^ 38) ++ leBytes 8 (d.tDst % 2 ^ 38) ++ leBytes 4 d.tCnt ++ leBytes 4 d.moved.length
    ++ leBytes 4 (if status = 1 ∨ status = 6 then 0 else crc32c d.moved) ++ leBytes 2 d.tTag ++ leBytes 1 status
    ++ leBytes 1 (bnat d.handover + 2 * bnat d.descending + 128 * bnat (!d.cqTailWrap))

/-- Release the lease of an engine and withdraw its request (R361). -/
def State.dwLeaseEnd (s : State) (e : Nat) : State :=
  let s1 := s.leaveWithdrawOwner (.dumbwaiter e)
  match (s.dw e).lease with
  | some l => (s1.leaseRelease l).modDw e (fun d => { d with lease := none })
  | none => s1

/-- Go to DISABLED, IDLE or ERROR: the lease is released and START reads 0. The request count is cleared on the way to IDLE alone
(R361). -/
def State.dwRest (s : State) (e : Nat) (st : DwState) : State :=
  (s.dwLeaseEnd e).modDw e (fun d =>
    { d with
      state := st
      start := false
      stopAfter := false
      waiting := none
      reqPending := if st = .idle then 0 else d.reqPending })

/-- The address of the record ring, which is 4 KiB aligned: the engine uses bits [37:12] of DW_CQ_BASE (R358, R369; log 114). -/
def Dw.ring (d : Dw) : Nat := d.cqBase / 4096 * 4096

/-- How the writing of a record went. -/
inductive RecordEnd where
  | written
  | full
  | failed
  deriving DecidableEq, Repr

/-- Write a record into the ring if it has room, with MSI-X under IRQ (R369). -/
def State.dwRecordWrite (s : State) (e status : Nat) : RecordEnd × State :=
  let d := s.dw e
  let w := s.dwHome e
  let head : Ptr := ⟨d.cqHead, d.cqHeadWrap⟩
  let tail : Ptr := ⟨d.cqTail, d.cqTailWrap⟩
  if ptrFull head tail then (.full, s)
  else
    let a := d.ring + 32 * d.cqTail
    if windowBase ≤ a && !s.dmaOk w then (.failed, s) else
    match s.writeBytes w false a (d.record status) with
    | (_, .done, s1) =>
      let next := tail.add d.cqDepth 1
      let s2 := s1.modDw e (fun d => { d with last := status, cqTail := next.idx, cqTailWrap := next.wrap })
      (.written, if d.irq then s2.msix w d.vec else s2)
    | (_, _, s1) => (.failed, s1)

/-- A record write failed: ERROR, with CQ_FAULT and a fault record (R361). -/
def State.dwFail (s : State) (e : Nat) : State :=
  let d := s.dw e
  ((s.dwRest e .error).modDw e (fun d => { d with cqFault := true })).report
    (faultMsg (112 + e) 0 0x19 (d.ring + 32 * d.cqTail) (s.dwWorld e) false)

/-- Ask leave for what is left of the descriptor (R361): the answer is true where leave is refused outright. -/
def State.dwAsk (s : State) (e : Nat) : Bool × State :=
  let d := s.dw e
  let q := s.leaveReq (.dumbwaiter e) false 4 (Nat.max 1 d.leave) (satAt 65535 (ceilDiv d.cnt (2 ^ 20))) none (s.dwLst e)
  (s.modDw e (fun d => { d with state := .leaveWait })).leaveArrive q

/-- Make the active set the descriptor taken. -/
def Dw.taken (d : Dw) (fromShadow : Bool) : Dw :=
  { d with
    tSrc := d.src, tDst := d.dst, tCnt := d.cnt, tTag := d.tag, handover := fromShadow, moved := []
    descending := dwAligned d.src d.dst d.cnt && dwDescends d.src d.dst d.cnt }

/-- End a descriptor with a status: the record, then where `hand` the hand-over (R361, R367). A hand-over that holds no
lease asks for leave anew (log 21). -/
def State.dwEnd (s : State) (e : Nat) : Nat → Nat → Bool → State
  | 0, _, _ => s
  | fuel + 1, status, hand =>
    match s.dwRecordWrite e status with
    | (.failed, s1) => s1.dwFail e
    | (.full, s1) => s1.modDw e (fun d => { d with state := .cqWait, waiting := some status })
    | (.written, s1) =>
      let d := s1.dw e
      if d.stopAfter then s1.dwRest e .disabled
      else if !hand || !d.shArm then s1.dwRest e .idle
      else
        let s2 := s1.modDw e (fun d =>
          ({ d with src := d.shSrc, dst := d.shDst, cnt := d.shCnt, tag := d.shTag, shArm := false,
                    waiting := none } : Dw).taken true)
        let d2 := s2.dw e
        if !dwAligned d2.src d2.dst d2.cnt then s2.dwEnd e fuel 1 true
        else if d2.pause then (s2.dwLeaseEnd e).modDw e (fun d => { d with state := .paused })
        else if d2.lease.isSome then s2.modDw e (fun d => { d with state := .running })
        else
          match s2.dwAsk e with
          | (true, s3) => s3.dwEnd e fuel 6 true
          | (false, s3) => s3

/-- The bound on descriptors that end at once: a hand-over disarms the shadow set. -/
def dwFuel : Nat := 4

/-- Boiler grants the request of an engine. -/
def State.dwGranted (s : State) (e lease : Nat) : State :=
  s.modDw e (fun d => { d with lease := some lease, state := if d.state = .leaveWait then .running else d.state })

/-- Boiler refuses the waiting request of an engine. -/
def State.dwRefused (s : State) (e : Nat) : State :=
  if (s.dw e).state = .leaveWait then s.dwEnd e dwFuel 6 true else s

/-- START in IDLE takes the active set (R360). -/
def State.dwBegin (s : State) (e : Nat) : State :=
  let s1 := s.modDw e (fun d => { d.taken false with start := true })
  let d := s1.dw e
  if !dwAligned d.src d.dst d.cnt then s1.dwEnd e dwFuel 1 false
  else
    match s1.dwAsk e with
    | (true, s2) => s2.dwEnd e dwFuel 6 true
    | (false, s2) => s2

/-- PAUSE as it is in force now (R361, R366). -/
def State.dwPauseAct (s : State) (e : Nat) : State :=
  let d := s.dw e
  match d.state with
  | .leaveWait => if d.pause then (s.dwLeaseEnd e).modDw e (fun d => { d with state := .paused }) else s
  | .running =>
    if d.pause then
      if d.released then s.modDw e (fun d => { d with state := .pausing })
      else (s.dwLeaseEnd e).modDw e (fun d => { d with state := .paused })
    else s
  | .paused =>
    if d.pause then s
    else
      match s.dwAsk e with
      | (true, s1) => s1.dwEnd e dwFuel 6 true
      | (false, s1) => s1
  | _ => s

/-- Whether the active set may be written (R359). -/
def Dw.isOpen (d : Dw) : Bool := d.state = .idle || d.state = .disabled

/-- A write of DW_CTL (R359, R360, R366). -/
def State.dwCtlWrite (s : State) (fn : World) (e v : Nat) : State :=
  s.hostItem fn (0x600014 + 256 * e) (s.dwWorld e) (fun t =>
    let t1 := t.modDw e (fun d => { d with pause := bitAt v 1, tag := if d.isOpen then bits v 16 16 else d.tag })
    let t2 := if bitAt v 0 && (t1.dw e).state = .idle then t1.dwBegin e else t1
    t2.dwPauseAct e)

/-- DW_START: a write of DW_CTL. -/
def execDwStart (fn : World) (e : Nat) (v : W32) (s : State) : Result := .next (s.dwCtlWrite fn e v.toNat)

/-- DW_PAUSE: a write of DW_CTL. -/
def execDwPause (fn : World) (e : Nat) (v : W32) (s : State) : Result := .next (s.dwCtlWrite fn e v.toNat)

/-- ENABLE := 0, or host loss: a burst under way is finished first (R361, R368). -/
def State.dwDisable (s : State) (e : Nat) : State :=
  let s1 := s.modDw e (fun d => { d with enable := false, enableWait := false })
  let d := s1.dw e
  let stop := fun (t : State) => (t.modDw e (fun d => { d with stopAfter := true }))
  match d.state with
  | .disabled => s1
  | .idle => s1.dwRest e .disabled
  | .error => (s1.dwRest e .disabled).modDw e (fun d => { d with cqFault := false })
  | .cqWait => stop s1
  | .pausing => stop s1
  | .running => if d.released then stop s1 else (stop s1).dwEnd e dwFuel 5 false
  | _ => (stop s1).dwEnd e dwFuel 5 false

/-- ENABLE := 1: IDLE once the domain is on (R361). -/
def State.dwEnableOn (s : State) (e : Nat) : State :=
  let s1 := s.modDw e (fun d => { d with enable := true })
  if (s.dw e).state = .disabled then
    if s.boiler.domains.contains (dwDomain e) then s1.modDw e (fun d => { d with state := .idle, reqPending := 0 })
    else s1.modDw e (fun d => { d with enableWait := true })
  else s1

/-- A write of DW_CFG (R359, R368). -/
def State.dwCfgWrite (s : State) (fn : World) (e v : Nat) : State :=
  let off := 0x600018 + 256 * e
  s.hostItem fn off (s.dwWorld e) (fun t =>
    if bits v 4 2 = 2 && t.cmpWorld (bits v 6 10) = some fn.other then t.discardFault fn (112 + e) off
    else
      let t1 := if (t.dw e).isOpen then t.modDw e (fun d =>
          { d with burstLog := bits v 1 3, reqKind := bits v 4 2, reqUnit := bits v 6 10, irq := bitAt v 16 }) else t
      if bitAt v 0 then t1.dwEnableOn e else t1.dwDisable e)

/-- DW_ENABLE: a write of DW_CFG. -/
def execDwEnable (fn : World) (e : Nat) (v : W32) (s : State) : Result := .next (s.dwCfgWrite fn e v.toNat)

/-- A write of DW_REQ (R362). -/
def State.dwReqWrite (s : State) (fn : World) (e v : Nat) : State :=
  s.hostItem fn (0x60002C + 256 * e) (s.dwWorld e) (fun t =>
    if bitAt v 0 && (t.dw e).reqKind = 1 then t.modDw e Dw.request else t)

/-- DW_REQ. -/
def execDwReq (fn : World) (e : Nat) (v : W32) (s : State) : Result := .next (s.dwReqWrite fn e v.toNat)

/-- The burst that is performed uses its request, whether it moves or fails (R362). -/
def Dw.useRequest (d : Dw) : Dw :=
  { d with reqPending := if d.reqKind = 1 ∨ d.reqKind = 2 then d.reqPending - 1 else d.reqPending }

/-- A denied access of an engine: one to an item of the other world is recorded (R26, R365). -/
def State.dwDenied (s : State) (e a : Nat) : Deny → State
  | .world => s.report (faultMsg (112 + e) 0 0x04 a (s.dwWorld e) false)
  | _ => s

/-- How a burst ended: moved, or with the failing status (R365). -/
def State.dwMove (s0 : State) (e : Nat) (r : LinkResult) : Option Nat × State :=
  let s := s0.modDw e Dw.useRequest
  let d := s.dw e
  let w := s.dwHome e
  let n := d.burst
  let up := if d.descending then d.cnt - n else 0
  let eccAt := fun (t : State) (a : Nat) => windowBase ≤ a && t.pantry.xlatBad.contains ((a - windowBase) / pageBytes)
  if r = .busError then (some 3, s) else
  match s.readBytes w false (d.src + up) n with
  | (got, .denied x, s1) =>
    (some (if eccAt s1 (d.src + up + got.length) then 4 else 2), s1.dwDenied e (d.src + up + got.length) x)
  | (_, .ecc, s1) => (some 4, s1)
  | (_, .busError, s1) => (some 3, s1)
  | (data, .done, s1) =>
    if windowBase < d.dst + up + n && !s1.dmaOk w then (some 3, s1) else
    match s1.writeBytes w false (d.dst + up) data with
    | (_, .done, s2) =>
      (none, s2.modDw e (fun d =>
        { d with
          src := if d.descending then d.src else d.src + n
          dst := if d.descending then d.dst else d.dst + n
          cnt := d.cnt - n
          moved := if d.descending then data ++ d.moved else d.moved ++ data }))
    | (k, .denied x, s2) => (some (if eccAt s2 (d.dst + up + k) then 4 else 2), s2.dwDenied e (d.dst + up + k) x)
    | (_, _, s2) => (some 2, s2)

/-- DW_BURST_DONE: a released burst completes or fails (R363, R365, R366). -/
def execDwBurstDone (e : Nat) (r : LinkResult) (s : State) : Result :=
  let d := s.dw e
  if 32 ≤ e || s.pw.phase ≠ .none || s.qz.debugHalt then .next s
  else if d.state = .pausing || (d.state = .running && d.released) then
    match s.dwMove e r with
    | (some status, s1) => .next (s1.dwEnd e dwFuel status true)
    | (none, s1) =>
      let d1 := s1.dw e
      if d1.cnt = 0 then .next (s1.dwEnd e dwFuel 0 true)
      else if d1.stopAfter then .next (s1.dwEnd e dwFuel 5 false)
      else if d.state = .pausing then
        .next (((s1.dwLeaseEnd e).modDw e (fun d => { d with state := .paused })).dwPauseAct e)
      else .next s1
  else .next s

/-- A write of DW_CQ_HEAD: a waiting record follows (R361, R369). -/
def State.dwHeadWrite (s : State) (fn : World) (e v : Nat) : State :=
  let off := 0x600058 + 256 * e
  s.hostItem fn off (s.dwWorld e) (fun t =>
    let d := t.dw e
    let head : Ptr := ⟨d.cqHead, d.cqHeadWrap⟩
    let tail : Ptr := ⟨d.cqTail, d.cqTailWrap⟩
    let p := ptrOf v
    if d.cqDepth ≤ p.idx || ptrDist head tail d.cqDepth < ptrDist head p d.cqDepth then t.discardFault fn (112 + e) off
    else
      let t1 := t.modDw e (fun d => { d with cqHead := p.idx, cqHeadWrap := p.wrap })
      match d.waiting with
      | some status => if d.state = .cqWait then t1.dwEnd e dwFuel status true else t1
      | none => t1)

/-- DW_CQ_HEAD. -/
def execDwCqHead (fn : World) (e : Nat) (v : W32) (s : State) : Result := .next (s.dwHeadWrite fn e v.toNat)

/-- Host loss acts on every engine of a world as ENABLE := 0; a function start changes nothing of them (R368). -/
def State.dwHostLoss (s : State) (w : World) : State :=
  (List.range 32).foldl (fun t e => if t.dwWorld e = some w then t.dwDisable e else t) s

/-- A Dumbwaiter domain is usable: the engines that wait for it become IDLE (R361). -/
def State.dwDomainOn (s : State) (dom : Nat) : State :=
  (List.range 32).foldl (fun t e =>
    if dwDomain e = dom && (t.dw e).enableWait then
      t.modDw e (fun d => { d with enableWait := false, state := .idle, reqPending := 0 })
    else t) s

/-! ### Registers (R358, R359) -/

/-- The code of an engine's state. -/
def DwState.code : DwState → Nat
  | .disabled => 0
  | .idle => 1
  | .leaveWait => 2
  | .running => 3
  | .pausing => 4
  | .paused => 5
  | .cqWait => 6
  | .error => 7

/-- DW_STATUS. -/
def Dw.status (d : Dw) : Nat :=
  d.state.code + 8 * bnat d.descending + 16 * bnat d.cqFault + d.last * 2 ^ 8 + d.reqPending * 2 ^ 16

/-- The word that a 32-bit read of the Dumbwaiter block returns. -/
def State.dwRead (s : State) (fn : World) (off : Nat) : Nat :=
  if off = 0x602000 then ((List.range 32).map (fun e => if s.dwWorld e = some fn then 2 ^ e else 0)).sum
  else
    let e := (off - 0x600000) / 256
    let d := s.dw e
    let half := fun (x : Nat) => if off % 8 = 0 then x % 2 ^ 32 else x / 2 ^ 32 % 64
    if 0x602000 ≤ off ∨ s.dwWorld e ≠ some fn then 0 else
    match off % 256 with
    | 0x00 | 0x04 => half d.src
    | 0x08 | 0x0C => half d.dst
    | 0x10 => d.cnt
    | 0x14 => bnat d.start + 2 * bnat d.pause + d.tag * 2 ^ 16
    | 0x18 => bnat d.enable + 2 * d.burstLog + 16 * d.reqKind + 64 * d.reqUnit + bnat d.irq * 2 ^ 16
    | 0x1C => d.status
    | 0x20 => crc32c d.moved
    | 0x24 => d.dl
    | 0x28 => d.leave
    | 0x30 | 0x34 => half d.shSrc
    | 0x38 | 0x3C => half d.shDst
    | 0x40 => d.shCnt
    | 0x44 => bnat d.shArm + d.shTag * 2 ^ 16
    | 0x48 | 0x4C => half d.cqBase
    | 0x50 => d.cqDepth
    | 0x54 => d.cqTail + bnat d.cqTailWrap * 2 ^ 16
    | 0x58 => d.cqHead + bnat d.cqHeadWrap * 2 ^ 16
    | 0x5C => d.vec
    | 0x60 => d.reqLost
    | _ => 0

/-- A write of a 64-bit register of an engine, at the offset of its low word (R11, R359). The reserved bits of an address read 0; the
engine keeps them for the check of R360. -/
def State.dwWrite64 (s : State) (fn : World) (off v : Nat) : State :=
  let e := (off - 0x600000) / 256
  let a := v % 2 ^ 64
  s.hostItem fn off (s.dwWorld e) (fun t => t.modDw e (fun d =>
    match off % 256 with
    | 0x00 => if d.isOpen then { d with src := a } else d
    | 0x08 => if d.isOpen then { d with dst := a } else d
    | 0x30 => { d with shSrc := a }
    | 0x38 => { d with shDst := a }
    | 0x48 => if d.isOpen then { d with cqBase := a % 2 ^ 38 } else d
    | _ => d))

/-- A 32-bit write to the Dumbwaiter block, halves of 64-bit registers apart. -/
def State.dwWrite (s : State) (fn : World) (off : Nat) (v : W32) : State :=
  let e := (off - 0x600000) / 256
  let n := v.toNat
  if 0x602000 ≤ off then s else
  match off % 256 with
  | 0x14 => s.dwCtlWrite fn e n
  | 0x18 => s.dwCfgWrite fn e n
  | 0x2C => s.dwReqWrite fn e n
  | 0x58 => s.dwHeadWrite fn e n
  | x =>
    s.hostItem fn off (s.dwWorld e) (fun t => t.modDw e (fun d =>
      match x with
      | 0x10 => if d.isOpen then { d with cnt := n } else d
      | 0x24 => { d with dl := n % 2 ^ 21 }
      | 0x28 => { d with leave := n % 65536 }
      | 0x40 => { d with shCnt := n }
      | 0x44 => { d with shArm := bitAt n 0, shTag := bits n 16 16 }
      | 0x50 => if d.isOpen then { d with cqDepth := n % 65536 } else d
      | 0x5C => { d with vec := n % 65536 }
      | _ => d))

end Sys2Proof.Machine
end

