-- ==== Sys2Proof/Machine/Boiler.lean ====
section
/-! DEFINITION. Boiler: the evaluation of waiting requests, what a grant or a refusal does for its owner, power domains, the
measured power, pace changes and PMBus (R285, R361, R379, R415 to R430, R517). -/
namespace Sys2Proof.Machine

/-! ### Pace (R426 to R428) -/

/-- Whether every lease and DIE_BASE, charged at a rail's CHARGE, fit that rail's C (R428, step 2). -/
def Boiler.paceFits (b : Boiler) (rail : Nat) : Bool :=
  let b1 := { b with rail := rail }
  b1.used false ≤ b1.capacity false

/-- VOUT_COMMAND is sent (R428, step 3). -/
def State.paceSend (s : State) (j : PaceJob) : State :=
  ((s.leaveWithdraw (fun q => q.owner = .pace)).modBl (fun b => { b with job := some { j with sent := true } })).emit
    (.pmbusVout (paceMv j.rail))

/-- A change of the paces starts at step 2, in place of one that has not reached step 5; none is made while PMBUS_FAULT
stands, and no raise once the save has begun (R428 to R430). -/
def State.paceStart (s : State) (slate granite : Nat) : State :=
  let j : PaceJob := { sent := false, slate := slate, granite := granite, rail := railOf slate granite }
  let s0 := (s.leaveWithdraw (fun q => q.owner = .pace)).modBl (fun b => { b with job := some j })
  if s.boiler.pmbusFault then s0
  else if s.boiler.stopped && paceMv s.boiler.rail < paceMv j.rail then s
  else if paceMv s.boiler.rail < paceMv j.rail && !s.boiler.paceFits j.rail then
    (s0.leaveArrive (s0.leaveReq .pace false 0 0 65535 none s0.backgroundLst)).2
  else s0.paceSend j

/-- The issue slots of a world's contexts for two paces and a rail (R427). -/
def paceCap (pace rail : Nat) : Nat := if paceMv pace < paceMv rail then paceSlots pace else 8

/-- A write of BL_MODE: the PACE field of the function's world; a change that moves neither the rail nor a slot cap is in
force at once, but under PMBUS_FAULT; none is made once the save has begun (R428 to R430, R433). -/
def State.paceWrite (s : State) (fn : World) (v : Nat) : State :=
  if !s.done then s
  else
    let p := if fn = .slate then bits v 0 2 else bits v 2 2
    let s1 := s.modBl (fun b => { b with modePace := b.modePace.set fn p })
    let m := s1.boiler.modePace
    let b := s1.boiler
    let rail := railOf m.slate m.granite
    if b.stopped then s1
    else if b.job.isNone && m.slate = b.pace.slate && m.granite = b.pace.granite then s1
    else if !b.pmbusFault && b.job.isNone && paceMv rail = paceMv b.rail && paceCap m.slate rail = paceCap b.pace.slate b.rail
        && paceCap m.granite rail = paceCap b.pace.granite b.rail then
      s1.modBl (fun b => { b with pace := m })
    else s1.paceStart m.slate m.granite

/-- PACE_CHANGE. -/
def execPaceChange (fn : World) (v : W32) (s : State) : Result := .next (s.paceWrite fn v.toNat)

/-- Whether a world runs at QUIET: the limits are in force from step 5 of the change (R426, R428). -/
def State.quiet (s : State) (w : World) : Bool := s.boiler.pace.get w = 3

/-- Whether the outputs of a lane port other than USB D+ and D− are on their reduced-slew drive (R426). -/
def State.portSlow (s : State) (n : Nat) : Bool := (s.portWorld n).any s.quiet

/-- Whether the PWM outputs of a drive are on their reduced-slew drive (R426). -/
def State.driveSlow (s : State) (n : Nat) : Bool := (s.driveWorld n).any s.quiet

/-- The divider N of an SPI port: SCK is 100 MHz / N, the highest rate not above SCK_HZ, N from 2 to 1,000, and at least 8 in QUIET
(R299, R426). -/
def State.sckDivider (s : State) (n : Nat) : Nat :=
  let hz := (s.port n).cfg.sckHz
  Nat.min 1000 (Nat.max (if s.portSlow n then 8 else 2) ((100000000 + hz - 1) / hz))

/-! ### Outcomes (R420 to R422) -/

/-- A waiting request is refused outright (R421). -/
def State.leaveRefuse (s : State) (q : LeaveReq) : State :=
  let s1 := ((s.countWait q).modBl (fun b => { b with waiting := b.waiting.filter (fun r => r.order != q.order) })).noteRefused q
  match q.owner with
  | .context c => s1.modCtx c (fun x => if x.wait = .flverLeave then x else { x with answer := .refused, answeredAt := s.now })
  | .drive n => s1.driveRefused n q.order
  | .dumbwaiter e => s1.dwRefused e
  | .boiler k => s1.workRefused k
  | .pace => s1

/-- A port leaves the list of those to be ungated, and works. -/
def State.portUngate (s : State) (n : Nat) : State :=
  (s.modBl (fun b => { b with ungate := b.ungate.filter (fun m => m != n) })).portEnable n

/-- A domain begins to switch on. -/
def State.domainSwitch (s : State) (d : Nat) : State :=
  if s.boiler.domains.contains d || s.boiler.switching.contains d then s
  else s.modBl (fun b => { b with switching := b.switching ++ [d] })

/-- Boiler's own work has its leave (R34, R217, R285, R361, R379). -/
def State.workGranted (s : State) (k : BoilerWork) : State :=
  match k with
  | .porch n => if s.boiler.domains.contains (n / 8) then s.portUngate n else s.domainSwitch (n / 8)
  | .cluster i =>
    ({ s with hearths := { s.hearths with refusedClusters := s.hearths.refusedClusters.filter (fun j => j != i) } }).domainSwitch (32 + i)
  | _ => s.domainSwitch (workDomain k)

/-- A request is granted: its lease is made or enlarged, and its owner goes on (R422). -/
def State.leaveGranted (s : State) (q : LeaveReq) : State :=
  match q.owner with
  | .pace => match s.boiler.job with
    | some j => s.paceSend j
    | none => s.leaveWithdraw (fun r => r.owner = .pace)
  | .context c =>
    let r := s.leaseGrant q
    let u := r.2.modCtx c (fun x => { x with leases := if x.leases.contains r.1 then x.leases else x.leases ++ [r.1] })
    if (s.ctx c).wait = .flverLeave then u.modCtx c (fun x => { x with flverLease := some r.1, wait := .flver })
    else u.modCtx c (fun x => { x with answer := .granted r.1, answeredAt := s.now })
  | .drive n => (s.leaseGrant q).2.driveGranted n (s.leaseGrant q).1 q.order
  | .dumbwaiter e => (s.leaseGrant q).2.dwGranted e (s.leaseGrant q).1
  | .boiler k => (s.leaseGrant q).2.workGranted k

/-- Whether a request fits at its turn: `pool` says that the common pool is still open; a pace change never does under PMBUS_FAULT (R420, R422, R428, R429). -/
def Boiler.fits (b : Boiler) (q : LeaveReq) (pool : Bool) : Bool :=
  match q.owner, b.job with
  | .pace, some j => pool && !b.pmbusFault && b.paceFits j.rail
  | _, _ => b.hasNumber q && (if pool then b.fitsOpen q else b.fitsReserve q)

/-- The walk over the waiting requests of a budget in order. One that an earlier grant withdrew is passed over. -/
def leaveWalk : List LeaveReq → Bool → State → State
  | [], _, s => s
  | q :: l, pool, s =>
    match s.boiler.waiting.find? (fun r => r.order = q.order) with
    | none => leaveWalk l pool s
    | some r => if s.boiler.fits r pool then leaveWalk l pool (s.leaveGranted r) else leaveWalk l false s

/-- BOILER_EVALUATE: one evaluation of a budget. No die request is granted under MEAS_OVER, nor after a lowering until the
charged total fits; none at all once the save has begun, or in a debug halt (R420, R425, R428, R430, R506). -/
def execBoilerEvaluate (plant : Bool) (s : State) : Result :=
  let low := s.boiler.lowering && s.boiler.capacity false < s.boiler.used false
  let s1 := s.modBl (fun b => { b with lowering := low })
  if s.boiler.stopped || s.qz.debugHalt || (!plant && (s.boiler.measOver || low)) then .next s1
  else .next (leaveWalk (s1.leaveOrder plant) true s1)

/-! ### Power domains (R34, R285, R361, R379, R392, R517) -/

/-- Whether Boiler holds the lease of a port's ungating. -/
def State.ungateGranted (s : State) (n : Nat) : Bool :=
  s.boiler.leases.any (fun p => match p.2 with
    | some l => l.owner = .boiler (.porch n)
    | none => false)

/-- What waits for a domain goes on: ports whose leave is granted, the drives of a group, Dumbwaiters. -/
def State.domainUsable (s : State) (d : Nat) : State :=
  if d < 32 then
    ((List.range 8).map (fun i => 8 * d + i)).foldl (fun t n =>
      if t.boiler.ungate.contains n && t.ungateGranted n then t.portUngate n else t) s
  else if 48 ≤ d ∧ d < 56 then
    ((List.range 8).map (fun i => 8 * (d - 48) + i)).foldl (fun t n =>
      t.modDrive n (fun x => { x with zcOk := false, zcCount := 0, zcLast := none })) s
  else s.dwDomainOn d

/-- DOMAIN_ON: a domain that Boiler switched on is usable; the freeze of its Landings is cleared (R411). -/
def execDomainOn (d : Nat) (s : State) : Result :=
  if s.boiler.switching.contains d then
    .next (((s.modBl (fun b => { b with
      switching := b.switching.filter (fun i => i != d), domains := b.domains ++ [d] })).landsThaw d).domainUsable d)
  else .next s

/-! ### Switching off (R35, R225, R411; log 113) -/

/-- Whether a domain holds a resident context. -/
def State.domainContext (s : State) (d : Nat) : Bool := s.ctxs.any (fun p => p.2.state ≠ .free && 32 + p.2.home / 4 = d)

/-- The domain in which the owner of a lease works; Boiler's lease for a domain is no lease that the domain holds. -/
def State.leaseDomain (s : State) : LeaveOwner → Option Nat
  | .context c => some (32 + (s.ctx c).home / 4)
  | .drive n => some (48 + n / 8)
  | .dumbwaiter e => some (dwDomain e)
  | .boiler (.porch n) => some (n / 8)
  | .boiler _ => none
  | .pace => none

/-- Whether a domain holds a granted lease. -/
def State.domainLease (s : State) (d : Nat) : Bool :=
  s.boiler.leases.any (fun p => p.2.any (fun l => s.leaseDomain l.owner = some d))

/-- Whether a domain holds an unreleased FIFO mark. -/
def State.domainMark (s : State) (d : Nat) : Bool :=
  s.atts.any (fun p => p.1 / 128 = d && (p.2.rx.mark.isSome || p.2.tx.mark.isSome))

/-- Whether a domain holds an unposted status: of a program, or of a Dumbwaiter. -/
def State.domainStatus (s : State) (d : Nat) : Bool :=
  s.ovfWait.any (fun y => y.compl.kind = .program && 32 + (s.ctx y.compl.ctx).home / 4 = d)
    || s.dws.any (fun p => dwDomain p.1 = d && p.2.state = .cqWait)

/-- Whether work is due in a domain: a binding, a migration or a restart that asked for a cluster, a failed Hearth, whose cluster
stays on, or an enabled Dumbwaiter. Only the domains of clusters and of Dumbwaiters are ever without work. -/
def State.domainWork (s : State) (d : Nat) : Bool :=
  if 32 ≤ d ∧ d < 48 then
    (s.qm.slate.sqs ++ s.qm.granite.sqs).any (fun p => p.2.clusterWait)
      || s.ctxs.any (fun p => p.2.state = .migrating || p.2.restartAt.any (fun t => t ≤ s.now))
      || s.hearths.failed.any (fun h => 32 + h / 4 = d)
  else if d = 61 ∨ d = 62 then s.dws.any (fun p => dwDomain p.1 = d && (p.2.state ≠ .disabled || p.2.enableWait))
  else true

/-- Whether Boiler may switch a domain off (R35). -/
def State.domainFree (s : State) (d : Nat) : Bool :=
  !s.domainContext d && !s.domainLease d && !s.domainMark d && !s.domainStatus d && !s.domainWork d

/-- Boiler freezes the Landings of a domain, switches it off and releases its own lease for it (R35, R411). -/
def State.domainOff (s : State) (d : Nat) : State :=
  let own := s.boiler.leases.filterMap (fun p => match p.2 with
    | some { owner := .boiler k, .. } => if workDomain k = d then some p.1 else none
    | _ => none)
  (own.foldl (fun t n => t.leaseRelease n) (s.landsFreeze d)).modBl (fun b => { b with domains := b.domains.filter (fun i => i != d) })

/-- As time advances, Boiler switches off those of the domains that it may which it chooses to (R35, log 113). -/
def State.domainsOff (s : State) : State :=
  if s.boiler.stopped || !s.done then s
  else s.boiler.domains.foldl (fun t d => if t.domainFree d && Config.domainOff d t.now then t.domainOff d else t) s

/-! ### Measured power (R425) -/

/-- BOILER_MEASURE: one reading of the regulator, in mV and 100 mA. -/
def execBoilerMeasure (milliV ma100 : Nat) (s : State) : Result :=
  if !s.powered then .next s else
  let p := milliV * ma100 / 100
  let cap := s.boiler.capacity false
  let run := if cap < p then s.boiler.overRun + 1 else 0
  let s1 := s.modBl (fun b => { b with
    railMv := milliV % 65536, railMa100 := ma100 % 65536, meas := satAt 65535 p, overRun := run })
  if !s.boiler.measOver && 3 ≤ run then
    .next (((s1.modBl (fun b => { b with measOver := true })).blEvent 3).report (faultMsg 98 0 0x12 p none false))
  else if s.boiler.measOver && p * 100 ≤ cap * 95 then .next (s1.modBl (fun b => { b with measOver := false }))
  else .next s1

/-! ### The end of a pace change, and PMBus (R428, R429) -/

/-- Waiting requests that a new capacity can never hold are refused (R421). -/
def State.leaveRecheck (s : State) : State :=
  (s.boiler.waiting.filter (fun q => !q.plant && q.owner != .pace)).foldl (fun t q =>
    match t.boiler.waiting.find? (fun r => r.order = q.order) with
    | some r => if t.boiler.denied r then t.leaveRefuse r else t
    | none => t) s

/-- PACE_DONE: READ_VOUT within 15 mV of the new rail: the new C, CHARGE and slot caps are in force (R428, step 5). -/
def execPaceDone (milliV : Nat) (s : State) : Result :=
  match s.boiler.job with
  | some j =>
    let v := paceMv j.rail
    if j.sent && !s.boiler.pmbusFault && milliV ≤ v + 15 && v ≤ milliV + 15 then
      let down := v < paceMv s.boiler.rail
      let s1 := s.modBl (fun b => { b with
        pace := ⟨j.slate, j.granite⟩, rail := j.rail, job := none, railMv := milliV % 65536, lowering := b.lowering || down })
      .next ((s1.blEvent 0).leaveRecheck)
    else .next s
  | none => .next s

/-- PMBUS_ALERT: Boiler reads STATUS_WORD. No acknowledge, or a bit set in it, is PMBUS_FAULT, and Boiler sends CLEAR_FAULTS; a word of 0 read while the fault
stands says that CLEAR_FAULTS has succeeded, and a waiting change starts again at step 2 (R429). -/
def execPmbusAlert (status : Option (BitVec 16)) (s : State) : Result :=
  let w := (status.getD 0).toNat
  if !s.powered then .next s
  else if status.isNone || w ≠ 0 then
    .next (((s.modBl (fun b => { b with pmbusFault := true, pmbusStatus := w })).blEvent 4).report
      (faultMsg 98 0 0x10 w none true) |>.emit .pmbusClear)
  else if s.boiler.pmbusFault then
    let s1 := s.modBl (fun b => { b with pmbusFault := false, pmbusStatus := 0 })
    match s1.boiler.job with
    | some j => .next (s1.paceStart j.slate j.granite)
    | none => .next s1
  else .next s

end Sys2Proof.Machine
end

