-- ==== Sys2Proof/Machine/Image.lean ====
section
/-! DEFINITION. The configuration flash and the image container: headers, manifests, keys, signatures and digests, the check of
a copy and the choice between two (R46 to R60, R68, R495). -/
namespace Sys2Proof.Machine

/-! ### The flash (R46, R47) -/

/-- n bytes of the flash; a byte not listed is erased (log 5). -/
def State.flashBytes (s : State) (a n : Nat) : List Byte := Memory.bytes 0xFF s.flash.mem a n

/-- The flash address of copy A (0) or B (1) of a KIND: 1 Filino image, 2 board record, 3 Study firmware. -/
def copyBase (kind i : Nat) : Nat :=
  if kind = 1 then 0x400000 + i * 0xE00000 else if kind = 2 then i * 0x10000 else 0x100000 + i * 0x100000

/-- The largest TOTAL_LENGTH of a KIND, which is the size of its flash range. -/
def copyMax (kind : Nat) : Nat := if kind = 1 then 14680064 else if kind = 2 then 65536 else 1048576

/-- Whether every read of n flash bytes completes, after the retry. -/
def State.readable (s : State) (a n : Nat) : Bool := !s.attic.readBad.any (fun x => a ≤ x && x < a + n)

/-- The copy whose range holds a flash address: 0 for A or 1, 1 for B or 2 (R46, R460). -/
def copySub (a : Nat) : Nat :=
  if a < 0x100000 then a / 0x10000 % 2 else if a < 0x400000 then bnat (decide (0x200000 ≤ a ∧ a < 0x300000)) else bnat (decide (0x1200000 ≤ a))

/-- FLASH_READ_TIMEOUT: a read at a flash address gives no data strobe within 1 µs: retried once and recorded, then bad (R47). After
the start the flash is read by the check of a COMMIT alone, while a session is open (R56, R281). -/
def execFlashReadTimeout (base : Nat) (s : State) : Result :=
  if !s.powered || (6 ≤ s.attic.state && s.flash.session.isNone) then .next s
  else if s.attic.readRetry.contains base then
    .next { s with attic := { s.attic with
      readBad := if s.attic.readBad.contains base then s.attic.readBad else s.attic.readBad ++ [base] } }
  else
    .next ({ s with attic := { s.attic with readRetry := s.attic.readRetry ++ [base] } }.report (faultMsg 101 (copySub base) 0x0C 2 none false))

/-! ### The container (R49 to R52) -/

/-- The container header (R49). -/
structure Header where
  magic : Nat
  fmt : Nat
  kind : Nat
  level : Nat
  gen : Nat
  total : Nat
  count : Nat
  flags : Nat
  manOff : Nat
  manLen : Nat
  sigOff : Nat
  gsigOff : Nat
  signKey : List Byte
  granKey : List Byte
  reserved : Bool

/-- The header of 256 bytes. -/
def headerOf (h : List Byte) : Header :=
  { magic := fieldAt h 0 4, fmt := fieldAt h 4 1, kind := fieldAt h 6 1, level := fieldAt h 7 1, gen := fieldAt h 8 4
    total := fieldAt h 12 4, count := fieldAt h 16 2, flags := fieldAt h 18 2, manOff := fieldAt h 20 4, manLen := fieldAt h 24 4
    sigOff := fieldAt h 28 4, gsigOff := fieldAt h 32 4, signKey := slice h 64 64, granKey := slice h 128 64
    reserved := zeroAt h 40 24 && zeroAt h 192 64 }

/-- GRANITE_PRESENT. -/
def Header.granite (h : Header) : Bool := bitAt h.flags 0

/-- The header fields that R49 and R51 fix. -/
def Header.ok (h : Header) (kind : Nat) : Bool :=
  h.fmt = 1 && h.kind = kind && 1 ≤ h.level && h.level ≤ 15 && h.gen ≠ 0 && h.total ≤ copyMax kind && 1 ≤ h.count && h.count ≤ 256
    && h.flags / 2 = 0 && h.manOff % 64 = 0 && h.manLen = 64 * h.count && h.sigOff % 64 = 0 && h.gsigOff % 64 = 0
    && (h.gsigOff = 0) == !h.granite && (h.granite || h.granKey.all (fun b => b = 0)) && h.reserved

/-- A manifest entry (R50). -/
structure Sect where
  idx : Nat
  type : Nat
  world : Nat
  off : Nat
  len : Nat
  digest : Nat
  reserved : Bool
  raw : List Byte

/-- The entries of a manifest. -/
def sectsOf (man : List Byte) (count : Nat) : List Sect :=
  (List.range count).map (fun i =>
    let e := slice man (64 * i) 64
    { idx := i, type := fieldAt e 0 2, world := fieldAt e 2 1, off := fieldAt e 4 4, len := fieldAt e 8 4, digest := fieldAt e 32 32
      reserved := zeroAt e 3 1 && zeroAt e 16 16, raw := e })

/-- The header of a copy. -/
def State.header (s : State) (base : Nat) : Header := headerOf (s.flashBytes base 256)

/-- The manifest entries of a copy. -/
def State.sects (s : State) (base : Nat) : List Sect :=
  let h := s.header base
  sectsOf (s.flashBytes (base + h.manOff) h.manLen) h.count

/-- Whether no two of some spans, address and length, overlap. -/
def spansApart : List (Nat × Nat) → Bool
  | [] => true
  | a :: l => l.all (fun b => a.1 + a.2 ≤ b.1 || b.1 + b.2 ≤ a.1) && spansApart l

/-- The length of a signature (R53). -/
def sigLen : Nat := 29792

/-- The places of a copy's parts. -/
def Header.spans (h : Header) (l : List Sect) : List (Nat × Nat) :=
  (0, 256) :: (h.manOff, h.manLen) :: (h.sigOff, sigLen) :: ((if h.granite then [(h.gsigOff, sigLen)] else []) ++ l.map (fun e => (e.off, e.len)))

/-- How often a section type stands in a KIND: 0 never, 1 exactly once in its one world, 2 at most once per world (R52). -/
def sectRule (type kind : Nat) : Nat :=
  if type = 0x20 then (if kind = 3 then 1 else 0)
  else if kind = 1 then
    (if [0x01, 0x02, 0x03, 0x04, 0x0D, 0x0E, 0x0F, 0x10].contains type then 1 else if 0x05 ≤ type ∧ type ≤ 0x0C then 2 else 0)
  else if kind = 2 then
    (if [0x02, 0x03, 0x0D].contains type then 1 else if [0x05, 0x0C, 0x11].contains type then 2 else 0)
  else 0

/-- Whether a section type is one of R52. -/
def sectKnown (type : Nat) : Bool := (1 ≤ type && type ≤ 0x11) || type = 0x20

/-- Whether the WORLD of a section is one that R52 gives its type. -/
def sectWorldOk (type world : Nat) (granite : Bool) : Bool :=
  if [0x01, 0x0D, 0x0E, 0x0F, 0x10, 0x20].contains type then world = 0
  else if [0x02, 0x03, 0x04].contains type then world = (if granite then 2 else 1)
  else world = 1 || world = 2

/-- The section table (R52). -/
def sectTableOk (l : List Sect) (kind : Nat) (granite : Bool) : Bool :=
  l.all (fun e =>
    if sectKnown e.type then
      sectRule e.type kind ≠ 0 && sectWorldOk e.type e.world granite
        && (l.filter (fun f => f.type = e.type && (sectRule e.type kind = 1 || f.world = e.world))).length = 1
    else 0x8000 ≤ e.type)
    && (List.range 0x21).all (fun t => sectRule t kind ≠ 1 || l.any (fun e => e.type = t))

/-- Whether a copy is well formed beyond its header fields (R50, R51, R52). -/
def Header.formed (h : Header) (l : List Sect) (kind : Nat) : Bool :=
  let sp := h.spans l
  sp.all (fun p => p.1 + p.2 ≤ h.total) && spansApart sp && h.granite == l.any (fun e => e.world = 2)
    && l.all (fun e => e.reserved && e.off % 64 = 0 && 1 ≤ e.len && e.world ≤ 2) && sectTableOk l kind h.granite

/-! ### Keys, signatures and digests (R53 to R55, R495) -/

/-- The hash of a key as the fuses hold it: the first byte in bits [7:0]. -/
def keyHash (key : List Byte) : Nat := leNat (Config.shake key 32)

/-- The hash slots of a kind: 0 firmware, 1 image, 2 Granite. -/
def Fuses.slots (f : Fuses) (kind : Nat) : Tbl Nat := if kind = 0 then f.fwKey else if kind = 1 then f.imgKey else f.grnKey

/-- The slot in use of a key: the first that is not empty, not revoked and equal to its hash (R495). -/
def Fuses.keySlot (f : Fuses) (kind hash : Nat) : Option Nat :=
  (List.range 4).find? (fun k => Tbl.get 0 (f.slots kind) k ≠ 0 && !bitAt f.revoke (4 * kind + k) && Tbl.get 0 (f.slots kind) k = hash)

/-- The fuse kind of SIGN_KEY for a copy KIND (R54). -/
def signKind (kind : Nat) : Nat := if kind = 3 then 0 else 1

/-- What the manifest signature and the manifest digest cover. -/
def State.signedBytes (s : State) (base : Nat) : List Byte :=
  let h := s.header base
  s.flashBytes base 256 ++ s.flashBytes (base + h.manOff) h.manLen

/-- What the Granite signature and the Granite digest cover. -/
def graniteBytes (l : List Sect) : List Byte := (l.filter (fun e => e.world = 2)).flatMap (fun e => e.raw)

/-- The manifest digest of a copy. -/
def State.manifestDigest (s : State) (base : Nat) : Nat := leNat (Config.shake (s.signedBytes base) 32)

/-- The Granite digest of a copy, 0 if none. -/
def State.graniteDigest (s : State) (base : Nat) : Nat :=
  if (s.header base).granite then leNat (Config.shake (graniteBytes (s.sects base)) 32) else 0

/-! ### The check of a copy (R56, R60, R68) -/

/-- Whether a MODE body is one that R60 calls BAD_FORMAT. -/
def modeBad (b : List Byte) : Bool :=
  let w := fieldAt b 0 4
  1 < bits w 4 2 || 1 < bits w 8 2 || 1 < bits w 10 2 || bitAt w 7 || w / 2 ^ 12 ≠ 0 || !zeroAt b 4 60

/-- The result of the sections, in manifest order: checks 1, 7 and 8. -/
def State.checkSects (s : State) (base : Nat) : List Sect → Nat
  | [] => 1
  | e :: l =>
    let body := s.flashBytes (base + e.off) e.len
    if !s.readable (base + e.off) e.len then 7
    else if leNat (Config.shake body 32) ≠ e.digest then 6
    else if e.type = 1 && modeBad body then 3
    else s.checkSects base l

/-- The checks of the keys and the signatures: checks 1 and 4 to 6, then the sections. -/
def State.checkSigned (s : State) (base kind : Nat) : Nat :=
  let h := s.header base
  let l := s.sects base
  if (s.fuses.keySlot (signKind kind) (keyHash h.signKey)).isNone
      || (h.granite && (s.fuses.keySlot 2 (keyHash h.granKey)).isNone) then 4
  else if !s.readable (base + h.sigOff) sigLen then 7
  else if !Config.slhVerify h.signKey (s.signedBytes base) (s.flashBytes (base + h.sigOff) sigLen) then 5
  else if h.granite && !s.readable (base + h.gsigOff) sigLen then 7
  else if h.granite && !Config.slhVerify h.granKey (graniteBytes l) (s.flashBytes (base + h.gsigOff) sigLen) then 5
  else s.checkSects base l

/-- The result code of a copy's check (R56, R68). -/
def State.checkCopy (s : State) (base kind : Nat) : Nat :=
  let h := s.header base
  if !s.readable base 256 then 7
  else if h.magic ≠ 0x4F4E4C46 then 2
  else if !h.ok kind then 3
  else if !s.readable (base + h.manOff) h.manLen then 7
  else if !h.formed (s.sects base) kind then 3
  else s.checkSigned base kind

/-! ### The choice (R57, R58) -/

/-- GENERATION of a copy for the choice: 0 where the header cannot be read or its MAGIC does not match. -/
def State.copyGen (s : State) (kind i : Nat) : Nat :=
  let base := copyBase kind i
  let h := s.header base
  if s.readable base 256 && h.magic = 0x4F4E4C46 then h.gen else 0

/-- The outcome of the choice between two copies: which, their results, and the copy whose check came last. -/
structure Choice where
  sel : Option Nat
  resA : Nat
  resB : Nat
  conflict : Bool
  last : Nat
  deriving DecidableEq, Repr

/-- The choice between the two copies of a KIND (R57). -/
def State.chooseCopy (s : State) (kind : Nat) : Choice :=
  let check := fun i => s.checkCopy (copyBase kind i) kind
  let ga := s.copyGen kind 0
  let gb := s.copyGen kind 1
  if ga ≠ gb then
    let f := if gb < ga then 0 else 1
    let rf := check f
    let ro := if rf = 1 then 0 else check (1 - f)
    { sel := if rf = 1 then some f else if ro = 1 then some (1 - f) else none
      resA := if f = 0 then rf else ro, resB := if f = 0 then ro else rf, conflict := false, last := if rf = 1 then f else 1 - f }
  else
    let ra := check 0
    let rb := check 1
    let same := s.manifestDigest (copyBase kind 0) = s.manifestDigest (copyBase kind 1)
    { sel := if ra = 1 && rb = 1 then (if same then some 0 else none) else if ra = 1 then some 0 else if rb = 1 then some 1 else none
      resA := ra, resB := rb, conflict := ra = 1 && rb = 1 && !same, last := 1 }

/-- The faults of a choice: a record for each result that is not VALID, severe for the one that leaves no usable Filino image or
board record, and a severe one for a conflict (R58, R64, R68, R461). -/
def State.choiceFaults (s : State) (kind : Nat) (c : Choice) : State :=
  let note := fun (t : State) (i r : Nat) =>
    if r ≤ 1 then t
    else t.report (faultMsg 101 i 0x0A (r + 16 * kind) none (decide (kind ≠ 3) && c.sel.isNone && decide (c.last = i)))
  let s1 := note (note s 0 c.resA) 1 c.resB
  if c.conflict then
    { s1 with attic := { s1.attic with conflict := s1.attic.conflict || kind = 1, conflicts := s1.attic.conflicts ++ [kind] } }.report
      (faultMsg 101 0 0x0B kind none true)
  else s1

/-- The body of the first section of a type in a copy, and of a world where one is named. -/
def State.section1 (s : State) (base type : Nat) (w : Option World) : Option (List Byte) :=
  ((s.sects base).find? (fun e => e.type = type && (match w with
    | some x => e.world = x.bit + 1
    | none => true))).map (fun e => s.flashBytes (base + e.off) e.len)

/-- The world of the first section of a type, for the record of an entry (R461). -/
def State.sectionWorld (s : State) (base type : Nat) : Option World :=
  match (s.sects base).find? (fun e => e.type = type) with
  | some e => if e.world = 1 then some .slate else if e.world = 2 then some .granite else none
  | none => none

end Sys2Proof.Machine
end

