-- ==== Sys2Proof/Machine/Sections.lean ====
section
/-! DEFINITION. The section bodies of a Filino image and of a board record, and how each is applied (R60, R203 to R207, R228, R250,
R286 to R289, R311, R315, R348 to R350, R378, R379, R396, R431, R446, R472, R501, R502). A body is read in the layout of SVER 1;
a field beyond its LENGTH reads 0 (log 23). -/
namespace Sys2Proof.Machine

/-- The configuration with what the image fixes for one world changed. -/
def State.modWcfg (s : State) (w : World) (f : WorldCfg → WorldCfg) : State :=
  { s with img := { s.img with worlds := s.img.worlds.upd w f } }

/-- An entry or a body that is not loaded is recorded: its section TYPE, its index, 0xFFFF for a body (R461). -/
def State.imageEntry (s : State) (copy type idx : Nat) (w : Option World) (severe : Bool := false) : State :=
  s.report (faultMsg 101 copy 0x09 (type + idx % 65536 * 65536) w severe)

/-- A value, or the one taken where it lies outside its range. -/
def inRange (v lo hi other : Nat) : Nat := if lo ≤ v ∧ v ≤ hi then v else other

/-- The entries of a body from an offset, by their size. -/
def entriesOf (b : List Byte) (off size n : Nat) : List (Nat × List Byte) :=
  (List.range n).map (fun i => (i, slice b (off + size * i) size))

/-! ### ASSIGN (R501, R502) -/

/-- The regions of a body, in order of their numbers. -/
def regionsOf (b : List Byte) : List Region :=
  (entriesOf b 4608 16 (fieldAt b 4576 2)).map (fun p =>
    { base := fieldAt p.2 0 8 % 2 ^ 38, len := fieldAt p.2 8 4 * 65536, world := World.ofBit (fieldAt p.2 12 1 = 2) })

/-- The host window page ranges of a body. -/
def windowsOf (b : List Byte) : List Window :=
  (entriesOf b (4608 + 16 * fieldAt b 4576 2) 8 (fieldAt b 4578 2)).map (fun p =>
    { first := fieldAt p.2 0 4, count := fieldAt p.2 4 3, world := World.ofBit (fieldAt p.2 7 1 = 2) })

/-- Whether an ASSIGN body fails under a capacity and a translation table. -/
def assignBad (b : List Byte) (cap xlatBase hostPages : Nat) : Bool :=
  let regs := regionsOf b
  let wins := windowsOf b
  let n := fieldAt b 4576 2
  let rsv := fieldAt b 348 1 / 2 = 0 && zeroAt b 349 3 && zeroAt b 4580 28 && (List.range 16).all (fun m => fieldAt b (4448 + 8 * m) 8 < 2 ^ 38)
  let regOk := (entriesOf b 4608 16 n).all (fun p =>
    fieldAt p.2 0 8 < 2 ^ 38 && fieldAt p.2 0 8 % 65536 = 0 && 1 ≤ fieldAt p.2 8 4
      && (fieldAt p.2 12 1 = 1 || fieldAt p.2 12 1 = 2) && zeroAt p.2 13 3)
  let winOk := (entriesOf b (4608 + 16 * n) 8 (fieldAt b 4578 2)).all (fun p =>
    1 ≤ fieldAt p.2 4 3 && (fieldAt p.2 7 1 = 1 || fieldAt p.2 7 1 = 2))
  let table := if hostPages = 0 then [] else [(xlatBase, 8 * hostPages)]
  !(rsv && regOk && winOk && n ≤ 1024 && fieldAt b 4578 2 ≤ 256 && regs.all (fun r => r.base + r.len ≤ cap)
    && spansApart (table ++ regs.map (fun r => (r.base, r.len)))
    && wins.all (fun w => w.first + w.count ≤ hostPages) && spansApart (wins.map (fun w => (w.first, w.count))))

/-- Whether an ASSIGN body of a board record fails: it names no region, window or partner block. -/
def assignBoardBad (b : List Byte) : Bool := assignBad b 0 0 0 || fieldAt b 4576 4 ≠ 0 || !zeroAt b 4448 128

/-- The maps, regions and windows of ASSIGN. -/
def State.applyAssign (s : State) (b : List Byte) : State :=
  { s with
    img := { s.img with
      portMap := fieldAt b 0 64, driveMap := fieldAt b 64 16, cmpMap := fieldAt b 80 256, mbMap := fieldAt b 336 4
      dwMap := fieldAt b 340 8, ctxMap := fieldAt b 352 4096
      mbAddr := (List.range 16).foldl (fun t m => Tbl.put 0 t m (fieldAt b (4448 + 8 * m) 8 % 2 ^ 38)) []
      regions := regionsOf b, windows := windowsOf b }
    fc := { s.fc with triples := [] }
    flint := { s.flint with debugSlate := bitAt (fieldAt b 348 1) 0 } }

/-! ### Regions as places of code and data -/

/-- The attribute of the one region of a world that holds n bytes from an address. -/
def State.regionAttr (s : State) (w : World) (a n : Nat) : Option Nat :=
  match findRegion a s.img.regions 0 with
  | some (i, r) => if r.world = w && a + n ≤ r.base + r.len then some (Tbl.get 0 (s.wcfg w).attrs i) else none
  | none => none

/-! ### KERNEL and HANDLER (R203 to R205) -/

/-- A KERNEL body: its region attributes, and its code (log 78). -/
def State.applyKernel (s : State) (copy : Nat) (w : World) (b : List Byte) : State :=
  let load := fieldAt b 0 8
  let len := fieldAt b 8 4
  let vec := fieldAt b 12 4
  let n := fieldAt b 16 2
  let rs := (List.range n).map (fun i => fieldAt b (24 + 4 * i) 4)
  let mine := rs.all (fun r => match s.img.regions[r % 65536]? with
    | some x => x.world = w
    | none => false)
  let attrs := rs.foldl (fun t r => Tbl.put 0 t (r % 65536) (bits r 16 2)) []
  let s1 := s.modWcfg w (fun c => { c with attrs := attrs })
  if mine && (rs.map (fun r => r % 65536)).Nodup && n ≤ 1024 && load % 64 = 0 && vec % 128 = 0 && vec + 128 ≤ len && load < 2 ^ 38
      && s1.regionAttr w load len = some 3 then
    (s1.modWcfg w (fun c => { c with kernel := true, kernelAddr := load, vbase := load + vec })).pnWrite load
      (slice b (roundUp (24 + 4 * n) 64) len)
  else s.imageEntry copy 8 0xFFFF (some w)

/-- A HANDLER body: its entries, and its code (log 78). -/
def State.applyHandler (s : State) (copy : Nat) (w : World) (b : List Byte) : State :=
  let load := fieldAt b 0 8
  let len := fieldAt b 8 4
  let n := fieldAt b 12 2
  let es := (entriesOf b 16 16 n).map (fun p =>
    ({ key := fieldAt p.2 0 2, kind := fieldAt p.2 2 1, mask := fieldAt p.2 3 1, entry := fieldAt p.2 4 4 } : HandlerEntry))
  if 1 ≤ n && n ≤ 4096 && load % 64 = 0 && load < 2 ^ 38 && s.regionAttr w load len = some 2 then
    (s.modWcfg w (fun c => { c with handler := true, handlerAddr := load, handlers := es })).pnWrite load
      (slice b (roundUp (16 + 16 * n) 64) len)
  else s.imageEntry copy 7 0xFFFF (some w)

/-! ### GATES (R206) -/

/-- The gate table of a world in a body. -/
def gatesOf (b : List Byte) (off : Nat) : Tbl Nat :=
  (List.range 256).foldl (fun t i => Tbl.put 0 t i (fieldAt b (off + 4 * i) 4)) []

/-- GATES. -/
def State.applyGates (s : State) (b : List Byte) : State :=
  (s.modWcfg .slate (fun c => { c with
    niMax := inRange (fieldAt b 0 1) 1 64 1, frameBase := fieldAt b 8 8 % 2 ^ 38, gates := gatesOf b 64 })).modWcfg .granite
      (fun c => { c with
        niMax := inRange (fieldAt b 1 1) 1 64 1, frameBase := fieldAt b 16 8 % 2 ^ 38, gates := gatesOf b 1088 })

/-! ### RESIDENT (R228) -/

/-- A RESIDENT entry of a body. -/
def residentOf1 (load : Nat) (e : List Byte) : ResidentEntry :=
  { ctx := fieldAt e 0 2, lane := fieldAt e 2 1, cluster := fieldAt e 3 1, restart := bitAt (fieldAt e 4 1) 0
    limit := fieldAt e 5 1, header := load + fieldAt e 8 4, delayMs := fieldAt e 12 4 }

/-- RESIDENT: LOCK_WAIT_US, the entries, and the program area. -/
def State.applyResident (s : State) (copy : Nat) (w : World) (b : List Byte) : State :=
  let load := fieldAt b 0 8
  let area := fieldAt b 8 4
  let n := fieldAt b 12 2
  if load % 64 = 0 && load < 2 ^ 38 && n ≤ 1024 && (area = 0 || s.regionAttr w load area = some 0) then
    let s1 := (s.modWcfg w (fun c => { c with lockWaitUs := inRange (fieldAt b 16 4) 10 100000 1000 })).pnWrite load
      (slice b (roundUp (32 + 32 * n) 64) area)
    (entriesOf b 32 32 n).foldl (fun t p =>
      let e := residentOf1 load p.2
      if t.ctxWorld e.ctx = some w && !(t.wcfg w).residents.any (fun x => x.ctx = e.ctx) && fieldAt p.2 8 4 < area then
        t.modWcfg w (fun c => { c with residents := c.residents ++ [e] })
      else t.imageEntry copy 9 p.1 (some w)) s1
  else s.imageEntry copy 9 0xFFFF (some w)

/-! ### HOST (R250) -/

/-- What a world without a HOST section, and each world under the built-in safe configuration, is served with. -/
def builtinHost (w : World) (c : WorldCfg) : WorldCfg :=
  { c with
    sqShare := 1, cqShare := 1, msixCount := 4, maxLevel := 1, flashMb := 8 * w.bit, wdogMs := 60000, bar2 := false
    featureMask := 0x6000, partner := [] }

/-- A HOST body. -/
def State.applyHost (s : State) (w : World) (b : List Byte) : State :=
  let mb := fieldAt b 7 1
  s.modWcfg w (fun c => { c with
    hosted := true, sqShare := inRange (fieldAt b 0 2) 1 8192 1, cqShare := inRange (fieldAt b 2 2) 1 8192 1
    msixCount := inRange (fieldAt b 4 2) 1 2048 1, maxLevel := inRange (fieldAt b 6 1) 1 3 1
    flashMb := if mb < 16 ∧ s.mbWorld mb = some w then mb else 0xFF
    wdogMs := inRange (fieldAt b 8 4) 10 60000 60000, bar2 := bitAt (fieldAt b 12 1) 0, featureMask := fieldAt b 16 16
    partner := (List.range 16).foldl (fun t m =>
      let p := fieldAt b (32 + m) 1
      Tbl.put 0 t m (if s.mbWorld m = some w ∧ p ≤ 2 then p else 0)) [] })

/-- The shares of the two worlds fitted into 8,192: Granite's share, and whether each is reduced. -/
def fitShares (slate granite : Nat) : (Nat × Nat) × (Bool × Bool) :=
  if slate + granite ≤ 8192 then ((slate, granite), (false, false))
  else
    let g := if granite = 8192 then 8191 else granite
    ((8192 - g, g), (8192 - g ≠ slate, granite = 8192))

/-- The shares of both worlds, each reduction recorded. -/
def State.applyShares (s : State) (copy : Nat) : State :=
  let a := s.wcfg .slate
  let b := s.wcfg .granite
  let q := fitShares a.sqShare b.sqShare
  let c := fitShares a.cqShare b.cqShare
  let s1 := (s.modWcfg .slate (fun x => { x with sqShare := q.1.1, cqShare := c.1.1 })).modWcfg .granite
    (fun x => { x with sqShare := q.1.2, cqShare := c.1.2 })
  let note := fun (t : State) (on : Bool) (w : World) => if on then t.imageEntry copy 0x0B 0xFFFF (some w) else t
  note (note (note (note s1 q.2.1 .slate) q.2.2 .granite) c.2.1 .slate) c.2.2 .granite

/-- A KERNEL mailbox whose MB_ADDR does not lie in a SUPER_DATA region of its world has no partner (R502). -/
def State.applyPartners (s : State) (copy : Nat) (assignWorld : Option World) : State :=
  (List.range 16).foldl (fun t m =>
    match t.mbWorld m with
    | some w =>
      if Tbl.get 0 (t.wcfg w).partner m = 1 && (t.wcfg w).flashMb ≠ m then
        let a := Tbl.get 0 t.img.mbAddr m
        if a % 256 = 0 && t.regionAttr w a 256 = some 1 then t
        else (t.modWcfg w (fun c => { c with partner := Tbl.put 0 c.partner m 0 })).imageEntry copy 2 m assignWorld
      else t
    | none => t) s

/-! ### PORT, LANE, PROFILE and TEXT (R286 to R289, R311, R315) -/

/-- The configuration of a PORT entry (R286, R287). -/
def portCfgOf (e : List Byte) : PortCfg :=
  let fl := fieldAt e 3 1
  let tab := fun (n : Nat) (f : Nat → Nat) => (List.range n).foldl (fun t i => Tbl.put 0 t i (f i)) ([] : Tbl Nat)
  let m := fieldAt e 2 1
  let base : PortCfg :=
    { mode := m, dropOvr := bitAt fl 0, drop := bitAt fl 1, flow := bitAt fl 2, rs485 := bitAt fl 3, vbusSafeOff := bitAt fl 4
      hubs := bitAt fl 5, pktMax := fieldAt e 4 2, resRx := tab 16 (fun i => fieldAt e (40 + i) 1)
      resTx := tab 16 (fun i => fieldAt e (56 + i) 1), cands := (List.range 4).map (fun i => fieldAt e (72 + 2 * i) 2) }
  match m with
  | 1 => { base with ocFilterUs := inRange (fieldAt e 8 2) 100 10000 1000, ocRetryMs := inRange (fieldAt e 10 2) 100 10000 1000 }
  | 2 => { base with
      line := tab 4 (fun i => fieldAt e (8 + 4 * i) 4), rxIdle := fieldAt e 24 2, eopChar := fieldAt e 26 1
      eopEn := bitAt (fieldAt e 27 1) 0, txTurn := fieldAt e 28 1 }
  | 3 => { base with
      sckHz := fieldAt e 8 4, spiMode := fieldAt e 12 1, csSetup := inRange (fieldAt e 14 2) 20 65535 20
      csHold := inRange (fieldAt e 16 2) 20 65535 20, csIdle := inRange (fieldAt e 18 2) 20 65535 20 }
  | 4 => { base with
      sclHz := fieldAt e 8 4, addr := tab 16 (fun i => fieldAt e (12 + i) 1)
      stretchUs := inRange (fieldAt e 28 2) 100 100000 25000, gpioDir := fieldAt e 30 1 % 4, gpioSafe := fieldAt e 31 1 % 4 }
  | 5 => { base with
      pinDir := tab 4 (fun p => inRange (fieldAt e (8 + 8 * p) 1) 0 2 0)
      pinSafe := tab 4 (fun p => inRange (fieldAt e (9 + 8 * p) 1) 0 2 0)
      pinFilter := tab 4 (fun p => fieldAt e (10 + 8 * p) 2)
      pulseMax := tab 4 (fun p => inRange (fieldAt e (12 + 8 * p) 2) 0 10000 0)
      pulseGap := tab 4 (fun p => inRange (fieldAt e (14 + 8 * p) 2) 0 60000 60000) }
  | _ => base

/-- Whether a PORT entry's own fields leave it unloaded (R287, R288). -/
def portCfgBad (c : PortCfg) : Bool :=
  5 < c.mode || 16 < (c.resRx.map (fun p => p.2)).sum || 16 < (c.resTx.map (fun p => p.2)).sum
    || (c.mode = 2 && (!lineOk (Tbl.get 0 c.line 0) || (c.rxIdle = 0 && !c.eopEn)))
    || c.addr.any (fun p => p.2 ≤ 7 || 0x78 ≤ p.2)

/-- PORT: the entries of a world's body. -/
def State.applyPort (s : State) (copy : Nat) (w : World) (b : List Byte) : State :=
  ((entriesOf b 16 80 (Nat.min 256 (fieldAt b 0 2))).foldl (fun (r : List Nat × State) p =>
    let n := fieldAt p.2 0 2
    let c := portCfgOf p.2
    let t := r.2
    if t.portWorld n = some w && !r.1.contains n && !portCfgBad c then (n :: r.1, t.modPort n (fun x => { x with cfg := c }))
    else (n :: r.1, t.imageEntry copy 5 p.1 (some w))) ([], s)).2

/-- The members of a lane's mask that no earlier entry has claimed and that belong to a world. -/
def claimed (mask n : Nat) (taken : Nat → Bool) (world : Nat → Option World) : Nat :=
  ((List.range n).map (fun i => if bitAt mask i && !taken i && (world i).isSome then 2 ^ i else 0)).sum

/-- LANE. -/
def State.applyLane (s : State) (copy : Nat) (sw : Option World) (b : List Byte) : State :=
  (entriesOf b 16 64 (Nat.min 128 (fieldAt b 0 2))).foldl (fun t p =>
    let l := fieldAt p.2 0 1
    if 128 ≤ l || (Tbl.get ({} : LaneCfg) t.img.lanes l).listed then t.imageEntry copy 3 p.1 sw
    else
      let pm := fieldAt p.2 4 32
      let dm := fieldAt p.2 36 8
      let ports := claimed pm 256 (fun i => (t.portLane i).isSome) t.portWorld
      let drives := claimed dm 64 (fun i => (t.driveLane i).isSome) t.driveWorld
      let c : LaneCfg := { owner := fieldAt p.2 1 1, cluster := fieldAt p.2 2 1, listed := true, ports := ports, drives := drives }
      let t1 := { t with img := { t.img with lanes := Tbl.put {} t.img.lanes l c } }
      if ports = pm ∧ drives = dm then t1 else t1.imageEntry copy 3 p.1 sw) s

/-- A PROFILE entry of a body. -/
def profileOf1 (e : List Byte) : Profile :=
  { num := fieldAt e 0 2, usb := fieldAt e 2 1 = 1, matchBits := fieldAt e 3 1, vid := fieldAt e 4 2, pid := fieldAt e 6 2
    cls := fieldAt e 8 1, sub := fieldAt e 9 1, proto := fieldAt e 10 1, config := fieldAt e 11 1, bcdMin := fieldAt e 12 2
    bcdMax := fieldAt e 14 2, probe := fieldAt e 16 2, verMin := fieldAt e 18 1, verMax := fieldAt e 19 1, defIn := fieldAt e 20 1
    defOut := fieldAt e 21 1, timeoutMs := inRange (fieldAt e 22 2) 10 10000 1000, outputMask := fieldAt e 24 4 }

/-- PROFILE: a body that breaks the header ranges is not loaded. -/
def State.applyProfile (s : State) (copy : Nat) (w : World) (b : List Byte) : State :=
  let n := fieldAt b 0 2
  let stride := fieldAt b 2 2
  let base := fieldAt b 8 8
  let first := fieldAt b 16 2
  let k := fieldAt b 18 1
  let probes := (List.range k).map (fun i => first + i)
  let okCtx := probes.all (fun c => s.ctxWorld c = some w && !(s.wcfg w).residents.any (fun e => e.ctx = c))
  if 1 ≤ n && n ≤ 1024 && [256, 512, 1024, 2048, 4096].contains stride && base % stride = 0 && base < 2 ^ 38
      && s.regionAttr w base (4096 * stride) = some 0 && 1 ≤ k && k ≤ 16 && okCtx then
    let es := ((entriesOf b 32 48 n).filter (fun p => fieldAt p.2 2 1 ≤ 1)).map (fun p => profileOf1 p.2)
    { (s.modWcfg w (fun c => { c with probes := probes })) with img :=
      { (s.modWcfg w (fun c => { c with probes := probes })).img with
        profiles := s.img.profiles.set w { loaded := true, stride := stride, base := base, profiles := es } } }
  else s.imageEntry copy 6 0xFFFF (some w)

/-- The strings of a TEXT body: n entries from an offset. -/
def textsOf (b : List Byte) : Nat → Nat → Tbl (List Byte)
  | 0, _ => []
  | n + 1, off =>
    let len := fieldAt b (off + 2) 2
    let t := textsOf b n (off + 8 + roundUp len 8)
    Tbl.ins t (fieldAt b off 2) (slice b (off + 8) len)

/-- TEXT: the strings by port. Under an image the body is copied to LOAD_ADDR. -/
def State.applyText (s : State) (copy : Nat) (w : World) (b : List Byte) (image : Bool) : State :=
  let load := fieldAt b 0 8
  let s1 := s.modWcfg w (fun c => { c with text := textsOf b (Nat.min 256 (fieldAt b 8 2)) 16 })
  if !image then s1
  else if load % 64 = 0 && load < 2 ^ 38 && s.regionAttr w load b.length = some 0 then s1.pnWrite load b
  else s.imageEntry copy 0x0C 0xFFFF (some w)

/-! ### PLANT and PLANT_BASIC (R378, R379, R396) -/

/-- The configuration of an entry. -/
def driveCfgOf (e : List Byte) (basic : Bool) : DriveCfg :=
  let fl := fieldAt e 2 1
  let base : DriveCfg :=
    { mode := fieldAt e 1 1, keep := bitAt fl 0, adcSync := bitAt fl 1, quad := bitAt fl 2, safeAction := fieldAt e 3 1
      pwmFreq := fieldAt e 4 2, deadNs := fieldAt e 6 2, rampUp := fieldAt e 8 2, rampDn := fieldAt e 10 2, stopRampMs := fieldAt e 12 2
      safeDuty := fieldAt e 14 2, loadW := fieldAt e 16 2, inrushW := fieldAt e 18 2, inrushMs := fieldAt e 20 2, cls := fieldAt e 22 1
      encFilter := fieldAt e 23 1, stopPort := fieldAt e 24 2, stopPin := fieldAt e 26 1 % 4, stopLevel := bitAt (fieldAt e 26 1) 7
      ilim := fieldAt e 28 2, zcDelayUs := fieldAt e 30 2, gang := if fieldAt e 1 1 = 4 then 1 else 0 }
  if basic then
    { base with
      romProg := fieldAt e 32 1, romDuty := fieldAt e 34 2, defrostEvery := fieldAt e 36 2, defrostMax := fieldAt e 38 2
      defrostEnd := fieldAt e 40 2, dripMin := fieldAt e 42 2, floatAvg := fieldAt e 44 2, chgIlim := fieldAt e 46 2 }
  else base

/-- The fields of a ROM program, where it uses them (R396). -/
def romOk (c : DriveCfg) (e : List Byte) : Bool :=
  c.romProg ≤ 4 && zeroAt e 33 1 && zeroAt e 48 16
    && (c.romProg ≠ 2 || (c.romDuty ≤ 1000 && (c.defrostEvery = 0 ||
      (60 ≤ c.defrostEvery && c.defrostEvery ≤ 1440 && 1 ≤ c.defrostMax && c.defrostMax ≤ 120 && c.defrostEnd ≤ 65520 && c.dripMin ≤ 30))))
    && (c.romProg ≠ 3 || c.romDuty ≤ 10000) && (c.romProg ≠ 4 || (c.floatAvg ≤ 65520 && c.chgIlim ≤ 4095))

/-- Whether every field of an entry lies in its range (R378, R417). -/
def driveCfgOk (c : DriveCfg) (e : List Byte) (basic : Bool) : Bool :=
  let top := if c.mode = 3 then 1000 else 10000
  c.mode ≤ 4 && fieldAt e 2 1 < 8 && c.safeAction ≤ 2 && 200 ≤ c.pwmFreq && c.pwmFreq ≤ 1000 && c.deadNs ≤ 2000 && c.deadNs % 5 = 0
    && 1 ≤ c.rampUp && c.rampUp ≤ top && 1 ≤ c.rampDn && c.rampDn ≤ top && c.stopRampMs ≤ 10000 && c.safeDuty ≤ top
    && c.inrushMs ≤ 10000 && 1 ≤ c.cls && c.cls ≤ 3 && bits (fieldAt e 26 1) 2 5 = 0 && zeroAt e 27 1 && c.ilim ≤ 4095
    && c.zcDelayUs ≤ 2000 && (if basic then romOk c e else zeroAt e 32 32)

/-- Whether the three drives of a gang are of one world and lane, and free of other entries (R379). -/
def State.gangFree (s : State) (w : World) (n : Nat) (named : List Nat) : Bool :=
  n % 8 ≤ 5 && [n + 1, n + 2].all (fun i =>
    s.driveWorld i = some w && s.driveLane i = s.driveLane n && !named.contains i && (s.drive i).cfg.mode = 0
      && (s.drive i).cfg.gang = 0)

/-- PLANT or PLANT_BASIC: the entries of a world's body. `type` is the section's (log 150). -/
def State.applyPlant (s : State) (copy : Nat) (w : World) (b : List Byte) (basic : Bool) : State :=
  let es := entriesOf b 16 64 (Nat.min 64 (fieldAt b 0 2))
  let named := es.map (fun p => fieldAt p.2 0 1)
  (es.foldl (fun (r : List Nat × State) p =>
    let n := fieldAt p.2 0 1
    let c := driveCfgOf p.2 basic
    let t := r.2
    let link := c.stopPort = 0xFFFF || (t.portWorld c.stopPort = some w && (t.port c.stopPort).cfg.mode = 5)
    let slaveOf := (es.take p.1).any (fun q => fieldAt q.2 2 1 = 4 && fieldAt q.2 0 1 % 8 ≤ 5
      && (n = fieldAt q.2 0 1 + 1 || n = fieldAt q.2 0 1 + 2))
    if t.driveWorld n = some w && !r.1.contains n && !slaveOf && (t.drive n).cfg.gang ≠ 2 && driveCfgOk c p.2 basic && link
        && (c.mode ≠ 4 || t.gangFree w n (named.filter (fun i => i ≠ n))) then
      let t1 := t.modDrive n (fun d => { d with cfg := c, ilim := c.ilim, freq := c.pwmFreq, perFreq := c.pwmFreq })
      (n :: r.1, if c.mode = 4 then [n + 1, n + 2].foldl (fun u i => u.modDrive i (fun d => { d with
        cfg := { gang := 2, master := n, stopPort := 0xFFFF } })) t1 else t1)
    else (n :: r.1, t.imageEntry copy (if basic then 0x11 else 0x0A) p.1 (some w))) ([], s)).2

/-! ### BOILER (R431) -/

/-- A BOILER body. -/
def boilerOf (b : List Byte) : BoilerCfg :=
  let tab := fun (n off : Nat) (k : Nat) => (List.range n).foldl (fun t i => Tbl.put 0 t i (fieldAt b (off + k * i) k)) ([] : Tbl Nat)
  { coreImax := fieldAt b 0 4, dieBase := fieldAt b 4 2, plantCap := fieldAt b 6 2, dieRes := tab 8 8 2, plantRes := tab 8 24 2
    bgUs := fieldAt b 40 4, negb := ⟨fieldAt b 44 4, fieldAt b 48 4⟩, clusterDie := fieldAt b 52 2, portDie := fieldAt b 54 2
    driveDie := fieldAt b 56 2, dwDie := fieldAt b 58 2, flintDie := fieldAt b 60 2, pmbusAddr := fieldAt b 62 1
    pec := bitAt (fieldAt b 63 1) 0, bursts := tab 7 64 1 }

/-- Whether a BOILER body is refused: its ranges, its reserves at FRUGAL, and a SYSTEM amount that could never fit. -/
def boilerBad (b : List Byte) : Bool :=
  let c := boilerOf b
  let k : Boiler := { cfg := c, rail := 2 }
  let rng := fun (v lo hi : Nat) => decide (lo ≤ v) && decide (v ≤ hi)
  let amounts := [c.clusterDie, c.portDie, c.driveDie, c.dwDie, c.flintDie]
  let fits := [c.clusterDie, c.portDie, c.driveDie, c.dwDie].all (fun a =>
    k.charged false a ≤ k.capacity false - k.base false - k.otherReserves false 0)
  !(rng c.coreImax 1000 200000 && c.dieBase ≤ 20000 && Tbl.get 0 c.dieRes 7 = 0 && Tbl.get 0 c.plantRes 7 = 0
    && rng c.bgUs 1000 2000000 && c.negb.slate ≤ 100000 && c.negb.granite ≤ 100000 && amounts.all (fun a => rng a 1 2000)
    && rng c.pmbusAddr 0x08 0x77 && fieldAt b 63 1 < 2 && (List.range 7).all (fun i => rng (fieldAt b (64 + i) 1) 1 64)
    && zeroAt b 71 9 && k.base false + k.reserves false ≤ k.capacity false && k.reserves true ≤ c.plantCap && fits)

/-- The burst default of a Landing: PANTRY, PCIE, CTXSTORE, FLINT, COPROC, DRIVE or PORT (R404, R431). -/
def BoilerCfg.burstOf (c : BoilerCfg) (k : Nat) : Nat :=
  Tbl.get 0 c.bursts (if k < 4 then 0 else if k = 4 then 1 else if k = 5 then 2 else if k = 6 then 3 else if k < 72 then 4
    else if k < 136 then 5 else 6)

/-- BOILER: the body, the paces of the mode word and the Landings' burst defaults (R426, R429). -/
def State.applyBoiler (s : State) (b : List Byte) (mode : Nat) : State :=
  let c := boilerOf b
  let p : Two Nat := ⟨bits mode 0 2, bits mode 2 2⟩
  let rail := railOf p.slate p.granite
  let s1 := (s.modBl (fun x => { x with cfg := c, modePace := p, pace := p, rail := rail })).emit (.pmbusVout (paceMv rail))
  { s1 with lands := (List.range 392).foldl (fun t k =>
      if landExists k then Tbl.upd {} t k (fun l => { l with burst := c.burstOf k }) else t) s1.lands }

/-! ### PANTRY (R344, R348 to R350) -/

/-- PN_CAP of a body under an ECC mode. -/
def pantryCap (b : List Byte) (strong : Bool) : Nat :=
  let m := fieldAt b 0 1
  let installed := (if m = 0xF then 4 else if m = 3 then 2 else 1) * fieldAt b 1 1 * 536870912
  if strong then installed / 8 * 7 else installed

/-- Whether a pool entry has a field outside its range (R349, R350). -/
def poolBad (e : List Byte) : Bool :=
  !(zeroAt e 2 2 && fieldAt e 8 4 % 64 = 0 && 64 ≤ fieldAt e 8 4 && fieldAt e 8 4 ≤ 16777216 && 1 ≤ fieldAt e 12 4)

/-- Whether a PANTRY body fails. `regs` are the regions of ASSIGN. -/
def pantryBad (b : List Byte) (strong : Bool) (regs : List Region) : Bool :=
  let rng := fun (off n lo hi : Nat) => decide (lo ≤ fieldAt b off n) && decide (fieldAt b off n ≤ hi)
  let base := fieldAt b 32 8
  let pages := fieldAt b 40 4
  let words := [16, 20, 24].all (fun o => fieldAt b o 4 < 2 ^ 18)
  let rsv := zeroAt b 3 1 && zeroAt b 7 1 && zeroAt b 12 4 && zeroAt b 28 4 && zeroAt b 46 18
  let table := pages = 0 || (base + 8 * pages ≤ pantryCap b strong
    && regs.all (fun r => r.base + r.len ≤ base || base + 8 * pages ≤ r.base))
  !([1, 3, 0xF].contains (fieldAt b 0 1) && rng 1 1 1 2 && rng 2 1 0 3 && rng 4 1 2 15 && rng 5 1 3 16 && rng 6 1 4 17
    && fieldAt b 5 1 + 1 ≤ fieldAt b 6 1 && rng 8 2 16 64 && rng 10 2 1 168 && words && base % 1048576 = 0 && pages ≤ 129024
    && fieldAt b 44 2 ≤ 64 && rsv && table && (entriesOf b 64 16 (fieldAt b 44 2)).all (fun p => !poolBad p.2))

/-- PANTRY: geometry, host window and pools. -/
def State.applyPantry (s : State) (b : List Byte) (strong : Bool) : State :=
  { s with img := { s.img with
    chMask := fieldAt b 0 1, devices := fieldAt b 1 1, rate := fieldAt b 2 1, strong := strong, cap := pantryCap b strong
    xlatBase := fieldAt b 32 8, hostPages := fieldAt b 40 4 } }

/-- The pools of a PANTRY body; one whose buffers do not lie in its region is recorded (R349). -/
def State.applyPools (s : State) (copy : Nat) (b : List Byte) : State :=
  (entriesOf b 64 16 (fieldAt b 44 2)).foldl (fun t p =>
    let q : Pool := { region := fieldAt p.2 0 2, offset := fieldAt p.2 4 4, size := fieldAt p.2 8 4, count := fieldAt p.2 12 4 }
    let ok := !poolBad p.2 && (match t.img.regions[q.region]? with
      | some r => decide (q.offset + q.size * q.count ≤ r.len)
      | none => false)
    if ok then { t with img := { t.img with pools := Tbl.put none t.img.pools p.1 (some q) } }
    else t.imageEntry copy 0x0E p.1 none) s

/-! ### TIMING and FAULT (R446, R472) -/

/-- The epoch engine of a world with its period and flags. -/
def State.setPeriod (s : State) (w : World) (ms : Nat) (sync lock : Bool) : State :=
  { s with stats := s.stats.upd w (fun e => { e with periodMs := ms, syncEn := sync, lock := lock }) }

/-- TIMING: update mode, epochs, and the compare units that step 8 sets. -/
def State.applyTiming (s : State) (copy : Nat) (b : List Byte) : State :=
  let fl := fieldAt b 1 1
  let per := fun (off : Nat) => inRange (fieldAt b off 4) 0 86400000 60000
  let s1 := { s with qz := { s.qz with window := fieldAt b 0 1 ≠ 0, syncFalling := bitAt fl 2 } }
  let s2 := (s1.setPeriod .slate (per 4) (bitAt fl 0) (bitAt fl 3)).setPeriod .granite (per 8) (bitAt fl 1) (bitAt fl 4)
  ((entriesOf b 16 16 (inRange (fieldAt b 2 2) 0 1024 0)).foldl (fun (r : List Nat × State) p =>
    let u := fieldAt p.2 0 2
    let t := r.2
    let first := fieldAt p.2 4 4
    let int := fieldAt p.2 8 4
    let ok := (t.cmpWorld u).isSome && !r.1.contains u && fieldAt p.2 2 1 < 4 && zeroAt p.2 3 1 && zeroAt p.2 12 4
      && 1000 ≤ first && first ≤ 2000000000 && (int = 0 || (1000 ≤ int && int ≤ 2000000000))
    (u :: r.1, if ok then { t with img := { t.img with timing := t.img.timing ++ [(u, fieldAt p.2 2 1, first, int)] } }
      else t.imageEntry copy 0x0F p.1 none)) ([], s2)).2

/-- A save area of a FAULT body: its address and length, each taken as 0 where it is out of range, or none recorded (R472). -/
def State.applySaveArea (s : State) (copy : Nat) (w : World) (addr len : Nat) : State :=
  let l := if 32768 < len || len % 64 ≠ 0 then 0 else len
  let a := if addr % 64 ≠ 0 || 2 ^ 38 ≤ addr then 0 else addr
  let ok := match s.regionAttr w a l with
    | some x => decide (x ≤ 1)
    | none => false
  if l = 0 then s
  else if ok then { s with fc := { s.fc with saveAddr := s.fc.saveAddr.set w a, saveLen := s.fc.saveLen.set w l } }
  else s.imageEntry copy 0x10 0xFFFF none

/-- FAULT: thresholds, STUDY_HOLD and the save areas. -/
def State.applyFault (s : State) (copy : Nat) (b : List Byte) : State :=
  let cfg := (List.range 256).foldl (fun t i =>
    let v := fieldAt b (64 + 4 * i) 4
    Tbl.put {} t i { n := bits v 0 8, wMs := if bits v 8 16 = 0 then 1000 else bits v 8 16, noErr := bitAt v 24 }) ([] : Tbl FaultCfg)
  let s1 := { s with fc := { s.fc with cfg := cfg, studyHoldFlag := fieldAt b 0 1 = 1 } }
  (s1.applySaveArea copy .slate (fieldAt b 8 8) (fieldAt b 16 4)).applySaveArea copy .granite (fieldAt b 24 8) (fieldAt b 32 4)

end Sys2Proof.Machine
end

