-- ==== Sys2Proof/Machine/Rom.lean ====
section
/-! DEFINITION. The ROM programs of drives under the built-in safe configuration (R63, R395 to R397), and the restart of resident
programs (R228 to R230). A ROM program is bound to context 16,320 + n on a home Hearth as any resident program, waits once it has
been issued, and takes its due steps whenever the time advances (log 24). -/
namespace Sys2Proof.Machine

/-- The context of the ROM program of a drive (R395). -/
def romCtx (n : Nat) : Nat := 16320 + n

/-- The resident entry of a ROM program (R228, R395). -/
def State.romEntry (s : State) (n : Nat) : ResidentEntry :=
  { ctx := romCtx n, lane := (s.driveLane n).getD 0xFF, cluster := 0xFF, restart := true, limit := 0, header := 0, delayMs := 1000 }

/-- A ROM program is bound to its context: cause PROGRAM of its drive clears, and its steps begin (R216, R387, R397). -/
def State.romBind (s : State) (w : World) (n : Nat) (again : Bool) : State :=
  s.residentPlace w (s.romEntry n) s.backgroundLst again (fun t _ h =>
    (((t.modCtx (romCtx n) (fun x => { (s.romEntry n).record s.now h x with
      level := 3, tgtCount := 1, targets := Tbl.put 0 [] 0 (4096 + n) })).makeReady (romCtx n)).driveCauseClear n .program).modDrive n
      (fun d => { d with romPhase := 0, romUntil := s.now, romInt := 0 }))

/-- One item write of a ROM program, and whether the program goes on; an item that has its value is left. A write refused
outright ends the program (R397). -/
def State.romPut (s : State) (n item v : Nat) : Bool × State :=
  let d := s.drive n
  let same := if item = 1 then d.run else if item = 7 then decide (d.ilim = v) else decide (d.itemTarget item = v)
  if same then (true, s)
  else match s.driveWrite n item v (some (romCtx n)) s.backgroundLst with
    | (.accepted, s1) => (true, s1)
    | (.noLeave, s1) => (false, s1.programEnd (romCtx n) { status := 9 })
    | (_, s1) => (false, s1)

/-- The item writes of a step, in order, until one waits, is refused or ends the program. -/
def State.romPuts (s : State) (n : Nat) : List (Nat × Nat) → Bool × State
  | [] => (true, s)
  | (item, v) :: l =>
    match s.romPut n item v with
    | (true, s1) => s1.romPuts n l
    | (false, s1) => (false, s1)

/-- A minute in nanoseconds. -/
def minuteNs : Nat := 60000000000

/-- HEATER, phases 0 normal, 1 a defrost to be started, 2 heat, 3 drip (R397). -/
def State.romHeater (s : State) (n : Nat) : State :=
  let d := s.drive n
  let c := d.cfg
  let put := fun (t : State) (v : Nat) => t.romPuts n [(4, v), (1, 1)]
  let phase := fun (t : State) (p : Nat) (u : Nat) => t.modDrive n (fun d => { d with romPhase := p, romUntil := u })
  match d.romPhase with
  | 0 =>
    if c.defrostEvery ≠ 0 && d.romNext ≤ s.now then
      (phase (s.modDrive n (fun d => { d with romNext := d.romNext + c.defrostEvery * minuteNs })) 1 s.now)
    else (put s c.romDuty).2
  | 1 =>
    match put s 1000 with
    | (true, s1) => phase s1 2 (s.now + c.defrostMax * minuteNs)
    | (false, s1) => s1
  | 2 =>
    if (c.defrostEnd ≠ 0 && c.defrostEnd ≤ adcMean d.hist0) || d.romUntil ≤ s.now then
      phase (s.romPuts n [(4, 0)]).2 3 (s.now + c.dripMin * minuteNs)
    else (put s 1000).2
  | _ => if d.romUntil ≤ s.now then phase s 0 s.now else (put s 0).2

/-- CHARGER: one PI step every 100 ms with the fixed gains, its output limited to 0 to 9,500 (R397). -/
def State.romCharger (s : State) (n : Nat) : State :=
  let d := s.drive n
  let c := d.cfg
  let block := leBytes 4 0x4000 ++ leBytes 4 0x400 ++ leBytes 4 0 ++ leBytes 4 9500 ++ leBytes 8 d.romInt ++ leBytes 8 0
  match s.romPuts n [(7, c.chgIlim)] with
  | (false, s1) => s1
  | (true, s1) =>
    if d.romUntil ≤ s.now then
      match piOp block ((c.floatAvg : Int) - (adcMean d.hist0 : Nat)) with
      | (u, _, w) =>
        ((s1.modDrive n (fun d => { d with romInt := fieldAt w 0 8, romUntil := s.now + 100000000 })).romPuts n [(2, u.toNat), (1, 1)]).2
    else (s1.romPuts n [(1, 1)]).2

/-- The steps of the ROM program of a drive, its answers taken first: a DWR that waited and was refused outright ends it; while
an increase waits for leave, or the drive is in safe output, the program waits (R397). -/
def State.romStep (s : State) (n : Nat) : State :=
  let d := s.drive n
  let x := s.ctx (romCtx n)
  if x.state ≠ .waiting || !s.driveEnabled n || !s.issues (s.home (romCtx n)) then s
  else
    let ans := d.answers.find? (fun a => a.ctx = romCtx n)
    let s1 := if ans.isSome then s.modDrive n (fun d => { d with answers := d.answers.filter (fun a => a.ctx != romCtx n) }) else s
    if ans.any (fun a => a.result = 1 && a.unit = 0) then s1.programEnd (romCtx n) { status := 9 }
    else if d.safeOut || d.waiting.any (fun i => i.ctx = some (romCtx n)) then s1
    else match d.cfg.romProg with
      | 2 => s1.romHeater n
      | 3 => (s1.romPuts n [(2, d.cfg.romDuty), (1, 1)]).2
      | 4 => s1.romCharger n
      | _ => s1

/-- The due steps of every ROM program. -/
def State.romRun (s : State) : State :=
  if s.attic.config = .builtin && s.done then
    ((List.range 64).filter (fun n => (s.drive n).cfg.romProg ≠ 0)).foldl (fun t n => t.romStep n) s
  else s

/-- COMPARE_MATCH: a unit is evaluated at the last advance; ROM programs take the steps due at that time. -/
def execCompareMatch (u : Nat) (s : State) : Result := .next ((s.cmpMatch u).romRun)

/-- Bind the program of a resident context: a ROM program, or the program of its RESIDENT entry. -/
def State.residentBind (s : State) (w : World) (e : ResidentEntry) (again : Bool) : State :=
  if s.attic.config = .builtin then s.romBind w (e.ctx - 16320) again else s.bindResident w e again

/-- RESIDENT_RESTART: the delay of a resident program has passed: it is bound again from its header (R230). -/
def execResidentRestart (c : Nat) (s : State) : Result :=
  let x := s.ctx c
  let w := s.home c
  match x.restartAt, s.residentOf c with
  | some t, some e =>
    if s.now < t || !s.issues w then .next s
    else if x.state = .free then .next ((s.residentBind w e false).romRun)
    else if x.state = .error then .next ((s.residentBind w e true).romRun)
    else .next s
  | _, _ => .next s

end Sys2Proof.Machine
end

