-- ==== Sys2Proof/Machine/Record.lean ====
section
/-! DEFINITION. The context record as software reads it (R210, R211, R223). -/
namespace Sys2Proof.Machine

/-- The code of a context state (R211). -/
def CtxState.code : CtxState → Nat
  | .free => 0
  | .ready => 1
  | .running => 2
  | .waiting => 3
  | .suspended => 4
  | .error => 5
  | .migrating => 6

/-- The bytes of the stream that the checkpoint has committed: handed off for WRITE and CONTROL, up to the receive commit
point for READ and SENSE, the later of the two for EXEC (R223). -/
def Ctx.checkpointPos (x : Ctx) : Nat :=
  let t := x.stream
  t.base + (match x.ccw with
    | some y =>
      if y.code = 1 || y.code = 3 then t.handed else if y.code = 2 || y.code = 4 then t.committed
      else if y.code = 9 then Nat.max t.handed t.committed else 0
    | none => 0)

/-- The progress fields of a checkpoint: MEMBER_ADDR, MEMBER_DONE, IDAL_INDEX, IDAL_OFFSET. -/
structure Progress where
  addr : Nat := 0
  done : Nat := 0
  idx : Nat := 0
  off : Nat := 0
  deriving DecidableEq, Repr

/-- The progress of a context. The entry of an IDAL is found in the list as it stands. -/
def State.progress (s : State) (c : Nat) : Progress :=
  let x := s.ctx c
  let t := x.stream
  match t.members with
  | [] => {}
  | m :: _ =>
    if x.refetch then
      match t.piece with
      | some p => { addr := m.loc, done := t.base, idx := p.idx, off := t.base - p.start }
      | none => { addr := m.loc, done := t.base }
    else
      let last := t.members.getLast?.getD m
      let q := (memberAt t.members x.checkpointPos).getD (last, last.bytes)
      if !q.1.ida then { addr := q.1.loc, done := q.2 }
      else match (s.modStream c (fun t => { t with piece := none })).pieceOf c q.1 q.2 with
        | (.ok p, _) => { addr := q.1.loc, done := q.2, idx := p.idx, off := q.2 - p.start }
        | (.error _, _) => { addr := q.1.loc, done := q.2 }

/-- A CCW as its 16 bytes (R82). -/
def Ccw.image (y : Ccw) : List Byte :=
  leBytes 1 (y.code % 16 + y.tgt % 16 * 16) ++ leBytes 1 y.flags ++ leBytes 2 y.count ++ leBytes 4 y.param ++ leBytes 8 y.addr

/-- PROGRESS_FLAGS. -/
def Ctx.progressFlags (x : Ctx) : Nat :=
  bnat x.il + 2 * bnat x.long + 4 * bnat x.cond + 8 * bnat x.late + 16 * bnat x.interimPosted + 32 * bnat x.outputHanded

/-- STATE_WORD (R211). -/
def State.stateWord (s : State) (c : Nat) : Nat :=
  let x := s.ctx c
  x.state.code + 8 * (s.home c).bit + 16 * bnat (s.isResident c) + 32 * bnat x.resumePending
    + 64 * bnat (x.state = .suspended && x.byCommand) + 128 * bnat x.visit.isSome

/-- VISIT. -/
def visitWord : Option Visit → Nat
  | none => 0
  | some v => v.frame % 2 ^ 38 + bnat v.callerSuper * 2 ^ 38 + v.callerWorld.bit * 2 ^ 39

/-- The first n of some numbers, 2 bytes each, 0 where there is none. -/
def halves (l : List Nat) (n : Nat) : List Byte := (List.range n).flatMap (fun i => leBytes 2 (l.getD i 0))

/-- The record of a context, 256 bytes (R210). -/
def State.recordBytes (s : State) (c : Nat) : List Byte :=
  let x := s.ctx c
  let p := s.progress c
  let res := s.isResident c
  let image := match x.ccw with
    | some y => y.image
    | none => List.replicate 16 0
  leBytes 1 (s.stateWord c) ++ leBytes 1 (if x.state = .suspended then x.suspendCause else 0) ++ leBytes 1 x.lane
    ++ leBytes 1 x.level ++ leBytes 1 (x.home % 64) ++ leBytes 1 x.migCount ++ leBytes 2 (if res then 0 else x.sq % 8192)
    ++ leBytes 2 (if res then 0 else x.cq % 8192) ++ leBytes 2 x.tag ++ leBytes 4 0
    ++ leBytes 8 x.header ++ leBytes 8 x.ccwAddr ++ image ++ leBytes 8 x.bindTime ++ leBytes 8 x.deadline ++ leBytes 8 x.pdeadline
    ++ leBytes 1 (x.tgtCount + 32 * bnat x.softDl) ++ leBytes 7 0
    ++ (List.range 16).flatMap (fun i => leBytes 4 (Tbl.get 0 x.targets i))
    ++ leBytes 8 p.addr ++ leBytes 2 p.done ++ leBytes 2 x.progressFlags ++ leBytes 2 p.idx ++ leBytes 2 p.off
    ++ leBytes 2 (x.rxCommit.getD 0xFFFF) ++ leBytes 2 0 ++ leBytes 1 x.locks.length ++ leBytes 1 x.leases.length ++ leBytes 2 0
    ++ halves (x.locks.map (fun l => l.num)) 8 ++ halves x.leases 4
    ++ leBytes 4 (if res then x.lastStatus % 256 + x.lastUnit % 65536 * 65536 else 0) ++ leBytes 1 x.restarts ++ leBytes 3 0
    ++ leBytes 8 (visitWord x.visit) ++ (List.range 16).flatMap (fun i => leBytes 2 (s.eventLatch c i))
    ++ leBytes 4 (x.commitSeq % 2 ^ 32) ++ leBytes 4 (x.ccwSeq % 2 ^ 32) ++ leBytes 8 0

end Sys2Proof.Machine
end

