-- ==== Sys2Proof/Machine/Cellar.lean ====
section
/-! DEFINITION. The Cellar: slots, their judgement and restore, start and audit records, and the power-fail save (R36, R71, R454,
R481 to R491, R503, R504). -/
namespace Sys2Proof.Machine

/-! ### Slots (R487) -/

/-- Bytes of one slot. -/
def slotSize : Nat := 0x80000

/-- The commit pattern (R485). -/
def commitPattern : Nat := 0xA5C35A3CC3A53C5A

/-- n bytes of slot A (0) or B (1). -/
def State.slotBytes (s : State) (i off n : Nat) : List Byte := Memory.bytes 0 s.cellar.mem (slotSize * i + off) n

/-- The 8-byte words in error of the first n bytes of a slot, and of its commit word: those that the check corrects, or those that it
does not (R487). -/
def slotErrs (i n : Nat) (l : List Nat) : List Nat :=
  l.filter (fun w => w / 65536 = i && (w % 65536 < (n + 7) / 8 || w % 65536 = 0xFFFF))

/-- A field of a slot. -/
def State.slotField (s : State) (i off n : Nat) : Nat := leNat (s.slotBytes i off n)

/-- The commit word, MAGIC, FORMAT and USED_LENGTH of a slot are in order. -/
def State.slotFormed (s : State) (i : Nat) : Bool :=
  let used := s.slotField i 0x18 4
  s.slotField i 0x7FFF8 8 = commitPattern && s.slotField i 0 4 = 0x4C4C4543 && s.slotField i 4 2 = 1 && 512 ≤ used
    && used ≤ 0x7FFC0 && used % 64 = 0

/-- The CRC of a slot's bytes, with the CRC field taken as 0. -/
def slotCrc (b : List Byte) : Nat := crc32c (b.take 0x1C ++ leBytes 4 0 ++ b.drop 0x20)

/-- Whether a slot is valid: an uncorrectable word fails its CRC check (R487, R489). -/
def State.slotValid (s : State) (i : Nat) : Bool :=
  s.slotFormed i && slotErrs i (s.slotField i 0x18 4) s.cellar.bad = [] && slotCrc (s.slotBytes i 0 (s.slotField i 0x18 4)) = s.slotField i 0x1C 4

/-- KIND is SAVE. -/
def State.slotIsSave (s : State) (i : Nat) : Bool := s.slotField i 6 1 = 2

/-- SLOT_A and SLOT_B of CL_STATUS (R493). -/
def State.slotCode (s : State) (i : Nat) : Nat :=
  if !s.slotFormed i then 0 else if !s.slotValid i then 1 else if s.slotIsSave i then 3 else 2

/-- SEQ of a slot. -/
def State.slotSeq (s : State) (i : Nat) : Nat := s.slotField i 8 8

/-- Whether the covered bytes of both slots are equal. -/
def State.slotsEqual (s : State) : Bool :=
  let u := s.slotField 0 0x18 4
  u = s.slotField 1 0x18 4 && s.slotBytes 0 0 u = s.slotBytes 1 0 u

/-- The newest valid slot, and whether two valid slots conflict (R489). -/
def State.newestSlot (s : State) : Option Nat × Bool :=
  match s.slotValid 0, s.slotValid 1 with
  | false, false => (none, false)
  | true, false => (some 0, false)
  | false, true => (some 1, false)
  | true, true =>
    if s.slotSeq 0 ≠ s.slotSeq 1 then (some (if s.slotSeq 1 < s.slotSeq 0 then 0 else 1), false)
    else if s.slotsEqual then (some 0, false) else (none, true)

/-- The greatest of a field over the valid slots, 0 when none is valid. -/
def State.slotMax (s : State) (off : Nat) : Nat :=
  Nat.max (if s.slotValid 0 then s.slotField 0 off 8 else 0) (if s.slotValid 1 then s.slotField 1 off 8 else 0)

/-- The slot that is written next (R486). -/
def State.targetSlot (s : State) : Nat :=
  match s.newestSlot.1 with
  | some 0 => 1
  | _ => 0

/-- The bytes of a section of a slot and its entry count; none where the directory does not name it. -/
def State.slotSection (s : State) (i type : Nat) : Option (List Byte × Nat) :=
  ((List.range (s.slotField i 0x68 2)).find? (fun k => s.slotField i (0x70 + 16 * k) 2 = type)).map (fun k =>
    (s.slotBytes i (s.slotField i (0x74 + 16 * k) 4) (s.slotField i (0x78 + 16 * k) 4), s.slotField i (0x7C + 16 * k) 4))

/-- n entries of a section. -/
def sectionEntries (p : Option (List Byte × Nat)) (size : Nat) : List (List Byte) :=
  match p with
  | some (b, n) => (List.range n).map (fun i => slice b (size * i) size)
  | none => []

/-! ### Restore (R454, R490) -/

/-- A world named by one bit of a number. -/
def worldBit (v i : Nat) : World := World.ofBit (bitAt v i)

/-- The save areas go back to their addresses. -/
def State.restoreAreas (s : State) (i : Nat) : State :=
  let put := fun (t : State) (type : Nat) (w : World) => match t.slotSection i type with
    | some (b, _) => t.pnWrite (t.fc.saveAddr.get w) b
    | none => t
  put (put s 1 .granite) 2 .slate

/-- A queue is present in state LOST with its pointers (R490). -/
def State.restoreQueue (s : State) (e : List Byte) : State :=
  let v := fieldAt e 0 2
  let w := worldBit v 14
  let fl := fieldAt e 6 1
  let h : Ptr := { idx := fieldAt e 2 2, wrap := bitAt fl 0 }
  let t : Ptr := { idx := fieldAt e 4 2, wrap := bitAt fl 1 }
  if bitAt v 13 then s.modCq w (v % 8192) (fun _ => { state := .lost, head := h, tail := t })
  else s.modSq w (v % 8192) (fun _ => { state := .lost, head := h, tail := t })

/-- The Hearth of a restored context by the order of R216, whether or not its cluster is on yet (log 25). -/
def State.placeCold (s : State) (lane : Nat) : Option Nat :=
  (clustersFrom (s.homeCluster lane)).findSome? (fun k => s.fewestIn k s.placeLimit)

/-- A context is bound with its saved fields: SUSPENDED with HOST_LOST (R490). -/
def State.restoreCtx (s : State) (e : List Byte) : State :=
  let c := fieldAt e 0 2 % 16384
  let fl := fieldAt e 9 2
  let lane := fieldAt e 8 1
  let member := fieldAt e 21 5
  let done := fieldAt e 26 2
  match s.placeCold lane with
  | none => s
  | some h =>
    let r := s.takeFree
    (r.2.modCtx c (fun _ => {
      state := .suspended, suspendCause := 0x0B, home := h, lane := lane, level := bits (fieldAt e 2 2) 13 2
      sq := fieldAt e 2 2 % 8192, cq := fieldAt e 4 2 % 8192, softDl := bitAt (fieldAt e 4 2) 13, tag := fieldAt e 6 2
      header := fieldAt e 11 5, ccwAddr := fieldAt e 16 5, deadline := 0, pdeadline := 0
      il := bitAt fl 0, long := bitAt fl 1, cond := bitAt fl 2, late := bitAt fl 3, interimPosted := bitAt fl 4
      outputHanded := bitAt fl 5, refetch := true, orphaned := true
      postedAddr := if member = 0 then fieldAt e 16 5 else member, postedResid := r.1.toNat % 65536
      stream := if member = 0 then {} else
        { members := [{ loc := member }], base := done
          piece := some { idx := fieldAt e 28 2, start := done - fieldAt e 30 2, addr := 0, len := 0 } } })).boilerAsk
        (.cluster (h / 4)) s.backgroundLst

/-- A completion entry of the overflow store from its bytes (R264). -/
def complOf (b : List Byte) : Compl :=
  let k := fieldAt b 26 1
  { body := slice b 0 16, sq := fieldAt b 16 2 % 8192, tag := fieldAt b 18 2, ctx := fieldAt b 24 2 % 16384
    kind := if k = 1 then .admin else if k = 2 then .event else if k = 3 then .orphan else .program
    batch := bitAt (fieldAt b 27 1) 0, overflowed := bitAt (fieldAt b 27 1) 1, kindData := fieldAt b 28 4 }

/-- An entry of the overflow store returns to it, and counts in the most that the store has held (R276, R490). -/
def State.restoreOvf (s : State) (e : List Byte) : State :=
  let v := fieldAt e 0 2
  let w := worldBit v 13
  let s1 : State := { s with ovf := s.ovf ++ [{ world := w, cq := v % 8192, compl := complOf (slice e 8 32), reserved := s.ovfReserved w < 256 }] }
  s1.modFn w (fun f => { f with ovfHwm := Nat.max f.ovfHwm (s1.ovfCount w) })

/-- n counters of 8 bytes from an offset, each at its key. -/
def countersAt (b : List Byte) (off n : Nat) (key : Nat → Nat) : Tbl Nat :=
  (List.range n).foldl (fun t i => Tbl.put 0 t (key i) (fieldAt b (off + 8 * i) 8)) []

/-- The key of a lane counter in the bank, by its place in a STATS section. -/
def laneKey (i : Nat) : Nat := 16 * (i / 10) + i % 10

/-- Statistics in progress become the starting values of the first epoch (R454, R488). -/
def State.restoreStats (s : State) (b : List Byte) : State :=
  let size := 8 + 8 * 13 + 8 * 1280
  let one := fun (t : State) (w : World) =>
    let o := size * w.bit
    let ports := (countersAt b (2 * size) 2048 (fun i => i)).filter (fun p => t.portWorld (p.1 / 8) = some w)
    { t with stats := t.stats.upd w (fun e => { e with
        seq := fieldAt b o 4
        bank := { world := countersAt b (o + 8) 13 (fun i => i), lane := countersAt b (o + 112) 1280 laneKey, port := ports } }) }
  let s1 := one (one s .slate) .granite
  { s1 with cellar := { s1.cellar with statsRestored := true } }

/-- A slot is restored. -/
def State.restoreSlot (s : State) (i : Nat) : State :=
  let s1 := s.restoreAreas i
  let s2 := (sectionEntries (s1.slotSection i 3) 8).foldl State.restoreQueue s1
  let s3 := (sectionEntries (s2.slotSection i 4) 32).foldl State.restoreCtx s2
  let s4 := (sectionEntries (s3.slotSection i 5) 40).foldl State.restoreOvf s3
  let s5 := match s4.slotSection i 6 with
    | some (b, _) => s4.restoreStats b
    | none => s4
  let om := s.slotField i 0x64 2
  let lo := s.slotField i 0x66 2
  { s5 with
    attic := { s5.attic with cellarRestored := true }
    cellar := { s5.cellar with
      restored := true, partSlot := om ≠ 0 || lo ≠ 0, saveUs := s.slotField i 0x60 4 % 65536, omitted := om, lostStatus := lo } }

/-- The corrected words of both slots, as step 7 reads them (R487). -/
def State.slotReads (s : State) : State :=
  let corr := slotErrs 0 (s.slotField 0 0x18 4) s.cellar.corr ++ slotErrs 1 (s.slotField 1 0x18 4) s.cellar.corr
  corr.foldl (fun t w => t.report (faultMsg 104 (w / 65536) 0x01 (w % 65536) none false)) s

/-- CELLAR_RESTORE: each slot is judged, the audit counter is taken, and the newest is restored where it may be (R71, R489, R490,
R503). -/
def execCellarRestore (s : State) : Result :=
  if s.attic.state ≠ 5 || s.attic.judged then .next s
  else
    let n := s.newestSlot
    let a := s.slotCode 0
    let b := s.slotCode 1
    let image := s.attic.config = .image
    let digest := fun i => s.slotField i 0x20 32
    let save := n.1.any (fun i => s.slotIsSave i)
    let mine := n.1.any (fun i => digest i = s.attic.digest)
    let step := image && (match n.1 with
      | some i => decide (s.slotField i 0x40 32 ≠ s.attic.gdigest)
      | none => true)
    let s1 := { s with
      attic := { s.attic with judged := true }
      cellar := { s.cellar with
        slotA := a, slotB := b, newestB := n.1 = some 1, hasNewest := n.1.isSome, conflict := n.2, noValid := a < 2 && b < 2
        foreign := save && !mine, seq := (n.1.map s.slotSeq).getD 0, highSeq := s.slotMax 8 }
      flint := { s.flint with audit := s.slotMax 0x10 + bnat step } }
    let s1 := s1.slotReads
    let s2 := if n.2 then s1.report (faultMsg 104 0 0x15 (a + 4) none true)
      else if a < 2 && b < 2 then s1.report (faultMsg 104 0 0x15 a none false) else s1
    match n.1 with
    | some i => .next (if image && save && mine then s2.restoreSlot i else s2)
    | none => .next s2

/-! ### Writing a slot (R484, R485, R488, R491) -/

/-- A section to be written: its type, its entry count and its bytes. -/
structure SlotPart where
  type : Nat
  count : Nat
  data : List Byte
  deriving DecidableEq, Repr

/-- The bytes of a section with its padding. -/
def SlotPart.padded (p : SlotPart) : List Byte := p.data ++ List.replicate (roundUp p.data.length 64 - p.data.length) 0

/-- The directory of some sections, the first at an offset. -/
def slotDir : List SlotPart → Nat → List Byte
  | [], _ => []
  | p :: l, off => leBytes 2 p.type ++ leBytes 2 0 ++ leBytes 4 off ++ leBytes 4 p.data.length ++ leBytes 4 p.count
    ++ slotDir l (off + p.padded.length)

/-- What a slot header says beside what the state holds. -/
structure SlotHead where
  kind : Nat
  cause : Nat := 0
  saveUs : Nat := 0
  omitted : Nat := 0
  lost : Nat := 0
  deriving DecidableEq, Repr

/-- A slot without its CRC: header, directory and sections (R487). -/
def State.slotDraft (s : State) (h : SlotHead) (seq : Nat) (parts : List SlotPart) : List Byte :=
  let dir := slotDir parts 0x200
  let body := parts.flatMap SlotPart.padded
  leBytes 4 0x4C4C4543 ++ leBytes 2 1 ++ leBytes 1 h.kind ++ leBytes 1 h.cause ++ leBytes 8 seq ++ leBytes 8 s.flint.audit
    ++ leBytes 4 (0x200 + body.length) ++ leBytes 4 0 ++ leBytes 32 s.attic.digest ++ leBytes 32 s.attic.gdigest
    ++ leBytes 4 h.saveUs ++ leBytes 2 h.omitted ++ leBytes 2 h.lost ++ leBytes 2 parts.length ++ leBytes 6 0
    ++ dir ++ List.replicate (256 - dir.length) 0 ++ List.replicate 144 0 ++ body

/-- A slot is written whole: header and directory, sections, CRC and the commit pattern (R485). -/
def State.slotWrite (s : State) (i : Nat) (h : SlotHead) (parts : List SlotPart) : State :=
  let seq := s.cellar.highSeq + 1
  let d := s.slotDraft h seq parts
  let m1 := Memory.write 0 s.cellar.mem (slotSize * i) d
  let mine := fun (w : Nat) => w / 65536 = i && (w % 65536 < (d.length + 7) / 8 || w % 65536 = 0xFFFF)
  let m2 := Memory.write 0 m1 (slotSize * i + 0x1C) (leBytes 4 (slotCrc d))
  { s with cellar := { s.cellar with
      mem := Memory.write 0 m2 (slotSize * i + 0x7FFF8) (leBytes 8 commitPattern), highSeq := seq
      corr := s.cellar.corr.filter (fun w => !mine w), bad := s.cellar.bad.filter (fun w => !mine w) } }

/-- The commit word of a slot is written to 0. -/
def State.slotOpen (s : State) (i : Nat) : State :=
  { s with cellar := { s.cellar with mem := Memory.write 0 s.cellar.mem (slotSize * i + 0x7FFF8) (leBytes 8 0) } }

/-- START_RECORD_WRITE: the start record, after step 8 under a Filino image (R491). -/
def execStartRecordWrite (s : State) : Result :=
  if s.cellar.job = .startRecord && s.pw.phase = .none then
    let s1 := s.slotWrite s.targetSlot { kind := 1 } []
    .next { s1 with cellar := { s1.cellar with job := .idle, startWritten := true, seq := s1.cellar.highSeq } }
  else .next s

/-- LC_ADVANCE blows its fuse bit (R505). -/
def State.lcBlow (s : State) : State :=
  { s with
    fuses := { s.fuses with lifecycle := Nat.max s.fuses.lifecycle (Nat.min 3 (s.flint.lifecycle + 1)) }
    flint := { s.flint with lcPending := 0 } }

/-- The records of the n oldest advances due are written: the LC_ADVANCE whose own record is among them blows its fuse (R504). -/
def State.auditWritten (s : State) (n : Nat) : State :=
  let s1 : State := { s with flint := { s.flint with auditDue := s.flint.auditDue - n, lcPending := s.flint.lcPending - n } }
  if 0 < s.flint.lcPending && s.flint.lcPending ≤ n then s1.lcBlow else s1

/-- AUDIT_RECORD_WRITE: one advance of the audit counter is recorded, the oldest first; an LC_ADVANCE that waited for its own record then
blows its fuse (R504). -/
def execAuditRecordWrite (s : State) : Result :=
  if 0 < s.flint.auditDue && s.pw.phase = .none && s.cellar.job = .idle then
    let s1 := s.slotWrite s.targetSlot { kind := 1 } []
    .next ({ s1 with cellar := { s1.cellar with seq := s1.cellar.highSeq } }.auditWritten 1)
  else .next s

/-- The audit counter advances at an event after it took its value at step 7, while a Filino image is in force; the record of the
advance is due (R503, R504). -/
def State.auditAdvance (s : State) : State :=
  if s.attic.config = .image && s.attic.judged then { s with flint := { s.flint with audit := s.flint.audit + 1, auditDue := s.flint.auditDue + 1 } } else s

/-! ### The power-fail save (R36, R394, R430, R481 to R486) -/

/-- One queue as an entry of QUEUES. -/
def queueEntry (w : World) (q : Nat) (isCq : Bool) (h t : Ptr) (code : Nat) : List Byte :=
  leBytes 2 (q % 8192 + 8192 * bnat isCq + 16384 * w.bit) ++ leBytes 2 h.idx ++ leBytes 2 t.idx
    ++ leBytes 1 (bnat h.wrap + 2 * bnat t.wrap + 4 * code) ++ leBytes 1 0

/-- The QUEUES section: of Slate and then of Granite, submission queues and then completion queues. -/
def State.saveQueues (s : State) : SlotPart :=
  let of1 := fun (w : World) =>
    let m := s.qm.get w
    (m.sqs.filter (fun p => p.2.state ≠ .none)).map (fun p => queueEntry w p.1 false p.2.head p.2.tail p.2.state.code)
      ++ (m.cqs.filter (fun p => p.2.state ≠ .none)).map (fun p => queueEntry w p.1 true p.2.head p.2.tail p.2.state.code)
  let l := of1 .slate ++ of1 .granite
  { type := 3, count := l.length, data := l.flatten }

/-- The program statuses that wait for an entry of the store and find room in OVERFLOW, and those that do not (R484). -/
def State.saveWaiting (s : State) : List WaitStatus × List WaitStatus :=
  (s.ovfWait.take (1024 - s.ovf.length), s.ovfWait.drop (1024 - s.ovf.length))

/-- The contexts that CONTEXTS takes: queue-bound, not FREE, Granite first. One whose final status waits and goes to OVERFLOW counts as
FREE, a status of its program or an orphan of it; a group cover that names a context does not make it so (R484). -/
def State.saveList (s : State) : List Nat :=
  let placed := s.saveWaiting.1
  let mine := fun (w : World) => ((s.ctxs.filter (fun p =>
    p.2.state ≠ .free && s.ctxWorld p.1 = some w && !s.isResident p.1 && !s.isProbe p.1
      && !(p.2.ending && placed.any (fun x =>
        x.world = w && (x.compl.kind = .program || x.compl.kind = .orphan) && x.compl.ctx = p.1)))).map (fun p => p.1))
  mine .granite ++ mine .slate

/-- One context as an entry of CONTEXTS (R488). -/
def State.ctxEntry (s : State) (c : Nat) : List Byte :=
  let x := s.ctx c
  let p := s.progress c
  leBytes 2 (c % 16384 + 16384 * (s.home c).bit) ++ leBytes 2 (x.sq % 8192 + 8192 * x.level)
    ++ leBytes 2 (x.cq % 8192 + 8192 * bnat x.softDl) ++ leBytes 2 x.tag ++ leBytes 1 x.lane ++ leBytes 2 x.progressFlags
    ++ leBytes 5 (x.header % 2 ^ 38) ++ leBytes 5 (x.ccwAddr % 2 ^ 38) ++ leBytes 5 (p.addr % 2 ^ 38) ++ leBytes 2 p.done
    ++ leBytes 2 p.idx ++ leBytes 2 p.off

/-- One status as an entry of OVERFLOW. -/
def State.ovfEntry (s : State) (w : World) (q : Nat) (e : Compl) : List Byte :=
  leBytes 2 (q % 8192 + 8192 * w.bit) ++ leBytes 6 0 ++ e.bytes (s.sq w e.sq).head.word false

/-- n counters of a table. -/
def counterBytes (t : Tbl Nat) (n : Nat) (key : Nat → Nat) : List Byte :=
  (List.range n).flatMap (fun i => leBytes 8 (Tbl.get 0 t (key i)))

/-- The STATS section (R488). -/
def State.saveStats (s : State) : SlotPart :=
  let t := (s.closeTimes .slate s.now).closeTimes .granite s.now
  let bank := fun (w : World) => (t.stats.get w).bank.plus (t.stats.get w).bankNext
  let of1 := fun (w : World) => leBytes 4 (t.stats.get w).seq ++ leBytes 4 0 ++ counterBytes (bank w).world 13 (fun i => i)
    ++ counterBytes (bank w).lane 1280 laneKey
  let ports := (List.range 2048).flatMap (fun i => leBytes 8 (match s.portWorld (i / 8) with
    | some w => Tbl.get 0 (bank w).port i
    | none => 0))
  { type := 6, count := 1, data := of1 .slate ++ of1 .granite ++ ports }

/-- The bytes of a save area as the save reads them: checked, and open in a burst that is uncorrectable (R345, R484, log 7). -/
def State.saveArea (s : State) (w : World) : List Byte :=
  (List.range (s.fc.saveLen.get w)).map (fun i =>
    let a := s.fc.saveAddr.get w + i
    if s.pnBad (a / 32) then (Config.freeValue (s.free + 32768 * w.bit + i)).setWidth 8 else Memory.byte 0 s.pantry.mem a)

/-- The counts, corrections and records of the reads of both save areas (R345). -/
def State.saveReads (s : State) : State :=
  let r := s.pnCheck (s.fc.saveAddr.get .granite) (s.fc.saveLen.get .granite)
  let q := r.2.pnCheck (s.fc.saveAddr.get .slate) (s.fc.saveLen.get .slate)
  if r.1 && q.1 then q.2 else { q.2 with free := q.2.free + 65536 }

/-- The critical set: its sections, OMITTED and LOST_STATUS (R484). -/
def State.criticalSet (s : State) : List SlotPart × Nat × Nat :=
  let area := fun (type : Nat) (w : World) =>
    ({ type := type, count := 1, data := s.saveArea w } : SlotPart)
  let l := s.saveList
  let cs := l.take 7168
  let ov := s.ovf.map (fun e => s.ovfEntry e.world e.cq e.compl) ++ s.saveWaiting.1.map (fun e => s.ovfEntry e.world e.cq e.compl)
  let parts := [area 1 .granite, area 2 .slate, s.saveQueues,
    { type := 4, count := cs.length, data := cs.flatMap s.ctxEntry }, { type := 5, count := ov.length, data := ov.flatten }, s.saveStats]
  (parts.filter (fun p => p.data ≠ []), l.length - cs.length, s.saveWaiting.2.length)

/-- Step 3 of the save: drive outputs low, plant leases released, the scrubber stopped, FRUGAL commanded, nothing further granted
(R347, R394, R430). -/
def State.saveStop (s : State) : State :=
  let s1 := ((List.range 64).filter (fun n => (s.drive n).cfg.mode ≠ 0 || (s.drive n).cfg.gang = 2)).foldl (fun t n =>
    t.driveCauseSet n .power) s
  let plant := (s1.boiler.leases.filter (fun p => match p.2 with
    | some l => l.plant
    | none => false)).map (fun p => p.1)
  let s2 := plant.foldl (fun t l => t.leaseRelease l) s1
  let s3 := (s2.drives.map (fun p => p.1)).foldl (fun t n => t.modDrive n (fun d => { d with lease := none, inrushEnd := none })) s2
  ((s3.modPn (fun p => { p with scrubActive := false })).modBl (fun b => { b with stopped := true })).paceSend { sent := false, slate := 2, granite := 2, rail := 2 }

/-- Step 4 of the save: ports shed, and every domain off but Pantry's (R34, R285, R326). -/
def State.saveShed (s : State) : State :=
  let s1 := ((List.range 256).filter (fun n => (s.port n).enabled)).foldl (fun t n =>
    (t.portDisable n).modPort n (fun p => { p with pins := [], rts := false })) s
  let off := s1.boiler.domains.filter (fun d => d < 56 || 60 ≤ d)
  let s2 := off.foldl (fun t d => t.landsFreeze d) s1
  { s2 with
    linkUp := false
    boiler := { s2.boiler with
      domains := s2.boiler.domains.filter (fun d => 56 ≤ d && d < 60), switching := [], ungate := [] } }

/-- SAVE_START: steps 2 to 5 of the save, after step 8 of start-up: HOLDUP on VSAVE (R513), POWER_FAIL, the worlds in SAVING, outputs low,
ports shed, the target slot's commit word 0. Without READY or a Filino image nothing is written, and the save ends at step 4 (R481 to R486). -/
def execSaveStart (pfail vin12 : Bool) (s : State) : Result :=
  if !s.done || s.pw.phase ≠ .none || s.pw.lost || !(pfail || vin12) then .next s
  else
    let quiet := !s.pw.ready || s.attic.config ≠ .image
    let s0 := s.report (faultMsg 105 0 0x14 (bnat pfail + 2 * bnat vin12) none false)
    let s1 := { s0 with
      pw := { s0.pw with
        phase := .running, noWrite := quiet, vsaveHold := true, saveStart := s.now, pfailLow := pfail, vin12Low := vin12 }
      fns := (s0.fns.upd .slate (fun f => { f with host := .saving })).upd .granite (fun f => { f with host := .saving }) }
    let s2 := s1.saveStop.saveShed
    if quiet then .next { s2 with pw := { s2.pw with phase := .ended }, cellar := { s2.cellar with job := .idle } }
    else .next ({ s2 with cellar := { s2.cellar with job := .save } }.slotOpen s.targetSlot)

/-- SAVE_COMMIT: the critical set, its CRC and the commit word have been written: the save has ended, and its header carries every advance
of the audit counter (R484, R485, R504). -/
def execSaveCommit (s : State) : Result :=
  if s.pw.phase = .running && s.cellar.job = .save then
    let k := s.criticalSet
    let head : SlotHead := { kind := 2, cause := bnat s.pw.pfailLow + 2 * bnat s.pw.vin12Low
                             saveUs := (s.now - s.pw.saveStart) / 1000, omitted := k.2.1, lost := k.2.2 }
    let s1 := s.saveReads.slotWrite s.targetSlot head k.1
    .next ({ s1 with pw := { s1.pw with phase := .ended }, cellar := { s1.cellar with job := .idle } }.auditWritten s1.flint.auditDue)
  else .next s

/-- HOLDUP_COLLAPSE: the hold-up supply falls below 6.0 V while the worlds are in SAVING: the device loses power. A slot not yet
committed keeps a commit word of 0 (R36, R486). -/
def execHoldupCollapse (s : State) : Result :=
  if s.pw.phase = .none then .next s
  else .next { s with
    pw := { s.pw with lost := true, ready := false, holdupMv := 0 }
    cellar := { s.cellar with job := .idle }
    linkUp := false
    fns := (s.fns.upd .slate (fun f => { f with host := .off })).upd .granite (fun f => { f with host := .off }) }

end Sys2Proof.Machine
end

