-- ==== Sys2Proof/Machine/Attic.lean ====
section
/-! DEFINITION. Resets, and start-up from the reset to step 8: the Attic's probe, the choice of copies, the configuration applied,
and the worlds in AUTONOMOUS (R36, R41, R47, R57 to R72, R496). -/
namespace Sys2Proof.Machine

/-! ### Resets (R36, R41) -/

/-- A reset of the whole device: every register at its reset value; the Cellar, the fuses and the flash keep their contents. What
stands outside the device, and what it has put out, stay (log 2, log 4). -/
def State.deviceReset (s : State) (cause : Nat) : State :=
  { State.reset with
    cellar := { mem := s.cellar.mem, corr := s.cellar.corr, bad := s.cellar.bad }, fuses := s.fuses, flash := { mem := s.flash.mem }, hostMem := s.hostMem, out := s.out
    free := s.free, pending := s.pending, flint := { lifecycle := s.fuses.lifecycle }
    pw := { perstLow := s.pw.perstLow, pfailLow := s.pw.pfailLow, vin12Low := s.pw.vin12Low, cause := cause } }

/-- POWER_ON_RESET: the always-on and core supplies enter (and 2 ms later the reset is released) or leave their limits. -/
def execPowerOnReset (railsOk : Bool) (s : State) : Result :=
  let t := s.deviceReset 0
  .next { t with pw := { t.pw with railsOk := railsOk, pfailLow := false, vin12Low := false } }

/-- RESET_N: low for a time, with or without the 25 MHz reference. -/
def execResetN (lowNs : Nat) (refPresent : Bool) (s : State) : Result :=
  .next (if s.powered && (5000 ≤ lowNs || (1000 ≤ lowNs && !refPresent)) then s.deviceReset 1 else s)

/-- RESTART: power good for 100 ms after a save has ended, or after a start halted by a supply drop. -/
def execRestart (s : State) : Result :=
  if s.powered && (s.pw.phase = .ended || s.attic.state = 7) then
    let t := s.deviceReset 2
    .next { t with pw := { t.pw with pfailLow := false, vin12Low := false } }
  else .next s

/-- STUDY_WATCHDOG_EXPIRY: the Study's firmware, running since SELECT, has failed to restart its watchdog. -/
def execStudyWatchdogExpiry (s : State) : Result :=
  .next (if s.powered && 3 ≤ s.attic.state && s.attic.state ≤ 6 then s.deviceReset 3 else s)

/-- ATTIC_HALT: PFAIL_N falls or VIN12 drops below 10.2 V before step 8: the Attic stops and writes nothing (R72). -/
def execAtticHalt (pfail vin12 : Bool) (s : State) : Result :=
  .next (if s.powered && s.attic.state < 6 && (pfail || vin12) then
    { s with attic := { s.attic with state := 7 }, pw := { s.pw with pfailLow := pfail, vin12Low := vin12 } } else s)

/-! ### Probe and selection (R47, R57 to R59, R65) -/

/-- ATTIC_PROBE: the reset is released and the flash is probed: octal mode, the fallback, or no answer, which leaves the bare safe
state with a severe fault. -/
def execAtticProbe (r : FlashProbe) (s : State) : Result :=
  if s.attic.state ≠ 0 || !s.powered then .next s
  else
    let a := { s.attic with resetCause := s.pw.cause }
    match r with
    | .octal => .next { s with attic := { a with state := 2, octal := true } }
    | .fallback => .next ({ s with attic := { a with state := 2, fallback := true } }.report (faultMsg 101 0 0x0C 1 none false))
    | .noAnswer =>
      .next ({ s with attic := { a with state := 4, fwRecovery := true, config := .bare } }.report
        (faultMsg 101 0 0x0A (7 + 16 * 2) none true))

/-- FIRMWARE_SELECT: a Study firmware copy, or ROM recovery; PCIe link training is enabled. -/
def execFirmwareSelect (s : State) : Result :=
  if s.attic.state ≠ 2 then .next s
  else
    let c := s.chooseCopy 3
    let s1 := (s.choiceFaults 3 c).modBl (fun b => { b with domains := b.domains ++ [60] })
    match c.sel with
    | some i =>
      let base := copyBase 3 i
      let h := s.header base
      .next { s1 with
        attic := { s1.attic with state := 3, fwBase := some base, fwGen := h.gen }
        flint := { s1.flint with fwSlot := (s.fuses.keySlot 0 (keyHash h.signKey)).getD 0 } }
    | none => .next { s1 with attic := { s1.attic with state := 3, fwRecovery := true } }

/-- A board record copy is chosen, with the slots its keys match, or none: the built-in safe configuration, or the bare safe state (R63,
R64, R495). -/
def State.chooseBoard (s : State) : State :=
  let c := s.chooseCopy 2
  let s1 := s.choiceFaults 2 c
  let slots : FlintUnit := match c.sel with
    | some i =>
      let h := s.header (copyBase 2 i)
      { s1.flint with
        imgSlot := (s.fuses.keySlot 1 (keyHash h.signKey)).getD 0
        grnSlot := if h.granite then (s.fuses.keySlot 2 (keyHash h.granKey)).getD 0 else 0 }
    | none => s1.flint
  { s1 with
    flint := slots
    attic := { s1.attic with
      sel := 0, boardOk := c.sel.isSome, boardBase := c.sel.map (copyBase 2), config := if c.sel.isSome then .builtin else .bare } }

/-- IMAGE_SELECT: a Filino image copy, or a board record, or the bare safe state. A part in RETIRED checks no copy; ROM recovery
does not read the Filino image (R59, R505). -/
def execImageSelect (s : State) : Result :=
  if s.attic.state ≠ 3 then .next s
  else if s.flint.lifecycle = 3 then .next { s with attic := { s.attic with state := 4, config := .bare } }
  else if s.attic.fwRecovery then
    let s1 := s.chooseBoard
    .next { s1 with attic := { s1.attic with state := 4 } }
  else
    let c := s.chooseCopy 1
    let s0 := s.choiceFaults 1 c
    let s1 := { s0 with attic := { s0.attic with
      state := 4, aResult := c.resA, bResult := c.resB, genA := s.copyGen 1 0, genB := s.copyGen 1 1 } }
    match c.sel with
    | some i =>
      let base := copyBase 1 i
      let h := s.header base
      .next { s1 with
        attic := { s1.attic with sel := i + 1, imageBase := some base, config := .image }
        flint := { s1.flint with
          imgSlot := (s.fuses.keySlot 1 (keyHash h.signKey)).getD 0
          grnSlot := if h.granite then (s.fuses.keySlot 2 (keyHash h.granKey)).getD 0 else 0 } }
    | none => .next s1.chooseBoard

/-! ### Training (R342, R343, R356) -/

/-- Whether a channel passes training, by its report; a channel without one fails. -/
def TrainReport.passes (r : TrainReport) : Bool :=
  24 ≤ r.rdMin && 24 ≤ r.wrMin && r.rpreOk && r.alertOk && r.verifyOk

/-- The PN_TRAIN word of a report. -/
def TrainReport.word (r : TrainReport) : Nat :=
  r.rdMin % 64 + r.wrMin % 64 * 2 ^ 8 + r.rdBall % 64 * 2 ^ 16 + r.wrBall % 64 * 2 ^ 24

/-- The ball that a failing report names. -/
def TrainReport.ball (r : TrainReport) : Nat := if r.rdMin < 24 then r.rdBall else if r.wrMin < 24 then r.wrBall else 0

/-- The channels that a mask names. -/
def maskChans (m : Nat) : List Nat := (List.range 4).filter (fun i => bitAt m i)

/-- The report of a channel. -/
def trainOf (train : List TrainReport) (i : Nat) : Option TrainReport := train.find? (fun r => r.chan = i)

/-- Step 3 of the training of a channel: each device receives its three configuration words, and one CONFIG with a deliberate parity
error (R339, R342; log 117). -/
def State.trainConfig (s : State) (p : List Byte) (ch : Nat) : State :=
  (List.range (fieldAt p 1 1)).foldl (fun t d =>
    let words := (List.range 3).map (fun i => pnCommand 4 i (fieldAt p (16 + 4 * i) 4))
    (words ++ [pnCommand 4 0 (fieldAt p 16 4) ^^^ 2 ^ 27]).foldl (fun u w => u.emit (.pnCommand ch d w)) t) s

/-- The parity test of step 3: PN_ALERT_N answers it once for each device, and each alert counts; where a report says that it does not, or
that it falls at another time too, how often it falls is a free value (R339, R342, log 117). -/
def State.trainAlerts (s : State) (p : List Byte) (ch : Nat) (ok : Bool) : State :=
  if ok then s.modPn (fun x => { x with caErr := Tbl.put 0 x.caErr ch (fieldAt p 1 1) })
  else
    let v := s.takeFree
    v.2.modPn (fun x => { x with caErr := Tbl.put 0 x.caErr ch (v.1.toNat % 2 ^ 32) })

/-- The Pantry addresses of bursts 0 to 63 of bank 0 of each device of a channel, under the mask and the devices of a PANTRY body
(R338). -/
def trainBursts (mask devices ch : Nat) : List Nat :=
  let k := if mask = 0xF then 2 else if mask = 3 then 1 else 0
  (List.range devices).flatMap (fun d => (List.range 64).map (fun i =>
    let y := i / 8 * 2 ^ 7 + i % 8 + d * 2 ^ 24
    y / 8 * 2 ^ (8 + k) + ch * 2 ^ 8 + y % 8 * 2 ^ 5))

/-- Steps 4 and 6: the patterns written to the bursts stay in Pantry; what they are is a free value (R342, log 117). -/
def State.trainPattern (s : State) (p : List Byte) (ch : Nat) : State :=
  let as := (trainBursts (fieldAt p 0 1) (fieldAt p 1 1) ch).flatMap (fun a => (List.range 32).map (fun i => a + i))
  let mem := (as.zipIdx).foldl (fun m x => Memory.setByte 0 m x.1 ((Config.freeValue (s.free + x.2)).setWidth 8)) s.pantry.mem
  { s.modPn (fun x => { x with mem := mem }) with free := s.free + as.length }

/-- Training of the channels of a PANTRY body: PN_RST_N is released, the configuration words go out, the parity test is answered, the
patterns are written, and then by the report TRAINED, with refresh and scrubbing started, or FAILED; PN_TRAIN, and the domains of the
channels that pass (R70, R342, R343). -/
def State.trainAll (s : State) (p : List Byte) (train : List TrainReport) : State :=
  (maskChans (fieldAt p 0 1)).foldl (fun t i =>
    let w := (trainOf train i).map TrainReport.word
    let t0 := t.modPn (fun p => { p with train := Tbl.put 0 p.train i (w.getD 0), rstOff := p.rstOff ++ [i] })
    let t1 := ((t0.trainConfig p i).trainAlerts p i ((trainOf train i).any (fun r => r.alertOk))).trainPattern p i
    if (trainOf train i).any TrainReport.passes then
      (t1.modPn (fun p => { p with trained := p.trained ++ [i], scrubActive := true })).modBl (fun b =>
        { b with domains := b.domains ++ [56 + i] })
    else
      (t1.modPn (fun p => { p with failed := p.failed ++ [i] })).report
        (faultMsg (88 + i) 0 0x0D (((trainOf train i).map TrainReport.ball).getD 0) none true)) s

/-- Whether every channel of a mask passes. -/
def trainOk (mask : Nat) (train : List TrainReport) : Bool :=
  (maskChans mask).all (fun i => (trainOf train i).any TrainReport.passes)

/-! ### The configuration is applied (R63, R65, R69, R70, R250, R446, R472, R501) -/

/-- Change a state by a section body, if the copy has one. -/
def State.withSect (s : State) (base type : Nat) (w : Option World) (f : State → List Byte → State) : State :=
  match s.section1 base type w with
  | some b => f s b
  | none => s

/-- Change a state by the section of each world. -/
def State.withBoth (s : State) (base type : Nat) (f : State → World → List Byte → State) : State :=
  (s.withSect base type (some .slate) (fun t b => f t .slate b)).withSect base type (some .granite) (fun t b => f t .granite b)

/-- The wait limit of a world without a RESIDENT section (R228). -/
def State.lockWaits (s : State) : State :=
  (s.modWcfg .slate (fun c => { c with lockWaitUs := 1000 })).modWcfg .granite (fun c => { c with lockWaitUs := 1000 })

/-- What no image and no board record gives: the host offer, the mailboxes, the wait limits, TIMING, and the mode word of the
built-in safe configuration (R63, R228, R250, R446; log 151). -/
def State.applyRom (s : State) : State :=
  let s1 := ((s.modWcfg .slate (builtinHost .slate)).modWcfg .granite (builtinHost .granite)).lockWaits
  let s2 := (s1.modWcfg .slate (fun c => { c with niMax := 16 })).modWcfg .granite (fun c => { c with niMax := 16 })
  let s3 := (s2.setPeriod .slate 60000 false false).setPeriod .granite 60000 false false
  { s3 with
    img := { s3.img with mbMap := 0xAAAA5555 }
    qz := { s3.qz with window := true }
    attic := { s3.attic with mode := 0x45 }
    boiler := { s3.boiler with
      modePace := ⟨1, 1⟩, pace := ⟨1, 1⟩, rail := railOf 1 1, domains := s3.boiler.domains ++ [63] } }

/-- A map of two bits an item with one item set. -/
def mapSet (m i code : Nat) : Nat := m - bits m (2 * i) 2 * 2 ^ (2 * i) + code * 2 ^ (2 * i)

/-- The ROM programs of the drives are resident in contexts 16,320 + n, of the worlds of their drives (R228, R395). -/
def State.applyRomPrograms (s : State) : State :=
  (List.range 64).foldl (fun t n =>
    match t.driveWorld n with
    | some w =>
      if (t.drive n).cfg.romProg = 0 then t
      else
        ({ t with img := { t.img with ctxMap := mapSet t.img.ctxMap (romCtx n) (w.bit + 1) } }).modWcfg w (fun c =>
          { c with residents := c.residents ++ [t.romEntry n] })
    | none => t) s

/-- Which copy a flash address is the base of, for SUB of a fault message (R460). -/
def copyIndex (kind base : Nat) : Nat := if base = copyBase kind 1 then 1 else 0

/-- The board record in force is applied: the built-in safe configuration, or with a failing ASSIGN or BOILER body the bare safe
state (R63, R64, R502; log 151). -/
def State.applyBoard (s : State) : State :=
  let s0 := s.applyRom
  let bare := fun (t : State) => { t with attic := { t.attic with config := .bare } }
  match s.attic.boardBase with
  | none => bare s0
  | some base =>
    let k := copyIndex 2 base
    match s0.section1 base 2 none, s0.section1 base 0x0D none with
    | some a, some b =>
      if assignBoardBad a then bare (s0.imageEntry k 2 0xFFFF (s0.sectionWorld base 2) true)
      else if boilerBad b then bare (s0.imageEntry k 0x0D 0xFFFF none true)
      else
        let m := s0.img.mbMap
        let s1 := s0.applyAssign a
        let s2 := { s1 with img := { s1.img with mbMap := m } }
        let s3 := s2.withSect base 3 none (fun t b => t.applyLane k (s0.sectionWorld base 3) b)
        let s4 := s3.withBoth base 5 (fun t w b => t.applyPort k w b)
        let s5 := s4.withBoth base 0x11 (fun t w b => t.applyPlant k w b true)
        let s6 := s5.withBoth base 0x0C (fun t w b => t.applyText k w b false)
        (s6.applyBoiler b 0x45).applyRomPrograms
    | _, _ => bare s0

/-- The Filino image is not applied: the built-in safe configuration in its place (R70, R502). -/
def State.applyFallback (s : State) : State :=
  s.chooseBoard.applyBoard

/-- The sections of a Filino image that stand behind MODE, ASSIGN and PANTRY, in an order in which each finds what it needs. -/
def State.applyRest (s : State) (base k : Nat) (mode : Nat) (boiler pantry : List Byte) : State :=
  let aw := s.sectionWorld base 2
  let s1 := s.withSect base 4 none (fun t b => t.applyGates b)
  let s2 := s1.withBoth base 8 (fun t w b => t.applyKernel k w b)
  let s3 := s2.withBoth base 7 (fun t w b => t.applyHandler k w b)
  let s4 := s3.withSect base 3 none (fun t b => t.applyLane k (s.sectionWorld base 3) b)
  let s5 := s4.withBoth base 5 (fun t w b => t.applyPort k w b)
  let s6 := s5.withBoth base 9 (fun t w b => t.applyResident k w b)
  let s7 := s6.withBoth base 6 (fun t w b => t.applyProfile k w b)
  let s8 := s7.withBoth base 0x0A (fun t w b => t.applyPlant k w b false)
  let s9 := s8.withBoth base 0x0B (fun t w b => t.applyHost w b)
  let s10 := (s9.applyShares k).applyPartners k aw
  let s11 := s10.withBoth base 0x0C (fun t w b => t.applyText k w b true)
  let s12 := ((s11.applyBoiler boiler mode).applyPools k pantry).withSect base 0x0F none (fun t b => t.applyTiming k b)
  s12.withSect base 0x10 none (fun t b => t.applyFault k b)

/-- The Filino image in force is applied, or, where its PANTRY, its training, its ASSIGN or its BOILER fails, the built-in safe
configuration (R70, R350, R431, R502). -/
def State.applyImage (s : State) (base : Nat) (train : List TrainReport) : State :=
  let k := copyIndex 1 base
  let failed := fun (t : State) => { t with attic := { t.attic with pantryFail := true } }
  let m := (s.section1 base 1 none).getD []
  let a := (s.section1 base 2 none).getD []
  let b := (s.section1 base 0x0D none).getD []
  let p := (s.section1 base 0x0E none).getD []
  let mode := fieldAt m 0 4
  let strong := bitAt mode 4
  if pantryBad p strong (regionsOf a) then ((failed s).imageEntry k 0x0E 0xFFFF none true).applyFallback
  else
    let s1 := s.trainAll p train
    if !trainOk (fieldAt p 0 1) train then (failed s1).applyFallback
    else if assignBad a (pantryCap p strong) (fieldAt p 32 8) (fieldAt p 40 4) then
      (s1.imageEntry k 2 0xFFFF (s.sectionWorld base 2) true).applyFallback
    else if boilerBad b then (s1.imageEntry k 0x0D 0xFFFF none true).applyFallback
    else
      let s2 := (((s1.modWcfg .slate (builtinHost .slate)).modWcfg .granite (builtinHost .granite)).lockWaits).modBl (fun x =>
        { x with domains := x.domains ++ [63] })
      let s3 := { s2 with attic := { s2.attic with
        mode := mode, digest := s.manifestDigest base, gdigest := s.graniteDigest base } }
      ((s3.applyPantry p strong).applyAssign a).applyRest base k mode b p

/-- CONFIG_APPLY: step 6: the Pantry is trained and the configuration chosen is applied. -/
def execConfigApply (train : List TrainReport) (s : State) : Result :=
  if s.attic.state ≠ 4 then .next s
  else
    let s1 := match s.attic.config, s.attic.imageBase with
      | .image, some base => s.applyImage base train
      | _, _ => s.applyBoard
    .next { s1 with attic := { s1.attic with state := 5 } }

/-! ### Step 8 (R36, R65, R69, R446, R454, R491) -/

/-- The compare units that TIMING names take their targets. -/
def State.startUnits (s : State) : State :=
  s.img.timing.foldl (fun t p => t.modCmp p.1 (fun u => { u with
    tgt := BitVec.ofNat 32 (s.attic.timeSafe + p.2.2.1), int := BitVec.ofNat 32 p.2.2.2, arm := bitAt p.2.1 0, lock := bitAt p.2.1 1
    tgtLate := false })) s

/-- The first epoch of a world starts: its boundary carries FIRST, and RESTORED where its counts were restored (R454, R458). -/
def State.startEpoch (s : State) (w : World) : State :=
  { s with stats := s.stats.upd w (fun e => { e with
      running := true, start := s.now, next := nextEpoch s.now e.periodMs
      cause := 16 + 32 * bnat s.cellar.statsRestored + 64 * bnat s.qz.lf }) }

/-- The resident programs of a world are bound; the defrost schedule of a ROM program counts from step 8 (R229, R395, R397). -/
def State.startResidents (s : State) (w : World) : State :=
  (s.wcfg w).residents.foldl (fun t e =>
    let n := e.ctx - 16320
    if s.attic.config = .builtin then
      (t.romBind w n false).modDrive n (fun d => { d with romNext := s.now + (d.cfg.defrostEvery + n) * minuteNs })
    else t.bindResident w e false) s

/-- Boiler asks for the leave of the drive groups that have a drive, and of the ports that have a mode (R285, R379). -/
def State.startDomains (s : State) : State :=
  let groups := (List.range 8).filter (fun j => (List.range 8).any (fun i => (s.drive (8 * j + i)).cfg.mode ≠ 0))
  let ports := (List.range 256).filter (fun n => (s.portWorld n).isSome && (s.port n).cfg.mode ≠ 0)
  let s1 := groups.foldl (fun t j => t.boilerAsk (.driveGroup j) t.backgroundLst) s
  ports.foldl (fun t n => t.boilerAsk (.porch n) t.backgroundLst) (s1.modBl (fun b => { b with ungate := ports }))

/-- ATTIC_DONE: step 8: each world AUTONOMOUS, its members in safe state, its resident programs started; under a Filino image a
start record is due. -/
def execAtticDone (s : State) : Result :=
  if s.attic.state ≠ 5 || !s.attic.judged then .next s
  else
    let up := fun (f : Func) => { f with host := .autonomous }
    let s1 := { s with
      attic := { s.attic with state := 6, timeSafe := s.now }
      fns := (s.fns.upd .slate up).upd .granite up
      cellar := { s.cellar with job := if s.attic.config = ConfigKind.image then .startRecord else .idle } }
    let s2 := ((s1.startUnits.startEpoch .slate).startEpoch .granite)
    let s3 := (s2.worldSafe .slate).worldSafe .granite
    let s4 := ((s3.startDomains).startResidents .slate).startResidents .granite
    .next s4.romRun

/-! ### KEY_REVOKE (R496, R503) -/

/-- The slots of a kind below one in use that are not empty and not revoked. -/
def Fuses.revocable (f : Fuses) (kind slot : Nat) : List Nat :=
  (List.range slot).filter (fun k => Tbl.get 0 (f.slots kind) k ≠ 0 && !bitAt f.revoke (4 * kind + k))

/-- REVOKE bits are blown. -/
def State.blowRevoke (s : State) (kind : Nat) (l : List Nat) : State :=
  { s with fuses := { s.fuses with revoke := l.foldl (fun r k => r ||| 2 ^ (4 * kind + k)) s.fuses.revoke } }

/-- KEY_REVOKE: after step 8 a key in use revokes the keys before it: of the firmware in force, of a chosen Filino image copy, and of
its Granite part; each Granite slot advances the audit counter. -/
def execKeyRevoke (s : State) : Result :=
  if !s.done || !s.powered then .next s
  else
    let fw := if s.attic.fwRecovery then [] else s.fuses.revocable 0 s.flint.fwSlot
    let im := if s.attic.imageBase.isSome then s.fuses.revocable 1 s.flint.imgSlot else []
    let gr := if s.attic.imageBase.isSome then s.fuses.revocable 2 s.flint.grnSlot else []
    .next (gr.foldl (fun t _ => t.auditAdvance) (((s.blowRevoke 0 fw).blowRevoke 1 im).blowRevoke 2 gr))

end Sys2Proof.Machine
end

