-- ==== Sys2Proof/Machine/FlashService.lean ====
section
/-! DEFINITION. The flash service of the Study on the flash mailboxes (R48, R281 to R283, R503). -/
namespace Sys2Proof.Machine

/-- The operation that a request names in MB_MSG_0[7:0]. -/
def State.flashOp (s : State) (m : Nat) : Nat := bits (Tbl.get 0 (s.mb m).msg 0).toNat 0 8

/-- The target kind in MB_MSG_0[9:8]. -/
def State.flashTarget (s : State) (m : Nat) : Nat := bits (Tbl.get 0 (s.mb m).msg 0).toNat 8 2

/-- A message register as a number. -/
def State.mbMsg (s : State) (m i : Nat) : Nat := (Tbl.get 0 (s.mb m).msg i).toNat

/-- The service's acknowledge, with MB_MSG_1 where the reply gives it. -/
def State.flashAck (s : State) (m bit code : Nat) (msg1 : Option Nat) : State :=
  s.mbAck m code bit (match msg1 with
    | some v => [(1, BitVec.ofNat 64 v)]
    | none => [])

/-- Serve a request of an operation on the flash mailbox of a function, once it has set its REQ bit. An operation that the service
does not have is answered UNKNOWN_REQUEST. -/
def State.flashServe (s : State) (fn : World) (bit op : Nat) (f : State → Nat → State) : State :=
  match s.flashMb fn with
  | none => s
  | some m =>
    if !s.done || 16 ≤ bit || !bitAt (s.mb m).req bit then s
    else if s.flashOp m = op then f s m
    else if s.flashOp m = 0 || 5 < s.flashOp m then s.flashAck m bit 1 none
    else s

/-- The copy of a KIND selected at start: its flash base. -/
def State.selectedCopy (s : State) (kind : Nat) : Option Nat :=
  if kind = 1 then s.attic.imageBase else if kind = 2 then s.attic.boardBase else s.attic.fwBase

/-- The copy not in force (R282). -/
def State.spareCopy (s : State) (kind : Nat) : Nat :=
  match s.selectedCopy kind with
  | some base => 1 - copyIndex kind base
  | none => if s.copyGen kind 1 < s.copyGen kind 0 then 1 else 0

/-- The GENERATION in force of a KIND, 0 where none is. -/
def State.genInForce (s : State) (kind : Nat) : Nat :=
  match s.selectedCopy kind with
  | some base => (s.header base).gen
  | none => 0

/-- Erase n bytes of the flash. A failed read of what stood there says nothing of what is written next (R47). -/
def State.flashErase (s : State) (base n : Nat) : State :=
  let apart := fun (a : Nat) => a < base || base + n ≤ a
  { s with
    flash := { s.flash with mem := s.flash.mem.filter (fun p => apart p.1) }
    attic := { s.attic with readRetry := s.attic.readRetry.filter apart, readBad := s.attic.readBad.filter apart } }

/-- Whether a world opened the session. -/
def FlashSession.mine (x : FlashSession) (w : World) : Bool := x.world = w

/-- The session closes. -/
def State.flashClose (s : State) : State := { s with flash := { s.flash with session := none } }

/-- The session of a world closes at its host loss (R282). -/
def State.flashLoss (s : State) (w : World) : State :=
  if s.flash.session.any (fun x => x.world = w) then s.flashClose else s

/-- ABORT: the session closes, and the copy stays erased (R281). -/
def State.flashDrop (s : State) (x : FlashSession) : State := (s.flashErase x.base (copyMax x.target)).flashClose

/-- The session of a world is aborted at a reset of its function (R244). -/
def State.flashAbortOf (s : State) (w : World) : State :=
  match s.flash.session with
  | some x => if x.world = w then s.flashDrop x else s
  | none => s

/-- The check of a copy has ended: the next one reads its bytes anew, each read with its own retry (R47). -/
def State.flashChecked (s : State) (base n : Nat) : State :=
  let apart := fun (a : Nat) => a < base || base + n ≤ a
  { s with attic := { s.attic with readRetry := s.attic.readRetry.filter apart, readBad := s.attic.readBad.filter apart } }

/-- FLASH_OPEN. -/
def execFlashOpen (fn : World) (bit : Nat) (s : State) : Result :=
  .next (s.flashServe fn bit 1 (fun t m =>
    let k := t.flashTarget m
    if t.flash.session.isSome then t.flashAck m bit 3 none
    else if k = 0 then t.flashAck m bit 2 none
    else if k = 2 && fn = .slate then t.flashAck m bit 4 none
    else
      let i := t.spareCopy k
      let base := copyBase k i
      let t1 := t.flashErase base (copyMax k)
      ({ t1 with flash := { t1.flash with session := some { world := fn, target := k, copy := i, base := base } } }).flashAck m bit 0
        (some i)))

/-- FLASH_WRITE. Without a session the request is out of order. -/
def execFlashWrite (fn : World) (bit : Nat) (s : State) : Result :=
  .next (s.flashServe fn bit 2 (fun t m =>
    match t.flash.session with
    | none => t.flashAck m bit 2 none
    | some x =>
      let off := t.mbMsg m 1
      let n := t.mbMsg m 2
      if !x.mine fn then t.flashAck m bit 3 none
      else if n = 0 || 40 < n || off ≠ x.written || copyMax x.target < off + n then t.flashAck m bit 2 none
      else
        let d := ((List.range 5).flatMap (fun i => leBytes 8 (t.mbMsg m (3 + i)))).take n
        ({ t with flash := { mem := Memory.write 0xFF t.flash.mem (x.base + off) d, session := some { x with written := off + n } } }).flashAck
          m bit 0 none))

/-- Whether a COMMIT advances the audit counter (R503). -/
def State.commitAudits (s : State) (x : FlashSession) : Bool :=
  (x.target = 1 && s.graniteDigest x.base ≠ s.attic.gdigest) || x.target = 2

/-- FLASH_COMMIT: by the world that opened the session, or by Granite after Slate's COMMIT was denied. -/
def execFlashCommit (fn : World) (bit : Nat) (s : State) : Result :=
  .next (s.flashServe fn bit 3 (fun t0 m =>
    match t0.flash.session with
    | none => t0.flashAck m bit 2 none
    | some x =>
      let r := t0.checkCopy x.base x.target
      let gen := some (t0.genInForce x.target)
      let t := t0.flashChecked x.base (copyMax x.target)
      if !(x.mine fn || (x.denied && fn = .granite)) then t0.flashAck m bit 3 none
      else if r ≠ 1 then t.flashClose.flashAck m bit (0x100 + r) gen
      else if fn = .slate && x.target = 1 && t.graniteDigest x.base ≠ t.attic.gdigest then
        ({ t with flash := { t.flash with session := some { x with denied := true } } }).flashAck m bit 4 gen
      else (if t.commitAudits x then t.flashClose.auditAdvance else t.flashClose).flashAck m bit 0 gen))

/-- FLASH_ABORT: the session closes, and the copy stays erased (R281). -/
def execFlashAbort (fn : World) (bit : Nat) (s : State) : Result :=
  .next (s.flashServe fn bit 4 (fun t m =>
    match t.flash.session with
    | none => t.flashAck m bit 2 none
    | some x =>
      if x.mine fn then (t.flashDrop x).flashAck m bit 0 none else t.flashAck m bit 3 none))

/-- FLASH_STATUS. -/
def execFlashStatus (fn : World) (bit : Nat) (s : State) : Result :=
  .next (s.flashServe fn bit 5 (fun t m =>
    t.flashAck m bit 0 (some (match t.flash.session with
      | none => 0
      | some x => 1 + 2 * x.target + 8 * bnat (x.mine fn) + x.written * 2 ^ 32))))

end Sys2Proof.Machine
end

