-- ==== Sys2Proof/Machine/Foyer.lean ====
section
/-! DEFINITION. The functions: start, stop, host loss, function-level reset, the host watchdog and the link (R36 to R38, R44, R112,
R233, R237 to R248, R261, R263, R266, R270, R469, R507). -/
namespace Sys2Proof.Machine

/-! ### Features (R245 to R248) -/

/-- The offered word of a world (R247). -/
def State.offer (s : State) (w : World) : Nat :=
  let c := s.wcfg w
  ((List.range 15).map (fun i =>
    let cut := (i = 1 && c.maxLevel = 1) || (i = 2 && c.maxLevel < 3) || (i = 12 && !c.bar2) || (i = 13 && c.flashMb = 0xFF)
    if bitAt c.featureMask i && !cut then 2 ^ i else 0)).sum

/-- Whether an accepted word is valid under an offered one (R248). -/
def acceptOk (accept offer : Nat) : Bool :=
  accept ||| offer = offer && (!bitAt accept 2 || bitAt accept 1)

/-- The major of a driver as its function is served. -/
def Func.major (f : Func) : Nat := f.drvVer / 65536

/-! ### Host loss (R36 to R38, R112, R242) -/

/-- A completion queue at host loss. -/
def Cq.lose (q : Cq) : Cq := { q with state := if q.state = .none then .none else .lost }

/-- A submission queue at host loss. -/
def Sq.lose (q : Sq) : Sq := { q.discard with state := if q.state = .none then .none else .lost }

/-- The completion queues of a world at its host loss; a HALT that waits goes with them. -/
def Qm.loseCqs (m : Qm) : Qm := { m with haltWait := none, cqs := m.cqs.map (fun (p : Nat × Cq) => (p.1, p.2.lose)) }

/-- The submission queues of a world at its host loss. -/
def Qm.loseSqs (m : Qm) : Qm := { m with sqs := m.sqs.map (fun (p : Nat × Sq) => (p.1, p.2.lose)) }

/-- The queues of a world go to LOST: fetched, unbound entries are discarded, open groups are cut (R261, R263, R266). -/
def State.queuesLost (s : State) (w : World) : State :=
  let s1 : State := { s with qm := s.qm.upd w Qm.loseCqs }
  let s2 : State := (s1.qm.get w).sqs.foldl (fun (t : State) (p : Nat × Sq) => t.groupCut w p.1) s1
  { s2 with qm := s2.qm.upd w Qm.loseSqs }

/-- Whether a piece of an IDAL that stands in Pantry, from entry `idx` and byte `off` on, lies in a host window (R101). -/
def State.piecesOnHost (s : State) (header base total : Nat) : Nat → Nat → Nat → Bool
  | 0, _, _ => false
  | fuel + 1, idx, off =>
    if total ≤ off then false
    else match idalPiece header idx off (leNat (s.pnBytes (base + 8 * idx) 8)) with
    | none => false
    | some p => windowBase < p.addr + p.len || s.piecesOnHost header base total fuel (idx + 1) (off + p.len)

/-- Whether the buffer of a chain member lies in a host window, or its IDAL does. -/
def State.memberOnHost (s : State) (header : Nat) (m : Ccw) : Bool :=
  !m.skp && m.bytes ≠ 0 && (effAddr header m.addr).any (fun a =>
    if m.ida then windowBase ≤ a || s.piecesOnHost header a m.bytes 65536 0 0 else windowBase < a + m.bytes)

/-- Whether a member after one with CD that is not fetched yet, through TICs, has its buffer in a host window (R95). -/
def State.chainOnHost (s : State) (header : Nat) (first : Ccw) : Nat → Ccw → Bool
  | 0, _ => false
  | fuel + 1, m =>
    let peek := fun (loc : Nat) => ccwOf loc (s.pnBytes loc 16)
    let y := peek (m.loc + 16)
    let z := if y.code = 5 then peek ((effAddr header y.addr).getD 0) else y
    m.cd && z.memberCode first && (s.memberOnHost header (z.asMember first) || s.chainOnHost header first fuel (z.asMember first))

/-- Whether the buffer of the CCW in progress, with its chain, lies in a host window (R38). -/
def State.onHost (s : State) (x : Ctx) : Bool :=
  match x.stream.members.head?, x.stream.members.getLast? with
  | some first, some m => x.stream.members.any (s.memberOnHost x.header) || s.chainOnHost x.header first 65536 m
  | _, _ => false

/-- Whether the CCW in progress runs on an attachment whose member enters safe state now. -/
def State.onNewlySafe (s : State) (x : Ctx) : Bool :=
  x.act.any (fun y => y.att.any (fun a => !(s.port (a / 16)).safe))

/-- A context meets the host loss of its world: a CCW in progress on a host window buffer, or on a member that becomes safe, ends at
once, another at its boundary; a suspended context stays so, with its interim status, which is a commit (R38, R112, R223). -/
def State.hostLostCtx (s : State) (c : Nat) : State :=
  let x := s.ctx c
  if !x.live || s.isResident c || s.isProbe c || s.frozen (s.home c) then s
  else if x.state = .suspended || x.parked then
    (s.modCtx c (fun x => { x with
      suspendCause := 0x0B, byCommand := false, susPass := x.susPass || x.byCommand
      interimPosted := true, commitSeq := x.commitSeq + 1 })).postInterim c
      { addr := x.postedAddr, residual := x.postedResid, status := 0x0B, flags := 0, unit := 0 }
  else if x.started && (s.onHost x || s.onNewlySafe x || x.inWait) then s.ccwStop c 0x0B 0
  else s.suspendDueSet c 0x0B

/-- The contexts of a world that have a record. -/
def State.worldCtxs (s : State) (w : World) : List Nat := (s.ctxs.filter (fun p => s.ctxWorld p.1 = some w)).map (fun p => p.1)

/-- The programs of a world lose the queues they came from (R258, R270). -/
def State.programsOrphaned (s : State) (w : World) : State :=
  (s.worldCtxs w).foldl (fun t c =>
    if (t.ctx c).state = .free || t.isResident c || t.isProbe c then t
    else t.modCtx c (fun x => { x with orphaned := true, counted := false })) s

/-- Host loss of Granite ends an ATTEST without a completion (R507). -/
def State.attestLoss (s : State) (w : World) : State :=
  if w = .granite then { s with flint := { s.flint with attest := none, attestWait := none } } else s

/-- Every translation entry of the pages of a world loses VALID (R353). -/
def State.windowsLost (s : State) (w : World) : State :=
  s.modPn (fun p => { p with xlat := p.xlat.filterMap (fun e =>
    let v := e.2 &&& 0xFFFFFFFFFFFFFFFE
    if s.pageWorld e.1 ≠ some w then some e else if v = 0 then none else some (e.1, v)) })

/-- Host loss of a world whose function is RUNNING, with its cause (R37, R38, R242, R353). -/
def State.hostLoss (s : State) (w : World) (cause : Nat) : State :=
  if !s.running w then s
  else
    let s1 := s.modFn w (fun f => { f with
      fstate := .lost, lostCause := cause, start := false, host := if f.host = .hosted then .autonomous else f.host })
    let s2 := ((s1.queuesLost w).programsOrphaned w).report (faultMsg 93 w.bit 0x18 cause (some w) false)
    let s3 := (s2.worldCtxs w).foldl (fun t c => t.hostLostCtx c) (s2.storesLost w)
    ((((s3.worldSafe w).dwHostLoss w).attestLoss w).flashLoss w).windowsLost w

/-- FUNCTION_STOP: a write of START = 0 (R242). -/
def State.functionStop (s : State) (w : World) : State :=
  if s.running w then s.hostLoss w 5 else s.modFn w (fun f => { f with start := false })

/-- FUNCTION_STOP. -/
def execFunctionStop (fn : World) (s : State) : Result := .next (s.functionStop fn)

/-! ### Function start (R241, R242) -/

/-- The check that a start fails first: 0 where it passes. -/
def State.startCheck (s : State) (w : World) : Nat :=
  let f := s.fn w
  let sq := f.aqDepth % 65536
  let cq := f.aqDepth / 65536
  if !s.done then 1
  else if 3 ≤ f.major then 2
  else if f.major = 2 && !acceptOk f.featAccept (s.offer w) then 3
  else if f.aqSqBase % 4096 ≠ 0 || f.aqCqBase % 4096 ≠ 0 || sq < 64 || 4096 < sq || sq % 4 ≠ 0 || cq < 64 || 4096 < cq then 4
  else if !f.bme || f.d3hot then 5
  else 0

/-- The orphans of a start: every store entry and every waiting status of a LOST queue is due to CQ 0 (R270). -/
def State.orphansMake (s : State) (w : World) : State :=
  let turn := fun (cq : Nat) (e : Compl) => if e.kind = .orphan && cq = 0 then e else e.orphan cq
  let ovf := s.ovf.map (fun e => if e.world = w then { e with cq := 0, compl := turn e.cq e.compl } else e)
  let wait := s.ovfWait.map (fun e => if e.world = w then { e with cq := 0, compl := turn e.cq e.compl } else e)
  let n := (ovf.filter (fun e => e.world = w)).length + (wait.filter (fun e => e.world = w)).length
  { s with ovf := ovf, ovfWait := wait, qm := s.qm.upd w (fun m => { m with orphansPosted := n, orphansDue := n }) }

/-- What a queue that is no more leaves: the groups whose covering completion is still due. -/
def Sq.remains (q : Sq) : Sq := if q.groups = [] then {} else { groups := q.groups, groupNo := q.groupNo }

/-- The queues at a start: the LOST ones are gone and queue 0 of each kind is made anew. -/
def Qm.restart (m : Qm) (sq : Sq) (cq : Cq) : Qm :=
  { m with
    sqs := Tbl.upd {} ((m.sqs.map (fun (p : Nat × Sq) => (p.1, if p.2.state = SqState.lost then p.2.remains else p.2))).filter
      (fun (p : Nat × Sq) => decide (p.2 ≠ {}))) 0 (fun (q : Sq) => { sq with groups := q.groups, groupNo := q.groupNo })
    cqs := Tbl.put {} (m.cqs.filter (fun (p : Nat × Cq) => p.2.state ≠ CqState.lost)) 0 cq }

/-- A start that passes its checks. -/
def State.functionRun (s : State) (w : World) : State :=
  let f := s.fn w
  let acc := if f.major = 2 then f.featAccept else 0
  let sq : Sq := { state := .enabled, base := f.aqSqBase, depth := f.aqDepth % 65536 }
  let cq : Cq := { state := .active, base := f.aqCqBase, depth := f.aqDepth / 65536, vector := 0 }
  let s1 : State := { s with qm := s.qm.upd w (fun (m : Qm) => m.restart sq cq) }
  let s2 := s1.modFn w (fun (f : Func) => { f with
    accepted := acc, plain := !bitAt acc 0, startErr := 0, lostCause := 0, fstate := .running, start := true, wdogLast := s.now
    host := if f.host = HostState.autonomous then HostState.hosted else f.host })
  let s3 : State := { s2 with fc := { s2.fc with studyHold := false, holdDue := false } }
  (s3.orphansMake w).cqDrain w 0

/-- A write of START = 1: no effect while RUNNING; refused with its reason; or the start (R241, R242). -/
def State.functionStart (s : State) (w : World) : State :=
  if s.running w || s.pw.phase ≠ .none then s
  else
    let e := s.startCheck w
    if e ≠ 0 then s.modFn w (fun f => { f with start := false, startErr := e }) else s.functionRun w

/-- FUNCTION_START: a write of START = 1, with Bus Master Enable and the power state as configuration space then has them. -/
def execFunctionStart (fn : World) (bme d0 : Bool) (s : State) : Result :=
  s.whenPowered ((s.modFn fn (fun f => { f with bme := bme, d3hot := !d0 })).functionStart fn)

/-! ### The link and the endpoint (R37, R44, R69) -/

/-- The link goes down: both functions suffer host loss. -/
def State.linkLoss (s : State) : State := (({ s with linkUp := false }).hostLoss .slate 1).hostLoss .granite 1

/-- LINK_DOWN. -/
def execLinkDown (s : State) : Result := .next s.linkLoss

/-- LINK_UP: the link comes up, once its training is enabled and while PERST_N is high (R65, R69). -/
def execLinkUp (s : State) : Result :=
  .next (if 3 ≤ s.attic.state && s.attic.state ≤ 6 && s.pw.phase = .none && !s.pw.perstLow then { s with linkUp := true } else s)

/-- The endpoint's configuration space after a reset of it: Bus Master Enable 0, D0, the MSI-X table and PBA as PCIe resets them. -/
def Func.endpointReset (f : Func) : Func := { f with bme := false, d3hot := false, msix := [], pba := [] }

/-- PERST_N_LOW: the PCIe endpoint is reset and the link is down (R44). -/
def execPerstNLow (s : State) : Result :=
  let s1 := { s with pw := { s.pw with perstLow := true } }.linkLoss
  .next ((s1.modFn .slate Func.endpointReset).modFn .granite Func.endpointReset)

/-- PERST_N_HIGH. -/
def execPerstNHigh (s : State) : Result := .next { s with pw := { s.pw with perstLow := false } }

/-- BUS_MASTER_DISABLE: Bus Master Enable of the function is cleared, or it is placed in D3hot, which counts the same (R37, R233). -/
def execBusMasterDisable (fn : World) (d3hot : Bool) (s : State) : Result :=
  s.whenPowered ((s.modFn fn (fun f => { f with bme := f.bme && d3hot, d3hot := d3hot })).hostLoss fn 3)

/-! ### Function-level reset (R244, R469) -/

/-- The registers of a function that a function-level reset resets. -/
def Func.flr (f : Func) : Func :=
  { f.endpointReset with
    drvVer := 0, start := false, featAccept := 0, aqSqBase := 0, aqCqBase := 0, aqDepth := 0, startErr := 0, event := 0
    eventMask := 0x1F, eventVec := 0xFFFF, heldLow := [] }

/-- The mailbox registers that a function-level reset resets. -/
def Mailbox.flr (x : Mailbox) : Mailbox :=
  { x with req := 0, note := 0, noteMask := 0, ackCode := 0, ackBit := 0, ackValid := false, held := [], vec := 0xFFFF, collide := false }

/-- FUNCTION_LEVEL_RESET: a flash session of the world is aborted before the host loss would only close it. -/
def execFunctionLevelReset (fn : World) (s : State) : Result :=
  let s1 := ((s.flashAbortOf fn).hostLoss fn 2).modFn fn Func.flr
  let s2 := (List.range 16).foldl (fun t m => if t.mbWorld m = some fn then t.modMb m Mailbox.flr else t) s1
  .next { s2 with fc := { s2.fc with hold := s2.fc.hold.set fn false } }

/-! ### The host watchdog (R243) -/

/-- A write of FY_WDOG: another value than 0x0000_0A5A is ignored and recorded (R237). -/
def State.wdogWrite (s : State) (fn : World) (v : Nat) : State :=
  if v = 0xA5A then s.modFn fn (fun f => { f with wdogLast := s.now }) else s.discardFault fn 108 0x14

/-- WATCHDOG_RESTART. -/
def execWatchdogRestart (fn : World) (v : W32) (s : State) : Result := s.whenPowered (s.wdogWrite fn v.toNat)

/-- HOST_WATCHDOG_EXPIRY: FY_WDOG_MS has passed without a restart. -/
def execHostWatchdogExpiry (fn : World) (s : State) : Result :=
  let f := s.fn fn
  .next (if s.running fn && bitAt f.accepted 14 && f.wdogLast + (s.wcfg fn).wdogMs * 1000000 ≤ s.now then s.hostLoss fn 4 else s)

end Sys2Proof.Machine
end

