-- ==== Sys2Proof/Machine/Admin.lean ====
section
/-! DEFINITION. The administrative commands, taken one at a time from queue 0 of each function, and the submission queue tail
doorbell (R27, R31, R112, R249, R253, R254, R259, R261 to R264, R269, R270, R272 to R275). -/
namespace Sys2Proof.Machine

/-! ### The administrative queue (R272, R273) -/

/-- The ASTATUS codes of R273. -/
def asOk : Nat := 0
def asBadField : Nat := 2
def asNoResource : Nat := 3
def asWrongWorld : Nat := 4
def asBusy : Nat := 5
def asNotFound : Nat := 6
def asBadState : Nat := 7
def asFeature : Nat := 8
def asResident : Nat := 9
def asAddress : Nat := 0x0A
def asDenied : Nat := 0x0B

/-- How a command ends: ASTATUS, RESULT0 and the state. -/
structure AdminOut where
  status : Nat
  result : Nat := 0
  next : State

/-- A command that is refused changes nothing. -/
def refuse (s : State) (status : Nat) : AdminOut := { status := status, next := s }

/-- The first fetched entry of queue 0 of a function, if it carries an opcode, the command before it has placed its completion, and no
debug halt is in force (R273, R506). -/
def State.adminEntry (s : State) (w : World) (op : Nat) : Option Entry :=
  let busy : Bool := (s.qm.get w).haltWait.isSome || (w = .granite && (s.flint.attest.isSome || s.flint.attestWait.isSome))
    || s.ovfWait.any (fun x => x.world = w && x.cq = 0 && x.compl.kind = .admin)
  if !s.running w || s.pw.phase ≠ .none || s.qz.debugHalt || busy then none
  else match (s.sq w 0).entries with
  | [] => none
  | e :: _ => if fieldAt e.data 0 1 = op then some e else none

/-- Carry out the front command of queue 0: its head passes the entry, and its completion is placed (R272, R273). -/
def State.adminRun (s : State) (w : World) (op : Nat) (k : List Byte → State → AdminOut) : State :=
  match s.adminEntry w op with
  | none => s
  | some e =>
    let o := k e.data (s.entryTaken w 0 e)
    o.next.adminDone w (fieldAt e.data 2 2) o.status o.result 0

/-- Whether a world is served as under the built-in safe configuration: where that, or the bare safe state, is in force, or no HOST
section of the world is (R64, R250, R275). -/
def State.builtinServed (s : State) (w : World) : Bool :=
  s.attic.config = .builtin || s.attic.config = .bare || !(s.wcfg w).hosted

/-- Operand bytes 8 to 63 that are not listed are 0: `l` lists the first byte and the length of each reserved run. -/
def zeroRuns (d : List Byte) (l : List (Nat × Nat)) : Bool := l.all (fun p => zeroAt d p.1 p.2)

/-! ### Completion queues (R265, R269) -/

/-- CREATE_CQ. -/
def createCq (w : World) (d : List Byte) (s : State) : AdminOut :=
  let base := fieldAt d 8 8
  let depth := fieldAt d 16 4
  let n := fieldAt d 20 2
  let vec := fieldAt d 22 2
  let cnt := fieldAt d 24 2
  let us := fieldAt d 26 2
  let mod := bitAt (s.fn w).accepted 10
  let c := s.wcfg w
  if s.builtinServed w then refuse s asNoResource
  else if !zeroRuns d [(28, 36)] || n = 0 || base % 4096 ≠ 0 || depth < 64 || 65536 < depth
      || mod && (cnt = 0 || 256 < cnt || 10000 < us) then refuse s asBadField
  else if c.cqShare ≤ n || (s.cq w n).state ≠ .none || vec ≠ 0xFFFF && c.msixCount ≤ vec then refuse s asNoResource
  else
    let q : Cq := { state := .active, base := base, depth := depth, vector := vec,
                    intCount := if mod then cnt else 1, intDelayUs := if mod then us else 0 }
    { status := asOk, next := s.modCq w n (fun _ => q) }

/-- CREATE_CQ. -/
def execCreateCq (fn : World) (s : State) : Result := .next (s.adminRun fn 0x10 (createCq fn))

/-- Whether something will still post to a completion queue, or names it (R269). -/
def State.cqBusy (s : State) (w : World) (n : Nat) : Bool :=
  (s.qm.get w).sqs.any (fun (p : Nat × Sq) => p.2.state ≠ SqState.none && p.2.cq = n)
    || s.ctxs.any (fun (p : Nat × Ctx) => s.ctxWorld p.1 = some w && p.2.state ≠ CtxState.free && p.2.cq = n && !p.2.orphaned
        && !s.isResident p.1 && !s.isProbe p.1)
    || !(s.storeOf w n).isEmpty || s.ovfWait.any (fun e => e.world = w && e.cq = n)

/-- DELETE_CQ. -/
def deleteCq (w : World) (d : List Byte) (s : State) : AdminOut :=
  let n := fieldAt d 20 2
  if !zeroRuns d [(8, 12), (22, 42)] || n = 0 then refuse s asBadField
  else if (s.wcfg w).cqShare ≤ n then refuse s asNoResource
  else if (s.cq w n).state = .none then refuse s asNotFound
  else if s.cqBusy w n then refuse s asBusy
  else { status := asOk, next := s.modCq w n (fun _ => {}) }

/-- DELETE_CQ. -/
def execDeleteCq (fn : World) (s : State) : Result := .next (s.adminRun fn 0x11 (deleteCq fn))

/-! ### Submission queues (R249, R251, R261, R262) -/

/-- The accepted word of a new queue (R249). -/
def queueWord (request accepted : Nat) : Nat :=
  let a := (request &&& accepted) % 256
  if bitAt a 2 && !bitAt a 1 then a - 4 else a

/-- CREATE_SQ. -/
def createSq (w : World) (d : List Byte) (s : State) : AdminOut :=
  let base := fieldAt d 8 8
  let depth := fieldAt d 16 4
  let n := fieldAt d 20 2
  let cq := fieldAt d 22 2
  let acc := queueWord (fieldAt d 24 16) (s.fn w).accepted
  let c := s.wcfg w
  if s.builtinServed w then refuse s asNoResource
  else if !zeroRuns d [(40, 24)] || n = 0 || base % 4096 ≠ 0 || depth < 64 || 65536 < depth || !bitAt acc 0 && depth % 4 ≠ 0 then
    refuse s asBadField
  else if c.sqShare ≤ n || (s.sq w n).state ≠ .none || c.cqShare ≤ cq then refuse s asNoResource
  else if (s.cq w cq).state ≠ .active then refuse s asNotFound
  else
    { status := asOk, result := acc, next := s.modSq w n (fun q =>
        { state := .disabled, base := base, depth := depth, cq := cq, accepted := acc, groups := q.groups, groupNo := q.groupNo }) }

/-- CREATE_SQ. -/
def execCreateSq (fn : World) (s : State) : Result := .next (s.adminRun fn 0x12 (createSq fn))

/-- The submission queue that a command names in bytes 20 and 21, or why it names none: `rsv` lists the reserved runs. -/
def sqNamed (w : World) (d : List Byte) (s : State) (rsv : Bool) (k : Nat → AdminOut) : AdminOut :=
  let n := fieldAt d 20 2
  if rsv || n = 0 then refuse s asBadField
  else if (s.wcfg w).sqShare ≤ n then refuse s asNoResource
  else if (s.sq w n).state = .none then refuse s asNotFound
  else k n

/-- Programs bound from a queue no longer count in it. -/
def State.sqForget (s : State) (w : World) (n : Nat) : State :=
  (s.worldCtxs w).foldl (fun t c =>
    if (t.ctx c).bindSq = n then t.modCtx c (fun x => { x with counted := false }) else t) s

/-- DELETE_SQ. -/
def deleteSq (w : World) (d : List Byte) (s : State) : AdminOut :=
  sqNamed w d s (!zeroRuns d [(8, 12), (22, 42)]) (fun n =>
    { status := asOk, next := ((s.groupCut w n).sqForget w n).modSq w n Sq.remains })

/-- DELETE_SQ. -/
def execDeleteSq (fn : World) (s : State) : Result := .next (s.adminRun fn 0x13 (deleteSq fn))

/-- ENABLE_SQ. -/
def enableSq (w : World) (d : List Byte) (s : State) : AdminOut :=
  let set := bitAt (fieldAt d 24 1) 0
  let word := fieldAt d 28 4
  let new := ptrOf word
  sqNamed w d s (!zeroRuns d [(8, 12), (22, 2), (25, 3), (32, 32)] || 1 < fieldAt d 24 1 || 131072 ≤ word) (fun n =>
    let q := s.sq w n
    if q.state ≠ .disabled && q.state ≠ .error then refuse s asBadState
    else if set && (q.depth ≤ new.idx || ptrDist q.head q.tail q.depth < ptrDist q.head new q.depth) then refuse s asBadField
    else
      let s1 := if set then (s.groupCut w n).modSq w n (fun q => { q with head := new }) else s
      let s2 := s1.modSq w n (fun q => { q.discard with state := .enabled })
      { status := asOk, result := (s2.sq w n).head.word, next := s2 })

/-- Whether an ENABLE_SQ that stands at the front names a queue in ERROR that still has entries to be bound (R261). -/
def State.enableWaits (s : State) (w : World) : Bool :=
  match s.adminEntry w 0x14 with
  | some e =>
    let n := fieldAt e.data 20 2
    n ≠ 0 && (s.sq w n).state = .error && (s.sq w n).entries ≠ []
  | none => false

/-- ENABLE_SQ: of a queue in ERROR it completes only after every entry ahead of ERR_IDX is bound. -/
def execEnableSq (fn : World) (s : State) : Result :=
  .next (if s.enableWaits fn then s else s.adminRun fn 0x14 (enableSq fn))

/-- DISABLE_SQ. -/
def disableSq (w : World) (d : List Byte) (s : State) : AdminOut :=
  sqNamed w d s (!zeroRuns d [(8, 12), (22, 42)]) (fun n =>
    let q := s.sq w n
    if q.state ≠ .enabled && q.state ≠ .error then refuse s asBadState
    else
      let s1 := (s.groupCut w n).modSq w n (fun q => { q.discard with state := .disabled })
      { status := asOk, result := q.head.word, next := s1 })

/-- DISABLE_SQ. -/
def execDisableSq (fn : World) (s : State) : Result := .next (s.adminRun fn 0x15 (disableSq fn))

/-- Whether a lane holds a member of a world (R31, R273). -/
def State.laneHolds (s : State) (w : World) (l : Nat) : Bool :=
  let x := Tbl.get ({} : LaneCfg) s.img.lanes l
  (s.worldPorts w).any (fun n => bitAt x.ports n) || (s.worldDrives w).any (fun n => bitAt x.drives n)

/-- BIND_SQ. -/
def bindSq (w : World) (d : List Byte) (s : State) : AdminOut :=
  let mask := fieldAt d 32 16
  sqNamed w d s (!zeroRuns d [(8, 12), (22, 2), (25, 7), (48, 16)] || 1 < fieldAt d 24 1) (fun n =>
    if !(List.range 128).all (fun l => !bitAt mask l || s.laneHolds w l) then refuse s asWrongWorld
    else { status := asOk, next := s.modSq w n (fun q => { q with lanes := mask, backOffice := bitAt (fieldAt d 24 1) 0 }) })

/-- BIND_SQ. -/
def execBindSq (fn : World) (s : State) : Result := .next (s.adminRun fn 0x16 (bindSq fn))

/-- INVALIDATE. -/
def invalidateSq (w : World) (d : List Byte) (s : State) : AdminOut :=
  sqNamed w d s (!zeroRuns d [(8, 12), (22, 42)]) (fun n =>
    { status := asOk, result := (s.sq w n).head.word, next := s.modSq w n Sq.discard })

/-- INVALIDATE. -/
def execInvalidate (fn : World) (s : State) : Result := .next (s.adminRun fn 0x17 (invalidateSq fn))

/-! ### Context commands (R112, R270, R274, R275) -/

/-- Why a command does not act on the context that it names, if it does not: `rsv` says that a reserved operand byte is set. -/
def State.ctxRefusal (s : State) (w : World) (d : List Byte) (rsv : Bool) : Option Nat :=
  let c := fieldAt d 8 2
  let x := s.ctx c
  if rsv || 16384 ≤ c || 8192 ≤ fieldAt d 10 2 then some asBadField
  else if s.ctxWorld c ≠ some w then some asWrongWorld
  else if s.isResident c then some asResident
  else if x.state = .free then some asBadState
  else if s.isProbe c || x.sq ≠ fieldAt d 10 2 || x.tag ≠ fieldAt d 12 2 then some asNotFound
  else none

/-- Whether the completion queue that a context posts to is there (R275). -/
def State.ctxCqThere (s : State) (w : World) (c : Nat) : Bool := !(s.ctx c).orphaned && (s.cq w (s.ctx c).cq).state = .active

/-- SUSPEND and RESUME. -/
def ctxCommand (w : World) (op : Nat → State → State) (d : List Byte) (s : State) : AdminOut :=
  let c := fieldAt d 8 2
  match s.ctxRefusal w d (!zeroRuns d [(14, 50)]) with
  | some a => refuse s a
  | none => if s.ctxCqThere w c then { status := asOk, next := op c s } else refuse s asBadState

/-- SUSPEND. -/
def execSuspend (fn : World) (s : State) : Result :=
  .next (s.adminRun fn 0x20 (ctxCommand fn (fun c t => t.suspendOp c)))

/-- RESUME. -/
def execResume (fn : World) (s : State) : Result :=
  .next (s.adminRun fn 0x21 (ctxCommand fn (fun c t => t.resumeOp c true)))

/-- HALT: done after the final status HALTED is placed. -/
def execHalt (fn : World) (s : State) : Result :=
  match s.adminEntry fn 0x22 with
  | none => .next s
  | some e =>
    let c := fieldAt e.data 8 2
    let tag := fieldAt e.data 2 2
    let s1 := s.entryTaken fn 0 e
    match s1.ctxRefusal fn e.data (!zeroRuns e.data [(14, 50)]) with
    | some a => .next (s1.adminDone fn tag a 0 0)
    | none => .next (({ s1 with qm := s1.qm.upd fn (fun (m : Qm) => { m with haltWait := some (c, tag) }) } : State).haltOp c)

/-- ADOPT. -/
def adopt (w : World) (d : List Byte) (s : State) : AdminOut :=
  let c := fieldAt d 8 2
  let q := fieldAt d 20 2
  let n := fieldAt d 22 2
  if !bitAt (s.fn w).accepted 9 then refuse s asFeature
  else match s.ctxRefusal w d (!zeroRuns d [(14, 6), (24, 40)]) with
  | some a => refuse s a
  | none =>
    if (s.wcfg w).sqShare ≤ q || (s.wcfg w).cqShare ≤ n then refuse s asNoResource
    else if (s.sq w q).state = .none || (s.cq w n).state ≠ .active then refuse s asNotFound
    else if (s.ctx c).state ≠ .suspended then refuse s asBadState
    else { status := asOk, next := s.modCtx c (fun x => { x with sq := q, cq := n, orphaned := false }) }

/-- ADOPT. -/
def execAdopt (fn : World) (s : State) : Result := .next (s.adminRun fn 0x23 (adopt fn))

/-- A write of a command's result to host memory: ADDRESS where it fails on the link. -/
def State.adminWrite (s : State) (dest : Nat) (data : List Byte) : LinkResult → AdminOut
  | .ok => { status := asOk, next := s.hostWrite dest data }
  | .busError => refuse s asAddress

/-- READ_CONTEXT: the record as one snapshot. -/
def readContext (w : World) (r : LinkResult) (d : List Byte) (s : State) : AdminOut :=
  let c := fieldAt d 8 2
  let dest := fieldAt d 16 8
  if !bitAt (s.fn w).accepted 9 then refuse s asFeature
  else if !zeroRuns d [(10, 6), (24, 40)] || 16384 ≤ c || dest % 64 ≠ 0 then refuse s asBadField
  else if s.ctxWorld c ≠ some w then refuse s asWrongWorld
  else s.adminWrite dest (s.recordBytes c) r

/-- READ_CONTEXT. -/
def execReadContext (fn : World) (r : LinkResult) (s : State) : Result := .next (s.adminRun fn 0x24 (readContext fn r))

/-- The bitmap of the contexts of a world in the states of a mask: 2,048 bytes. -/
def State.ctxBitmap (s : State) (w : World) (mask : Nat) : List Byte :=
  (List.range 2048).map (fun i => BitVec.ofNat 8 (((List.range 8).map (fun b =>
    if s.ctxWorld (8 * i + b) = some w && bitAt mask (s.ctx (8 * i + b)).state.code then 2 ^ b else 0)).sum))

/-- LIST_CONTEXTS. -/
def listContexts (w : World) (r : LinkResult) (d : List Byte) (s : State) : AdminOut :=
  if !bitAt (s.fn w).accepted 9 then refuse s asFeature
  else if !zeroRuns d [(8, 8), (25, 39)] then refuse s asBadField
  else s.adminWrite (fieldAt d 16 8) (s.ctxBitmap w (fieldAt d 24 1)) r

/-- LIST_CONTEXTS. -/
def execListContexts (fn : World) (r : LinkResult) (s : State) : Result := .next (s.adminRun fn 0x25 (listContexts fn r))

/-! ### Lanes (R31, R275) -/

/-- The members that a lane command names, ports then drives, or why it names none. -/
def State.laneMembers (s : State) (w : World) (d : List Byte) : Except Nat (List Nat × List Nat) :=
  let l := fieldAt d 8 1
  let m := fieldAt d 10 2
  let n := m % 256
  let drive := bitAt m 15
  if !zeroRuns d [(9, 1), (12, 52)] then .error asBadField
  else if l = 0xFF then
    if bits m 8 7 ≠ 0 || drive && 64 ≤ n then .error asBadField
    else if (if drive then s.driveWorld n else s.portWorld n) ≠ some w then .error asWrongWorld
    else if (if drive then s.driveLane n else s.portLane n).isSome then .error asBadField
    else .ok (if drive then ([], [n]) else ([n], []))
  else if 128 ≤ l || m ≠ 0 then .error asBadField
  else if !s.laneHolds w l then .error asWrongWorld
  else
    let x := Tbl.get ({} : LaneCfg) s.img.lanes l
    .ok ((s.worldPorts w).filter (fun n => bitAt x.ports n), (s.worldDrives w).filter (fun n => bitAt x.drives n))

/-- LANE_SAFE. -/
def laneSafe (w : World) (d : List Byte) (s : State) : AdminOut :=
  match s.laneMembers w d with
  | .error a => refuse s a
  | .ok (ps, ds) =>
    { status := asOk, next := ds.foldl (fun t n => t.driveSafeIn n) (ps.foldl (fun t n => t.portMemberSafe n) s) }

/-- LANE_SAFE. -/
def execLaneSafe (fn : World) (s : State) : Result := .next (s.adminRun fn 0x30 (laneSafe fn))

/-- LANE_RELEASE. -/
def laneRelease (w : World) (d : List Byte) (s : State) : AdminOut :=
  if s.builtinServed w then refuse s asDenied
  else match s.laneMembers w d with
  | .error a => refuse s a
  | .ok (ps, ds) =>
    { status := asOk, next := ds.foldl (fun t n => t.driveSafeOut n) (ps.foldl (fun t n => t.portMemberRelease n) s) }

/-- LANE_RELEASE. -/
def execLaneRelease (fn : World) (s : State) : Result := .next (s.adminRun fn 0x31 (laneRelease fn))

/-! ### The tail doorbell (R112, R253, R254, R259) -/

/-- A write of a submission queue tail doorbell; RESUME acts on every context bound from the queue. -/
def State.sqTailWrite (s : State) (fn : World) (q v : Nat) : State :=
  let r := s.sqDoorbell fn q v
  if r.1 then
    (r.2.worldCtxs fn).foldl (fun t c =>
      let x := t.ctx c
      if x.state ≠ .free && x.sq = q && !x.orphaned && !t.isResident c && !t.isProbe c then t.resumeOp c false else t) r.2
  else r.2

/-- SQ_TAIL_DOORBELL. -/
def execSqTailDoorbell (fn : World) (q : Nat) (v : W32) (s : State) : Result := .next (s.sqTailWrite fn q v.toNat)

/-- DOORBELL_INV: the write with its INV flag. -/
def execDoorbellInv (fn : World) (q : Nat) (v : W32) (s : State) : Result := .next (s.sqTailWrite fn q v.toNat)

/-- DOORBELL_RESUME: the write with its RESUME flag. -/
def execDoorbellResume (fn : World) (q : Nat) (v : W32) (s : State) : Result := .next (s.sqTailWrite fn q v.toNat)

end Sys2Proof.Machine
end

