-- ==== Sys2Proof/Machine/Alu.lean ====
section
/-! DEFINITION. The arithmetic, logic, compare, immediate and field instructions (R130 to R132). -/
namespace Sys2Proof.Machine

/-- An instruction that computes rd from ra and rb (R130). -/
def State.aluOp (s : State) (c : Nat) (f : FmtA) (op : W64 → W64 → W64) : State :=
  s.instr c anyPlace (fun t x => retireW t f.rd (op (x.g f.ra) (x.g f.rb)))

/-- An instruction that computes rd from ra alone; rb is g0 (R128, R130). -/
def State.unaryOp (s : State) (c : Nat) (f : FmtA) (op : W64 → W64) : State :=
  s.instr c anyPlace (fun t x => legal (f.rb = 0) t (retireW t f.rd (op (x.g f.ra))))

/-- An instruction that may overflow or divide by zero (R131). -/
def State.arithOp (s : State) (c : Nat) (f : FmtA) (op : W64 → W64 → Arith) : State :=
  s.instr c anyPlace (fun t x => arithStep t x f.rd (op (x.g f.ra) (x.g f.rb)))

/-- An instruction that computes rd from ra and an immediate (R132). -/
def State.immOp (s : State) (c : Nat) (f : FmtI) (op : W64 → BitVec 16 → W64) : State :=
  s.instr c anyPlace (fun t x => retireW t f.rd (op (x.g f.ra) f.imm))

/-- A shift by an immediate (R132). -/
def State.shiftOp (s : State) (c : Nat) (rd ra : Reg) (rsv : BitVec 8) (op : W64 → W64) : State :=
  s.instr c anyPlace (fun t x => legal (rsv = 0) t (retireW t rd (op (x.g ra))))

/-- The low six bits of a shift amount (R130). -/
def amount6 (b : W64) : Nat := b.toNat % 64

/-- A field of a register, zero-extended or sign-extended (R132). -/
def extField (v : W64) (pos len : Nat) (sx : Bool) : W64 :=
  let x := bits v.toNat pos len
  if sx then BitVec.ofInt 64 (signed len x) else BitVec.ofNat 64 x

/-- EXTU and EXTS, which S tells apart; pos + len above 64 is illegal (R132). -/
def State.extOp (s : State) (c : Nat) (f : FmtF) : State :=
  let len := f.len1.toNat + 1
  s.instr c anyPlace (fun t x => legal (f.rsv = 0 && f.pos.toNat + len ≤ 64) t
    (retireW t f.rd (extField (x.g f.ra) f.pos.toNat len f.s)))

/-- A register with a field replaced. -/
def insField (d v : W64) (pos len : Nat) : W64 :=
  BitVec.ofNat 64 (d.toNat - bits d.toNat pos len * 2 ^ pos + bits v.toNat 0 len * 2 ^ pos)

/-- AND (R130). -/
def execAnd (c : Nat) (f : FmtA) (s : State) : Result := .next (s.aluOp c f (fun a b => a &&& b))

/-- OR (R130). -/
def execOr (c : Nat) (f : FmtA) (s : State) : Result := .next (s.aluOp c f (fun a b => a ||| b))

/-- XOR (R130). -/
def execXor (c : Nat) (f : FmtA) (s : State) : Result := .next (s.aluOp c f (fun a b => a ^^^ b))

/-- ANDN (R130). -/
def execAndn (c : Nat) (f : FmtA) (s : State) : Result := .next (s.aluOp c f (fun a b => a &&& ~~~b))

/-- NOR (R130). -/
def execNor (c : Nat) (f : FmtA) (s : State) : Result := .next (s.aluOp c f (fun a b => ~~~(a ||| b)))

/-- SLL (R130). -/
def execSll (c : Nat) (f : FmtA) (s : State) : Result := .next (s.aluOp c f (fun a b => a <<< amount6 b))

/-- SRL (R130). -/
def execSrl (c : Nat) (f : FmtA) (s : State) : Result := .next (s.aluOp c f (fun a b => a >>> amount6 b))

/-- SRA (R130). -/
def execSra (c : Nat) (f : FmtA) (s : State) : Result := .next (s.aluOp c f (fun a b => a.sshiftRight (amount6 b)))

/-- ROTR (R130). -/
def execRotr (c : Nat) (f : FmtA) (s : State) : Result := .next (s.aluOp c f (fun a b => a.rotateRight (amount6 b)))

/-- MIN (R130). -/
def execMin (c : Nat) (f : FmtA) (s : State) : Result := .next (s.aluOp c f (fun a b => if a.toInt ≤ b.toInt then a else b))

/-- MAX (R130). -/
def execMax (c : Nat) (f : FmtA) (s : State) : Result := .next (s.aluOp c f (fun a b => if a.toInt ≤ b.toInt then b else a))

/-- MINU (R130). -/
def execMinu (c : Nat) (f : FmtA) (s : State) : Result := .next (s.aluOp c f (fun a b => if a.toNat ≤ b.toNat then a else b))

/-- MAXU (R130). -/
def execMaxu (c : Nat) (f : FmtA) (s : State) : Result := .next (s.aluOp c f (fun a b => if a.toNat ≤ b.toNat then b else a))

/-- MULH (R130). -/
def execMulh (c : Nat) (f : FmtA) (s : State) : Result := .next (s.aluOp c f (fun a b => BitVec.ofInt 64 ((a.toInt * b.toInt).fdiv (2 ^ 64))))

/-- MULHU (R130). -/
def execMulhu (c : Nat) (f : FmtA) (s : State) : Result := .next (s.aluOp c f (fun a b => BitVec.ofNat 64 (a.toNat * b.toNat / 2 ^ 64)))

/-- CEQ (R130). -/
def execCeq (c : Nat) (f : FmtA) (s : State) : Result := .next (s.aluOp c f (fun a b => bit64 (a = b)))

/-- CNE (R130). -/
def execCne (c : Nat) (f : FmtA) (s : State) : Result := .next (s.aluOp c f (fun a b => bit64 (a ≠ b)))

/-- CLT (R130). -/
def execClt (c : Nat) (f : FmtA) (s : State) : Result := .next (s.aluOp c f (fun a b => bit64 (a.toInt < b.toInt)))

/-- CLTU (R130). -/
def execCltu (c : Nat) (f : FmtA) (s : State) : Result := .next (s.aluOp c f (fun a b => bit64 (a.toNat < b.toNat)))

/-- CLE (R130). -/
def execCle (c : Nat) (f : FmtA) (s : State) : Result := .next (s.aluOp c f (fun a b => bit64 (a.toInt ≤ b.toInt)))

/-- CLEU (R130). -/
def execCleu (c : Nat) (f : FmtA) (s : State) : Result := .next (s.aluOp c f (fun a b => bit64 (a.toNat ≤ b.toNat)))

/-- CBEF32 (R130). -/
def execCbef32 (c : Nat) (f : FmtA) (s : State) : Result := .next (s.aluOp c f (fun a b => bit64 (before32 a b)))

/-- ADD (R130, R131). -/
def execAdd (c : Nat) (f : FmtA) (s : State) : Result := .next (s.arithOp c f addA)

/-- SUB (R130, R131). -/
def execSub (c : Nat) (f : FmtA) (s : State) : Result := .next (s.arithOp c f subA)

/-- MUL (R130, R131). -/
def execMul (c : Nat) (f : FmtA) (s : State) : Result := .next (s.arithOp c f mulA)

/-- DIV (R130, R131). -/
def execDiv (c : Nat) (f : FmtA) (s : State) : Result := .next (s.arithOp c f divA)

/-- DIVU (R130, R131). -/
def execDivu (c : Nat) (f : FmtA) (s : State) : Result := .next (s.arithOp c f divuA)

/-- REM (R130, R131). -/
def execRem (c : Nat) (f : FmtA) (s : State) : Result := .next (s.arithOp c f remA)

/-- REMU (R130, R131). -/
def execRemu (c : Nat) (f : FmtA) (s : State) : Result := .next (s.arithOp c f remuA)

/-- CLZ (R130). -/
def execClz (c : Nat) (f : FmtA) (s : State) : Result := .next (s.unaryOp c f (fun a => BitVec.ofNat 64 (clz64 a)))

/-- POPC (R130). -/
def execPopc (c : Nat) (f : FmtA) (s : State) : Result := .next (s.unaryOp c f (fun a => BitVec.ofNat 64 (popc64 a)))

/-- BSWAP (R130). -/
def execBswap (c : Nat) (f : FmtA) (s : State) : Result := .next (s.unaryOp c f bswap64)

/-- ADDI (R131, R132). -/
def execAddi (c : Nat) (f : FmtI) (s : State) : Result :=
  .next (s.instr c anyPlace (fun t x => arithStep t x f.rd (addA (x.g f.ra) (sext64 f.imm))))

/-- ANDI (R132). -/
def execAndi (c : Nat) (f : FmtI) (s : State) : Result := .next (s.immOp c f (fun a i => a &&& i.setWidth 64))

/-- ORI (R132). -/
def execOri (c : Nat) (f : FmtI) (s : State) : Result := .next (s.immOp c f (fun a i => a ||| i.setWidth 64))

/-- XORI (R132). -/
def execXori (c : Nat) (f : FmtI) (s : State) : Result := .next (s.immOp c f (fun a i => a ^^^ i.setWidth 64))

/-- CEQI (R132). -/
def execCeqi (c : Nat) (f : FmtI) (s : State) : Result := .next (s.immOp c f (fun a i => bit64 (a = sext64 i)))

/-- CLTI (R132). -/
def execClti (c : Nat) (f : FmtI) (s : State) : Result := .next (s.immOp c f (fun a i => bit64 (a.toInt < i.toInt)))

/-- CLTUI (R132). -/
def execCltui (c : Nat) (f : FmtI) (s : State) : Result := .next (s.immOp c f (fun a i => bit64 (a.toNat < i.toNat)))

/-- SETH: the ra field holds k and three reserved bits (R132). -/
def execSeth (c : Nat) (f : FmtI) (s : State) : Result :=
  .next (s.instr c anyPlace (fun t x => legal (f.ra.val < 4) t
    (retireW t f.rd (insField (x.g f.rd) (f.imm.setWidth 64) (16 * (f.ra.val % 4)) 16))))

/-- SLLI (R132). -/
def execSlli (c : Nat) (rd ra : Reg) (rsv : BitVec 8) (amount : BitVec 6) (s : State) : Result :=
  .next (s.shiftOp c rd ra rsv (fun a => a <<< amount.toNat))

/-- SRLI (R132). -/
def execSrli (c : Nat) (rd ra : Reg) (rsv : BitVec 8) (amount : BitVec 6) (s : State) : Result :=
  .next (s.shiftOp c rd ra rsv (fun a => a >>> amount.toNat))

/-- SRAI (R132). -/
def execSrai (c : Nat) (rd ra : Reg) (rsv : BitVec 8) (amount : BitVec 6) (s : State) : Result :=
  .next (s.shiftOp c rd ra rsv (fun a => a.sshiftRight amount.toNat))

/-- ROTRI (R132). -/
def execRotri (c : Nat) (rd ra : Reg) (rsv : BitVec 8) (amount : BitVec 6) (s : State) : Result :=
  .next (s.shiftOp c rd ra rsv (fun a => a.rotateRight amount.toNat))

/-- EXTU (R132). -/
def execExtu (c : Nat) (f : FmtF) (s : State) : Result := .next (s.extOp c f)

/-- EXTS (R132). -/
def execExts (c : Nat) (f : FmtF) (s : State) : Result := .next (s.extOp c f)

/-- INS (R132). -/
def execIns (c : Nat) (f : FmtF) (s : State) : Result :=
  .next (s.instr c anyPlace (fun t x => legal (!f.s && f.rsv = 0 && f.pos.toNat + f.len1.toNat + 1 ≤ 64) t
    (retireW t f.rd (insField (x.g f.rd) (x.g f.ra) f.pos.toNat (f.len1.toNat + 1)))))

end Sys2Proof.Machine
end

