-- ==== Sys2Proof/Machine/Faults.lean ====
section
/-! DEFINITION. The commands of the Fault Collector and of the power monitor, and the registers of the Fault Collector
and the Cellar (chapter 13). -/
namespace Sys2Proof.Machine

/-- FAULT_MESSAGE: the Fault Collector takes the oldest message that waits, or one that a block sends now (R464). -/
def execFaultMessage (ext : Option (W64 × Option Nat)) (s : State) : Result :=
  match ext with
  | some (m, ctx) => .next (s.enterViews m ctx true)
  | none => .next s.takeReport

/-- ERR_PULSE_END: not before 10 µs after the latest severe event (R468). -/
def execErrPulseEnd (s : State) : Result :=
  if s.fc.pulse && s.fc.pulseAt + 10000 ≤ s.now then .next { s with fc := { s.fc with pulse := false } } else .next s

/-- The record after a clear that takes: its first message stays readable (R470). -/
def FaultRec.cleared (r : FaultRec) : FaultRec :=
  { r with active := false, severe := false, merged := false, mixed := false, count := 0, levels := [],
           winStart := 0, winCount := 0 }

/-- The view after a clear of a record: refused while a cause of the record persists (R470). -/
def View.clear (v : View) (src : Nat) (present : Bool) : View :=
  if present then { v with clearRefused := true } else { v with recs := Tbl.upd {} v.recs src FaultRec.cleared }

/-- A write of FC_SRC_STAT by a function's host, or, with no function named, Vyesque firmware's clear of a record of the
Study view (R463, R470). -/
def State.recordWrite (s : State) (view : Option World) (src v : Nat) : State :=
  if src < 256 && bitAt v 0 then
    match view with
    | some fn =>
      if s.done then
        { s with fc := { s.fc with views := s.fc.views.upd fn (fun x => x.clear src (s.causePresent (some fn) src)) } }
      else s
    | none => { s with fc := { s.fc with study := s.fc.study.clear src (s.causePresent none src) } }
  else s

/-- RECORD_CLEAR. -/
def execRecordClear (view : Option World) (src : Nat) (v : W32) (s : State) : Result :=
  .next (s.recordWrite view src v.toNat)

/-- A message entered through FC_INJECT (R471). -/
def State.inject (s : State) (fn : World) (m : W64) : State :=
  if s.done then
    if s.flint.lifecycle = 0 then s.enterViews (m ||| (1 <<< 62 : W64)) none true
    else { s with fc := { s.fc with views := s.fc.views.upd fn (fun x => { x with injectDenied := true }) } }
  else s

/-- FAULT_INJECT: the write of the high word; the low word is the one held (R11, R471). -/
def execFaultInject (fn : World) (hi : W32) (s : State) : Result :=
  .next (s.inject fn (BitVec.ofNat 64 (hi.toNat * 2 ^ 32 + (Tbl.get 0 (s.fn fn).heldLow 0x500018).toNat)))

/-- A write of FC_ERR_HOLD (R469). -/
def State.errHoldSet (s : State) (fn : World) (v : Nat) : State :=
  if s.done then { s with fc := { s.fc with hold := s.fc.hold.set fn (bitAt v 0) } } else s

/-- ERR_HOLD_WRITE. -/
def execErrHoldWrite (fn : World) (v : W32) (s : State) : Result := .next (s.errHoldSet fn v.toNat)

/-- STUDY_HOLD_SET: Vyesque firmware sets the Study hold for a severe event that pulsed ERR_N while neither world was
HOSTED (R469). -/
def execStudyHoldSet (s : State) : Result :=
  .next (if s.fc.holdDue then { s with fc := { s.fc with studyHold := true, holdDue := false } } else s)

/-- SAVE_ARMED: HOLDUP reaches 8.0 V (R480). -/
def execSaveArmed (milliV : Nat) (s : State) : Result :=
  .next (if 8000 ≤ milliV ∧ s.powered then { s with pw := { s.pw with holdupMv := milliV % 65536, ready := true } } else s)

/-- SAVE_DISARMED: HOLDUP falls below 8.0 V while the device runs (R480). -/
def execSaveDisarmed (milliV : Nat) (s : State) : Result :=
  .next (if milliV < 8000 ∧ s.powered then { s with pw := { s.pw with holdupMv := milliV, ready := false } } else s)

/-! ### Registers -/

/-- The bytes of a history entry (R475). -/
def Hist.bytes (h : Hist) : List Byte :=
  let info := (match h.ctx with
      | some c => c % 16384 + 2 ^ 14
      | none => 0) + bnat h.merged * 2 ^ 15 + bnat h.madeSevere * 2 ^ 16
  leBytes 8 h.msg.toNat ++ leBytes 8 h.time ++ leBytes 4 info ++ leBytes 4 h.count ++ leBytes 8 0

/-- FC_SRC_CFG of a source (R473). -/
def FaultCfg.word (c : FaultCfg) : Nat := c.n + c.wMs * 2 ^ 8 + bnat c.noErr * 2 ^ 24

/-- FC_STATUS of a function (R474). -/
def State.fcStatus (s : State) (fn : World) : Nat :=
  let v := s.fc.views.get fn
  bnat (v.recs.any (fun p => p.2.active)) + 2 * bnat (v.recs.any (fun p => p.2.severe)) + 4 * bnat s.errLow
    + 8 * bnat s.fc.pulse + 16 * bnat v.clearRefused + 32 * bnat v.injectDenied + 64 * bnat s.fc.graniteHalt
    + 128 * bnat (s.flint.lifecycle = 0)

/-- FC_SRC_STAT of a source (R474). -/
def State.srcStat (s : State) (fn : World) (src : Nat) : Nat :=
  let r := Tbl.get {} (s.fc.views.get fn).recs src
  bnat r.active + 2 * bnat r.severe + 4 * bnat r.merged + 8 * bnat r.mixed + 16 * bnat (s.causePresent (some fn) src)
    + msgKind r.first * 2 ^ 8 + r.count * 2 ^ 16

/-- The word that a 32-bit read of the Fault Collector or Cellar block returns (R473, R492). -/
def State.fcRead (s : State) (fn : World) (off : Nat) : Nat :=
  let v := s.fc.views.get fn
  let half := fun (x : Nat) => if off % 8 = 0 then x % 2 ^ 32 else x / 2 ^ 32 % 2 ^ 32
  let cl := s.cellar
  if off = 0x500000 then s.fcStatus fn
  else if off = 0x500004 then
    bnat (s.fc.hold.get fn) + 2 * bnat (s.fc.hold.get fn.other) + 4 * bnat s.fc.studyHold
  else if off = 0x500008 then v.vec + bnat v.onSevere * 2 ^ 16 + bnat v.onEvent * 2 ^ 17
  else if off = 0x50000C then v.histSeq
  else if off = 0x500010 then v.eventCnt
  else if off = 0x500014 then v.histLost
  else if 0x500100 ≤ off ∧ off < 0x500500 then
    fieldAt (Tbl.get ({} : Hist) v.hist ((off - 0x500100) / 32)).bytes ((off - 0x500100) % 32) 4
  else if 0x501000 ≤ off ∧ off < 0x503000 then
    let src := (off - 0x501000) / 32
    let r := Tbl.get ({} : FaultRec) v.recs src
    match off % 32 / 4 with
    | 0 => s.srcStat fn src
    | 1 => (Tbl.get ({} : FaultCfg) s.fc.cfg src).word
    | 2 | 3 => half r.first.toNat
    | 4 | 5 => half r.tFirst
    | 6 | 7 => half r.tLast
    | _ => 0
  else if off = 0x504000 then
    cl.slotA + 4 * cl.slotB + 16 * bnat cl.newestB + 32 * bnat cl.conflict + 64 * bnat cl.restored
      + 128 * bnat cl.foreign + 256 * bnat cl.partSlot + 512 * bnat cl.noValid + 1024 * bnat cl.startWritten
      + 2048 * bnat (s.pw.phase = .running)
  else if off = 0x504004 then s.pw.holdupMv + bnat s.pw.ready * 2 ^ 16
  else if off = 0x504008 ∨ off = 0x50400C then half cl.seq
  else if off = 0x504010 then cl.saveUs + cl.omitted * 2 ^ 16
  else if off = 0x504014 then cl.lostStatus
  else 0

/-- A 32-bit write to the Fault Collector block, FC_INJECT apart. -/
def State.fcWrite (s : State) (fn : World) (off : Nat) (v : W32) : State :=
  let setView := fun (f : View → View) => { s with fc := { s.fc with views := s.fc.views.upd fn f } }
  if off = 0x500000 then setView (fun x =>
    { x with clearRefused := x.clearRefused && !bitAt v.toNat 4, injectDenied := x.injectDenied && !bitAt v.toNat 5 })
  else if off = 0x500004 then s.errHoldSet fn v.toNat
  else if off = 0x500008 then setView (fun x =>
    { x with vec := v.toNat % 65536, onSevere := bitAt v.toNat 16, onEvent := bitAt v.toNat 17 })
  else if 0x501000 ≤ off ∧ off < 0x503000 ∧ off % 32 = 0 then s.recordWrite (some fn) ((off - 0x501000) / 32) v.toNat
  else s

end Sys2Proof.Machine
end

