-- ==== Sys2Proof/Machine/Pantry.lean ====
section
/-! DEFINITION. The commands of the Pantry channels and of the host window translation, BAR2, and the PN registers
(R234, R339 to R356). -/
namespace Sys2Proof.Machine

/-- Six clocks of a channel in ns, by the code of its data rate (R336, R339). -/
def sixClocks (rate : Nat) : Nat := match rate with
  | 0 => 7
  | 1 => 10
  | 2 => 12
  | _ => 15

/-- The REFRESH commands of a channel that lie at most 6 clocks back, oldest first (R339). -/
def State.pnRecent (s : State) (ch : Nat) : List (Nat × Nat × Nat) :=
  (Tbl.get [] s.pantry.issued ch).filter (fun x => s.now ≤ x.1 + sixClocks s.img.rate)

/-- PN_ALERT: the alert is counted, and the controller repeats what it issued in the last 6 clocks, in order. A repeated READ or WRITE
changes nothing, and only a device sees it; the REFRESH words go out again (R339, log 149). -/
def execPnAlert (ch : Nat) (s : State) : Result :=
  .next (if s.pantry.trained.contains ch then
    let again := (s.pnRecent ch).map (fun x => (s.now, x.2))
    again.foldl (fun t x => t.emit (.pnCommand ch x.2.1 x.2.2)) (s.modPn (fun p => { p with
      caErr := Tbl.upd 0 p.caErr ch satInc32, issued := Tbl.put [] p.issued ch again }))
  else s)

/-- REFRESH: the next bank and row of a device is refreshed, in turn over 16 banks and 2^17 rows, with the command word of R339
(R341). -/
def execRefresh (ch dev : Nat) (s : State) : Result :=
  let n := Tbl.get 0 s.pantry.refresh (2 * ch + dev)
  let w := pnCommand 3 (n % 16) (n / 16 * 8)
  .next (if s.pantry.trained.contains ch ∧ dev < s.img.devices then
    (s.modPn (fun p => { p with
      refresh := Tbl.put 0 p.refresh (2 * ch + dev) ((n + 1) % 2 ^ 21)
      issued := Tbl.put [] p.issued ch (s.pnRecent ch ++ [(s.now, dev, w)]) })).emit (.pnCommand ch dev w)
  else s)

/-- SCRUB: unless a debug halt is in force, the scrubber reads the next burst of announced capacity and corrects it (R345, R347). -/
def execScrub (s : State) : Result :=
  if s.pantry.scrubActive && 0 < s.img.cap && !s.qz.debugHalt then
    let b := s.pantry.scrubBurst
    let s1 := match s.pnJudge b with
      | .uncorrectable => s.pnUncorrectable b
      | .corrected => s.pnCorrected b
      | .clean => s
    let last := s.img.cap / 32 ≤ b + 1
    .next (s1.modPn (fun p => { p with
      scrubBurst := if last then 0 else b + 1
      scrubCnt := if last then satInc32 p.scrubCnt else p.scrubCnt }))
  else .next s

/-- Commit a translation entry at PN_XLAT_IDX (R352). -/
def State.xlatCommit (s : State) (fn : World) (v : Nat) : State :=
  if s.done then
    let i := s.pantry.xlatIdx.get fn
    if s.pageWorld i ≠ some fn ∨ bits v 5 16 ≠ 0 then
      s.modPn (fun p => { p with rejected := p.rejected.set fn true })
    else
      let old := s.xlatOf i
      let new := bits v 0 3 + v / pageBytes % 2 ^ 43 * pageBytes
      s.modPn (fun p => { p with
        xlat := Tbl.put 0 p.xlat i (BitVec.ofNat 64 new)
        xlatBad := p.xlatBad.filter (fun j => j != i)
        rejected := p.rejected.set fn false
        busy := if bitAt old 0 ∧ new ≠ old then p.busy.set fn true else p.busy })
  else s

/-- XLAT_COMMIT: the write of the high word of PN_XLAT_DATA; the low word is the one held (R11, R352). -/
def execXlatCommit (fn : World) (hi : W32) (s : State) : Result :=
  .next (s.xlatCommit fn (hi.toNat * 2 ^ 32 + (Tbl.get 0 (s.fn fn).heldLow 0x700018).toNat))

/-- XLAT_DRAIN_DONE: every access through the old entry has completed (R352). -/
def execXlatDrainDone (fn : World) (s : State) : Result :=
  .next (s.modPn (fun p => { p with busy := p.busy.set fn false }))

/-- The translation entry at PN_XLAT_IDX as it reads: 0 for a page of the other world (R351, R355). -/
def State.xlatRead (s : State) (fn : World) : Nat :=
  let i := s.pantry.xlatIdx.get fn
  match s.pageWorld i with
  | some w => if w = fn then s.xlatOf i + 8 + 16 * w.bit else 0
  | none => 0

/-- The word that a 32-bit read of the Pantry block returns (R355, R356). -/
def State.pnRead (s : State) (fn : World) (off : Nat) : Nat :=
  let p := s.pantry
  let half := fun (x : Nat) => if off % 8 = 0 then x % 2 ^ 32 else x / 2 ^ 32 % 2 ^ 32
  let chans := fun (l : List Nat) => ((List.range 4).map (fun i => if l.contains i then 2 ^ i else 0)).sum
  if off = 0x700000 then s.img.chMask + 16 * bnat (s.img.devices = 2) + 32 * s.img.rate + 128 * bnat s.img.strong
  else if off = 0x700004 then chans p.trained + 16 * chans p.failed + 256 * bnat p.scrubActive
  else if off = 0x700008 ∨ off = 0x70000C then half s.img.cap
  else if off = 0x700010 then p.xlatIdx.get fn
  else if off = 0x700014 then bnat (p.busy.get fn) + 2 * bnat (p.rejected.get fn)
  else if off = 0x700018 ∨ off = 0x70001C then half (s.xlatRead fn)
  else if off = 0x700020 ∨ off = 0x700024 then half (p.errAddr.get fn)
  else if off = 0x700028 then p.scrubCnt
  else if off = 0x70002C then s.img.hostPages
  else if 0x700040 ≤ off ∧ off < 0x700080 then
    let i := (off - 0x700040) / 16
    match off % 16 / 4 with
    | 0 => Tbl.get 0 p.corr i
    | 1 => Tbl.get 0 p.uncorr i
    | 2 => Tbl.get 0 p.train i
    | _ => Tbl.get 0 p.caErr i
  else 0

/-- A 32-bit write to the Pantry block, PN_XLAT_DATA apart. -/
def State.pnRegWrite (s : State) (fn : World) (off : Nat) (v : W32) : State :=
  if off = 0x700010 then s.modPn (fun p => { p with xlatIdx := p.xlatIdx.set fn (v.toNat % 2 ^ 17) }) else s

/-- Whether a BAR2 access reaches Pantry: every byte in a Pantry region of the function's world, below capacity and
4 GiB (R234). -/
def State.bar2Ok (s : State) (fn : World) (off len : Nat) : Bool :=
  (s.wcfg fn).bar2 && off + len ≤ windowBase &&
    (List.range (len / 65536 + 2)).all (fun i =>
      let a := Nat.min (off + 65536 * i) (off + len - 1)
      len = 0 || s.regionWorld a = some fn)

/-- The bytes of a BAR2 read: those of an uncorrectable burst are free values (log 7). -/
def State.bar2Bytes (s : State) (off len : Nat) (free : W64) : List Byte :=
  (List.range len).map (fun i =>
    if s.pnBad ((off + i) / 32) then free.setWidth 8 else Memory.byte 0 s.pantry.mem (off + i))

/-- BAR2_ACCESS: a read, or a write of data; refused whole and recorded where a byte does not qualify (R234). -/
def execBar2Access (fn : World) (off len : Nat) (data : Option (List Byte)) (s : State) : Result :=
  let n := match data with
    | some d => d.length
    | none => len
  if !s.powered then .next s
  else if s.bar2Ok fn off n then
    match data with
    | some d => .next ((s.countWorld fn 12 n).pnWrite off d)
    | none =>
      let r := (s.countWorld fn 12 n).pnCheck off n
      if r.1 then .next (r.2.emit (.readBytes (r.2.pnBytes off n)))
      else
        let f := r.2.takeFree
        .next (f.2.emit (.readBytes (f.2.bar2Bytes off n f.1)))
  else
    let s1 := s.report (faultMsg 93 fn.bit 0x05 off (some fn) false)
    .next (match data with
      | some _ => s1
      | none => s1.emit (.readBytes (List.replicate n 0)))

end Sys2Proof.Machine
end

