-- ==== Sys2Proof/Machine/Granite.lean ====
section
/-! DEFINITION. The Granite control words and their three copies (R476, R477). The state lists the copies of a word only while they
are not three good copies of the value in force; how the words are numbered is the model's choice (log 81). -/
namespace Sys2Proof.Machine

/-- Word j of a map. -/
def wordOf (m j : Nat) : Nat := bits m (32 * j) 32

/-- A map with word j replaced. -/
def wordPut (m j v : Nat) : Nat := m + v * 2 ^ (32 * j) - wordOf m j * 2 ^ (32 * j)

/-- A Granite control word: how it is read from what the image fixed, and how it is replaced. -/
structure ControlWord where
  read : State → Nat
  put : Nat → State → State

/-- A word of a field of the configuration. -/
def imgWord (get : ImageCfg → Nat) (set : Nat → ImageCfg → ImageCfg) (j : Nat) : ControlWord where
  read s := wordOf (get s.img) j
  put v s := { s with img := set (wordPut (get s.img) j v) s.img }

/-- A word of a field of Granite's configuration. -/
def graniteCfgWord (get : WorldCfg → Nat) (set : Nat → WorldCfg → WorldCfg) (j : Nat) : ControlWord where
  read s := wordOf (get (s.wcfg .granite)) j
  put v s := s.modWcfg .granite (fun c => set (wordPut (get c) j v) c)

/-- No word has that number. -/
def noWord : ControlWord where
  read _ := 0
  put _ s := s

/-- The value of a region as the words of its entry. -/
def Region.entry (r : Region) : Nat := r.base + r.len * 2 ^ 64 + (r.world.bit + 1) * 2 ^ 96

/-- A region from the words of its entry. -/
def Region.ofEntry (n : Nat) : Region := { base := bits n 0 64, len := bits n 64 32, world := World.ofBit (bits n 96 32 = 2) }

/-- The value of a stream window as the words of its entry. -/
def Window.entry (x : Window) : Nat := x.first + x.count * 2 ^ 32 + (x.world.bit + 1) * 2 ^ 56

/-- A stream window from the words of its entry. -/
def Window.ofEntry (n : Nat) : Window := { first := bits n 0 32, count := bits n 32 24, world := World.ofBit (bits n 56 8 = 2) }

/-- The words of ASSIGN, numbered as they stand in its body (R501): the maps, DEBUG_SLATE, the partner addresses and the regions. -/
def assignWord (i : Nat) : ControlWord :=
  if i < 16 then imgWord (·.portMap) (fun v g => { g with portMap := v }) i
  else if i < 20 then imgWord (·.driveMap) (fun v g => { g with driveMap := v }) (i - 16)
  else if i < 84 then imgWord (·.cmpMap) (fun v g => { g with cmpMap := v }) (i - 20)
  else if i = 84 then imgWord (·.mbMap) (fun v g => { g with mbMap := v }) 0
  else if i < 87 then imgWord (·.dwMap) (fun v g => { g with dwMap := v }) (i - 85)
  else if i = 87 then
    { read := fun s => bnat s.flint.debugSlate
      put := fun v s => { s with flint := { s.flint with debugSlate := bitAt v 0 } } }
  else if i < 1112 then imgWord (·.ctxMap) (fun v g => { g with ctxMap := v }) (i - 88)
  else if i < 1144 then
    imgWord (fun g => Tbl.get 0 g.mbAddr ((i - 1112) / 2)) (fun v g => { g with mbAddr := Tbl.put 0 g.mbAddr ((i - 1112) / 2) v })
      ((i - 1112) % 2)
  else if 1152 ≤ i && i < 5248 then
    imgWord (fun g => ((g.regions[(i - 1152) / 4]?).map Region.entry).getD 0)
      (fun v g => { g with regions := g.regions.set ((i - 1152) / 4) (Region.ofEntry v) }) ((i - 1152) % 4)
  else if 5248 ≤ i && i < 5760 then
    imgWord (fun g => ((g.windows[(i - 5248) / 2]?).map Window.entry).getD 0)
      (fun v g => { g with windows := g.windows.set ((i - 5248) / 2) (Window.ofEntry v) }) ((i - 5248) % 2)
  else noWord

/-- The words of Granite's HOST section (R250). -/
def hostWord (i : Nat) : ControlWord :=
  match i with
  | 0 => graniteCfgWord (·.sqShare) (fun v c => { c with sqShare := v }) 0
  | 1 => graniteCfgWord (·.cqShare) (fun v c => { c with cqShare := v }) 0
  | 2 => graniteCfgWord (·.msixCount) (fun v c => { c with msixCount := v }) 0
  | 3 => graniteCfgWord (·.maxLevel) (fun v c => { c with maxLevel := v }) 0
  | 4 => graniteCfgWord (·.flashMb) (fun v c => { c with flashMb := v }) 0
  | 5 => graniteCfgWord (·.wdogMs) (fun v c => { c with wdogMs := v }) 0
  | 6 => graniteCfgWord (fun c => bnat c.bar2) (fun v c => { c with bar2 := bitAt v 0 }) 0
  | 7 => graniteCfgWord (·.featureMask) (fun v c => { c with featureMask := v }) 0
  | _ => graniteCfgWord (fun c => Tbl.get 0 c.partner (i - 8)) (fun v c => { c with partner := Tbl.put 0 c.partner (i - 8) v }) 0

/-- The safe action, KEEP and the stop link of a drive as one word. -/
def DriveCfg.safeWord (c : DriveCfg) : Nat :=
  c.safeAction % 16 + 16 * bnat c.keep + 32 * bnat c.stopLevel + c.stopPin % 256 * 2 ^ 8 + c.stopPort % 65536 * 2 ^ 16

/-- The words of Granite drive n: MODE, and its safe word. -/
def driveWord (n i : Nat) : ControlWord :=
  let mod := fun (s : State) (f : DriveCfg → DriveCfg) =>
    if s.driveWorld n = some .granite then s.modDrive n (fun d => { d with cfg := f d.cfg }) else s
  if i = 0 then { read := fun s => if s.driveWorld n = some .granite then (s.drive n).cfg.mode else 0
                  put := fun v s => mod s (fun c => { c with mode := v }) }
  else { read := fun s => if s.driveWorld n = some .granite then (s.drive n).cfg.safeWord else 0
         put := fun v s => mod s (fun c =>
          { c with safeAction := bits v 0 4, keep := bitAt v 4, stopLevel := bitAt v 5, stopPin := bits v 8 8, stopPort := bits v 16 16 }) }

/-- The word of Granite port n: MODE. -/
def portModeWord (n : Nat) : ControlWord where
  read s := if s.portWorld n = some .granite then (s.port n).cfg.mode else 0
  put v s := if s.portWorld n = some .granite then s.modPort n (fun p => { p with cfg := { p.cfg with mode := v } }) else s

/-- The words of lane l, where Granite owns it: owner and cluster, its ports, its drives (R289). -/
def laneWord (l j : Nat) : ControlWord where
  read s :=
    let c := Tbl.get {} s.img.lanes l
    if c.owner ≠ 2 then 0
    else if j = 0 then c.owner + c.cluster * 2 ^ 8
    else if j < 9 then wordOf c.ports (j - 1)
    else if j < 11 then wordOf c.drives (j - 9) else 0
  put v s :=
    let c := Tbl.get {} s.img.lanes l
    let d := if c.owner ≠ 2 then c
      else if j = 0 then { c with owner := bits v 0 8, cluster := bits v 8 8 }
      else if j < 9 then { c with ports := wordPut c.ports (j - 1) v }
      else if j < 11 then { c with drives := wordPut c.drives (j - 9) v } else c
    { s with img := { s.img with lanes := Tbl.put {} s.img.lanes l d } }

/-- The Granite control words by number (R476). -/
def controlWord (i : Nat) : ControlWord :=
  if i < 8192 then assignWord i
  else if i < 10240 then laneWord ((i - 8192) / 16) ((i - 8192) % 16)
  else if i < 11264 then
    graniteCfgWord (fun c => Tbl.get 0 c.attrs (i - 10240)) (fun v c => { c with attrs := Tbl.put 0 c.attrs (i - 10240) v }) 0
  else if i < 11266 then graniteCfgWord (·.vbase) (fun v c => { c with vbase := v }) (i - 11264)
  else if i < 11268 then graniteCfgWord (·.frameBase) (fun v c => { c with frameBase := v }) (i - 11266)
  else if i = 11268 then graniteCfgWord (·.niMax) (fun v c => { c with niMax := v }) 0
  else if 11520 ≤ i && i < 11776 then
    graniteCfgWord (fun c => Tbl.get 0 c.gates (i - 11520)) (fun v c => { c with gates := Tbl.put 0 c.gates (i - 11520) v }) 0
  else if 11776 ≤ i && i < 12032 then portModeWord (i - 11776)
  else if 12032 ≤ i && i < 12160 then driveWord ((i - 12032) / 2) ((i - 12032) % 2)
  else if 12160 ≤ i && i < 12184 then hostWord (i - 12160)
  else noWord

/-- The three copies of a word. -/
def State.copiesOf (s : State) (i : Nat) : List CopyRead :=
  let c : CopyRead := { good := true, corrected := false, value := BitVec.ofNat 32 ((controlWord i).read s) }
  match Tbl.find s.fc.triples i with
  | some l => l
  | none => [c, c, c]

/-- The copies of a word stand as they are found. -/
def State.copiesSet (s : State) (i : Nat) (l : List CopyRead) : State :=
  { s with fc := { s.fc with triples := Tbl.put [] s.fc.triples i l } }

/-- A vote has answered a value: it is the value used, and all three copies hold it (R477). -/
def State.wordVoted (s : State) (i : Nat) (v : W32) : State :=
  let t := s.copiesSet i []
  if v.toNat = (controlWord i).read s then t else (controlWord i).put v.toNat t

/-! ### The vote (R477) -/

/-- What a vote over three copies answers. -/
inductive Vote where
  | clean
  | corrected
  | repaired
  | unvotable
  deriving DecidableEq, Repr

/-- The vote: the copies that read good after correction decide. -/
def voteOf (l : List CopyRead) : Vote :=
  match l.filter (fun x => x.good) with
  | [x, y, z] =>
    if x.value = y.value && y.value = z.value then (if x.corrected || y.corrected || z.corrected then .corrected else .clean)
    else if x.value = y.value || y.value = z.value || x.value = z.value then .repaired
    else .unvotable
  | [x, y] => if x.value = y.value then .repaired else .unvotable
  | _ => .unvotable

/-- The value of a vote that is not unvotable: that of two good copies that agree. -/
def voteValue (l : List CopyRead) : W32 :=
  match l.filter (fun x => x.good) with
  | x :: y :: z => if x.value = y.value then x.value else match z with
    | w :: _ => w.value
    | [] => x.value
  | [x] => x.value
  | [] => 0

end Sys2Proof.Machine
end

