-- ==== Sys2Proof/Machine/Security.lean ====
section
/-! DEFINITION. Security, test and board management: the identity and Flint words, attestation, the three-copy Granite registers and
the Granite halt, fuses and lifecycle, JTAG and SMBus (R67, R238, R239, R435, R476 to R478, R494 to R510, R523, R524). -/
namespace Sys2Proof.Machine

/-! ### Identity words (R67, R238) -/

/-- FY_ID of a function (R238). -/
def State.fyId (s : State) (fn : World) : Nat := 0xA10000 + pciDeviceId .slate + bnat s.fuses.grade * 2 ^ 24 + fn.bit * 2 ^ 25

/-- AT_STATUS (R67). -/
def State.atStatus (s : State) : Nat :=
  let a := s.attic
  a.state % 16 + a.sel % 4 * 16 + 64 * bnat a.conflict + 128 * bnat a.fallback + 256 * bnat a.fwRecovery + 512 * bnat a.boardOk
    + 1024 * bnat a.cellarRestored + 2048 * bnat a.pantryFail + a.aResult % 16 * 2 ^ 12 + a.bResult % 16 * 2 ^ 16
    + a.resetCause % 8 * 2 ^ 20

/-! ### The Flint block (R510) -/

/-- PRESENT and REVOKED of a kind. -/
def Fuses.kindBits (f : Fuses) (kind : Nat) : Nat :=
  ((List.range 4).map (fun k => bnat (Tbl.get 0 (f.slots kind) k ≠ 0) * 2 ^ k + bnat (bitAt f.revoke (4 * kind + k)) * 2 ^ (4 + k))).sum

/-- FL_KEYS. -/
def State.flKeys (s : State) : Nat :=
  s.fuses.kindBits 0 + s.fuses.kindBits 1 * 2 ^ 8 + s.fuses.kindBits 2 * 2 ^ 16
    + s.flint.fwSlot % 4 * 2 ^ 24 + s.flint.imgSlot % 4 * 2 ^ 26 + s.flint.grnSlot % 4 * 2 ^ 28

/-- The word that a 32-bit read of the Flint block returns. -/
def State.flRead (s : State) (fn : World) (off : Nat) : Nat :=
  let f := s.flint
  if off = 0xE00000 then f.lifecycle % 4 + 4 * bnat f.debugSlate
  else if off = 0xE00004 then s.flKeys
  else if off = 0xE00008 then f.audit % 2 ^ 32
  else if off = 0xE0000C then f.audit / 2 ^ 32 % 2 ^ 32
  else if off = 0xE00010 then (match fn with
    | .slate => 0
    | .granite => f.attestCnt)
  else if off = 0xE00014 then f.debugCnt.get fn
  else if off = 0xE00018 then bnat f.devkeyOk
  else if 0xE00020 ≤ off ∧ off < 0xE00060 then (if f.devkeyOk then fieldAt f.devkey (off - 0xE00020) 4 else 0)
  else 0

/-! ### Attestation (R507 to R509) -/

/-- GENERATION of the image in force; 0 where none is. -/
def State.imageGen (s : State) : Nat :=
  match s.attic.sel with
  | 1 => s.attic.genA
  | 2 => s.attic.genB
  | _ => 0

/-- Bytes 0 to 255 of a report (R508). -/
def State.reportBytes (s : State) (nonce : List Byte) : List Byte :=
  let f := s.flint
  let flags := bnat s.fc.graniteHalt + 2 * bnat s.cellar.noValid + 4 * bnat s.cellar.conflict + 8 * bnat f.debugSlate
    + 16 * bnat f.slateObserved
  leBytes 4 0x54535441 ++ leBytes 2 1 ++ leBytes 1 (f.lifecycle % 4) ++ leBytes 1 flags ++ leBytes 8 f.audit ++ leBytes 8 s.now
    ++ leBytes 4 (satInc32 f.attestCnt) ++ leBytes 4 (s.fyId .granite) ++ (nonce ++ List.replicate 32 0).take 32
    ++ leBytes 32 s.attic.digest ++ leBytes 32 s.attic.gdigest ++ leBytes 4 s.imageGen ++ leBytes 4 s.attic.fwGen
    ++ leBytes 4 s.atStatus ++ leBytes 4 s.flKeys ++ leBytes 8 s.fuses.dsn ++ (f.devkey ++ List.replicate 64 0).take 64
    ++ List.replicate 40 0

/-- A report is sampled; its signing and writing follow. -/
def State.attestSample (s : State) (r : AttestReq) : State :=
  { s with flint := { s.flint with
      attest := some { tag := r.tag, dest := r.dest, report := s.reportBytes r.nonce }, attestWait := none } }

/-- DEVKEY_DERIVED: Flint has derived the device key; an ATTEST that waited is sampled (R498, R505, R507, R509). -/
def execDevkeyDerived (s : State) : Result :=
  if s.done && s.flint.lifecycle ≠ 3 && !s.flint.devkeyOk then
    let s1 : State := { s with flint := { s.flint with devkeyOk := true, devkey := Config.devicePublic s.fuses.deviceSecret } }
    match s1.flint.attestWait with
    | some r => .next (s1.attestSample r)
    | none => .next s1
  else .next s

/-- Why an ATTEST is refused, if it is (R507). -/
def State.attestRefusal (s : State) (w : World) (d : List Byte) : Option Nat :=
  if w = .slate || s.flint.lifecycle = 3 then some asDenied
  else if !bitAt (s.fn w).accepted 11 then some asFeature
  else if fieldAt d 16 8 % 64 ≠ 0 || !zeroRuns d [(8, 8), (56, 8)] then some asBadField
  else none

/-- ATTEST: refused, or sampled and signed; where the device key is not yet derived, the command waits for it. -/
def execAttest (fn : World) (s : State) : Result :=
  match s.adminEntry fn 0x40 with
  | none => .next s
  | some e =>
    let tag := fieldAt e.data 2 2
    let s1 := s.entryTaken fn 0 e
    match s1.attestRefusal fn e.data with
    | some a => .next (s1.adminDone fn tag a 0 0)
    | none =>
      let r : AttestReq := { tag := tag, dest := fieldAt e.data 16 8, nonce := slice e.data 24 32 }
      .next (if s1.flint.devkeyOk then s1.attestSample r else { s1 with flint := { s1.flint with attestWait := some r } })

/-- REPORT_WRITTEN: the signed report is in host memory, or a write of it failed on the link (R507, R508). -/
def execReportWritten (r : LinkResult) (s : State) : Result :=
  match s.flint.attest with
  | none => .next s
  | some j =>
    let s1 : State := { s with flint := { s.flint with attest := none } }
    match r with
    | .busError => .next (s1.adminDone .granite j.tag asAddress 0 0)
    | .ok =>
      let n := satInc32 s1.flint.attestCnt
      let s2 := s1.hostWrite j.dest (j.report ++ Config.slhSign s1.fuses.deviceSecret j.report)
      .next (({ s2 with flint := { s2.flint with attestCnt := n } } : State).adminDone .granite j.tag asOk (50112 + n * 2 ^ 32) 0)

/-! ### The three-copy Granite registers (R476 to R478) -/

/-- The contexts of Slate that visit Granite when it halts: their CCW ends as under END_CCW (R478). -/
def State.visitsHalt (s : State) : State :=
  (s.worldCtxs .slate).foldl (fun t c =>
    if (t.ctx c).visit.isSome && (t.ctx c).live then (t.ccwStop c 0xF 0x0B).dueEnd c else t) s

/-- Granite halts until the next reset (R478). -/
def State.graniteStop (s : State) : State :=
  if s.fc.graniteHalt then s
  else
    let s1 : State := { s with fc := { s.fc with graniteHalt := true } }
    let s2 := s1.auditAdvance.visitsHalt
    let s3 : State := { s2 with qm := s2.qm.upd .granite (fun (m : Qm) =>
      { m with sqs := m.sqs.map (fun (p : Nat × Sq) => (p.1, p.2.discard)) }) }
    (s3.worldDrives .granite).foldl (fun t n => t.driveCauseSet n .program) (s3.worldSafe .granite)

/-- TRIPLE_SWEEP: a sweep or a use reads the three copies of a word, which an upset has left as the command says, and votes: the value
voted is the one in force and every copy is rewritten with it; without a value Granite halts and the copies stand (R476 to R478). -/
def execTripleSweep (word : Nat) (a b d : CopyRead) (s : State) : Result :=
  if 5 ≤ s.attic.state && s.attic.state ≤ 6 then
    let l := [a, b, d]
    match voteOf l with
    | .clean => .next (s.wordVoted word (voteValue l))
    | .corrected => .next ((s.wordVoted word (voteValue l)).report (faultMsg 109 0 0x01 word none false))
    | .repaired => .next ((s.wordVoted word (voteValue l)).report (faultMsg 109 0 0x16 word none false))
    | .unvotable => .next ((s.copiesSet word l).graniteStop.report (faultMsg 109 0 0x17 word none true))
  else .next s

/-! ### JTAG (R435, R497, R505, R506, R523) -/

/-- An instruction is loaded; one that is neither DBG_READ nor DBG_WRITE ends the debug sessions. -/
def State.jtagLoad (s : State) (code : Nat) : State :=
  { s with jtag := { s.jtag with ir := code, openSlate := s.jtag.openSlate && (code = 0x22 || code = 0x23)
                                 openGranite := s.jtag.openGranite && (code = 0x22 || code = 0x23) } }

/-- A refused instruction selects BYPASS and changes nothing else (R506). -/
def State.jtagRefuse (s : State) : State := s.jtagLoad 0xFF

/-- An instruction that takes effect where the state allows it. -/
def State.jtagRun (s : State) (code : Nat) (ok : Bool) (k : State → State) : Result :=
  .next (if !s.powered then s else if ok then k (s.jtagLoad code) else s.jtagRefuse)

/-- TEST or PROVISION (R505). -/
def State.openState (s : State) : Bool := s.flint.lifecycle = 0 || s.flint.lifecycle = 1

/-- Whether the instructions that drive balls are allowed (R506). -/
def State.ballsAllowed (s : State) : Bool := s.flint.lifecycle ≠ 2

/-- The value of the IDCODE register (R523). -/
def idcodeWord : W32 := BitVec.ofNat 32 (1 * 2 ^ 28 + pciDeviceId .slate * 2 ^ 12 + Config.jedecId.toNat * 2 + 1)

/-- IDCODE. -/
def execIdcode (s : State) : Result := s.jtagRun 0x01 true (fun t => t.emit (.jtag idcodeWord))

/-- SAMPLE. -/
def execSample (s : State) : Result := s.jtagRun 0x02 true (fun t => t)

/-- A ball as the board sees it: high impedance under HIGHZ, the boundary scan value of its cell under EXTEST and CLAMP, and else its own
level, none for high impedance (R506, R523). What the boundary scan register holds is free: no row shifts it (log 98). -/
def State.ballLevel (s : State) (cell : Nat) (own : Option Bool) : Option Bool :=
  if s.jtag.ir = 0x05 then none
  else if s.jtag.ir = 0x03 || s.jtag.ir = 0x04 then some (Config.boundaryCell s.now cell)
  else own

/-- The balls of drive n as the board sees them: A, B and EN. -/
def State.driveBallsOut (s : State) (n : Nat) : List (Option Bool) :=
  let d := s.drive n
  [s.ballLevel (3 * n) (some d.pwmA), s.ballLevel (3 * n + 1) (some d.pwmB), s.ballLevel (3 * n + 2) (some d.en)]

/-- Whether LP_A to LP_D of port n are high impedance for the board. -/
def State.portFloats (s : State) (n : Nat) : Bool := s.jtag.ir = 0x05 || (s.jtag.ir ≠ 0x03 && s.jtag.ir ≠ 0x04 && (s.port n).lpZ)

/-- ERR_N, VBUS_EN of a port and the other output balls that the state holds, by cell. -/
def State.vbusBall (s : State) (n : Nat) : Option Bool := s.ballLevel (192 + n) (some (s.port n).vbus)
def State.errBall (s : State) : Option Bool := s.ballLevel 448 (some (!s.errLow))

/-- EXTEST: while it is selected the balls follow the boundary scan. -/
def execExtest (s : State) : Result := s.jtagRun 0x03 s.ballsAllowed (fun t => t)

/-- CLAMP: while it is selected the balls keep their boundary scan values. -/
def execClamp (s : State) : Result := s.jtagRun 0x04 s.ballsAllowed (fun t => t)

/-- HIGHZ: while it is selected the outputs are high impedance. -/
def execHighz (s : State) : Result := s.jtagRun 0x05 s.ballsAllowed (fun t => t)

/-- BYPASS: its own code, and every code that no instruction has, selects it. -/
def execBypass (s : State) (code : BitVec 8 := 0xFF) : Result :=
  if isBypassCode code then s.jtagRun 0xFF true (fun t => t) else .next s

/-- DBG_HALT: a halt of the device, with Quartz in LF running (R435; log 148). -/
def execDbgHalt (s : State) : Result :=
  s.jtagRun 0x20 s.openState (fun t => ({ t with qz := { t.qz with debugHalt := true } } : State).enterLf)

/-- DBG_RUN ends a debug halt; Quartz returns to the reference under R436. -/
def execDbgRun (s : State) : Result :=
  s.jtagRun 0x21 s.openState (fun t => { t with qz := { t.qz with debugHalt := false } })

/-- The world whose state a debug access names; none where it names no record of a world and no bytes of its Pantry regions. -/
def State.debugWorld (s : State) : DebugTarget → Option World
  | .record c => s.ctxWorld c
  | .pantry a n =>
    match s.regionWorld a with
    | some w =>
      if a + n ≤ windowBase && (List.range (n / 65536 + 1)).all (fun i => s.regionWorld (a + 65536 * i) = some w)
        && (n = 0 || s.regionWorld (a + n - 1) = some w) then some w else none
    | none => none

/-- Whether DBG_READ of a world's state is allowed (R506). -/
def State.debugReads (s : State) (w : World) : Bool :=
  s.openState || (w = .slate && s.flint.lifecycle = 2 && s.flint.debugSlate)

/-- A session that observes a world opens, once: it is counted; one that observes Slate is recorded and shows in reports, one that
observes Granite advances the audit counter (R503, R506, R510). -/
def State.debugOpen (s : State) (w : World) : State :=
  let cnt := fun (t : State) => ({ t with flint := { t.flint with debugCnt := t.flint.debugCnt.upd w satInc32 } } : State)
  match w with
  | .slate =>
    if s.jtag.openSlate then s
    else
      let r := (cnt s).takeFree
      let s1 := r.2.report (faultMsg 110 0 (r.1.toNat % 28 + 1) 0 (some .slate) false)
      { s1 with jtag := { s1.jtag with openSlate := true }, flint := { s1.flint with slateObserved := true } }
  | .granite =>
    if s.jtag.openGranite then s
    else
      let s1 := (cnt s).auditAdvance
      { s1 with jtag := { s1.jtag with openGranite := true } }

/-- n free bytes, one free value each. -/
def State.freeBytes (s : State) (n : Nat) : List Byte × State :=
  ((List.range n).map (fun i => (Config.freeValue (s.free + i)).setWidth 8), { s with free := s.free + n })

/-- What a debug read puts out: a record, or bytes of Pantry, free where a burst is uncorrectable (R210, R345). -/
def State.debugGet (s : State) : DebugTarget → State
  | .record c => s.emit (.readBytes (s.recordBytes c))
  | .pantry a n =>
    let r := s.pnCheck a n
    if r.1 then r.2.emit (.readBytes (r.2.pnBytes a n))
    else
      let f := r.2.freeBytes n
      f.2.emit (.readBytes f.1)

/-- DBG_READ. -/
def execDbgRead (t : DebugTarget) (s : State) : Result :=
  match s.debugWorld t with
  | some w => s.jtagRun 0x22 (s.debugReads w) (fun x => (x.debugOpen w).debugGet t)
  | none => s.jtagRun 0x22 false (fun x => x)

/-- The state that a code names (R211). -/
def ctxStateOf : Nat → Option CtxState
  | 0 => some .free
  | 1 => some .ready
  | 2 => some .running
  | 3 => some .waiting
  | 4 => some .suspended
  | 5 => some .error
  | 6 => some .migrating
  | _ => none

/-- A CCW from its 16 bytes (R82). -/
def Ccw.ofImage (loc : Nat) (b : List Byte) : Ccw :=
  { loc := loc, code := bits (fieldAt b 0 1) 0 4, tgt := bits (fieldAt b 0 1) 4 4, flags := fieldAt b 1 1, count := fieldAt b 2 2
    param := fieldAt b 4 4, addr := fieldAt b 8 8 }

/-- A table of the non-zero values of some fields. -/
def fieldsAt (b : List Byte) (off size n : Nat) : Tbl Nat :=
  (List.range n).foldl (fun t i => Tbl.put 0 t i (fieldAt b (off + size * i) size)) []

/-- A context with its record replaced: each field that R210 lists. -/
def Ctx.ofRecord (x : Ctx) (home : World) (b : List Byte) : Ctx :=
  let word := fieldAt b 0 1
  let fl := fieldAt b 154 2
  let v := fieldAt b 200 8
  let rx := fieldAt b 160 2
  { x with
    state := (ctxStateOf (bits word 0 3)).getD x.state
    resumePending := bitAt word 5, byCommand := bitAt word 6, suspendCause := fieldAt b 1 1, lane := fieldAt b 2 1
    level := fieldAt b 3 1, home := fieldAt b 4 1 % 64, migCount := fieldAt b 5 1, sq := fieldAt b 6 2 % 8192
    cq := fieldAt b 8 2 % 8192, tag := fieldAt b 10 2, header := fieldAt b 16 8, ccwAddr := fieldAt b 24 8
    ccw := some (Ccw.ofImage (fieldAt b 24 8) (slice b 32 16)), bindTime := fieldAt b 48 8, deadline := fieldAt b 56 8
    pdeadline := fieldAt b 64 8, tgtCount := fieldAt b 72 1 % 32, softDl := bitAt (fieldAt b 72 1) 5
    targets := fieldsAt b 80 4 16
    stream := if fieldAt b 144 8 = 0 then {} else
      { members := [{ loc := fieldAt b 144 8 }], base := fieldAt b 152 2
        piece := some { idx := fieldAt b 156 2, start := fieldAt b 152 2 - fieldAt b 158 2, addr := 0, len := 0 } }
    il := bitAt fl 0, long := bitAt fl 1, cond := bitAt fl 2, late := bitAt fl 3, interimPosted := bitAt fl 4
    outputHanded := bitAt fl 5, rxCommit := if rx = 0xFFFF then none else some rx
    locks := (List.range (Nat.min 8 (fieldAt b 164 1))).map (fun i =>
      let n := fieldAt b (168 + 2 * i) 2
      { num := n, world := lockWorld n home, visit := false })
    leases := (List.range (Nat.min 4 (fieldAt b 165 1))).map (fun i => fieldAt b (184 + 2 * i) 2)
    lastStatus := fieldAt b 192 1, lastUnit := fieldAt b 194 2, restarts := fieldAt b 196 1
    visit := if bitAt word 7 then some { frame := v % 2 ^ 38, callerSuper := bitAt v 38, callerWorld := World.ofBit (bitAt v 39) } else none
    recordBad := none, latch := fieldsAt b 208 2 16, commitSeq := fieldAt b 240 4, ccwSeq := fieldAt b 244 4 }

/-- What a debug write stores: bytes from the start of a record, or bytes of Pantry. -/
def State.debugPut (s : State) (t : DebugTarget) (data : List Byte) : State :=
  match t with
  | .record c =>
    let b := (data ++ (s.recordBytes c).drop data.length).take 256
    s.modCtx c (fun x => x.ofRecord (s.home c) b)
  | .pantry a n => s.pnWrite a (data.take n)

/-- DBG_WRITE. -/
def execDbgWrite (t : DebugTarget) (data : List Byte) (s : State) : Result :=
  match s.debugWorld t with
  | some _ => s.jtagRun 0x23 s.openState (fun x => x.debugPut t data)
  | none => s.jtagRun 0x23 false (fun x => x)

/-- The fuses with a field programmed, where the state allows the field and no hash slot that it names is taken (R494, R497,
R506). -/
def State.fuseSet (s : State) (field : FuseField) (v : BitVec 768) : Option Fuses :=
  let f := s.fuses
  let test : Bool := s.flint.lifecycle = 0
  let prov : Bool := s.flint.lifecycle = 1
  let put := fun (ok : Bool) (t : Tbl Nat) (k : Nat) =>
    if ok && k < 4 && Tbl.get 0 t k = 0 then some (Tbl.put 0 t k (v.toNat % 2 ^ 256)) else none
  match field with
  | .fwKey k => (put test f.fwKey k).map (fun t => { f with fwKey := t })
  | .imgKey k => (put prov f.imgKey k).map (fun t => { f with imgKey := t })
  | .grnKey k => (put prov f.grnKey k).map (fun t => { f with grnKey := t })
  | .deviceSecret => if test then some { f with deviceSecret := f.deviceSecret ||| v } else none
  | .dsn => if test then some { f with dsn := f.dsn ||| v.toNat % 2 ^ 64 } else none
  | .grade => if test then some { f with grade := f.grade || bitAt v.toNat 0 } else none
  | .revoke => none
  | .lifecycle => none

/-- FUSE_PROG. -/
def execFuseProg (field : FuseField) (v : BitVec 768) (s : State) : Result :=
  match s.fuseSet field v with
  | some f => s.jtagRun 0x30 true (fun t => { t with fuses := f })
  | none => s.jtagRun 0x30 false (fun t => t)

/-- LC_ADVANCE: TEST to PROVISION, and PROVISION to DEPLOYED with an image key hash, at the next reset; under a Filino image the
audit record of the advance comes first (R503 to R505). -/
def execLcAdvance (s : State) : Result :=
  let ok : Bool := s.flint.lifecycle = 0 || (s.flint.lifecycle = 1 && (List.range 4).any (fun k => Tbl.get 0 s.fuses.imgKey k ≠ 0))
  s.jtagRun 0x31 ok (fun t =>
    let t1 := t.auditAdvance
    if t1.flint.auditDue = t.flint.auditDue then t1.lcBlow
    else { t1 with flint := { t1.flint with lcPending := t1.flint.auditDue } })

/-- LC_RETIRE: RETIRED at the next reset (R505). -/
def execLcRetire (s : State) : Result :=
  s.jtagRun 0x32 (s.flint.lifecycle ≠ 3) (fun t => { t with fuses := { t.fuses with lifecycle := Nat.max t.fuses.lifecycle 3 } })

/-! ### SMBus (R524) -/

/-- Whether SMB_ALERT_N is driven low: while ERR_N is low. -/
def State.smbAlertLow (s : State) : Bool := s.errLow

/-- The bytes of a Block Read as they pass on the bus (SMBus 3.1): address with write, command, address with read, the count and the data. -/
def smbusFrame (cmd : Nat) (d : List Byte) : List Byte := [0x98, BitVec.ofNat 8 cmd, 0x99, 4] ++ d

/-- The packet error checking byte of SMBus: CRC-8 over the bytes of the transaction. -/
def smbusPec (l : List Byte) : Nat := l.foldl (crcBytePlain 8 0x07) 0

/-- A transaction of the SMBus host on a command: a Block Read returns 4 bytes, and the packet error checking byte where the host uses it;
any other command or transaction is not acknowledged. The target answers from step 2 of start-up. -/
def State.smbus (s : State) (cmd v : Nat) (acc : SmbAccess) : Result :=
  let d := leBytes 4 v
  .next (if s.powered && 1 ≤ s.attic.state then
    match acc with
    | .blockRead pec => s.emit (.smbus (d ++ if pec then leBytes 1 (smbusPec (smbusFrame cmd d)) else []))
    | .other => s.emit .smbusNak
  else s)

/-- SMB_FY_ID. -/
def execSmbFyId (s : State) (acc : SmbAccess := .blockRead false) : Result := s.smbus 1 (s.fyId .slate) acc

/-- SMB_AT_STATUS. -/
def execSmbAtStatus (s : State) (acc : SmbAccess := .blockRead false) : Result := s.smbus 2 s.atStatus acc

/-- SMB_FAULT_SUMMARY. -/
def execSmbFaultSummary (s : State) (acc : SmbAccess := .blockRead false) : Result :=
  let n := (s.fc.study.recs.filter (fun p => p.2.active)).length
  s.smbus 3 (bnat s.errLow + 2 * bnat (s.fc.study.recs.any (fun p => p.2.severe)) + n % 256 * 2 ^ 8) acc

/-- SMB_DIE_MEAS: BL_DIE_MEAS. -/
def execSmbDieMeas (s : State) (acc : SmbAccess := .blockRead false) : Result := s.smbus 4 (s.blRead .slate 0x300018) acc

/-- SMB_HOLDUP: CL_HOLDUP. -/
def execSmbHoldup (s : State) (acc : SmbAccess := .blockRead false) : Result := s.smbus 5 (s.fcRead .slate 0x504004) acc

/-- SMB_CL_STATUS: CL_STATUS. -/
def execSmbClStatus (s : State) (acc : SmbAccess := .blockRead false) : Result := s.smbus 6 (s.fcRead .slate 0x504000) acc

end Sys2Proof.Machine
end

