-- ==== Sys2Proof/Machine/Regs.lean ====
section
/-! DEFINITION. BAR0: the words that reads return, and host writes by access code (R7 to R11, R66, R74, R208, R209, R231, R232,
R235 to R239, R244, R245). -/
namespace Sys2Proof.Machine

/-! ### Reads (R66, R74, R208, R231, R235, R237) -/

/-- The low or the high word of a 64-bit register, by the offset read. -/
def halfAt (off v : Nat) : Nat := if off % 8 = 0 then v % 2 ^ 32 else v / 2 ^ 32 % 2 ^ 32

/-- FY_STATUS (R239). -/
def Func.status (f : Func) : Nat :=
  (match f.fstate with
    | .stopped => 0
    | .running => 1
    | .lost => 2) + 4 * bnat f.plain + 8 * bnat (f.host = .hosted) + f.startErr % 16 * 2 ^ 4 + f.lostCause % 16 * 2 ^ 8

/-- The FY registers (R237). -/
def State.fyRead (s : State) (fn : World) (off : Nat) : Nat :=
  let f := s.fn fn
  if off = 0x00 then s.fyId fn
  else if off = 0x04 then 0x20003
  else if off = 0x08 then f.drvVer
  else if off = 0x0C then bnat f.start
  else if off = 0x10 then f.status
  else if off = 0x18 then (s.wcfg fn).wdogMs
  else if 0x20 ≤ off ∧ off < 0x30 then bits (s.offer fn) (8 * (off - 0x20)) 32
  else if 0x30 ≤ off ∧ off < 0x40 then (if f.major ≤ 1 then 0 else bits f.featAccept (8 * (off - 0x30)) 32)
  else if off = 0x40 ∨ off = 0x44 then halfAt off f.aqSqBase
  else if off = 0x48 ∨ off = 0x4C then halfAt off f.aqCqBase
  else if off = 0x50 then f.aqDepth
  else 0

/-- The Attic block (R66). -/
def State.atRead (s : State) (off : Nat) : Nat :=
  let a := s.attic
  if off = 0x8000 then s.atStatus
  else if off = 0x8004 then a.fwGen
  else if off = 0x8008 then a.genA
  else if off = 0x800C then a.genB
  else if off = 0x8010 then a.mode
  else if off = 0x8018 ∨ off = 0x801C then halfAt off a.timeSafe
  else if 0x8020 ≤ off ∧ off < 0x8040 then bits a.digest (8 * (off - 0x8020)) 32
  else if 0x8040 ≤ off ∧ off < 0x8060 then bits a.gdigest (8 * (off - 0x8040)) 32
  else 0

/-- HT_WCFG (R209): the gate table's CROSS entries are those of kind 2. -/
def State.htWcfg (s : State) (fn : World) : Nat :=
  let c := s.wcfg fn
  c.niMax % 128 + 2 ^ 8 * bnat c.kernel + 2 ^ 9 * bnat c.handler + 2 ^ 16 * (c.gates.filter (fun p => bits p.2 0 2 = 2)).length

/-- The Hearth blocks (R208, R231). -/
def State.htRead (s : State) (fn : World) (off : Nat) : Nat :=
  let c := s.wcfg fn
  let h := s.hearths.cnt.get fn
  if off = 0x9000 ∨ off = 0x9004 then (if c.kernel then halfAt off c.vbase else 0)
  else if off = 0x9008 ∨ off = 0x900C then halfAt off c.frameBase
  else if off = 0x9010 then s.htWcfg fn
  else if off = 0x9014 then h.nested
  else if off = 0x9018 then h.async
  else if off = 0x901C then h.refused
  else if off = 0x9020 then h.viol
  else if off = 0x9100 ∨ off = 0x9104 then
    halfAt off (((List.range 64).map (fun i => if s.hearths.failed.contains i then 0 else 2 ^ i)).sum)
  else if off = 0x9108 then
    c.lockWaitUs % 2 ^ 17 + bnat (bitAt s.attic.mode 6) * 2 ^ 17 + (if s.attic.state < 5 then 0 else s.placeLimit) * 2 ^ 18 + 12 * 2 ^ 27
  else if off = 0x910C then (s.ctxs.filter (fun (p : Nat × Ctx) => s.ctxWorld p.1 = some fn && p.2.state ≠ CtxState.free)).length
  else if off = 0x9110 then h.mig
  else if off = 0x9114 then h.migMax
  else if off = 0x9118 then h.spill
  else if off = 0x911C then h.bindWait
  else if off = 0x9120 then h.lockTo
  else if off = 0x9124 then h.lockOrd
  else if off = 0x9128 then h.lockRel
  else if off = 0x912C then h.restart
  else 0

/-- The identity region. -/
def State.idRead (s : State) (fn : World) (off : Nat) : Nat :=
  if off < 0x8000 then s.fyRead fn off else if off < 0x9000 then s.atRead off else s.htRead fn off

/-- The word that an aligned 32-bit read of BAR0 returns, the linked counters apart (R74, R235, R437). -/
def State.regRead (s : State) (fn : World) (off : Nat) : Nat :=
  if off < 0x10000 then s.idRead fn off
  else if !s.done then 0
  else if off < 0x200000 then s.qmRead fn off
  else if off < 0x300000 then (if off < 0x201000 then s.mbRead fn off else 0)
  else if off < 0x400000 then s.blRead fn off
  else if off < 0x500000 then s.qzRead fn off
  else if off < 0x600000 then s.fcRead fn off
  else if off < 0x700000 then s.dwRead fn off
  else if off < 0x800000 then s.pnRead fn off
  else if off < 0x810000 then s.poRead fn off
  else if off < 0xA00000 then 0
  else if off < 0xA04000 then s.pdRead fn off
  else if off < 0xC00000 then 0
  else if off < 0xE00000 then s.stRead fn off
  else if off < 0xF00000 then s.flRead fn off
  else s.ldRead fn off

/-- The world of the item whose register an offset of BAR0 is, where it is one of an item (R235, R236). -/
def State.itemAt (s : State) (off : Nat) : Option World :=
  if 0x200000 ≤ off ∧ off < 0x201000 then s.mbWorld ((off - 0x200000) / 256)
  else if 0x401000 ≤ off ∧ off < 0x405000 then s.cmpWorld ((off - 0x401000) / 16)
  else if 0x600000 ≤ off ∧ off < 0x602000 then s.dwWorld ((off - 0x600000) / 256)
  else if 0x800000 ≤ off ∧ off < 0x810000 then s.portWorld ((off - 0x800000) / 256)
  else if 0xA00000 ≤ off ∧ off < 0xA04000 then s.driveWorld ((off - 0xA00000) / 256)
  else if 0xF00000 ≤ off ∧ off < 0xF03100 then s.landWorld ((off - 0xF00000) / 32)
  else (statPort off).bind s.portWorld

/-- An aligned 32-bit read by a host: the word, and a record where it is that of an item of the other world, which reads 0 (R236). -/
def State.hostRead (s : State) (fn : World) (off : Nat) : W64 × State :=
  (BitVec.ofNat 64 (s.regRead fn off), if s.done && s.itemAt off = some fn.other then s.accessFault fn off else s)

/-- An aligned 64-bit read by a host: a linked counter at one moment, or the two words of another register (R10, R437). -/
def State.hostRead64 (s : State) (fn : World) (off : Nat) : W64 × State :=
  match s.linkedWide fn off with
  | some v => (v, s)
  | none => (BitVec.ofNat 64 (s.regRead fn off + s.regRead fn (off + 4) * 2 ^ 32), (s.hostRead fn off).2)

/-- LINKED_LOW_READ: a 32-bit read, of the low word of a linked counter or of any other word, or a 64-bit read (R437, log 127). -/
def execLinkedLowRead (fn : World) (off : Nat) (s : State) (wide : Bool := false) : Result :=
  let r := if wide then s.hostRead64 fn off else (s.linkedLow fn off).getD (s.hostRead fn off)
  s.whenPowered (r.2.emit (.readData r.1))

/-- LINKED_HIGH_READ: a 32-bit read, of the high word of a linked counter or of any other word (R437, log 127). -/
def execLinkedHighRead (fn : World) (off : Nat) (s : State) : Result :=
  let r := (s.linkedHigh fn off).getD (s.hostRead fn off)
  s.whenPowered (r.2.emit (.readData r.1))

/-! ### Writes (R7 to R11, R236, R237) -/

/-- The low words of the 64-bit registers that a host may write. -/
def isLow64 (off : Nat) : Bool :=
  off = 0x40 || off = 0x48 || off = 0x500018 || off = 0x700018
    || (0x200000 ≤ off && off < 0x201000 && 0x40 ≤ off % 256 && off % 256 < 0x80 && off % 8 = 0)
    || (0x600000 ≤ off && off < 0x602000 && [0x00, 0x08, 0x30, 0x38, 0x48].contains (off % 256))

/-- The item whose register a 64-bit register is, where it is one of an item. -/
def State.item64 (s : State) (fn : World) (off : Nat) : Option World :=
  if 0x600000 ≤ off ∧ off < 0x602000 then s.dwWorld ((off - 0x600000) / 256)
  else if 0x200000 ≤ off ∧ off < 0x201000 then s.mbWorld ((off - 0x200000) / 256)
  else some fn

/-- A low word is held until the high word is written (R11). -/
def State.holdLow (s : State) (fn : World) (off : Nat) (v : W32) : State :=
  let put := fun (t : State) => t.modFn fn (fun f => { f with heldLow := Tbl.put 0 f.heldLow off v })
  if off < 0x10000 then put s else s.hostItem fn off (s.item64 fn off) put

/-- A 64-bit register takes a value (R11). -/
def State.write64 (s : State) (fn : World) (off : Nat) (v : W64) : State :=
  if off = 0x40 then s.modFn fn (fun f => { f with aqSqBase := v.toNat })
  else if off = 0x48 then s.modFn fn (fun f => { f with aqCqBase := v.toNat })
  else if !s.done then s
  else if off = 0x500018 then s.inject fn v
  else if off = 0x700018 then s.xlatCommit fn v.toNat
  else if off < 0x300000 then s.mbMsgSet fn ((off - 0x200000) / 256) ((off % 256 - 0x40) / 8) v
  else s.dwWrite64 fn off v.toNat

/-- A 32-bit write of an FY register; the Attic and the Hearth blocks are read-only (R237, R242, R245). -/
def State.fyWrite (s : State) (fn : World) (off : Nat) (v : W32) : State :=
  if off = 0x08 then s.modFn fn (fun f => { f with drvVer := v.toNat })
  else if off = 0x0C then (if bitAt v.toNat 0 then s.functionStart fn else s.functionStop fn)
  else if off = 0x14 then s.wdogWrite fn v.toNat
  else if 0x30 ≤ off ∧ off < 0x40 ∧ off % 4 = 0 then
    s.modFn fn (fun f => if f.major ≤ 1 then f else
      { f with featAccept := f.featAccept - bits f.featAccept (8 * (off - 0x30)) 32 * 2 ^ (8 * (off - 0x30))
                 + v.toNat * 2 ^ (8 * (off - 0x30)) })
  else if off = 0x50 then s.modFn fn (fun f => { f with aqDepth := v.toNat })
  else s

/-- An aligned 32-bit write of BAR0: before DONE only the identity region takes it; an offset that no table assigns discards it
(R74, R235, R236). -/
def State.write32 (s : State) (fn : World) (off : Nat) (v : W32) : State :=
  if isLow64 off then s.holdLow fn off v
  else if 4 ≤ off && isLow64 (off - 4) then
    s.write64 fn (off - 4) (BitVec.ofNat 64 (v.toNat * 2 ^ 32 + (Tbl.get 0 (s.fn fn).heldLow (off - 4)).toNat))
  else if off < 0x10000 then s.fyWrite fn off v
  else if !s.done then s
  else if off < 0x100000 then s.qmWrite fn off v
  else if off < 0x110000 then (if off % 8 = 0 then s.sqTailWrite fn ((off - 0x100000) / 8) v.toNat else s)
  else if off < 0x120000 then (if off % 8 = 0 then s.cqDoorbell fn ((off - 0x110000) / 8) v.toNat else s)
  else if off < 0x200000 then s
  else if off < 0x300000 then (if off < 0x201000 then s.mbWrite fn off v else s)
  else if off = 0x300000 then s.paceWrite fn v.toNat
  else if off < 0x400000 then s.blWrite fn off v
  else if off < 0x500000 then s.qzWrite fn off v
  else if off < 0x600000 then s.fcWrite fn off v
  else if off < 0x700000 then s.dwWrite fn off v
  else if off < 0x800000 then s.pnRegWrite fn off v
  else if off < 0x810000 then s.poWrite fn off v
  else if off < 0xA00000 then s
  else if off < 0xA04000 then s.pdWrite fn off v
  else if off < 0xC00000 then s
  else if off < 0xE00000 then s.stWrite fn off v
  else if off < 0xF00000 then s
  else if off < 0x1000000 then s.ldWrite fn off v
  else s

/-- REGISTER_WRITE: a write of 32 bits, or of 64 bits, which to two 32-bit registers is a write of the low and then of the high. -/
def execRegisterWrite (fn : World) (off : Nat) (wide : Bool) (v : W64) (s : State) : Result :=
  let lo : W32 := v.setWidth 32
  let hi : W32 := (v >>> 32).setWidth 32
  s.whenPowered (if off % (if wide then 8 else 4) ≠ 0 then s.accessFault fn off
    else if !wide then s.write32 fn off lo
    else if isLow64 off then s.write64 fn off v
    else (s.write32 fn off lo).write32 fn (off + 4) hi)

/-- MISALIGNED_REG_ACCESS: a read returns 0, a write is discarded, and the event is reported (R10). -/
def execMisalignedRegAccess (fn : World) (off bytes : Nat) (isWrite : Bool) (s : State) : Result :=
  if bytes < 4 ∨ off % bytes ≠ 0 then
    let s1 := s.accessFault fn off
    s.whenPowered (if isWrite then s1 else s1.emit (.readData 0))
  else .next s

end Sys2Proof.Machine
end

