-- ==== Sys2Proof/Machine/Words.lean ====
section
/-! DEFINITION. The word that a context executes: the opcode map picks the instruction and its fields, and that instruction runs (R128 to
R130, R169, R380). -/
namespace Sys2Proof.Machine

/-- The elements of a block instruction that nothing interrupts. -/
def wholeBlock : Nat := 2 ^ 64

/-- The instruction of a word runs by its own meaning. A command of another unit stands in no word. -/
def hearthRun (i : Instr) (s : State) : Result :=
  match i with
  | .seth c f => execSeth c f s
  | .bz c ra disp => execBz c ra disp s
  | .bnz c ra disp => execBnz c ra disp s
  | .br c disp => execBr c disp s
  | .call c disp => execCall c disp s
  | .jr c f => execJr c f s
  | .jalr c f => execJalr c f s
  | .loop c rsv ra len => execLoop c rsv ra len s
  | .loopi c count len => execLoopi c count len s
  | .rep c rsv => execRep c rsv s
  | .movb c f limit link => execMovb c f limit s link
  | .fillb c f limit => execFillb c f limit s
  | .trap c n rsv => execTrap c n rsv s
  | .niw c k rsv => execNiw c k rsv s
  | .drd c f item => execDrd c f item s
  | .crc c f alg size rsv => execCrc c f alg size rsv s
  | .crcb c f alg size rsv limit link => execCrcb c f alg size rsv limit s link
  | .flabs c f limit link => execFlabs c f limit s link
  | .leaveInstr c f link => execLeaveInstr c f s link
  | .setRx c via => execSetRx c via s
  | .setTx c via => execSetTx c via s
  | .releaseRx c via => execReleaseRx c via s
  | .releaseTx c via => execReleaseTx c via s
  | .rewindRx c via => execRewindRx c via s
  | .rewindTx c f => execRewindTx c f s
  | .addi c f => execAddi c f s
  | .andi c f => execAndi c f s
  | .ori c f => execOri c f s
  | .xori c f => execXori c f s
  | .ceqi c f => execCeqi c f s
  | .clti c f => execClti c f s
  | .cltui c f => execCltui c f s
  | .slli c rd ra rsv amount => execSlli c rd ra rsv amount s
  | .srli c rd ra rsv amount => execSrli c rd ra rsv amount s
  | .srai c rd ra rsv amount => execSrai c rd ra rsv amount s
  | .rotri c rd ra rsv amount => execRotri c rd ra rsv amount s
  | .extu c f => execExtu c f s
  | .exts c f => execExts c f s
  | .ins c f => execIns c f s
  | .ldb c f link => execLdb c f s link
  | .ldh c f link => execLdh c f s link
  | .ldw c f link => execLdw c f s link
  | .ldd c f link => execLdd c f s link
  | .ldbs c f link => execLdbs c f s link
  | .ldhs c f link => execLdhs c f s link
  | .ldws c f link => execLdws c f s link
  | .stb c f => execStb c f s
  | .sth c f => execSth c f s
  | .stw c f => execStw c f s
  | .std c f => execStd c f s
  | .lea c f => execLea c f s
  | .add c f => execAdd c f s
  | .sub c f => execSub c f s
  | .and c f => execAnd c f s
  | .or c f => execOr c f s
  | .xor c f => execXor c f s
  | .andn c f => execAndn c f s
  | .nor c f => execNor c f s
  | .sll c f => execSll c f s
  | .srl c f => execSrl c f s
  | .sra c f => execSra c f s
  | .rotr c f => execRotr c f s
  | .min c f => execMin c f s
  | .max c f => execMax c f s
  | .minu c f => execMinu c f s
  | .maxu c f => execMaxu c f s
  | .clz c f => execClz c f s
  | .popc c f => execPopc c f s
  | .bswap c f => execBswap c f s
  | .mul c f => execMul c f s
  | .mulh c f => execMulh c f s
  | .mulhu c f => execMulhu c f s
  | .div c f => execDiv c f s
  | .divu c f => execDivu c f s
  | .rem c f => execRem c f s
  | .remu c f => execRemu c f s
  | .ceq c f => execCeq c f s
  | .cne c f => execCne c f s
  | .clt c f => execClt c f s
  | .cltu c f => execCltu c f s
  | .cle c f => execCle c f s
  | .cleu c f => execCleu c f s
  | .cbef32 c f => execCbef32 c f s
  | .mfc c f => execMfc c f s
  | .mtc c f => execMtc c f s
  | .retx c f => execRetx c f s
  | .fence c f => execFence c f s
  | .lock c f => execLock c f s
  | .unlock c f => execUnlock c f s
  | .yield c f => execYield c f s
  | .frd c f chk => execFrd c f s chk
  | .fopen c f => execFopen c f s
  | .fput c f => execFput c f s
  | .fclose c f => execFclose c f s
  | .pstat c f => execPstat c f s
  | .xget c f link => execXget c f s link
  | .xput c f link => execXput c f s link
  | .xrem c f => execXrem c f s
  | .hend c f link => execHend c f s link
  | .waite c f => execWaite c f s
  | .pi c f link => execPi c f s link
  | .rlim c f link => execRlim c f s link
  | .fom c f link => execFom c f s link
  | .flinit c f => execFlinit c f s
  | .flsqz c f => execFlsqz c f s
  | .flver c f link => execFlver c f s link
  | .flend c f => execFlend c f s
  | .usbCtrl c f => execUsbCtrl c f s
  | .usbIn c f => execUsbIn c f s
  | .usbOut c f => execUsbOut c f s
  | .usbOutZlp c f => execUsbOutZlp c f s
  | .usbIntPoll c f => execUsbIntPoll c f s
  | .usbClearHalt c f => execUsbClearHalt c f s
  | .usbAbort c f => execUsbAbort c f s
  | .uartBreak c f => execUartBreak c f s
  | .uartLine c f => execUartLine c f s
  | .uartRts c f => execUartRts c f s
  | .uartClose c f => execUartClose c f s
  | .spiXfer c f => execSpiXfer c f s
  | .spiRead c f => execSpiRead c f s
  | .i2cWrite c f => execI2cWrite c f s
  | .i2cRead c f => execI2cRead c f s
  | .i2cWriteRead c f => execI2cWriteRead c f s
  | .i2cGpio c f => execI2cGpio c f s
  | .gpioSet c f => execGpioSet c f s
  | .gpioPulse c f => execGpioPulse c f s
  | .gpioBlink c f => execGpioBlink c f s
  | .run c f => execRun c f s
  | .dutyA c f => execDutyA c f s
  | .dutyB c f => execDutyB c f s
  | .burst c f => execBurst c f s
  | .pwmFreq c f => execPwmFreq c f s
  | .dir c f => execDir c f s
  | .ilim c f => execIlim c f s
  | .safeReq c f => execSafeReq c f s
  | .faultClear c f => execFaultClear c f s
  | .encCmp c f => execEncCmp c f s
  | .encZero c f => execEncZero c f s
  | _ => .next s

/-- XBLK: a context executes a word. One that the opcode map gives to a row runs as that row (R128, R129); no unit answers an extension
instruction (R169); an unassigned opcode or function raises ILLEGAL_INSTRUCTION (R129, R130, the zero word of R128); a DWR of an item
that takes no write is refused as DWR is (R380). -/
def execXblk (c : Nat) (w : W32) (s : State) : Result :=
  match hearthWord c wholeBlock (s.ctx c).g w with
  | .extension => .next (s.instr c flowPlace (fun t _ => .exc { code := 0xC } t))
  | .unassigned => .next (s.instr c flowPlace (fun t _ => .exc excIllegal t))
  | .driveWrite f item => .next (s.dwr c item f)
  | .row i => hearthRun i s

end Sys2Proof.Machine
end

