-- ==== Sys2Proof/Machine/Dispatch.lean ====
section
/-! DEFINITION. The effect of every command: one arm for each constructor of Instr. -/
namespace Sys2Proof.Machine

def exec (i : Instr) (s : State) : Host.Outcome State Fault Refusal :=
  match i with
  | .registerWrite fn off wide v => Sys2Proof.Machine.execRegisterWrite fn off wide v s
  | .misalignedRegAccess fn off bytes isWrite => Sys2Proof.Machine.execMisalignedRegAccess fn off bytes isWrite s
  | .linkedLowRead fn off wide => Sys2Proof.Machine.execLinkedLowRead fn off s wide
  | .linkedHighRead fn off => Sys2Proof.Machine.execLinkedHighRead fn off s
  | .bar2Access fn off len data => Sys2Proof.Machine.execBar2Access fn off len data s
  | .powerOnReset railsOk => Sys2Proof.Machine.execPowerOnReset railsOk s
  | .resetN lowNs refPresent => Sys2Proof.Machine.execResetN lowNs refPresent s
  | .restart => Sys2Proof.Machine.execRestart s
  | .studyWatchdogExpiry => Sys2Proof.Machine.execStudyWatchdogExpiry s
  | .perstNLow => Sys2Proof.Machine.execPerstNLow s
  | .perstNHigh => Sys2Proof.Machine.execPerstNHigh s
  | .atticProbe r => Sys2Proof.Machine.execAtticProbe r s
  | .flashReadTimeout base => Sys2Proof.Machine.execFlashReadTimeout base s
  | .firmwareSelect => Sys2Proof.Machine.execFirmwareSelect s
  | .imageSelect => Sys2Proof.Machine.execImageSelect s
  | .configApply train => Sys2Proof.Machine.execConfigApply train s
  | .cellarRestore => Sys2Proof.Machine.execCellarRestore s
  | .atticDone => Sys2Proof.Machine.execAtticDone s
  | .atticHalt pfail vin12 => Sys2Proof.Machine.execAtticHalt pfail vin12 s
  | .startRecordWrite => Sys2Proof.Machine.execStartRecordWrite s
  | .keyRevoke => Sys2Proof.Machine.execKeyRevoke s
  | .devkeyDerived => Sys2Proof.Machine.execDevkeyDerived s
  | .flashOpen fn bit => Sys2Proof.Machine.execFlashOpen fn bit s
  | .flashWrite fn bit => Sys2Proof.Machine.execFlashWrite fn bit s
  | .flashCommit fn bit => Sys2Proof.Machine.execFlashCommit fn bit s
  | .flashAbort fn bit => Sys2Proof.Machine.execFlashAbort fn bit s
  | .flashStatus fn bit => Sys2Proof.Machine.execFlashStatus fn bit s
  | .auditRecordWrite => Sys2Proof.Machine.execAuditRecordWrite s
  | .programBind fn q link => Sys2Proof.Machine.execProgramBind fn q s link
  | .write c link => Sys2Proof.Machine.execWrite c s link
  | .read c link => Sys2Proof.Machine.execRead c s link
  | .control c link => Sys2Proof.Machine.execControl c s link
  | .sense c link => Sys2Proof.Machine.execSense c s link
  | .tic c link => Sys2Proof.Machine.execTic c s link
  | .nop c link => Sys2Proof.Machine.execNop c s link
  | .wait c link => Sys2Proof.Machine.execWait c s link
  | .exec c link => Sys2Proof.Machine.execExec c s link
  | .plant c link => Sys2Proof.Machine.execPlant c s link
  | .leaveCcw c link => Sys2Proof.Machine.execLeaveCcw c s link
  | .post c link => Sys2Proof.Machine.execPost c s link
  | .deadlineMiss c => Sys2Proof.Machine.execDeadlineMiss c s
  | .lateBusError c reason => Sys2Proof.Machine.execLateBusError c reason s
  | .asyncBusError c => Sys2Proof.Machine.execAsyncBusError c s
  | .seth c f => Sys2Proof.Machine.execSeth c f s
  | .bz c ra disp => Sys2Proof.Machine.execBz c ra disp s
  | .bnz c ra disp => Sys2Proof.Machine.execBnz c ra disp s
  | .br c disp => Sys2Proof.Machine.execBr c disp s
  | .call c disp => Sys2Proof.Machine.execCall c disp s
  | .jr c f => Sys2Proof.Machine.execJr c f s
  | .jalr c f => Sys2Proof.Machine.execJalr c f s
  | .loop c rsv ra len => Sys2Proof.Machine.execLoop c rsv ra len s
  | .loopi c count len => Sys2Proof.Machine.execLoopi c count len s
  | .rep c rsv => Sys2Proof.Machine.execRep c rsv s
  | .movb c f limit link => Sys2Proof.Machine.execMovb c f limit s link
  | .fillb c f limit => Sys2Proof.Machine.execFillb c f limit s
  | .trap c n rsv => Sys2Proof.Machine.execTrap c n rsv s
  | .niw c k rsv => Sys2Proof.Machine.execNiw c k rsv s
  | .drd c f item => Sys2Proof.Machine.execDrd c f item s
  | .crc c f alg size rsv => Sys2Proof.Machine.execCrc c f alg size rsv s
  | .crcb c f alg size rsv limit link => Sys2Proof.Machine.execCrcb c f alg size rsv limit s link
  | .flabs c f limit link => Sys2Proof.Machine.execFlabs c f limit s link
  | .xblk c w => Sys2Proof.Machine.execXblk c w s
  | .leaveInstr c f link => Sys2Proof.Machine.execLeaveInstr c f s link
  | .waitEnd c => Sys2Proof.Machine.execWaitEnd c s
  | .issueSlotFree h => Sys2Proof.Machine.execIssueSlotFree h s
  | .preemption h => Sys2Proof.Machine.execPreemption h s
  | .quantumEnd c => Sys2Proof.Machine.execQuantumEnd c s
  | .lockWaitTimeout c => Sys2Proof.Machine.execLockWaitTimeout c s
  | .checkerMismatch h => Sys2Proof.Machine.execCheckerMismatch h s
  | .migratingPlaced c => Sys2Proof.Machine.execMigratingPlaced c s
  | .residentRestart c => Sys2Proof.Machine.execResidentRestart c s
  | .linkDown => Sys2Proof.Machine.execLinkDown s
  | .functionLevelReset fn => Sys2Proof.Machine.execFunctionLevelReset fn s
  | .busMasterDisable fn d3hot => Sys2Proof.Machine.execBusMasterDisable fn d3hot s
  | .functionStart fn bme d0 => Sys2Proof.Machine.execFunctionStart fn bme d0 s
  | .functionStop fn => Sys2Proof.Machine.execFunctionStop fn s
  | .watchdogRestart fn v => Sys2Proof.Machine.execWatchdogRestart fn v s
  | .hostWatchdogExpiry fn => Sys2Proof.Machine.execHostWatchdogExpiry fn s
  | .sqTailDoorbell fn q v => Sys2Proof.Machine.execSqTailDoorbell fn q v s
  | .doorbellInv fn q v => Sys2Proof.Machine.execDoorbellInv fn q v s
  | .doorbellResume fn q v => Sys2Proof.Machine.execDoorbellResume fn q v s
  | .cqHeadDoorbell fn q v => Sys2Proof.Machine.execCqHeadDoorbell fn q v s
  | .sqEntryFetch fn q r => Sys2Proof.Machine.execSqEntryFetch fn q r s
  | .notBeforeExpiry fn q => Sys2Proof.Machine.execNotBeforeExpiry fn q s
  | .intDelayExpiry fn q => Sys2Proof.Machine.execIntDelayExpiry fn q s
  | .readContext fn r => Sys2Proof.Machine.execReadContext fn r s
  | .listContexts fn r => Sys2Proof.Machine.execListContexts fn r s
  | .mbRequest fn m v => Sys2Proof.Machine.execMbRequest fn m v s
  | .mbAcknowledge m code bit reply => Sys2Proof.Machine.execMbAcknowledge m code bit reply s
  | .mbAckClear fn m v => Sys2Proof.Machine.execMbAckClear fn m v s
  | .mbNote m bits => Sys2Proof.Machine.execMbNote m bits s
  | .mbMsgWrite fn m n v => Sys2Proof.Machine.execMbMsgWrite fn m n v s
  | .usbConnect port parent hub => Sys2Proof.Machine.execUsbConnect port parent hub s
  | .debounceStable a => Sys2Proof.Machine.execDebounceStable a s
  | .enumerationDone a d => Sys2Proof.Machine.execEnumerationDone a d s
  | .probeEnd a => Sys2Proof.Machine.execProbeEnd a s
  | .probeTimeout a => Sys2Proof.Machine.execProbeTimeout a s
  | .reprobeTimer a => Sys2Proof.Machine.execReprobeTimer a s
  | .usbDisconnect a refused => Sys2Proof.Machine.execUsbDisconnect a s refused
  | .overcurrent port => Sys2Proof.Machine.execOvercurrent port s
  | .ocRetryExpiry port => Sys2Proof.Machine.execOcRetryExpiry port s
  | .intPollInterval a ep => Sys2Proof.Machine.execIntPollInterval a ep s
  | .pulseEnd port pin => Sys2Proof.Machine.execPulseEnd port pin s
  | .blinkToggle port pin => Sys2Proof.Machine.execBlinkToggle port pin s
  | .cmdDone a ep err => Sys2Proof.Machine.execCmdDone a ep err s
  | .stretchTimeout a => Sys2Proof.Machine.execStretchTimeout a s
  | .ctsChange port high => Sys2Proof.Machine.execCtsChange port high s
  | .rxItemArrival a x => Sys2Proof.Machine.execRxItemArrival a x s
  | .gapMarkerStored a => Sys2Proof.Machine.execGapMarkerStored a s
  | .rxIdleClose port => Sys2Proof.Machine.execRxIdleClose port s
  | .usbInPacket a ep data retried => Sys2Proof.Machine.execUsbInPacket a ep data s retried
  | .inputChange port levels since => Sys2Proof.Machine.execInputChange port levels since s
  | .txHandoff a n chk retried => Sys2Proof.Machine.execTxHandoff a n s chk retried
  | .pnAlert ch => Sys2Proof.Machine.execPnAlert ch s
  | .refresh ch dev => Sys2Proof.Machine.execRefresh ch dev s
  | .scrub => Sys2Proof.Machine.execScrub s
  | .xlatCommit fn hi => Sys2Proof.Machine.execXlatCommit fn hi s
  | .xlatDrainDone fn => Sys2Proof.Machine.execXlatDrainDone fn s
  | .dwStart fn e v => Sys2Proof.Machine.execDwStart fn e v s
  | .dwPause fn e v => Sys2Proof.Machine.execDwPause fn e v s
  | .dwEnable fn e v => Sys2Proof.Machine.execDwEnable fn e v s
  | .dwReq fn e v => Sys2Proof.Machine.execDwReq fn e v s
  | .dwBurstDone e r => Sys2Proof.Machine.execDwBurstDone e r s
  | .dwCqHead fn e v => Sys2Proof.Machine.execDwCqHead fn e v s
  | .driveFault n low => Sys2Proof.Machine.execDriveFault n low s
  | .encoderEdge n levels => Sys2Proof.Machine.execEncoderEdge n levels s
  | .encTimeout n => Sys2Proof.Machine.execEncTimeout n s
  | .adcSample n ch v => Sys2Proof.Machine.execAdcSample n ch v s
  | .pwmPeriodEnd n => Sys2Proof.Machine.execPwmPeriodEnd n s
  | .rampTick n => Sys2Proof.Machine.execRampTick n s
  | .inrushEnd n => Sys2Proof.Machine.execInrushEnd n s
  | .zcEdge n => Sys2Proof.Machine.execZcEdge n s
  | .zcTimeout n => Sys2Proof.Machine.execZcTimeout n s
  | .landingRequest k r tag beats lowers ctx sup => Sys2Proof.Machine.execLandingRequest k r tag beats lowers ctx sup s
  | .grantEnd k used => Sys2Proof.Machine.execGrantEnd k used s
  | .freeze fn k v => Sys2Proof.Machine.execFreeze fn k v s
  | .ldBiasWrite fn r v => Sys2Proof.Machine.execLdBiasWrite fn r v s
  | .leaveRequest work => Sys2Proof.Machine.execLeaveRequest work s
  | .boilerEvaluate plant => Sys2Proof.Machine.execBoilerEvaluate plant s
  | .leaseOverrun lease => Sys2Proof.Machine.execLeaseOverrun lease s
  | .boilerMeasure milliV ma100 => Sys2Proof.Machine.execBoilerMeasure milliV ma100 s
  | .paceChange fn v => Sys2Proof.Machine.execPaceChange fn v s
  | .paceDone milliV => Sys2Proof.Machine.execPaceDone milliV s
  | .pmbusAlert status => Sys2Proof.Machine.execPmbusAlert status s
  | .refLost byLoss => Sys2Proof.Machine.execRefLost byLoss s
  | .lfEdge refGood => Sys2Proof.Machine.execLfEdge refGood s
  | .lfAbsent refRuns => Sys2Proof.Machine.execLfAbsent refRuns s
  | .compareMatch u => Sys2Proof.Machine.execCompareMatch u s
  | .cmpTgtWrite fn u v => Sys2Proof.Machine.execCmpTgtWrite fn u v s
  | .cmpIntWrite fn u v => Sys2Proof.Machine.execCmpIntWrite fn u v s
  | .cmpArmWrite fn u v => Sys2Proof.Machine.execCmpArmWrite fn u v s
  | .statSync since rising => Sys2Proof.Machine.execStatSync since rising s
  | .epochPeriod fn => Sys2Proof.Machine.execEpochPeriod fn s
  | .epochNow fn v => Sys2Proof.Machine.execEpochNow fn v s
  | .stPeriodWrite fn v => Sys2Proof.Machine.execStPeriodWrite fn v s
  | .epochPublish fn => Sys2Proof.Machine.execEpochPublish fn s
  | .faultMessage ext => Sys2Proof.Machine.execFaultMessage ext s
  | .errPulseEnd => Sys2Proof.Machine.execErrPulseEnd s
  | .recordClear view src v => Sys2Proof.Machine.execRecordClear view src v s
  | .faultInject fn hi => Sys2Proof.Machine.execFaultInject fn hi s
  | .errHoldWrite fn v => Sys2Proof.Machine.execErrHoldWrite fn v s
  | .studyHoldSet => Sys2Proof.Machine.execStudyHoldSet s
  | .tripleSweep word a b d => Sys2Proof.Machine.execTripleSweep word a b d s
  | .saveArmed milliV => Sys2Proof.Machine.execSaveArmed milliV s
  | .saveStart pfail vin12 => Sys2Proof.Machine.execSaveStart pfail vin12 s
  | .saveCommit => Sys2Proof.Machine.execSaveCommit s
  | .holdupCollapse => Sys2Proof.Machine.execHoldupCollapse s
  | .dbgRead t => Sys2Proof.Machine.execDbgRead t s
  | .dbgWrite t data => Sys2Proof.Machine.execDbgWrite t data s
  | .fuseProg field v => Sys2Proof.Machine.execFuseProg field v s
  | .linkUp => Sys2Proof.Machine.execLinkUp s
  | .portPhyFault port => Sys2Proof.Machine.execPortPhyFault port s
  | .reportWritten r => Sys2Proof.Machine.execReportWritten r s
  | .domainOn d => Sys2Proof.Machine.execDomainOn d s
  | .saveDisarmed milliV => Sys2Proof.Machine.execSaveDisarmed milliV s
  | .idcode => Sys2Proof.Machine.execIdcode s
  | .sample => Sys2Proof.Machine.execSample s
  | .extest => Sys2Proof.Machine.execExtest s
  | .clamp => Sys2Proof.Machine.execClamp s
  | .highz => Sys2Proof.Machine.execHighz s
  | .bypass code => Sys2Proof.Machine.execBypass s code
  | .dbgHalt => Sys2Proof.Machine.execDbgHalt s
  | .dbgRun => Sys2Proof.Machine.execDbgRun s
  | .lcAdvance => Sys2Proof.Machine.execLcAdvance s
  | .lcRetire => Sys2Proof.Machine.execLcRetire s
  | .smbFyId acc => Sys2Proof.Machine.execSmbFyId s acc
  | .smbAtStatus acc => Sys2Proof.Machine.execSmbAtStatus s acc
  | .smbFaultSummary acc => Sys2Proof.Machine.execSmbFaultSummary s acc
  | .smbDieMeas acc => Sys2Proof.Machine.execSmbDieMeas s acc
  | .smbHoldup acc => Sys2Proof.Machine.execSmbHoldup s acc
  | .smbClStatus acc => Sys2Proof.Machine.execSmbClStatus s acc
  | .createCq fn => Sys2Proof.Machine.execCreateCq fn s
  | .deleteCq fn => Sys2Proof.Machine.execDeleteCq fn s
  | .createSq fn => Sys2Proof.Machine.execCreateSq fn s
  | .deleteSq fn => Sys2Proof.Machine.execDeleteSq fn s
  | .enableSq fn => Sys2Proof.Machine.execEnableSq fn s
  | .disableSq fn => Sys2Proof.Machine.execDisableSq fn s
  | .bindSq fn => Sys2Proof.Machine.execBindSq fn s
  | .invalidate fn => Sys2Proof.Machine.execInvalidate fn s
  | .suspend fn => Sys2Proof.Machine.execSuspend fn s
  | .resume fn => Sys2Proof.Machine.execResume fn s
  | .halt fn => Sys2Proof.Machine.execHalt fn s
  | .adopt fn => Sys2Proof.Machine.execAdopt fn s
  | .laneSafe fn => Sys2Proof.Machine.execLaneSafe fn s
  | .laneRelease fn => Sys2Proof.Machine.execLaneRelease fn s
  | .attest fn => Sys2Proof.Machine.execAttest fn s
  | .setRx c via => Sys2Proof.Machine.execSetRx c via s
  | .setTx c via => Sys2Proof.Machine.execSetTx c via s
  | .releaseRx c via => Sys2Proof.Machine.execReleaseRx c via s
  | .releaseTx c via => Sys2Proof.Machine.execReleaseTx c via s
  | .rewindRx c via => Sys2Proof.Machine.execRewindRx c via s
  | .rewindTx c f => Sys2Proof.Machine.execRewindTx c f s
  | .addi c f => Sys2Proof.Machine.execAddi c f s
  | .andi c f => Sys2Proof.Machine.execAndi c f s
  | .ori c f => Sys2Proof.Machine.execOri c f s
  | .xori c f => Sys2Proof.Machine.execXori c f s
  | .ceqi c f => Sys2Proof.Machine.execCeqi c f s
  | .clti c f => Sys2Proof.Machine.execClti c f s
  | .cltui c f => Sys2Proof.Machine.execCltui c f s
  | .slli c rd ra rsv amount => Sys2Proof.Machine.execSlli c rd ra rsv amount s
  | .srli c rd ra rsv amount => Sys2Proof.Machine.execSrli c rd ra rsv amount s
  | .srai c rd ra rsv amount => Sys2Proof.Machine.execSrai c rd ra rsv amount s
  | .rotri c rd ra rsv amount => Sys2Proof.Machine.execRotri c rd ra rsv amount s
  | .extu c f => Sys2Proof.Machine.execExtu c f s
  | .exts c f => Sys2Proof.Machine.execExts c f s
  | .ins c f => Sys2Proof.Machine.execIns c f s
  | .ldb c f link => Sys2Proof.Machine.execLdb c f s link
  | .ldh c f link => Sys2Proof.Machine.execLdh c f s link
  | .ldw c f link => Sys2Proof.Machine.execLdw c f s link
  | .ldd c f link => Sys2Proof.Machine.execLdd c f s link
  | .ldbs c f link => Sys2Proof.Machine.execLdbs c f s link
  | .ldhs c f link => Sys2Proof.Machine.execLdhs c f s link
  | .ldws c f link => Sys2Proof.Machine.execLdws c f s link
  | .stb c f => Sys2Proof.Machine.execStb c f s
  | .sth c f => Sys2Proof.Machine.execSth c f s
  | .stw c f => Sys2Proof.Machine.execStw c f s
  | .std c f => Sys2Proof.Machine.execStd c f s
  | .lea c f => Sys2Proof.Machine.execLea c f s
  | .add c f => Sys2Proof.Machine.execAdd c f s
  | .sub c f => Sys2Proof.Machine.execSub c f s
  | .and c f => Sys2Proof.Machine.execAnd c f s
  | .or c f => Sys2Proof.Machine.execOr c f s
  | .xor c f => Sys2Proof.Machine.execXor c f s
  | .andn c f => Sys2Proof.Machine.execAndn c f s
  | .nor c f => Sys2Proof.Machine.execNor c f s
  | .sll c f => Sys2Proof.Machine.execSll c f s
  | .srl c f => Sys2Proof.Machine.execSrl c f s
  | .sra c f => Sys2Proof.Machine.execSra c f s
  | .rotr c f => Sys2Proof.Machine.execRotr c f s
  | .min c f => Sys2Proof.Machine.execMin c f s
  | .max c f => Sys2Proof.Machine.execMax c f s
  | .minu c f => Sys2Proof.Machine.execMinu c f s
  | .maxu c f => Sys2Proof.Machine.execMaxu c f s
  | .clz c f => Sys2Proof.Machine.execClz c f s
  | .popc c f => Sys2Proof.Machine.execPopc c f s
  | .bswap c f => Sys2Proof.Machine.execBswap c f s
  | .mul c f => Sys2Proof.Machine.execMul c f s
  | .mulh c f => Sys2Proof.Machine.execMulh c f s
  | .mulhu c f => Sys2Proof.Machine.execMulhu c f s
  | .div c f => Sys2Proof.Machine.execDiv c f s
  | .divu c f => Sys2Proof.Machine.execDivu c f s
  | .rem c f => Sys2Proof.Machine.execRem c f s
  | .remu c f => Sys2Proof.Machine.execRemu c f s
  | .ceq c f => Sys2Proof.Machine.execCeq c f s
  | .cne c f => Sys2Proof.Machine.execCne c f s
  | .clt c f => Sys2Proof.Machine.execClt c f s
  | .cltu c f => Sys2Proof.Machine.execCltu c f s
  | .cle c f => Sys2Proof.Machine.execCle c f s
  | .cleu c f => Sys2Proof.Machine.execCleu c f s
  | .cbef32 c f => Sys2Proof.Machine.execCbef32 c f s
  | .mfc c f => Sys2Proof.Machine.execMfc c f s
  | .mtc c f => Sys2Proof.Machine.execMtc c f s
  | .retx c f => Sys2Proof.Machine.execRetx c f s
  | .fence c f => Sys2Proof.Machine.execFence c f s
  | .lock c f => Sys2Proof.Machine.execLock c f s
  | .unlock c f => Sys2Proof.Machine.execUnlock c f s
  | .yield c f => Sys2Proof.Machine.execYield c f s
  | .frd c f chk => Sys2Proof.Machine.execFrd c f s chk
  | .fopen c f => Sys2Proof.Machine.execFopen c f s
  | .fput c f => Sys2Proof.Machine.execFput c f s
  | .fclose c f => Sys2Proof.Machine.execFclose c f s
  | .pstat c f => Sys2Proof.Machine.execPstat c f s
  | .xget c f link => Sys2Proof.Machine.execXget c f s link
  | .xput c f link => Sys2Proof.Machine.execXput c f s link
  | .xrem c f => Sys2Proof.Machine.execXrem c f s
  | .hend c f link => Sys2Proof.Machine.execHend c f s link
  | .waite c f => Sys2Proof.Machine.execWaite c f s
  | .pi c f link => Sys2Proof.Machine.execPi c f s link
  | .rlim c f link => Sys2Proof.Machine.execRlim c f s link
  | .fom c f link => Sys2Proof.Machine.execFom c f s link
  | .flinit c f => Sys2Proof.Machine.execFlinit c f s
  | .flsqz c f => Sys2Proof.Machine.execFlsqz c f s
  | .flver c f link => Sys2Proof.Machine.execFlver c f s link
  | .flend c f => Sys2Proof.Machine.execFlend c f s
  | .usbCtrl c f => Sys2Proof.Machine.execUsbCtrl c f s
  | .usbIn c f => Sys2Proof.Machine.execUsbIn c f s
  | .usbOut c f => Sys2Proof.Machine.execUsbOut c f s
  | .usbOutZlp c f => Sys2Proof.Machine.execUsbOutZlp c f s
  | .usbIntPoll c f => Sys2Proof.Machine.execUsbIntPoll c f s
  | .usbClearHalt c f => Sys2Proof.Machine.execUsbClearHalt c f s
  | .usbAbort c f => Sys2Proof.Machine.execUsbAbort c f s
  | .uartBreak c f => Sys2Proof.Machine.execUartBreak c f s
  | .uartLine c f => Sys2Proof.Machine.execUartLine c f s
  | .uartRts c f => Sys2Proof.Machine.execUartRts c f s
  | .uartClose c f => Sys2Proof.Machine.execUartClose c f s
  | .spiXfer c f => Sys2Proof.Machine.execSpiXfer c f s
  | .spiRead c f => Sys2Proof.Machine.execSpiRead c f s
  | .i2cWrite c f => Sys2Proof.Machine.execI2cWrite c f s
  | .i2cRead c f => Sys2Proof.Machine.execI2cRead c f s
  | .i2cWriteRead c f => Sys2Proof.Machine.execI2cWriteRead c f s
  | .i2cGpio c f => Sys2Proof.Machine.execI2cGpio c f s
  | .gpioSet c f => Sys2Proof.Machine.execGpioSet c f s
  | .gpioPulse c f => Sys2Proof.Machine.execGpioPulse c f s
  | .gpioBlink c f => Sys2Proof.Machine.execGpioBlink c f s
  | .run c f => Sys2Proof.Machine.execRun c f s
  | .dutyA c f => Sys2Proof.Machine.execDutyA c f s
  | .dutyB c f => Sys2Proof.Machine.execDutyB c f s
  | .burst c f => Sys2Proof.Machine.execBurst c f s
  | .pwmFreq c f => Sys2Proof.Machine.execPwmFreq c f s
  | .dir c f => Sys2Proof.Machine.execDir c f s
  | .ilim c f => Sys2Proof.Machine.execIlim c f s
  | .safeReq c f => Sys2Proof.Machine.execSafeReq c f s
  | .faultClear c f => Sys2Proof.Machine.execFaultClear c f s
  | .encCmp c f => Sys2Proof.Machine.execEncCmp c f s
  | .encZero c f => Sys2Proof.Machine.execEncZero c f s

end Sys2Proof.Machine
end

