-- ==== Sys2Proof/Machine/Step.lean ====
section
/-! DEFINITION. One step of the block: the command at the front of the queue takes effect; on an empty queue time advances. -/
namespace Sys2Proof.Machine

/-- One advance of time with no command: Quartz advances, the programs of the ROM take the steps that are due, Boiler switches off
the domains that it may (log 1, log 113). -/
def State.idle (s : State) : State := s.tick.romRun.domainsOff

/-- One step: the front command on the rest of the queue, or, with no command waiting, an advance of time. -/
def step (s : State) : Host.Outcome State Fault Refusal :=
  match s.pending with
  | [] => .next s.idle
  | c :: rest => exec c { s with pending := rest }

/-- The state with the command that a word spells at the front of its queue. No row of the table gives bits, so no word spells
one. -/
def State.withFetchWord (s : State) (nbits w : Nat) : State :=
  match Sys2Proof.decodeTableWord nbits w with
  | some c => { s with pending := c :: s.pending }
  | none => s

end Sys2Proof.Machine
end

