-- ==== Sys2Proof/WellFormed.lean ====
section
/-! DEFINITION. Which commands name things that the block has: each operand within the range that the spec gives it. A command
outside is no row of the block; exec treats an event of an absent item as one that does not occur. -/
namespace Sys2Proof

/-- A context ID (R116, R210): 0 to 16,383. -/
def isContext (c : Nat) : Bool := c < 16384

/-- An attachment ID (R32): 16 × port + slot. -/
def isAttachment (a : Nat) : Bool := a < 4096

/-- A lane port (R30). -/
def isPort (n : Nat) : Bool := n < 256

/-- A drive port (R371). -/
def isDrive (n : Nat) : Bool := n < 64

/-- A queue number (R253). -/
def isQueue (q : Nat) : Bool := q < 8192

/-- A request bit of a mailbox (R278). -/
def isRequestBit (b : Nat) : Bool := b < 16

/-- A Dumbwaiter (R357). -/
def isEngine (e : Nat) : Bool := e < 32

/-- An offset of BAR0 (R233). -/
def isBar0 (off : Nat) : Bool := off < 16777216

/-- An access narrower than 32 bits or not aligned to its size (R10). -/
def isMisaligned (off bytes : Nat) : Bool := bytes < 4 || off % bytes != 0

/-- A range of BAR2 (R234). -/
def isBar2 (off len : Nat) : Bool := off + len ≤ 4294967296

/-- A mailbox (R277). -/
def isMailbox (m : Nat) : Bool := m < 16

/-- A message register of a mailbox (R277). -/
def isMessage (i : Nat) : Bool := i < 8

/-- A compare unit (R438). -/
def isCompare (u : Nat) : Bool := u < 1024

/-- A Hearth (R116). -/
def isHearth (h : Nat) : Bool := h < 64

/-- A USB endpoint address: its number, and bit 7 for IN. -/
def isEndpoint (ep : Nat) : Bool := ep < 16 || (128 ≤ ep && ep < 144)

/-- A converter of a drive port (R374). -/
def isConverter (ch : Nat) : Bool := ch < 2

/-- A Pantry channel, and a device of one (R338). -/
def isChannel (ch : Nat) : Bool := ch < 4
def isDevice (d : Nat) : Bool := d < 2

/-- A Landing (R404). -/
def isLanding (k : Nat) : Bool := k < 392 && k != 7

/-- A requester (R405). -/
def isRequester (r : Nat) : Bool := r < 103

/-- An LD_BIAS register (R414). -/
def isBias (r : Nat) : Bool := r < 128

/-- An output or input pin of a port. -/
def isPin (p : Nat) : Bool := p < 4

/-- A reason of a late bus error (R187). -/
def isLateReason (r : Nat) : Bool := 1 ≤ r && r ≤ 3

/-- An error code of a port command, or 0 for none (R327). -/
def isPortError (e : Nat) : Bool := e ≤ 14

/-- A source of fault messages (R460). -/
def isSource (s : Nat) : Bool := s < 144 && s != 111

/-- A lease (R423, R433). -/
def isLease (n : Nat) : Bool := 1 ≤ n && n ≤ 1023

/-- A power domain (R34). -/
def isDomain (d : Nat) : Bool := d < 64

/-- What a debug access may name (R506). -/
def DebugTarget.wf : DebugTarget → Bool
  | .record c => isContext c
  | .pantry a n => a + n ≤ 4294967296

/-- A fuse field with its slot (R494). -/
def FuseField.wf : FuseField → Bool
  | .fwKey k => k < 4
  | .imgKey k => k < 4
  | .grnKey k => k < 4
  | .revoke => true
  | .lifecycle => true
  | .deviceSecret => true
  | .dsn => true
  | .grade => true

/-- A piece of Boiler's own work (R418). -/
def BoilerWork.wf : BoilerWork → Bool
  | .cluster k => k < 16
  | .porch n => isPort n
  | .driveGroup j => j < 8
  | .dwDomain d => d = 61 || d = 62

/-- Whether every operand of a command is in range. -/
def Instr.wf : Instr → Bool
  | .registerWrite _ off _ _ => isBar0 off
  | .misalignedRegAccess _ off bytes _ => isBar0 off && isMisaligned off bytes
  | .linkedLowRead _ off wide => isBar0 off && (!wide || off % 8 = 0)
  | .linkedHighRead _ off => isBar0 off
  | .bar2Access _ off len data => isBar2 off (match data with
      | some x => x.length
      | none => len)
  | .powerOnReset _ => true
  | .resetN _ _ => true
  | .restart => true
  | .studyWatchdogExpiry => true
  | .perstNLow => true
  | .perstNHigh => true
  | .atticProbe _ => true
  | .flashReadTimeout _ => true
  | .firmwareSelect => true
  | .imageSelect => true
  | .configApply train => train.all (fun r => isChannel r.chan)
  | .cellarRestore => true
  | .atticDone => true
  | .atticHalt _ _ => true
  | .startRecordWrite => true
  | .keyRevoke => true
  | .devkeyDerived => true
  | .flashOpen _ bit => isRequestBit bit
  | .flashWrite _ bit => isRequestBit bit
  | .flashCommit _ bit => isRequestBit bit
  | .flashAbort _ bit => isRequestBit bit
  | .flashStatus _ bit => isRequestBit bit
  | .auditRecordWrite => true
  | .programBind _ q _ => isQueue q
  | .write c _ => isContext c
  | .read c _ => isContext c
  | .control c _ => isContext c
  | .sense c _ => isContext c
  | .tic c _ => isContext c
  | .nop c _ => isContext c
  | .wait c _ => isContext c
  | .exec c _ => isContext c
  | .plant c _ => isContext c
  | .leaveCcw c _ => isContext c
  | .post c _ => isContext c
  | .deadlineMiss c => isContext c
  | .lateBusError c reason => isContext c && isLateReason reason
  | .asyncBusError c => isContext c
  | .seth c _ => isContext c
  | .bz c _ _ => isContext c
  | .bnz c _ _ => isContext c
  | .br c _ => isContext c
  | .call c _ => isContext c
  | .jr c _ => isContext c
  | .jalr c _ => isContext c
  | .loop c _ _ _ => isContext c
  | .loopi c _ _ => isContext c
  | .rep c _ => isContext c
  | .movb c _ _ _ => isContext c
  | .fillb c _ _ => isContext c
  | .trap c _ _ => isContext c
  | .niw c _ _ => isContext c
  | .drd c _ _ => isContext c
  | .crc c _ _ _ _ => isContext c
  | .crcb c _ _ _ _ _ _ => isContext c
  | .flabs c _ _ _ => isContext c
  | .xblk c _ => isContext c
  | .leaveInstr c _ _ => isContext c
  | .waitEnd c => isContext c
  | .issueSlotFree h => isHearth h
  | .preemption h => isHearth h
  | .quantumEnd c => isContext c
  | .lockWaitTimeout c => isContext c
  | .checkerMismatch h => isHearth h
  | .migratingPlaced c => isContext c
  | .residentRestart c => isContext c
  | .linkDown => true
  | .functionLevelReset _ => true
  | .busMasterDisable _ _ => true
  | .functionStart _ _ _ => true
  | .functionStop _ => true
  | .watchdogRestart _ _ => true
  | .hostWatchdogExpiry _ => true
  | .sqTailDoorbell _ q _ => isQueue q
  | .doorbellInv _ q _ => isQueue q
  | .doorbellResume _ q _ => isQueue q
  | .cqHeadDoorbell _ q _ => isQueue q
  | .sqEntryFetch _ q _ => isQueue q
  | .notBeforeExpiry _ q => isQueue q
  | .intDelayExpiry _ q => isQueue q
  | .readContext _ _ => true
  | .listContexts _ _ => true
  | .mbRequest _ m _ => isMailbox m
  | .mbAcknowledge m _ bit reply => isMailbox m && isRequestBit bit && reply.all (fun p => isMessage p.1)
  | .mbAckClear _ m _ => isMailbox m
  | .mbNote m _ => isMailbox m
  | .mbMsgWrite _ m i _ => isMailbox m && isMessage i
  | .usbConnect port _ _ => isPort port
  | .debounceStable a => isAttachment a
  | .enumerationDone a _ => isAttachment a
  | .probeEnd a => isAttachment a
  | .probeTimeout a => isAttachment a
  | .reprobeTimer a => isAttachment a
  | .usbDisconnect a _ => isAttachment a
  | .overcurrent port => isPort port
  | .ocRetryExpiry port => isPort port
  | .intPollInterval a ep => isAttachment a && isEndpoint ep
  | .pulseEnd port pin => isPort port && isPin pin
  | .blinkToggle port pin => isPort port && isPin pin
  | .cmdDone a ep err => isAttachment a && isEndpoint ep && isPortError err
  | .stretchTimeout a => isAttachment a
  | .ctsChange port _ => isPort port
  | .rxItemArrival a _ => isAttachment a
  | .gapMarkerStored a => isAttachment a
  | .rxIdleClose port => isPort port
  | .usbInPacket a ep _ _ => isAttachment a && isEndpoint ep
  | .inputChange port _ _ => isPort port
  | .txHandoff a _ _ _ => isAttachment a
  | .pnAlert ch => isChannel ch
  | .refresh ch dev => isChannel ch && isDevice dev
  | .scrub => true
  | .xlatCommit _ _ => true
  | .xlatDrainDone _ => true
  | .dwStart _ e _ => isEngine e
  | .dwPause _ e _ => isEngine e
  | .dwEnable _ e _ => isEngine e
  | .dwReq _ e _ => isEngine e
  | .dwBurstDone e _ => isEngine e
  | .dwCqHead _ e _ => isEngine e
  | .driveFault n _ => isDrive n
  | .encoderEdge n _ => isDrive n
  | .encTimeout n => isDrive n
  | .adcSample n ch _ => isDrive n && isConverter ch
  | .pwmPeriodEnd n => isDrive n
  | .rampTick n => isDrive n
  | .inrushEnd n => isDrive n
  | .zcEdge n => isDrive n
  | .zcTimeout n => isDrive n
  | .landingRequest k r _ _ _ ctx _ => isLanding k && isRequester r && (match ctx with
      | some x => isContext x
      | none => true)
  | .grantEnd k _ => isLanding k
  | .freeze _ k _ => isLanding k
  | .ldBiasWrite _ r _ => isRequester r
  | .leaveRequest work => work.wf
  | .boilerEvaluate _ => true
  | .leaseOverrun lease => isLease lease
  | .boilerMeasure _ _ => true
  | .paceChange _ _ => true
  | .paceDone _ => true
  | .pmbusAlert _ => true
  | .refLost _ => true
  | .lfEdge _ => true
  | .lfAbsent _ => true
  | .compareMatch u => isCompare u
  | .cmpTgtWrite _ u _ => isCompare u
  | .cmpIntWrite _ u _ => isCompare u
  | .cmpArmWrite _ u _ => isCompare u
  | .statSync _ _ => true
  | .epochPeriod _ => true
  | .epochNow _ _ => true
  | .stPeriodWrite _ _ => true
  | .epochPublish _ => true
  | .faultMessage _ => true
  | .errPulseEnd => true
  | .recordClear _ src _ => isSource src
  | .faultInject _ _ => true
  | .errHoldWrite _ _ => true
  | .studyHoldSet => true
  | .tripleSweep _ _ _ _ => true
  | .saveArmed _ => true
  | .saveStart _ _ => true
  | .saveCommit => true
  | .holdupCollapse => true
  | .dbgRead t => t.wf
  | .dbgWrite t _ => t.wf
  | .fuseProg field _ => field.wf
  | .linkUp => true
  | .portPhyFault port => isPort port
  | .reportWritten _ => true
  | .domainOn d => isDomain d
  | .saveDisarmed _ => true
  | .idcode => true
  | .sample => true
  | .extest => true
  | .clamp => true
  | .highz => true
  | .bypass code => isBypassCode code
  | .dbgHalt => true
  | .dbgRun => true
  | .lcAdvance => true
  | .lcRetire => true
  | .smbFyId _ => true
  | .smbAtStatus _ => true
  | .smbFaultSummary _ => true
  | .smbDieMeas _ => true
  | .smbHoldup _ => true
  | .smbClStatus _ => true
  | .createCq _ => true
  | .deleteCq _ => true
  | .createSq _ => true
  | .deleteSq _ => true
  | .enableSq _ => true
  | .disableSq _ => true
  | .bindSq _ => true
  | .invalidate _ => true
  | .suspend _ => true
  | .resume _ => true
  | .halt _ => true
  | .adopt _ => true
  | .laneSafe _ => true
  | .laneRelease _ => true
  | .attest _ => true
  | .setRx c _ => isContext c
  | .setTx c _ => isContext c
  | .releaseRx c _ => isContext c
  | .releaseTx c _ => isContext c
  | .rewindRx c _ => isContext c
  | .rewindTx c _ => isContext c
  | .addi c _ => isContext c
  | .andi c _ => isContext c
  | .ori c _ => isContext c
  | .xori c _ => isContext c
  | .ceqi c _ => isContext c
  | .clti c _ => isContext c
  | .cltui c _ => isContext c
  | .slli c _ _ _ _ => isContext c
  | .srli c _ _ _ _ => isContext c
  | .srai c _ _ _ _ => isContext c
  | .rotri c _ _ _ _ => isContext c
  | .extu c f => isContext c && !f.s
  | .exts c f => isContext c && f.s
  | .ins c _ => isContext c
  | .ldb c _ _ => isContext c
  | .ldh c _ _ => isContext c
  | .ldw c _ _ => isContext c
  | .ldd c _ _ => isContext c
  | .ldbs c _ _ => isContext c
  | .ldhs c _ _ => isContext c
  | .ldws c _ _ => isContext c
  | .stb c _ => isContext c
  | .sth c _ => isContext c
  | .stw c _ => isContext c
  | .std c _ => isContext c
  | .lea c _ => isContext c
  | .add c _ => isContext c
  | .sub c _ => isContext c
  | .and c _ => isContext c
  | .or c _ => isContext c
  | .xor c _ => isContext c
  | .andn c _ => isContext c
  | .nor c _ => isContext c
  | .sll c _ => isContext c
  | .srl c _ => isContext c
  | .sra c _ => isContext c
  | .rotr c _ => isContext c
  | .min c _ => isContext c
  | .max c _ => isContext c
  | .minu c _ => isContext c
  | .maxu c _ => isContext c
  | .clz c _ => isContext c
  | .popc c _ => isContext c
  | .bswap c _ => isContext c
  | .mul c _ => isContext c
  | .mulh c _ => isContext c
  | .mulhu c _ => isContext c
  | .div c _ => isContext c
  | .divu c _ => isContext c
  | .rem c _ => isContext c
  | .remu c _ => isContext c
  | .ceq c _ => isContext c
  | .cne c _ => isContext c
  | .clt c _ => isContext c
  | .cltu c _ => isContext c
  | .cle c _ => isContext c
  | .cleu c _ => isContext c
  | .cbef32 c _ => isContext c
  | .mfc c _ => isContext c
  | .mtc c _ => isContext c
  | .retx c _ => isContext c
  | .fence c _ => isContext c
  | .lock c _ => isContext c
  | .unlock c _ => isContext c
  | .yield c _ => isContext c
  | .frd c _ _ => isContext c
  | .fopen c _ => isContext c
  | .fput c _ => isContext c
  | .fclose c _ => isContext c
  | .pstat c _ => isContext c
  | .xget c _ _ => isContext c
  | .xput c _ _ => isContext c
  | .xrem c _ => isContext c
  | .hend c _ _ => isContext c
  | .waite c _ => isContext c
  | .pi c _ _ => isContext c
  | .rlim c _ _ => isContext c
  | .fom c _ _ => isContext c
  | .flinit c _ => isContext c
  | .flsqz c _ => isContext c
  | .flver c _ _ => isContext c
  | .flend c _ => isContext c
  | .usbCtrl c _ => isContext c
  | .usbIn c _ => isContext c
  | .usbOut c _ => isContext c
  | .usbOutZlp c _ => isContext c
  | .usbIntPoll c _ => isContext c
  | .usbClearHalt c _ => isContext c
  | .usbAbort c _ => isContext c
  | .uartBreak c _ => isContext c
  | .uartLine c _ => isContext c
  | .uartRts c _ => isContext c
  | .uartClose c _ => isContext c
  | .spiXfer c _ => isContext c
  | .spiRead c _ => isContext c
  | .i2cWrite c _ => isContext c
  | .i2cRead c _ => isContext c
  | .i2cWriteRead c _ => isContext c
  | .i2cGpio c _ => isContext c
  | .gpioSet c _ => isContext c
  | .gpioPulse c _ => isContext c
  | .gpioBlink c _ => isContext c
  | .run c _ => isContext c
  | .dutyA c _ => isContext c
  | .dutyB c _ => isContext c
  | .burst c _ => isContext c
  | .pwmFreq c _ => isContext c
  | .dir c _ => isContext c
  | .ilim c _ => isContext c
  | .safeReq c _ => isContext c
  | .faultClear c _ => isContext c
  | .encCmp c _ => isContext c
  | .encZero c _ => isContext c

end Sys2Proof
end

