-- ==== Sys2Proof/Safety.lean ====
section
/-! DEFINITION. What counts as a safe state or a safe run, in the terms that the statements use. -/
namespace Sys2Proof.Machine

/-! ### Fuses (R494) -/

/-- No bit of a number is lost from a to b. -/
def bitsKept (a b : Nat) : Bool := a ||| b = b

/-- The slots of a table that are not empty keep their value. -/
def slotsKept (a b : Tbl Nat) : Bool := (List.range 4).all (fun k => Tbl.get 0 a k = 0 || Tbl.get 0 b k = Tbl.get 0 a k)

/-- No blown fuse bit of a returns to 0 in b (R494). -/
def Fuses.kept (a b : Fuses) : Bool :=
  slotsKept a.fwKey b.fwKey && slotsKept a.imgKey b.imgKey && slotsKept a.grnKey b.grnKey && bitsKept a.revoke b.revoke
    && decide (a.lifecycle ≤ b.lifecycle) && decide (a.deviceSecret ||| b.deviceSecret = b.deviceSecret) && bitsKept a.dsn b.dsn
    && (!a.grade || b.grade)

/-! ### Memories -/

/-- The byte memories of the device are in canonical form: Pantry, the flash and the Cellar; host memory lists rising addresses. -/
def State.memoryOk (s : State) : Bool :=
  Memory.wf 0 s.pantry.mem && Memory.wf 0xFF s.flash.mem && Memory.wf 0 s.cellar.mem && Tbl.rising none s.hostMem

end Sys2Proof.Machine
end

