-- ==== Sys2Proof/Certificates/Slice0/Obligations.lean ====
section
/-! DEFINITION. The statements about the block, and the few notions that they share. -/
namespace Sys2Proof.Machine

/-! ### Notions that the statements share -/

/-- A command completes: it answers a next state with a property. -/
def Completes (i : Instr) (s : State) (P : State → Prop) : Prop := ∃ t, exec i s = .next t ∧ P t

/-- The address of the instruction that a context issues next: under REP the repeated one (R127, R148). -/
def Ctx.issueAddr (x : Ctx) : W64 := if x.rep then x.pc + 4 else x.pc

/-- Context c is in its issue slot in a handler activation, its world issues, no end, no loss of the slot and no late bus error is due,
and the fetch of its next instruction is allowed and good: its next instruction executes (R116, R133, R164, R188, R194). -/
def Issues (s : State) (c : Nat) : Prop :=
  (s.ctx c).state = .running ∧ (s.ctx c).act.isSome = true ∧ s.issues (s.home c) = true ∧ (s.ctx c).asyncErr = none
    ∧ (s.ctx c).due = none ∧ (s.ctx c).slotDue = false ∧ (s.fetchExc c (s.ctx c).issueAddr.toNat).1 = none
    ∧ ¬((s.ctx c).lc ≠ 0 ∧ (s.ctx c).rep = false ∧ (s.ctx c).branch.isSome = true ∧ (s.ctx c).pc = (s.ctx c).le)

/-- The instruction stands where every instruction may stand: in no delay slot, not last in a loop body, not repeated (R141, R145,
R149). -/
def IssuesPlain (s : State) (c : Nat) : Prop :=
  Issues s c ∧ (s.ctx c).branch = none ∧ (s.ctx c).rep = false ∧ ((s.ctx c).lc = 0 ∨ (s.ctx c).pc ≠ (s.ctx c).le)

/-- The context's general registers after writes are done in order and the delayed results of the instruction before after them
(R121, R138). -/
def WritesAll (s t : State) (c : Nat) (l : List (Reg × W64)) : Prop :=
  ∀ r : Reg, (t.ctx c).g r = (((s.ctx c).setAll l).flush).g r

/-- One register is written at once, and no result is delayed. -/
def WritesReg (s t : State) (c : Nat) (rd : Reg) (v : W64) : Prop := WritesAll s t c [(rd, v)] ∧ (t.ctx c).delayed = []

/-- One register is to be written when the next instruction retires (R137, R138). -/
def WritesLate (s t : State) (c : Nat) (up : List (Reg × W64)) (rd : Reg) (v : W64) : Prop :=
  WritesAll s t c up ∧ (t.ctx c).delayed = [(rd, v)]

/-- Nothing but what every instruction moves has changed in a context: general registers, delayed results, pc, lc, rc and rep, the
delay slot, the shadow mark, the count of retired instructions, and of st the fields NI and NIC (R191). -/
def CtxFrame (x y : Ctx) : Prop :=
  { y with regs := x.regs, delayed := x.delayed, pc := x.pc, st := x.st, lc := x.lc, rc := x.rc, rep := x.rep, branch := x.branch,
           shadow := x.shadow, retired := x.retired } = x
    ∧ ∀ i, i ≠ 4 → ¬(8 ≤ i ∧ i < 15) → y.st.getLsbD i = x.st.getLsbD i

/-- Every byte of the device's own memories, and of host memory as the device reads it, is as before. -/
def SameBytes (s t : State) : Prop :=
  (∀ a, Memory.byte 0 t.pantry.mem a = Memory.byte 0 s.pantry.mem a) ∧ (∀ a, Memory.byte 0 t.cellar.mem a = Memory.byte 0 s.cellar.mem a)
    ∧ (∀ a, Memory.byte 0xFF t.flash.mem a = Memory.byte 0xFF s.flash.mem a) ∧ ∀ a, hostByteOf t.hostMem a = hostByteOf s.hostMem a

/-- No burst of the bytes [a, a + n) of Pantry reads with an error that its check does not correct (R345, R346). -/
abbrev GoodRead (s : State) (a n : Nat) : Prop := ∀ b ∈ burstsOf a n, s.pnBad b = false

/-- Every other context is as before, and of the rest of the state nothing has changed but the statistics, Pantry's counts of
corrected bursts and the errors that correction takes away (R345, R456). -/
def Beside (s t : State) (c : Nat) : Prop :=
  (∀ d, d ≠ c → t.ctx d = s.ctx d)
    ∧ { t with ctxs := s.ctxs, stats := s.stats, pantry := { t.pantry with corr := s.pantry.corr, errs := s.pantry.errs } } = s

/-- The frame of an instruction that changes general registers alone: no byte of memory changes. -/
def RegFrame (s t : State) (c : Nat) : Prop := CtxFrame (s.ctx c) (t.ctx c) ∧ Beside s t c ∧ SameBytes s t

end Sys2Proof.Machine

open Sys2Proof Sys2Proof.Machine
/-! ### The Hearth: arithmetic (R130 to R132) -/

/-- The ALU, MULDIV and CMP instructions that cannot trap, each with the operation of R130. -/
def Sys2Proof.Machine.aluRows : List ((Nat → FmtA → Instr) × (W64 → W64 → W64)) :=
  [(.and, fun a b => a &&& b), (.or, fun a b => a ||| b), (.xor, fun a b => a ^^^ b), (.andn, fun a b => a &&& ~~~b),
   (.nor, fun a b => ~~~(a ||| b)), (.sll, fun a b => a <<< (b.toNat % 64)), (.srl, fun a b => a >>> (b.toNat % 64)),
   (.sra, fun a b => a.sshiftRight (b.toNat % 64)), (.rotr, fun a b => (a >>> (b.toNat % 64)) ||| (a <<< ((64 - b.toNat % 64) % 64))),
   (.min, fun a b => if a.slt b then a else b), (.max, fun a b => if a.slt b then b else a),
   (.minu, fun a b => if a.ult b then a else b), (.maxu, fun a b => if a.ult b then b else a),
   (.mulh, fun a b => ((a.signExtend 128 * b.signExtend 128) >>> 64).setWidth 64),
   (.mulhu, fun a b => ((a.setWidth 128 * b.setWidth 128) >>> 64).setWidth 64),
   (.ceq, fun a b => if a = b then 1 else 0), (.cne, fun a b => if a = b then 0 else 1), (.clt, fun a b => if a.slt b then 1 else 0),
   (.cltu, fun a b => if a.ult b then 1 else 0), (.cle, fun a b => if b.slt a then 0 else 1), (.cleu, fun a b => if b.ult a then 0 else 1),
   (.cbef32, fun a b => if (a.setWidth 32 - b.setWidth 32 : W32).msb then 1 else 0)]

/-- Each of these instructions completes: rd takes the result of R130 on the two sources as they were before it, g0 discards it, and
nothing else but what every instruction moves changes. -/
def Sys2Proof.Machine.AluWritesResult : Prop :=
  ∀ row ∈ aluRows, ∀ (s : State) (c : Nat) (f : FmtA), Issues s c →
    Completes (row.1 c f) s (fun t => WritesReg s t c f.rd (row.2 ((s.ctx c).g f.ra) ((s.ctx c).g f.rb)) ∧ RegFrame s t c)

/-- CLZ, POPC and BSWAP with rb = g0 (R130): the leading zero bits are counted from bit 63, and byte i becomes byte 7 − i. -/
def Sys2Proof.Machine.UnaryWritesResult : Prop :=
  ∀ (s : State) (c : Nat) (f : FmtA), Issues s c → f.rb = 0 →
    Completes (.clz c f) s (fun t => (∃ n : Nat, WritesReg s t c f.rd (BitVec.ofNat 64 n) ∧ n ≤ 64
        ∧ ((s.ctx c).g f.ra).toNat < 2 ^ (64 - n) ∧ (n < 64 → 2 ^ (63 - n) ≤ ((s.ctx c).g f.ra).toNat)) ∧ RegFrame s t c)
    ∧ Completes (.popc c f) s (fun t =>
        WritesReg s t c f.rd (BitVec.ofNat 64 ((List.range 64).map (fun i => ((s.ctx c).g f.ra).toNat / 2 ^ i % 2)).sum) ∧ RegFrame s t c)
    ∧ Completes (.bswap c f) s (fun t => (∃ v : W64, WritesReg s t c f.rd v
        ∧ ∀ i : Fin 8, v.extractLsb' (8 * i.val) 8 = ((s.ctx c).g f.ra).extractLsb' (56 - 8 * i.val) 8) ∧ RegFrame s t c)

/-- The instructions that check for OVERFLOW or DIVIDE_ZERO, each with its exact signed result or its quotient or remainder (R130,
R131): the value written, whether the signed result leaves 64 bits, and whether the divisor is 0. -/
def Sys2Proof.Machine.trapRows : List ((Nat → FmtA → Instr) × (W64 → W64 → W64) × (W64 → W64 → Bool) × Bool) :=
  [(.add, fun a b => a + b, fun a b => decide (a.toInt + b.toInt ≠ (a + b).toInt), false),
   (.sub, fun a b => a - b, fun a b => decide (a.toInt - b.toInt ≠ (a - b).toInt), false),
   (.mul, fun a b => a * b, fun a b => decide (a.toInt * b.toInt ≠ (a * b).toInt), false),
   (.div, fun a b => if b = 0 then BitVec.allOnes 64 else a.sdiv b, fun a b => decide (a = BitVec.intMin 64 ∧ b = BitVec.allOnes 64), true),
   (.divu, fun a b => if b = 0 then BitVec.allOnes 64 else a / b, fun _ _ => false, true),
   (.rem, fun a b => if b = 0 then a else a.srem b, fun _ _ => false, true),
   (.remu, fun a b => if b = 0 then a else a % b, fun _ _ => false, true)]

/-- ADD, SUB, MUL, DIV, DIVU, REM and REMU write the wrapped result, the all-ones quotient or the dividend, unless OVE or DZE makes
them trap (R131). -/
def Sys2Proof.Machine.ArithWritesResult : Prop :=
  ∀ row ∈ trapRows, ∀ (s : State) (c : Nat) (f : FmtA), Issues s c →
    ¬(row.2.2.1 ((s.ctx c).g f.ra) ((s.ctx c).g f.rb) = true ∧ (s.ctx c).st.getLsbD 0 = true) →
    ¬(row.2.2.2 = true ∧ (s.ctx c).g f.rb = 0 ∧ (s.ctx c).st.getLsbD 1 = true) →
    Completes (row.1 c f) s (fun t => WritesReg s t c f.rd (row.2.1 ((s.ctx c).g f.ra) ((s.ctx c).g f.rb)) ∧ RegFrame s t c)

/-- With OVE the instruction raises OVERFLOW (code 9) on a signed overflow, and with DZE it raises DIVIDE_ZERO (code 10) on a divisor of
0 (R131): no register is written; the exception is taken as R175 says. -/
def Sys2Proof.Machine.ArithTraps : Prop :=
  (∀ row ∈ trapRows, ∀ (s : State) (c : Nat) (f : FmtA), IssuesPlain s c →
    ((row.2.2.1 ((s.ctx c).g f.ra) ((s.ctx c).g f.rb) = true ∧ (s.ctx c).st.getLsbD 0 = true ∧ (row.2.2.2 = true → (s.ctx c).g f.rb ≠ 0)) →
      exec (row.1 c f) s = .next ((s.fetchExc c (s.ctx c).pc.toNat).2.takeExc c { code := 9 } (s.ctx c).pc false))
    ∧ ((row.2.2.2 = true ∧ (s.ctx c).g f.rb = 0 ∧ (s.ctx c).st.getLsbD 1 = true) →
      exec (row.1 c f) s = .next ((s.fetchExc c (s.ctx c).pc.toNat).2.takeExc c { code := 0xA } (s.ctx c).pc false)))

/-- The instructions that may trap write their result, or trap with nothing written where the spec names a trap. The parts say it whole. -/
def Obligations.ArithmeticWritesOrTraps : Prop := ArithWritesResult ∧ ArithTraps

/-- The immediate instructions of R132 that cannot trap, each with its operation on ra and the 16-bit immediate. -/
def Sys2Proof.Machine.immRows : List ((Nat → FmtI → Instr) × (W64 → BitVec 16 → W64)) :=
  [(.andi, fun a i => a &&& i.setWidth 64), (.ori, fun a i => a ||| i.setWidth 64), (.xori, fun a i => a ^^^ i.setWidth 64),
   (.ceqi, fun a i => if a = i.signExtend 64 then 1 else 0), (.clti, fun a i => if a.slt (i.signExtend 64) then 1 else 0),
   (.cltui, fun a i => if a.ult (i.setWidth 64) then 1 else 0)]

/-- The immediate shifts of R132, each with its operation. -/
def Sys2Proof.Machine.shiftRows : List ((Nat → Reg → Reg → BitVec 8 → BitVec 6 → Instr) × (W64 → Nat → W64)) :=
  [(.slli, fun a n => a <<< n), (.srli, fun a n => a >>> n), (.srai, fun a n => a.sshiftRight n),
   (.rotri, fun a n => (a >>> n) ||| (a <<< ((64 - n) % 64)))]

/-- The immediate, shift and field instructions of R132 complete and write rd; ADDI unless it overflows under OVE, SETH with a k of 0 to
3 and zero reserved bits, the field instructions with pos + len up to 64. -/
def Sys2Proof.Machine.ImmediateWritesResult : Prop :=
  (∀ row ∈ immRows, ∀ (s : State) (c : Nat) (f : FmtI), Issues s c →
    Completes (row.1 c f) s (fun t => WritesReg s t c f.rd (row.2 ((s.ctx c).g f.ra) f.imm) ∧ RegFrame s t c))
  ∧ (∀ (s : State) (c : Nat) (f : FmtI), Issues s c →
      ¬(((s.ctx c).g f.ra).toInt + f.imm.toInt ≠ ((s.ctx c).g f.ra + f.imm.signExtend 64).toInt ∧ (s.ctx c).st.getLsbD 0 = true) →
      Completes (.addi c f) s (fun t => WritesReg s t c f.rd ((s.ctx c).g f.ra + f.imm.signExtend 64) ∧ RegFrame s t c))
  ∧ (∀ row ∈ shiftRows, ∀ (s : State) (c : Nat) (rd ra : Reg) (amount : BitVec 6), Issues s c →
      Completes (row.1 c rd ra 0 amount) s (fun t => WritesReg s t c rd (row.2 ((s.ctx c).g ra) amount.toNat) ∧ RegFrame s t c))
  ∧ (∀ (s : State) (c : Nat) (f : FmtI), Issues s c → f.ra.val < 4 →
      Completes (.seth c f) s (fun t => (∃ v : W64, WritesReg s t c f.rd v ∧ ∀ i : Nat, i < 64 → v.getLsbD i =
        if 16 * f.ra.val ≤ i ∧ i < 16 * f.ra.val + 16 then f.imm.getLsbD (i - 16 * f.ra.val) else ((s.ctx c).g f.rd).getLsbD i)
        ∧ RegFrame s t c))
  ∧ (∀ (s : State) (c : Nat) (f : FmtF), Issues s c → f.rsv = 0 → f.pos.toNat + f.len1.toNat + 1 ≤ 64 →
      (f.s = false → Completes (.extu c f) s (fun t =>
        WritesReg s t c f.rd (((s.ctx c).g f.ra).extractLsb' f.pos.toNat (f.len1.toNat + 1)).toNat ∧ RegFrame s t c))
      ∧ (f.s = true → Completes (.exts c f) s (fun t =>
        WritesReg s t c f.rd ((((s.ctx c).g f.ra).extractLsb' f.pos.toNat (f.len1.toNat + 1)).signExtend 64) ∧ RegFrame s t c))
      ∧ (f.s = false → Completes (.ins c f) s (fun t => (∃ v : W64, WritesReg s t c f.rd v ∧ ∀ i : Nat, i < 64 → v.getLsbD i =
        if f.pos.toNat ≤ i ∧ i ≤ f.pos.toNat + f.len1.toNat then ((s.ctx c).g f.ra).getLsbD (i - f.pos.toNat)
        else ((s.ctx c).g f.rd).getLsbD i) ∧ RegFrame s t c)))
/-! ### The Hearth: memory instructions (R133 to R138, R151, R152) -/

/-- The register and immediate instructions write their results: two operands, one operand, or an immediate. The parts say it whole. -/
def Obligations.RegisterInstructionsWriteResult : Prop := AluWritesResult ∧ UnaryWritesResult ∧ ImmediateWritesResult

/-- The effective address of a memory instruction with `size` bytes, and the update of its base (R134, R135). -/
def Sys2Proof.Machine.EaOf (f : FmtM) (x : Ctx) (size : Nat) (load : Bool) (ea : W64) (up : List (Reg × W64)) : Prop :=
  (f.mode = 0 ∧ ea = x.g f.ra + f.low.signExtend 64 ∧ up = [])
  ∨ (f.mode = 1 ∧ f.low = 0 ∧ f.ra ≠ 0 ∧ (load = true → f.rd ≠ f.ra) ∧ ea = x.g f.ra ∧ up = [(f.ra, x.g f.ra + BitVec.ofNat 64 size)])
  ∨ (f.mode = 2 ∧ f.low = 0 ∧ f.ra ≠ 0 ∧ (load = true → f.rd ≠ f.ra) ∧ ea = x.g f.ra - BitVec.ofNat 64 size ∧ up = [(f.ra, ea)])
  ∨ (f.mode = 3 ∧ f.low.extractLsb' 0 7 = 0
      ∧ ea = x.g f.ra + (x.g (Fin.ofNat 32 (f.low.extractLsb' 9 5).toNat) <<< (f.low.extractLsb' 7 2).toNat) ∧ up = [])

/-- The access of `size` aligned bytes at an address is allowed to the running level (R133, R135, R180). -/
def Sys2Proof.Machine.MayAccess (s : State) (c : Nat) (k : AccKind) (ea : W64) (size : Nat) : Prop :=
  ea.toNat % size = 0 ∧ s.accessExc c k ea.toNat = none

/-- The address lies in no mailbox partner block that the running level answers (R277, R502). -/
def Sys2Proof.Machine.NoPartner (s : State) (c : Nat) (a : Nat) : Prop := (s.ctx c).super1 = true → s.mbBlockAt (s.ctx c).world a = none

/-- The loads with their size and sign extension (R135). -/
def Sys2Proof.Machine.loadRows : List ((Nat → FmtM → Instr) × Nat × Bool) :=
  [(.ldb, 1, false), (.ldh, 2, false), (.ldw, 4, false), (.ldd, 8, false), (.ldbs, 1, true), (.ldhs, 2, true), (.ldws, 4, true)]

/-- A loaded value: the bytes, the first least significant, extended to 64 bits. -/
def Sys2Proof.Machine.loaded (size : Nat) (sx : Bool) (l : List Byte) : W64 :=
  if sx then (BitVec.ofNat (8 * size) (leNat l)).signExtend 64 else (BitVec.ofNat (8 * size) (leNat l)).setWidth 64

/-- Every load completes in each of its four address modes. From Pantry it reads the bytes there, if no burst of them is
uncorrectable; from a host window page it reads host memory, with no buffered store before it and a link that answers; from a partner
block a supervisor reads the mailbox, and an access narrower than 32 bits reads 0 and is reported (the model's reading, logs 19 and
115). The result is delayed, the base update is not, and no byte of memory changes. -/
def Sys2Proof.Machine.LoadsComplete : Prop :=
  ∀ row ∈ loadRows, ∀ (s : State) (c : Nat) (f : FmtM) (ea : W64) (up : List (Reg × W64)), Issues s c → (s.ctx c).rep = false →
    EaOf f (s.ctx c) row.2.1 true ea up → MayAccess s c .read ea row.2.1 →
    (ea.toNat < windowBase → NoPartner s c ea.toNat → GoodRead s ea.toNat row.2.1 →
      Completes (row.1 c f) s (fun t =>
        WritesLate s t c up f.rd (loaded row.2.1 row.2.2 (Memory.bytes 0 s.pantry.mem ea.toNat row.2.1)) ∧ RegFrame s t c))
    ∧ (windowBase ≤ ea.toNat → NoPartner s c ea.toNat → s.dmaOk (s.ctx c).world = true → s.linkBad = false → (s.ctx c).stores = [] →
      Completes (row.1 c f) s (fun t =>
        WritesLate s t c up f.rd (loaded row.2.1 row.2.2 (hostBytesOf s.hostMem (s.busAddr ea.toNat) row.2.1)) ∧ RegFrame s t c))
    ∧ (∀ m, (s.ctx c).super1 = true → s.mbBlockAt (s.ctx c).world ea.toNat = some m →
      Completes (row.1 c f) s (fun t =>
        WritesLate s t c up f.rd (loaded row.2.1 row.2.2 (s.mbPartnerRead m (ea.toNat - Tbl.get 0 s.img.mbAddr m) row.2.1))
          ∧ CtxFrame (s.ctx c) (t.ctx c) ∧ Beside (s.mbPartnerFault m (ea.toNat - Tbl.get 0 s.img.mbAddr m) row.2.1) t c ∧ SameBytes s t))

/-- The loads with the outcome that the link gives a read. -/
def Sys2Proof.Machine.linkLoads : List ((Nat → FmtM → LinkResult → Instr) × Nat) :=
  [(fun c f l => .ldb c f l, 1), (fun c f l => .ldh c f l, 2), (fun c f l => .ldw c f l, 4), (fun c f l => .ldd c f l, 8),
   (fun c f l => .ldbs c f l, 1), (fun c f l => .ldhs c f l, 2), (fun c f l => .ldws c f l, 4)]

/-- A load from a host window page whose read ends in an error on the link, or cannot be sent, raises BUS_ERROR (code 8) with its address
(R119, R354); no base is updated. -/
def Sys2Proof.Machine.HostLoadErrors : Prop :=
  ∀ row ∈ linkLoads, ∀ (s : State) (c : Nat) (f : FmtM) (ea : W64) (up : List (Reg × W64)), IssuesPlain s c →
    EaOf f (s.ctx c) row.2 true ea up → MayAccess s c .read ea row.2 → windowBase ≤ ea.toNat → NoPartner s c ea.toNat →
    (s.ctx c).stores = [] →
    exec (row.1 c f .busError) s = .next { ((({ s with linkBad := true } : State).fetchExc c (s.ctx c).pc.toNat).2.takeExc c
      { code := 8, addr := ea.toNat } (s.ctx c).pc false) with linkBad := s.linkBad }

/-- Loads deliver their bytes, and a load whose read fails on the link raises BUS_ERROR. The parts say it whole. -/
def Obligations.LoadsDeliver : Prop := LoadsComplete ∧ HostLoadErrors

/-- The stores with their size (R135). -/
def Sys2Proof.Machine.storeRows : List ((Nat → FmtM → Instr) × Nat) := [(.stb, 1), (.sth, 2), (.stw, 4), (.std, 8)]

/-- Every store completes in each of its four address modes. To Pantry it writes the low bytes of rd, read before the base update, and
every other byte of memory reads as before; to a host window page it is buffered and no byte of memory changes. To a partner block the
mailboxes become what mbPartnerWrite makes of them: a store narrower than 32 bits leaves them as they were and is reported, and what
a store of 32 or 64 bits does there is the model's reading (logs 19 and 115). -/
def Obligations.StoresWrite : Prop :=
  ∀ row ∈ storeRows, ∀ (s : State) (c : Nat) (f : FmtM) (ea : W64) (up : List (Reg × W64)), Issues s c →
    EaOf f (s.ctx c) row.2 false ea up → MayAccess s c .write ea row.2 →
    (ea.toNat < windowBase → NoPartner s c ea.toNat →
      Completes (row.1 c f) s (fun t =>
        (∀ i, i < row.2 → Memory.byte 0 t.pantry.mem (ea.toNat + i) = ((s.ctx c).g f.rd).extractLsb' (8 * i) 8)
          ∧ (∀ a, a < ea.toNat ∨ ea.toNat + row.2 ≤ a → Memory.byte 0 t.pantry.mem a = Memory.byte 0 s.pantry.mem a)
          ∧ t.hostMem = s.hostMem ∧ WritesAll s t c up ∧ (t.ctx c).delayed = [] ∧ CtxFrame (s.ctx c) (t.ctx c)
          ∧ Beside s { t with pantry := { t.pantry with mem := s.pantry.mem } } c))
    ∧ (windowBase ≤ ea.toNat → NoPartner s c ea.toNat →
      Completes (row.1 c f) s (fun t =>
        (t.ctx c).stores = (s.ctx c).stores ++ [⟨(s.ctx c).world, ea.toNat,
            (List.range row.2).map (fun i => ((s.ctx c).g f.rd).extractLsb' (8 * i) 8), (s.ctx c).curLoc, false⟩]
          ∧ WritesAll s t c up ∧ (t.ctx c).delayed = [] ∧ CtxFrame (s.ctx c) { t.ctx c with stores := (s.ctx c).stores }
          ∧ Beside s t c ∧ SameBytes s t))
    ∧ (∀ m, (s.ctx c).super1 = true → s.mbBlockAt (s.ctx c).world ea.toNat = some m →
      Completes (row.1 c f) s (fun t =>
        (∀ n, t.mb n = (s.mbPartnerWrite m (ea.toNat - Tbl.get 0 s.img.mbAddr m) (leBytes row.2 ((s.ctx c).g f.rd).toNat)).mb n)
          ∧ (row.2 < 4 → Beside (s.mbPartnerFault m (ea.toNat - Tbl.get 0 s.img.mbAddr m) row.2) t c)
          ∧ WritesAll s t c up ∧ (t.ctx c).delayed = [] ∧ CtxFrame (s.ctx c) (t.ctx c) ∧ SameBytes s t))

/-- An address that is not a multiple of the size raises ALIGN, and an access that rights deny raises the exception of R133 and R180, or
ends the CCW of a resident program that reaches a host window page (R229): no base is updated, and nothing is stored. -/
def Obligations.AccessTraps : Prop :=
  ∀ (s : State) (c : Nat) (f : FmtM) (ea : W64) (up : List (Reg × W64)), IssuesPlain s c →
    (∀ row ∈ loadRows, EaOf f (s.ctx c) row.2.1 true ea up →
      (ea.toNat % row.2.1 ≠ 0 → exec (row.1 c f) s
        = .next ((s.fetchExc c (s.ctx c).pc.toNat).2.takeExc c { code := 4, addr := ea.toNat } (s.ctx c).pc false))
      ∧ (∀ e, ea.toNat % row.2.1 = 0 → s.accessExc c .read ea.toNat = some e →
        exec (row.1 c f) s = .next (((s.fetchExc c (s.ctx c).pc.toNat).2.xlatNote ea.toNat).raise c e (s.ctx c).pc false)))
    ∧ (∀ row ∈ storeRows, EaOf f (s.ctx c) row.2 false ea up →
      (ea.toNat % row.2 ≠ 0 → exec (row.1 c f) s
        = .next ((s.fetchExc c (s.ctx c).pc.toNat).2.takeExc c { code := 4, addr := ea.toNat } (s.ctx c).pc false))
      ∧ (∀ e, ea.toNat % row.2 = 0 → s.accessExc c .write ea.toNat = some e →
        exec (row.1 c f) s = .next (((s.fetchExc c (s.ctx c).pc.toNat).2.xlatNote ea.toNat).raise c e (s.ctx c).pc false)))

/-- LEA writes the address of mode 0 or 3 to rd; FENCE retires when every buffered store has gone out, each to the page of the
translation then in force; the pages being valid, host memory alone changes (R135, R136). -/
def Sys2Proof.Machine.LeaAndFence : Prop :=
  (∀ (s : State) (c : Nat) (f : FmtM) (ea : W64) (up : List (Reg × W64)), Issues s c → (f.mode = 0 ∨ f.mode = 3) →
    EaOf f (s.ctx c) 1 false ea up → Completes (.lea c f) s (fun t => WritesReg s t c f.rd ea ∧ RegFrame s t c))
  ∧ (∀ (s : State) (c : Nat), Issues s c → (∀ b ∈ (s.ctx c).stores, s.pageValid ((b.addr - windowBase) / pageBytes) = true) →
    Completes (.fence c ⟨0, 0, 0⟩) s (fun t => (t.ctx c).stores = [] ∧ WritesAll s t c []
      ∧ t.hostMem = (s.ctx c).stores.foldl (fun m b => hostWriteOf m (s.busAddr b.addr) b.data) s.hostMem
      ∧ CtxFrame { s.ctx c with stores := [] } (t.ctx c) ∧ Beside s { t with hostMem := s.hostMem } c))

/-- The bytes [a, a + n) lie in Pantry, and the running level may read or write each. -/
def Sys2Proof.Machine.PantryRange (s : State) (c : Nat) (k : AccKind) (a n : Nat) : Prop :=
  a + n ≤ windowBase ∧ ∀ i, i < n → s.deny (s.ctx c).world (s.ctx c).super1 k (a + i) = none ∧ NoPartner s c (a + i)

/-- Beside context c, nothing has changed but the bytes of Pantry, its error marks and counts, and the statistics. -/
def Sys2Proof.Machine.BesideBlock (s t : State) (c : Nat) : Prop :=
  Beside s { t with pantry := { t.pantry with mem := s.pantry.mem, poison := s.pantry.poison } } c

/-- MOVB copies rb bytes in ascending order, so that source and destination may overlap, and FILLB stores the low byte of ra rb times; the
cursors rd and ra end past the block, rb ends at 0, and every other byte of memory reads as before (R151, R152). Three distinct
registers, none g0, and enough elements before an interruption. -/
def Sys2Proof.Machine.BlockInstructions : Prop :=
  ∀ (s : State) (c : Nat) (f : FmtA) (limit : Nat), IssuesPlain s c → (s.ctx c).delayed = [] →
    f.rd ≠ 0 → f.ra ≠ 0 → f.rb ≠ 0 → f.rd ≠ f.ra → f.rd ≠ f.rb → f.ra ≠ f.rb → ((s.ctx c).g f.rb).toNat ≤ limit →
    PantryRange s c .write ((s.ctx c).g f.rd).toNat ((s.ctx c).g f.rb).toNat →
    (PantryRange s c .read ((s.ctx c).g f.ra).toNat ((s.ctx c).g f.rb).toNat →
      GoodRead s ((s.ctx c).g f.ra).toNat ((s.ctx c).g f.rb).toNat →
      Completes (.movb c f limit) s (fun t =>
        (∀ a, Memory.byte 0 t.pantry.mem a = Memory.byte 0 ((List.range ((s.ctx c).g f.rb).toNat).foldl (fun m i =>
            Memory.setByte 0 m (((s.ctx c).g f.rd).toNat + i) (Memory.byte 0 m (((s.ctx c).g f.ra).toNat + i))) s.pantry.mem) a)
          ∧ (t.ctx c).g f.rd = (s.ctx c).g f.rd + (s.ctx c).g f.rb ∧ (t.ctx c).g f.ra = (s.ctx c).g f.ra + (s.ctx c).g f.rb
          ∧ (t.ctx c).g f.rb = 0 ∧ (∀ r, r ≠ f.rd → r ≠ f.ra → r ≠ f.rb → (t.ctx c).g r = (s.ctx c).g r)
          ∧ t.hostMem = s.hostMem ∧ CtxFrame (s.ctx c) (t.ctx c) ∧ BesideBlock s t c))
    ∧ Completes (.fillb c f limit) s (fun t =>
        (∀ a, Memory.byte 0 t.pantry.mem a
          = if ((s.ctx c).g f.rd).toNat ≤ a ∧ a < ((s.ctx c).g f.rd).toNat + ((s.ctx c).g f.rb).toNat
            then ((s.ctx c).g f.ra).setWidth 8 else Memory.byte 0 s.pantry.mem a)
          ∧ (t.ctx c).g f.rd = (s.ctx c).g f.rd + (s.ctx c).g f.rb ∧ (t.ctx c).g f.rb = 0
          ∧ (∀ r, r ≠ f.rd → r ≠ f.rb → (t.ctx c).g r = (s.ctx c).g r) ∧ t.hostMem = s.hostMem ∧ CtxFrame (s.ctx c) (t.ctx c)
          ∧ BesideBlock s t c)
/-! ### The Hearth: branches, loops and the system instructions (R122 to R127, R139 to R150, R169, R183, R191, R195 to R199, R220) -/

/-- LEA computes an address, FENCE issues the stores, and the block instructions move their bytes. The parts say it whole. -/
def Obligations.AddressesFencesAndBlocks : Prop := LeaAndFence ∧ BlockInstructions

/-- A branch retires with control at its delay slot, and remembers where control goes after it: the instruction in the slot retires to
that address (R139). BZ and BNZ decide on ra as they read it; CALL and JALR link the branch address + 8. -/
def Sys2Proof.Machine.BranchesHaveOneDelaySlot : Prop :=
  (∀ (s : State) (c : Nat), IssuesPlain s c →
    let x := s.ctx c
    let takes := fun (t : State) (l : List (Reg × W64)) (to1 : W64) => (t.ctx c).branch = some (x.pc, to1) ∧ (t.ctx c).pc = x.pc + 4
      ∧ WritesAll s t c l ∧ (t.ctx c).delayed = [] ∧ RegFrame s t c
    (∀ ra d, Completes (.bz c ra d) s (fun t => takes t [] (if x.g ra = 0 then x.pc + 4 * d.signExtend 64 else x.pc + 8)))
    ∧ (∀ ra d, Completes (.bnz c ra d) s (fun t => takes t [] (if x.g ra = 0 then x.pc + 8 else x.pc + 4 * d.signExtend 64)))
    ∧ (∀ d, Completes (.br c d) s (fun t => takes t [] (x.pc + 4 * d.signExtend 64)))
    ∧ (∀ d, Completes (.call c d) s (fun t => takes t [(31, x.pc + 8)] (x.pc + 4 * d.signExtend 64)))
    ∧ (∀ ra, (x.g ra).toNat % 4 = 0 → Completes (.jr c ⟨0, ra, 0⟩) s (fun t => takes t [] (x.g ra)))
    ∧ (∀ rd ra, (x.g ra).toNat % 4 = 0 → Completes (.jalr c ⟨rd, ra, 0⟩) s (fun t => takes t [(rd, x.pc + 8)] (x.g ra))))
  ∧ ∀ (s : State) (c : Nat) (f : FmtA) (b to1 : W64), Issues s c → (s.ctx c).rep = false → (s.ctx c).branch = some (b, to1) →
      Completes (.or c f) s (fun t => (t.ctx c).pc = to1 ∧ (t.ctx c).branch = none)

/-- A jump to a register that is not 4-byte aligned raises ALIGN at the jump (R140). -/
def Sys2Proof.Machine.MisalignedJumpTraps : Prop :=
  ∀ (s : State) (c : Nat) (rd ra : Reg), IssuesPlain s c → ((s.ctx c).g ra).toNat % 4 ≠ 0 →
    let t := (s.fetchExc c (s.ctx c).pc.toNat).2.takeExc c { code := 4, addr := ((s.ctx c).g ra).toNat % 2 ^ 38 } (s.ctx c).pc false
    exec (.jr c ⟨0, ra, 0⟩) s = .next t ∧ exec (.jalr c ⟨rd, ra, 0⟩) s = .next t

/-- Branches and jumps act after one delay slot; a jump to an address that is not aligned traps. The parts say it whole. -/
def Obligations.BranchesAndMisalignedJumps : Prop := BranchesHaveOneDelaySlot ∧ MisalignedJumpTraps

/-- LOOP and LOOPI set lc, ls and le and enter the body, or with a count of 0 leave past it; the instruction at le goes back to ls while lc
is above 1, and else leaves with lc 0 (R143, R144). -/
def Sys2Proof.Machine.LoopsCount : Prop :=
  (∀ (s : State) (c : Nat), IssuesPlain s c →
    let x := s.ctx c
    let starts := fun (t : State) (n : Nat) (len : BitVec 16) =>
      (t.ctx c).lc = n ∧ (t.ctx c).ls = x.pc + 4 ∧ (t.ctx c).le = x.pc + 4 * len.setWidth 64
        ∧ (t.ctx c).pc = (if n = 0 then x.pc + 4 * len.setWidth 64 + 4 else x.pc + 4) ∧ WritesAll s t c [] ∧ (t.ctx c).delayed = []
        ∧ CtxFrame { x with ls := (t.ctx c).ls, le := (t.ctx c).le } (t.ctx c) ∧ Beside s t c ∧ SameBytes s t
    (∀ ra len, len ≠ 0 → (x.g ra).toNat < 2 ^ 32 → Completes (.loop c 0 ra len) s (fun t => starts t (x.g ra).toNat len))
    ∧ (∀ n len, len ≠ 0 → Completes (.loopi c n len) s (fun t => starts t n.toNat len)))
  ∧ ∀ (s : State) (c : Nat) (f : FmtA), Issues s c → (s.ctx c).branch = none → (s.ctx c).rep = false → (s.ctx c).lc ≠ 0 →
      (s.ctx c).pc = (s.ctx c).le →
      Completes (.or c f) s (fun t => if 1 < (s.ctx c).lc then (t.ctx c).pc = (s.ctx c).ls ∧ (t.ctx c).lc = (s.ctx c).lc - 1
        else (t.ctx c).pc = (s.ctx c).le + 4 ∧ (t.ctx c).lc = 0)

/-- REP executes the next instruction rc times: it begins the repetitions, or with rc 0 leaves past that instruction; each repetition
counts rc down, and the last goes on past it (R148). The prefixed word is one of the opcode map that R149 allows. -/
def Sys2Proof.Machine.RepRepeats : Prop :=
  (∀ (s : State) (c : Nat), IssuesPlain s c → (s.fetchExc c ((s.ctx c).pc + 4).toNat).1 = none →
    let w := leNat (s.pnBytes ((s.ctx c).pc + 4).toNat 4)
    repForbidden w = false → hearthWord c 0 (s.ctx c).g (BitVec.ofNat 32 w) ≠ .unassigned → (s.ctx c).lc = 0 →
    Completes (.rep c 0) s (fun t => WritesAll s t c [] ∧ (t.ctx c).delayed = [] ∧ (t.ctx c).rc = (s.ctx c).rc ∧ RegFrame s t c
      ∧ if (s.ctx c).rc = 0 then (t.ctx c).rep = false ∧ (t.ctx c).pc = (s.ctx c).pc + 8
        else (t.ctx c).rep = true ∧ (t.ctx c).pc = (s.ctx c).pc))
  ∧ ∀ (s : State) (c : Nat) (f : FmtA), Issues s c → (s.ctx c).rep = true → (s.ctx c).lc = 0 →
      Completes (.or c f) s (fun t => if (s.ctx c).rc ≤ 1 then (t.ctx c).rep = false ∧ (t.ctx c).rc = 0 ∧ (t.ctx c).pc = (s.ctx c).pc + 8
        else (t.ctx c).rep = true ∧ (t.ctx c).rc = (s.ctx c).rc - 1 ∧ (t.ctx c).pc = (s.ctx c).pc)

/-- LOOP, LOOPI and REP set their registers, and the loop and the repetition count. The parts say it whole. -/
def Obligations.LoopsAndRepeats : Prop := LoopsCount ∧ RepRepeats

/-- The control registers as MFC reads them, by number: pc, st, lc, ls, le, rc, the save set of the running level, id, hlv, qz and dlc
(R122, R124, R127); the reserved bits of sv_st read 0 (R8, R125). -/
def Sys2Proof.Machine.controlValues (s : State) (c : Nat) : List W64 :=
  let x := s.ctx c
  let v := if x.super1 then (if x.visit.isSome then x.gate else x.super) else x.user
  [x.issueAddr, x.st, BitVec.ofNat 64 x.lc, x.ls, x.le, BitVec.ofNat 64 x.rc, v.pc, v.st &&& 0x7F3F, v.x,
   BitVec.ofNat 64 (c % 2 ^ 14 + x.home % 64 * 2 ^ 16 + x.slot % 8 * 2 ^ 24), 2, BitVec.ofNat 64 s.qz.now, BitVec.ofNat 64 x.deadline]

/-- MFC reads a control register; MTC writes st (OVE and DZE alone), lc, ls, le, rc and the save set of the running level. MFC of a
register that is not listed, MTC of one that is not listed or only read, and MTC of st that changes a bit above OVE and DZE raise
ILLEGAL_INSTRUCTION; MTC of lc or rc with a value of 2^32 or above raises ILLEGAL_OPERAND with the register of the value (R122 to
R126). -/
def Obligations.ControlRegisters : Prop :=
  ∀ (s : State) (c : Nat), IssuesPlain s c →
    let x := s.ctx c
    (∀ rd ra v, (controlValues s c)[ra.val]? = some v → Completes (.mfc c ⟨rd, ra, 0⟩) s (fun t => WritesReg s t c rd v ∧ RegFrame s t c))
    ∧ ∀ (ra : Reg),
      let v := x.g ra
      let does := fun (rd : Reg) (P : Ctx → Prop) (z : Ctx → Ctx) => Completes (.mtc c ⟨rd, ra, 0⟩) s (fun t =>
        P (t.ctx c) ∧ WritesAll s t c [] ∧ CtxFrame (z x) (t.ctx c) ∧ Beside s t c ∧ SameBytes s t)
      (v.toNat / 4 = x.st.toNat / 4 → does 1 (fun y => y.st.getLsbD 0 = v.getLsbD 0 ∧ y.st.getLsbD 1 = v.getLsbD 1) (fun z => { z with st := v }))
      ∧ (v.toNat < 2 ^ 32 → x.pc ≠ x.le → does 2 (fun y => y.lc = v.toNat) id)
      ∧ does 3 (fun y => y.ls = v) (fun z => { z with ls := v })
      ∧ does 4 (fun y => y.le = v) (fun z => { z with le := v })
      ∧ (v.toNat < 2 ^ 32 → does 5 (fun y => y.rc = v.toNat) id)
      ∧ does 6 (fun y => (y.save x.setName).pc = v) (fun z => z.setSave x.setName { z.save x.setName with pc := v })
      ∧ does 7 (fun y => (y.save x.setName).st = v) (fun z => z.setSave x.setName { z.save x.setName with st := v })
      ∧ does 8 (fun y => ∀ i, i ≠ 24 → i ≠ 25 → (y.save x.setName).x.getLsbD i = v.getLsbD i)
          (fun z => z.setSave x.setName { z.save x.setName with x := v &&& ~~~(0x3000000 : W64) })
      ∧ ∀ rd rb : Reg,
        let traps := fun (i : Instr) (e : Exc) => exec i s = .next ((s.fetchExc c x.pc.toNat).2.takeExc c e x.pc false)
        (12 < ra.val ∨ rb ≠ 0 → traps (.mfc c ⟨rd, ra, rb⟩) { code := 1 })
        ∧ (rd = 0 ∨ 9 ≤ rd.val ∨ rb ≠ 0 → traps (.mtc c ⟨rd, ra, rb⟩) { code := 1 })
        ∧ (v.toNat / 4 ≠ x.st.toNat / 4 → traps (.mtc c ⟨1, ra, 0⟩) { code := 1 })
        ∧ (2 ^ 32 ≤ v.toNat → traps (.mtc c ⟨2, ra, 0⟩) { code := 2, info := ra.val }
            ∧ traps (.mtc c ⟨5, ra, 0⟩) { code := 2, info := ra.val })

/-- What a supervisor entry leaves of a context (R142, R173 to R175, R185): the delayed results written, the saved pc and status with DS,
sv_x with the exception, supervisor level in the same world, and control at the vector, in the shadow of an entry. -/
def Sys2Proof.Machine.enteredSuper (x : Ctx) (e : Exc) (pc vec : W64) (ds : Bool) : Ctx :=
  { x.flush with
    super := { pc := pc, st := BitVec.ofNat 64 (x.st.toNat % 2 ^ 15 + if ds then 32 else 0), x := e.svx e.info false }
    st := BitVec.ofNat 64 (4 + if x.st.getLsbD 3 then 8 else 0)
    pc := vec, branch := none, rep := false, shadow := true }

/-- An exception of context c enters the supervisor: no visit, its supervisor save set free, and a usable vector of that level (R175,
R176). -/
def Sys2Proof.Machine.EntersSuper (s : State) (c code a : Nat) : Prop :=
  (s.ctx c).visit = none ∧ (s.ctx c).super.live = false ∧ bitAt (s.vectorWord (s.ctx c).world code) 0 = false
    ∧ s.vectorAddr (s.ctx c).world code true = some a

/-- TRAP through a LOCAL gate that the running level may use raises TRAP with the gate number, through any other gate it does not cross it
raises TRAP refused, and an extension instruction raises EXTENSION: each enters the supervisor at its vector with the state saved
(R169, R175, R195). -/
def Sys2Proof.Machine.TrapEntersSupervisor : Prop :=
  ∀ (s : State) (c a : Nat) (n : BitVec 8), IssuesPlain s c → (s.ctx c).inWindow = false →
    let x := s.ctx c
    let g := Tbl.get 0 (s.wcfg x.world).gates n.toNat
    let from1 := if x.super1 then bitAt g 3 else bitAt g 2
    (EntersSuper s c 0xB a → g % 4 = 1 → from1 = true →
      Completes (.trap c n 0) s (fun t => t.ctx c = enteredSuper x { code := 0xB, info := n.toNat } x.pc (BitVec.ofNat 64 a) false
        ∧ Beside s t c ∧ SameBytes s t))
    ∧ (EntersSuper s c 0xB a → (g % 4 = 0 ∨ from1 = false) →
      Completes (.trap c n 0) s (fun t =>
        t.ctx c = enteredSuper x { code := 0xB, info := n.toNat, refused := true } x.pc (BitVec.ofNat 64 a) false
          ∧ ((t.hearths.cnt.get x.world).refused = satInc32 (s.hearths.cnt.get x.world).refused)))
    ∧ (∀ w : W32, w.toNat / 2 ^ 26 = 0x3F → EntersSuper s c 0xC a → Completes (.xblk c w) s (fun t =>
        t.ctx c = enteredSuper x { code := 0xC } x.pc (BitVec.ofNat 64 a) false ∧ Beside s t c ∧ SameBytes s t))

/-- The major opcodes that are assigned (R129). -/
def Sys2Proof.Machine.assignedOpcodes : List Nat :=
  [0x00, 0x01, 0x02, 0x03, 0x04, 0x05, 0x06, 0x07, 0x08, 0x09, 0x0A, 0x0B, 0x0C, 0x0D, 0x0E, 0x10, 0x11, 0x12, 0x13, 0x14, 0x15, 0x16,
   0x18, 0x19, 0x1A, 0x1B, 0x1C, 0x20, 0x21, 0x22, 0x23, 0x24, 0x25, 0x26, 0x28, 0x2A, 0x2B, 0x2C, 0x30, 0x31, 0x32, 0x33, 0x34, 0x3C,
   0x3D, 0x3E, 0x3F]

/-- The opcodes whose functions count from 1, with the last one of each (R130, R139, R151, R153, R155, R166, R167). -/
def Sys2Proof.Machine.functionsOf : List (Nat × Nat) :=
  [(0x00, 18), (0x01, 7), (0x02, 7), (0x03, 7), (0x24, 2), (0x28, 2), (0x30, 7), (0x31, 4), (0x3D, 3), (0x3E, 5)]

/-- A word with an unassigned opcode, or with a function that its opcode does not list, the zero word among them, raises
ILLEGAL_INSTRUCTION at its own address (R128, R129, R130). -/
def Sys2Proof.Machine.UnassignedIsIllegal : Prop :=
  ∀ (s : State) (c : Nat) (w : W32), IssuesPlain s c →
    let op := w.toNat / 2 ^ 26
    let fn := w.toNat % 2 ^ 11
    (op ∉ assignedOpcodes ∨ ∃ l ∈ functionsOf, l.1 = op ∧ (fn = 0 ∨ l.2 < fn)) →
      exec (.xblk c w) s = .next ((s.fetchExc c (s.ctx c).pc.toNat).2.takeExc c { code := 1 } (s.ctx c).pc false)

/-- The word of format A (R128). -/
def Sys2Proof.Machine.wordA (op fn : Nat) (f : FmtA) : W32 :=
  BitVec.ofNat 32 (op * 2 ^ 26 + f.rd.val * 2 ^ 21 + f.ra.val * 2 ^ 16 + f.rb.val * 2 ^ 11 + fn)

/-- The word of format I (R128). -/
def Sys2Proof.Machine.wordI (op : Nat) (f : FmtI) : W32 :=
  BitVec.ofNat 32 (op * 2 ^ 26 + f.rd.val * 2 ^ 21 + f.ra.val * 2 ^ 16 + f.imm.toNat)

/-- The word of format M (R128, R135). -/
def Sys2Proof.Machine.wordM (op : Nat) (f : FmtM) : W32 :=
  BitVec.ofNat 32 (op * 2 ^ 26 + f.rd.val * 2 ^ 21 + f.ra.val * 2 ^ 16 + f.mode.toNat * 2 ^ 14 + f.low.toNat)

/-- The word of format F (R128). -/
def Sys2Proof.Machine.wordF (op : Nat) (f : FmtF) : W32 :=
  BitVec.ofNat 32 (op * 2 ^ 26 + f.rd.val * 2 ^ 21 + f.ra.val * 2 ^ 16 + f.pos.toNat * 2 ^ 10 + f.len1.toNat * 2 ^ 4
    + (if f.s then 8 else 0) + f.rsv.toNat)

/-- The opcodes of format A whose functions count from 1, each with its instructions in that order; `n` is the number of elements that a
block instruction does before an interruption (R130, R139, R151, R153, R155, R166, R167). -/
def Sys2Proof.Machine.functionRows (n : Nat) : List (Nat × List (Nat → FmtA → Instr)) :=
  [(0x00, [.add, .sub, .and, .or, .xor, .andn, .nor, .sll, .srl, .sra, .rotr, .min, .max, .minu, .maxu, .clz, .popc, .bswap]),
   (0x01, [.mul, .mulh, .mulhu, .div, .divu, .rem, .remu]), (0x02, [.ceq, .cne, .clt, .cltu, .cle, .cleu, .cbef32]),
   (0x03, [.mfc, .mtc, .retx, .fence, .lock, .unlock, .yield]), (0x24, [.jr, .jalr]),
   (0x28, [fun c f => .movb c f n, fun c f => .fillb c f n]), (0x30, [fun c f => .frd c f, .fopen, .fput, .fclose]),
   (0x31, [fun c f => .xget c f, fun c f => .xput c f, .xrem, fun c f => .hend c f]),
   (0x3D, [fun c f => .pi c f, fun c f => .rlim c f, fun c f => .fom c f]),
   (0x3E, [.flinit, fun c f => .flabs c f n, .flsqz, fun c f => .flver c f, .flend])]

/-- The port commands by their codes 1 to 20 (R305). -/
def Sys2Proof.Machine.pcmdRows : List (Nat → FmtA → Instr) :=
  [.usbCtrl, .usbIn, .usbOut, .usbOutZlp, .usbIntPoll, .usbClearHalt, .usbAbort, .uartBreak, .uartLine, .uartRts, .uartClose, .spiXfer,
   .spiRead, .i2cWrite, .i2cRead, .i2cWriteRead, .i2cGpio, .gpioSet, .gpioPulse, .gpioBlink]

/-- The drive items that are written, 0x01 to 0x0B (R380). -/
def Sys2Proof.Machine.itemRows : List (Nat → FmtA → Instr) :=
  [.run, .dutyA, .dutyB, .burst, .pwmFreq, .dir, .ilim, .safeReq, .faultClear, .encCmp, .encZero]

/-- The opcode map reads the word of every instruction as that instruction, with every field at every value; FMK and PCMD are told apart
by register rb. A context that executes a word which the map gives to a row runs that row (R128 to R130, R132, R135, R139, R155, R159). -/
def Obligations.WordsSpellInstructions : Prop :=
  (∀ (c n : Nat) (g : Reg → W64),
    let spells := fun (w : W32) (i : Instr) => hearthWord c n g w = .row i
    let x := fun (op hi lo : Nat) => BitVec.ofNat 32 (op * 2 ^ 26 + hi + lo)
    (∀ row ∈ functionRows n, ∀ k i, row.2[k]? = some i → ∀ f, spells (wordA row.1 (k + 1) f) (i c f))
    ∧ (∀ f : FmtA, spells (wordA 0x30 7 f) (.pstat c f) ∧ spells (wordA 0x32 0 f) (.waite c f)
      ∧ spells (wordA 0x34 0 f) (.leaveInstr c f)
      ∧ (∀ k i, pcmdRows[k]? = some i → (g f.rb).toNat % 256 = k + 1 → spells (wordA 0x30 6 f) (i c f))
      ∧ (∀ k i, ([.setRx, .setTx, .releaseRx, .releaseTx, .rewindRx] : List (Nat → MarkVia → Instr))[k]? = some i →
          (g f.rb).toNat % 8 = k → spells (wordA 0x30 5 f) (i c (.fmk f.rd f.ra f.rb)))
      ∧ ((g f.rb).toNat % 8 = 5 → spells (wordA 0x30 5 f) (.rewindTx c f))
      ∧ (∀ item : BitVec 8, spells (wordA 0x33 (item.toNat * 8 + 1) f) (.drd c f item))
      ∧ (∀ k i, itemRows[k]? = some i → spells (wordA 0x33 ((k + 1) * 8 + 2) f) (i c f))
      ∧ ∀ (alg : BitVec 4) (size : BitVec 2) (rsv : BitVec 4),
          spells (wordA 0x3C (alg.toNat * 128 + size.toNat * 32 + rsv.toNat) f) (.crc c f alg size rsv)
          ∧ spells (wordA 0x3C (alg.toNat * 128 + size.toNat * 32 + 16 + rsv.toNat) f) (.crcb c f alg size rsv n))
    ∧ (∀ k i, ([.addi, .andi, .ori, .xori, .ceqi, .clti, .cltui, .seth] : List (Nat → FmtI → Instr))[k]? = some i →
        ∀ f, spells (wordI (0x04 + k) f) (i c f))
    ∧ (∀ k i, ([.slli, .srli, .srai, .rotri] : List (Nat → Reg → Reg → BitVec 8 → BitVec 6 → Instr))[k]? = some i →
        ∀ (rd ra : Reg) (rsv : BitVec 8) (amount : BitVec 6),
          spells (wordI 0x0C ⟨rd, ra, BitVec.ofNat 16 (k * 2 ^ 14 + rsv.toNat * 2 ^ 6 + amount.toNat)⟩) (i c rd ra rsv amount))
    ∧ (∀ f : FmtF, spells (wordF 0x0D f) (if f.s then .exts c f else .extu c f) ∧ spells (wordF 0x0E f) (.ins c f))
    ∧ (∀ k i, ([fun c f => .ldb c f, fun c f => .ldh c f, fun c f => .ldw c f, fun c f => .ldd c f, fun c f => .ldbs c f,
          fun c f => .ldhs c f, fun c f => .ldws c f] : List (Nat → FmtM → Instr))[k]? = some i → ∀ f, spells (wordM (0x10 + k) f) (i c f))
    ∧ (∀ k i, ([.stb, .sth, .stw, .std, .lea] : List (Nat → FmtM → Instr))[k]? = some i → ∀ f, spells (wordM (0x18 + k) f) (i c f))
    ∧ (∀ (ra : Reg) (d : BitVec 21), spells (x 0x20 (ra.val * 2 ^ 21) d.toNat) (.bz c ra d)
        ∧ spells (x 0x21 (ra.val * 2 ^ 21) d.toNat) (.bnz c ra d))
    ∧ (∀ d : BitVec 26, spells (x 0x22 0 d.toNat) (.br c d) ∧ spells (x 0x23 0 d.toNat) (.call c d) ∧ spells (x 0x2B 0 d.toNat) (.rep c d))
    ∧ (∀ (rsv ra : Reg) (len : BitVec 16), spells (x 0x25 (rsv.val * 2 ^ 21 + ra.val * 2 ^ 16) len.toNat) (.loop c rsv ra len))
    ∧ (∀ (n : BitVec 10) (len : BitVec 16), spells (x 0x26 (n.toNat * 2 ^ 16) len.toNat) (.loopi c n len))
    ∧ (∀ (n : BitVec 8) (rsv : BitVec 18), spells (x 0x2A (rsv.toNat * 2 ^ 8) n.toNat) (.trap c n rsv))
    ∧ ∀ (k : BitVec 7) (rsv : BitVec 19), spells (x 0x2C (rsv.toNat * 2 ^ 7) k.toNat) (.niw c k rsv))
  ∧ ∀ (s : State) (c : Nat) (w : W32) (i : Instr), hearthWord c wholeBlock (s.ctx c).g w = .row i → exec (.xblk c w) s = exec i s

/-- A cross gate that the running level may use enters the other world at its gate entry, at supervisor level, with g8 to g31, the loop and
the repeat registers 0 and g1 to g7 kept; the caller's frame of 256 bytes is written to its frame area; the gate save set has pc 0, the
caller's level and world, and TRAP with the gate number, live (R196 to R199). No store waits, and the frame area lies in Pantry and may
be written. -/
def Obligations.CrossGateEntersOtherWorld : Prop :=
  ∀ (s : State) (c : Nat) (n : BitVec 8), IssuesPlain s c → (s.ctx c).inWindow = false → (s.ctx c).delayed = [] →
    let x := s.ctx c
    let w := s.home c
    let g := Tbl.get 0 (s.wcfg x.world).gates n.toNat
    let fa := (s.wcfg w).frameBase + 256 * c
    g % 4 = 2 → (if x.super1 then bitAt g 3 else bitAt g 2) = true → x.visit = none → x.stores = [] →
    (s.wcfg x.world.other).kernel = true → ¬(s.fc.graniteHalt = true ∧ x.world.other = .granite) → x.world = w →
    s.denyAll w true .write fa 256 = none → fa + 256 ≤ windowBase →
    Completes (.trap c n 0) s (fun t =>
      (t.ctx c).visit = some { frame := fa, callerSuper := x.super1, callerWorld := w }
      ∧ (t.ctx c).st = (if w = .slate then 12 else 4) ∧ (t.ctx c).pc = BitVec.ofNat 64 ((s.wcfg w.other).kernelAddr + 4 * (g / 256 % 2 ^ 24))
      ∧ (∀ r : Reg, (t.ctx c).g r = if r.val < 8 then x.g r else 0)
      ∧ (t.ctx c).lc = 0 ∧ (t.ctx c).ls = 0 ∧ (t.ctx c).le = 0 ∧ (t.ctx c).rc = 0
      ∧ (t.ctx c).gate = { pc := 0, st := x.st &&& 12, x := ({ code := 0xB } : Exc).svx n.toNat false }
      ∧ t.pnBytes fa 256 = (List.range 24).flatMap (fun i => leBytes 8 (x.g (Fin.ofNat 32 (8 + i))).toNat) ++ leBytes 4 x.lc
          ++ leBytes 4 x.rc ++ leBytes 8 x.ls.toNat ++ leBytes 8 x.le.toNat ++ leBytes 8 x.st.toNat ++ leBytes 8 (x.pc + 4).toNat
          ++ [n] ++ List.replicate 23 0
      ∧ CtxFrame { x with visit := (t.ctx c).visit, gate := (t.ctx c).gate, st := (t.ctx c).st, ls := 0, le := 0 } (t.ctx c)
      ∧ BesideBlock s t c
      ∧ ∀ a, a < fa ∨ fa + 256 ≤ a → Memory.byte 0 t.pantry.mem a = Memory.byte 0 s.pantry.mem a)

/-- RETX outside a visit restores pc and st from the save set of the running level, without DS, when the saved status is sound and names
the home world and no higher level; ACTION 1 ends the CCW with HANDLER_FAULT (R183, R184). -/
def Sys2Proof.Machine.RetxReturns : Prop :=
  ∀ (s : State) (c : Nat), IssuesPlain s c → (s.ctx c).inWindow = false → (s.ctx c).visit = none →
    let x := s.ctx c
    let v := if x.super1 then x.super else x.user
    s.retxStatusBad v = false →
    (v.action = 0 → v.pc.toNat % 4 = 0 → World.ofBit (v.st.getLsbD 3) = s.home c → (v.st.getLsbD 2 = true → x.super1 = true) →
      Completes (.retx c ⟨0, 0, 0⟩) s (fun t => (t.ctx c).pc = v.pc ∧ (t.ctx c).st = v.st &&& ~~~(32 : W64) ∧ WritesAll s t c []
        ∧ CtxFrame { x with st := (t.ctx c).st } (t.ctx c) ∧ Beside s t c ∧ SameBytes s t))
    ∧ (v.action = 1 → ∃ t, exec (.retx c ⟨0, 0, 0⟩) s = .next t
        ∧ t = ((s.fetchExc c x.pc.toNat).2.ccwStop c 0xF v.code).countWorld (s.home c) 6 1)

/-- TRAP, XBLK and unassigned words enter the supervisor, and RETX returns. The parts say it whole. -/
def Obligations.TrapsEnterAndReturn : Prop := TrapEntersSupervisor ∧ UnassignedIsIllegal ∧ RetxReturns

/-- NIW opens a window of k instructions, 1 to NI_MAX; YIELD makes the context READY at the end of the order (R153, R191, R218, R219). -/
def Sys2Proof.Machine.WindowAndYield : Prop :=
  ∀ (s : State) (c : Nat), IssuesPlain s c →
    (∀ k : BitVec 7, (s.ctx c).inWindow = false → bits (s.ctx c).st.toNat 8 7 = 0 → k ≠ 0 → k.toNat ≤ (s.wcfg (s.ctx c).world).niMax →
      Completes (.niw c k 0) s (fun t => (t.ctx c).st.getLsbD 4 = true ∧ (t.ctx c).st.extractLsb' 8 7 = k ∧ WritesAll s t c []
        ∧ RegFrame s t c))
    ∧ Completes (.yield c ⟨0, 0, 0⟩) s (fun t => (t.ctx c).state = .ready ∧ (t.ctx c).readySeq = s.hearths.readySeq
        ∧ t.hearths.readySeq = s.hearths.readySeq + 1 ∧ (t.ctx c).st.getLsbD 4 = false ∧ WritesAll s t c []
        ∧ (∀ d, d ≠ c → t.ctx d = s.ctx d) ∧ SameBytes s t
        ∧ CtxFrame { s.ctx c with state := .ready, wait := .none, readySeq := s.hearths.readySeq } (t.ctx c))

/-- LOCK of a free lock above every lock held takes it, LOCK of a lock that another context holds waits, and a number at or below one held
raises LOCK_ORDER; UNLOCK gives a held lock up, to the first waiter if there is one (R154, R220). -/
def Sys2Proof.Machine.LocksFollowOrder : Prop :=
  ∀ (s : State) (c : Nat) (ra : Reg), IssuesPlain s c → (s.ctx c).answer = .none →
    let x := s.ctx c
    let n := (x.g ra).toNat % 65536
    let w := lockWorld n x.world
    s.lockExc x ra = none →
    (x.locks.length < 8 → (∀ l ∈ x.locks, l.num < n) → s.lockHolder n w = none →
      Completes (.lock c ⟨0, ra, 0⟩) s (fun t => (t.ctx c).locks = x.locks ++ [{ num := n, world := w, visit := x.visit.isSome }]
        ∧ WritesAll s t c [] ∧ CtxFrame { x with locks := (t.ctx c).locks } (t.ctx c) ∧ Beside s t c ∧ SameBytes s t))
    ∧ (x.locks.length < 8 → (∀ l ∈ x.locks, l.num < n) → (s.lockHolder n w).isSome = true →
      ∃ t, exec (.lock c ⟨0, ra, 0⟩) s = .next t ∧ (t.ctx c).state = .waiting ∧ (t.ctx c).wait = .lock n w ∧ (t.ctx c).pc = x.pc)
    ∧ (x.locks.length < 8 → (∃ l ∈ x.locks, n ≤ l.num) → exec (.lock c ⟨0, ra, 0⟩) s
        = .next ((s.fetchExc c x.pc.toNat).2.takeExc c { code := 0xD } x.pc false))
    ∧ ∀ l, x.locks.find? (fun k => k.num = n && k.world = w) = some l →
      (s.waiters (.lock n w) = [] →
        Completes (.unlock c ⟨0, ra, 0⟩) s (fun t => (t.ctx c).locks = x.locks.filter (fun k => k != l) ∧ WritesAll s t c []
          ∧ CtxFrame { x with locks := (t.ctx c).locks } (t.ctx c) ∧ Beside s t c ∧ SameBytes s t))
      ∧ (∀ k, k ≠ c → (k, s.ctx k) ∈ s.waiters (.lock n w) →
          (∀ p ∈ s.waiters (.lock n w), p.1 ≠ k → waitsBefore (k, s.ctx k) p = true) →
        Completes (.unlock c ⟨0, ra, 0⟩) s (fun t => (t.ctx c).locks = x.locks.filter (fun k => k != l)
          ∧ (t.ctx k).locks = (s.ctx k).locks ++ [{ num := n, world := w, visit := (s.ctx k).visit.isSome }]
          ∧ (t.ctx k).state = .ready ∧ (t.ctx k).answer = .locked n ∧ WritesAll s t c []
          ∧ CtxFrame { x with locks := (t.ctx c).locks } (t.ctx c) ∧ (∀ d, d ≠ c → d ≠ k → t.ctx d = s.ctx d) ∧ SameBytes s t))
/-! ### The Hearth: port, stream, drive and leave instructions (R155 to R163, R224, R305 to R307, R322, R380, R423) -/

/-- NIW opens a window, YIELD gives up the slot, and locks are taken in order. The parts say it whole. -/
def Obligations.WindowsYieldsAndLocks : Prop := WindowAndYield ∧ LocksFollowOrder

/-- Contexts as before but for the events that have been latched in their targets and attachment latches (R105, R158). -/
def Sys2Proof.Machine.OnlyLatches (s t : State) (c : Nat) : Prop :=
  ∀ d, d ≠ c → { t.ctx d with latch := (s.ctx d).latch, attLatch := (s.ctx d).attLatch } = s.ctx d

/-- What an instruction on attachment a leaves alone: other attachments, other drives, memory, and every other context but its latches. -/
def Sys2Proof.Machine.OnlyAtt (s t : State) (c a : Nat) : Prop :=
  (∀ b, b ≠ a → t.att b = s.att b) ∧ (∀ n, t.drive n = s.drive n) ∧ SameBytes s t ∧ OnlyLatches s t c

/-- FRD takes the word at the head of the receive FIFO with its kind, delayed: 0 data, 1 LENGTH, 2 GAP, 3 the idle word of an empty or
absent channel, and 4 for a word that fails its check as it is read, whose data bits are open (R156, R317, R321). -/
def Sys2Proof.Machine.FrdTakesWords : Prop :=
  ∀ (s : State) (c a : Nat) (i : Option Nat) (rd ra : Reg) (k : WordCheck), Issues s c → (s.ctx c).rep = false →
    s.portRef (s.ctx c) ra = .ok (a, i) →
    let r := (s.att a).rx
    (((s.att a).hasChannels = false ∨ r.visible ≤ r.read) →
      Completes (.frd c ⟨rd, ra, 0⟩ k) s (fun t => WritesLate s t c [] rd 0x3F0000000 ∧ RegFrame s t c))
    ∧ (∀ f, (s.att a).hasChannels = true → r.read < r.visible → r.words[r.read - r.freed]? = some f → (s.ctx c).actOn a cmdReads = false →
      (f.bad = false → k ≠ .failed → Completes (.frd c ⟨rd, ra, 0⟩ k) s (fun t =>
        WritesLate s t c [] rd (BitVec.ofNat 64 (f.w.toNat
          + (if f.head = false then 0 else if f.w.toNat / 2 ^ 28 = 2 then 2 else 1) * 2 ^ 32))
          ∧ (t.att a).rx.read = r.read + 1 ∧ (t.att a).tx = (s.att a).tx ∧ CtxFrame (s.ctx c) (t.ctx c) ∧ OnlyAtt s t c a))
      ∧ (f.bad = true ∨ k = .failed → Completes (.frd c ⟨rd, ra, 0⟩ k) s (fun t =>
        (∃ v : W32, WritesLate s t c [] rd (BitVec.ofNat 64 (v.toNat + 4 * 2 ^ 32)))
          ∧ (t.port (a / 16)).eccUncorr = satInc32 (s.port (a / 16)).eccUncorr ∧ CtxFrame (s.ctx c) (t.ctx c) ∧ OnlyAtt s t c a)))

/-- FOPEN opens a packet for the context, FPUT appends the low word of rb to it, FCLOSE gives it its length, which must lie in the last word
written (R157); without channels the three have no effect. -/
def Sys2Proof.Machine.TransmitPackets : Prop :=
  ∀ (s : State) (c a : Nat) (i : Option Nat) (ra rb : Reg), Issues s c → (s.ctx c).rep = false → s.portRef (s.ctx c) ra = .ok (a, i) →
    let x := (s.att a).tx
    let done := fun (t : State) => WritesAll s t c [] ∧ (t.ctx c).delayed = [] ∧ (t.att a).rx = (s.att a).rx ∧ OnlyAtt s t c a
    ((s.att a).hasChannels = true → x.owner = none → s.txFree a ≠ 0 → Completes (.fopen c ⟨0, ra, 0⟩) s (fun t =>
      (t.att a).tx = { x with packets := x.packets ++ [{ ctx := c }], owner := some c, written := x.written + 1 } ∧ done t))
    ∧ (∀ l p, (s.att a).hasChannels = true → x.owner = some c → s.txFree a ≠ 0 → x.packets = l ++ [p] →
      Completes (.fput c ⟨0, ra, rb⟩) s (fun t =>
        (t.att a).tx = { x with packets := l ++ [{ p with words := p.words ++ [((s.ctx c).g rb).setWidth 32] }], written := x.written + 1 }
          ∧ done t))
    ∧ (∀ l p, (s.att a).hasChannels = true → x.owner = some c → x.packets = l ++ [p] →
      ((s.ctx c).g rb).toNat ≤ 4 * p.words.length → (p.words = [] ∨ 4 * (p.words.length - 1) < ((s.ctx c).g rb).toNat) →
      Completes (.fclose c ⟨0, ra, rb⟩) s (fun t =>
        (t.att a).tx = { x with packets := l ++ [{ p with len := some ((s.ctx c).g rb).toNat }], owner := none } ∧ done t))
    ∧ ((s.att a).hasChannels = false → Completes (.fopen c ⟨0, ra, 0⟩) s (fun t => WritesAll s t c [] ∧ RegFrame s t c)
      ∧ Completes (.fput c ⟨0, ra, rb⟩) s (fun t => WritesAll s t c [] ∧ RegFrame s t c)
      ∧ Completes (.fclose c ⟨0, ra, rb⟩) s (fun t => WritesAll s t c [] ∧ RegFrame s t c))

/-- The mark operations by FMK, outside an activation that receives or sends on the attachment: SET_RX and SET_TX move the marks to the
next word, the releases take them away, REWIND_RX returns to the mark, and REWIND_TX drops what is not handed off and not before the mark,
which alone may latch an event (R155, R322, R324). -/
def Sys2Proof.Machine.MarksMove : Prop :=
  ∀ (s : State) (c a : Nat) (i : Option Nat) (ra rb : Reg), Issues s c → s.portRef (s.ctx c) ra = .ok (a, i) →
    (s.att a).hasChannels = true → (s.ctx c).actOn a cmdReads = false → (s.ctx c).actOn a cmdWrites = false →
    let does := fun (k : Nat) (i : Instr) (P : Att → Prop) => ((s.ctx c).g rb).toNat % 8 = k →
      Completes i s (fun t => P (t.att a) ∧ WritesAll s t c [] ∧ OnlyAtt s t c a
        ∧ CtxFrame { s.ctx c with latch := (t.ctx c).latch, attLatch := (t.ctx c).attLatch } (t.ctx c)
        ∧ (k ≠ 5 → (t.ctx c).latch = (s.ctx c).latch ∧ (t.ctx c).attLatch = (s.ctx c).attLatch))
    let r := (s.att a).rx
    let x := (s.att a).tx
    does 0 (.setRx c (.fmk 0 ra rb)) (fun y => y.rx.mark = some r.read ∧ y.rx.read = r.read ∧ y.tx = x)
    ∧ does 1 (.setTx c (.fmk 0 ra rb)) (fun y => y.tx = { x with mark := some x.written } ∧ y.rx = r)
    ∧ does 2 (.releaseRx c (.fmk 0 ra rb)) (fun y => y.rx.mark = none ∧ y.rx.read = r.read ∧ y.tx = x)
    ∧ does 3 (.releaseTx c (.fmk 0 ra rb)) (fun y => y.tx = { x with mark := none } ∧ y.rx = r)
    ∧ (∀ m, r.mark = some m → does 4 (.rewindRx c (.fmk 0 ra rb)) (fun y => y.rx = { r with read := m } ∧ y.tx = x))
    ∧ (x.mark = none → (∀ p ∈ x.packets, p.handed = 0) → does 5 (.rewindTx c ⟨0, ra, rb⟩) (fun y => y.tx.packets = [] ∧ y.tx.owner = none
        ∧ y.rx = r))

/-- PSTAT gives the status word of the attachment. WAITE takes the latched events that its mask selects, at once where there are some, and
gives up the slot where there are none (R158, R307). -/
def Sys2Proof.Machine.PortStatusAndWaite : Prop :=
  ∀ (s : State) (c a : Nat) (i : Option Nat) (rd ra rb : Reg), Issues s c → s.portRef (s.ctx c) ra = .ok (a, i) →
    Completes (.pstat c ⟨rd, ra, 0⟩) s (fun t => WritesReg s t c rd (BitVec.ofNat 64 (s.portStatus a)) ∧ RegFrame s t c)
    ∧ ∀ k, (s.ctx c).rep = false → (s.ctx c).latchFor a i = some k → ((s.ctx c).g rb).toNat % 128 ≠ 0 → (s.att a).state ≠ .empty →
      let ev := s.waiteEvents c a (((s.ctx c).g rb).toNat % 128) (some k)
      (ev ≠ 0 → Completes (.waite c ⟨rd, ra, rb⟩) s (fun t => WritesReg s t c rd (BitVec.ofNat 64 ev)
        ∧ Tbl.get 0 (t.ctx c).latch k = Tbl.get 0 (s.ctx c).latch k - (Tbl.get 0 (s.ctx c).latch k &&& ev)
        ∧ CtxFrame { s.ctx c with latch := (t.ctx c).latch } (t.ctx c) ∧ Beside s t c ∧ SameBytes s t))
      ∧ (ev = 0 → ∃ t, exec (.waite c ⟨rd, ra, rb⟩) s = .next t ∧ (t.ctx c).state = .waiting
        ∧ (t.ctx c).wait = .waite a (((s.ctx c).g rb).toNat % 128) (some k) ∧ (t.ctx c).pc = (s.ctx c).pc)

/-- The port instructions take received words, build transmit packets, move marks, and answer with the port status or wait for an event. The parts say it whole. -/
def Obligations.PortInstructionsMoveWords : Prop := FrdTakesWords ∧ TransmitPackets ∧ MarksMove ∧ PortStatusAndWaite

/-- PCMD names the row's command in rb[7:0], with its arguments above. -/
def Sys2Proof.Machine.NamesCmd (s : State) (c : Nat) (rb : Reg) (code : Nat) : Prop := ((s.ctx c).g rb).toNat % 256 = code

/-- The port commands that wait for the wire, each with its code and the bytes that it has to send and to receive, of arg8, arg16 and the
bytes that wait in the transmit channel (R305). -/
def Sys2Proof.Machine.queuedRows : List ((Nat → FmtA → Instr) × Nat × (Nat → Nat → Nat → Nat) × (Nat → Nat → Nat → Nat)) :=
  [(.usbCtrl, 1, fun _ _ _ => 8, fun _ _ _ => 0), (.usbIn, 2, fun _ _ _ => 0, fun _ n _ => n), (.usbOut, 3, fun _ n _ => n, fun _ _ _ => 0),
   (.usbOutZlp, 4, fun _ n _ => n, fun _ _ _ => 0), (.usbIntPoll, 5, fun _ _ _ => 0, fun _ n _ => n),
   (.usbClearHalt, 6, fun _ _ _ => 0, fun _ _ _ => 0), (.uartBreak, 8, fun _ _ w => w, fun _ _ _ => 0),
   (.uartLine, 9, fun _ _ _ => 0, fun _ _ _ => 0), (.spiXfer, 12, fun _ n _ => n, fun _ n _ => n), (.spiRead, 13, fun _ _ _ => 0, fun _ n _ => n),
   (.i2cWrite, 14, fun _ n _ => n, fun _ _ _ => 0), (.i2cRead, 15, fun _ _ _ => 0, fun _ n _ => n),
   (.i2cWriteRead, 16, fun m _ _ => m, fun _ n _ => n)]

/-- A port command that no check of R306 refuses gives 0 and is pending on its attachment, with the bytes that R305 gives it to send and to
receive; one that is refused gives the first refusal code and changes nothing. -/
def Sys2Proof.Machine.PortCommandsAreQueued : Prop :=
  ∀ row ∈ queuedRows, ∀ (s : State) (c a : Nat) (i : Option Nat) (f : FmtA), Issues s c → s.portRef (s.ctx c) f.ra = .ok (a, i) →
    NamesCmd s c f.rb row.2.1 →
    let w := ((s.ctx c).g f.rb).toNat % 2 ^ 32
    (s.cmdRefusal a c w = 0 → Completes (row.1 c f) s (fun t => WritesReg s t c f.rd 0
      ∧ (∃ k, (t.att a).cmds = (s.att a).cmds ++ [k] ∧ k.code = row.2.1 ∧ k.ctx = c ∧ k.ep = s.cmdEp a row.2.1 (w / 256 % 256)
          ∧ k.toSend = row.2.2.1 (w / 256 % 256) (w / 65536) (s.att a).tx.waiting
          ∧ k.toRecv = row.2.2.2 (w / 256 % 256) (w / 65536) (s.att a).tx.waiting)
      ∧ (t.att a).error = 0 ∧ (t.att a).rx = (s.att a).rx ∧ (t.att a).tx = (s.att a).tx ∧ OnlyAtt s t c a))
    ∧ (∀ r, s.cmdRefusal a c w = r → r ≠ 0 →
      Completes (row.1 c f) s (fun t => WritesReg s t c f.rd (BitVec.ofNat 64 r) ∧ RegFrame s t c))

/-- The commands that end at once: UART_RTS sets RTS, UART_CLOSE closes the open packet, I2C_GPIO and GPIO_SET set a pin, GPIO_PULSE
raises one until its width has passed, GPIO_BLINK starts and stops a blink, and USB_ABORT without a pending transfer changes nothing;
each gives 0 and clears ERROR. USB_ABORT of a pending transfer ends it with ABORTED, with its open packet closed as a packet with ABORTED
set where no gap marker is pending, and gives 0 (R296 to R305). -/
def Sys2Proof.Machine.PortCommandsAtOnce : Prop :=
  ∀ (s : State) (c a : Nat) (i : Option Nat) (f : FmtA), Issues s c → s.portRef (s.ctx c) f.ra = .ok (a, i) →
    let w := ((s.ctx c).g f.rb).toNat % 2 ^ 32
    let m := w / 256 % 256
    let n := w / 65536
    s.cmdRefusal a c w = 0 →
    let does := fun (i : Instr) (k : Nat) (P : State → Prop) => NamesCmd s c f.rb k → Completes i s (fun t =>
      P t ∧ WritesReg s t c f.rd 0 ∧ (t.att a).error = 0 ∧ (t.att a).cmds = (s.att a).cmds ∧ OnlyAtt s t c a)
    let pin := fun (t : State) (j : Nat) => (t.port (a / 16)).pin j
    does (.uartRts c f) 10 (fun t => t.port (a / 16) = { s.port (a / 16) with rts := bitAt m 0 })
    ∧ does (.uartClose c f) 11 (fun t => (t.att a).rx.openAt = none)
    ∧ does (.i2cGpio c f) 17 (fun t => pin t (m % 2) = { pin s (m % 2) with level := bitAt n 0 })
    ∧ does (.gpioSet c f) 18 (fun t => pin t (m % 4) = { pin s (m % 4) with level := bitAt n 0, blink := none }
        ∧ ∀ j, j ≠ m % 4 → pin t j = pin s j)
    ∧ does (.gpioPulse c f) 19 (fun t => pin t (m % 4)
        = { pin s (m % 4) with level := true, blink := none, pulseEnd := some (s.now + n * 1000000) })
    ∧ does (.gpioBlink c f) 20 (fun t => pin t (m % 4)
        = if n % 256 = 0 then { pin s (m % 4) with level := false, blink := none }
          else { pin s (m % 4) with level := true, blink := some (n % 256, n / 256) })
    ∧ ((∀ k ∈ (s.att a).cmds, k.ep ≠ s.cmdEp a 7 m) → does (.usbAbort c f) 7 (fun t => t.port (a / 16) = s.port (a / 16)))
    ∧ ((∃ k ∈ (s.att a).cmds, k.ep = s.cmdEp a 7 m) → NamesCmd s c f.rb 7 →
      let ep := s.cmdEp a 7 m
      let r := (s.att a).rx
      Completes (.usbAbort c f) s (fun t => WritesReg s t c f.rd 0 ∧ (t.att a).error = 0x0D ∧ (t.att a).errEp = ep
        ∧ (t.att a).cmds = (s.att a).cmds.filter (fun k => k.ep != ep) ∧ (t.att a).tx = (s.att a).tx
        ∧ (bitAt ep 7 = false → ep ≠ 0 → (t.att a).rx = r)
        ∧ (∀ p, bitAt ep 7 = true ∨ ep = 0 → r.openEp = ep → r.openAt = some p → r.gap = 0 →
          let w := BitVec.ofNat 32 (2 ^ 28 + 4 * 2 ^ 16 + (if r.openErr then 2 ^ 19 else 0) + r.openItems % 2 ^ 16)
          (t.att a).rx = { r with
            words := r.words.set (p - r.freed) { w := w, head := true, span := r.wpos - p - 1 }
            visible := r.wpos, openAt := none
            openItems := 0, openErr := false, discard := false
            gapBoundary := r.gapBoundary })
        ∧ OnlyAtt s t c a))

/-- The port commands are queued for the port, or act at once. The parts say it whole. -/
def Obligations.PortCommandsAct : Prop := PortCommandsAreQueued ∧ PortCommandsAtOnce

/-- The activation's stream stands in one member without IDA and SKP whose buffer lies in Pantry from address `b`, with room for n more of
its bytes that the program may reach (R85, R161). -/
def Sys2Proof.Machine.StreamAt (s : State) (c : Nat) (m : Ccw) (b n : Nat) (k : AccKind) : Prop :=
  (s.ctx c).stream.members = [m] ∧ m.ida = false ∧ m.skp = false ∧ m.cd = false ∧ effAddr (s.ctx c).header m.addr = some b
    ∧ (s.ctx c).stream.pos + n ≤ m.bytes ∧ b + m.bytes ≤ windowBase
    ∧ ∀ j, j < n → s.deny (s.home c) false k (b + (s.ctx c).stream.pos + j) = none

/-- XGET takes up to 8 bytes of the stream, delayed, the first in the low bits of rd with their number in rb; at the end of the data it
takes none. XPUT puts up to 8 bytes of ra into the stream and gives their number in rb; what the data area does not hold sets LONG. XREM
gives the bytes left in the member (R161, R98). With rd and rb one register the value that XGET leaves is open (log 7). -/
def Sys2Proof.Machine.StreamMovesBytes : Prop :=
  ∀ (s : State) (c : Nat) (m : Ccw) (b : Nat) (rd ra rb : Reg), Issues s c → (s.ctx c).rep = false →
    let x := s.ctx c
    let n := (x.g rb).toNat
    let p := x.stream.pos
    1 ≤ n → n ≤ 8 →
    (x.actCode = 1 ∨ x.actCode = 3 ∨ x.actCode = 9 → StreamAt s c m b n .read → GoodRead s (b + p) n →
      (rd ≠ rb → Completes (.xget c ⟨rd, 0, rb⟩) s (fun t => WritesAll s t c []
        ∧ (t.ctx c).delayed = [(rd, BitVec.ofNat 64 (leNat (Memory.bytes 0 s.pantry.mem (b + p) n))), (rb, x.g rb)]
        ∧ (t.ctx c).stream.moved = x.stream.moved + n ∧ CtxFrame { x with stream := (t.ctx c).stream } (t.ctx c) ∧ Beside s t c
        ∧ SameBytes s t))
      ∧ (rd = rb → Completes (.xget c ⟨rd, 0, rb⟩) s (fun t => (∃ v : W64, WritesLate s t c [] rd v)
        ∧ (t.ctx c).stream.moved = x.stream.moved + n ∧ SameBytes s t)))
    ∧ (x.actCode = 1 ∨ x.actCode = 3 ∨ x.actCode = 9 → rd ≠ rb → x.stream.members = [m] → m.cd = false → m.bytes ≤ p →
      Completes (.xget c ⟨rd, 0, rb⟩) s (fun t => WritesAll s t c [] ∧ (t.ctx c).delayed = [(rd, 0), (rb, 0)] ∧ RegFrame s t c))
    ∧ (x.actCode = 2 ∨ x.actCode = 4 ∨ x.actCode = 9 → StreamAt s c m b n .write →
      Completes (.xput c ⟨0, ra, rb⟩) s (fun t => WritesReg s t c rb (x.g rb) ∧ (t.ctx c).stream.moved = x.stream.moved + n
        ∧ (t.ctx c).long = x.long
        ∧ (∀ j, j < n → Memory.byte 0 t.pantry.mem (b + p + j) = (x.g ra).extractLsb' (8 * j) 8)
        ∧ (∀ a, a < b + p ∨ b + p + n ≤ a → Memory.byte 0 t.pantry.mem a = Memory.byte 0 s.pantry.mem a)
        ∧ CtxFrame { x with stream := (t.ctx c).stream } (t.ctx c)))
    ∧ (x.actCode = 2 ∨ x.actCode = 4 ∨ x.actCode = 9 → x.stream.members = [m] → m.cd = false → m.bytes ≤ p →
      Completes (.xput c ⟨0, ra, rb⟩) s (fun t => WritesReg s t c rb 0 ∧ (t.ctx c).long = true ∧ SameBytes s t))
    ∧ (x.stream.members = [m] → Completes (.xrem c ⟨rd, 0, 0⟩) s (fun t =>
        WritesReg s t c rd (BitVec.ofNat 64 (m.bytes - p + if m.cd then 2 ^ 63 else 0)) ∧ RegFrame s t c))

/-- HEND with SUCCESS that signals one of the two events of a WRITE, READ, CONTROL or SENSE goes on with that event recorded; when both have
occurred, and for a failing code 2, 3, 6 or 7, the CCW ends with that status (R89, R162, R163). -/
def Sys2Proof.Machine.HendSignalsAndEnds : Prop :=
  ∀ (s : State) (c : Nat) (y : Activation) (fl ra : Reg), IssuesPlain s c → (s.ctx c).act = some y →
    let v := ((s.ctx c).g ra).toNat
    let s1 := (s.fetchExc c (s.ctx c).pc.toNat).2
    fl.val < 8 →
    (v % 256 = 0 → y.code ≠ 9 → y.portDone = false → y.channelDone = false → fl.val % 4 = 2 →
      Completes (.hend c ⟨fl, ra, 0⟩) s (fun t => (t.ctx c).act = some { y with portDone := true }
        ∧ (t.ctx c).cond = ((s.ctx c).cond || bitAt fl.val 2) ∧ WritesAll s t c []
        ∧ CtxFrame { s.ctx c with act := (t.ctx c).act, cond := (t.ctx c).cond } (t.ctx c) ∧ Beside s t c ∧ SameBytes s t))
    ∧ (v % 256 = 0 → y.code ≠ 9 → fl.val % 4 = 3 → ∃ t, exec (.hend c ⟨fl, ra, 0⟩) s = .next t
        ∧ t = ((s1.modCtx c (fun x => { x with
            cond := x.cond || bitAt fl.val 2, act := some { y with portDone := true, channelDone := true } })).ccwFinish c
              { unit := v / 65536 % 65536, normal := true }).countWorld (s.home c) 6 1)
    ∧ (v % 256 ∈ [2, 3, 6, 7] → ∃ t, exec (.hend c ⟨fl, ra, 0⟩) s = .next t
        ∧ t = (s1.ccwFinish c { status := v % 256, unit := v / 65536 % 65536 }).countWorld (s.home c) 6 1)

/-- The stream instructions move bytes and HEND ends the activation with its signals. The parts say it whole. -/
def Obligations.StreamsMoveAndEnd : Prop := StreamMovesBytes ∧ HendSignalsAndEnds

/-- Register r names a drive of the running world (R159). -/
def Sys2Proof.Machine.NamesDrive (s : State) (c : Nat) (r : Reg) (n : Nat) : Prop :=
  ((s.ctx c).g r).toNat = n ∧ n < 64 ∧ s.driveWorld n = some (s.ctx c).world

/-- What a drive instruction leaves alone: other drives, attachments and memory. -/
def Sys2Proof.Machine.OnlyDrive (s t : State) (c n : Nat) : Prop :=
  (∀ m, m ≠ n → t.drive m = s.drive m) ∧ (∀ a, t.att a = s.att a) ∧ SameBytes s t ∧ OnlyLatches s t c

/-- DRD reads an item of a drive, delayed. DWR of PWM_FREQ, DIR, ILIM, ENC_CMP and ENC_ZERO sets the item, and of DUTY_A, DUTY_B and BURST
while RUN is 0 its target; each gives 0. On a drive that is not enabled every DWR gives 2 and changes nothing, and on a slave of a gang a
DWR of an output item raises ILLEGAL_OPERAND (R159, R377, R380, R384). That each drive of a gang cuts its own output, by the
master's limit, is the model's reading (log 74). -/
def Sys2Proof.Machine.DriveItems : Prop :=
  ∀ (s : State) (c n : Nat) (rd ra rb : Reg), Issues s c → (s.ctx c).rep = false → NamesDrive s c ra n →
    (∀ (item : BitVec 8) (v : Int), s.driveRead n item.toNat = some v → Completes (.drd c ⟨rd, ra, 0⟩ item) s (fun t =>
      WritesLate s t c [] rd (BitVec.ofInt 64 v) ∧ RegFrame s t c))
    ∧ ((s.drive n).answers.all (fun y => y.ctx != c) = true →
      let v := ((s.ctx c).g rb).toNat
      let f : FmtA := ⟨rd, ra, rb⟩
      let d := s.drive n
      let sets := fun (i : Instr) (d1 : Drive) => Completes i s (fun t =>
        WritesReg s t c rd 0 ∧ t.drive n = d1 ∧ OnlyDrive s t c n ∧ CtxFrame (s.ctx c) (t.ctx c))
      (s.driveEnabled n = true →
        (200 ≤ v → v ≤ 1000 → d.cfg.gang ≠ 2 → sets (.pwmFreq c f) { d with freq := v })
        ∧ (v ≤ 1 → d.cfg.gang ≠ 2 → sets (.dir c f) { d with dir := v = 1 })
        ∧ (∀ top, top = (if d.cfg.gang = 2 then (s.drive d.cfg.master).ilim else v) → (d.cfg.gang = 2 → d.cfg.master ≠ n) →
            v ≤ 4095 → (top = 4095 ∨ d.adc1 ≤ top) → sets (.ilim c f) { d with ilim := v })
        ∧ (-2147483648 ≤ ((s.ctx c).g rb).toInt → ((s.ctx c).g rb).toInt ≤ 2147483647 → d.encPos ≠ v % 2 ^ 32 →
            sets (.encCmp c f) { d with encCmp := v % 2 ^ 32 })
        ∧ (v = 1 → d.encCmp ≠ 0 → sets (.encZero c f) { d with encPos := 0 })
        ∧ (d.cfg.gang ≠ 2 → d.run = false → d.waiting = [] → d.lease = none →
          (v ≤ 10000 → sets (.dutyA c f) { d with dutyA := v } ∧ sets (.dutyB c f) { d with dutyB := v })
          ∧ (v ≤ 1000 → sets (.burst c f) { d with burst := v })))
      ∧ (d.cfg.gang = 2 → IssuesPlain s c → ∀ k ∈ ([.run, .dutyA, .dutyB, .burst, .pwmFreq, .dir, .safeReq, .faultClear] : List (Nat → FmtA → Instr)),
          exec (k c f) s = .next ((s.fetchExc c (s.ctx c).pc.toNat).2.takeExc c { code := 2, info := ra.val } (s.ctx c).pc false))
      ∧ (s.driveEnabled n = false → d.cfg.gang ≠ 2 → ∀ row ∈ ([(.run, 0, 1), (.dutyA, 0, 10000), (.dutyB, 0, 10000), (.burst, 0, 1000), (.pwmFreq, 200, 1000),
            (.dir, 0, 1), (.ilim, 0, 4095), (.safeReq, 0, 1), (.faultClear, 1, 1), (.encCmp, 0, 2147483647), (.encZero, 1, 1)]
              : List ((Nat → FmtA → Instr) × Nat × Nat)), row.2.1 ≤ v → v ≤ row.2.2 →
          Completes (row.1 c f) s (fun t => WritesReg s t c rd 2 ∧ (∀ m, t.drive m = s.drive m) ∧ OnlyDrive s t c n)))

/-- What a write that stops a drive or changes its causes leaves alone, where no increase of its gang waits and no drive of the gang holds a
lease: other drives, attachments, memory, and contexts but their latches. -/
def Sys2Proof.Machine.OnlyGang (s t : State) (c n : Nat) : Prop :=
  (∀ i ∈ n :: s.gangOf n, (s.drive i).waiting = [] ∧ (s.drive i).lease = none) →
    (∀ m, m ∉ n :: s.gangOf n → t.drive m = s.drive m) ∧ (∀ a, t.att a = s.att a) ∧ SameBytes s t ∧ OnlyLatches s t c

/-- DWR of RUN starts a drive whose lease covers its targets, in the direction of DIR, and stops a drive that runs; SAFE_REQ sets and clears
cause REQUEST; FAULT_CLEAR clears cause FAULT of the drive and its gang where FAULT_N has been high for 10 ms on each and the Hall state is
valid, and has no effect on a drive without that cause: each gives 0. FAULT_CLEAR of a cause FAULT that is still there gives 2 and changes
no drive (R380, R381, R383, R387). -/
def Sys2Proof.Machine.DriveRunAndSafeRequest : Prop :=
  ∀ (s : State) (c n : Nat) (rd ra rb : Reg), Issues s c → (s.ctx c).rep = false → NamesDrive s c ra n →
    (s.drive n).answers = [] → s.driveEnabled n = true → (s.drive n).cfg.gang ≠ 2 →
    let v := ((s.ctx c).g rb).toNat
    let f : FmtA := ⟨rd, ra, rb⟩
    let d := s.drive n
    (v = 1 → d.run = false → d.safeOut = false → d.memberSafe = false → d.cfg.gang ≠ 1 → d.cfg.inrushMs = 0 → d.waiting = [] →
      d.cfg.demand d.targetA d.targetB ≤ s.leaseW n → d.actA = 0 → d.actB = 0 →
      Completes (.run c f) s (fun t => WritesReg s t c rd 0 ∧ (t.drive n).run = true ∧ (t.drive n).dirNow = d.dir
        ∧ (t.drive n).motion = .follow ∧ (t.drive n).acc = 0 ∧ OnlyDrive s t c n))
    ∧ (v = 0 → d.run = true → d.waiting = [] → Completes (.run c f) s (fun t => WritesReg s t c rd 0 ∧ (t.drive n).run = false
        ∧ OnlyGang s t c n))
    ∧ (v = 1 → d.causeRequest = false → Completes (.safeReq c f) s (fun t => WritesReg s t c rd 0 ∧ (t.drive n).causeRequest = true
        ∧ (t.drive n).safeOut = true ∧ (d.safeOut = false → (t.drive n).run = false) ∧ OnlyGang s t c n))
    ∧ (v = 0 → d.causeRequest = true → Completes (.safeReq c f) s (fun t => WritesReg s t c rd 0 ∧ (t.drive n).causeRequest = false
        ∧ (t.drive n).run = d.run ∧ OnlyGang s t c n))
    ∧ (v = 1 → d.causeFault = false → Completes (.faultClear c f) s (fun t => WritesReg s t c rd 0 ∧ t.drive n = d ∧ OnlyDrive s t c n))
    ∧ (v = 1 → d.causeFault = true →
      let high := ∀ i ∈ s.gangOf n, (s.drive i).faultLow = false ∧ (s.drive i).faultHighAt + 10000000 ≤ s.now
      let hall := d.cfg.gang = 1 → d.encLevels ≠ 0 ∧ d.encLevels ≠ 7
      (high → hall → Completes (.faultClear c f) s (fun t => WritesReg s t c rd 0
        ∧ (∀ i ∈ s.gangOf n, (t.drive i).causeFault = false ∧ (t.drive i).hallBad = false ∧ (t.drive i).run = (s.drive i).run)
        ∧ OnlyGang s t c n))
      ∧ (¬(high ∧ hall) → Completes (.faultClear c f) s (fun t => WritesReg s t c rd 2 ∧ (∀ m, t.drive m = s.drive m)
        ∧ OnlyDrive s t c n)))

/-- LEAVE retires with its answer, the lease number or 0; with AMOUNT 0 it releases a lease of its context at once; a new request that is
refused outright gives 0 at once, and one that is not goes to Boiler and its context waits (R159, R421, R423). -/
def Sys2Proof.Machine.LeaveInstruction : Prop :=
  ∀ (s : State) (c : Nat) (rd ra : Reg), Issues s c → (s.ctx c).rep = false →
    (∀ n, (s.ctx c).answer = .granted n → Completes (.leaveInstr c ⟨rd, ra, 0⟩) s (fun t => WritesReg s t c rd (BitVec.ofNat 64 n)
      ∧ CtxFrame { s.ctx c with answer := .none } (t.ctx c) ∧ Beside s t c ∧ SameBytes s t))
    ∧ ((s.ctx c).answer = .refused → Completes (.leaveInstr c ⟨rd, ra, 0⟩) s (fun t => WritesReg s t c rd 0
      ∧ CtxFrame { s.ctx c with answer := .none } (t.ctx c) ∧ Beside s t c ∧ SameBytes s t))
    ∧ (∀ n d l, (s.ctx c).answer = .none → ((s.ctx c).g ra).toNat % 16 = 0 → PantryRange s c .read ((s.ctx c).g ra).toNat 16 →
        GoodRead s ((s.ctx c).g ra).toNat 16 →
        Memory.bytes 0 s.pantry.mem ((s.ctx c).g ra).toNat 16 = d → fieldAt d 0 3 = 0 → fieldAt d 3 1 = 0 →
        fieldAt d 4 1 ≤ 1 → 1 ≤ fieldAt d 5 1 → fieldAt d 5 1 ≤ 6 → fieldAt d 6 2 = n → n ≠ 0 → n ∈ (s.ctx c).leases →
        1 ≤ fieldAt d 8 4 → fieldAt d 8 4 ≤ 65535 → fieldAt d 12 4 ≤ 2000000 → s.boiler.lease n = some l →
        Completes (.leaveInstr c ⟨rd, ra, 0⟩) s (fun t => WritesReg s t c rd (BitVec.ofNat 64 n) ∧ t.boiler.lease n = none ∧ SameBytes s t))
    ∧ (∀ d, (s.ctx c).answer = .none → ((s.ctx c).g ra).toNat % 16 = 0 → PantryRange s c .read ((s.ctx c).g ra).toNat 16 →
        GoodRead s ((s.ctx c).g ra).toNat 16 →
        Memory.bytes 0 s.pantry.mem ((s.ctx c).g ra).toNat 16 = d → fieldAt d 0 3 ≠ 0 → fieldAt d 3 1 = 0 →
        fieldAt d 4 1 ≤ 1 → 1 ≤ fieldAt d 5 1 → fieldAt d 5 1 ≤ 6 → fieldAt d 6 2 = 0 → (s.ctx c).leases.length < 4 →
        1 ≤ fieldAt d 8 4 → fieldAt d 8 4 ≤ 65535 → fieldAt d 12 4 ≤ 2000000 →
        let dl := if fieldAt d 12 4 = 0 then (s.ctx c).deadline else s.now + 1000 * fieldAt d 12 4
        let q := s.leaveReq (.context c) (fieldAt d 4 1 = 1) (fieldAt d 5 1) (fieldAt d 0 3) (fieldAt d 8 4) none (s.lstOf dl)
        (s.boiler.denied q = true → Completes (.leaveInstr c ⟨rd, ra, 0⟩) s (fun t => WritesReg s t c rd 0
          ∧ t.boiler.waiting = s.boiler.waiting ∧ SameBytes s t))
        ∧ (s.boiler.denied q = false → Completes (.leaveInstr c ⟨rd, ra, 0⟩) s (fun t => (t.ctx c).state = .waiting ∧ (t.ctx c).wait = .leave
          ∧ (t.ctx c).pc = (s.ctx c).pc ∧ (∀ r, (t.ctx c).g r = (s.ctx c).g r) ∧ (∀ k, k ≠ c → t.ctx k = s.ctx k) ∧ SameBytes s t
          ∧ t.boiler.waiting = s.boiler.waiting ++ [{ q with order := s.boiler.order, since := s.now }])))
/-! ### The coprocessors (R165 to R168) -/

/-- The drive instructions write and read items, and the leave instruction asks for and gives back leases. The parts say it whole. -/
def Obligations.DriveAndLeaveInstructions : Prop := DriveItems ∧ DriveRunAndSafeRequest ∧ LeaveInstruction

/-- The PI step as R166 gives it: kp, ki, umin, umax and the integral term of the block, and the error: the output and the new integral. -/
def Sys2Proof.Machine.piStep (kp ki umin umax i e : Int) : Int × Int :=
  let clamp := fun v : Int => max (-9223372036854775808) (min 9223372036854775807 v)
  let i1 := clamp (i + ki * e)
  let u := clamp ((kp * e) / 65536 + i1 / 65536)
  if umax < u then (umax, if 0 < e then i else i1) else if u < umin then (umin, if e < 0 then i else i1) else (u, i1)

/-- CRC gives the running value of its algorithm after the 1, 2, 4 or 8 low bytes of rb, and CRCB after rb bytes of memory, with ra past them
and rb 0 (R165). -/
def Sys2Proof.Machine.ChecksumUnit : Prop :=
  ∀ (s : State) (c : Nat) (f : FmtA) (alg : BitVec 4),
    (∀ (size : BitVec 2) (v : Nat), Issues s c → ¬(alg = 5 ∧ size = 0) →
      crcUpdate alg.toNat ((s.ctx c).g f.ra).toNat (leBytes (2 ^ size.toNat) ((s.ctx c).g f.rb).toNat) = some v →
      Completes (.crc c f alg size 0) s (fun t => WritesReg s t c f.rd (BitVec.ofNat 64 v) ∧ RegFrame s t c))
    ∧ ∀ (limit v : Nat), IssuesPlain s c → (s.ctx c).delayed = [] →
      f.rd ≠ 0 → f.ra ≠ 0 → f.rb ≠ 0 → f.rd ≠ f.ra → f.rd ≠ f.rb → f.ra ≠ f.rb →
      let n := ((s.ctx c).g f.rb).toNat
      1 ≤ n → n ≤ 64 → 1 ≤ limit → (alg = 5 → n % 2 = 0) → PantryRange s c .read ((s.ctx c).g f.ra).toNat n →
      GoodRead s ((s.ctx c).g f.ra).toNat n →
      crcUpdate alg.toNat ((s.ctx c).g f.rd).toNat (Memory.bytes 0 s.pantry.mem ((s.ctx c).g f.ra).toNat n) = some v →
      Completes (.crcb c f alg 0 0 limit) s (fun t => (t.ctx c).g f.rd = BitVec.ofNat 64 v
        ∧ (t.ctx c).g f.ra = (s.ctx c).g f.ra + BitVec.ofNat 64 n ∧ (t.ctx c).g f.rb = 0
        ∧ (∀ r, r ≠ f.rd → r ≠ f.ra → r ≠ f.rb → (t.ctx c).g r = (s.ctx c).g r) ∧ RegFrame s t c)

/-- The frame of a control-unit instruction: of memory, the bytes [a + off, a + off + k) alone. -/
def Sys2Proof.Machine.CtlFrame (s t : State) (c a off k : Nat) : Prop :=
  (∀ b, b < a + off ∨ a + off + k ≤ b → Memory.byte 0 t.pantry.mem b = Memory.byte 0 s.pantry.mem b) ∧ t.hostMem = s.hostMem
    ∧ CtxFrame (s.ctx c) (t.ctx c) ∧ BesideBlock s t c

/-- PI, RLIM and FOM read their block at ra, give their result delayed, and write it back into the block: PI the integral and the output, the
others the state (R166). -/
def Sys2Proof.Machine.ControlUnit : Prop :=
  ∀ (s : State) (c : Nat) (f : FmtA), Issues s c → (s.ctx c).rep = false →
    let a := ((s.ctx c).g f.ra).toNat
    let e := (((s.ctx c).g f.rb).setWidth 32).toInt
    let fld := fun (off n : Nat) => (BitVec.ofNat (8 * n) (fieldAt (Memory.bytes 0 s.pantry.mem a 32) off n)).toInt
    let now := fun (t : State) (off n : Nat) => (BitVec.ofNat (8 * n) (fieldAt (Memory.bytes 0 t.pantry.mem a 32) off n)).toInt
    a % 8 = 0 →
    (PantryRange s c .read a 32 → PantryRange s c .write a 32 → GoodRead s a 32 → fld 8 4 ≤ fld 12 4 →
      Completes (.pi c f) s (fun t =>
        let r := piStep (fld 0 4) (fld 4 4) (fld 8 4) (fld 12 4) (fld 16 8) e
        WritesLate s t c [] f.rd (BitVec.ofInt 64 r.1) ∧ now t 16 8 = r.2 ∧ now t 24 4 = r.1 ∧ CtlFrame s t c a 16 12))
    ∧ (PantryRange s c .read a 16 → PantryRange s c .write a 16 → GoodRead s a 16 →
      Completes (.rlim c f) s (fun t =>
        let up : Int := fieldAt (Memory.bytes 0 s.pantry.mem a 32) 0 4
        let dn : Int := fieldAt (Memory.bytes 0 s.pantry.mem a 32) 4 4
        let y := fld 8 4 + max (-dn) (min up (e - fld 8 4))
        WritesLate s t c [] f.rd (BitVec.ofInt 64 y) ∧ now t 8 4 = (BitVec.ofInt 32 y).toInt ∧ CtlFrame s t c a 8 4)
      ∧ Completes (.fom c f) s (fun t =>
        let k : Int := fieldAt (Memory.bytes 0 s.pantry.mem a 32) 0 2
        let y := fld 8 4 + (k * (e - fld 8 4) + 32768) / 65536
        WritesLate s t c [] f.rd (BitVec.ofInt 64 y) ∧ now t 8 4 = (BitVec.ofInt 32 y).toInt ∧ CtlFrame s t c a 8 4))

/-- The checksum unit and the control unit write their results. The parts say it whole. -/
def Obligations.ChecksumAndControlUnits : Prop := ChecksumUnit ∧ ControlUnit

/-- FLINIT opens a session, or waits while 64 are open; FLABS absorbs rb bytes of memory; FLSQZ gives the next 8 bytes of SHAKE256 output of
what was absorbed, delayed, and from then on the session squeezes; FLEND closes the session (R167, R168). -/
def Sys2Proof.Machine.FlintSessions : Prop :=
  ∀ (s : State) (c : Nat) (f : FmtA), IssuesPlain s c →
    let x := s.ctx c
    let only := fun (t : State) => CtxFrame { x with flint := (t.ctx c).flint } (t.ctx c) ∧ Beside s t c ∧ SameBytes s t
    (s.flintOpen < 64 → Completes (.flinit c ⟨0, 0, 0⟩) s (fun t => (t.ctx c).flint = some {} ∧ WritesAll s t c [] ∧ only t))
    ∧ (64 ≤ s.flintOpen → x.flint = none → ∃ t, exec (.flinit c ⟨0, 0, 0⟩) s = .next t ∧ (t.ctx c).state = .waiting
        ∧ (t.ctx c).wait = .flint ∧ (t.ctx c).pc = x.pc)
    ∧ (∀ (q : FlintSession) (limit : Nat), x.flint = some q → q.squeezing = false → x.delayed = [] → f.rd = 0 →
      f.ra ≠ 0 → f.rb ≠ 0 → f.ra ≠ f.rb → 1 ≤ (x.g f.rb).toNat → (x.g f.rb).toNat ≤ 64 → 1 ≤ limit →
      PantryRange s c .read (x.g f.ra).toNat (x.g f.rb).toNat → GoodRead s (x.g f.ra).toNat (x.g f.rb).toNat →
      Completes (.flabs c f limit) s (fun t =>
        (t.ctx c).flint = some { q with absorbed := q.absorbed ++ Memory.bytes 0 s.pantry.mem (x.g f.ra).toNat (x.g f.rb).toNat }
          ∧ (t.ctx c).g f.ra = x.g f.ra + x.g f.rb ∧ (t.ctx c).g f.rb = 0
          ∧ (∀ r, r ≠ f.ra → r ≠ f.rb → (t.ctx c).g r = x.g r) ∧ only t))
    ∧ (∀ (q : FlintSession), x.flint = some q → Completes (.flsqz c ⟨f.rd, 0, 0⟩) s (fun t =>
        WritesLate s t c [] f.rd (BitVec.ofNat 64 (leNat ((List.range 8).map (fun i => Config.shakeByte q.absorbed (q.pos + i)))))
          ∧ (t.ctx c).flint = some { q with squeezing := true, pos := q.pos + 8 } ∧ only t))
    ∧ (s.waiters .flint = [] → Completes (.flend c ⟨0, 0, 0⟩) s (fun t => (t.ctx c).flint = none ∧ WritesAll s t c [] ∧ only t))

/-- FLVER reads its block of four fields at ra and waits for leave and for Flint; answered, it gives 0 for a signature that verifies and 1 for
one that does not, and its lease ends (R167, R418). The message, the signature and the key lie in Pantry. -/
def Sys2Proof.Machine.FlintVerifies : Prop :=
  ∀ (s : State) (c : Nat) (rd ra : Reg), Issues s c → (s.ctx c).rep = false →
    let x := s.ctx c
    let a := (x.g ra).toNat
    let w := fun i : Nat => fieldAt (Memory.bytes 0 s.pantry.mem a 32) (8 * i) 8
    a % 8 = 0 → PantryRange s c .read a 32 → PantryRange s c .read (w 0) (w 1) → PantryRange s c .read (w 2) 29792 →
    PantryRange s c .read (w 3) 64 → GoodRead s a 32 → GoodRead s (w 0) (w 1) → GoodRead s (w 2) 29792 → GoodRead s (w 3) 64 →
    (x.answer = .verified → Completes (.flver c ⟨rd, ra, 0⟩) s (fun t =>
      WritesReg s t c rd (if Config.slhVerify (Memory.bytes 0 s.pantry.mem (w 3) 64) (Memory.bytes 0 s.pantry.mem (w 0) (w 1))
          (Memory.bytes 0 s.pantry.mem (w 2) 29792) then 0 else 1)
        ∧ CtxFrame { (s.flverRelease c).ctx c with answer := .none } (t.ctx c) ∧ (t.ctx c).flverLease = none
        ∧ (∀ n, x.flverLease = some n → t.boiler.lease n = none
          ∧ ∀ l, s.boiler.lease n = some l → l.owner = .context c → n ∉ (t.ctx c).leases)
        ∧ Beside (s.flverRelease c) t c ∧ SameBytes s t))
    ∧ (x.answer = .none → ∃ t, exec (.flver c ⟨rd, ra, 0⟩) s = .next t ∧ (t.ctx c).state = .waiting ∧ (t.ctx c).wait = .flverLeave
        ∧ (t.ctx c).pc = x.pc)
/-! ### Channel programs and contexts (R82 to R115, R213 to R230) -/

/-- The hash sessions absorb and squeeze, and a verification answers. The parts say it whole. -/
def Obligations.FlintAbsorbsAndVerifies : Prop := FlintSessions ∧ FlintVerifies

/-- Context c runs and starts its next CCW, which stands at its CCW address in readable, good Pantry: nothing of it has been done, and its
world issues (R83, R86). -/
def Sys2Proof.Machine.NextCcw (s : State) (c : Nat) (y : Ccw) : Prop :=
  (s.ctx c).state = .running ∧ (s.ctx c).started = false ∧ (s.ctx c).act = none ∧ s.issues (s.home c) = true
    ∧ (s.ctx c).stream.members = [] ∧ s.isProbe c = false ∧ (s.ctx c).ccwAddr % 16 = 0 ∧ (s.ctx c).ccwAddr + 16 ≤ windowBase
    ∧ s.deny (s.home c) false .read (s.ctx c).ccwAddr = none ∧ GoodRead s (s.ctx c).ccwAddr 16
    ∧ y = ccwOf (s.ctx c).ccwAddr (Memory.bytes 0 s.pantry.mem (s.ctx c).ccwAddr 16)

/-- The CCW passes the checks of R534, does not suspend first, and its deadline has not passed (R88, R102, R112). -/
def Sys2Proof.Machine.StartsWell (s : State) (c : Nat) (y : Ccw) : Prop :=
  y.check (s.ctx c) (s.isResident c) false (s.slaveTarget (s.ctx c) y.tgt) = none ∧ s.execAbsent c y = false ∧ (y.sus = false ∨ (s.ctx c).susPass = true)
    ∧ (s.ctx c).keepDl = false ∧ s.now ≤ (s.ctx c).pdeadline

/-- Nothing waits for the end of context c's CCW but the CCW itself: no store, lock, lease request, drive wait or answer, open packet, late error,
due end or suspension, and a hard deadline. -/
def Sys2Proof.Machine.Unencumbered (s : State) (c : Nat) : Prop :=
  (s.ctx c).stores = [] ∧ (s.ctx c).locks = [] ∧ (s.ctx c).wait = .none ∧ (s.ctx c).visit = none ∧ (s.ctx c).asyncCcw = none
    ∧ (s.ctx c).suspendDue = false ∧ (s.ctx c).softDl = false ∧ (s.ctx c).due = none ∧ s.frozen (s.home c) = false
    ∧ (s.boiler.waiting.all (fun q => q.owner ≠ .context c)) = true ∧ s.lands = []
    ∧ (s.atts.all (fun p => p.2.tx.owner ≠ some c)) = true ∧ (s.drives.all (fun p => p.2.answers.all (fun y => y.ctx ≠ c))) = true

/-- Control of a program goes on to another CCW: nothing of that one has been done, and the conditions of the CCW before are COND alone
(R97, R99, R223). -/
def Sys2Proof.Machine.GoesOn (x y : Ctx) (loc : Nat) (cond : Bool) : Prop :=
  y.ccwAddr = loc ∧ y.state = .running ∧ y.started = false ∧ y.act = none ∧ y.stream = {} ∧ y.lastCond = cond ∧ y.cond = false
    ∧ y.timeout = false ∧ x.commitSeq < y.commitSeq ∧ y.deadline = x.pdeadline ∧ y.header = x.header ∧ y.targets = x.targets
    ∧ y.leases = x.leases ∧ y.tag = x.tag

/-- WRITE, READ, CONTROL and SENSE of a READY attachment, and EXEC, start the handler that the image names: the activation begins at its
entry, at user level of the context's world, with the command in g1, the target in g2, the state block of the attachment in g3 and the
deadline in g4; g5 to g31 hold anything (R87, R160, R205, R314). -/
def Obligations.HandlerCommandsActivate : Prop :=
  ∀ row ∈ ([(.write, 1), (.read, 2), (.control, 3), (.sense, 4), (.exec, 9)] : List ((Nat → Instr) × Nat)),
    ∀ (s : State) (c a entry : Nat) (y : Ccw), NextCcw s c y → StartsWell s c y → y.code = row.2 → y.dln = false →
      (s.ctx c).kind y.tgt = 0 → (s.ctx c).target y.tgt % 4096 = a → s.attPresent c a = true → (s.att a).hub = false →
      (s.port (a / 16)).safe = false →
      (s.wcfg (s.home c)).handlerFor y.code (s.att a).profile y.param = some entry →
      Completes (row.1 c) s (fun t =>
        (∃ z, (t.ctx c).act = some z ∧ z.code = row.2 ∧ z.tgt = y.tgt ∧ z.att = some a ∧ z.portDone = false ∧ z.channelDone = false)
        ∧ (t.ctx c).started = true ∧ (t.ctx c).pc = BitVec.ofNat 64 entry ∧ (t.ctx c).super1 = false ∧ (t.ctx c).world = s.home c
        ∧ (t.ctx c).g 1 = BitVec.ofNat 64 (row.2 + y.tgt * 16 + y.flags * 256 + (if y.nodata then y.count else y.bytes) * 65536 + y.param % 2 ^ 32 * 2 ^ 32)
        ∧ (t.ctx c).g 2 = BitVec.ofNat 64 ((s.ctx c).target y.tgt % 0x4000 + bits ((s.ctx c).target y.tgt) 16 8 * 65536 + y.tgt * 2 ^ 24)
        ∧ (t.ctx c).g 3 = BitVec.ofNat 64 ((s.img.profiles.get (s.home c)).base + (s.img.profiles.get (s.home c)).stride * a)
        ∧ (t.ctx c).g 4 = BitVec.ofNat 64 (s.ctx c).pdeadline ∧ (t.ctx c).deadline = (s.ctx c).pdeadline
        ∧ (t.ctx c).stream.members = [y] ∧ (∀ d, d ≠ c → t.ctx d = s.ctx d) ∧ (∀ b, b ≠ a → t.att b = s.att b) ∧ SameBytes s t)

/-- NOP and POST with command chaining go on to the CCW after them; POST's interim status names it. TIC goes to its target when its condition
holds of the last COND, else to the CCW after it (R87, R92, R96, R97). -/
def Sys2Proof.Machine.ChainingCommandsGoOn : Prop :=
  ∀ (s : State) (c : Nat) (y : Ccw), NextCcw s c y → Unencumbered s c →
    (y.code = 6 → StartsWell s c y → y.cc = true → y.pst = false → Completes (.nop c) s (fun t =>
      GoesOn (s.ctx c) (t.ctx c) ((s.ctx c).ccwAddr + 16) false ∧ t.atts = s.atts ∧ t.drives = s.drives ∧ SameBytes s t))
    ∧ (y.code = 0xC → StartsWell s c y → y.cc = true → s.isResident c = false → (s.cq (s.home c) (s.ctx c).cq).state = .active →
      (s.cq (s.home c) (s.ctx c).cq).full = false → (s.storeOf (s.home c) (s.ctx c).cq) = [] → s.cqWaits (s.home c) (s.ctx c).cq = false →
      (s.ctx c).orphaned = false →
      Completes (.post c) s (fun t => GoesOn (s.ctx c) (t.ctx c) ((s.ctx c).ccwAddr + 16) false ∧ (t.ctx c).postedAddr = (s.ctx c).ccwAddr
        ∧ t.pantry.mem = s.pantry.mem ∧ t.atts = s.atts ∧ t.drives = s.drives))
    ∧ (∀ dest, y.code = 5 → y.checkTic (s.ctx c) false = none → (s.ctx c).ticRun < 4 → effAddr (s.ctx c).header y.addr = some dest →
      Completes (.tic c) s (fun t =>
        (t.ctx c).ccwAddr = (if y.param % 4 = 0 ∨ (y.param % 4 = 1 ∧ (s.ctx c).lastCond = true) ∨ (y.param % 4 = 2 ∧ (s.ctx c).lastCond = false)
            then dest else (s.ctx c).ccwAddr + 16)
          ∧ (t.ctx c).ticRun = (s.ctx c).ticRun + 1 ∧ (t.ctx c).commitSeq = (s.ctx c).commitSeq + 1 ∧ (t.ctx c).state = .running
          ∧ (∀ d, d ≠ c → t.ctx d = s.ctx d) ∧ SameBytes s t))
    ∧ (∀ dest, y.code = 5 → y.checkTic (s.ctx c) false = none → 4 ≤ (s.ctx c).ticRun → effAddr (s.ctx c).header y.addr = some dest →
      ∃ t, exec (.tic c) s = .next t ∧ t = (s.ccwFetch c (s.ctx c).ccwAddr).2.programCheck c y 0xC)

/-- A MARK CCW with command chaining does its mark operation on the channels of its attachment and goes on (R87, R322). -/
def Sys2Proof.Machine.MarkCommandsMove : Prop :=
  ∀ (s : State) (c a : Nat) (y : Ccw), NextCcw s c y → Unencumbered s c → StartsWell s c y → y.code = 8 → y.dln = false → y.cc = true →
    y.pst = false → (s.ctx c).kind y.tgt = 0 → (s.ctx c).target y.tgt % 4096 = a → s.attPresent c a = true → (s.att a).hasChannels = true →
    let r := (s.att a).rx
    let x := (s.att a).tx
    let does := fun (k : Nat) (i : Instr) (P : Att → Prop) => y.param = k → Completes i s (fun t =>
      P (t.att a) ∧ GoesOn (s.ctx c) (t.ctx c) ((s.ctx c).ccwAddr + 16) false ∧ (∀ b, b ≠ a → t.att b = s.att b) ∧ SameBytes s t)
    does 0 (.setRx c .mark) (fun z => z.rx.mark = some r.read ∧ z.tx = x)
    ∧ does 1 (.setTx c .mark) (fun z => z.tx = { x with mark := some x.written } ∧ z.rx = r)
    ∧ does 2 (.releaseRx c .mark) (fun z => z.rx.mark = none ∧ z.tx = x)
    ∧ does 3 (.releaseTx c .mark) (fun z => z.tx = { x with mark := none } ∧ z.rx = r)
    ∧ (∀ m, r.mark = some m → does 4 (.rewindRx c .mark) (fun z => z.rx = { r with read := m } ∧ z.tx = x))

/-- The commands that only chain go on, and the MARK command moves marks. The parts say it whole. -/
def Obligations.ChainingAndMarkCommands : Prop := ChainingCommandsGoOn ∧ MarkCommandsMove

/-- WAIT with command chaining goes on with COND and its target's latch empty when a selected event is latched, waits for one, and goes on with
COND 0 once its deadline has come (R104, R105); that it has come at the deadline itself is the model's reading (log 38). The target is a
drive or a compare unit. -/
def Sys2Proof.Machine.WaitCommand : Prop :=
  ∀ (s : State) (c : Nat) (y : Ccw), NextCcw s c y → Unencumbered s c → y.check (s.ctx c) (s.isResident c) false (s.slaveTarget (s.ctx c) y.tgt) = none →
    (y.sus = false ∨ (s.ctx c).susPass = true) → (s.ctx c).keepDl = false →
    y.code = 7 → y.dln = false → y.cc = true → y.pst = false → (s.ctx c).kind y.tgt ≠ 0 →
    let ev := Tbl.get 0 (s.ctx c).latch y.tgt
    let hit := if y.param % 65536 = 0 then ev else ev &&& y.param % 65536
    (hit ≠ 0 → Completes (.wait c) s (fun t => GoesOn (s.ctx c) (t.ctx c) ((s.ctx c).ccwAddr + 16) true ∧ Tbl.get 0 (t.ctx c).latch y.tgt = 0
      ∧ SameBytes s t))
    ∧ (hit = 0 → (s.ctx c).pdeadline ≤ s.now → Completes (.wait c) s (fun t =>
      GoesOn (s.ctx c) (t.ctx c) ((s.ctx c).ccwAddr + 16) false ∧ SameBytes s t))
    ∧ (hit = 0 → s.now < (s.ctx c).pdeadline → ∃ t, exec (.wait c) s = .next t ∧ (t.ctx c).state = .waiting
      ∧ (t.ctx c).wait = .ccw y.tgt (y.param % 65536) ∧ (t.ctx c).ccwAddr = (s.ctx c).ccwAddr ∧ (∀ d, d ≠ c → t.ctx d = s.ctx d))

/-- The end of context c's program places one final status: a queued program that is no group member, holds no lease and no Flint session, and
whose completion queue has room and nothing before it (R264, R265). -/
def Sys2Proof.Machine.PostsAlone (s : State) (c : Nat) : Prop :=
  s.isResident c = false ∧ (s.ctx c).group = none ∧ (s.ctx c).orphaned = false ∧ (s.ctx c).leases = [] ∧ (s.ctx c).flint = none
    ∧ (s.cq (s.home c) (s.ctx c).cq).state = .active ∧ (s.cq (s.home c) (s.ctx c).cq).full = false ∧ s.storeOf (s.home c) (s.ctx c).cq = []
    ∧ s.cqWaits (s.home c) (s.ctx c).cq = false ∧ (s.qm.get (s.home c)).haltWait = none ∧ bitAt (s.fn (s.home c)).accepted 8 = false

/-- The program of context c has ended: the context is FREE, and its completion queue has one entry more, a final status of its CCW with both
events, the status code and the unit code (R106, R109, R213). -/
def Sys2Proof.Machine.EndedWith (s t : State) (c status unit : Nat) : Prop :=
  let q := s.cq (s.home c) (s.ctx c).cq
  (t.ctx c).state = .free ∧ (t.cq (s.home c) (s.ctx c).cq).tail = q.tail.add q.depth 1
    ∧ hostBytesOf t.hostMem (q.base + 32 * q.tail.idx) 16
        = leBytes 8 ((s.ctx c).ccwAddr % 2 ^ 38) ++ leBytes 2 0 ++ leBytes 1 status ++ leBytes 1 0 ++ leBytes 2 0xB ++ leBytes 2 unit

/-- PLANT writes the item of its PARAM to its drive and goes on when the drive accepts it (here PWM_FREQ and DIR); on a drive that is not
enabled the program ends with PERIPH_REFUSED and unit code 0xFE02, and no drive changes. LEAVE with AMOUNT 0 and no lease of its budget goes
on (R91, R386, R424). -/
def Sys2Proof.Machine.PlantAndLeaveCommands : Prop :=
  ∀ (s : State) (c n : Nat) (y : Ccw), NextCcw s c y → Unencumbered s c → StartsWell s c y → y.dln = false → y.cc = true → y.pst = false →
    (y.code = 0xA → (s.ctx c).kind y.tgt = 1 → (s.ctx c).target y.tgt % 4096 = n → s.driveEnabled n = true →
      (y.param % 256 = 5 → 200 ≤ y.param / 65536 % 65536 → y.param / 65536 % 65536 ≤ 1000 → Completes (.plant c) s (fun t =>
        t.drive n = { s.drive n with freq := y.param / 65536 % 65536 } ∧ GoesOn (s.ctx c) (t.ctx c) ((s.ctx c).ccwAddr + 16) false
          ∧ (∀ m, m ≠ n → t.drive m = s.drive m) ∧ t.atts = s.atts ∧ SameBytes s t))
      ∧ (y.param % 256 = 6 → y.param / 65536 % 65536 ≤ 1 → Completes (.plant c) s (fun t =>
        t.drive n = { s.drive n with dir := y.param / 65536 % 65536 = 1 } ∧ GoesOn (s.ctx c) (t.ctx c) ((s.ctx c).ccwAddr + 16) false
          ∧ (∀ m, m ≠ n → t.drive m = s.drive m) ∧ t.atts = s.atts ∧ SameBytes s t)))
    ∧ (y.code = 0xA → (s.ctx c).kind y.tgt = 1 → (s.ctx c).target y.tgt % 4096 = n → s.driveEnabled n = false → PostsAlone s c →
      Completes (.plant c) s (fun t => EndedWith s t c 3 0xFE02 ∧ (∀ m, t.drive m = s.drive m) ∧ t.pantry.mem = s.pantry.mem
        ∧ t.atts = s.atts))
    ∧ (y.code = 0xB → y.param / 256 = 0 → Tbl.get 0 (s.ctx c).ccwLease (y.param % 2) = 0 → Completes (.leaveCcw c) s (fun t =>
        GoesOn (s.ctx c) (t.ctx c) ((s.ctx c).ccwAddr + 16) false ∧ t.boiler = s.boiler ∧ t.drives = s.drives ∧ SameBytes s t))

/-- WAIT waits for its events, and the plant and leave commands act on drives and leases. The parts say it whole. -/
def Obligations.WaitPlantAndLeaveCommands : Prop := WaitCommand ∧ PlantAndLeaveCommands

/-- A program whose last CCW, without command chaining, ends with SUCCESS places one final status in its completion queue, and its context is
FREE (R99, R106, R109, R213, R264, R265): a NOP of a queued program that is no group member. -/
def Obligations.ProgramEndsWithFinalStatus : Prop :=
  ∀ (s : State) (c : Nat) (y : Ccw), NextCcw s c y → Unencumbered s c → StartsWell s c y → y.code = 6 → y.cc = false →
    PostsAlone s c →
    let q := s.cq (s.home c) (s.ctx c).cq
    Completes (.nop c) s (fun t => EndedWith s t c 0 0 ∧ (t.ctx c).lastStatus = (s.ctx c).lastStatus
      ∧ t.pantry.mem = s.pantry.mem ∧ t.atts = s.atts ∧ t.drives = s.drives
      ∧ ∀ a, a < q.base + 32 * q.tail.idx ∨ q.base + 32 * q.tail.idx + 32 ≤ a → hostByteOf t.hostMem a = hostByteOf s.hostMem a)

/-- A hard deadline that has passed ends the CCW that runs with DEADLINE_MISS, and a deadline that has not passed, or a soft one, changes
nothing (R103). A LEAVE or PLANT that Boiler or its drive has answered is judged by the time of the answer (R89), any other CCW by now.
That the command then changes nothing is the model's choice (log 3). -/
def Sys2Proof.Machine.DeadlineMissEnds : Prop :=
  ∀ (s : State) (c : Nat),
    ((s.ctx c).state = .running → (s.ctx c).started = true → s.frozen (s.home c) = false → (s.ctx c).softDl = false →
      ((s.ctx c).ccw.getD {}).code ≠ 7 → (s.ctx c).due = none → (s.ctx c).deadline < (s.answered c).getD s.now →
      Completes (.deadlineMiss c) s (fun t => t = (s.countBoth (s.home c) (s.ctx c).lane 4 3).ccwStop c 8 0))
    ∧ ((s.answered c).getD s.now ≤ (s.ctx c).deadline ∨ (s.ctx c).softDl = true → Completes (.deadlineMiss c) s (fun t => t = s))

/-- A store of a context that fails late is counted in its world, recorded, and pending for delivery; delivered at user level, it enters the
supervisor as ASYNC_BUS_ERROR with the reason and the address (R187, R188). -/
def Sys2Proof.Machine.LateBusErrors : Prop :=
  ∀ (s : State) (c : Nat),
    (∀ (b : BufStore) (rest : List BufStore) (reason : Nat), (s.ctx c).stores = b :: rest → reason = 2 ∨ reason = 3 →
      b.old = false → (s.ctx c).state ≠ .suspended → (s.ctx c).parked = false → (s.ctx c).asyncErr = none →
      Completes (.lateBusError c reason) s (fun t => (t.ctx c).stores = rest ∧ (t.ctx c).asyncErr = some { reason := reason, addr := b.addr }
        ∧ (t.hearths.cnt.get b.world).async = satInc32 (s.hearths.cnt.get b.world).async
        ∧ t.fc = (s.report (s.hearthMsg c 0x06 b.addr b.world) (some c)).fc ∧ (∀ d, d ≠ c → t.ctx d = s.ctx d) ∧ SameBytes s t))
    ∧ (∀ (e : AsyncErr) (a : Nat), (s.ctx c).asyncErr = some e → (s.ctx c).asyncDue = true → s.issues (s.home c) = true →
      EntersSuper s c 0xE a →
      Completes (.asyncBusError c) s (fun t => t.ctx c = enteredSuper { s.ctx c with asyncErr := none }
          { code := 0xE, info := e.reason, addr := e.addr, multi := e.multi } (s.ctx c).pc (BitVec.ofNat 64 a) false
        ∧ Beside s t c ∧ SameBytes s t))

/-- A missed hard deadline ends the program, and a late bus error is held and delivered. The parts say it whole. -/
def Obligations.ProgramsEndOnDeadlinesAndLateErrors : Prop := DeadlineMissEnds ∧ LateBusErrors

/-- A free issue slot goes to the READY context of its Hearth with the earliest deadline; with every slot busy a READY context of an earlier
deadline makes the running one of the latest READY; after 4,096 instructions a context gives way to a READY one of no later deadline (R218,
R219). That a context whose record is uncorrectable ends its program when it takes a slot is the model's choice (log 100), and that
preemption does not look at the cap of a world its reading (log 106). -/
def Sys2Proof.Machine.SchedulingFollowsDeadlines : Prop :=
  ∀ (s : State),
    (∀ (h i c : Nat), h ∉ s.hearths.failed → s.boiler.domains.contains (32 + h / 4) = true → s.freeSlot h = some i →
      (s.ctx c).state = .ready → (s.ctx c).home = h → (c, s.ctx c) ∈ s.ctxs → s.mayIssue h c = true →
      (∀ d x, d ≠ c → (d, x) ∈ s.onHearth h .ready → (s.ctx c).deadline < x.deadline) →
      ((s.ctx c).recordBad = none → s.waitsAtIssue c = false → Completes (.issueSlotFree h) s (fun t =>
        t.ctx c = { s.ctx c with state := .running, slot := i, retired := 0 }
        ∧ (∀ d, d ≠ c → t.ctx d = s.ctx d) ∧ { t with ctxs := s.ctxs } = s))
      ∧ (∀ k, (s.ctx c).recordBad = some k → Completes (.issueSlotFree h) s (fun t =>
        (t.ctx c).state = .error ∨ (t.ctx c).state = .free)))
    ∧ (∀ (h c v : Nat) (x y : Ctx), s.freeSlot h = none → firstReady ((s.onHearth h .ready).filter (fun p => s.issues (s.home p.1))) = some (c, x) →
      lastRunning (s.onHearth h .running) = some (v, y) → x.deadline < y.deadline → y.interruptible = true →
      Completes (.preemption h) s (fun t => (t.ctx v).state = .ready ∧ (t.ctx v).readySeq = s.hearths.readySeq
        ∧ (∀ d, d ≠ v → t.ctx d = s.ctx d)))
    ∧ (∀ (c d : Nat) (x : Ctx), (s.ctx c).state = .running → 4096 ≤ (s.ctx c).retired → (s.ctx c).interruptible = true →
      (d, x) ∈ s.onHearth (s.ctx c).home .ready → x.deadline ≤ (s.ctx c).deadline →
      Completes (.quantumEnd c) s (fun t => (t.ctx c).state = .ready ∧ (t.ctx c).readySeq = s.hearths.readySeq
        ∧ (∀ e, e ≠ c → t.ctx e = s.ctx e) ∧ { t with ctxs := s.ctxs, hearths := s.hearths } = s))

/-- A waiting context whose events have come is READY again, and one that holds a lock, or waits for one, beyond the limit of its world ends its
CCW with DEADLINE_MISS (R118, R213, R222). -/
def Sys2Proof.Machine.WaitsEnd : Prop :=
  ∀ (s : State) (c : Nat), (s.ctx c).state = .waiting → s.frozen (s.home c) = false → (s.ctx c).ending = false →
    (∀ a m t, (s.ctx c).wait = .waite a m t → s.waiteEvents c a m t ≠ 0 →
      Completes (.waitEnd c) s (fun t => (t.ctx c).state = .ready ∧ (t.ctx c).wait = .none ∧ (t.ctx c).readySeq = s.hearths.readySeq
        ∧ (∀ d, d ≠ c → t.ctx d = s.ctx d) ∧ { t with ctxs := s.ctxs, hearths := s.hearths } = s))
    ∧ ((∃ n w, (s.ctx c).wait = .lock n w) ∨ ((s.ctx c).locks ≠ [] ∧ (s.ctx c).wait.ofInstr = true) → (s.ctx c).act.isSome = true →
      Nat.min (s.ctx c).deadline ((s.ctx c).waitSince + 1000 * (s.wcfg (s.home c)).lockWaitUs) < s.now →
      Completes (.lockWaitTimeout c) s (fun t =>
        t = (s.modHt (s.home c) (fun h => { h with lockTo := satInc32 h.lockTo })).ccwStop c 8 0))

/-- Issue slots follow deadlines, and waits end. The parts say it whole. -/
def Obligations.ContextsRunAndWake : Prop := SchedulingFollowsDeadlines ∧ WaitsEnd

/-- A Hearth whose checker finds a mismatch leaves service: a fault record of kind 3 is sent, and no context of it keeps running; a migrating
context on a working Hearth is READY there, at its CCW, with no activation (R225 to R227). -/
def Sys2Proof.Machine.HearthsFailAndRecover : Prop :=
  ∀ (s : State),
    (∀ h, h < 64 → s.powered = true → h ∉ s.hearths.failed → (s.fc.buf.filter (fun r => msgSource r.msg = h)).length < 4 →
      Completes (.checkerMismatch h) s (fun t => h ∈ t.hearths.failed ∧ (⟨faultMsg h 0 3 0 none false, none⟩ : Report) ∈ t.fc.buf
        ∧ ∀ c, (s.ctx c).home = h → (t.ctx c).state ≠ .running))
    ∧ (∀ c, (s.ctx c).state = .migrating → s.frozen (s.home c) = false → (s.ctx c).home ∉ s.hearths.failed →
      (s.ctx c).outputHanded = false → (s.ctx c).stream.handed = 0 → (s.ctx c).suspendDue = false → (s.ctx c).asyncCcw = none →
      (s.ctx c).due = none →
      Completes (.migratingPlaced c) s (fun t => (t.ctx c).state = .ready ∧ (t.ctx c).act = none ∧ (t.ctx c).started = false
        ∧ (t.ctx c).ccwAddr = (s.ctx c).ccwAddr ∧ (t.ctx c).home = (s.ctx c).home))

/-- PROGRAM_BIND of an enabled queue's front entry that carries no option slot binds it to the lowest FREE context of the world, on a Hearth
with room whose domain is on: the header and its target table checked, the context is READY at the first CCW with the tag and the completion
queue of its entry, and the queue's head has passed the entry (R76, R80, R215, R252). -/
def Obligations.ProgramBinds : Prop :=
  ∀ (s : State) (w : World) (q c h : Nat) (e : Entry) (rest : List Entry), s.bindable w q = some e → (s.sq w q).entries = e :: rest →
    (slot0Of e.data).slots = 1 → (slot0Of e.data).flags % 64 = 0 → s.freeCtx w = some c → s.home c = w →
    let a := (slot0Of e.data).addr
    let hdr := Memory.bytes 0 s.pantry.mem a 8
    let n := fieldAt hdr 3 1 % 32
    a % 16 = 0 → a + 80 ≤ windowBase → (∀ i, i < 80 → s.deny w false .read (a + i) = none) → GoodRead s a 80 → s.isResident c = false →
    (let k := s.homeCluster (fieldAt hdr 2 1)
     s.placeHome k (s.sq w q).clusterWait = .hearth h) →
    s.bindCheck w { level := (s.sq w q).level, lanes := (s.sq w q).lanes, backOffice := (s.sq w q).backOffice } hdr
      (Memory.bytes 0 s.pantry.mem (a + 8) (4 * n)) = none →
    Completes (.programBind w q) s (fun t =>
      (t.ctx c).state = .ready ∧ (t.ctx c).header = a ∧ (t.ctx c).ccwAddr = a + 16 * ((8 + 4 * n + 15) / 16) ∧ (t.ctx c).home = h
        ∧ (t.ctx c).level = fieldAt hdr 0 1 ∧ (t.ctx c).lane = fieldAt hdr 2 1 ∧ (t.ctx c).tgtCount = n ∧ (t.ctx c).tag = (slot0Of e.data).tag
        ∧ (t.ctx c).sq = q ∧ (t.ctx c).cq = (s.sq w q).cq
        ∧ (t.ctx c).pdeadline = (if fieldAt hdr 4 4 = 0 then 0xFFFFFFFFFFFFFFFF else s.now + 1000 * fieldAt hdr 4 4)
        ∧ (t.sq w q).entries = rest ∧ (t.sq w q).head = e.first.add (s.sq w q).depth e.ringSlots ∧ (∀ d, d ≠ c → t.ctx d = s.ctx d)
        ∧ SameBytes s t)

/-- RESIDENT_RESTART binds the program of a RESIDENT entry again from its header when its restart time has come, its context being FREE, and a
restart from ERROR is counted once a Hearth takes it (R230); SchedulingCommandsComplete says what that binding does. That the command
changes nothing before that time is the model's choice (log 3). -/
def Sys2Proof.Machine.ResidentRestarts : Prop :=
  ∀ (s : State) (c at1 : Nat) (e : ResidentEntry), (s.ctx c).restartAt = some at1 → s.residentOf c = some e →
    (s.now < at1 → Completes (.residentRestart c) s (fun t => t = s))
    ∧ (at1 ≤ s.now → s.issues (s.home c) = true → (s.ctx c).state = .free → s.attic.config = .image → Completes (.residentRestart c) s (fun t =>
        t = s.bindResident (s.home c) e false))
    ∧ (at1 ≤ s.now → s.issues (s.home c) = true → (s.ctx c).state = .error → s.attic.config = .image →
      (∃ h, s.placeHome (if e.cluster < 16 then e.cluster else s.homeCluster e.lane) (s.ctx e.ctx).placeAsked = .hearth h) →
      Completes (.residentRestart c) s (fun t =>
        (t.hearths.cnt.get (s.home c)).restart = satInc32 (s.hearths.cnt.get (s.home c)).restart))

/-- A failed Hearth loses its contexts to others, and a resident program restarts. The parts say it whole. -/
def Obligations.HearthsRecoverAndResidentsRestart : Prop := HearthsFailAndRecover ∧ ResidentRestarts

/-! ### The queue manager (R249 to R275) -/

/-- An administrative command stands at the front of queue 0 of world w, and completion queue 0 can take its answer at once, with no
entry for an event (R265, R268, R271, R272). -/
def Sys2Proof.Machine.AdminFront (s : State) (w : World) (op : Nat) (e : Entry) : Prop :=
  s.adminEntry w op = some e ∧ (s.cq w 0).state = .active ∧ (s.cq w 0).full = false ∧ s.storeOf w 0 = [] ∧ s.cqWaits w 0 = false
    ∧ bitAt (s.fn w).accepted 8 = false

/-- The command has been taken from queue 0, and its completion with ASTATUS and RESULT0 stands at the tail of completion queue 0; no other
byte of host memory has changed (R252, R264, R273). -/
def Sys2Proof.Machine.AdminAnswers (s t : State) (w : World) (e : Entry) (status result : Nat) : Prop :=
  (t.sq w 0).entries = (s.sq w 0).entries.drop 1 ∧ (t.sq w 0).head = e.first.add (s.sq w 0).depth e.ringSlots
    ∧ (t.cq w 0).tail = (s.cq w 0).tail.add (s.cq w 0).depth 1
    ∧ (let p := (s.cq w 0).base + 32 * (s.cq w 0).tail.idx
       hostBytesOf t.hostMem p 20 = leBytes 8 result ++ leBytes 2 0 ++ leBytes 1 status ++ leBytes 5 0 ++ leBytes 2 0
           ++ leBytes 2 (fieldAt e.data 2 2)
         ∧ ∀ a, a < p ∨ p + 32 ≤ a → hostByteOf t.hostMem a = hostByteOf s.hostMem a)

/-- The command names queue n of its world, which is not queue 0, with its reserved operand bytes 0. -/
def Sys2Proof.Machine.NamesQueue (s : State) (w : World) (e : Entry) (n : Nat) (rsv : List (Nat × Nat)) : Prop :=
  fieldAt e.data 20 2 = n ∧ n ≠ 0 ∧ n < (s.wcfg w).sqShare ∧ zeroRuns e.data rsv = true

/-- CREATE_CQ, DELETE_CQ, CREATE_SQ, DELETE_SQ, ENABLE_SQ, DISABLE_SQ, BIND_SQ and INVALIDATE do their effect on the queue that they
name, and answer OK on completion queue 0 with the result of their row (R249, R251, R261, R262, R265, R269, R273, R275). -/
def Obligations.QueueCommands : Prop :=
  ∀ (s : State) (w : World) (e : Entry) (n : Nat),
    let d := e.data
    let q := s.sq w n
    let other := fun (t : State) => (∀ m, m ≠ n → m ≠ 0 → t.sq w m = s.sq w m) ∧ (∀ m, m ≠ n → m ≠ 0 → t.cq w m = s.cq w m)
    (AdminFront s w 0x10 e → s.builtinServed w = false → zeroRuns d [(28, 36)] = true → fieldAt d 20 2 = n → n ≠ 0 → n < (s.wcfg w).cqShare →
      fieldAt d 8 8 % 4096 = 0 → 64 ≤ fieldAt d 16 4 → fieldAt d 16 4 ≤ 65536 → (s.cq w n).state = .none →
      (fieldAt d 22 2 = 0xFFFF ∨ fieldAt d 22 2 < (s.wcfg w).msixCount) →
      let mod := bitAt (s.fn w).accepted 10
      (mod = true → 1 ≤ fieldAt d 24 2 ∧ fieldAt d 24 2 ≤ 256 ∧ fieldAt d 26 2 ≤ 10000) →
      Completes (.createCq w) s (fun t => AdminAnswers s t w e 0 0 ∧ other t ∧ t.sq w n = q
        ∧ t.cq w n = { state := .active, base := fieldAt d 8 8, depth := fieldAt d 16 4, vector := fieldAt d 22 2,
                       intCount := if mod then fieldAt d 24 2 else 1, intDelayUs := if mod then fieldAt d 26 2 else 0 }))
    ∧ (AdminFront s w 0x11 e → zeroRuns d [(8, 12), (22, 42)] = true → fieldAt d 20 2 = n → n ≠ 0 → n < (s.wcfg w).cqShare →
      (s.cq w n).state ≠ .none → (s.entryTaken w 0 e).cqBusy w n = false →
      Completes (.deleteCq w) s (fun t => AdminAnswers s t w e 0 0 ∧ other t ∧ t.sq w n = q ∧ t.cq w n = {}))
    ∧ (AdminFront s w 0x12 e → s.builtinServed w = false → NamesQueue s w e n [(40, 24)] → fieldAt d 8 8 % 4096 = 0 → 64 ≤ fieldAt d 16 4 →
      fieldAt d 16 4 ≤ 65536 → q.state = .none → fieldAt d 22 2 < (s.wcfg w).cqShare → (s.cq w (fieldAt d 22 2)).state = .active →
      let acc := queueWord (fieldAt d 24 16) (s.fn w).accepted
      (bitAt acc 0 = true ∨ fieldAt d 16 4 % 4 = 0) →
      Completes (.createSq w) s (fun t => AdminAnswers s t w e 0 acc ∧ other t
        ∧ t.sq w n = { state := .disabled, base := fieldAt d 8 8, depth := fieldAt d 16 4, cq := fieldAt d 22 2, accepted := acc,
                       groups := q.groups, groupNo := q.groupNo }))
    ∧ (AdminFront s w 0x13 e → NamesQueue s w e n [(8, 12), (22, 42)] → q.state ≠ .none → q.groupOpen = false →
      Completes (.deleteSq w) s (fun t => AdminAnswers s t w e 0 0 ∧ other t ∧ (t.sq w n).state = .none ∧ (t.sq w n).entries = []
        ∧ ∀ c, { t.ctx c with counted := (s.ctx c).counted } = s.ctx c))
    ∧ (AdminFront s w 0x14 e → NamesQueue s w e n [(8, 12), (22, 2), (24, 4), (32, 32)] → fieldAt d 28 4 < 131072 →
      (q.state = .disabled ∨ (q.state = .error ∧ q.entries = [])) →
      Completes (.enableSq w) s (fun t => AdminAnswers s t w e 0 q.head.word ∧ other t
        ∧ t.sq w n = { q with state := .enabled, entries := [], job := none, jobSlots := 0, groupRun := 0, fetch := q.head, held := false,
                              bindWaited := false, clusterWait := false }))
    ∧ (AdminFront s w 0x15 e → NamesQueue s w e n [(8, 12), (22, 42)] → (q.state = .enabled ∨ q.state = .error) → q.groupOpen = false →
      Completes (.disableSq w) s (fun t => AdminAnswers s t w e 0 q.head.word ∧ other t
        ∧ t.sq w n = { q with state := .disabled, entries := [], job := none, jobSlots := 0, groupRun := 0, fetch := q.head, held := false,
                              bindWaited := false, clusterWait := false }))
    ∧ (AdminFront s w 0x16 e → NamesQueue s w e n [(8, 12), (22, 2), (25, 7), (48, 16)] → fieldAt d 24 1 ≤ 1 → q.state ≠ .none →
      (∀ l, l < 128 → bitAt (fieldAt d 32 16) l = true → s.laneHolds w l = true) →
      Completes (.bindSq w) s (fun t => AdminAnswers s t w e 0 0 ∧ other t
        ∧ t.sq w n = { q with lanes := fieldAt d 32 16, backOffice := fieldAt d 24 1 = 1 }))
    ∧ (AdminFront s w 0x17 e → NamesQueue s w e n [(8, 12), (22, 42)] → q.state ≠ .none →
      Completes (.invalidate w) s (fun t => AdminAnswers s t w e 0 q.head.word ∧ other t
        ∧ t.sq w n = { q with entries := [], job := none, jobSlots := 0, groupRun := 0, fetch := q.head, held := false,
                              bindWaited := false, clusterWait := false }))

/-- The tail of a valid doorbell write: its flags apart, it stands within the ring (R253, R254). -/
def Sys2Proof.Machine.TailOk (s : State) (w : World) (q : Nat) (v : W32) : Prop :=
  let x := s.sq w q
  let p := ptrOf v.toNat
  s.done = true ∧ q < (s.wcfg w).sqShare ∧ x.state ≠ .none ∧ x.state ≠ .lost ∧ p.idx < x.depth
    ∧ ptrDist x.head x.tail x.depth ≤ ptrDist x.head p x.depth ∧ ptrDist x.head p x.depth ≤ x.depth

/-- Of all the queues of both worlds, only one submission queue may have changed, and nothing else of the state has. -/
def Sys2Proof.Machine.OnlySq (s t : State) (w : World) (q : Nat) : Prop :=
  { t with qm := s.qm } = s ∧ (∀ v n, ¬(v = w ∧ n = q) → t.sq v n = s.sq v n) ∧ ∀ v n, t.cq v n = s.cq v n

/-- Doorbells move the tail of a submission queue, discard what has been fetched with INV and resume its suspended programs with RESUME, and
move the head of a completion queue; a ring read brings an entry, in either mode, or ERROR on a bus error; an entry whose time has come is
no longer held; and a completion queue whose delay has passed announces its entries (R112, R251 to R260, R266, R267). -/
def Obligations.DoorbellsAndFetching : Prop :=
  ∀ (s : State) (w : World) (q : Nat),
    let x := s.sq w q
    (∀ v : W32, TailOk s w q v → bitAt v.toNat 17 = false → bitAt v.toNat 18 = false →
      Completes (.sqTailDoorbell w q v) s (fun t => t.sq w q = { x with tail := ptrOf v.toNat } ∧ OnlySq s t w q))
    ∧ (∀ v : W32, TailOk s w q v → bitAt v.toNat 17 = true → bitAt x.accepted 7 = true → bitAt v.toNat 18 = false →
      Completes (.doorbellInv w q v) s (fun t => OnlySq s t w q
        ∧ t.sq w q = { x with tail := ptrOf v.toNat, entries := [], job := none, jobSlots := 0, groupRun := 0, fetch := x.head, held := false,
                              bindWaited := false, clusterWait := false }))
    ∧ (∀ (v : W32) (c : Nat), TailOk s w q v → bitAt v.toNat 17 = false → bitAt v.toNat 18 = true → bitAt x.accepted 6 = true →
      (s.worldCtxs w).filter (fun d => (s.ctx d).sq = q) = [c] → (s.ctx c).state = .suspended → (s.ctx c).suspendCause = 0x0E →
      (s.ctx c).byCommand = false → (s.ctx c).orphaned = false → (s.ctx c).refetch = false → s.isResident c = false → s.isProbe c = false →
      (s.ctx c).home ∉ s.hearths.failed → s.frozen (s.home c) = false →
      Completes (.doorbellResume w q v) s (fun t => t.sq w q = { x with tail := ptrOf v.toNat } ∧ (t.ctx c).state = .ready
        ∧ (t.ctx c).ccwAddr = (s.ctx c).ccwAddr ∧ (∀ d, d ≠ c → t.ctx d = s.ctx d) ∧ SameBytes s t))
    ∧ (∀ v : W32, s.done = true → q < (s.wcfg w).cqShare → (s.cq w q).state = .active → (ptrOf v.toNat).idx < (s.cq w q).depth →
      ptrDist (s.cq w q).head (ptrOf v.toNat) (s.cq w q).depth ≤ ptrDist (s.cq w q).head (s.cq w q).tail (s.cq w q).depth →
      s.storeOf w q = [] → s.cqWaits w q = false →
      (∀ y ∈ s.ovfWait, s.cqOpen y.world y.cq = false ∧ s.ovfRoom y.world = false) →
      Completes (.cqHeadDoorbell w q v) s (fun t => t.cq w q = { s.cq w q with head := ptrOf v.toNat } ∧ { t with qm := s.qm } = s
        ∧ (∀ n, n ≠ q → t.cq w n = s.cq w n) ∧ ∀ u n, t.sq u n = s.sq u n))
    ∧ (s.mayFetch w q = true → x.fetch ≠ x.tail → x.cached + 512 ≤ 2048 → s.fnCached w + 512 ≤ 65536 → s.fetchTurn w = some q →
      (Completes (.sqEntryFetch w q .busError) s (fun t => (t.sq w q).state = .error ∧ (t.sq w q).errReason = 8
        ∧ (x.job = none → (t.sq w q).errPtr = x.fetch)))
      ∧ (x.job = none → (q = 0 ∨ bitAt x.accepted 0 = false) → 4 ≤ ptrDist x.fetch x.tail x.depth →
        let d := s.ringBytes x x.fetch 4
        malformed x q d = none → (slot0Of d).slots ≤ 4 →
        Completes (.sqEntryFetch w q .ok) s (fun t => OnlySq s t w q
          ∧ t.sq w q = { x with
              entries := x.entries ++ [{ first := x.fetch, ringSlots := 4, data := d.take (16 * (slot0Of d).slots) }]
              fetch := x.fetch.add x.depth 4, job := none, jobSlots := 0
              groupRun := groupRunAfter x.groupRun (fieldAt (d.take (16 * (slot0Of d).slots)) 4 1) }))
      ∧ (∀ k, q ≠ 0 → bitAt x.accepted 0 = true → (slot0Of (s.ringBytes x x.fetch 1)).slots = k → 1 ≤ k → k ≤ 32 →
        k ≤ ptrDist x.fetch x.tail x.depth → malformed x q (s.ringBytes x x.fetch k) = none →
        Completes (.sqEntryFetch w q .ok) s (fun t => OnlySq s t w q
          ∧ t.sq w q = { x with
              entries := x.entries ++ [{ first := x.fetch, ringSlots := k, data := s.ringBytes x x.fetch k }]
              fetch := x.fetch.add x.depth k, job := none, jobSlots := 0
              groupRun := groupRunAfter x.groupRun (fieldAt (s.ringBytes x x.fetch k) 4 1) })))
    ∧ (∀ (e : Entry) (rest : List Entry), x.entries = e :: rest → x.held = true → 2 ≤ fieldAt e.data 1 1 → fieldAt e.data 24 8 ≤ s.now →
      Completes (.notBeforeExpiry w q) s (fun t => t.sq w q = { x with held := false } ∧ OnlySq s t w q))
    ∧ (0 < (s.cq w q).unannounced → (s.cq w q).firstAt + (s.cq w q).intDelayUs * 1000 ≤ s.now → (s.cq w q).vector < (s.wcfg w).msixCount →
      (Tbl.get {} (s.fn w).msix (s.cq w q).vector).masked = false →
      Completes (.intDelayExpiry w q) s (fun t => t.cq w q = { s.cq w q with unannounced := 0 }
        ∧ t.out = s.out ++ [.msix w (s.cq w q).vector] ∧ { t with qm := s.qm, out := s.out } = s))

/-- The command names context c of its world, which holds a program with the queue and the tag that the command gives, with its reserved
operand bytes 0; the program is no resident one and no probe (R275). -/
def Sys2Proof.Machine.NamesCtx (s : State) (w : World) (e : Entry) (c : Nat) (rsv : List (Nat × Nat)) : Prop :=
  fieldAt e.data 8 2 = c ∧ c < 16384 ∧ fieldAt e.data 10 2 < 8192 ∧ s.ctxWorld c = some w ∧ s.isResident c = false ∧ s.isProbe c = false
    ∧ (s.ctx c).state ≠ .free ∧ (s.ctx c).sq = fieldAt e.data 10 2 ∧ (s.ctx c).tag = fieldAt e.data 12 2 ∧ zeroRuns e.data rsv = true

/-- The completion queue of a context is there (R275). -/
def Sys2Proof.Machine.CtxCq (s : State) (w : World) (c : Nat) : Prop :=
  (s.ctx c).orphaned = false ∧ (s.cq w (s.ctx c).cq).state = .active

/-- The slot of completion queue n that its next entry takes in host memory (R265). -/
def Sys2Proof.Machine.State.slotAt (s : State) (w : World) (n : Nat) : Nat := (s.cq w n).base + 32 * (s.cq w n).tail.idx

/-- The first 20 bytes of an administrative completion (R264, R273). -/
def Sys2Proof.Machine.adminBytes (tag status result : Nat) : List Byte :=
  leBytes 8 result ++ leBytes 2 0 ++ leBytes 1 status ++ leBytes 5 0 ++ leBytes 2 0 ++ leBytes 2 tag

/-- Two runs of bytes have no byte in common. -/
def Sys2Proof.Machine.Apart (a n b m : Nat) : Prop := a + n ≤ b ∨ b + m ≤ a

/-- SUSPEND, RESUME, HALT and ADOPT act on the program that they name; READ_CONTEXT and LIST_CONTEXTS write the record and the bitmap to host
memory; LANE_SAFE and LANE_RELEASE put a port into safe state and release it; ATTEST samples a report, which is written with its
signature, and waits while the device key is not yet derived (R31, R112, R210, R270, R274, R275, R498, R507 to R509). -/
def Obligations.ContextAndLaneCommands : Prop :=
  ∀ (s : State) (w : World) (e : Entry) (c : Nat),
    let d := e.data
    let x := s.ctx c
    (AdminFront s w 0x20 e → NamesCtx s w e c [(14, 50)] → CtxCq s w c → x.state = .running → x.ending = false → x.started = true →
      x.suspendDue = false → s.frozen w = false →
      Completes (.suspend w) s (fun t => AdminAnswers s t w e 0 0 ∧ t.ctx c = { x with suspendDue := true, suspendCause := 0x0E }
        ∧ ∀ b, b ≠ c → t.ctx b = s.ctx b))
    ∧ (AdminFront s w 0x21 e → NamesCtx s w e c [(14, 50)] → CtxCq s w c → x.state = .suspended → x.suspendCause = 0x0E → x.refetch = false →
      x.home ∉ s.hearths.failed → s.frozen w = false →
      Completes (.resume w) s (fun t => AdminAnswers s t w e 0 0 ∧ (t.ctx c).state = .ready ∧ (t.ctx c).suspendCause = 0
        ∧ (t.ctx c).ccwAddr = x.ccwAddr ∧ ∀ b, b ≠ c → t.ctx b = s.ctx b))
    ∧ (AdminFront s w 0x22 e → NamesCtx s w e c [(14, 50)] → x.state = .suspended → x.ending = false → s.frozen w = false → x.asyncCcw = none →
      x.group = none → x.leases = [] → x.flint = none → x.orphaned = false → x.cq ≠ 0 → (s.cq w x.cq).state = .active →
      (s.cq w x.cq).full = false → s.storeOf w x.cq = [] → s.cqWaits w x.cq = false → Apart (s.slotAt w x.cq) 32 (s.slotAt w 0) 32 →
      Completes (.halt w) s (fun t => (t.ctx c).state = .free ∧ (t.cq w x.cq).tail = (s.cq w x.cq).tail.add (s.cq w x.cq).depth 1
        ∧ hostBytesOf t.hostMem (s.slotAt w x.cq) 12 = leBytes 8 (x.postedAddr % 2 ^ 38) ++ leBytes 2 x.postedResid ++ leBytes 1 0x0D ++ leBytes 1 0
        ∧ (t.cq w 0).tail = (s.cq w 0).tail.add (s.cq w 0).depth 1
        ∧ hostBytesOf t.hostMem (s.slotAt w 0) 20 = adminBytes (fieldAt d 2 2) 0 0))
    ∧ (AdminFront s w 0x23 e → bitAt (s.fn w).accepted 9 = true → NamesCtx s w e c [(14, 6), (24, 40)] → fieldAt d 20 2 < (s.wcfg w).sqShare →
      fieldAt d 22 2 < (s.wcfg w).cqShare → fieldAt d 20 2 ≠ 0 → (s.sq w (fieldAt d 20 2)).state ≠ .none →
      (s.cq w (fieldAt d 22 2)).state = .active → x.state = .suspended →
      Completes (.adopt w) s (fun t => AdminAnswers s t w e 0 0 ∧ t.ctx c = { x with sq := fieldAt d 20 2, cq := fieldAt d 22 2, orphaned := false }
        ∧ ∀ b, b ≠ c → t.ctx b = s.ctx b))
    ∧ (AdminFront s w 0x24 e → bitAt (s.fn w).accepted 9 = true → zeroRuns d [(10, 6), (24, 40)] = true → fieldAt d 8 2 = c → c < 16384 →
      fieldAt d 16 8 % 64 = 0 → s.ctxWorld c = some w →
      (Apart (fieldAt d 16 8) 256 (s.slotAt w 0) 32 → Completes (.readContext w .ok) s (fun t =>
        hostBytesOf t.hostMem (fieldAt d 16 8) 256 = s.recordBytes c ∧ t.ctxs = s.ctxs
          ∧ hostBytesOf t.hostMem (s.slotAt w 0) 20 = adminBytes (fieldAt d 2 2) 0 0))
      ∧ Completes (.readContext w .busError) s (fun t => AdminAnswers s t w e 0x0A 0 ∧ t.ctxs = s.ctxs))
    ∧ (AdminFront s w 0x25 e → bitAt (s.fn w).accepted 9 = true → zeroRuns d [(8, 8), (25, 39)] = true →
      Apart (fieldAt d 16 8) 2048 (s.slotAt w 0) 32 → Completes (.listContexts w .ok) s (fun t =>
        (∀ i b, i < 2048 → b < 8 → ((hostByteOf t.hostMem (fieldAt d 16 8 + i)).getLsbD b = true ↔
          s.ctxWorld (8 * i + b) = some w ∧ bitAt (fieldAt d 24 1) (s.ctx (8 * i + b)).state.code = true))
          ∧ t.ctxs = s.ctxs ∧ hostBytesOf t.hostMem (s.slotAt w 0) 20 = adminBytes (fieldAt d 2 2) 0 0))
    ∧ (∀ n, AdminFront s w 0x30 e → s.laneMembers w d = .ok ([n], []) → (∀ b, (s.ctx b).act = none) →
      Completes (.laneSafe w) s (fun t => AdminAnswers s t w e 0 0 ∧ (t.port n).safe = true))
    ∧ (∀ n, AdminFront s w 0x31 e → s.builtinServed w = false → s.laneMembers w d = .ok ([n], []) →
      Completes (.laneRelease w) s (fun t => AdminAnswers s t w e 0 0 ∧ (t.port n).safe = false))
    ∧ (AdminFront s .granite 0x40 e → s.flint.lifecycle ≠ 3 → bitAt (s.fn .granite).accepted 11 = true → fieldAt d 16 8 % 64 = 0 →
      zeroRuns d [(8, 8), (56, 8)] = true →
      Completes (.attest .granite) s (fun t => (t.sq .granite 0).entries = (s.sq .granite 0).entries.drop 1
        ∧ t.hostMem = s.hostMem ∧ (s.flint.devkeyOk = true → t.flint = { s.flint with
            attest := some { tag := fieldAt d 2 2, dest := fieldAt d 16 8, report := s.reportBytes (slice d 24 32) }, attestWait := none })
        ∧ (s.flint.devkeyOk = false → t.flint = { s.flint with
            attestWait := some { tag := fieldAt d 2 2, dest := fieldAt d 16 8, nonce := slice d 24 32 } })))
    ∧ (s.done = true → s.flint.lifecycle ≠ 3 → s.flint.devkeyOk = false → s.flint.attestWait = none →
      Completes .devkeyDerived s (fun t =>
        t = { s with flint := { s.flint with devkeyOk := true, devkey := Config.devicePublic s.fuses.deviceSecret } }))
    ∧ (∀ j : AttestJob, s.flint.attest = some j → (s.cq .granite 0).state = .active → (s.cq .granite 0).full = false →
      s.storeOf .granite 0 = [] → s.cqWaits .granite 0 = false → bitAt (s.fn .granite).accepted 8 = false →
      let sig := Config.slhSign s.fuses.deviceSecret j.report
      Apart j.dest (j.report ++ sig).length (s.slotAt .granite 0) 32 →
      Completes (.reportWritten .ok) s (fun t => t.flint = { s.flint with attest := none, attestCnt := satInc32 s.flint.attestCnt }
        ∧ hostBytesOf t.hostMem j.dest (j.report ++ sig).length = j.report ++ sig
        ∧ hostBytesOf t.hostMem (s.slotAt .granite 0) 20 = adminBytes j.tag 0 (50112 + satInc32 s.flint.attestCnt * 2 ^ 32)))

/-! ### The functions, the link and the registers (R7 to R11, R36 to R38, R44, R231 to R248) -/

/-- Nothing of the world runs: its function is RUNNING, but no context holds a program, and the world has neither drives nor Dumbwaiters. -/
def Sys2Proof.Machine.OnlyFunction (s : State) (w : World) : Prop :=
  s.running w = true ∧ (∀ c, (s.ctx c).live = false ∧ (s.ctx c).act = none) ∧ s.worldDrives w = [] ∧ ∀ e, s.dwWorld e ≠ some w

/-- The function of a world has met host loss: it is LOST with its cause, START reads 0, a HOSTED function is AUTONOMOUS, every queue of the
world is LOST with nothing fetched, and no host window page of the world is VALID (R37, R38, R242, R261, R266, R353). -/
def Sys2Proof.Machine.LosesHost (s t : State) (w : World) (cause : Nat) : Prop :=
  (t.fn w).fstate = .lost ∧ (t.fn w).lostCause = cause ∧ (t.fn w).start = false
    ∧ (t.fn w).host = (if (s.fn w).host = .hosted then .autonomous else (s.fn w).host)
    ∧ (∀ q, (t.sq w q).state = (if (s.sq w q).state = .none then .none else .lost) ∧ (t.sq w q).entries = [])
    ∧ (∀ q, (t.cq w q).state = (if (s.cq w q).state = .none then .none else .lost))
    ∧ (∀ i, s.pageWorld i = some w → t.pageValid i = false)

/-- A start that passes its checks makes the function RUNNING with its features accepted and queue 0 of each kind made anew, and a refused one
leaves its reason; every cause of host loss makes a RUNNING function LOST; the watchdog is restarted by its value; the link and PERST_N go
up and down (R37, R38, R44, R241 to R244, R248). The device is powered. What PERST_N clears of the configuration is taken from PCI Express
(log 82), and that HOST_WATCHDOG_EXPIRY changes nothing before its time is the model's choice (log 3). -/
def Obligations.FunctionsStartAndStop : Prop :=
  ∀ (s : State) (w : World), s.powered = true →
    let f := s.fn w
    (∀ (bme d0 : Bool), s.running w = false → s.pw.phase = .none →
      let s0 := s.modFn w (fun f => { f with bme := bme, d3hot := !d0 })
      (s0.startCheck w = 0 → (∀ e ∈ s.ovf, e.world ≠ w) → (∀ e ∈ s.ovfWait, e.world ≠ w) →
        Completes (.functionStart w bme d0) s (fun t =>
          (t.fn w).fstate = .running ∧ (t.fn w).start = true ∧ (t.fn w).startErr = 0 ∧ (t.fn w).lostCause = 0
            ∧ (t.fn w).accepted = (if f.drvVer / 65536 = 2 then f.featAccept else 0) ∧ (t.fn w).wdogLast = s.now
            ∧ (t.sq w 0).state = .enabled ∧ (t.sq w 0).base = f.aqSqBase ∧ (t.sq w 0).depth = f.aqDepth % 65536 ∧ (t.sq w 0).entries = []
            ∧ (t.sq w 0).head = {} ∧ (t.sq w 0).tail = {}
            ∧ t.cq w 0 = { state := .active, base := f.aqCqBase, depth := f.aqDepth / 65536, vector := 0 }
            ∧ t.ctxs = s.ctxs ∧ t.ports = s.ports ∧ t.drives = s.drives ∧ SameBytes s t))
      ∧ (s0.startCheck w ≠ 0 → Completes (.functionStart w bme d0) s (fun t =>
          t.fn w = { f with bme := bme, d3hot := !d0, start := false, startErr := s0.startCheck w } ∧ t.qm = s.qm)))
    ∧ (OnlyFunction s w → Completes (.functionStop w) s (fun t => LosesHost s t w 5))
    ∧ (OnlyFunction s w → ∀ d3 : Bool, Completes (.busMasterDisable w d3) s (fun t => LosesHost s t w 3 ∧ (t.fn w).d3hot = d3
        ∧ (t.fn w).bme = (f.bme && d3)))
    ∧ (OnlyFunction s w → Completes (.functionLevelReset w) s (fun t => LosesHost s t w 2 ∧ (t.fn w).drvVer = 0 ∧ (t.fn w).featAccept = 0
        ∧ (t.fn w).aqSqBase = 0 ∧ (t.fn w).aqCqBase = 0 ∧ (t.fn w).aqDepth = 0 ∧ (t.fn w).event = 0 ∧ (t.fn w).eventMask = 0x1F
        ∧ (t.fn w).bme = false ∧ ∀ m, s.mbWorld m = some w → (t.mb m).req = 0 ∧ (t.mb m).note = 0 ∧ (t.mb m).ackValid = false
          ∧ (t.mb m).msg = (s.mb m).msg))
    ∧ (OnlyFunction s w → bitAt f.accepted 14 = true → f.wdogLast + (s.wcfg w).wdogMs * 1000000 ≤ s.now →
        Completes (.hostWatchdogExpiry w) s (fun t => LosesHost s t w 4))
    ∧ (bitAt f.accepted 14 = false ∨ s.now < f.wdogLast + (s.wcfg w).wdogMs * 1000000 → Completes (.hostWatchdogExpiry w) s (fun t => t = s))
    ∧ (Completes (.watchdogRestart w 0xA5A) s (fun t => t.fn w = { f with wdogLast := s.now } ∧ { t with fns := s.fns } = s))
    ∧ (s.running .slate = false → s.running .granite = false → Completes .linkDown s (fun t => t = { s with linkUp := false }))
    ∧ (3 ≤ s.attic.state → s.attic.state ≤ 6 → s.pw.phase = .none → s.pw.perstLow = false →
        Completes .linkUp s (fun t => t = { s with linkUp := true }))
    ∧ (s.running .slate = false → s.running .granite = false → Completes .perstNLow s (fun t => t.linkUp = false ∧ t.pw.perstLow = true
        ∧ t.fn w = { f with bme := false, d3hot := false, msix := [], pba := [] } ∧ t.ctxs = s.ctxs ∧ t.qm = s.qm ∧ SameBytes s t))
    ∧ Completes .perstNHigh s (fun t => t.pw = { s.pw with perstLow := false } ∧ { t with pw := s.pw } = s)

/-- A register write gives the register of its offset its value: whole, or a 64-bit register by its low word, which is held, and then its high
word; a write to a read-only word changes nothing, and before DONE only the identity region takes writes. An access that is not aligned, or
of less than 4 bytes, changes no register, reads 0 and is recorded with its offset; and each function has its PCIe identity and BARs (R7, R10, R11, R74, R233, R235,
R237, R276). A device without its supplies takes no write (R515). -/
def Obligations.RegisterWrites : Prop :=
  ∀ (s : State) (w : World) (v : W64),
    let f := s.fn w
    let lo := v.toNat % 2 ^ 32
    (s.powered = false → ∀ off wide, Completes (.registerWrite w off wide v) s (fun t => t = s))
    ∧ (pciDeviceId .slate = 0x8256 ∧ pciDeviceId .granite = 0x8257 ∧ pciClassCode = 0x0C8000 ∧ pciBarBytes 0 = 2 ^ 24 ∧ pciBarBytes 2 = 2 ^ 32
      ∧ (∀ k, pciBarPrefetchable k = true ↔ k = 2) ∧ (∀ k, k ≠ 0 → k ≠ 2 → pciBarBytes k = 0)
      ∧ (0 < (s.wcfg w).msixCount → s.msixTableSize w + 1 = (s.wcfg w).msixCount))
    ∧ (s.powered = true →
    Completes (.registerWrite w 0x08 false v) s (fun t => t.fn w = { f with drvVer := lo } ∧ { t with fns := s.fns } = s)
    ∧ Completes (.registerWrite w 0x50 false v) s (fun t => t.fn w = { f with aqDepth := lo } ∧ { t with fns := s.fns } = s)
    ∧ Completes (.registerWrite w 0x40 true v) s (fun t => t.fn w = { f with aqSqBase := v.toNat } ∧ { t with fns := s.fns } = s)
    ∧ Completes (.registerWrite w 0x48 false v) s (fun t => (t.fn w).aqCqBase = f.aqCqBase
        ∧ (Tbl.get 0 (t.fn w).heldLow 0x48).toNat = lo ∧ { t with fns := s.fns } = s)
    ∧ Completes (.registerWrite w 0x4C false v) s (fun t =>
        (t.fn w).aqCqBase = lo * 2 ^ 32 + (Tbl.get 0 f.heldLow 0x48).toNat ∧ { t with fns := s.fns } = s)
    ∧ (∀ off ∈ [0x00, 0x04, 0x10, 0x8000, 0x9010], Completes (.registerWrite w off false v) s (fun t => t = s))
    ∧ (s.done = true → Completes (.registerWrite w 0x1000C false v) s (fun t => t.fn w = { f with eventMask := lo % 32 }
        ∧ { t with fns := s.fns } = s))
    ∧ (s.done = false → ∀ off, 0x10000 ≤ off → off % 4 = 0 → isLow64 off = false → (off < 4 ∨ isLow64 (off - 4) = false) →
        Completes (.registerWrite w off false v) s (fun t => t = s))
    ∧ (∀ (off n : Nat) (isWrite : Bool), (n < 4 ∨ off % n ≠ 0) → (s.fc.buf.filter (fun r => msgSource r.msg = 108)).length < 4 →
        Completes (.misalignedRegAccess w off n isWrite) s (fun t =>
          t.fc.buf = s.fc.buf ++ [⟨faultMsg 108 w.bit 5 off (some w) false, none⟩]
            ∧ t.out = (if isWrite then s.out else s.out ++ [.readData 0]) ∧ { t with fc := s.fc, out := s.out } = s)))

/-! ### Mailboxes and the flash service (R277 to R283, R503) -/

/-- A vector of a function that sends a message: of the table and not masked (R233). -/
def Sys2Proof.Machine.Sends (s : State) (w : World) (vec : Nat) : Prop :=
  vec < (s.wcfg w).msixCount ∧ (Tbl.get {} (s.fn w).msix vec).masked = false

/-- The flash service has acknowledged the request of a bit of mailbox m, with MB_MSG_1 where the operation returns it (R279, R281). -/
def Sys2Proof.Machine.FlashAcked (s t : State) (m bit code : Nat) (msg1 : Option Nat) : Prop :=
  (t.mb m).ackValid = true ∧ (t.mb m).ackCode = code ∧ (t.mb m).ackBit = bit ∧ bitAt (t.mb m).req bit = false
    ∧ (∀ v, msg1 = some v → Tbl.get 0 (t.mb m).msg 1 = BitVec.ofNat 64 v) ∧ (msg1 = none → (t.mb m).msg = (s.mb m).msg)
    ∧ ∀ n, n ≠ m → t.mb n = s.mb n

/-- Requests set REQ bits and clear NOTE bits; an acknowledge delivers the partner's code, bit and reply, or is held while one is not yet
cleared; a note sets NOTE bits with a message for one not masked; the message registers take a write unless they belong to the partner,
and then COLLIDE is set (R278, R279). -/
def Obligations.MailboxesExchange : Prop :=
  ∀ (s : State) (w : World) (m : Nat), s.mbWorld m = some w → s.mbPartner m ≠ 0 →
    let x := s.mb m
    let only := fun (t : State) => (∀ n, n ≠ m → t.mb n = s.mb n) ∧ { t with mbs := s.mbs, fns := s.fns, out := s.out } = s
    (∀ v : W32, s.done = true → Completes (.mbRequest w m v) s (fun t => only t ∧ t.out = s.out
      ∧ (∀ i, i < 16 → bitAt (t.mb m).req i = (bitAt x.req i || v.getLsbD i) ∧ bitAt (t.mb m).note i = (bitAt x.note i && !v.getLsbD (16 + i)))
      ∧ { t.mb m with req := x.req, note := x.note } = x))
    ∧ (∀ (code : BitVec 16) (bit i : Nat) (v : W64), bit < 16 → i < 8 → ¬(s.fc.graniteHalt = true ∧ w = .granite ∧ s.mbPartner m = 1) →
      (x.ackValid = false → Sends s w x.vec → Completes (.mbAcknowledge m code bit [(i, v)]) s (fun t => only t
        ∧ (t.mb m).ackValid = true ∧ (t.mb m).ackCode = code.toNat ∧ (t.mb m).ackBit = bit ∧ bitAt (t.mb m).req bit = false
        ∧ (∀ j, j ≠ bit → bitAt (t.mb m).req j = bitAt x.req j) ∧ Tbl.get 0 (t.mb m).msg i = v
        ∧ (∀ j, j ≠ i → Tbl.get 0 (t.mb m).msg j = Tbl.get 0 x.msg j) ∧ t.out = s.out ++ [.msix w x.vec]))
      ∧ (x.ackValid = true → Completes (.mbAcknowledge m code bit [(i, v)]) s (fun t => only t ∧ t.out = s.out
        ∧ t.mb m = { x with held := x.held ++ [(code.toNat, bit, [(i, v)])] })))
    ∧ (∀ v : W32, s.done = true → v.getLsbD 31 = true → x.ackValid = true →
      (x.held = [] → Completes (.mbAckClear w m v) s (fun t => only t ∧ t.out = s.out ∧ t.mb m = { x with ackValid := false }))
      ∧ (∀ code bit reply rest, x.held = (code, bit, reply) :: rest → Sends s w x.vec → Completes (.mbAckClear w m v) s (fun t => only t
        ∧ (t.mb m).ackValid = true ∧ (t.mb m).ackCode = code ∧ (t.mb m).ackBit = bit ∧ (t.mb m).held = rest
        ∧ t.out = s.out ++ [.msix w x.vec])))
    ∧ (∀ v : BitVec 16, Completes (.mbNote m v) s (fun t => only t ∧ t.mb m = { x with note := x.note ||| v.toNat }
      ∧ (Sends s w x.vec → t.out = (if (List.range 16).any (fun i => v.getLsbD i && !bitAt x.noteMask i) then s.out ++ [.msix w x.vec] else s.out))))
    ∧ (∀ (i : Nat) (v : W64), s.done = true → i < 8 →
      (x.req = 0 → x.ackValid = false → Completes (.mbMsgWrite w m i v) s (fun t => only t ∧ t.out = s.out
        ∧ t.mb m = { x with msg := Tbl.put 0 x.msg i v }))
      ∧ (x.req ≠ 0 ∨ x.ackValid = true → Completes (.mbMsgWrite w m i v) s (fun t => only t ∧ t.out = s.out
        ∧ t.mb m = { x with collide := true })))

/-- A request of the flash service: its operation, and the mailbox of its world free for the answer. -/
def Sys2Proof.Machine.FlashAsks (s : State) (w : World) (m bit op : Nat) : Prop :=
  s.flashMb w = some m ∧ s.done = true ∧ bit < 16 ∧ bitAt (s.mb m).req bit = true ∧ s.flashOp m = op ∧ (s.mb m).ackValid = false

/-- OPEN erases the copy not in force and opens a session on it; WRITE writes its bytes in order; COMMIT closes the session of a copy that
passes its check, and denies Slate a change of Granite's part; ABORT erases its copy and closes it; STATUS reports it; and each is
acknowledged (R281, R282, R283, R503). That OPEN answers 3 with a session open, whatever its target, is the model's order of the checks
(log 83). -/
def Obligations.FlashServiceActs : Prop :=
  ∀ (s : State) (w : World) (m bit : Nat),
    let k := s.flashTarget m
    (FlashAsks s w m bit 1 → s.flash.session = none → k ≠ 0 → ¬(k = 2 ∧ w = .slate) →
      let base := copyBase k (s.spareCopy k)
      Completes (.flashOpen w bit) s (fun t => FlashAcked s t m bit 0 (some (s.spareCopy k))
        ∧ t.flash.session = some { world := w, target := k, copy := s.spareCopy k, base := base, written := 0, denied := false }
        ∧ ∀ a, Memory.byte 0xFF t.flash.mem a = if base ≤ a ∧ a < base + copyMax k then 0xFF else Memory.byte 0xFF s.flash.mem a))
    ∧ (FlashAsks s w m bit 1 → s.flash.session.isSome = true → Completes (.flashOpen w bit) s (fun t =>
        FlashAcked s t m bit 3 none ∧ t.flash = s.flash))
    ∧ (∀ x : FlashSession, s.flash.session = some x → x.world = w →
      let off := s.mbMsg m 1
      let n := s.mbMsg m 2
      (FlashAsks s w m bit 2 → 1 ≤ n → n ≤ 40 → off = x.written → off + n ≤ copyMax x.target →
        Completes (.flashWrite w bit) s (fun t => FlashAcked s t m bit 0 none ∧ t.flash.session = some { x with written := off + n }
          ∧ (∀ i, i < n → Memory.byte 0xFF t.flash.mem (x.base + off + i)
              = (Tbl.get 0 (s.mb m).msg (3 + i / 8)).extractLsb' (8 * (i % 8)) 8)
          ∧ ∀ a, a < x.base + off ∨ x.base + off + n ≤ a → Memory.byte 0xFF t.flash.mem a = Memory.byte 0xFF s.flash.mem a))
      ∧ (FlashAsks s w m bit 3 → s.checkCopy x.base x.target = 1 → s.commitAudits x = false →
        Completes (.flashCommit w bit) s (fun t => FlashAcked s t m bit 0 (some (s.genInForce x.target)) ∧ t.flash.session = none
          ∧ t.flash.mem = s.flash.mem ∧ t.flint = s.flint))
      ∧ (FlashAsks s w m bit 3 → s.checkCopy x.base x.target = 1 → w = .slate → x.target = 1 → s.graniteDigest x.base ≠ s.attic.gdigest →
        Completes (.flashCommit w bit) s (fun t => FlashAcked s t m bit 4 (some (s.genInForce 1))
          ∧ t.flash.session = some { x with denied := true } ∧ t.flash.mem = s.flash.mem))
      ∧ (FlashAsks s w m bit 4 → Completes (.flashAbort w bit) s (fun t => FlashAcked s t m bit 0 none ∧ t.flash.session = none
          ∧ ∀ a, Memory.byte 0xFF t.flash.mem a = if x.base ≤ a ∧ a < x.base + copyMax x.target then 0xFF else Memory.byte 0xFF s.flash.mem a))
      ∧ (FlashAsks s w m bit 5 → Completes (.flashStatus w bit) s (fun t =>
          FlashAcked s t m bit 0 (some (1 + 2 * x.target + 8 + x.written * 2 ^ 32)) ∧ t.flash = s.flash)))

/-! ### Ports: discovery, commands and FIFOs (R284 to R332) -/

/-- No attachment of a port holds a device. -/
def Sys2Proof.Machine.PortEmpty (s : State) (n : Nat) : Prop := ∀ a ∈ portAtts (16 * n), (s.att a).state = .empty

/-- No context is in a CCW. -/
def Sys2Proof.Machine.NoCcw (s : State) : Prop := ∀ c, (s.ctx c).started = false ∧ (s.ctx c).act = none

/-- Every other attachment is as before. -/
def Sys2Proof.Machine.OtherAtts (s t : State) (a : Nat) : Prop := ∀ b, b ≠ a → t.att b = s.att b

/-- An event of an attachment is latched in every target of every context that names it (R105, R327). -/
def Sys2Proof.Machine.AttLatched (s t : State) (a bit : Nat) : Prop :=
  ∀ c i, (s.ctx c).state ≠ .free → i ∈ (s.ctx c).targetsNaming 0 a → bitAt (Tbl.get 0 (t.ctx c).latch i) bit = true

/-- A device that connects is debounced and enumerated; one that fails three times is FAILED; one without a candidate profile is FAILED, and one
whose first candidate names no probe is READY with it; a probe that ends with SUCCESS and a version within the range makes it READY, and one
that takes too long gives way; a serial attachment is probed again 5 s after it failed; a removal, an overcurrent and a fault of the PHY
leave no device and no power (R291 to R294, R309, R311 to R313, R326). That DEBOUNCE_STABLE, PROBE_TIMEOUT and REPROBE_TIMER change nothing
before their time is the model's choice (log 3). -/
def Obligations.PortsDiscover : Prop :=
  ∀ (s : State) (n a : Nat),
    let p := s.port n
    let x := s.att a
    let u := (s.port (a / 16)).cfg
    (∀ hub : Bool, p.cfg.mode = 1 → p.vbus = true → (s.att (16 * n)).state = .empty → (hub = true → p.cfg.hubs = true) → none ∉ p.refused →
      Completes (.usbConnect n none hub) s (fun t => (t.att (16 * n)).state = .debounce ∧ (t.att (16 * n)).tier = 0
        ∧ (t.att (16 * n)).since = s.now ∧ OtherAtts s t (16 * n) ∧ SameBytes s t))
    ∧ (x.state = .debounce → x.since + 100000000 ≤ s.now → Completes (.debounceStable a) s (fun t =>
        (t.att a).state = .enumerating ∧ (t.att a).since = s.now ∧ OtherAtts s t a))
    ∧ (x.state = .debounce → s.now < x.since + 100000000 → Completes (.debounceStable a) s (fun t => t = s))
    ∧ (x.state = .enumerating → x.since + 60000000 ≤ s.now →
      (x.attempts < 2 → Completes (.enumerationDone a none) s (fun t =>
        t.att a = { x with attempts := x.attempts + 1, since := s.now } ∧ OtherAtts s t a))
      ∧ (2 ≤ x.attempts → Completes (.enumerationDone a none) s (fun t =>
        (t.att a).state = .failed ∧ (t.att a).status = 2 ∧ bitAt (t.port (a / 16)).event 6 = true ∧ OtherAtts s t a))
      ∧ (∀ d : Descriptors,
        (d.cls = 9 → u.hubs = true → x.tier < 2 → Completes (.enumerationDone a (some d)) s (fun t =>
          (t.att a).state = .ready ∧ (t.att a).hub = true ∧ (t.att a).speed = d.speed ∧ (t.att a).desc = some d ∧ OtherAtts s t a))
        ∧ (d.cls ≠ 9 → s.attic.config = .image →
          ceilDiv (maxInOf d) 4 + 1
            ≤ (s.modAtt a (fun t => { t with resRx := u.reserve u.resRx (a % 16), resTx := u.reserve u.resTx (a % 16) })).rxFree a →
          let l := (s.modAtt a (fun t => { t with desc := some d })).candidates a
          (l = [] → Completes (.enumerationDone a (some d)) s (fun t => (t.att a).state = .failed ∧ (t.att a).status = 3 ∧ OtherAtts s t a))
          ∧ (∀ q rest, l = q :: rest → q.probe = 0 → Completes (.enumerationDone a (some d)) s (fun t =>
            (t.att a).state = .ready ∧ (t.att a).profile = q.num ∧ (t.att a).pver = q.verMax ∧ OtherAtts s t a)))))
    ∧ (∀ (r : ProbeRun) (q : Profile), x.state = .probing → x.probe = some r → (s.candidates a)[r.cand]? = some q →
      let z := s.ctx r.ctx
      (z.state = .free → z.lastStatus = 0 → q.verMin ≤ z.lastUnit → z.lastUnit ≤ q.verMax →
        z.endedAt ≤ x.probeStart + q.timeoutMs * 1000000 → Completes (.probeEnd a) s (fun t =>
        (t.att a).state = .ready ∧ (t.att a).profile = q.num ∧ (t.att a).pver = z.lastUnit ∧ (t.att a).probe = none))
      ∧ (s.now < x.probeStart + q.timeoutMs * 1000000 → Completes (.probeTimeout a) s (fun t => t = s))
      ∧ (x.probeStart + q.timeoutMs * 1000000 ≤ s.now → s.attic.config = .image → (s.candidates a)[r.cand + 1]? = none →
        z.live = false → (z.state = .free → x.probeStart + q.timeoutMs * 1000000 < z.endedAt) → Completes (.probeTimeout a) s (fun t => (t.att a).state = .failed ∧ (t.att a).status = 3
          ∧ (t.att a).probe = none)))
    ∧ (x.state = .failed → u.mode ≠ 1 → s.attic.config = .image →
      (s.now < x.since + 5000000000 → Completes (.reprobeTimer a) s (fun t => t = s))
      ∧ (x.since + 5000000000 ≤ s.now → ∀ q rest, s.candidates a = q :: rest → q.probe = 0 → Completes (.reprobeTimer a) s (fun t =>
        (t.att a).state = .ready ∧ (t.att a).profile = q.num ∧ (t.att a).pver = q.verMax ∧ OtherAtts s t a)))
    ∧ (u.mode = 1 → x.state ≠ .empty → s.behind a = [] → NoCcw s → Completes (.usbDisconnect a) s (fun t =>
        (t.att a).state = .empty ∧ (t.att a).status = 0 ∧ (t.att a).rx = {} ∧ (t.att a).tx = {} ∧ OtherAtts s t a ∧ SameBytes s t))
    ∧ (p.vbus = true → PortEmpty s n → Completes (.overcurrent n) s (fun t => (t.port n).vbus = false ∧ (t.port n).ocCnt = satInc32 p.ocCnt
        ∧ bitAt (t.port n).event 3 = true
        ∧ (let times := s.now :: p.ocTimes.filter (fun t => s.now ≤ t + 60000000000)
           (t.port n).ocLockout = decide (3 ≤ times.length)
             ∧ (t.port n).ocRetry = if 3 ≤ times.length then none else some (s.now + p.cfg.ocRetryMs * 1000000))
        ∧ ∀ m, m ≠ n → t.port m = s.port m))
    ∧ (∀ t1, p.ocRetry = some t1 → t1 ≤ s.now → Completes (.ocRetryExpiry n) s (fun t => (t.port n).ocRetry = none
        ∧ (t.port n).vbus = (p.cfg.mode = 1 && p.enabled && !p.ocLockout && !(p.cfg.vbusSafeOff && p.safe))
        ∧ { t with ports := s.ports } = s))
    ∧ (p.enabled = true → PortEmpty s n → (∀ i, (p.pin i).pulseEnd = none) → Completes (.portPhyFault n) s (fun t => (t.port n).enabled = false ∧ (t.port n).vbus = false
        ∧ { t with ports := s.ports } = s))

/-- Port commands complete, normally or with their error, and latch CMD_DONE; pulses end and blinks toggle; received items are stored, one that
finds no room is lost and counted, packets close at an idle line, and gap markers, with the number of items lost, at their boundary; inputs change; and closed packets are handed off to the wire (R22, R295 to
R308, R318 to R324, R327). -/
def Obligations.ChannelsMove : Prop :=
  ∀ (s : State) (n a : Nat),
    let p := s.port n
    let x := s.att a
    let u := s.att (16 * n)
    (∀ (ep : Nat) (k : PortCmd), x.cmds.find? (fun y => cmdMode y.code ≠ 1 || y.ep = ep) = some k → s.cmdTurn a k = true →
      (s.cmdComplete a k = true → Completes (.cmdDone a ep 0) s (fun t => (t.att a).cmds = x.cmds.erase k ∧ (t.att a).error = x.error
        ∧ AttLatched s t a 5 ∧ OtherAtts s t a ∧ SameBytes s t))
      ∧ (∀ err, 1 ≤ err → err ≤ 0x0E → Completes (.cmdDone a ep err) s (fun t => (t.att a).cmds = x.cmds.erase k ∧ (t.att a).error = err
        ∧ (t.att a).errEp = k.ep ∧ AttLatched s t a 5 ∧ OtherAtts s t a ∧ SameBytes s t)))
    ∧ (∀ k rest, x.cmds = k :: rest → cmdMode k.code = 4 → s.cmdTurn a k = true → Completes (.stretchTimeout a) s (fun t => (t.att a).cmds = rest
        ∧ (t.att a).error = 9 ∧ AttLatched s t a 5 ∧ OtherAtts s t a))
    ∧ (∀ (ep : Nat) (k : PortCmd), x.cmds = [k] → k.code = 5 → k.ep = ep → k.toRecv = 0 → Completes (.intPollInterval a ep) s (fun t =>
        t.att a = { x with cmds := [{ k with toRecv := k.arg }] } ∧ OtherAtts s t a ∧ { t with atts := s.atts } = s))
    ∧ (∀ pin t1, (p.pin pin).pulseEnd = some t1 → t1 ≤ s.now → Completes (.pulseEnd n pin) s (fun t =>
        (t.port n).pin pin = { p.pin pin with level := false, pulseEnd := none, gapUntil := s.now + Tbl.get 0 p.cfg.pulseGap pin * 1000000 }
          ∧ (∀ i, i ≠ pin → (t.port n).pin i = p.pin i) ∧ AttLatched s t (16 * n) 5 ∧ t.atts = s.atts))
    ∧ (∀ pin b, (p.pin pin).blink = some b → Completes (.blinkToggle n pin) s (fun t =>
        (t.port n).pin pin = { p.pin pin with level := !(p.pin pin).level } ∧ (∀ i, i ≠ pin → (t.port n).pin i = p.pin i)
          ∧ { t with ports := s.ports } = s))
    ∧ (∀ high, p.cfg.mode = 2 → p.enabled = true → Completes (.ctsChange n high) s (fun t => t.port n = { p with cts := high }
        ∧ (∀ m, m ≠ n → t.port m = s.port m) ∧ { t with ports := s.ports } = s))
    ∧ (∀ (v : Byte) (p1 : Nat), p.cfg.mode = 2 → s.wireOpen (16 * n) = true → s.driverOn n = false → u.rx.gap = 0 → u.rx.discard = false → u.rx.openAt = some p1 →
      0 < s.rxFree (16 * n) → p.cfg.eopEn = false → u.rx.openItems + 1 ≠ p.cfg.limit →
      Completes (.rxItemArrival (16 * n) (.char v false false false)) s (fun t =>
        (t.att (16 * n)).rx = { u.rx with
            words := u.rx.words ++ [{ w := BitVec.ofNat 32 (v.toNat % 2 ^ (5 + bits p.lineWord 24 2)), items := 1 }]
            openItems := u.rx.openItems + 1 }
          ∧ OtherAtts s t (16 * n) ∧ t.ctxs = s.ctxs))
    ∧ (∀ v : Byte, p.cfg.mode = 2 → s.wireOpen (16 * n) = true → s.driverOn n = false → u.rx.gap = 0 → u.rx.discard = false → u.rx.openAt = none →
      s.rxFree (16 * n) = 0 → p.cfg.eopEn = false → Completes (.rxItemArrival (16 * n) (.char v false false false)) s (fun t =>
        (t.att (16 * n)).rx.words = u.rx.words ∧ (t.att (16 * n)).rx.gap = 1 ∧ (t.att (16 * n)).rx.discard = true
          ∧ (t.port n).rxLost = satAt 0xFFFFFFFF (p.rxLost + 1) ∧ OtherAtts s t (16 * n) ∧ t.ctxs = s.ctxs))
    ∧ (∀ (v : Byte) (k : PortCmd), ((s.port (a / 16)).cfg.mode = 3 ∨ (s.port (a / 16)).cfg.mode = 4) → s.wireOpen a = true → 2 ≤ s.rxFree a →
      x.cmds = [k] → 2 ≤ k.toRecv → s.takesByte a k = true → Completes (.rxItemArrival a (.byte v false)) s (fun t =>
        (t.att a).cmds = [{ k with toRecv := k.toRecv - 1 }] ∧ OtherAtts s t a))
    ∧ (x.hasChannels = true → x.rx.gap ≠ 0 → x.rx.gapAt = none → x.rx.gapBoundary = true → 0 < s.rxFree a →
      Completes (.gapMarkerStored a) s (fun t => (t.att a).rx.gap = 0 ∧ (t.att a).rx.visible = x.rx.wpos + 1
        ∧ (t.att a).rx.words = x.rx.words ++ [{ head := true, w := BitVec.ofNat 32 (2 * 2 ^ 28
            + (if 65535 < x.rx.gap then 2 ^ 16 + 65535 else x.rx.gap)) }]
        ∧ (t.port (a / 16)).gapCnt = satInc32 (s.port (a / 16)).gapCnt ∧ bitAt (t.port (a / 16)).event 4 = true
        ∧ AttLatched s t a 0 ∧ OtherAtts s t a))
    ∧ (∀ p1, p.cfg.mode = 2 → p.cfg.rxIdle ≠ 0 → p.enabled = true → u.hasChannels = true → u.rx.gap = 0 → u.rx.openAt = some p1 →
      Completes (.rxIdleClose n) s (fun t => (t.att (16 * n)).rx.openAt = none ∧ (t.att (16 * n)).rx.visible = u.rx.wpos
        ∧ (t.att (16 * n)).rx.words = u.rx.words.set (p1 - u.rx.freed)
            { w := BitVec.ofNat 32 (2 ^ 28 + bnat u.rx.openErr * 2 ^ 19 + u.rx.openItems % 2 ^ 16), head := true, span := u.rx.wpos - p1 - 1 }
        ∧ AttLatched s t (16 * n) 0 ∧ OtherAtts s t (16 * n)))
    ∧ (∀ (ep : Nat) (k : PortCmd) (e : Endpoint) (data : List Byte) (p1 : Nat), x.cmds = [k] → k.ep = ep → bitAt ep 7 = true →
      x.endpoint ep = some e → s.usbTurn a ep = true → data ≠ [] → data.length = e.mps → e.mps < k.toRecv → s.wireOpen a = true → s.portDrop (a / 16) = true →
      x.rx.gap = 0 → x.rx.discard = false → x.rx.openAt = some p1 → x.rx.openEp = ep → x.rx.openItems + e.mps ≤ (s.port (a / 16)).cfg.limit →
      ceilDiv (x.rx.openItems + e.mps) 4 - ceilDiv x.rx.openItems 4 ≤ s.rxFree a →
      Completes (.usbInPacket a ep data) s (fun t => (t.att a).cmds = [{ k with toRecv := k.toRecv - e.mps }]
        ∧ (t.att a).rx.openItems = x.rx.openItems + e.mps ∧ (t.att a).rx.openAt = some p1 ∧ OtherAtts s t a ∧ t.ctxs = s.ctxs))
    ∧ (∀ (levels : BitVec 4) (since : Nat), p.cfg.mode = 4 → p.enabled = true → bits p.cfg.gpioDir 0 1 = 0 →
      levels.getLsbD 0 ≠ bitAt p.inputs 0 → (bits p.cfg.gpioDir 1 1 ≠ 0 ∨ levels.getLsbD 1 = bitAt p.inputs 1) → since + 10000 ≤ s.now →
      Completes (.inputChange n levels since) s (fun t => (t.port n).inputs = p.inputs ^^^ 1 ∧ t.atts = s.atts ∧ t.drives = s.drives
        ∧ ∀ b ∈ portAtts (16 * n), (s.att b).state ≠ .empty → AttLatched s t b 4))
    ∧ (∀ (k m : Nat) (q : TxPacket) (qs : List TxPacket), x.hasChannels = true → (s.port (a / 16)).enabled = true → x.cmds = [] → s.mayStart (a / 16) = true → q.bad = false →
      Nat.min k (s.sendLimit a) = m → x.tx.packets = q :: qs → q.len.isSome = true → q.handed + m < q.len.getD 0 → slice q.bytes q.handed m ≠ [] →
      Completes (.txHandoff a k) s (fun t => (t.att a).tx.packets = { q with handed := q.handed + m } :: qs
        ∧ t.out = s.out ++ [.wire (a / 16) (a % 16) (slice q.bytes q.handed m)] ∧ OtherAtts s t a ∧ SameBytes s t))

/-! ### Pantry, the Dumbwaiters and the Landings (R234, R339 to R370, R401 to R412) -/

/-- Pantry counts an alert and repeats the REFRESH words of the last 6 clocks (log 149), refreshes its rows in turn and, with no debug halt,
scrubs its bursts in turn; a translation entry of the world's own page is committed, another page's is rejected, and the drain of an old entry
ends BUSY; and with the rails up BAR2 reads and writes the Pantry regions of its world alone (R234, R339, R341, R347, R352). -/
def Obligations.PantryCommands : Prop :=
  ∀ (s : State) (w : World),
    let p := s.pantry
    let only := fun (t : State) => { t with pantry := s.pantry } = s
    (∀ ch, ch ∈ p.trained → Completes (.pnAlert ch) s (fun t => Tbl.get 0 t.pantry.caErr ch = satInc32 (Tbl.get 0 p.caErr ch)
      ∧ t.pantry.mem = p.mem
      ∧ t.out = s.out ++ (s.pnRecent ch).map (fun x => OutItem.pnCommand ch x.2.1 x.2.2) ∧ only { t with out := s.out }))
    ∧ (∀ ch dev, ch ∈ p.trained → dev < s.img.devices → Completes (.refresh ch dev) s (fun t =>
      let row := Tbl.get 0 p.refresh (2 * ch + dev)
      Tbl.get 0 t.pantry.refresh (2 * ch + dev) = (row + 1) % 2 ^ 21 ∧ t.pantry.mem = p.mem
        ∧ t.out = s.out ++ [.pnCommand ch dev (pnCommand 3 (row % 16) (row / 16 * 8))] ∧ only { t with out := s.out }))
    ∧ (p.scrubActive = true → s.qz.debugHalt = false → 0 < s.img.cap → s.pnBad p.scrubBurst = false → Completes .scrub s (fun t =>
      t.pantry.scrubBurst = (if s.img.cap / 32 ≤ p.scrubBurst + 1 then 0 else p.scrubBurst + 1)
        ∧ t.pantry.scrubCnt = (if s.img.cap / 32 ≤ p.scrubBurst + 1 then satInc32 p.scrubCnt else p.scrubCnt)
        ∧ Tbl.get [] t.pantry.errs p.scrubBurst = [] ∧ t.pantry.mem = p.mem ∧ only t))
    ∧ (∀ hi : W32, s.done = true →
      let i := p.xlatIdx.get w
      let v := hi.toNat * 2 ^ 32 + (Tbl.get 0 (s.fn w).heldLow 0x700018).toNat
      (s.pageWorld i = some w → bits v 5 16 = 0 → Completes (.xlatCommit w hi) s (fun t =>
        (Tbl.get 0 t.pantry.xlat i).toNat = bits v 0 3 + v / 2 ^ 21 % 2 ^ 43 * 2 ^ 21 ∧ i ∉ t.pantry.xlatBad
          ∧ t.pantry.rejected = p.rejected.set w false ∧ (∀ j, j ≠ i → Tbl.get 0 t.pantry.xlat j = Tbl.get 0 p.xlat j) ∧ only t))
      ∧ (s.pageWorld i ≠ some w ∨ bits v 5 16 ≠ 0 → Completes (.xlatCommit w hi) s (fun t =>
        t.pantry = { p with rejected := p.rejected.set w true } ∧ only t)))
    ∧ Completes (.xlatDrainDone w) s (fun t => t.pantry = { p with busy := p.busy.set w false } ∧ only t)
    ∧ (∀ off n, s.powered = true → s.bar2Ok w off n = true → GoodRead s off n → Completes (.bar2Access w off n none) s (fun t =>
      t.out = s.out ++ [.readBytes (Memory.bytes 0 p.mem off n)] ∧ t.pantry.mem = p.mem))
    ∧ (∀ off d, s.powered = true → s.bar2Ok w off d.length = true → Completes (.bar2Access w off d.length (some d)) s (fun t =>
      (∀ i, i < d.length → Memory.byte 0 t.pantry.mem (off + i) = d.getD i 0) ∧ t.out = s.out
        ∧ ∀ a, a < off ∨ off + d.length ≤ a → Memory.byte 0 t.pantry.mem a = Memory.byte 0 p.mem a))
    ∧ (∀ off n, s.powered = true → s.bar2Ok w off n = false → (s.fc.buf.filter (fun r => msgSource r.msg = 93)).length < 4 →
      Completes (.bar2Access w off n none) s (fun t => t.out = s.out ++ [.readBytes (List.replicate n 0)]
        ∧ t.fc.buf = s.fc.buf ++ [⟨faultMsg 93 w.bit 5 off (some w) false, none⟩] ∧ t.pantry = p))

/-- An engine that starts takes its descriptor and asks for leave, PAUSE takes effect after the burst, ENABLE brings IDLE with the domain on,
a request is counted, a burst moves its bytes and the addresses with them, and the head of its completion ring moves (R359 to R369). -/
def Obligations.DumbwaiterCommands : Prop :=
  ∀ (s : State) (w : World) (e : Nat), s.done = true → s.dwWorld e = some w →
    let d := s.dw e
    let others := fun (t : State) => (∀ m, m ≠ e → t.dw m = s.dw m) ∧ t.ctxs = s.ctxs
    (∀ v : W32, v.getLsbD 0 = true → v.getLsbD 1 = false → d.state = .idle → dwAligned d.src d.dst d.cnt = true →
      s.boiler.denied (s.leaveReq (.dumbwaiter e) false 4 (Nat.max 1 d.leave) (satAt 65535 (ceilDiv d.cnt (2 ^ 20))) none (s.dwLst e)) = false →
      Completes (.dwStart w e v) s (fun t => t.dw e = { d with
          pause := false, tag := bits v.toNat 16 16, start := true, tSrc := d.src, tDst := d.dst, tCnt := d.cnt, tTag := bits v.toNat 16 16
          handover := false, moved := [], descending := dwDescends d.src d.dst d.cnt, state := .leaveWait }
        ∧ t.boiler.waiting.length = s.boiler.waiting.length + 1 ∧ others t ∧ SameBytes s t))
    ∧ (∀ v : W32, v.getLsbD 0 = false → v.getLsbD 1 = true → d.state = .running → d.reqKind = 0 →
      Completes (.dwPause w e v) s (fun t => t.dw e = { d with pause := true, state := .pausing } ∧ others t ∧ SameBytes s t))
    ∧ (∀ v : W32, v.getLsbD 0 = true → bits v.toNat 4 2 ≠ 2 → d.state = .disabled → s.boiler.domains.contains (dwDomain e) = true →
      Completes (.dwEnable w e v) s (fun t => t.dw e = { d with
          burstLog := bits v.toNat 1 3, reqKind := bits v.toNat 4 2, reqUnit := bits v.toNat 6 10, irq := v.getLsbD 16, enable := true
          state := .idle, reqPending := 0 } ∧ others t ∧ SameBytes s t))
    ∧ (∀ v : W32, v.getLsbD 0 = true → d.reqKind = 1 → d.state = .running →
      (d.reqPending < 255 → Completes (.dwReq w e v) s (fun t => t.dw e = { d with reqPending := d.reqPending + 1 } ∧ others t ∧ SameBytes s t))
      ∧ (255 ≤ d.reqPending → Completes (.dwReq w e v) s (fun t => t.dw e = { d with reqLost := satInc32 d.reqLost } ∧ others t ∧ SameBytes s t)))
    ∧ (d.state = .running → d.released = true → d.stopAfter = false → d.descending = false → d.burst < d.cnt → s.pw.phase = .none →
      s.qz.debugHalt = false →
      (∀ i, i < d.burst → s.deny w false .read (d.src + i) = none ∧ s.deny w false .write (d.dst + i) = none) →
      d.src + d.burst ≤ windowBase → d.dst + d.burst ≤ windowBase → GoodRead s d.src d.burst →
      Completes (.dwBurstDone e .ok) s (fun t => t.dw e = { d with
          src := d.src + d.burst, dst := d.dst + d.burst, cnt := d.cnt - d.burst
          moved := d.moved ++ Memory.bytes 0 s.pantry.mem d.src d.burst
          reqPending := if d.reqKind = 1 ∨ d.reqKind = 2 then d.reqPending - 1 else d.reqPending }
        ∧ (∀ i, i < d.burst → Memory.byte 0 t.pantry.mem (d.dst + i) = Memory.byte 0 s.pantry.mem (d.src + i))
        ∧ (∀ a, a < d.dst ∨ d.dst + d.burst ≤ a → Memory.byte 0 t.pantry.mem a = Memory.byte 0 s.pantry.mem a) ∧ others t))
    ∧ (∀ v : W32, d.state ≠ .cqWait → (ptrOf v.toNat).idx < d.cqDepth →
      ptrDist ⟨d.cqHead, d.cqHeadWrap⟩ (ptrOf v.toNat) d.cqDepth ≤ ptrDist ⟨d.cqHead, d.cqHeadWrap⟩ ⟨d.cqTail, d.cqTailWrap⟩ d.cqDepth →
      Completes (.dwCqHead w e v) s (fun t => t.dw e = { d with cqHead := (ptrOf v.toNat).idx, cqHeadWrap := (ptrOf v.toNat).wrap }
        ∧ others t ∧ SameBytes s t))

/-- The latest-service time that a requester's request at a Landing carries, none for background rank: of a Hearth, the queue manager and
Flint the deadline of the context, of a Dumbwaiter DW_DL after its release, of the statistics unit the boundary that it latches, and of the
Fault Collector and the save the time of the request (R362, R401). -/
def Sys2Proof.Machine.dueOf (s : State) (r : Nat) (w : World) (c : Option Nat) : Option Nat :=
  if r < 64 ∨ r = 96 ∨ r = 100 then c.bind (fun i =>
    if (s.ctx i).deadline = 0xFFFFFFFFFFFFFFFF then none else some ((s.ctx i).deadline % 2 ^ 32))
  else if r < 96 then (if (s.dw (r - 64)).dl = 0 then none else some ((s.now + 1000 * (s.dw (r - 64)).dl) % 2 ^ 32))
  else if r = 101 then some ((s.stats.get w).start % 2 ^ 32)
  else if r = 102 then some (s.now % 2 ^ 32)
  else none

/-- A request at a Landing that serves nobody is granted at once, and one at a Landing that does waits in its queue; the end of a grant serves the
one request that waits; FREEZE and the burst limit are set by LD_CTL; and a bias is kept within its limits (R401, R404 to R412). -/
def Obligations.LandingsGrant : Prop :=
  ∀ (s : State) (w : World) (k : Nat), landExists k = true →
    let l := s.landing k
    let only := fun (t : State) => (∀ m, m ≠ k → t.landing m = s.landing m) ∧ { t with lands := s.lands, landOrder := s.landOrder } = s
    (∀ (r beats : Nat) (c : Option Nat) (sup : Bool), s.powered = true → s.qz.debugHalt = false → r < 103 → 0 < beats → (k < 72 ∨ s.landWorld k = some w) →
      let due := dueOf s r w c
      let q : LandReq := { req := r, lst := lstKept (due.getD ((s.now + s.boiler.cfg.bgUs * 1000) % 2 ^ 32)) s.now32, tag := w, beats := beats, entered := s.now,
                           order := s.landOrder, background := due.isNone, lowers := false, ctx := c
                           super := c.elim sup (fun i => if r < 64 then (s.ctx i).super1 else sup) }
      (l.grant = none → l.queue = [] → l.held = [] → l.freeze = false → Completes (.landingRequest k r w beats false c sup) s (fun t =>
        (t.landing k).grant = some q ∧ (t.landing k).queue = [] ∧ (t.landing k).grantCnt = satInc32 l.grantCnt
          ∧ t.landOrder = s.landOrder + 1 ∧ only t))
      ∧ (l.grant.isSome = true → l.queue.length < 32 → Completes (.landingRequest k r w beats false c sup) s (fun t =>
        t.landing k = { l with queue := l.queue ++ [q] } ∧ only t)))
    ∧ (∀ (used : Nat) (g : LandReq), s.qz.debugHalt = false → l.grant = some g → l.held = [] → l.freeze = false → g.beats ≤ Nat.max 1 l.burst →
      (l.queue = [] → Completes (.grantEnd k used) s (fun t => (t.landing k).grant = none ∧ (t.landing k).queue = [] ∧ only t))
      ∧ (∀ q, l.queue = [q] → Completes (.grantEnd k used) s (fun t => (t.landing k).grant = some q ∧ (t.landing k).queue = []
        ∧ (t.landing k).grantCnt = satInc32 l.grantCnt ∧ only t)))
    ∧ (∀ v : W32, 72 ≤ k → s.done = true → s.landWorld k = some w → v.getLsbD 8 = true → Completes (.freeze w k v) s (fun t =>
        t.landing k = { l with freeze := true, burst := if 1 ≤ bits v.toNat 0 7 ∧ bits v.toNat 0 7 ≤ 64 then bits v.toNat 0 7 else l.burst }
          ∧ only t))
    ∧ (∀ (r : Nat) (v : W32), s.done = true → s.biasWritable w r = true →
      let lo := -((s.boiler.cfg.negb.get w : Nat) : Int)
      lo ≤ v.toInt → v.toInt ≤ 1000000 → Completes (.ldBiasWrite w r v) s (fun t =>
        Tbl.get 0 (t.bias.get w) r = v.toNat ∧ (∀ m, m ≠ r → Tbl.get 0 (t.bias.get w) m = Tbl.get 0 (s.bias.get w) m)
          ∧ { t with bias := s.bias } = s))

/-! ### Drive hardware (R372 to R392) -/

/-- The balls of a drive work from step 8 of start-up, outside the bare safe state, for no DISABLED drive and with its domain on, and its
inputs are ignored else; a slave's are those of its gang (R42, R64, R72, R372, R377, R517). The drive hardware's events act on the one drive,
or on its gang: FAULT_N low puts it into safe output at 0 and is recorded; encoder edges count by the steps of log 20; conversions
are kept; duty and frequency take effect at the end of a period; a ramp steps toward its target; the inrush ends; and the zero crossings
are measured, with ZC_OK 0 when they fail (R372 to R376, R382, R383, R387, R392). -/
def Obligations.DriveEvents : Prop :=
  ∀ (s : State) (n : Nat), n < 64 →
    let d := s.drive n
    let others := fun (t : State) => ∀ m, m ≠ n → t.drive m = s.drive m
    (s.driveLive n = true ↔ s.done = true ∧ s.attic.config ≠ .bare ∧ (d.cfg.mode ≠ 0 ∨ d.cfg.gang = 2) ∧ 48 + n / 8 ∈ s.boiler.domains)
    ∧ (s.driveLive n = false → ∀ (low : Bool) (l : BitVec 3) (ch : Nat) (v : BitVec 12), exec (.driveFault n low) s = .next s
        ∧ exec (.encoderEdge n l) s = .next s ∧ exec (.adcSample n ch v) s = .next s ∧ exec (.zcEdge n) s = .next s)
    ∧ (s.driveLive n = true → d.faultLow = false → d.cfg.gang = 0 → Completes (.driveFault n true) s (fun t =>
        (t.drive n).faultLow = true ∧ (t.drive n).causeFault = true ∧ (t.drive n).faultCnt = satInc32 d.faultCnt ∧ (t.drive n).run = false
          ∧ (t.drive n).actA = 0 ∧ (t.drive n).actB = 0 ∧ (t.drive n).safeOut = true ∧ others t))
    ∧ (s.driveLive n = true → d.faultLow = true → Completes (.driveFault n false) s (fun t =>
        t.drive n = { d with faultLow := false, faultHighAt := s.now } ∧ others t ∧ { t with drives := s.drives } = s))
    ∧ (∀ l : BitVec 3, s.driveLive n = true → d.cfg.quad = true → d.cfg.gang = 0 → quadStep d.encLevels l.toNat ≠ 0 → Completes (.encoderEdge n l) s (fun t =>
        (t.drive n).encPos = unsignedOf 32 (d.encPos + quadStep d.encLevels l.toNat) ∧ (t.drive n).encLevels = l.toNat
          ∧ (t.drive n).encLast = some s.now ∧ (∀ t1, d.encLast = some t1 → (t.drive n).encPeriod = satAt 0xFFFFFFFE (s.now - t1)) ∧ others t))
    ∧ (∀ t1, d.encLast = some t1 → t1 + 1000000000 ≤ s.now → Completes (.encTimeout n) s (fun t =>
        t.drive n = { d with encPeriod := 0xFFFFFFFF } ∧ others t ∧ { t with drives := s.drives } = s))
    ∧ (∀ v : BitVec 12, s.driveLive n = true → Completes (.adcSample n 0 v) s (fun t => t.drive n = { d with adc0 := v.toNat, hist0 := (v.toNat :: d.hist0).take 1024 }
        ∧ others t ∧ { t with drives := s.drives } = s))
    ∧ (∀ v : BitVec 12, s.driveLive n = true → d.cfg.gang ≠ 2 → (d.ilim = 4095 ∨ v.toNat ≤ d.ilim) → Completes (.adcSample n 1 v) s (fun t =>
        t.drive n = { d with adc1 := v.toNat, hist1 := (v.toNat :: d.hist1).take 1024 } ∧ others t ∧ { t with drives := s.drives } = s))
    ∧ (d.motion = .follow → Completes (.pwmPeriodEnd n) s (fun t => (t.drive n).perA = d.actA ∧ (t.drive n).perB = d.actB
        ∧ (t.drive n).perFreq = d.freq ∧ (t.drive n).cut = false ∧ (t.drive n).actA = d.actA ∧ (d.cfg.gang = 0 → others t)))
    ∧ (d.motion = .follow → d.run = true → Completes (.rampTick n) s (fun t =>
        (t.drive n).actA = rampStep d.actA d.targetA d.cfg.rampUp d.cfg.rampDn
          ∧ (t.drive n).actB = rampStep d.actB d.targetB d.cfg.rampUp d.cfg.rampDn ∧ (t.drive n).run = true ∧ (d.cfg.gang = 0 → others t)))
    ∧ (∀ t1, d.inrushEnd = some t1 → t1 ≤ s.now → d.lease = none → Completes (.inrushEnd n) s (fun t =>
        t.drive n = { d with inrushEnd := none } ∧ others t ∧ { t with drives := s.drives } = s))
    ∧ (∀ t1, s.driveLive n = true → d.zcLast = some t1 → 12000000 ≤ s.now - t1 →
      (15300000 ≤ s.now - t1 → s.now - t1 ≤ 22300000 → Completes (.zcEdge n) s (fun t => (t.drive n).zcPeriod = s.now - t1
        ∧ (t.drive n).zcLast = some s.now ∧ (t.drive n).zcOk = (d.zcOk || decide (3 ≤ d.zcCount)) ∧ (t.drive n).run = d.run
        ∧ (d.cfg.gang = 0 → others t)))
      ∧ (¬(15300000 ≤ s.now - t1 ∧ s.now - t1 ≤ 22300000) → Completes (.zcEdge n) s (fun t => (t.drive n).zcOk = false
        ∧ (t.drive n).fire = false ∧ (d.zcOk = true → bitAt (t.drive n).event 4 = true) ∧ (d.cfg.gang = 0 → others t))))
    ∧ (∀ t1, d.zcLast = some t1 → t1 + 40000000 ≤ s.now → Completes (.zcTimeout n) s (fun t => (t.drive n).zcOk = false
        ∧ (t.drive n).fire = false ∧ (d.zcOk = true → bitAt (t.drive n).event 4 = true) ∧ (d.cfg.gang = 0 → others t)))

/-! ### Boiler (R34, R415 to R430) -/

/-- Boiler asks for leave for its own work, grants the one request of a budget that fits and keeps one that does not, records an overrun, switches
a domain on, measures, changes pace, and sends CLEAR_FAULTS at a fault of PMBus (R34, R418, R420 to R422, R425, R428, R429). -/
def Obligations.BoilerActs : Prop :=
  ∀ (s : State),
    let b := s.boiler
    (∀ k : BoilerWork, s.powered = true → s.workDue k = true → b.stopped = false →
      b.denied (s.leaveReq (.boiler k) false 0 (b.workAmount k) 65535 none (s.workLst k)) = false →
      Completes (.leaveRequest k) s (fun t => (∃ q, t.boiler.waiting = b.waiting ++ [q] ∧ q.owner = .boiler k ∧ q.amount = b.workAmount k
        ∧ q.plant = false ∧ q.cls = 0 ∧ q.lst = s.workLst k) ∧ t.boiler.leases = b.leases ∧ t.ctxs = s.ctxs ∧ SameBytes s t))
    ∧ (∀ (q : LeaveReq) (c : Nat), b.waiting = [q] → q.owner = .context c → q.lease = none → s.qz.debugHalt = false → b.stopped = false → b.measOver = false →
        b.lowering = false → (s.ctx c).wait ≠ .flverLeave →
      let l : Lease :=
        { owner := .context c, plant := q.plant, cls := q.cls, amount := q.amount, estMs := q.estMs, granted := s.now, overrun := false }
      (b.freeLease.isSome = true → b.fitsOpen q = true → Completes (.boilerEvaluate q.plant) s (fun t =>
        (∃ n, (t.ctx c).answer = .granted n ∧ b.lease n = none ∧ t.boiler.lease n = some l ∧ n ∈ (t.ctx c).leases)
          ∧ t.boiler.waiting = [] ∧ ∀ e, e ≠ c → t.ctx e = s.ctx e))
      ∧ (b.fitsOpen q = false → Completes (.boilerEvaluate q.plant) s (fun t => t.boiler.waiting = [q] ∧ t.ctxs = s.ctxs
          ∧ t.boiler.leases = b.leases)))
    ∧ (∀ n l, b.lease n = some l → l.overdue s.now = true → l.overrun = false → Completes (.leaseOverrun n) s (fun t =>
        t.boiler.lease n = some { l with overrun := true } ∧ t.boiler.overrun = satInc32 b.overrun
          ∧ bitAt (t.boiler.event.get .slate) 2 = true ∧ bitAt (t.boiler.event.get .granite) 2 = true ∧ t.ctxs = s.ctxs))
    ∧ (∀ d, b.switching.contains d = true → 32 ≤ d → d < 48 → Completes (.domainOn d) s (fun t =>
        d ∈ t.boiler.domains ∧ d ∉ t.boiler.switching ∧ { t with boiler := b } = s))
    ∧ (∀ milliV ma, s.powered = true → milliV < 65536 → ma < 65536 → milliV * ma / 100 ≤ b.capacity false → b.measOver = false →
        Completes (.boilerMeasure milliV ma) s (fun t => t.boiler.railMv = milliV ∧ t.boiler.railMa100 = ma
          ∧ t.boiler.meas = satAt 65535 (milliV * ma / 100) ∧ t.boiler.overRun = 0 ∧ { t with boiler := b } = s))
    ∧ (∀ milliV ma, s.powered = true → b.capacity false < milliV * ma / 100 → b.measOver = false → 2 ≤ b.overRun →
        Completes (.boilerMeasure milliV ma) s (fun t => t.boiler.measOver = true ∧ bitAt (t.boiler.event.get .slate) 3 = true
          ∧ bitAt (t.boiler.event.get .granite) 3 = true))
    ∧ (∀ v : W32, s.done = true → b.job = none → b.pmbusFault = false → b.stopped = false →
      let p := bits v.toNat 0 2
      let rail := railOf p b.modePace.granite
      paceMv b.rail < paceMv rail → b.paceFits rail = true → p ≠ b.pace.slate → Completes (.paceChange .slate v) s (fun t =>
        t.boiler.modePace = ⟨p, b.modePace.granite⟩
          ∧ t.boiler.job = some { sent := true, slate := p, granite := b.modePace.granite, rail := rail }
          ∧ t.out = s.out ++ [.pmbusVout (paceMv rail)] ∧ t.boiler.rail = b.rail))
    ∧ (∀ (j : PaceJob) (milliV : Nat), b.job = some j → j.sent = true → b.pmbusFault = false → b.waiting = [] →
        milliV ≤ paceMv j.rail + 15 → paceMv j.rail ≤ milliV + 15 → Completes (.paceDone milliV) s (fun t =>
          t.boiler.rail = j.rail ∧ t.boiler.pace = ⟨j.slate, j.granite⟩ ∧ t.boiler.job = none ∧ bitAt (t.boiler.event.get .slate) 0 = true
            ∧ bitAt (t.boiler.event.get .granite) 0 = true ∧ t.ctxs = s.ctxs))
    ∧ (s.powered = true → Completes (.pmbusAlert none) s (fun t => t.boiler.pmbusFault = true ∧ (∃ l, t.out = l ++ [.pmbusClear]) ∧ bitAt (t.boiler.event.get .slate) 4 = true
        ∧ bitAt (t.boiler.event.get .granite) 4 = true ∧ t.ctxs = s.ctxs))

/-! ### Quartz and the statistics (R434 to R458) -/

/-- Quartz runs on its reference with nothing written to a compare unit (R434, R442). -/
def Sys2Proof.Machine.OnReference (s : State) : Prop :=
  s.qz.lf = false ∧ s.pw.lost = false ∧ s.pw.railsOk = true ∧ s.qz.writes = []

/-- A loss of the reference enters LF running, in which an edge sets the counter; an absent LF clock is reported, and an edge ends the report
(log 18); a write to a compare unit takes
effect at the advance that follows, which on the reference the command performs itself (log 1), and a match fires the unit, once or again after its interval; an accepted SYNC edge is counted; and the
low word of a linked counter keeps the high word for the read that follows (R435 to R443, R445). -/
def Obligations.QuartzCounts : Prop :=
  ∀ (s : State) (w : World),
    let z := s.qz
    let now := (z.now + Config.advanceNs) % 2 ^ 64
    (s.powered = true → z.lf = false → (s.fc.buf.filter (fun r => msgSource r.msg = 99)).length < 4 → Completes (.refLost true) s (fun t => t.qz.lf = true
        ∧ t.qz.refLost = true ∧ t.qz.lfCnt = satInc32 z.lfCnt ∧ t.qz.refLostBit = true ∧ t.qz.now = z.now
        ∧ t.fc.buf = s.fc.buf ++ [⟨faultMsg 99 0 0x13 1 none false, none⟩]))
    ∧ (s.powered = true → z.lf = false → ∀ good : Bool, Completes (.lfEdge good) s (fun t => t.qz = { z with
          lfAbsent := false, tL := z.now, lfEdges := 0, goodPeriods := if good then Nat.min 32 (z.goodPeriods + 1) else 0 }
        ∧ { t with qz := z } = s))
    ∧ (s.powered = true → z.lf = true → z.writes = [] → z.now < 2 ^ 64 → z.tL + (z.lfEdges + 1) * 1953125 / 64 < 2 ^ 64 →
        Completes (.lfEdge false) s (fun t => t.qz.now = Nat.max z.now (z.tL + (z.lfEdges + 1) * 1953125 / 64)
          ∧ t.qz.lfEdges = z.lfEdges + 1 ∧ t.qz.lf = true ∧ t.qz.units = z.units))
    ∧ (s.powered = true → z.lf = false → z.lfAbsent = false → (s.fc.buf.filter (fun r => msgSource r.msg = 99)).length < 4 → ∀ r : Bool,
        Completes (.lfAbsent r) s (fun t => t.qz = { z with lfAbsent := true }
          ∧ t.fc.buf = s.fc.buf ++ [⟨faultMsg 99 0 0x13 2 none true, none⟩]))
    ∧ (∀ u, OnReference s → s.done = true → s.cmpWorld u = some w → (s.cmp u).lock = false → (s.cmp u).arm = false →
      let x := s.cmp u
      (∀ v : W32, Completes (.cmpTgtWrite w u v) s (fun t => t.qz.now = now ∧ t.cmp u = { x with tgt := v, tgtLate := cmpPassed v.toNat now }
        ∧ ∀ m, m ≠ u → t.cmp m = s.cmp m))
      ∧ (∀ v : W32, (v = 0 ∨ 1000 ≤ v.toNat ∧ v.toNat ≤ 2000000000) → Completes (.cmpIntWrite w u v) s (fun t => t.qz.now = now
        ∧ t.cmp u = { x with int := v } ∧ ∀ m, m ≠ u → t.cmp m = s.cmp m))
      ∧ (∀ v : W32, v.getLsbD 0 = true → z.window = true → cmpPassed x.tgt.toNat now = false → Completes (.cmpArmWrite w u v) s (fun t =>
        t.qz.now = now ∧ (t.cmp u).arm = true ∧ (t.cmp u).irq = v.getLsbD 1 ∧ (t.cmp u).tgt = x.tgt ∧ (t.cmp u).fired = x.fired
          ∧ (bits v.toNat 16 11 < (s.wcfg w).msixCount → (t.cmp u).vec = bits v.toNat 16 11) ∧ ∀ m, m ≠ u → t.cmp m = s.cmp m)))
    ∧ (∀ u, s.attic.config = .image → (s.cmp u).matchesAt z.window z.prev z.now = true →
      ((s.cmp u).int = 0 → Completes (.compareMatch u) s (fun t => (t.cmp u).fired = true ∧ (t.cmp u).pend = true ∧ (t.cmp u).arm = false
        ∧ (t.cmp u).tgt = (s.cmp u).tgt ∧ (∀ m, m ≠ u → t.cmp m = s.cmp m)))
      ∧ ((s.cmp u).int ≠ 0 → (s.cmp u).int.toNat ≤ 2000000000 → cmpPassed (s.cmp u).tgt.toNat z.now = true → Completes (.compareMatch u) s (fun t => (t.cmp u).fired = true ∧ (t.cmp u).pend = true ∧ (t.cmp u).arm = true
        ∧ (∃ n, 1 ≤ n ∧ (t.cmp u).tgt = BitVec.ofNat 32 ((s.cmp u).tgt.toNat + n * (s.cmp u).int.toNat)
          ∧ cmpPassed ((s.cmp u).tgt.toNat + n * (s.cmp u).int.toNat) z.now = false
          ∧ (∀ m, 1 ≤ m → m < n → cmpPassed ((s.cmp u).tgt.toNat + m * (s.cmp u).int.toNat) z.now = true)
          ∧ (t.cmp u).missed = satAt 65535 ((s.cmp u).missed + n - 1))
        ∧ (∀ m, m ≠ u → t.cmp m = s.cmp m))))
    ∧ (∀ since : Nat, s.powered = true → z.lf = false → since + 1000 ≤ s.now → z.sync + 100000 ≤ since → z.syncFalling = false →
        (s.stats.get .slate).syncEn = false → (s.stats.get .granite).syncEn = false → Completes (.statSync since true) s (fun t =>
          t.qz = { z with sync := since, syncCnt := satInc32 z.syncCnt } ∧ { t with qz := z } = s))
    ∧ (s.powered = true → s.done = true → Completes (.linkedLowRead w 0x400000) s (fun t => t.out = s.out ++ [.readData (BitVec.ofNat 64 (z.now % 2 ^ 32))]
        ∧ t.qz.snap.get w = { low := some 0x400000, high := BitVec.ofNat 32 (z.now / 2 ^ 32) } ∧ t.qz.now = z.now))
    ∧ (s.powered = true → s.done = true → (z.snap.get w).low = some 0x400000 → Completes (.linkedHighRead w 0x400004) s (fun t =>
        t = { s with out := s.out ++ [.readData (BitVec.ofNat 64 (z.snap.get w).high.toNat)] }))
    ∧ (s.powered = true → s.done = true → (z.snap.get w).low ≠ some 0x400000 → Completes (.linkedHighRead w 0x400004) s (fun t =>
        t.out = s.out ++ [.readData (BitVec.ofNat 64 (z.now / 2 ^ 32 % 2 ^ 32))] ∧ t.qz.torn.get w = true ∧ t.qz.now = z.now))

/-- A boundary of the statistics, of the period, by command or at a write of the period, latches the counters with its time and cause, clears
them and begins an epoch, to which what was counted at the boundary's time or since belongs (log 92); 10 µs later the latched epoch is published (R449
to R453). -/
def Obligations.EpochsClose : Prop :=
  ∀ (s : State) (w : World),
    let e := s.stats.get w
    let quiet := e.safeSince = [] ∧ (∀ q ∈ s.boiler.waiting, q.world ≠ some w)
    let parts := (e.bank.plus e.bankNext).splitAt s.now e.recent
    let begins := fun (t : State) (tb : Nat) => (t.stats.get w).start = tb ∧ (t.stats.get w).next = nextEpoch tb (t.stats.get w).periodMs
      ∧ (t.stats.get w).bounded = true ∧ t.ctxs = s.ctxs ∧ SameBytes s t
    (e.running = true → e.periodMs ≠ 0 → e.next ≤ s.now → quiet → e.latched = none → Completes (.epochPeriod w) s (fun t => begins t e.next
      ∧ (t.stats.get w).latched = some { bank := e.bank, start := e.start, stop := e.next, cause := 1 ||| e.cause }
      ∧ (t.stats.get w).bank = e.bankNext))
    ∧ (∀ v : W32, s.done = true → v.getLsbD 0 = true → e.running = true → (e.periodMs = 0 ∨ s.now < e.next) →
      (e.bounded = false ∨ e.start + 10000 ≤ s.now) → quiet → e.latched = none → Completes (.epochNow w v) s (fun t => begins t s.now
        ∧ (t.stats.get w).latched = some { bank := parts.1, start := e.start, stop := s.now, cause := 4 ||| e.cause }
        ∧ (t.stats.get w).bank = parts.2))
    ∧ (∀ v : W32, s.done = true → e.lock = false → v.toNat ≤ 86400000 → (e.periodMs = 0 ∨ s.now < e.next ∨ e.running = false) →
      (v = 0 ∨ s.now < e.start + v.toNat * 1000000) → Completes (.stPeriodWrite w v) s (fun t =>
        t.stats.get w = { e with periodMs := v.toNat, next := nextEpoch e.start v.toNat } ∧ { t with stats := s.stats } = s))
    ∧ (∀ p : Epoch, e.latched = some p → p.stop + 10000 ≤ s.now → Completes (.epochPublish w) s (fun t =>
        t.stats.get w = { e with readable := p, latched := none, seq := (e.seq + 1) % 2 ^ 32 }))

/-! ### Faults and the power monitor (R459 to R480) -/

/-- The Fault Collector takes the oldest message into the views that it belongs to; a record without a present cause is cleared; injection is
denied beyond TEST; holds are set; the pulse ends after 10 µs; HOLDUP's level decides SAVE_READY; and a vote over three copies rewrites them
with its value, which is the one in force, and is recorded, or halts Granite (R463 to R471, R477, R480). That a clear keeps FIRST is log 96, that
an injected message enters at the write log 97, RECORD_CLEAR of the Study view log 102, and that a sweep brings the copies as an upset left them
log 81. -/
def Obligations.FaultsAreCollected : Prop :=
  ∀ (s : State) (w : World),
    let v := s.fc.views.get w
    (∀ (r : Report) (rest : List Report), s.fc.buf = r :: rest → Completes (.faultMessage none) s (fun t => t.fc.buf = rest
      ∧ (Tbl.get {} t.fc.study.recs (msgSource (studyMsg r.msg))).active = true ∧ t.fc.study.eventCnt = satInc32 s.fc.study.eventCnt
      ∧ (entersView r.msg w = true → (Tbl.get {} (t.fc.views.get w).recs (msgSource r.msg)).active = true
        ∧ (t.fc.views.get w).eventCnt = satInc32 v.eventCnt ∧ (t.fc.views.get w).histSeq = (v.histSeq + 1) % 2 ^ 32)
      ∧ (entersView r.msg w = false → t.fc.views.get w = v) ∧ t.ctxs = s.ctxs ∧ SameBytes s t))
    ∧ (s.fc.pulse = true → s.fc.pulseAt + 10000 ≤ s.now → Completes .errPulseEnd s (fun t => t = { s with fc := { s.fc with pulse := false } }))
    ∧ (∀ (src : Nat) (x : W32), s.done = true → src < 256 → x.getLsbD 0 = true →
      (s.causePresent (some w) src = false → Completes (.recordClear (some w) src x) s (fun t =>
        (Tbl.get {} (t.fc.views.get w).recs src).active = false ∧ (Tbl.get {} (t.fc.views.get w).recs src).severe = false
          ∧ (Tbl.get {} (t.fc.views.get w).recs src).first = (Tbl.get {} v.recs src).first
          ∧ (∀ n, n ≠ src → Tbl.get {} (t.fc.views.get w).recs n = Tbl.get {} v.recs n) ∧ { t with fc := s.fc } = s))
      ∧ (s.causePresent (some w) src = true → Completes (.recordClear (some w) src x) s (fun t =>
        t.fc.views.get w = { v with clearRefused := true } ∧ { t with fc := s.fc } = s)))
    ∧ (∀ (src : Nat) (x : W32), src < 256 → x.getLsbD 0 = true → s.causePresent none src = false → Completes (.recordClear none src x) s
      (fun t => (Tbl.get {} t.fc.study.recs src).active = false ∧ t.fc.views = s.fc.views ∧ { t with fc := s.fc } = s))
    ∧ (∀ hi : W32, s.done = true → s.flint.lifecycle ≠ 0 → Completes (.faultInject w hi) s (fun t =>
        t.fc.views.get w = { v with injectDenied := true } ∧ { t with fc := s.fc } = s))
    ∧ (∀ hi : W32, s.done = true → s.flint.lifecycle = 0 → Completes (.faultInject w hi) s (fun t =>
        (Tbl.get {} t.fc.study.recs (Tbl.get 0 (s.fn w).heldLow 0x500018 % 256).toNat).active = true ∧ t.fc.buf = s.fc.buf ∧ t.ctxs = s.ctxs))
    ∧ (∀ x : W32, s.done = true → Completes (.errHoldWrite w x) s (fun t => t.fc = { s.fc with hold := s.fc.hold.set w (x.getLsbD 0) }
        ∧ { t with fc := s.fc } = s))
    ∧ (s.fc.holdDue = true → Completes .studyHoldSet s (fun t => t.fc = { s.fc with studyHold := true, holdDue := false }
        ∧ { t with fc := s.fc } = s))
    ∧ (∀ mv, s.powered = true → 8000 ≤ mv → mv < 65536 → Completes (.saveArmed mv) s (fun t =>
        t = { s with pw := { s.pw with holdupMv := mv, ready := true } }))
    ∧ (∀ mv, s.powered = true → mv < 8000 → Completes (.saveDisarmed mv) s (fun t =>
        t = { s with pw := { s.pw with holdupMv := mv, ready := false } }))
    ∧ (∀ (word : Nat) (a b c : CopyRead), 5 ≤ s.attic.state → s.attic.state ≤ 6 →
      let v := voteValue [a, b, c]
      let same := fun (t : State) => ∀ x ∈ t.copiesOf word, x.good = true ∧ x.corrected = false ∧ x.value = BitVec.ofNat 32 ((controlWord word).read t)
      (voteOf [a, b, c] = .clean → v.toNat = (controlWord word).read s → Completes (.tripleSweep word a b c) s (fun t => same t
        ∧ t = { s with fc := { s.fc with triples := Tbl.put [] s.fc.triples word [] } }))
      ∧ ((s.fc.buf.filter (fun r => msgSource r.msg = 109)).length < 4 → voteOf [a, b, c] = .repaired →
        Completes (.tripleSweep word a b c) s (fun t => same t ∧ t.fc.graniteHalt = s.fc.graniteHalt ∧ t.ctxs = s.ctxs
          ∧ t.fc.buf = s.fc.buf ++ [⟨faultMsg 109 0 0x16 word none false, none⟩]
          ∧ (word < 16 → wordOf t.img.portMap word = v.toNat ∧ ∀ j, j ≠ word → wordOf t.img.portMap j = wordOf s.img.portMap j)))
      ∧ (s.fc.graniteHalt = false → NoCcw s → (∀ d, (s.ctx d).visit = none) → s.worldDrives .granite = [] → voteOf [a, b, c] = .unvotable →
        Completes (.tripleSweep word a b c) s (fun t => t.fc.graniteHalt = true ∧ t.copiesOf word = [a, b, c] ∧ (∀ q, (t.sq .granite q).entries = [])
          ∧ ∀ n, s.portWorld n = some .granite → (t.port n).safe = true)))

/-! ### Resets and start-up (R36, R41, R47, R57 to R72, R454, R491, R496) -/

/-- Each reset source puts every register at its reset value, with the code of its source, and leaves the Cellar, the fuses, the
flash and host memory as they are; a pulse that is too short is ignored (R36, R41, R72). The waiting commands, what has been put out and the
level of PERST_N stay, and those of PFAIL_N and VIN12 but at power-on and a restart, as log 1, log 2 and log 4 say; errors of the Cellar's words
stay with its contents (log 130). -/
def Obligations.ResetsBeginStartUp : Prop :=
  ∀ (s : State),
    let kept := fun (t : State) => t.cellar = { mem := s.cellar.mem, corr := s.cellar.corr, bad := s.cellar.bad } ∧ t.flash = { mem := s.flash.mem } ∧ t.fuses = s.fuses
      ∧ t.hostMem = s.hostMem ∧ t.pending = s.pending ∧ t.out = s.out ∧ t.pw.perstLow = s.pw.perstLow ∧ t.flint.lifecycle = s.fuses.lifecycle
      ∧ { t with cellar := State.reset.cellar, flash := State.reset.flash, fuses := State.reset.fuses, hostMem := State.reset.hostMem,
                 out := State.reset.out, free := State.reset.free, pending := State.reset.pending, pw := State.reset.pw,
                 flint := { t.flint with lifecycle := State.reset.flint.lifecycle } } = State.reset
    let levels := fun (t : State) => t.pw.pfailLow = s.pw.pfailLow ∧ t.pw.vin12Low = s.pw.vin12Low
    (∀ ok, Completes (.powerOnReset ok) s (fun t => kept t ∧ t.pw.pfailLow = false ∧ t.pw.vin12Low = false ∧ t.pw.cause = 0 ∧ t.pw.railsOk = ok ∧ t.pw.lost = false))
    ∧ (s.pw.railsOk = true → s.pw.lost = false →
      (∀ n, 5000 ≤ n → Completes (.resetN n true) s (fun t => kept t ∧ levels t ∧ t.pw.cause = 1))
      ∧ (∀ n, n < 5000 → Completes (.resetN n true) s (fun t => t = s))
      ∧ (∀ n, 1000 ≤ n → Completes (.resetN n false) s (fun t => kept t ∧ levels t ∧ t.pw.cause = 1))
      ∧ (s.pw.phase = .ended ∨ s.attic.state = 7 → Completes .restart s (fun t => kept t ∧ t.pw.pfailLow = false ∧ t.pw.vin12Low = false ∧ t.pw.cause = 2))
      ∧ (3 ≤ s.attic.state → s.attic.state ≤ 6 → Completes .studyWatchdogExpiry s (fun t => kept t ∧ levels t ∧ t.pw.cause = 3)))

/-- Start-up probes the flash, chooses the copies, and halts with nothing written when the supply drops (R47, R57, R59, R65, R72). -/
def Sys2Proof.Machine.StartUpProbesAndChooses : Prop :=
  ∀ (s : State),
    (s.attic.state = 0 → s.pw.railsOk = true → s.pw.lost = false →
      Completes (.atticProbe .octal) s (fun t =>
        t = { s with attic := { s.attic with state := 2, octal := true, resetCause := s.pw.cause } })
      ∧ Completes (.atticProbe .fallback) s (fun t =>
          t.attic = { s.attic with state := 2, fallback := true, resetCause := s.pw.cause } ∧ SameBytes s t)
      ∧ Completes (.atticProbe .noAnswer) s (fun t => t.attic.state = 4 ∧ t.attic.config = .bare ∧ SameBytes s t))
    ∧ (∀ base, s.powered = true → s.attic.state < 6 →
      (s.attic.readRetry.contains base = false → Completes (.flashReadTimeout base) s (fun t =>
        t.attic = { s.attic with readRetry := s.attic.readRetry ++ [base] } ∧ SameBytes s t))
      ∧ (s.attic.readRetry.contains base = true → Completes (.flashReadTimeout base) s (fun t =>
        t.readable base 1 = false ∧ { t with attic := s.attic } = s)))
    ∧ (s.attic.state = 2 →
      (∀ i, (s.chooseCopy 3).sel = some i → Completes .firmwareSelect s (fun t => t.attic.state = 3
        ∧ t.attic.fwBase = some (copyBase 3 i) ∧ t.attic.fwGen = (s.header (copyBase 3 i)).gen
        ∧ t.attic.fwRecovery = s.attic.fwRecovery ∧ SameBytes s t))
      ∧ ((s.chooseCopy 3).sel = none → Completes .firmwareSelect s (fun t => t.attic.state = 3 ∧ t.attic.fwRecovery = true
        ∧ SameBytes s t)))
    ∧ (s.attic.state = 3 → s.flint.lifecycle ≠ 3 → s.attic.fwRecovery = false →
      (∀ i, (s.chooseCopy 1).sel = some i → Completes .imageSelect s (fun t => t.attic.state = 4 ∧ t.attic.sel = i + 1
        ∧ t.attic.imageBase = some (copyBase 1 i) ∧ t.attic.config = .image ∧ t.attic.aResult = (s.chooseCopy 1).resA
        ∧ t.attic.bResult = (s.chooseCopy 1).resB ∧ SameBytes s t))
      ∧ ((s.chooseCopy 1).sel = none → (s.chooseCopy 2).sel = none → Completes .imageSelect s (fun t => t.attic.state = 4
        ∧ t.attic.sel = 0 ∧ t.attic.boardOk = false ∧ t.attic.config = .bare ∧ SameBytes s t))
      ∧ (∀ j, (s.chooseCopy 1).sel = none → (s.chooseCopy 2).sel = some j → Completes .imageSelect s (fun t =>
          t.attic.state = 4 ∧ t.attic.sel = 0 ∧ t.attic.boardOk = true ∧ t.attic.boardBase = some (copyBase 2 j)
            ∧ t.attic.config = .builtin ∧ SameBytes s t)))
    ∧ (s.attic.state = 3 → s.flint.lifecycle = 3 → Completes .imageSelect s (fun t => t.attic.state = 4 ∧ t.attic.config = .bare
        ∧ SameBytes s t))
    ∧ (∀ pfail vin12, s.pw.railsOk = true → s.pw.lost = false → s.attic.state < 6 → (pfail = true ∨ vin12 = true) →
        Completes (.atticHalt pfail vin12) s (fun t => t.attic = { s.attic with state := 7 }
          ∧ { t with attic := s.attic, pw := { t.pw with pfailLow := s.pw.pfailLow, vin12Low := s.pw.vin12Low } } = s))

/-- The configuration is applied, training writing to the bursts of R342 alone, the Cellar slots are judged, and at the last step of start-up both worlds are
AUTONOMOUS (R63, R65, R69,
R70, R350, R489, R503). -/
def Sys2Proof.Machine.StartUpAppliesAndCompletes : Prop :=
  ∀ (s : State),
    (∀ train, s.attic.state = 4 →
      (s.attic.config ≠ .image → s.attic.boardBase = none → Completes (.configApply train) s (fun t => t.attic.state = 5
        ∧ t.attic.config = .bare ∧ t.attic.mode = 0x45 ∧ t.img.mbMap = 0xAAAA5555
        ∧ (t.wcfg .slate).lockWaitUs = 1000 ∧ (t.wcfg .granite).lockWaitUs = 1000 ∧ t.fuses = s.fuses ∧ SameBytes s t))
      ∧ (∀ base, s.attic.config = .image → s.attic.imageBase = some base →
        let p := (s.section1 base 0x0E none).getD []
        let strong := bitAt (fieldAt ((s.section1 base 1 none).getD []) 0 4) 4
        pantryBad p strong (regionsOf ((s.section1 base 2 none).getD [])) = false → trainOk (fieldAt p 0 1) train = false →
        (s.chooseCopy 2).sel = none → Completes (.configApply train) s (fun t => t.attic.state = 5 ∧ t.attic.pantryFail = true
          ∧ t.attic.config = .bare
          ∧ (∀ a, a / 32 * 32 ∉ (maskChans (fieldAt p 0 1)).flatMap (trainBursts (fieldAt p 0 1) (fieldAt p 1 1)) →
              Memory.byte 0 t.pantry.mem a = Memory.byte 0 s.pantry.mem a)
          ∧ t.cellar.mem = s.cellar.mem ∧ t.flash.mem = s.flash.mem ∧ t.hostMem = s.hostMem)))
    ∧ (s.attic.state = 5 → s.attic.judged = false →
      (s.attic.config ≠ .image → Completes .cellarRestore s (fun t => t.attic = { s.attic with judged := true }
        ∧ t.cellar.slotA = s.slotCode 0 ∧ t.cellar.slotB = s.slotCode 1 ∧ t.flint.audit = s.slotMax 0x10 ∧ t.ctxs = s.ctxs
        ∧ SameBytes s t))
      ∧ (s.attic.config = .image → s.newestSlot.1 = none → Completes .cellarRestore s (fun t =>
          t.attic = { s.attic with judged := true } ∧ t.flint.audit = s.slotMax 0x10 + 1 ∧ t.cellar.conflict = s.newestSlot.2
            ∧ t.ctxs = s.ctxs ∧ SameBytes s t))
      ∧ (∀ i, s.attic.config = .image → s.newestSlot.1 = some i → s.slotIsSave i = true → s.slotField i 0x20 32 ≠ s.attic.digest →
          Completes .cellarRestore s (fun t => t.attic = { s.attic with judged := true } ∧ t.cellar.foreign = true
            ∧ t.cellar.restored = s.cellar.restored ∧ t.ctxs = s.ctxs ∧ SameBytes s t))
      ∧ (∀ i, s.attic.config = .image → s.newestSlot.1 = some i → s.slotIsSave i = true → s.slotField i 0x20 32 = s.attic.digest →
          Completes .cellarRestore s (fun t => t.attic.cellarRestored = true ∧ t.cellar.restored = true ∧ t.cellar.foreign = false
            ∧ t.cellar.omitted = s.slotField i 0x64 2 ∧ t.cellar.lostStatus = s.slotField i 0x66 2)))
    ∧ (s.attic.state = 5 → s.attic.judged = true → (∀ w, (s.wcfg w).residents = []) → s.attic.config ≠ .builtin →
        Completes .atticDone s (fun t => t.attic = { s.attic with state := 6, timeSafe := s.now }
          ∧ (t.fn .slate).host = .autonomous ∧ (t.fn .granite).host = .autonomous
          ∧ t.cellar.job = (if s.attic.config = .image then .startRecord else .idle)))

/-- Start-up probes, chooses, applies and completes. The parts say it whole. -/
def Obligations.StartUpRunsToItsEnd : Prop := StartUpProbesAndChooses ∧ StartUpAppliesAndCompletes

/-- A start record or an audit record is a valid slot beside the newest, with a SEQ above every one before it; a pending LC_ADVANCE then blows its
fuse; and a key in use revokes the keys before it, those of a chosen image copy whatever configuration is in force (log 87; R485, R486, R487, R489, R491, R496, R504). -/
def Obligations.RecordsAndRevocation : Prop :=
  ∀ (s : State),
    let k := s.targetSlot
    let written := fun (t : State) => t.slotCode k = 2 ∧ t.slotSeq k = (s.cellar.highSeq + 1) % 2 ^ 64
      ∧ t.slotField k 0x10 8 = s.flint.audit % 2 ^ 64 ∧ t.cellar.highSeq = s.cellar.highSeq + 1
      ∧ ∀ a, ¬(slotSize * k ≤ a ∧ a < slotSize * (k + 1)) → Memory.byte 0 t.cellar.mem a = Memory.byte 0 s.cellar.mem a
    (s.cellar.job = .startRecord → s.pw.phase = .none → Completes .startRecordWrite s (fun t => written t
      ∧ t.cellar.startWritten = true ∧ t.cellar.job = .idle ∧ { t with cellar := s.cellar } = s))
    ∧ (0 < s.flint.auditDue → s.pw.phase = .none → s.cellar.job = .idle → Completes .auditRecordWrite s (fun t => written t
      ∧ t.flint.auditDue = s.flint.auditDue - 1 ∧ t.flint.lcPending = s.flint.lcPending - 1
      ∧ t.fuses = (if s.flint.lcPending = 1 then
          { s.fuses with lifecycle := Nat.max s.fuses.lifecycle (Nat.min 3 (s.flint.lifecycle + 1)) } else s.fuses)
      ∧ { t with cellar := s.cellar, flint := s.flint, fuses := s.fuses } = s))
    ∧ (s.done = true → s.pw.railsOk = true → s.pw.lost = false →
        s.flint.fwSlot < 4 → s.flint.imgSlot < 4 → s.flint.grnSlot < 4 → Completes .keyRevoke s (fun t =>
      { t with fuses := { t.fuses with revoke := s.fuses.revoke }, flint := s.flint } = s
        ∧ ∀ kind, kind < 3 → ∀ j, j < 4 → bitAt t.fuses.revoke (4 * kind + j) = (bitAt s.fuses.revoke (4 * kind + j)
          || (decide (Tbl.get 0 (s.fuses.slots kind) j ≠ 0)
            && (if kind = 0 then !s.attic.fwRecovery && decide (j < s.flint.fwSlot)
                else s.attic.imageBase.isSome && decide (j < (if kind = 1 then s.flint.imgSlot else s.flint.grnSlot)))))))

/-! ### The power-fail save (R36, R482 to R486) -/

/-- The save puts both worlds into SAVING, stops Boiler and the link, and writes the target slot's commit word, 0 at its start and the pattern
at its end, with every advance of the audit counter in it; without READY or an image it writes nothing and ends; and when the hold-up supply collapses both worlds are OFF (R36, R482, R485,
R486). -/
def Obligations.PowerFailSave : Prop :=
  ∀ (s : State),
    (∀ pfail vin12, s.done = true → s.pw.phase = .none → s.pw.lost = false → (pfail = true ∨ vin12 = true) →
      let saving := fun (t : State) => (t.fn .slate).host = .saving ∧ (t.fn .granite).host = .saving ∧ t.linkUp = false
        ∧ t.boiler.stopped = true ∧ t.pw.saveStart = s.now ∧ t.pw.vsaveHold = true
      (s.pw.ready = true → s.attic.config = .image → Completes (.saveStart pfail vin12) s (fun t => saving t
        ∧ t.pw.phase = .running ∧ t.cellar.job = .save ∧ t.slotField s.targetSlot 0x7FFF8 8 = 0))
      ∧ (s.pw.ready = false ∨ s.attic.config ≠ .image → Completes (.saveStart pfail vin12) s (fun t => saving t
        ∧ t.pw.phase = .ended ∧ t.cellar.mem = s.cellar.mem)))
    ∧ (s.pw.phase = .running → s.cellar.job = .save → Completes .saveCommit s (fun t => t.pw.phase = .ended
      ∧ t.cellar.job = .idle ∧ t.slotField s.targetSlot 0x7FFF8 8 = 0xA5C35A3CC3A53C5A ∧ t.cellar.highSeq = s.cellar.highSeq + 1
      ∧ { t.pw with phase := s.pw.phase } = s.pw ∧ t.flint = { s.flint with auditDue := 0, lcPending := s.flint.lcPending - s.flint.auditDue }
      ∧ t.fuses = (if 0 < s.flint.lcPending ∧ s.flint.lcPending ≤ s.flint.auditDue then
          { s.fuses with lifecycle := Nat.max s.fuses.lifecycle (Nat.min 3 (s.flint.lifecycle + 1)) } else s.fuses)
      ∧ t.ctxs = s.ctxs ∧ t.boiler = s.boiler ∧ t.fns = s.fns ∧ t.pantry.mem = s.pantry.mem))
    ∧ (s.pw.phase ≠ .none → Completes .holdupCollapse s (fun t => (t.fn .slate).host = .off ∧ (t.fn .granite).host = .off
      ∧ t.pw.lost = true ∧ t.linkUp = false ∧ SameBytes s t))

/-! ### JTAG and SMBus (R494, R497, R505, R506, R523, R524) -/

/-- Each JTAG instruction that the lifecycle allows is selected and acts; one that it does not allow selects BYPASS (R435, R497, R505, R506, R523).
Every 8-bit code that no instruction has selects BYPASS. Which instructions close a debug session, and DBG_RUN where DBG_HALT is, is log 89; what
SAMPLE, EXTEST, CLAMP and HIGHZ do to the balls follows from the selection (log 98). -/
def Obligations.JtagInstructions : Prop :=
  ∀ (s : State), s.pw.railsOk = true → s.pw.lost = false →
    let sel := fun (t : State) (code : Nat) => t.jtag.ir = code ∧ { t with jtag := s.jtag } = s
    Completes .idcode s (fun t => t.jtag.ir = 1 ∧ t.out = s.out ++ [.jtag (BitVec.ofNat 32 (0x18256001 + 2 * Config.jedecId.toNat))]
      ∧ { t with jtag := s.jtag, out := s.out } = s)
    ∧ Completes .sample s (fun t => sel t 2) ∧ Completes .bypass s (fun t => sel t 0xFF)
    ∧ (∀ code : BitVec 8, isBypassCode code = true → Completes (.bypass code) s (fun t => sel t 0xFF))
    ∧ (s.flint.lifecycle ≠ 2 → Completes .extest s (fun t => sel t 3) ∧ Completes .clamp s (fun t => sel t 4)
      ∧ Completes .highz s (fun t => sel t 5))
    ∧ (s.flint.lifecycle = 2 → Completes .extest s (fun t => sel t 0xFF) ∧ Completes .clamp s (fun t => sel t 0xFF)
      ∧ Completes .highz s (fun t => sel t 0xFF))
    ∧ (s.flint.lifecycle ≤ 1 →
      Completes .dbgHalt s (fun t => t.jtag.ir = 0x20 ∧ t.qz.debugHalt = true ∧ t.qz.lf = true ∧ t.ctxs = s.ctxs ∧ SameBytes s t)
      ∧ Completes .dbgRun s (fun t => t.jtag.ir = 0x21 ∧ t.qz = { s.qz with debugHalt := false }
          ∧ { t with jtag := s.jtag, qz := s.qz } = s)
      ∧ (∀ c w, s.ctxWorld c = some w → Completes (.dbgRead (.record c)) s (fun t => t.jtag.ir = 0x22
          ∧ (∃ l, t.out = l ++ [.readBytes (((s.jtagLoad 0x22).debugOpen w).recordBytes c)]) ∧ t.ctxs = s.ctxs ∧ SameBytes s t
          ∧ (if w = .slate then t.jtag.openSlate else t.jtag.openGranite) = true))
      ∧ (∀ c, s.ctxWorld c = some .slate → s.jtag.openSlate = false → Completes (.dbgRead (.record c)) s (fun t =>
          t.flint.slateObserved = true ∧ t.flint.debugCnt.slate = satInc32 s.flint.debugCnt.slate))
      ∧ (∀ a d, (s.debugWorld (.pantry a d.length)).isSome = true → Completes (.dbgWrite (.pantry a d.length) d) s (fun t =>
          t.jtag.ir = 0x23 ∧ t.pnBytes a d.length = d
            ∧ ∀ b, ¬(a ≤ b ∧ b < a + d.length) → Memory.byte 0 t.pantry.mem b = Memory.byte 0 s.pantry.mem b)))
    ∧ (2 ≤ s.flint.lifecycle → Completes .dbgHalt s (fun t => sel t 0xFF) ∧ Completes .dbgRun s (fun t => sel t 0xFF)
      ∧ (∀ g d, Completes (.dbgWrite g d) s (fun t => sel t 0xFF)))
    ∧ (∀ c, s.flint.lifecycle = 2 → (s.ctxWorld c = some .granite ∨ s.flint.debugSlate = false) →
        Completes (.dbgRead (.record c)) s (fun t => sel t 0xFF))

/-- FUSE_PROG blows what the lifecycle state allows into an empty slot and is refused otherwise; LC_ADVANCE and LC_RETIRE blow LIFECYCLE bits
that take effect at the next reset (R494, R497, R505, R506). That DEVICE_SECRET, DSN and GRADE are programmed by OR, that a second LC_ADVANCE
blows no further bit and that LC_RETIRE brings the state to 3 is log 98. -/
def Obligations.FusesAndLifecycle : Prop :=
  ∀ (s : State), s.pw.railsOk = true → s.pw.lost = false →
    let rest := fun (t : State) => { t with jtag := s.jtag, fuses := s.fuses } = s
    let refused := fun (t : State) => t.jtag.ir = 0xFF ∧ { t with jtag := s.jtag } = s
    (∀ (v : BitVec 768), s.flint.lifecycle = 0 →
      (∀ k, k < 4 → Tbl.get 0 s.fuses.fwKey k = 0 → Completes (.fuseProg (.fwKey k) v) s (fun t => rest t
        ∧ (∀ j, Tbl.get 0 t.fuses.fwKey j = if j = k then v.toNat % 2 ^ 256 else Tbl.get 0 s.fuses.fwKey j)
        ∧ { t.fuses with fwKey := s.fuses.fwKey } = s.fuses))
      ∧ Completes (.fuseProg .deviceSecret v) s (fun t => rest t
          ∧ t.fuses = { s.fuses with deviceSecret := s.fuses.deviceSecret ||| v })
      ∧ Completes (.fuseProg .dsn v) s (fun t => rest t ∧ t.fuses = { s.fuses with dsn := s.fuses.dsn ||| v.toNat % 2 ^ 64 })
      ∧ Completes (.fuseProg .grade v) s (fun t => rest t ∧ t.fuses = { s.fuses with grade := s.fuses.grade || bitAt v.toNat 0 }))
    ∧ (∀ (v : BitVec 768), s.flint.lifecycle = 1 →
      (∀ k, k < 4 → Tbl.get 0 s.fuses.imgKey k = 0 → Completes (.fuseProg (.imgKey k) v) s (fun t => rest t
        ∧ (∀ j, Tbl.get 0 t.fuses.imgKey j = if j = k then v.toNat % 2 ^ 256 else Tbl.get 0 s.fuses.imgKey j)
        ∧ { t.fuses with imgKey := s.fuses.imgKey } = s.fuses))
      ∧ (∀ k, k < 4 → Tbl.get 0 s.fuses.grnKey k = 0 → Completes (.fuseProg (.grnKey k) v) s (fun t => rest t
        ∧ (∀ j, Tbl.get 0 t.fuses.grnKey j = if j = k then v.toNat % 2 ^ 256 else Tbl.get 0 s.fuses.grnKey j)
        ∧ { t.fuses with grnKey := s.fuses.grnKey } = s.fuses)))
    ∧ (∀ (v : BitVec 768), Completes (.fuseProg .revoke v) s refused ∧ Completes (.fuseProg .lifecycle v) s refused)
    ∧ (∀ (f : FuseField) (v : BitVec 768), 2 ≤ s.flint.lifecycle → Completes (.fuseProg f v) s refused)
    ∧ (∀ (k : Nat) (v : BitVec 768), Tbl.get 0 s.fuses.fwKey k ≠ 0 → Completes (.fuseProg (.fwKey k) v) s refused)
    ∧ (s.attic.config ≠ .image → s.flint.lifecycle = 0 → Completes .lcAdvance s (fun t =>
        t.jtag.ir = 0x31 ∧ t.fuses = { s.fuses with lifecycle := Nat.max s.fuses.lifecycle 1 } ∧ t.flint = { s.flint with lcPending := 0 }))
    ∧ (s.attic.config ≠ .image → s.flint.lifecycle = 1 → Tbl.get 0 s.fuses.imgKey 0 ≠ 0 →
        Completes .lcAdvance s (fun t => t.jtag.ir = 0x31 ∧ t.fuses = { s.fuses with lifecycle := Nat.max s.fuses.lifecycle 2 }))
    ∧ (2 ≤ s.flint.lifecycle → Completes .lcAdvance s refused)
    ∧ (s.flint.lifecycle ≠ 3 → Completes .lcRetire s (fun t => t.jtag.ir = 0x32 ∧ rest t
        ∧ t.fuses = { s.fuses with lifecycle := Nat.max s.fuses.lifecycle 3 } ∧ t.flint.lifecycle = s.flint.lifecycle))
    ∧ (s.flint.lifecycle = 3 → Completes .lcRetire s refused)

/-- The SMBus target answers its six Block Reads with 4 bytes from step 2 of start-up, with the packet error checking byte where the host
uses it, acknowledges no other transaction, and before that step answers nothing (R524). -/
def Obligations.SmbusBlockReads : Prop :=
  ∀ (s : State),
    let n := (s.fc.study.recs.filter (fun p => p.2.active)).length
    let words : List ((SmbAccess → Instr) × Nat × Nat) := [(fun a => .smbFyId a, 1, s.fyId .slate), (fun a => .smbAtStatus a, 2, s.atStatus),
      (fun a => .smbFaultSummary a, 3, bnat s.errLow + 2 * bnat (s.fc.study.recs.any (fun p => p.2.severe)) + n % 256 * 2 ^ 8),
      (fun a => .smbDieMeas a, 4, s.blRead .slate 0x300018), (fun a => .smbHoldup a, 5, s.fcRead .slate 0x504004), (fun a => .smbClStatus a, 6, s.fcRead .slate 0x504000)]
    ∀ p ∈ words,
      (s.pw.railsOk = true → s.pw.lost = false → 1 ≤ s.attic.state →
        Completes (p.1 (.blockRead false)) s (fun t => t.out = s.out ++ [.smbus (leBytes 4 p.2.2)] ∧ { t with out := s.out } = s)
        ∧ Completes (p.1 (.blockRead true)) s (fun t => { t with out := s.out } = s
            ∧ t.out = s.out ++ [.smbus (leBytes 4 p.2.2 ++ leBytes 1 (smbusPec (smbusFrame p.2.1 (leBytes 4 p.2.2))))])
        ∧ Completes (p.1 .other) s (fun t => t.out = s.out ++ [.smbusNak] ∧ { t with out := s.out } = s))
      ∧ (s.attic.state = 0 → ∀ a, Completes (p.1 a) s (fun t => t = s))

/-! ### The machine as a whole -/

/-- A step runs the command at the front of the queue on the rest of the queue. -/
def Obligations.StepRunsFrontCommand : Prop :=
  ∀ (c : Instr) (s : State) (rest : List Instr), step { s with pending := c :: rest } = exec c { s with pending := rest }

/-- After reset: Quartz at 0, no context bound, no port enabled, no image, the Attic in RESET, every world OFF, and no memory byte listed (R36, R41,
R42, R65, R433). The values that no rule gives are the model's (log 4 to log 15). -/
def Obligations.ResetState : Prop :=
  State.reset.attic.state = 0 ∧ State.reset.now = 0 ∧ State.reset.pending = []
    ∧ (∀ c, (State.reset.ctx c).state = .free) ∧ (∀ n, (State.reset.port n).enabled = false ∧ State.reset.portWorld n = none)
    ∧ (∀ n, (State.reset.drive n).run = false ∧ (State.reset.drive n).actA = 0)
    ∧ (∀ w, (State.reset.fn w).host = .off) ∧ State.reset.attic.config = .none
    ∧ State.reset.memoryOk = true ∧ State.reset.pantry.mem = [] ∧ State.reset.cellar.mem = [] ∧ State.reset.flash.mem = []
    ∧ State.reset.hostMem = [] ∧ ∀ w q, (State.reset.sq w q).state = .none ∧ (State.reset.cq w q).state = .none

/-- No step returns a blown fuse bit to 0 or changes a hash slot that is taken (R494). -/
def Obligations.FusesStayBlown : Prop :=
  ∀ (s t : State), step s = .next t → Fuses.kept s.fuses t.fuses = true

/-- Every step keeps the canonical form of the memories. -/
def Sys2Proof.Machine.MemoriesStayCanonical : Prop :=
  ∀ (s t : State), s.memoryOk = true → step s = .next t → t.memoryOk = true

/-- No step leaves the mark of a failed read on the link behind: it lasts for the one command whose read failed. -/
def Sys2Proof.Machine.LinkMarkStaysClear : Prop :=
  ∀ (s t : State), s.linkBad = false → step s = .next t → t.linkBad = false

/-- Every step keeps the canonical form of the memories, and leaves no mark of a failed read behind. The parts say it whole. -/
def Obligations.MemoryStaysCanonical : Prop := MemoriesStayCanonical ∧ LinkMarkStaysClear

/-! ### Rules stated whole -/

/-- R346: a poisoned burst stays poisoned; a write of all 32 bytes clears the poison and the marks of its check bits; a narrower write stores
its bytes and leaves it uncorrectable, so no read of any byte of it is good. -/
def Obligations.PoisonedBurstsStayPoisoned : Prop :=
  ∀ (s : State) (a b : Nat) (d : List Byte), b ∈ s.pantry.poison →
    let t := s.pnWrite a d
    t.pnBytes a d.length = d
      ∧ (a ≤ 32 * b ∧ 32 * b + 32 ≤ a + d.length → b ∉ t.pantry.poison ∧ Tbl.get [] t.pantry.errs b = [])
      ∧ (¬(a ≤ 32 * b ∧ 32 * b + 32 ≤ a + d.length) → b ∈ t.pantry.poison
          ∧ ∀ x n, 0 < n → x < 32 * b + 32 → 32 * b < x + n → (t.pnCheck x n).1 = false ∧ b ∈ (t.pnCheck x n).2.pantry.poison)

/-- R269: DELETE_CQ of a completion queue returns BUSY (5) and deletes nothing while a submission queue names the queue, while a context that
is not FREE will post to it, or while the store holds entries for it. -/
def Obligations.DeleteCqReturnsBusy : Prop :=
  ∀ (s : State) (w : World) (e : Entry) (n : Nat), AdminFront s w 0x11 e → zeroRuns e.data [(8, 12), (22, 42)] = true →
    fieldAt e.data 20 2 = n → n ≠ 0 → n < (s.wcfg w).cqShare → (s.cq w n).state ≠ .none →
    ((∃ m, m ≠ 0 ∧ (s.sq w m).state ≠ .none ∧ (s.sq w m).cq = n)
      ∨ (∃ c, s.ctxWorld c = some w ∧ (s.ctx c).state ≠ .free ∧ (s.ctx c).cq = n ∧ (s.ctx c).orphaned = false ∧ s.isResident c = false
          ∧ s.isProbe c = false)
      ∨ s.storeOf w n ≠ []) →
    Completes (.deleteCq w) s (fun t => AdminAnswers s t w e 5 0 ∧ (∀ m, m ≠ 0 → t.cq w m = s.cq w m ∧ t.sq w m = s.sq w m))

/-- R189: while a late bus error is pending in a context, a further one sets MULTI, counts in HT_ASYNC_CNT of the world that made the store and
is recorded; the pending record keeps its reason and address. -/
def Obligations.FurtherLateBusErrorsSetMulti : Prop :=
  ∀ (s : State) (c reason : Nat) (b : BufStore) (rest : List BufStore) (e : AsyncErr), (s.ctx c).stores = b :: rest →
    (s.ctx c).state ≠ .suspended → (s.ctx c).parked = false → b.old = false → (s.ctx c).asyncErr = some e →
    (reason = 2 ∨ reason = 3 ∨ (reason = 1 ∧ s.pageValid ((b.addr - windowBase) / pageBytes) = false)) →
    Completes (.lateBusError c reason) s (fun t => (t.ctx c).asyncErr = some { e with multi := true }
      ∧ (t.hearths.cnt.get b.world).async = satInc32 (s.hearths.cnt.get b.world).async
      ∧ t.fc = (s.report (s.hearthMsg c 0x06 b.addr b.world) (some c)).fc
      ∧ (∀ d, d ≠ c → t.ctx d = s.ctx d) ∧ SameBytes s t)

/-- The fields and slots that FUSE_PROG may program in the lifecycle state in force (the table of R506; R497). -/
def Sys2Proof.Machine.MayProgram (s : State) : FuseField → Prop
  | .fwKey k => s.flint.lifecycle = 0 ∧ Tbl.get 0 s.fuses.fwKey k = 0
  | .imgKey k => s.flint.lifecycle = 1 ∧ Tbl.get 0 s.fuses.imgKey k = 0
  | .grnKey k => s.flint.lifecycle = 1 ∧ Tbl.get 0 s.fuses.grnKey k = 0
  | .deviceSecret => s.flint.lifecycle = 0
  | .dsn => s.flint.lifecycle = 0
  | .grade => s.flint.lifecycle = 0
  | .revoke => False
  | .lifecycle => False

/-- R497: no step but FUSE_PROG programs a fuse field (REVOKE and LIFECYCLE bits are blown by KEY_REVOKE and by the LC instructions, R496 and
R505); and a FUSE_PROG of a hash slot that is not empty, of a field outside the state's column, or of REVOKE or LIFECYCLE is refused with no
fuse blown. -/
def Obligations.FusesAreProgrammedOnlyByFuseProg : Prop :=
  (∀ (s t : State), step s = .next t → (∀ f v rest, s.pending ≠ .fuseProg f v :: rest) →
      { t.fuses with revoke := s.fuses.revoke, lifecycle := s.fuses.lifecycle } = s.fuses)
    ∧ ∀ (s : State) (f : FuseField) (v : BitVec 768), ¬MayProgram s f →
      Completes (.fuseProg f v) s (fun t => t.fuses = s.fuses ∧ (s.pw.railsOk = true → s.pw.lost = false → t.jtag.ir = 0xFF))

/-! ### Leave, scheduling and ends, each where it completes -/

/-- A status of a queued program of context c can be placed at once: its completion queue is active with room, and nothing waits for that queue
or for the context's end (R109, R265, R267). -/
def Sys2Proof.Machine.StatusFits (s : State) (c : Nat) : Prop :=
  let w := s.home c
  let q := s.cq w (s.ctx c).cq
  s.isResident c = false ∧ s.isProbe c = false ∧ (s.ctx c).orphaned = false ∧ (s.ctx c).ending = false ∧ q.state = .active ∧ q.full = false
    ∧ s.storeOf w (s.ctx c).cq = [] ∧ s.cqWaits w (s.ctx c).cq = false ∧ (s.qm.get w).haltWait = none ∧ bitAt (s.fn w).accepted 8 = false

/-- The program of context c has ended: the context is FREE, and its final status with a CCW address, a residual and a status code, no event of
its own and no unit code stands at the tail of its completion queue (R106, R109, R213, R264). -/
def Sys2Proof.Machine.EndsWith (s t : State) (c addr resid status : Nat) : Prop :=
  let w := s.home c
  let q := s.cq w (s.ctx c).cq
  (t.ctx c).state = .free ∧ (t.cq w (s.ctx c).cq).tail = q.tail.add q.depth 1
    ∧ hostBytesOf t.hostMem (q.base + 32 * q.tail.idx) 16
        = leBytes 8 (addr % 2 ^ 38) ++ leBytes 2 resid ++ leBytes 1 status ++ leBytes 1 0 ++ leBytes 2 8 ++ leBytes 2 0

/-- The CCW y of context c has begun and nothing of it has been transferred; it can end at once, and no buffered store, late error, or condition
stands beside it (R99, R109, R110, R164). -/
def Sys2Proof.Machine.Midway (s : State) (c : Nat) (y : Ccw) : Prop :=
  let x := s.ctx c
  x.started = true ∧ x.ccw = some y ∧ x.stream = { members := [y] } ∧ x.interruptible = true ∧ x.stores = [] ∧ x.asyncCcw = none ∧ x.due = none
    ∧ x.softDl = false ∧ x.late = false ∧ x.long = false ∧ x.cond = false ∧ x.timeout = false ∧ s.frozen (s.home c) = false
    ∧ ∀ z, x.act = some z → z.portDone = false ∧ z.channelDone = false

/-- LEAVE asks Boiler for its amount and waits; executed again with its lease granted it holds the lease and goes on, and AMOUNT 0 releases the
lease (R104, R213, R424). -/
def Sys2Proof.Machine.LeaveCompletes : Prop :=
  ∀ (s : State) (c : Nat) (y : Ccw), y.code = 0xB →
    (NextCcw s c y → Unencumbered s c → StartsWell s c y → y.dln = false → Tbl.get 0 (s.ctx c).ccwLease (y.param % 2) = 0 →
      y.param / 256 % 2 ^ 24 ≠ 0 → (s.ctx c).leases.length < 4 →
      (∀ l, s.boiler.denied (s.leaveReq (.context c) (y.param % 2 = 1) (y.param / 2 % 8) (y.param / 256 % 2 ^ 24) y.count none l) = false) →
      ∃ t, exec (.leaveCcw c) s = .next t ∧ (t.ctx c).state = .waiting ∧ (t.ctx c).wait = .leave ∧ (t.ctx c).ccwAddr = (s.ctx c).ccwAddr
        ∧ (∃ q, t.boiler.waiting = s.boiler.waiting ++ [q] ∧ q.owner = .context c ∧ q.plant = decide (y.param % 2 = 1)
            ∧ q.cls = y.param / 2 % 8 ∧ q.amount = y.param / 256 % 2 ^ 24 ∧ q.estMs = y.count ∧ q.lease = none ∧ q.since = s.now)
        ∧ (∀ d, d ≠ c → t.ctx d = s.ctx d) ∧ SameBytes s t)
    ∧ (NextCcw s c y → Unencumbered s c → StartsWell s c y → y.dln = false → y.cc = true → y.pst = false → y.param / 256 % 2 ^ 24 = 0 →
      ∀ n l, Tbl.get 0 (s.ctx c).ccwLease (y.param % 2) = n → n ≠ 0 → n ∈ (s.ctx c).leases → s.boiler.lease n = some l → l.owner = .context c →
      ∃ t, exec (.leaveCcw c) s = .next t ∧ (t.ctx c).state = .running ∧ (t.ctx c).started = false
        ∧ (t.ctx c).ccwAddr = (s.ctx c).ccwAddr + 16 ∧ t.boiler.lease n = none ∧ n ∉ (t.ctx c).leases
        ∧ Tbl.get 0 (t.ctx c).ccwLease (y.param % 2) = 0 ∧ (∀ d, d ≠ c → t.ctx d = s.ctx d) ∧ SameBytes s t)
    ∧ (∀ n, (s.ctx c).state = .running → s.issues (s.home c) = true → (s.ctx c).act = none → (s.ctx c).answer = .granted n → Midway s c y →
      Unencumbered s c → y.loc = (s.ctx c).ccwAddr → y.cc = true → y.cd = false → y.pst = false →
      (s.ctx c).answeredAt ≤ (s.ctx c).deadline →
      ∃ t, exec (.leaveCcw c) s = .next t ∧ GoesOn (s.ctx c) (t.ctx c) ((s.ctx c).ccwAddr + 16) false
        ∧ Tbl.get 0 (t.ctx c).ccwLease (y.param % 2) = n ∧ (∀ d, d ≠ c → t.ctx d = s.ctx d) ∧ t.boiler = s.boiler ∧ SameBytes s t)

/-- A CCW whose hard deadline passes ends its program with DEADLINE_MISS, and so does an activation that waits for a lock beyond the limit of its
world, which is counted; each names the CCW and what it has not transferred (R103, R108, R110, R222). -/
def Sys2Proof.Machine.MissesComplete : Prop :=
  ∀ (s : State) (c : Nat) (y : Ccw), Midway s c y → StatusFits s c → y.code ≠ 7 →
    ((s.ctx c).state = .running ∨ (s.ctx c).state = .ready ∨ ((s.ctx c).state = .waiting ∧ (s.ctx c).wait ≠ .status) →
      (s.ctx c).deadline < (s.answered c).getD s.now → ∃ t, exec (.deadlineMiss c) s = .next t ∧ EndsWith s t c y.loc y.bytes 8)
    ∧ (∀ n w, (s.ctx c).state = .waiting → (s.ctx c).wait = .lock n w → (s.ctx c).act.isSome = true →
      ((s.ctx c).deadline < s.now ∨ (s.ctx c).waitSince + 1000 * (s.wcfg (s.home c)).lockWaitUs < s.now) →
      ∃ t, exec (.lockWaitTimeout c) s = .next t ∧ EndsWith s t c y.loc y.bytes 8
        ∧ (t.hearths.cnt.get (s.home c)).lockTo = satInc32 (s.hearths.cnt.get (s.home c)).lockTo)

/-- A late bus error that is pending is delivered at user level at a boundary: the supervisor is entered at its vector with the reason and the
address saved, and the error pends no more (R169, R175, R188). -/
def Sys2Proof.Machine.AsyncErrorCompletes : Prop :=
  ∀ (s : State) (c a : Nat) (e : AsyncErr), (s.ctx c).state = .running → (s.ctx c).act.isSome = true → s.issues (s.home c) = true →
    (s.ctx c).asyncErr = some e → (s.ctx c).super1 = false → (s.ctx c).branch = none → (s.ctx c).st.getLsbD 4 = false →
    (s.ctx c).due = none → (s.ctx c).answer = .none → EntersSuper s c 0xE a →
    ∃ t, exec (.asyncBusError c) s = .next t ∧ (t.ctx c).asyncErr = none ∧ (t.ctx c).pc = BitVec.ofNat 64 a ∧ (t.ctx c).super1 = true
      ∧ t.ctx c = enteredSuper { s.ctx c with asyncErr := none } { code := 0xE, info := e.reason, addr := e.addr, multi := e.multi }
          (s.ctx c).pc (BitVec.ofNat 64 a) false
      ∧ Beside s t c ∧ SameBytes s t

/-- A context that has what it waits for is READY: an answer of Boiler or of a drive, a Flint session, a verification, the time of a WAIT
(R104, R118, R168, R213). -/
def Sys2Proof.Machine.WaitsComplete : Prop :=
  ∀ (s : State) (c : Nat), (s.ctx c).state = .waiting → s.frozen (s.home c) = false → (s.ctx c).ending = false →
    let ready := fun (t : State) => (t.ctx c).state = .ready ∧ (t.ctx c).wait = .none ∧ (t.ctx c).readySeq = s.hearths.readySeq
      ∧ (t.ctx c).pc = (s.ctx c).pc ∧ (t.ctx c).ccwAddr = (s.ctx c).ccwAddr ∧ (∀ d, d ≠ c → t.ctx d = s.ctx d)
      ∧ { t with ctxs := s.ctxs, hearths := s.hearths } = s
    ((s.ctx c).wait = .leave → (s.ctx c).answer ≠ .none → ∃ t, exec (.waitEnd c) s = .next t ∧ ready t)
    ∧ (∀ n, (s.ctx c).wait = .drive n → (s.drive n).answers.any (fun y => y.ctx = c) = true → ∃ t, exec (.waitEnd c) s = .next t ∧ ready t)
    ∧ ((s.ctx c).wait = .flint → s.flintOpen < 64 → ∃ t, exec (.waitEnd c) s = .next t ∧ ready t ∧ (t.ctx c).flint = some {})
    ∧ ((s.ctx c).wait = .flver → ∃ t, exec (.waitEnd c) s = .next t ∧ ready t ∧ (t.ctx c).answer = .verified)
    ∧ (∀ tgt m, (s.ctx c).wait = .ccw tgt m → (s.ctx c).deadline ≤ s.now → ∃ t, exec (.waitEnd c) s = .next t ∧ ready t)

/-- A Hearth with a mismatch leaves service, which is recorded, and each of its contexts that is READY, RUNNING or WAITING is MIGRATING; a migrating
context on a working Hearth is READY at its CCW with nothing of its activation, or, where a CONTROL or EXEC of it has put something out, to
wait for its port (R225 to R227). -/
def Sys2Proof.Machine.FailureCompletes : Prop :=
  ∀ (s : State),
    (∀ h, h < 64 → s.powered = true → h ∉ s.hearths.failed → (s.fc.buf.filter (fun r => msgSource r.msg = h)).length < 4 →
      ∃ t, exec (.checkerMismatch h) s = .next t ∧ t.hearths.failed = s.hearths.failed ++ [h]
        ∧ (⟨faultMsg h 0 3 0 none false, none⟩ : Report) ∈ t.fc.buf
        ∧ (∀ c, (s.ctx c).home = h →
            (s.ctx c).state = .ready ∨ (s.ctx c).state = .running ∨ (s.ctx c).state = .waiting →
            (t.ctx c).state = .migrating ∧ (t.ctx c).migCount = satAt 255 ((s.ctx c).migCount + 1) ∧ (t.ctx c).ccwAddr = (s.ctx c).ccwAddr)
        ∧ ∀ c, (s.ctx c).home ≠ h → (t.ctx c).home = (s.ctx c).home)
    ∧ (∀ c, (s.ctx c).state = .migrating → s.frozen (s.home c) = false → (s.ctx c).home ∉ s.hearths.failed → (s.ctx c).suspendDue = false →
      (s.ctx c).asyncCcw = none → (s.ctx c).due = none →
      ((s.ctx c).outputHanded = false → (s.ctx c).stream.handed = 0 →
        ∃ t, exec (.migratingPlaced c) s = .next t ∧ (t.ctx c).state = .ready ∧ (t.ctx c).act = none ∧ (t.ctx c).started = false
          ∧ (t.ctx c).ccwAddr = (s.ctx c).ccwAddr ∧ (t.ctx c).home = (s.ctx c).home ∧ (t.ctx c).regs = [] ∧ (t.ctx c).stores = (s.ctx c).stores)
      ∧ (∀ y, (s.ctx c).ccw = some y → y.code = 3 ∨ y.code = 9 → (s.ctx c).started = true →
          (s.ctx c).outputHanded = true ∨ (s.ctx c).stream.handed ≠ 0 →
        ∃ t, exec (.migratingPlaced c) s = .next t ∧ (t.ctx c).state = .ready ∧ (t.ctx c).act = none ∧ (t.ctx c).started = true
          ∧ (t.ctx c).wait = .portEnd ∧ (t.ctx c).ccwAddr = (s.ctx c).ccwAddr ∧ (t.ctx c).home = (s.ctx c).home))

/-- The restart of a resident program whose time has come binds it again from its header: the context is READY at the first CCW on the Hearth that
R216 names, with its deadline counted from now; from ERROR it is counted (R78, R80, R216, R228 to R230). -/
def Sys2Proof.Machine.RestartCompletes : Prop :=
  ∀ (s : State) (c h : Nat) (again : Bool), s.issues (s.home c) = true → s.attic.config = .image →
    (s.ctx c).state = (if again then .error else .free) → s.isProbe c = false → ∀ at1, (s.ctx c).restartAt = some at1 → at1 ≤ s.now →
    ∀ e, s.residentOf c = some e →
    (let k := if e.cluster < 16 then e.cluster else s.homeCluster e.lane
     s.placeHome k (s.ctx e.ctx).placeAsked = .hearth h) →
    let w := s.home c
    let a := e.header
    let hdr := Memory.bytes 0 s.pantry.mem a 8
    let n := fieldAt hdr 3 1 % 32
    a % 16 = 0 → a + 80 ≤ windowBase → (∀ i, i < 80 → s.deny w false .read (a + i) = none) → GoodRead s a 80 →
    s.bindCheck w { level := 3, lanes := if e.lane < 128 then 2 ^ e.lane else 0, backOffice := decide (e.lane = 0xFF) } hdr
      (Memory.bytes 0 s.pantry.mem (a + 8) (4 * n)) = none →
    ∃ t, exec (.residentRestart c) s = .next t ∧ (t.ctx c).state = .ready ∧ (t.ctx c).header = a
      ∧ (t.ctx c).ccwAddr = a + 16 * ((8 + 4 * n + 15) / 16) ∧ (t.ctx c).home = h ∧ (t.ctx c).level = fieldAt hdr 0 1
      ∧ (t.ctx c).lane = fieldAt hdr 2 1 ∧ (t.ctx c).tgtCount = n ∧ (t.ctx c).restartAt = none
      ∧ (t.ctx c).pdeadline = (if fieldAt hdr 4 4 = 0 then 0xFFFFFFFFFFFFFFFF else s.now + 1000 * fieldAt hdr 4 4)
      ∧ (t.ctx c).restarts = (if again then satAt 255 ((s.ctx c).restarts + 1) else (s.ctx c).restarts) ∧ t.atts = s.atts

/-- LEAVE, a missed deadline, the limit of a wait, a late bus error, the end of a wait, the failure of a Hearth, the placing of a migrating context
and the restart of a resident program each complete with the effect that the rules give (R103, R104, R188, R213, R222, R225 to R230, R424). That a
WAIT is over at its deadline is log 38, that a migrated CONTROL or EXEC waits for its port log 39, what a failed Hearth had buffered log 120. -/
def Obligations.SchedulingCommandsComplete : Prop :=
  LeaveCompletes ∧ MissesComplete ∧ AsyncErrorCompletes ∧ WaitsComplete ∧ FailureCompletes ∧ RestartCompletes
end

