-- ==== Sys2Proof/Laws/Tbl.lean ====
section
/-! SUPPORT. Laws of sparse tables and byte memories: a read after a write, writes elsewhere, and the canonical form. -/
namespace Sys2Proof.Machine

/-! ### Tables: reading what was written -/

@[simp] theorem Tbl.get_nil {α : Type} (d : α) (k : Nat) : Tbl.get d [] k = d := rfl

theorem Tbl.get_cons {α : Type} (d : α) (p : Nat × α) (t : Tbl α) (k : Nat) :
    Tbl.get d (p :: t) k = if k = p.1 then p.2 else Tbl.get d t k := rfl

theorem Tbl.get_ins {α : Type} (d : α) (t : Tbl α) (k : Nat) (v : α) (j : Nat) :
    Tbl.get d (Tbl.ins t k v) j = if j = k then v else Tbl.get d t j := by
  induction t with
  | nil => simp [Tbl.ins, Tbl.get_cons]
  | cons p t ih => simp only [Tbl.ins]; split_ifs <;> simp_all [Tbl.get_cons]

theorem Tbl.get_filter_ne {α : Type} (d : α) (t : Tbl α) (k j : Nat) :
    Tbl.get d (t.filter (fun p => decide (p.1 ≠ k))) j = if j = k then d else Tbl.get d t j := by
  induction t with
  | nil => simp
  | cons p t ih =>
    by_cases h : p.1 = k
    · simp only [List.filter_cons, h, Tbl.get_cons]; rw [if_neg (by simp), ih]; split_ifs <;> rfl
    · simp only [List.filter_cons]; rw [if_pos (by simp [h])]; simp only [Tbl.get_cons, ih]; split_ifs <;> simp_all

theorem Tbl.put_eq {α : Type} [DecidableEq α] (d : α) (t : Tbl α) (k : Nat) (v : α) :
    Tbl.put d t k v = if v = d then t.filter (fun p => decide (p.1 ≠ k)) else Tbl.ins t k v := rfl

/-- A table answers the value last put at a key, and elsewhere what it answered before. -/
theorem Tbl.get_put {α : Type} [DecidableEq α] (d : α) (t : Tbl α) (k : Nat) (v : α) (j : Nat) :
    Tbl.get d (Tbl.put d t k v) j = if j = k then v else Tbl.get d t j := by
  rw [Tbl.put_eq]; split
  · rename_i h; rw [Tbl.get_filter_ne, h]
  · exact Tbl.get_ins d t k v j

@[simp] theorem Tbl.get_put_self {α : Type} [DecidableEq α] (d : α) (t : Tbl α) (k : Nat) (v : α) :
    Tbl.get d (Tbl.put d t k v) k = v := by simp [Tbl.get_put]

theorem Tbl.get_put_ne {α : Type} [DecidableEq α] (d : α) (t : Tbl α) {k j : Nat} (v : α) (h : j ≠ k) :
    Tbl.get d (Tbl.put d t k v) j = Tbl.get d t j := by simp [Tbl.get_put, h]

theorem Tbl.get_upd {α : Type} [DecidableEq α] (d : α) (t : Tbl α) (k : Nat) (f : α → α) (j : Nat) :
    Tbl.get d (Tbl.upd d t k f) j = if j = k then f (Tbl.get d t k) else Tbl.get d t j := Tbl.get_put d t k _ j

@[simp] theorem Tbl.get_upd_self {α : Type} [DecidableEq α] (d : α) (t : Tbl α) (k : Nat) (f : α → α) :
    Tbl.get d (Tbl.upd d t k f) k = f (Tbl.get d t k) := by simp [Tbl.get_upd]

theorem Tbl.get_upd_ne {α : Type} [DecidableEq α] (d : α) (t : Tbl α) {k j : Nat} (f : α → α) (h : j ≠ k) :
    Tbl.get d (Tbl.upd d t k f) j = Tbl.get d t j := by simp [Tbl.get_upd, h]

theorem Tbl.find_ins {α : Type} (t : Tbl α) (k : Nat) (v : α) (j : Nat) :
    Tbl.find (Tbl.ins t k v) j = if j = k then some v else Tbl.find t j := by
  induction t with
  | nil => simp [Tbl.ins, Tbl.find]
  | cons p t ih => simp only [Tbl.ins]; split_ifs <;> simp_all [Tbl.find]

/-! ### Tables: the canonical form -/

theorem Tbl.rising_mono {α : Type} {t : Tbl α} {a b : Nat} (h : a ≤ b) (hr : Tbl.rising (some b) t = true) :
    Tbl.rising (some a) t = true := by
  cases t with
  | nil => rfl
  | cons p t => simp only [Tbl.rising, Bool.and_eq_true, decide_eq_true_eq] at hr ⊢; exact ⟨Nat.lt_of_le_of_lt h hr.1, hr.2⟩

theorem Tbl.rising_some_none {α : Type} {t : Tbl α} {b : Nat} (h : Tbl.rising (some b) t = true) : Tbl.rising none t = true := by
  cases t with
  | nil => rfl
  | cons p t => simp only [Tbl.rising, Bool.and_eq_true] at h ⊢; exact h.2

theorem Tbl.rising_some_ins {α : Type} {t : Tbl α} {b k : Nat} (v : α) (hb : b < k) (h : Tbl.rising (some b) t = true) :
    Tbl.rising (some b) (Tbl.ins t k v) = true := by
  induction t generalizing b with
  | nil => simp [Tbl.ins, Tbl.rising, hb]
  | cons p t ih =>
    simp only [Tbl.rising, Bool.and_eq_true, decide_eq_true_eq] at h
    simp only [Tbl.ins]
    split_ifs with h1 h2
    · simp [Tbl.rising, hb, h1, h.2]
    · subst h2; simp [Tbl.rising, hb, h.2]
    · simp only [Tbl.rising, Bool.and_eq_true, decide_eq_true_eq]; exact ⟨h.1, ih (by omega) h.2⟩

/-- Listing a pair keeps the keys rising. -/
theorem Tbl.rising_ins {α : Type} {t : Tbl α} (k : Nat) (v : α) (h : Tbl.rising none t = true) :
    Tbl.rising none (Tbl.ins t k v) = true := by
  cases t with
  | nil => rfl
  | cons p t =>
    simp only [Tbl.rising] at h
    simp only [Tbl.ins]
    split_ifs with h1 h2
    · simp [Tbl.rising, h1, h]
    · subst h2; exact h
    · exact Tbl.rising_some_ins v (by omega) h

theorem Tbl.rising_some_filter {α : Type} {t : Tbl α} {b : Nat} (q : Nat × α → Bool) (h : Tbl.rising (some b) t = true) :
    Tbl.rising (some b) (t.filter q) = true := by
  induction t generalizing b with
  | nil => rfl
  | cons p t ih =>
    simp only [Tbl.rising, Bool.and_eq_true, decide_eq_true_eq] at h
    simp only [List.filter_cons]
    split_ifs
    · simp only [Tbl.rising, Bool.and_eq_true, decide_eq_true_eq]; exact ⟨h.1, ih h.2⟩
    · exact ih (Tbl.rising_mono (Nat.le_of_lt h.1) h.2)

/-- Leaving pairs out keeps the keys rising. -/
theorem Tbl.rising_filter {α : Type} {t : Tbl α} (q : Nat × α → Bool) (h : Tbl.rising none t = true) :
    Tbl.rising none (t.filter q) = true := by
  cases t with
  | nil => rfl
  | cons p t =>
    simp only [Tbl.rising] at h
    simp only [List.filter_cons]
    split_ifs
    · exact Tbl.rising_some_filter q h
    · exact Tbl.rising_some_none (Tbl.rising_some_filter q h)

theorem Tbl.mem_ins {α : Type} {t : Tbl α} {k : Nat} {v : α} {p : Nat × α} (h : p ∈ Tbl.ins t k v) : p = (k, v) ∨ p ∈ t := by
  induction t with
  | nil => simpa [Tbl.ins] using h
  | cons q t ih =>
    simp only [Tbl.ins] at h
    split_ifs at h <;> simp only [List.mem_cons] at h ⊢
    · exact h
    · tauto
    · rcases h with h | h
      · exact .inr (.inl h)
      · rcases ih h with h | h
        · exact .inl h
        · exact .inr (.inr h)

/-- Putting a value keeps a table in canonical form. -/
theorem Tbl.wf_put {α : Type} [DecidableEq α] (d : α) (t : Tbl α) (k : Nat) (v : α) (h : Tbl.wf d t = true) :
    Tbl.wf d (Tbl.put d t k v) = true := by
  simp only [Tbl.wf, Bool.and_eq_true, List.all_eq_true, decide_eq_true_eq] at h ⊢
  rw [Tbl.put_eq]
  split
  · exact ⟨Tbl.rising_filter _ h.1, fun p hp => h.2 p (List.mem_filter.mp hp).1⟩
  · rename_i hv
    refine ⟨Tbl.rising_ins k v h.1, fun p hp => ?_⟩
    rcases Tbl.mem_ins hp with rfl | hp
    · exact hv
    · exact h.2 p hp

theorem Tbl.wf_filter {α : Type} [DecidableEq α] (d : α) (t : Tbl α) (q : Nat × α → Bool) (h : Tbl.wf d t = true) :
    Tbl.wf d (t.filter q) = true := by
  simp only [Tbl.wf, Bool.and_eq_true, List.all_eq_true, decide_eq_true_eq] at h ⊢
  exact ⟨Tbl.rising_filter _ h.1, fun p hp => h.2 p (List.mem_filter.mp hp).1⟩

theorem Tbl.wf_upd {α : Type} [DecidableEq α] (d : α) (t : Tbl α) (k : Nat) (f : α → α) (h : Tbl.wf d t = true) :
    Tbl.wf d (Tbl.upd d t k f) = true := Tbl.wf_put d t k _ h

/-! ### Byte memories -/

@[simp] theorem Memory.wf_nil (d : Byte) : Memory.wf d [] = true := rfl

theorem Memory.byte_setByte (d : Byte) (m : Memory) (a : Nat) (b : Byte) (x : Nat) :
    Memory.byte d (Memory.setByte d m a b) x = if x = a then b else Memory.byte d m x := Tbl.get_put d m a b x

theorem Memory.wf_setByte (d : Byte) (m : Memory) (a : Nat) (b : Byte) (h : Memory.wf d m = true) :
    Memory.wf d (Memory.setByte d m a b) = true := Tbl.wf_put d m a b h

/-- A write keeps a memory in canonical form. -/
theorem Memory.wf_write (d : Byte) (m : Memory) (a : Nat) (l : List Byte) (h : Memory.wf d m = true) :
    Memory.wf d (Memory.write d m a l) = true := by
  induction l generalizing m a with
  | nil => exact h
  | cons b l ih => exact ih _ _ (Memory.wf_setByte d m a b h)

theorem Memory.wf_filter (d : Byte) (m : Memory) (q : Host.Cell → Bool) (h : Memory.wf d m = true) : Memory.wf d (m.filter q) = true :=
  Tbl.wf_filter d m q h

/-- A byte outside a write reads as before. -/
theorem Memory.byte_write_of_out (d : Byte) (m : Memory) (a : Nat) (l : List Byte) {x : Nat} (h : x < a ∨ a + l.length ≤ x) :
    Memory.byte d (Memory.write d m a l) x = Memory.byte d m x := by
  induction l generalizing m a with
  | nil => rfl
  | cons b l ih =>
    simp only [List.length_cons] at h
    rw [Memory.write, ih _ _ (by omega), Memory.byte_setByte, if_neg (by omega)]

/-- A byte of a write reads as written. -/
theorem Memory.byte_write (d : Byte) (m : Memory) (a : Nat) (l : List Byte) {i : Nat} (h : i < l.length) :
    Memory.byte d (Memory.write d m a l) (a + i) = l[i] := by
  induction l generalizing m a i with
  | nil => simp at h
  | cons b l ih =>
    cases i with
    | zero => rw [Memory.write, Memory.byte_write_of_out _ _ _ _ (by omega), Memory.byte_setByte]; simp
    | succ i => rw [Memory.write, show a + (i + 1) = a + 1 + i by omega, ih _ _ (by simpa using h)]; rfl

@[simp] theorem Memory.length_bytes (d : Byte) (m : Memory) (a n : Nat) : (Memory.bytes d m a n).length = n := by simp [Memory.bytes]

/-- What a write wrote is read back. -/
theorem Memory.bytes_write (d : Byte) (m : Memory) (a : Nat) (l : List Byte) : Memory.bytes d (Memory.write d m a l) a l.length = l := by
  apply List.ext_getElem (by simp)
  intro i h1 h2
  simp only [Memory.bytes, List.getElem_map, List.getElem_range]
  exact Memory.byte_write d m a l h2

/-- A part of what a write wrote is read back. -/
theorem Memory.bytes_write_part (d : Byte) (m : Memory) (a : Nat) (l : List Byte) (o n : Nat) (h : o + n ≤ l.length) :
    Memory.bytes d (Memory.write d m a l) (a + o) n = (l.drop o).take n := by
  apply List.ext_getElem (by simp; omega)
  intro i h1 h2
  simp only [Memory.length_bytes] at h1
  simp only [Memory.bytes, List.getElem_map, List.getElem_range, List.getElem_take, List.getElem_drop, Nat.add_assoc]
  exact Memory.byte_write d m a l (by omega)

/-- Bytes apart from a write read as before. -/
theorem Memory.bytes_write_of_apart (d : Byte) (m : Memory) (a : Nat) (l : List Byte) (x n : Nat) (h : x + n ≤ a ∨ a + l.length ≤ x) :
    Memory.bytes d (Memory.write d m a l) x n = Memory.bytes d m x n := by
  simp only [Memory.bytes, List.map_inj_left, List.mem_range]
  exact fun i hi => Memory.byte_write_of_out d m a l (by omega)

/-! ### Host memory -/

theorem hostByteOf_ins (m : Memory) (a : Nat) (b : Byte) (x : Nat) :
    hostByteOf (Tbl.ins m a b) x = if x = a then b else hostByteOf m x := by
  unfold hostByteOf; rw [Tbl.find_ins]; split_ifs <;> rfl

theorem rising_hostWriteOf (m : Memory) (a : Nat) (l : List Byte) (h : Tbl.rising none m = true) :
    Tbl.rising none (hostWriteOf m a l) = true := by
  induction l generalizing m a with
  | nil => exact h
  | cons b l ih => exact ih _ _ (Tbl.rising_ins a b h)

theorem hostByteOf_write_of_out (m : Memory) (a : Nat) (l : List Byte) {x : Nat} (h : x < a ∨ a + l.length ≤ x) :
    hostByteOf (hostWriteOf m a l) x = hostByteOf m x := by
  induction l generalizing m a with
  | nil => rfl
  | cons b l ih =>
    simp only [List.length_cons] at h
    rw [hostWriteOf, ih _ _ (by omega), hostByteOf_ins, if_neg (by omega)]

theorem hostByteOf_write (m : Memory) (a : Nat) (l : List Byte) {i : Nat} (h : i < l.length) :
    hostByteOf (hostWriteOf m a l) (a + i) = l[i] := by
  induction l generalizing m a i with
  | nil => simp at h
  | cons b l ih =>
    cases i with
    | zero => rw [hostWriteOf, hostByteOf_write_of_out _ _ _ (by omega), hostByteOf_ins]; simp
    | succ i => rw [hostWriteOf, show a + (i + 1) = a + 1 + i by omega, ih _ _ (by simpa using h)]; rfl

theorem hostBytesOf_write (m : Memory) (a : Nat) (l : List Byte) : hostBytesOf (hostWriteOf m a l) a l.length = l := by
  apply List.ext_getElem (by simp [hostBytesOf])
  intro i h1 h2
  simp only [hostBytesOf, List.getElem_map, List.getElem_range]
  exact hostByteOf_write m a l h2

theorem hostBytesOf_write_of_apart (m : Memory) (a : Nat) (l : List Byte) (x n : Nat) (h : x + n ≤ a ∨ a + l.length ≤ x) :
    hostBytesOf (hostWriteOf m a l) x n = hostBytesOf m x n := by
  simp only [hostBytesOf, List.map_inj_left, List.mem_range]
  exact fun i hi => hostByteOf_write_of_out m a l (by omega)

end Sys2Proof.Machine
end

