-- ==== Sys2Proof/Laws/State.lean ====
section
/-! SUPPORT. One lemma for each field of the state under each update: the updates of one item and what they leave as it was. -/
namespace Sys2Proof.Machine

/-! ### setCtx -/

@[simp] theorem State.setCtx_pw (s : State) (c : Nat) (x : Ctx) : (s.setCtx c x).pw = s.pw := rfl
@[simp] theorem State.setCtx_attic (s : State) (c : Nat) (x : Ctx) : (s.setCtx c x).attic = s.attic := rfl
@[simp] theorem State.setCtx_img (s : State) (c : Nat) (x : Ctx) : (s.setCtx c x).img = s.img := rfl
@[simp] theorem State.setCtx_qz (s : State) (c : Nat) (x : Ctx) : (s.setCtx c x).qz = s.qz := rfl
@[simp] theorem State.setCtx_stats (s : State) (c : Nat) (x : Ctx) : (s.setCtx c x).stats = s.stats := rfl
@[simp] theorem State.setCtx_fc (s : State) (c : Nat) (x : Ctx) : (s.setCtx c x).fc = s.fc := rfl
@[simp] theorem State.setCtx_cellar (s : State) (c : Nat) (x : Ctx) : (s.setCtx c x).cellar = s.cellar := rfl
@[simp] theorem State.setCtx_fuses (s : State) (c : Nat) (x : Ctx) : (s.setCtx c x).fuses = s.fuses := rfl
@[simp] theorem State.setCtx_flint (s : State) (c : Nat) (x : Ctx) : (s.setCtx c x).flint = s.flint := rfl
@[simp] theorem State.setCtx_jtag (s : State) (c : Nat) (x : Ctx) : (s.setCtx c x).jtag = s.jtag := rfl
@[simp] theorem State.setCtx_linkUp (s : State) (c : Nat) (x : Ctx) : (s.setCtx c x).linkUp = s.linkUp := rfl
@[simp] theorem State.setCtx_fns (s : State) (c : Nat) (x : Ctx) : (s.setCtx c x).fns = s.fns := rfl
@[simp] theorem State.setCtx_qm (s : State) (c : Nat) (x : Ctx) : (s.setCtx c x).qm = s.qm := rfl
@[simp] theorem State.setCtx_ovf (s : State) (c : Nat) (x : Ctx) : (s.setCtx c x).ovf = s.ovf := rfl
@[simp] theorem State.setCtx_ovfWait (s : State) (c : Nat) (x : Ctx) : (s.setCtx c x).ovfWait = s.ovfWait := rfl
@[simp] theorem State.setCtx_mbs (s : State) (c : Nat) (x : Ctx) : (s.setCtx c x).mbs = s.mbs := rfl
@[simp] theorem State.setCtx_flash (s : State) (c : Nat) (x : Ctx) : (s.setCtx c x).flash = s.flash := rfl
@[simp] theorem State.setCtx_hearths (s : State) (c : Nat) (x : Ctx) : (s.setCtx c x).hearths = s.hearths := rfl
@[simp] theorem State.setCtx_ports (s : State) (c : Nat) (x : Ctx) : (s.setCtx c x).ports = s.ports := rfl
@[simp] theorem State.setCtx_atts (s : State) (c : Nat) (x : Ctx) : (s.setCtx c x).atts = s.atts := rfl
@[simp] theorem State.setCtx_pantry (s : State) (c : Nat) (x : Ctx) : (s.setCtx c x).pantry = s.pantry := rfl
@[simp] theorem State.setCtx_dws (s : State) (c : Nat) (x : Ctx) : (s.setCtx c x).dws = s.dws := rfl
@[simp] theorem State.setCtx_drives (s : State) (c : Nat) (x : Ctx) : (s.setCtx c x).drives = s.drives := rfl
@[simp] theorem State.setCtx_lands (s : State) (c : Nat) (x : Ctx) : (s.setCtx c x).lands = s.lands := rfl
@[simp] theorem State.setCtx_bias (s : State) (c : Nat) (x : Ctx) : (s.setCtx c x).bias = s.bias := rfl
@[simp] theorem State.setCtx_landOrder (s : State) (c : Nat) (x : Ctx) : (s.setCtx c x).landOrder = s.landOrder := rfl
@[simp] theorem State.setCtx_boiler (s : State) (c : Nat) (x : Ctx) : (s.setCtx c x).boiler = s.boiler := rfl
@[simp] theorem State.setCtx_hostMem (s : State) (c : Nat) (x : Ctx) : (s.setCtx c x).hostMem = s.hostMem := rfl
@[simp] theorem State.setCtx_out (s : State) (c : Nat) (x : Ctx) : (s.setCtx c x).out = s.out := rfl
@[simp] theorem State.setCtx_free (s : State) (c : Nat) (x : Ctx) : (s.setCtx c x).free = s.free := rfl
@[simp] theorem State.setCtx_pending (s : State) (c : Nat) (x : Ctx) : (s.setCtx c x).pending = s.pending := rfl

/-! ### modCtx -/

@[simp] theorem State.modCtx_pw (s : State) (c : Nat) (f : Ctx → Ctx) : (s.modCtx c f).pw = s.pw := rfl
@[simp] theorem State.modCtx_attic (s : State) (c : Nat) (f : Ctx → Ctx) : (s.modCtx c f).attic = s.attic := rfl
@[simp] theorem State.modCtx_img (s : State) (c : Nat) (f : Ctx → Ctx) : (s.modCtx c f).img = s.img := rfl
@[simp] theorem State.modCtx_qz (s : State) (c : Nat) (f : Ctx → Ctx) : (s.modCtx c f).qz = s.qz := rfl
@[simp] theorem State.modCtx_stats (s : State) (c : Nat) (f : Ctx → Ctx) : (s.modCtx c f).stats = s.stats := rfl
@[simp] theorem State.modCtx_fc (s : State) (c : Nat) (f : Ctx → Ctx) : (s.modCtx c f).fc = s.fc := rfl
@[simp] theorem State.modCtx_cellar (s : State) (c : Nat) (f : Ctx → Ctx) : (s.modCtx c f).cellar = s.cellar := rfl
@[simp] theorem State.modCtx_fuses (s : State) (c : Nat) (f : Ctx → Ctx) : (s.modCtx c f).fuses = s.fuses := rfl
@[simp] theorem State.modCtx_flint (s : State) (c : Nat) (f : Ctx → Ctx) : (s.modCtx c f).flint = s.flint := rfl
@[simp] theorem State.modCtx_jtag (s : State) (c : Nat) (f : Ctx → Ctx) : (s.modCtx c f).jtag = s.jtag := rfl
@[simp] theorem State.modCtx_linkUp (s : State) (c : Nat) (f : Ctx → Ctx) : (s.modCtx c f).linkUp = s.linkUp := rfl
@[simp] theorem State.modCtx_fns (s : State) (c : Nat) (f : Ctx → Ctx) : (s.modCtx c f).fns = s.fns := rfl
@[simp] theorem State.modCtx_qm (s : State) (c : Nat) (f : Ctx → Ctx) : (s.modCtx c f).qm = s.qm := rfl
@[simp] theorem State.modCtx_ovf (s : State) (c : Nat) (f : Ctx → Ctx) : (s.modCtx c f).ovf = s.ovf := rfl
@[simp] theorem State.modCtx_ovfWait (s : State) (c : Nat) (f : Ctx → Ctx) : (s.modCtx c f).ovfWait = s.ovfWait := rfl
@[simp] theorem State.modCtx_mbs (s : State) (c : Nat) (f : Ctx → Ctx) : (s.modCtx c f).mbs = s.mbs := rfl
@[simp] theorem State.modCtx_flash (s : State) (c : Nat) (f : Ctx → Ctx) : (s.modCtx c f).flash = s.flash := rfl
@[simp] theorem State.modCtx_hearths (s : State) (c : Nat) (f : Ctx → Ctx) : (s.modCtx c f).hearths = s.hearths := rfl
@[simp] theorem State.modCtx_ports (s : State) (c : Nat) (f : Ctx → Ctx) : (s.modCtx c f).ports = s.ports := rfl
@[simp] theorem State.modCtx_atts (s : State) (c : Nat) (f : Ctx → Ctx) : (s.modCtx c f).atts = s.atts := rfl
@[simp] theorem State.modCtx_pantry (s : State) (c : Nat) (f : Ctx → Ctx) : (s.modCtx c f).pantry = s.pantry := rfl
@[simp] theorem State.modCtx_dws (s : State) (c : Nat) (f : Ctx → Ctx) : (s.modCtx c f).dws = s.dws := rfl
@[simp] theorem State.modCtx_drives (s : State) (c : Nat) (f : Ctx → Ctx) : (s.modCtx c f).drives = s.drives := rfl
@[simp] theorem State.modCtx_lands (s : State) (c : Nat) (f : Ctx → Ctx) : (s.modCtx c f).lands = s.lands := rfl
@[simp] theorem State.modCtx_bias (s : State) (c : Nat) (f : Ctx → Ctx) : (s.modCtx c f).bias = s.bias := rfl
@[simp] theorem State.modCtx_landOrder (s : State) (c : Nat) (f : Ctx → Ctx) : (s.modCtx c f).landOrder = s.landOrder := rfl
@[simp] theorem State.modCtx_boiler (s : State) (c : Nat) (f : Ctx → Ctx) : (s.modCtx c f).boiler = s.boiler := rfl
@[simp] theorem State.modCtx_hostMem (s : State) (c : Nat) (f : Ctx → Ctx) : (s.modCtx c f).hostMem = s.hostMem := rfl
@[simp] theorem State.modCtx_out (s : State) (c : Nat) (f : Ctx → Ctx) : (s.modCtx c f).out = s.out := rfl
@[simp] theorem State.modCtx_free (s : State) (c : Nat) (f : Ctx → Ctx) : (s.modCtx c f).free = s.free := rfl
@[simp] theorem State.modCtx_pending (s : State) (c : Nat) (f : Ctx → Ctx) : (s.modCtx c f).pending = s.pending := rfl

/-! ### modFn -/

@[simp] theorem State.modFn_pw (s : State) (w : World) (f : Func → Func) : (s.modFn w f).pw = s.pw := rfl
@[simp] theorem State.modFn_attic (s : State) (w : World) (f : Func → Func) : (s.modFn w f).attic = s.attic := rfl
@[simp] theorem State.modFn_img (s : State) (w : World) (f : Func → Func) : (s.modFn w f).img = s.img := rfl
@[simp] theorem State.modFn_qz (s : State) (w : World) (f : Func → Func) : (s.modFn w f).qz = s.qz := rfl
@[simp] theorem State.modFn_stats (s : State) (w : World) (f : Func → Func) : (s.modFn w f).stats = s.stats := rfl
@[simp] theorem State.modFn_fc (s : State) (w : World) (f : Func → Func) : (s.modFn w f).fc = s.fc := rfl
@[simp] theorem State.modFn_cellar (s : State) (w : World) (f : Func → Func) : (s.modFn w f).cellar = s.cellar := rfl
@[simp] theorem State.modFn_fuses (s : State) (w : World) (f : Func → Func) : (s.modFn w f).fuses = s.fuses := rfl
@[simp] theorem State.modFn_flint (s : State) (w : World) (f : Func → Func) : (s.modFn w f).flint = s.flint := rfl
@[simp] theorem State.modFn_jtag (s : State) (w : World) (f : Func → Func) : (s.modFn w f).jtag = s.jtag := rfl
@[simp] theorem State.modFn_linkUp (s : State) (w : World) (f : Func → Func) : (s.modFn w f).linkUp = s.linkUp := rfl
@[simp] theorem State.modFn_qm (s : State) (w : World) (f : Func → Func) : (s.modFn w f).qm = s.qm := rfl
@[simp] theorem State.modFn_ovf (s : State) (w : World) (f : Func → Func) : (s.modFn w f).ovf = s.ovf := rfl
@[simp] theorem State.modFn_ovfWait (s : State) (w : World) (f : Func → Func) : (s.modFn w f).ovfWait = s.ovfWait := rfl
@[simp] theorem State.modFn_mbs (s : State) (w : World) (f : Func → Func) : (s.modFn w f).mbs = s.mbs := rfl
@[simp] theorem State.modFn_flash (s : State) (w : World) (f : Func → Func) : (s.modFn w f).flash = s.flash := rfl
@[simp] theorem State.modFn_hearths (s : State) (w : World) (f : Func → Func) : (s.modFn w f).hearths = s.hearths := rfl
@[simp] theorem State.modFn_ctxs (s : State) (w : World) (f : Func → Func) : (s.modFn w f).ctxs = s.ctxs := rfl
@[simp] theorem State.modFn_ports (s : State) (w : World) (f : Func → Func) : (s.modFn w f).ports = s.ports := rfl
@[simp] theorem State.modFn_atts (s : State) (w : World) (f : Func → Func) : (s.modFn w f).atts = s.atts := rfl
@[simp] theorem State.modFn_pantry (s : State) (w : World) (f : Func → Func) : (s.modFn w f).pantry = s.pantry := rfl
@[simp] theorem State.modFn_dws (s : State) (w : World) (f : Func → Func) : (s.modFn w f).dws = s.dws := rfl
@[simp] theorem State.modFn_drives (s : State) (w : World) (f : Func → Func) : (s.modFn w f).drives = s.drives := rfl
@[simp] theorem State.modFn_lands (s : State) (w : World) (f : Func → Func) : (s.modFn w f).lands = s.lands := rfl
@[simp] theorem State.modFn_bias (s : State) (w : World) (f : Func → Func) : (s.modFn w f).bias = s.bias := rfl
@[simp] theorem State.modFn_landOrder (s : State) (w : World) (f : Func → Func) : (s.modFn w f).landOrder = s.landOrder := rfl
@[simp] theorem State.modFn_boiler (s : State) (w : World) (f : Func → Func) : (s.modFn w f).boiler = s.boiler := rfl
@[simp] theorem State.modFn_hostMem (s : State) (w : World) (f : Func → Func) : (s.modFn w f).hostMem = s.hostMem := rfl
@[simp] theorem State.modFn_out (s : State) (w : World) (f : Func → Func) : (s.modFn w f).out = s.out := rfl
@[simp] theorem State.modFn_free (s : State) (w : World) (f : Func → Func) : (s.modFn w f).free = s.free := rfl
@[simp] theorem State.modFn_pending (s : State) (w : World) (f : Func → Func) : (s.modFn w f).pending = s.pending := rfl

/-! ### modSq -/

@[simp] theorem State.modSq_pw (s : State) (w : World) (q : Nat) (f : Sq → Sq) : (s.modSq w q f).pw = s.pw := rfl
@[simp] theorem State.modSq_attic (s : State) (w : World) (q : Nat) (f : Sq → Sq) : (s.modSq w q f).attic = s.attic := rfl
@[simp] theorem State.modSq_img (s : State) (w : World) (q : Nat) (f : Sq → Sq) : (s.modSq w q f).img = s.img := rfl
@[simp] theorem State.modSq_qz (s : State) (w : World) (q : Nat) (f : Sq → Sq) : (s.modSq w q f).qz = s.qz := rfl
@[simp] theorem State.modSq_stats (s : State) (w : World) (q : Nat) (f : Sq → Sq) : (s.modSq w q f).stats = s.stats := rfl
@[simp] theorem State.modSq_fc (s : State) (w : World) (q : Nat) (f : Sq → Sq) : (s.modSq w q f).fc = s.fc := rfl
@[simp] theorem State.modSq_cellar (s : State) (w : World) (q : Nat) (f : Sq → Sq) : (s.modSq w q f).cellar = s.cellar := rfl
@[simp] theorem State.modSq_fuses (s : State) (w : World) (q : Nat) (f : Sq → Sq) : (s.modSq w q f).fuses = s.fuses := rfl
@[simp] theorem State.modSq_flint (s : State) (w : World) (q : Nat) (f : Sq → Sq) : (s.modSq w q f).flint = s.flint := rfl
@[simp] theorem State.modSq_jtag (s : State) (w : World) (q : Nat) (f : Sq → Sq) : (s.modSq w q f).jtag = s.jtag := rfl
@[simp] theorem State.modSq_linkUp (s : State) (w : World) (q : Nat) (f : Sq → Sq) : (s.modSq w q f).linkUp = s.linkUp := rfl
@[simp] theorem State.modSq_fns (s : State) (w : World) (q : Nat) (f : Sq → Sq) : (s.modSq w q f).fns = s.fns := rfl
@[simp] theorem State.modSq_ovf (s : State) (w : World) (q : Nat) (f : Sq → Sq) : (s.modSq w q f).ovf = s.ovf := rfl
@[simp] theorem State.modSq_ovfWait (s : State) (w : World) (q : Nat) (f : Sq → Sq) : (s.modSq w q f).ovfWait = s.ovfWait := rfl
@[simp] theorem State.modSq_mbs (s : State) (w : World) (q : Nat) (f : Sq → Sq) : (s.modSq w q f).mbs = s.mbs := rfl
@[simp] theorem State.modSq_flash (s : State) (w : World) (q : Nat) (f : Sq → Sq) : (s.modSq w q f).flash = s.flash := rfl
@[simp] theorem State.modSq_hearths (s : State) (w : World) (q : Nat) (f : Sq → Sq) : (s.modSq w q f).hearths = s.hearths := rfl
@[simp] theorem State.modSq_ctxs (s : State) (w : World) (q : Nat) (f : Sq → Sq) : (s.modSq w q f).ctxs = s.ctxs := rfl
@[simp] theorem State.modSq_ports (s : State) (w : World) (q : Nat) (f : Sq → Sq) : (s.modSq w q f).ports = s.ports := rfl
@[simp] theorem State.modSq_atts (s : State) (w : World) (q : Nat) (f : Sq → Sq) : (s.modSq w q f).atts = s.atts := rfl
@[simp] theorem State.modSq_pantry (s : State) (w : World) (q : Nat) (f : Sq → Sq) : (s.modSq w q f).pantry = s.pantry := rfl
@[simp] theorem State.modSq_dws (s : State) (w : World) (q : Nat) (f : Sq → Sq) : (s.modSq w q f).dws = s.dws := rfl
@[simp] theorem State.modSq_drives (s : State) (w : World) (q : Nat) (f : Sq → Sq) : (s.modSq w q f).drives = s.drives := rfl
@[simp] theorem State.modSq_lands (s : State) (w : World) (q : Nat) (f : Sq → Sq) : (s.modSq w q f).lands = s.lands := rfl
@[simp] theorem State.modSq_bias (s : State) (w : World) (q : Nat) (f : Sq → Sq) : (s.modSq w q f).bias = s.bias := rfl
@[simp] theorem State.modSq_landOrder (s : State) (w : World) (q : Nat) (f : Sq → Sq) : (s.modSq w q f).landOrder = s.landOrder := rfl
@[simp] theorem State.modSq_boiler (s : State) (w : World) (q : Nat) (f : Sq → Sq) : (s.modSq w q f).boiler = s.boiler := rfl
@[simp] theorem State.modSq_hostMem (s : State) (w : World) (q : Nat) (f : Sq → Sq) : (s.modSq w q f).hostMem = s.hostMem := rfl
@[simp] theorem State.modSq_out (s : State) (w : World) (q : Nat) (f : Sq → Sq) : (s.modSq w q f).out = s.out := rfl
@[simp] theorem State.modSq_free (s : State) (w : World) (q : Nat) (f : Sq → Sq) : (s.modSq w q f).free = s.free := rfl
@[simp] theorem State.modSq_pending (s : State) (w : World) (q : Nat) (f : Sq → Sq) : (s.modSq w q f).pending = s.pending := rfl

/-! ### modCq -/

@[simp] theorem State.modCq_pw (s : State) (w : World) (q : Nat) (f : Cq → Cq) : (s.modCq w q f).pw = s.pw := rfl
@[simp] theorem State.modCq_attic (s : State) (w : World) (q : Nat) (f : Cq → Cq) : (s.modCq w q f).attic = s.attic := rfl
@[simp] theorem State.modCq_img (s : State) (w : World) (q : Nat) (f : Cq → Cq) : (s.modCq w q f).img = s.img := rfl
@[simp] theorem State.modCq_qz (s : State) (w : World) (q : Nat) (f : Cq → Cq) : (s.modCq w q f).qz = s.qz := rfl
@[simp] theorem State.modCq_stats (s : State) (w : World) (q : Nat) (f : Cq → Cq) : (s.modCq w q f).stats = s.stats := rfl
@[simp] theorem State.modCq_fc (s : State) (w : World) (q : Nat) (f : Cq → Cq) : (s.modCq w q f).fc = s.fc := rfl
@[simp] theorem State.modCq_cellar (s : State) (w : World) (q : Nat) (f : Cq → Cq) : (s.modCq w q f).cellar = s.cellar := rfl
@[simp] theorem State.modCq_fuses (s : State) (w : World) (q : Nat) (f : Cq → Cq) : (s.modCq w q f).fuses = s.fuses := rfl
@[simp] theorem State.modCq_flint (s : State) (w : World) (q : Nat) (f : Cq → Cq) : (s.modCq w q f).flint = s.flint := rfl
@[simp] theorem State.modCq_jtag (s : State) (w : World) (q : Nat) (f : Cq → Cq) : (s.modCq w q f).jtag = s.jtag := rfl
@[simp] theorem State.modCq_linkUp (s : State) (w : World) (q : Nat) (f : Cq → Cq) : (s.modCq w q f).linkUp = s.linkUp := rfl
@[simp] theorem State.modCq_fns (s : State) (w : World) (q : Nat) (f : Cq → Cq) : (s.modCq w q f).fns = s.fns := rfl
@[simp] theorem State.modCq_ovf (s : State) (w : World) (q : Nat) (f : Cq → Cq) : (s.modCq w q f).ovf = s.ovf := rfl
@[simp] theorem State.modCq_ovfWait (s : State) (w : World) (q : Nat) (f : Cq → Cq) : (s.modCq w q f).ovfWait = s.ovfWait := rfl
@[simp] theorem State.modCq_mbs (s : State) (w : World) (q : Nat) (f : Cq → Cq) : (s.modCq w q f).mbs = s.mbs := rfl
@[simp] theorem State.modCq_flash (s : State) (w : World) (q : Nat) (f : Cq → Cq) : (s.modCq w q f).flash = s.flash := rfl
@[simp] theorem State.modCq_hearths (s : State) (w : World) (q : Nat) (f : Cq → Cq) : (s.modCq w q f).hearths = s.hearths := rfl
@[simp] theorem State.modCq_ctxs (s : State) (w : World) (q : Nat) (f : Cq → Cq) : (s.modCq w q f).ctxs = s.ctxs := rfl
@[simp] theorem State.modCq_ports (s : State) (w : World) (q : Nat) (f : Cq → Cq) : (s.modCq w q f).ports = s.ports := rfl
@[simp] theorem State.modCq_atts (s : State) (w : World) (q : Nat) (f : Cq → Cq) : (s.modCq w q f).atts = s.atts := rfl
@[simp] theorem State.modCq_pantry (s : State) (w : World) (q : Nat) (f : Cq → Cq) : (s.modCq w q f).pantry = s.pantry := rfl
@[simp] theorem State.modCq_dws (s : State) (w : World) (q : Nat) (f : Cq → Cq) : (s.modCq w q f).dws = s.dws := rfl
@[simp] theorem State.modCq_drives (s : State) (w : World) (q : Nat) (f : Cq → Cq) : (s.modCq w q f).drives = s.drives := rfl
@[simp] theorem State.modCq_lands (s : State) (w : World) (q : Nat) (f : Cq → Cq) : (s.modCq w q f).lands = s.lands := rfl
@[simp] theorem State.modCq_bias (s : State) (w : World) (q : Nat) (f : Cq → Cq) : (s.modCq w q f).bias = s.bias := rfl
@[simp] theorem State.modCq_landOrder (s : State) (w : World) (q : Nat) (f : Cq → Cq) : (s.modCq w q f).landOrder = s.landOrder := rfl
@[simp] theorem State.modCq_boiler (s : State) (w : World) (q : Nat) (f : Cq → Cq) : (s.modCq w q f).boiler = s.boiler := rfl
@[simp] theorem State.modCq_hostMem (s : State) (w : World) (q : Nat) (f : Cq → Cq) : (s.modCq w q f).hostMem = s.hostMem := rfl
@[simp] theorem State.modCq_out (s : State) (w : World) (q : Nat) (f : Cq → Cq) : (s.modCq w q f).out = s.out := rfl
@[simp] theorem State.modCq_free (s : State) (w : World) (q : Nat) (f : Cq → Cq) : (s.modCq w q f).free = s.free := rfl
@[simp] theorem State.modCq_pending (s : State) (w : World) (q : Nat) (f : Cq → Cq) : (s.modCq w q f).pending = s.pending := rfl

/-! ### modPort -/

@[simp] theorem State.modPort_pw (s : State) (n : Nat) (f : Port → Port) : (s.modPort n f).pw = s.pw := rfl
@[simp] theorem State.modPort_attic (s : State) (n : Nat) (f : Port → Port) : (s.modPort n f).attic = s.attic := rfl
@[simp] theorem State.modPort_img (s : State) (n : Nat) (f : Port → Port) : (s.modPort n f).img = s.img := rfl
@[simp] theorem State.modPort_qz (s : State) (n : Nat) (f : Port → Port) : (s.modPort n f).qz = s.qz := rfl
@[simp] theorem State.modPort_stats (s : State) (n : Nat) (f : Port → Port) : (s.modPort n f).stats = s.stats := rfl
@[simp] theorem State.modPort_fc (s : State) (n : Nat) (f : Port → Port) : (s.modPort n f).fc = s.fc := rfl
@[simp] theorem State.modPort_cellar (s : State) (n : Nat) (f : Port → Port) : (s.modPort n f).cellar = s.cellar := rfl
@[simp] theorem State.modPort_fuses (s : State) (n : Nat) (f : Port → Port) : (s.modPort n f).fuses = s.fuses := rfl
@[simp] theorem State.modPort_flint (s : State) (n : Nat) (f : Port → Port) : (s.modPort n f).flint = s.flint := rfl
@[simp] theorem State.modPort_jtag (s : State) (n : Nat) (f : Port → Port) : (s.modPort n f).jtag = s.jtag := rfl
@[simp] theorem State.modPort_linkUp (s : State) (n : Nat) (f : Port → Port) : (s.modPort n f).linkUp = s.linkUp := rfl
@[simp] theorem State.modPort_fns (s : State) (n : Nat) (f : Port → Port) : (s.modPort n f).fns = s.fns := rfl
@[simp] theorem State.modPort_qm (s : State) (n : Nat) (f : Port → Port) : (s.modPort n f).qm = s.qm := rfl
@[simp] theorem State.modPort_ovf (s : State) (n : Nat) (f : Port → Port) : (s.modPort n f).ovf = s.ovf := rfl
@[simp] theorem State.modPort_ovfWait (s : State) (n : Nat) (f : Port → Port) : (s.modPort n f).ovfWait = s.ovfWait := rfl
@[simp] theorem State.modPort_mbs (s : State) (n : Nat) (f : Port → Port) : (s.modPort n f).mbs = s.mbs := rfl
@[simp] theorem State.modPort_flash (s : State) (n : Nat) (f : Port → Port) : (s.modPort n f).flash = s.flash := rfl
@[simp] theorem State.modPort_hearths (s : State) (n : Nat) (f : Port → Port) : (s.modPort n f).hearths = s.hearths := rfl
@[simp] theorem State.modPort_ctxs (s : State) (n : Nat) (f : Port → Port) : (s.modPort n f).ctxs = s.ctxs := rfl
@[simp] theorem State.modPort_atts (s : State) (n : Nat) (f : Port → Port) : (s.modPort n f).atts = s.atts := rfl
@[simp] theorem State.modPort_pantry (s : State) (n : Nat) (f : Port → Port) : (s.modPort n f).pantry = s.pantry := rfl
@[simp] theorem State.modPort_dws (s : State) (n : Nat) (f : Port → Port) : (s.modPort n f).dws = s.dws := rfl
@[simp] theorem State.modPort_drives (s : State) (n : Nat) (f : Port → Port) : (s.modPort n f).drives = s.drives := rfl
@[simp] theorem State.modPort_lands (s : State) (n : Nat) (f : Port → Port) : (s.modPort n f).lands = s.lands := rfl
@[simp] theorem State.modPort_bias (s : State) (n : Nat) (f : Port → Port) : (s.modPort n f).bias = s.bias := rfl
@[simp] theorem State.modPort_landOrder (s : State) (n : Nat) (f : Port → Port) : (s.modPort n f).landOrder = s.landOrder := rfl
@[simp] theorem State.modPort_boiler (s : State) (n : Nat) (f : Port → Port) : (s.modPort n f).boiler = s.boiler := rfl
@[simp] theorem State.modPort_hostMem (s : State) (n : Nat) (f : Port → Port) : (s.modPort n f).hostMem = s.hostMem := rfl
@[simp] theorem State.modPort_out (s : State) (n : Nat) (f : Port → Port) : (s.modPort n f).out = s.out := rfl
@[simp] theorem State.modPort_free (s : State) (n : Nat) (f : Port → Port) : (s.modPort n f).free = s.free := rfl
@[simp] theorem State.modPort_pending (s : State) (n : Nat) (f : Port → Port) : (s.modPort n f).pending = s.pending := rfl

/-! ### modAtt -/

@[simp] theorem State.modAtt_pw (s : State) (a : Nat) (f : Att → Att) : (s.modAtt a f).pw = s.pw := rfl
@[simp] theorem State.modAtt_attic (s : State) (a : Nat) (f : Att → Att) : (s.modAtt a f).attic = s.attic := rfl
@[simp] theorem State.modAtt_img (s : State) (a : Nat) (f : Att → Att) : (s.modAtt a f).img = s.img := rfl
@[simp] theorem State.modAtt_qz (s : State) (a : Nat) (f : Att → Att) : (s.modAtt a f).qz = s.qz := rfl
@[simp] theorem State.modAtt_stats (s : State) (a : Nat) (f : Att → Att) : (s.modAtt a f).stats = s.stats := rfl
@[simp] theorem State.modAtt_fc (s : State) (a : Nat) (f : Att → Att) : (s.modAtt a f).fc = s.fc := rfl
@[simp] theorem State.modAtt_cellar (s : State) (a : Nat) (f : Att → Att) : (s.modAtt a f).cellar = s.cellar := rfl
@[simp] theorem State.modAtt_fuses (s : State) (a : Nat) (f : Att → Att) : (s.modAtt a f).fuses = s.fuses := rfl
@[simp] theorem State.modAtt_flint (s : State) (a : Nat) (f : Att → Att) : (s.modAtt a f).flint = s.flint := rfl
@[simp] theorem State.modAtt_jtag (s : State) (a : Nat) (f : Att → Att) : (s.modAtt a f).jtag = s.jtag := rfl
@[simp] theorem State.modAtt_linkUp (s : State) (a : Nat) (f : Att → Att) : (s.modAtt a f).linkUp = s.linkUp := rfl
@[simp] theorem State.modAtt_fns (s : State) (a : Nat) (f : Att → Att) : (s.modAtt a f).fns = s.fns := rfl
@[simp] theorem State.modAtt_qm (s : State) (a : Nat) (f : Att → Att) : (s.modAtt a f).qm = s.qm := rfl
@[simp] theorem State.modAtt_ovf (s : State) (a : Nat) (f : Att → Att) : (s.modAtt a f).ovf = s.ovf := rfl
@[simp] theorem State.modAtt_ovfWait (s : State) (a : Nat) (f : Att → Att) : (s.modAtt a f).ovfWait = s.ovfWait := rfl
@[simp] theorem State.modAtt_mbs (s : State) (a : Nat) (f : Att → Att) : (s.modAtt a f).mbs = s.mbs := rfl
@[simp] theorem State.modAtt_flash (s : State) (a : Nat) (f : Att → Att) : (s.modAtt a f).flash = s.flash := rfl
@[simp] theorem State.modAtt_hearths (s : State) (a : Nat) (f : Att → Att) : (s.modAtt a f).hearths = s.hearths := rfl
@[simp] theorem State.modAtt_ctxs (s : State) (a : Nat) (f : Att → Att) : (s.modAtt a f).ctxs = s.ctxs := rfl
@[simp] theorem State.modAtt_ports (s : State) (a : Nat) (f : Att → Att) : (s.modAtt a f).ports = s.ports := rfl
@[simp] theorem State.modAtt_pantry (s : State) (a : Nat) (f : Att → Att) : (s.modAtt a f).pantry = s.pantry := rfl
@[simp] theorem State.modAtt_dws (s : State) (a : Nat) (f : Att → Att) : (s.modAtt a f).dws = s.dws := rfl
@[simp] theorem State.modAtt_drives (s : State) (a : Nat) (f : Att → Att) : (s.modAtt a f).drives = s.drives := rfl
@[simp] theorem State.modAtt_lands (s : State) (a : Nat) (f : Att → Att) : (s.modAtt a f).lands = s.lands := rfl
@[simp] theorem State.modAtt_bias (s : State) (a : Nat) (f : Att → Att) : (s.modAtt a f).bias = s.bias := rfl
@[simp] theorem State.modAtt_landOrder (s : State) (a : Nat) (f : Att → Att) : (s.modAtt a f).landOrder = s.landOrder := rfl
@[simp] theorem State.modAtt_boiler (s : State) (a : Nat) (f : Att → Att) : (s.modAtt a f).boiler = s.boiler := rfl
@[simp] theorem State.modAtt_hostMem (s : State) (a : Nat) (f : Att → Att) : (s.modAtt a f).hostMem = s.hostMem := rfl
@[simp] theorem State.modAtt_out (s : State) (a : Nat) (f : Att → Att) : (s.modAtt a f).out = s.out := rfl
@[simp] theorem State.modAtt_free (s : State) (a : Nat) (f : Att → Att) : (s.modAtt a f).free = s.free := rfl
@[simp] theorem State.modAtt_pending (s : State) (a : Nat) (f : Att → Att) : (s.modAtt a f).pending = s.pending := rfl

/-! ### modDrive -/

@[simp] theorem State.modDrive_pw (s : State) (n : Nat) (f : Drive → Drive) : (s.modDrive n f).pw = s.pw := rfl
@[simp] theorem State.modDrive_attic (s : State) (n : Nat) (f : Drive → Drive) : (s.modDrive n f).attic = s.attic := rfl
@[simp] theorem State.modDrive_img (s : State) (n : Nat) (f : Drive → Drive) : (s.modDrive n f).img = s.img := rfl
@[simp] theorem State.modDrive_qz (s : State) (n : Nat) (f : Drive → Drive) : (s.modDrive n f).qz = s.qz := rfl
@[simp] theorem State.modDrive_stats (s : State) (n : Nat) (f : Drive → Drive) : (s.modDrive n f).stats = s.stats := rfl
@[simp] theorem State.modDrive_fc (s : State) (n : Nat) (f : Drive → Drive) : (s.modDrive n f).fc = s.fc := rfl
@[simp] theorem State.modDrive_cellar (s : State) (n : Nat) (f : Drive → Drive) : (s.modDrive n f).cellar = s.cellar := rfl
@[simp] theorem State.modDrive_fuses (s : State) (n : Nat) (f : Drive → Drive) : (s.modDrive n f).fuses = s.fuses := rfl
@[simp] theorem State.modDrive_flint (s : State) (n : Nat) (f : Drive → Drive) : (s.modDrive n f).flint = s.flint := rfl
@[simp] theorem State.modDrive_jtag (s : State) (n : Nat) (f : Drive → Drive) : (s.modDrive n f).jtag = s.jtag := rfl
@[simp] theorem State.modDrive_linkUp (s : State) (n : Nat) (f : Drive → Drive) : (s.modDrive n f).linkUp = s.linkUp := rfl
@[simp] theorem State.modDrive_fns (s : State) (n : Nat) (f : Drive → Drive) : (s.modDrive n f).fns = s.fns := rfl
@[simp] theorem State.modDrive_qm (s : State) (n : Nat) (f : Drive → Drive) : (s.modDrive n f).qm = s.qm := rfl
@[simp] theorem State.modDrive_ovf (s : State) (n : Nat) (f : Drive → Drive) : (s.modDrive n f).ovf = s.ovf := rfl
@[simp] theorem State.modDrive_ovfWait (s : State) (n : Nat) (f : Drive → Drive) : (s.modDrive n f).ovfWait = s.ovfWait := rfl
@[simp] theorem State.modDrive_mbs (s : State) (n : Nat) (f : Drive → Drive) : (s.modDrive n f).mbs = s.mbs := rfl
@[simp] theorem State.modDrive_flash (s : State) (n : Nat) (f : Drive → Drive) : (s.modDrive n f).flash = s.flash := rfl
@[simp] theorem State.modDrive_hearths (s : State) (n : Nat) (f : Drive → Drive) : (s.modDrive n f).hearths = s.hearths := rfl
@[simp] theorem State.modDrive_ctxs (s : State) (n : Nat) (f : Drive → Drive) : (s.modDrive n f).ctxs = s.ctxs := rfl
@[simp] theorem State.modDrive_ports (s : State) (n : Nat) (f : Drive → Drive) : (s.modDrive n f).ports = s.ports := rfl
@[simp] theorem State.modDrive_atts (s : State) (n : Nat) (f : Drive → Drive) : (s.modDrive n f).atts = s.atts := rfl
@[simp] theorem State.modDrive_pantry (s : State) (n : Nat) (f : Drive → Drive) : (s.modDrive n f).pantry = s.pantry := rfl
@[simp] theorem State.modDrive_dws (s : State) (n : Nat) (f : Drive → Drive) : (s.modDrive n f).dws = s.dws := rfl
@[simp] theorem State.modDrive_lands (s : State) (n : Nat) (f : Drive → Drive) : (s.modDrive n f).lands = s.lands := rfl
@[simp] theorem State.modDrive_bias (s : State) (n : Nat) (f : Drive → Drive) : (s.modDrive n f).bias = s.bias := rfl
@[simp] theorem State.modDrive_landOrder (s : State) (n : Nat) (f : Drive → Drive) : (s.modDrive n f).landOrder = s.landOrder := rfl
@[simp] theorem State.modDrive_boiler (s : State) (n : Nat) (f : Drive → Drive) : (s.modDrive n f).boiler = s.boiler := rfl
@[simp] theorem State.modDrive_hostMem (s : State) (n : Nat) (f : Drive → Drive) : (s.modDrive n f).hostMem = s.hostMem := rfl
@[simp] theorem State.modDrive_out (s : State) (n : Nat) (f : Drive → Drive) : (s.modDrive n f).out = s.out := rfl
@[simp] theorem State.modDrive_free (s : State) (n : Nat) (f : Drive → Drive) : (s.modDrive n f).free = s.free := rfl
@[simp] theorem State.modDrive_pending (s : State) (n : Nat) (f : Drive → Drive) : (s.modDrive n f).pending = s.pending := rfl

/-! ### modDw -/

@[simp] theorem State.modDw_pw (s : State) (e : Nat) (f : Dw → Dw) : (s.modDw e f).pw = s.pw := rfl
@[simp] theorem State.modDw_attic (s : State) (e : Nat) (f : Dw → Dw) : (s.modDw e f).attic = s.attic := rfl
@[simp] theorem State.modDw_img (s : State) (e : Nat) (f : Dw → Dw) : (s.modDw e f).img = s.img := rfl
@[simp] theorem State.modDw_qz (s : State) (e : Nat) (f : Dw → Dw) : (s.modDw e f).qz = s.qz := rfl
@[simp] theorem State.modDw_stats (s : State) (e : Nat) (f : Dw → Dw) : (s.modDw e f).stats = s.stats := rfl
@[simp] theorem State.modDw_fc (s : State) (e : Nat) (f : Dw → Dw) : (s.modDw e f).fc = s.fc := rfl
@[simp] theorem State.modDw_cellar (s : State) (e : Nat) (f : Dw → Dw) : (s.modDw e f).cellar = s.cellar := rfl
@[simp] theorem State.modDw_fuses (s : State) (e : Nat) (f : Dw → Dw) : (s.modDw e f).fuses = s.fuses := rfl
@[simp] theorem State.modDw_flint (s : State) (e : Nat) (f : Dw → Dw) : (s.modDw e f).flint = s.flint := rfl
@[simp] theorem State.modDw_jtag (s : State) (e : Nat) (f : Dw → Dw) : (s.modDw e f).jtag = s.jtag := rfl
@[simp] theorem State.modDw_linkUp (s : State) (e : Nat) (f : Dw → Dw) : (s.modDw e f).linkUp = s.linkUp := rfl
@[simp] theorem State.modDw_fns (s : State) (e : Nat) (f : Dw → Dw) : (s.modDw e f).fns = s.fns := rfl
@[simp] theorem State.modDw_qm (s : State) (e : Nat) (f : Dw → Dw) : (s.modDw e f).qm = s.qm := rfl
@[simp] theorem State.modDw_ovf (s : State) (e : Nat) (f : Dw → Dw) : (s.modDw e f).ovf = s.ovf := rfl
@[simp] theorem State.modDw_ovfWait (s : State) (e : Nat) (f : Dw → Dw) : (s.modDw e f).ovfWait = s.ovfWait := rfl
@[simp] theorem State.modDw_mbs (s : State) (e : Nat) (f : Dw → Dw) : (s.modDw e f).mbs = s.mbs := rfl
@[simp] theorem State.modDw_flash (s : State) (e : Nat) (f : Dw → Dw) : (s.modDw e f).flash = s.flash := rfl
@[simp] theorem State.modDw_hearths (s : State) (e : Nat) (f : Dw → Dw) : (s.modDw e f).hearths = s.hearths := rfl
@[simp] theorem State.modDw_ctxs (s : State) (e : Nat) (f : Dw → Dw) : (s.modDw e f).ctxs = s.ctxs := rfl
@[simp] theorem State.modDw_ports (s : State) (e : Nat) (f : Dw → Dw) : (s.modDw e f).ports = s.ports := rfl
@[simp] theorem State.modDw_atts (s : State) (e : Nat) (f : Dw → Dw) : (s.modDw e f).atts = s.atts := rfl
@[simp] theorem State.modDw_pantry (s : State) (e : Nat) (f : Dw → Dw) : (s.modDw e f).pantry = s.pantry := rfl
@[simp] theorem State.modDw_drives (s : State) (e : Nat) (f : Dw → Dw) : (s.modDw e f).drives = s.drives := rfl
@[simp] theorem State.modDw_lands (s : State) (e : Nat) (f : Dw → Dw) : (s.modDw e f).lands = s.lands := rfl
@[simp] theorem State.modDw_bias (s : State) (e : Nat) (f : Dw → Dw) : (s.modDw e f).bias = s.bias := rfl
@[simp] theorem State.modDw_landOrder (s : State) (e : Nat) (f : Dw → Dw) : (s.modDw e f).landOrder = s.landOrder := rfl
@[simp] theorem State.modDw_boiler (s : State) (e : Nat) (f : Dw → Dw) : (s.modDw e f).boiler = s.boiler := rfl
@[simp] theorem State.modDw_hostMem (s : State) (e : Nat) (f : Dw → Dw) : (s.modDw e f).hostMem = s.hostMem := rfl
@[simp] theorem State.modDw_out (s : State) (e : Nat) (f : Dw → Dw) : (s.modDw e f).out = s.out := rfl
@[simp] theorem State.modDw_free (s : State) (e : Nat) (f : Dw → Dw) : (s.modDw e f).free = s.free := rfl
@[simp] theorem State.modDw_pending (s : State) (e : Nat) (f : Dw → Dw) : (s.modDw e f).pending = s.pending := rfl

/-! ### modMb -/

@[simp] theorem State.modMb_pw (s : State) (m : Nat) (f : Mailbox → Mailbox) : (s.modMb m f).pw = s.pw := rfl
@[simp] theorem State.modMb_attic (s : State) (m : Nat) (f : Mailbox → Mailbox) : (s.modMb m f).attic = s.attic := rfl
@[simp] theorem State.modMb_img (s : State) (m : Nat) (f : Mailbox → Mailbox) : (s.modMb m f).img = s.img := rfl
@[simp] theorem State.modMb_qz (s : State) (m : Nat) (f : Mailbox → Mailbox) : (s.modMb m f).qz = s.qz := rfl
@[simp] theorem State.modMb_stats (s : State) (m : Nat) (f : Mailbox → Mailbox) : (s.modMb m f).stats = s.stats := rfl
@[simp] theorem State.modMb_fc (s : State) (m : Nat) (f : Mailbox → Mailbox) : (s.modMb m f).fc = s.fc := rfl
@[simp] theorem State.modMb_cellar (s : State) (m : Nat) (f : Mailbox → Mailbox) : (s.modMb m f).cellar = s.cellar := rfl
@[simp] theorem State.modMb_fuses (s : State) (m : Nat) (f : Mailbox → Mailbox) : (s.modMb m f).fuses = s.fuses := rfl
@[simp] theorem State.modMb_flint (s : State) (m : Nat) (f : Mailbox → Mailbox) : (s.modMb m f).flint = s.flint := rfl
@[simp] theorem State.modMb_jtag (s : State) (m : Nat) (f : Mailbox → Mailbox) : (s.modMb m f).jtag = s.jtag := rfl
@[simp] theorem State.modMb_linkUp (s : State) (m : Nat) (f : Mailbox → Mailbox) : (s.modMb m f).linkUp = s.linkUp := rfl
@[simp] theorem State.modMb_fns (s : State) (m : Nat) (f : Mailbox → Mailbox) : (s.modMb m f).fns = s.fns := rfl
@[simp] theorem State.modMb_qm (s : State) (m : Nat) (f : Mailbox → Mailbox) : (s.modMb m f).qm = s.qm := rfl
@[simp] theorem State.modMb_ovf (s : State) (m : Nat) (f : Mailbox → Mailbox) : (s.modMb m f).ovf = s.ovf := rfl
@[simp] theorem State.modMb_ovfWait (s : State) (m : Nat) (f : Mailbox → Mailbox) : (s.modMb m f).ovfWait = s.ovfWait := rfl
@[simp] theorem State.modMb_flash (s : State) (m : Nat) (f : Mailbox → Mailbox) : (s.modMb m f).flash = s.flash := rfl
@[simp] theorem State.modMb_hearths (s : State) (m : Nat) (f : Mailbox → Mailbox) : (s.modMb m f).hearths = s.hearths := rfl
@[simp] theorem State.modMb_ctxs (s : State) (m : Nat) (f : Mailbox → Mailbox) : (s.modMb m f).ctxs = s.ctxs := rfl
@[simp] theorem State.modMb_ports (s : State) (m : Nat) (f : Mailbox → Mailbox) : (s.modMb m f).ports = s.ports := rfl
@[simp] theorem State.modMb_atts (s : State) (m : Nat) (f : Mailbox → Mailbox) : (s.modMb m f).atts = s.atts := rfl
@[simp] theorem State.modMb_pantry (s : State) (m : Nat) (f : Mailbox → Mailbox) : (s.modMb m f).pantry = s.pantry := rfl
@[simp] theorem State.modMb_dws (s : State) (m : Nat) (f : Mailbox → Mailbox) : (s.modMb m f).dws = s.dws := rfl
@[simp] theorem State.modMb_drives (s : State) (m : Nat) (f : Mailbox → Mailbox) : (s.modMb m f).drives = s.drives := rfl
@[simp] theorem State.modMb_lands (s : State) (m : Nat) (f : Mailbox → Mailbox) : (s.modMb m f).lands = s.lands := rfl
@[simp] theorem State.modMb_bias (s : State) (m : Nat) (f : Mailbox → Mailbox) : (s.modMb m f).bias = s.bias := rfl
@[simp] theorem State.modMb_landOrder (s : State) (m : Nat) (f : Mailbox → Mailbox) : (s.modMb m f).landOrder = s.landOrder := rfl
@[simp] theorem State.modMb_boiler (s : State) (m : Nat) (f : Mailbox → Mailbox) : (s.modMb m f).boiler = s.boiler := rfl
@[simp] theorem State.modMb_hostMem (s : State) (m : Nat) (f : Mailbox → Mailbox) : (s.modMb m f).hostMem = s.hostMem := rfl
@[simp] theorem State.modMb_out (s : State) (m : Nat) (f : Mailbox → Mailbox) : (s.modMb m f).out = s.out := rfl
@[simp] theorem State.modMb_free (s : State) (m : Nat) (f : Mailbox → Mailbox) : (s.modMb m f).free = s.free := rfl
@[simp] theorem State.modMb_pending (s : State) (m : Nat) (f : Mailbox → Mailbox) : (s.modMb m f).pending = s.pending := rfl

/-! ### modCmp -/

@[simp] theorem State.modCmp_pw (s : State) (u : Nat) (f : CmpUnit → CmpUnit) : (s.modCmp u f).pw = s.pw := rfl
@[simp] theorem State.modCmp_attic (s : State) (u : Nat) (f : CmpUnit → CmpUnit) : (s.modCmp u f).attic = s.attic := rfl
@[simp] theorem State.modCmp_img (s : State) (u : Nat) (f : CmpUnit → CmpUnit) : (s.modCmp u f).img = s.img := rfl
@[simp] theorem State.modCmp_stats (s : State) (u : Nat) (f : CmpUnit → CmpUnit) : (s.modCmp u f).stats = s.stats := rfl
@[simp] theorem State.modCmp_fc (s : State) (u : Nat) (f : CmpUnit → CmpUnit) : (s.modCmp u f).fc = s.fc := rfl
@[simp] theorem State.modCmp_cellar (s : State) (u : Nat) (f : CmpUnit → CmpUnit) : (s.modCmp u f).cellar = s.cellar := rfl
@[simp] theorem State.modCmp_fuses (s : State) (u : Nat) (f : CmpUnit → CmpUnit) : (s.modCmp u f).fuses = s.fuses := rfl
@[simp] theorem State.modCmp_flint (s : State) (u : Nat) (f : CmpUnit → CmpUnit) : (s.modCmp u f).flint = s.flint := rfl
@[simp] theorem State.modCmp_jtag (s : State) (u : Nat) (f : CmpUnit → CmpUnit) : (s.modCmp u f).jtag = s.jtag := rfl
@[simp] theorem State.modCmp_linkUp (s : State) (u : Nat) (f : CmpUnit → CmpUnit) : (s.modCmp u f).linkUp = s.linkUp := rfl
@[simp] theorem State.modCmp_fns (s : State) (u : Nat) (f : CmpUnit → CmpUnit) : (s.modCmp u f).fns = s.fns := rfl
@[simp] theorem State.modCmp_qm (s : State) (u : Nat) (f : CmpUnit → CmpUnit) : (s.modCmp u f).qm = s.qm := rfl
@[simp] theorem State.modCmp_ovf (s : State) (u : Nat) (f : CmpUnit → CmpUnit) : (s.modCmp u f).ovf = s.ovf := rfl
@[simp] theorem State.modCmp_ovfWait (s : State) (u : Nat) (f : CmpUnit → CmpUnit) : (s.modCmp u f).ovfWait = s.ovfWait := rfl
@[simp] theorem State.modCmp_mbs (s : State) (u : Nat) (f : CmpUnit → CmpUnit) : (s.modCmp u f).mbs = s.mbs := rfl
@[simp] theorem State.modCmp_flash (s : State) (u : Nat) (f : CmpUnit → CmpUnit) : (s.modCmp u f).flash = s.flash := rfl
@[simp] theorem State.modCmp_hearths (s : State) (u : Nat) (f : CmpUnit → CmpUnit) : (s.modCmp u f).hearths = s.hearths := rfl
@[simp] theorem State.modCmp_ctxs (s : State) (u : Nat) (f : CmpUnit → CmpUnit) : (s.modCmp u f).ctxs = s.ctxs := rfl
@[simp] theorem State.modCmp_ports (s : State) (u : Nat) (f : CmpUnit → CmpUnit) : (s.modCmp u f).ports = s.ports := rfl
@[simp] theorem State.modCmp_atts (s : State) (u : Nat) (f : CmpUnit → CmpUnit) : (s.modCmp u f).atts = s.atts := rfl
@[simp] theorem State.modCmp_pantry (s : State) (u : Nat) (f : CmpUnit → CmpUnit) : (s.modCmp u f).pantry = s.pantry := rfl
@[simp] theorem State.modCmp_dws (s : State) (u : Nat) (f : CmpUnit → CmpUnit) : (s.modCmp u f).dws = s.dws := rfl
@[simp] theorem State.modCmp_drives (s : State) (u : Nat) (f : CmpUnit → CmpUnit) : (s.modCmp u f).drives = s.drives := rfl
@[simp] theorem State.modCmp_lands (s : State) (u : Nat) (f : CmpUnit → CmpUnit) : (s.modCmp u f).lands = s.lands := rfl
@[simp] theorem State.modCmp_bias (s : State) (u : Nat) (f : CmpUnit → CmpUnit) : (s.modCmp u f).bias = s.bias := rfl
@[simp] theorem State.modCmp_landOrder (s : State) (u : Nat) (f : CmpUnit → CmpUnit) : (s.modCmp u f).landOrder = s.landOrder := rfl
@[simp] theorem State.modCmp_boiler (s : State) (u : Nat) (f : CmpUnit → CmpUnit) : (s.modCmp u f).boiler = s.boiler := rfl
@[simp] theorem State.modCmp_hostMem (s : State) (u : Nat) (f : CmpUnit → CmpUnit) : (s.modCmp u f).hostMem = s.hostMem := rfl
@[simp] theorem State.modCmp_out (s : State) (u : Nat) (f : CmpUnit → CmpUnit) : (s.modCmp u f).out = s.out := rfl
@[simp] theorem State.modCmp_free (s : State) (u : Nat) (f : CmpUnit → CmpUnit) : (s.modCmp u f).free = s.free := rfl
@[simp] theorem State.modCmp_pending (s : State) (u : Nat) (f : CmpUnit → CmpUnit) : (s.modCmp u f).pending = s.pending := rfl

/-! ### modPn -/

@[simp] theorem State.modPn_pantry (s : State) (f : Pantry → Pantry) : (s.modPn f).pantry = f s.pantry := rfl
@[simp] theorem State.modPn_pw (s : State) (f : Pantry → Pantry) : (s.modPn f).pw = s.pw := rfl
@[simp] theorem State.modPn_attic (s : State) (f : Pantry → Pantry) : (s.modPn f).attic = s.attic := rfl
@[simp] theorem State.modPn_img (s : State) (f : Pantry → Pantry) : (s.modPn f).img = s.img := rfl
@[simp] theorem State.modPn_qz (s : State) (f : Pantry → Pantry) : (s.modPn f).qz = s.qz := rfl
@[simp] theorem State.modPn_stats (s : State) (f : Pantry → Pantry) : (s.modPn f).stats = s.stats := rfl
@[simp] theorem State.modPn_fc (s : State) (f : Pantry → Pantry) : (s.modPn f).fc = s.fc := rfl
@[simp] theorem State.modPn_cellar (s : State) (f : Pantry → Pantry) : (s.modPn f).cellar = s.cellar := rfl
@[simp] theorem State.modPn_fuses (s : State) (f : Pantry → Pantry) : (s.modPn f).fuses = s.fuses := rfl
@[simp] theorem State.modPn_flint (s : State) (f : Pantry → Pantry) : (s.modPn f).flint = s.flint := rfl
@[simp] theorem State.modPn_jtag (s : State) (f : Pantry → Pantry) : (s.modPn f).jtag = s.jtag := rfl
@[simp] theorem State.modPn_linkUp (s : State) (f : Pantry → Pantry) : (s.modPn f).linkUp = s.linkUp := rfl
@[simp] theorem State.modPn_fns (s : State) (f : Pantry → Pantry) : (s.modPn f).fns = s.fns := rfl
@[simp] theorem State.modPn_qm (s : State) (f : Pantry → Pantry) : (s.modPn f).qm = s.qm := rfl
@[simp] theorem State.modPn_ovf (s : State) (f : Pantry → Pantry) : (s.modPn f).ovf = s.ovf := rfl
@[simp] theorem State.modPn_ovfWait (s : State) (f : Pantry → Pantry) : (s.modPn f).ovfWait = s.ovfWait := rfl
@[simp] theorem State.modPn_mbs (s : State) (f : Pantry → Pantry) : (s.modPn f).mbs = s.mbs := rfl
@[simp] theorem State.modPn_flash (s : State) (f : Pantry → Pantry) : (s.modPn f).flash = s.flash := rfl
@[simp] theorem State.modPn_hearths (s : State) (f : Pantry → Pantry) : (s.modPn f).hearths = s.hearths := rfl
@[simp] theorem State.modPn_ctxs (s : State) (f : Pantry → Pantry) : (s.modPn f).ctxs = s.ctxs := rfl
@[simp] theorem State.modPn_ports (s : State) (f : Pantry → Pantry) : (s.modPn f).ports = s.ports := rfl
@[simp] theorem State.modPn_atts (s : State) (f : Pantry → Pantry) : (s.modPn f).atts = s.atts := rfl
@[simp] theorem State.modPn_dws (s : State) (f : Pantry → Pantry) : (s.modPn f).dws = s.dws := rfl
@[simp] theorem State.modPn_drives (s : State) (f : Pantry → Pantry) : (s.modPn f).drives = s.drives := rfl
@[simp] theorem State.modPn_lands (s : State) (f : Pantry → Pantry) : (s.modPn f).lands = s.lands := rfl
@[simp] theorem State.modPn_bias (s : State) (f : Pantry → Pantry) : (s.modPn f).bias = s.bias := rfl
@[simp] theorem State.modPn_landOrder (s : State) (f : Pantry → Pantry) : (s.modPn f).landOrder = s.landOrder := rfl
@[simp] theorem State.modPn_boiler (s : State) (f : Pantry → Pantry) : (s.modPn f).boiler = s.boiler := rfl
@[simp] theorem State.modPn_hostMem (s : State) (f : Pantry → Pantry) : (s.modPn f).hostMem = s.hostMem := rfl
@[simp] theorem State.modPn_out (s : State) (f : Pantry → Pantry) : (s.modPn f).out = s.out := rfl
@[simp] theorem State.modPn_free (s : State) (f : Pantry → Pantry) : (s.modPn f).free = s.free := rfl
@[simp] theorem State.modPn_pending (s : State) (f : Pantry → Pantry) : (s.modPn f).pending = s.pending := rfl

/-! ### modBl -/

@[simp] theorem State.modBl_boiler (s : State) (f : Boiler → Boiler) : (s.modBl f).boiler = f s.boiler := rfl
@[simp] theorem State.modBl_pw (s : State) (f : Boiler → Boiler) : (s.modBl f).pw = s.pw := rfl
@[simp] theorem State.modBl_attic (s : State) (f : Boiler → Boiler) : (s.modBl f).attic = s.attic := rfl
@[simp] theorem State.modBl_img (s : State) (f : Boiler → Boiler) : (s.modBl f).img = s.img := rfl
@[simp] theorem State.modBl_qz (s : State) (f : Boiler → Boiler) : (s.modBl f).qz = s.qz := rfl
@[simp] theorem State.modBl_stats (s : State) (f : Boiler → Boiler) : (s.modBl f).stats = s.stats := rfl
@[simp] theorem State.modBl_fc (s : State) (f : Boiler → Boiler) : (s.modBl f).fc = s.fc := rfl
@[simp] theorem State.modBl_cellar (s : State) (f : Boiler → Boiler) : (s.modBl f).cellar = s.cellar := rfl
@[simp] theorem State.modBl_fuses (s : State) (f : Boiler → Boiler) : (s.modBl f).fuses = s.fuses := rfl
@[simp] theorem State.modBl_flint (s : State) (f : Boiler → Boiler) : (s.modBl f).flint = s.flint := rfl
@[simp] theorem State.modBl_jtag (s : State) (f : Boiler → Boiler) : (s.modBl f).jtag = s.jtag := rfl
@[simp] theorem State.modBl_linkUp (s : State) (f : Boiler → Boiler) : (s.modBl f).linkUp = s.linkUp := rfl
@[simp] theorem State.modBl_fns (s : State) (f : Boiler → Boiler) : (s.modBl f).fns = s.fns := rfl
@[simp] theorem State.modBl_qm (s : State) (f : Boiler → Boiler) : (s.modBl f).qm = s.qm := rfl
@[simp] theorem State.modBl_ovf (s : State) (f : Boiler → Boiler) : (s.modBl f).ovf = s.ovf := rfl
@[simp] theorem State.modBl_ovfWait (s : State) (f : Boiler → Boiler) : (s.modBl f).ovfWait = s.ovfWait := rfl
@[simp] theorem State.modBl_mbs (s : State) (f : Boiler → Boiler) : (s.modBl f).mbs = s.mbs := rfl
@[simp] theorem State.modBl_flash (s : State) (f : Boiler → Boiler) : (s.modBl f).flash = s.flash := rfl
@[simp] theorem State.modBl_hearths (s : State) (f : Boiler → Boiler) : (s.modBl f).hearths = s.hearths := rfl
@[simp] theorem State.modBl_ctxs (s : State) (f : Boiler → Boiler) : (s.modBl f).ctxs = s.ctxs := rfl
@[simp] theorem State.modBl_ports (s : State) (f : Boiler → Boiler) : (s.modBl f).ports = s.ports := rfl
@[simp] theorem State.modBl_atts (s : State) (f : Boiler → Boiler) : (s.modBl f).atts = s.atts := rfl
@[simp] theorem State.modBl_pantry (s : State) (f : Boiler → Boiler) : (s.modBl f).pantry = s.pantry := rfl
@[simp] theorem State.modBl_dws (s : State) (f : Boiler → Boiler) : (s.modBl f).dws = s.dws := rfl
@[simp] theorem State.modBl_drives (s : State) (f : Boiler → Boiler) : (s.modBl f).drives = s.drives := rfl
@[simp] theorem State.modBl_lands (s : State) (f : Boiler → Boiler) : (s.modBl f).lands = s.lands := rfl
@[simp] theorem State.modBl_bias (s : State) (f : Boiler → Boiler) : (s.modBl f).bias = s.bias := rfl
@[simp] theorem State.modBl_landOrder (s : State) (f : Boiler → Boiler) : (s.modBl f).landOrder = s.landOrder := rfl
@[simp] theorem State.modBl_hostMem (s : State) (f : Boiler → Boiler) : (s.modBl f).hostMem = s.hostMem := rfl
@[simp] theorem State.modBl_out (s : State) (f : Boiler → Boiler) : (s.modBl f).out = s.out := rfl
@[simp] theorem State.modBl_free (s : State) (f : Boiler → Boiler) : (s.modBl f).free = s.free := rfl
@[simp] theorem State.modBl_pending (s : State) (f : Boiler → Boiler) : (s.modBl f).pending = s.pending := rfl

/-! ### modLanding -/

@[simp] theorem State.modLanding_pw (s : State) (k : Nat) (f : Landing → Landing) : (s.modLanding k f).pw = s.pw := rfl
@[simp] theorem State.modLanding_attic (s : State) (k : Nat) (f : Landing → Landing) : (s.modLanding k f).attic = s.attic := rfl
@[simp] theorem State.modLanding_img (s : State) (k : Nat) (f : Landing → Landing) : (s.modLanding k f).img = s.img := rfl
@[simp] theorem State.modLanding_qz (s : State) (k : Nat) (f : Landing → Landing) : (s.modLanding k f).qz = s.qz := rfl
@[simp] theorem State.modLanding_stats (s : State) (k : Nat) (f : Landing → Landing) : (s.modLanding k f).stats = s.stats := rfl
@[simp] theorem State.modLanding_fc (s : State) (k : Nat) (f : Landing → Landing) : (s.modLanding k f).fc = s.fc := rfl
@[simp] theorem State.modLanding_cellar (s : State) (k : Nat) (f : Landing → Landing) : (s.modLanding k f).cellar = s.cellar := rfl
@[simp] theorem State.modLanding_fuses (s : State) (k : Nat) (f : Landing → Landing) : (s.modLanding k f).fuses = s.fuses := rfl
@[simp] theorem State.modLanding_flint (s : State) (k : Nat) (f : Landing → Landing) : (s.modLanding k f).flint = s.flint := rfl
@[simp] theorem State.modLanding_jtag (s : State) (k : Nat) (f : Landing → Landing) : (s.modLanding k f).jtag = s.jtag := rfl
@[simp] theorem State.modLanding_linkUp (s : State) (k : Nat) (f : Landing → Landing) : (s.modLanding k f).linkUp = s.linkUp := rfl
@[simp] theorem State.modLanding_fns (s : State) (k : Nat) (f : Landing → Landing) : (s.modLanding k f).fns = s.fns := rfl
@[simp] theorem State.modLanding_qm (s : State) (k : Nat) (f : Landing → Landing) : (s.modLanding k f).qm = s.qm := rfl
@[simp] theorem State.modLanding_ovf (s : State) (k : Nat) (f : Landing → Landing) : (s.modLanding k f).ovf = s.ovf := rfl
@[simp] theorem State.modLanding_ovfWait (s : State) (k : Nat) (f : Landing → Landing) : (s.modLanding k f).ovfWait = s.ovfWait := rfl
@[simp] theorem State.modLanding_mbs (s : State) (k : Nat) (f : Landing → Landing) : (s.modLanding k f).mbs = s.mbs := rfl
@[simp] theorem State.modLanding_flash (s : State) (k : Nat) (f : Landing → Landing) : (s.modLanding k f).flash = s.flash := rfl
@[simp] theorem State.modLanding_hearths (s : State) (k : Nat) (f : Landing → Landing) : (s.modLanding k f).hearths = s.hearths := rfl
@[simp] theorem State.modLanding_ctxs (s : State) (k : Nat) (f : Landing → Landing) : (s.modLanding k f).ctxs = s.ctxs := rfl
@[simp] theorem State.modLanding_ports (s : State) (k : Nat) (f : Landing → Landing) : (s.modLanding k f).ports = s.ports := rfl
@[simp] theorem State.modLanding_atts (s : State) (k : Nat) (f : Landing → Landing) : (s.modLanding k f).atts = s.atts := rfl
@[simp] theorem State.modLanding_pantry (s : State) (k : Nat) (f : Landing → Landing) : (s.modLanding k f).pantry = s.pantry := rfl
@[simp] theorem State.modLanding_dws (s : State) (k : Nat) (f : Landing → Landing) : (s.modLanding k f).dws = s.dws := rfl
@[simp] theorem State.modLanding_drives (s : State) (k : Nat) (f : Landing → Landing) : (s.modLanding k f).drives = s.drives := rfl
@[simp] theorem State.modLanding_bias (s : State) (k : Nat) (f : Landing → Landing) : (s.modLanding k f).bias = s.bias := rfl
@[simp] theorem State.modLanding_landOrder (s : State) (k : Nat) (f : Landing → Landing) : (s.modLanding k f).landOrder = s.landOrder := rfl
@[simp] theorem State.modLanding_boiler (s : State) (k : Nat) (f : Landing → Landing) : (s.modLanding k f).boiler = s.boiler := rfl
@[simp] theorem State.modLanding_hostMem (s : State) (k : Nat) (f : Landing → Landing) : (s.modLanding k f).hostMem = s.hostMem := rfl
@[simp] theorem State.modLanding_out (s : State) (k : Nat) (f : Landing → Landing) : (s.modLanding k f).out = s.out := rfl
@[simp] theorem State.modLanding_free (s : State) (k : Nat) (f : Landing → Landing) : (s.modLanding k f).free = s.free := rfl
@[simp] theorem State.modLanding_pending (s : State) (k : Nat) (f : Landing → Landing) : (s.modLanding k f).pending = s.pending := rfl

/-! ### modRx -/

@[simp] theorem State.modRx_pw (s : State) (a : Nat) (f : RxChan → RxChan) : (s.modRx a f).pw = s.pw := rfl
@[simp] theorem State.modRx_attic (s : State) (a : Nat) (f : RxChan → RxChan) : (s.modRx a f).attic = s.attic := rfl
@[simp] theorem State.modRx_img (s : State) (a : Nat) (f : RxChan → RxChan) : (s.modRx a f).img = s.img := rfl
@[simp] theorem State.modRx_qz (s : State) (a : Nat) (f : RxChan → RxChan) : (s.modRx a f).qz = s.qz := rfl
@[simp] theorem State.modRx_stats (s : State) (a : Nat) (f : RxChan → RxChan) : (s.modRx a f).stats = s.stats := rfl
@[simp] theorem State.modRx_fc (s : State) (a : Nat) (f : RxChan → RxChan) : (s.modRx a f).fc = s.fc := rfl
@[simp] theorem State.modRx_cellar (s : State) (a : Nat) (f : RxChan → RxChan) : (s.modRx a f).cellar = s.cellar := rfl
@[simp] theorem State.modRx_fuses (s : State) (a : Nat) (f : RxChan → RxChan) : (s.modRx a f).fuses = s.fuses := rfl
@[simp] theorem State.modRx_flint (s : State) (a : Nat) (f : RxChan → RxChan) : (s.modRx a f).flint = s.flint := rfl
@[simp] theorem State.modRx_jtag (s : State) (a : Nat) (f : RxChan → RxChan) : (s.modRx a f).jtag = s.jtag := rfl
@[simp] theorem State.modRx_linkUp (s : State) (a : Nat) (f : RxChan → RxChan) : (s.modRx a f).linkUp = s.linkUp := rfl
@[simp] theorem State.modRx_fns (s : State) (a : Nat) (f : RxChan → RxChan) : (s.modRx a f).fns = s.fns := rfl
@[simp] theorem State.modRx_qm (s : State) (a : Nat) (f : RxChan → RxChan) : (s.modRx a f).qm = s.qm := rfl
@[simp] theorem State.modRx_ovf (s : State) (a : Nat) (f : RxChan → RxChan) : (s.modRx a f).ovf = s.ovf := rfl
@[simp] theorem State.modRx_ovfWait (s : State) (a : Nat) (f : RxChan → RxChan) : (s.modRx a f).ovfWait = s.ovfWait := rfl
@[simp] theorem State.modRx_mbs (s : State) (a : Nat) (f : RxChan → RxChan) : (s.modRx a f).mbs = s.mbs := rfl
@[simp] theorem State.modRx_flash (s : State) (a : Nat) (f : RxChan → RxChan) : (s.modRx a f).flash = s.flash := rfl
@[simp] theorem State.modRx_hearths (s : State) (a : Nat) (f : RxChan → RxChan) : (s.modRx a f).hearths = s.hearths := rfl
@[simp] theorem State.modRx_ctxs (s : State) (a : Nat) (f : RxChan → RxChan) : (s.modRx a f).ctxs = s.ctxs := rfl
@[simp] theorem State.modRx_ports (s : State) (a : Nat) (f : RxChan → RxChan) : (s.modRx a f).ports = s.ports := rfl
@[simp] theorem State.modRx_pantry (s : State) (a : Nat) (f : RxChan → RxChan) : (s.modRx a f).pantry = s.pantry := rfl
@[simp] theorem State.modRx_dws (s : State) (a : Nat) (f : RxChan → RxChan) : (s.modRx a f).dws = s.dws := rfl
@[simp] theorem State.modRx_drives (s : State) (a : Nat) (f : RxChan → RxChan) : (s.modRx a f).drives = s.drives := rfl
@[simp] theorem State.modRx_lands (s : State) (a : Nat) (f : RxChan → RxChan) : (s.modRx a f).lands = s.lands := rfl
@[simp] theorem State.modRx_bias (s : State) (a : Nat) (f : RxChan → RxChan) : (s.modRx a f).bias = s.bias := rfl
@[simp] theorem State.modRx_landOrder (s : State) (a : Nat) (f : RxChan → RxChan) : (s.modRx a f).landOrder = s.landOrder := rfl
@[simp] theorem State.modRx_boiler (s : State) (a : Nat) (f : RxChan → RxChan) : (s.modRx a f).boiler = s.boiler := rfl
@[simp] theorem State.modRx_hostMem (s : State) (a : Nat) (f : RxChan → RxChan) : (s.modRx a f).hostMem = s.hostMem := rfl
@[simp] theorem State.modRx_out (s : State) (a : Nat) (f : RxChan → RxChan) : (s.modRx a f).out = s.out := rfl
@[simp] theorem State.modRx_free (s : State) (a : Nat) (f : RxChan → RxChan) : (s.modRx a f).free = s.free := rfl
@[simp] theorem State.modRx_pending (s : State) (a : Nat) (f : RxChan → RxChan) : (s.modRx a f).pending = s.pending := rfl

/-! ### modTx -/

@[simp] theorem State.modTx_pw (s : State) (a : Nat) (f : TxChan → TxChan) : (s.modTx a f).pw = s.pw := rfl
@[simp] theorem State.modTx_attic (s : State) (a : Nat) (f : TxChan → TxChan) : (s.modTx a f).attic = s.attic := rfl
@[simp] theorem State.modTx_img (s : State) (a : Nat) (f : TxChan → TxChan) : (s.modTx a f).img = s.img := rfl
@[simp] theorem State.modTx_qz (s : State) (a : Nat) (f : TxChan → TxChan) : (s.modTx a f).qz = s.qz := rfl
@[simp] theorem State.modTx_stats (s : State) (a : Nat) (f : TxChan → TxChan) : (s.modTx a f).stats = s.stats := rfl
@[simp] theorem State.modTx_fc (s : State) (a : Nat) (f : TxChan → TxChan) : (s.modTx a f).fc = s.fc := rfl
@[simp] theorem State.modTx_cellar (s : State) (a : Nat) (f : TxChan → TxChan) : (s.modTx a f).cellar = s.cellar := rfl
@[simp] theorem State.modTx_fuses (s : State) (a : Nat) (f : TxChan → TxChan) : (s.modTx a f).fuses = s.fuses := rfl
@[simp] theorem State.modTx_flint (s : State) (a : Nat) (f : TxChan → TxChan) : (s.modTx a f).flint = s.flint := rfl
@[simp] theorem State.modTx_jtag (s : State) (a : Nat) (f : TxChan → TxChan) : (s.modTx a f).jtag = s.jtag := rfl
@[simp] theorem State.modTx_linkUp (s : State) (a : Nat) (f : TxChan → TxChan) : (s.modTx a f).linkUp = s.linkUp := rfl
@[simp] theorem State.modTx_fns (s : State) (a : Nat) (f : TxChan → TxChan) : (s.modTx a f).fns = s.fns := rfl
@[simp] theorem State.modTx_qm (s : State) (a : Nat) (f : TxChan → TxChan) : (s.modTx a f).qm = s.qm := rfl
@[simp] theorem State.modTx_ovf (s : State) (a : Nat) (f : TxChan → TxChan) : (s.modTx a f).ovf = s.ovf := rfl
@[simp] theorem State.modTx_ovfWait (s : State) (a : Nat) (f : TxChan → TxChan) : (s.modTx a f).ovfWait = s.ovfWait := rfl
@[simp] theorem State.modTx_mbs (s : State) (a : Nat) (f : TxChan → TxChan) : (s.modTx a f).mbs = s.mbs := rfl
@[simp] theorem State.modTx_flash (s : State) (a : Nat) (f : TxChan → TxChan) : (s.modTx a f).flash = s.flash := rfl
@[simp] theorem State.modTx_hearths (s : State) (a : Nat) (f : TxChan → TxChan) : (s.modTx a f).hearths = s.hearths := rfl
@[simp] theorem State.modTx_ctxs (s : State) (a : Nat) (f : TxChan → TxChan) : (s.modTx a f).ctxs = s.ctxs := rfl
@[simp] theorem State.modTx_ports (s : State) (a : Nat) (f : TxChan → TxChan) : (s.modTx a f).ports = s.ports := rfl
@[simp] theorem State.modTx_pantry (s : State) (a : Nat) (f : TxChan → TxChan) : (s.modTx a f).pantry = s.pantry := rfl
@[simp] theorem State.modTx_dws (s : State) (a : Nat) (f : TxChan → TxChan) : (s.modTx a f).dws = s.dws := rfl
@[simp] theorem State.modTx_drives (s : State) (a : Nat) (f : TxChan → TxChan) : (s.modTx a f).drives = s.drives := rfl
@[simp] theorem State.modTx_lands (s : State) (a : Nat) (f : TxChan → TxChan) : (s.modTx a f).lands = s.lands := rfl
@[simp] theorem State.modTx_bias (s : State) (a : Nat) (f : TxChan → TxChan) : (s.modTx a f).bias = s.bias := rfl
@[simp] theorem State.modTx_landOrder (s : State) (a : Nat) (f : TxChan → TxChan) : (s.modTx a f).landOrder = s.landOrder := rfl
@[simp] theorem State.modTx_boiler (s : State) (a : Nat) (f : TxChan → TxChan) : (s.modTx a f).boiler = s.boiler := rfl
@[simp] theorem State.modTx_hostMem (s : State) (a : Nat) (f : TxChan → TxChan) : (s.modTx a f).hostMem = s.hostMem := rfl
@[simp] theorem State.modTx_out (s : State) (a : Nat) (f : TxChan → TxChan) : (s.modTx a f).out = s.out := rfl
@[simp] theorem State.modTx_free (s : State) (a : Nat) (f : TxChan → TxChan) : (s.modTx a f).free = s.free := rfl
@[simp] theorem State.modTx_pending (s : State) (a : Nat) (f : TxChan → TxChan) : (s.modTx a f).pending = s.pending := rfl

/-! ### countBank -/

@[simp] theorem State.countBank_pw (s : State) (w : World) (k : Counted) : (s.countBank w k).pw = s.pw := rfl
@[simp] theorem State.countBank_attic (s : State) (w : World) (k : Counted) : (s.countBank w k).attic = s.attic := rfl
@[simp] theorem State.countBank_img (s : State) (w : World) (k : Counted) : (s.countBank w k).img = s.img := rfl
@[simp] theorem State.countBank_qz (s : State) (w : World) (k : Counted) : (s.countBank w k).qz = s.qz := rfl
@[simp] theorem State.countBank_fc (s : State) (w : World) (k : Counted) : (s.countBank w k).fc = s.fc := rfl
@[simp] theorem State.countBank_cellar (s : State) (w : World) (k : Counted) : (s.countBank w k).cellar = s.cellar := rfl
@[simp] theorem State.countBank_fuses (s : State) (w : World) (k : Counted) : (s.countBank w k).fuses = s.fuses := rfl
@[simp] theorem State.countBank_flint (s : State) (w : World) (k : Counted) : (s.countBank w k).flint = s.flint := rfl
@[simp] theorem State.countBank_jtag (s : State) (w : World) (k : Counted) : (s.countBank w k).jtag = s.jtag := rfl
@[simp] theorem State.countBank_linkUp (s : State) (w : World) (k : Counted) : (s.countBank w k).linkUp = s.linkUp := rfl
@[simp] theorem State.countBank_fns (s : State) (w : World) (k : Counted) : (s.countBank w k).fns = s.fns := rfl
@[simp] theorem State.countBank_qm (s : State) (w : World) (k : Counted) : (s.countBank w k).qm = s.qm := rfl
@[simp] theorem State.countBank_ovf (s : State) (w : World) (k : Counted) : (s.countBank w k).ovf = s.ovf := rfl
@[simp] theorem State.countBank_ovfWait (s : State) (w : World) (k : Counted) : (s.countBank w k).ovfWait = s.ovfWait := rfl
@[simp] theorem State.countBank_mbs (s : State) (w : World) (k : Counted) : (s.countBank w k).mbs = s.mbs := rfl
@[simp] theorem State.countBank_flash (s : State) (w : World) (k : Counted) : (s.countBank w k).flash = s.flash := rfl
@[simp] theorem State.countBank_hearths (s : State) (w : World) (k : Counted) : (s.countBank w k).hearths = s.hearths := rfl
@[simp] theorem State.countBank_ctxs (s : State) (w : World) (k : Counted) : (s.countBank w k).ctxs = s.ctxs := rfl
@[simp] theorem State.countBank_ports (s : State) (w : World) (k : Counted) : (s.countBank w k).ports = s.ports := rfl
@[simp] theorem State.countBank_atts (s : State) (w : World) (k : Counted) : (s.countBank w k).atts = s.atts := rfl
@[simp] theorem State.countBank_pantry (s : State) (w : World) (k : Counted) : (s.countBank w k).pantry = s.pantry := rfl
@[simp] theorem State.countBank_dws (s : State) (w : World) (k : Counted) : (s.countBank w k).dws = s.dws := rfl
@[simp] theorem State.countBank_drives (s : State) (w : World) (k : Counted) : (s.countBank w k).drives = s.drives := rfl
@[simp] theorem State.countBank_lands (s : State) (w : World) (k : Counted) : (s.countBank w k).lands = s.lands := rfl
@[simp] theorem State.countBank_bias (s : State) (w : World) (k : Counted) : (s.countBank w k).bias = s.bias := rfl
@[simp] theorem State.countBank_landOrder (s : State) (w : World) (k : Counted) : (s.countBank w k).landOrder = s.landOrder := rfl
@[simp] theorem State.countBank_boiler (s : State) (w : World) (k : Counted) : (s.countBank w k).boiler = s.boiler := rfl
@[simp] theorem State.countBank_hostMem (s : State) (w : World) (k : Counted) : (s.countBank w k).hostMem = s.hostMem := rfl
@[simp] theorem State.countBank_out (s : State) (w : World) (k : Counted) : (s.countBank w k).out = s.out := rfl
@[simp] theorem State.countBank_free (s : State) (w : World) (k : Counted) : (s.countBank w k).free = s.free := rfl
@[simp] theorem State.countBank_pending (s : State) (w : World) (k : Counted) : (s.countBank w k).pending = s.pending := rfl

/-! ### emit -/

@[simp] theorem State.emit_out (s : State) (o : OutItem) : (s.emit o).out = s.out ++ [o] := rfl
@[simp] theorem State.emit_pw (s : State) (o : OutItem) : (s.emit o).pw = s.pw := rfl
@[simp] theorem State.emit_attic (s : State) (o : OutItem) : (s.emit o).attic = s.attic := rfl
@[simp] theorem State.emit_img (s : State) (o : OutItem) : (s.emit o).img = s.img := rfl
@[simp] theorem State.emit_qz (s : State) (o : OutItem) : (s.emit o).qz = s.qz := rfl
@[simp] theorem State.emit_stats (s : State) (o : OutItem) : (s.emit o).stats = s.stats := rfl
@[simp] theorem State.emit_fc (s : State) (o : OutItem) : (s.emit o).fc = s.fc := rfl
@[simp] theorem State.emit_cellar (s : State) (o : OutItem) : (s.emit o).cellar = s.cellar := rfl
@[simp] theorem State.emit_fuses (s : State) (o : OutItem) : (s.emit o).fuses = s.fuses := rfl
@[simp] theorem State.emit_flint (s : State) (o : OutItem) : (s.emit o).flint = s.flint := rfl
@[simp] theorem State.emit_jtag (s : State) (o : OutItem) : (s.emit o).jtag = s.jtag := rfl
@[simp] theorem State.emit_linkUp (s : State) (o : OutItem) : (s.emit o).linkUp = s.linkUp := rfl
@[simp] theorem State.emit_fns (s : State) (o : OutItem) : (s.emit o).fns = s.fns := rfl
@[simp] theorem State.emit_qm (s : State) (o : OutItem) : (s.emit o).qm = s.qm := rfl
@[simp] theorem State.emit_ovf (s : State) (o : OutItem) : (s.emit o).ovf = s.ovf := rfl
@[simp] theorem State.emit_ovfWait (s : State) (o : OutItem) : (s.emit o).ovfWait = s.ovfWait := rfl
@[simp] theorem State.emit_mbs (s : State) (o : OutItem) : (s.emit o).mbs = s.mbs := rfl
@[simp] theorem State.emit_flash (s : State) (o : OutItem) : (s.emit o).flash = s.flash := rfl
@[simp] theorem State.emit_hearths (s : State) (o : OutItem) : (s.emit o).hearths = s.hearths := rfl
@[simp] theorem State.emit_ctxs (s : State) (o : OutItem) : (s.emit o).ctxs = s.ctxs := rfl
@[simp] theorem State.emit_ports (s : State) (o : OutItem) : (s.emit o).ports = s.ports := rfl
@[simp] theorem State.emit_atts (s : State) (o : OutItem) : (s.emit o).atts = s.atts := rfl
@[simp] theorem State.emit_pantry (s : State) (o : OutItem) : (s.emit o).pantry = s.pantry := rfl
@[simp] theorem State.emit_dws (s : State) (o : OutItem) : (s.emit o).dws = s.dws := rfl
@[simp] theorem State.emit_drives (s : State) (o : OutItem) : (s.emit o).drives = s.drives := rfl
@[simp] theorem State.emit_lands (s : State) (o : OutItem) : (s.emit o).lands = s.lands := rfl
@[simp] theorem State.emit_bias (s : State) (o : OutItem) : (s.emit o).bias = s.bias := rfl
@[simp] theorem State.emit_landOrder (s : State) (o : OutItem) : (s.emit o).landOrder = s.landOrder := rfl
@[simp] theorem State.emit_boiler (s : State) (o : OutItem) : (s.emit o).boiler = s.boiler := rfl
@[simp] theorem State.emit_hostMem (s : State) (o : OutItem) : (s.emit o).hostMem = s.hostMem := rfl
@[simp] theorem State.emit_free (s : State) (o : OutItem) : (s.emit o).free = s.free := rfl
@[simp] theorem State.emit_pending (s : State) (o : OutItem) : (s.emit o).pending = s.pending := rfl

/-! ### hostWrite -/

@[simp] theorem State.hostWrite_hostMem (s : State) (a : Nat) (l : List Byte) : (s.hostWrite a l).hostMem = hostWriteOf s.hostMem a l := rfl
@[simp] theorem State.hostWrite_pw (s : State) (a : Nat) (l : List Byte) : (s.hostWrite a l).pw = s.pw := rfl
@[simp] theorem State.hostWrite_attic (s : State) (a : Nat) (l : List Byte) : (s.hostWrite a l).attic = s.attic := rfl
@[simp] theorem State.hostWrite_img (s : State) (a : Nat) (l : List Byte) : (s.hostWrite a l).img = s.img := rfl
@[simp] theorem State.hostWrite_qz (s : State) (a : Nat) (l : List Byte) : (s.hostWrite a l).qz = s.qz := rfl
@[simp] theorem State.hostWrite_stats (s : State) (a : Nat) (l : List Byte) : (s.hostWrite a l).stats = s.stats := rfl
@[simp] theorem State.hostWrite_fc (s : State) (a : Nat) (l : List Byte) : (s.hostWrite a l).fc = s.fc := rfl
@[simp] theorem State.hostWrite_cellar (s : State) (a : Nat) (l : List Byte) : (s.hostWrite a l).cellar = s.cellar := rfl
@[simp] theorem State.hostWrite_fuses (s : State) (a : Nat) (l : List Byte) : (s.hostWrite a l).fuses = s.fuses := rfl
@[simp] theorem State.hostWrite_flint (s : State) (a : Nat) (l : List Byte) : (s.hostWrite a l).flint = s.flint := rfl
@[simp] theorem State.hostWrite_jtag (s : State) (a : Nat) (l : List Byte) : (s.hostWrite a l).jtag = s.jtag := rfl
@[simp] theorem State.hostWrite_linkUp (s : State) (a : Nat) (l : List Byte) : (s.hostWrite a l).linkUp = s.linkUp := rfl
@[simp] theorem State.hostWrite_fns (s : State) (a : Nat) (l : List Byte) : (s.hostWrite a l).fns = s.fns := rfl
@[simp] theorem State.hostWrite_qm (s : State) (a : Nat) (l : List Byte) : (s.hostWrite a l).qm = s.qm := rfl
@[simp] theorem State.hostWrite_ovf (s : State) (a : Nat) (l : List Byte) : (s.hostWrite a l).ovf = s.ovf := rfl
@[simp] theorem State.hostWrite_ovfWait (s : State) (a : Nat) (l : List Byte) : (s.hostWrite a l).ovfWait = s.ovfWait := rfl
@[simp] theorem State.hostWrite_mbs (s : State) (a : Nat) (l : List Byte) : (s.hostWrite a l).mbs = s.mbs := rfl
@[simp] theorem State.hostWrite_flash (s : State) (a : Nat) (l : List Byte) : (s.hostWrite a l).flash = s.flash := rfl
@[simp] theorem State.hostWrite_hearths (s : State) (a : Nat) (l : List Byte) : (s.hostWrite a l).hearths = s.hearths := rfl
@[simp] theorem State.hostWrite_ctxs (s : State) (a : Nat) (l : List Byte) : (s.hostWrite a l).ctxs = s.ctxs := rfl
@[simp] theorem State.hostWrite_ports (s : State) (a : Nat) (l : List Byte) : (s.hostWrite a l).ports = s.ports := rfl
@[simp] theorem State.hostWrite_atts (s : State) (a : Nat) (l : List Byte) : (s.hostWrite a l).atts = s.atts := rfl
@[simp] theorem State.hostWrite_pantry (s : State) (a : Nat) (l : List Byte) : (s.hostWrite a l).pantry = s.pantry := rfl
@[simp] theorem State.hostWrite_dws (s : State) (a : Nat) (l : List Byte) : (s.hostWrite a l).dws = s.dws := rfl
@[simp] theorem State.hostWrite_drives (s : State) (a : Nat) (l : List Byte) : (s.hostWrite a l).drives = s.drives := rfl
@[simp] theorem State.hostWrite_lands (s : State) (a : Nat) (l : List Byte) : (s.hostWrite a l).lands = s.lands := rfl
@[simp] theorem State.hostWrite_bias (s : State) (a : Nat) (l : List Byte) : (s.hostWrite a l).bias = s.bias := rfl
@[simp] theorem State.hostWrite_landOrder (s : State) (a : Nat) (l : List Byte) : (s.hostWrite a l).landOrder = s.landOrder := rfl
@[simp] theorem State.hostWrite_boiler (s : State) (a : Nat) (l : List Byte) : (s.hostWrite a l).boiler = s.boiler := rfl
@[simp] theorem State.hostWrite_out (s : State) (a : Nat) (l : List Byte) : (s.hostWrite a l).out = s.out := rfl
@[simp] theorem State.hostWrite_free (s : State) (a : Nat) (l : List Byte) : (s.hostWrite a l).free = s.free := rfl
@[simp] theorem State.hostWrite_pending (s : State) (a : Nat) (l : List Byte) : (s.hostWrite a l).pending = s.pending := rfl

/-! ### latchEvents -/

@[simp] theorem State.latchEvents_pw (s : State) (kind id events : Nat) : (s.latchEvents kind id events).pw = s.pw := rfl
@[simp] theorem State.latchEvents_attic (s : State) (kind id events : Nat) : (s.latchEvents kind id events).attic = s.attic := rfl
@[simp] theorem State.latchEvents_img (s : State) (kind id events : Nat) : (s.latchEvents kind id events).img = s.img := rfl
@[simp] theorem State.latchEvents_qz (s : State) (kind id events : Nat) : (s.latchEvents kind id events).qz = s.qz := rfl
@[simp] theorem State.latchEvents_stats (s : State) (kind id events : Nat) : (s.latchEvents kind id events).stats = s.stats := rfl
@[simp] theorem State.latchEvents_fc (s : State) (kind id events : Nat) : (s.latchEvents kind id events).fc = s.fc := rfl
@[simp] theorem State.latchEvents_cellar (s : State) (kind id events : Nat) : (s.latchEvents kind id events).cellar = s.cellar := rfl
@[simp] theorem State.latchEvents_fuses (s : State) (kind id events : Nat) : (s.latchEvents kind id events).fuses = s.fuses := rfl
@[simp] theorem State.latchEvents_flint (s : State) (kind id events : Nat) : (s.latchEvents kind id events).flint = s.flint := rfl
@[simp] theorem State.latchEvents_jtag (s : State) (kind id events : Nat) : (s.latchEvents kind id events).jtag = s.jtag := rfl
@[simp] theorem State.latchEvents_linkUp (s : State) (kind id events : Nat) : (s.latchEvents kind id events).linkUp = s.linkUp := rfl
@[simp] theorem State.latchEvents_fns (s : State) (kind id events : Nat) : (s.latchEvents kind id events).fns = s.fns := rfl
@[simp] theorem State.latchEvents_qm (s : State) (kind id events : Nat) : (s.latchEvents kind id events).qm = s.qm := rfl
@[simp] theorem State.latchEvents_ovf (s : State) (kind id events : Nat) : (s.latchEvents kind id events).ovf = s.ovf := rfl
@[simp] theorem State.latchEvents_ovfWait (s : State) (kind id events : Nat) : (s.latchEvents kind id events).ovfWait = s.ovfWait := rfl
@[simp] theorem State.latchEvents_mbs (s : State) (kind id events : Nat) : (s.latchEvents kind id events).mbs = s.mbs := rfl
@[simp] theorem State.latchEvents_flash (s : State) (kind id events : Nat) : (s.latchEvents kind id events).flash = s.flash := rfl
@[simp] theorem State.latchEvents_hearths (s : State) (kind id events : Nat) : (s.latchEvents kind id events).hearths = s.hearths := rfl
@[simp] theorem State.latchEvents_ports (s : State) (kind id events : Nat) : (s.latchEvents kind id events).ports = s.ports := rfl
@[simp] theorem State.latchEvents_atts (s : State) (kind id events : Nat) : (s.latchEvents kind id events).atts = s.atts := rfl
@[simp] theorem State.latchEvents_pantry (s : State) (kind id events : Nat) : (s.latchEvents kind id events).pantry = s.pantry := rfl
@[simp] theorem State.latchEvents_dws (s : State) (kind id events : Nat) : (s.latchEvents kind id events).dws = s.dws := rfl
@[simp] theorem State.latchEvents_drives (s : State) (kind id events : Nat) : (s.latchEvents kind id events).drives = s.drives := rfl
@[simp] theorem State.latchEvents_lands (s : State) (kind id events : Nat) : (s.latchEvents kind id events).lands = s.lands := rfl
@[simp] theorem State.latchEvents_bias (s : State) (kind id events : Nat) : (s.latchEvents kind id events).bias = s.bias := rfl
@[simp] theorem State.latchEvents_landOrder (s : State) (kind id events : Nat) : (s.latchEvents kind id events).landOrder = s.landOrder := rfl
@[simp] theorem State.latchEvents_boiler (s : State) (kind id events : Nat) : (s.latchEvents kind id events).boiler = s.boiler := rfl
@[simp] theorem State.latchEvents_hostMem (s : State) (kind id events : Nat) : (s.latchEvents kind id events).hostMem = s.hostMem := rfl
@[simp] theorem State.latchEvents_out (s : State) (kind id events : Nat) : (s.latchEvents kind id events).out = s.out := rfl
@[simp] theorem State.latchEvents_free (s : State) (kind id events : Nat) : (s.latchEvents kind id events).free = s.free := rfl
@[simp] theorem State.latchEvents_pending (s : State) (kind id events : Nat) : (s.latchEvents kind id events).pending = s.pending := rfl

/-! ### Reading what an update changed -/

theorem State.ctx_setCtx (s : State) (c : Nat) (x : Ctx) (d : Nat) : (s.setCtx c x).ctx d = if d = c then x else s.ctx d := Tbl.get_put ({} : Ctx) s.ctxs c x d
theorem State.ctx_modCtx (s : State) (c : Nat) (f : Ctx → Ctx) (d : Nat) : (s.modCtx c f).ctx d = if d = c then f (s.ctx c) else s.ctx d :=
  Tbl.get_put ({} : Ctx) s.ctxs c _ d
theorem State.port_modPort (s : State) (n : Nat) (f : Port → Port) (m : Nat) : (s.modPort n f).port m = if m = n then f (s.port n) else s.port m :=
  Tbl.get_upd ({} : Port) s.ports n f m
theorem State.att_modAtt (s : State) (a : Nat) (f : Att → Att) (b : Nat) : (s.modAtt a f).att b = if b = a then f (s.att a) else s.att b :=
  Tbl.get_upd ({} : Att) s.atts a f b
theorem State.drive_modDrive (s : State) (n : Nat) (f : Drive → Drive) (m : Nat) :
    (s.modDrive n f).drive m = if m = n then f (s.drive n) else s.drive m := Tbl.get_upd ({} : Drive) s.drives n f m
theorem State.dw_modDw (s : State) (e : Nat) (f : Dw → Dw) (m : Nat) : (s.modDw e f).dw m = if m = e then f (s.dw e) else s.dw m :=
  Tbl.get_upd ({} : Dw) s.dws e f m
theorem State.mb_modMb (s : State) (m : Nat) (f : Mailbox → Mailbox) (n : Nat) : (s.modMb m f).mb n = if n = m then f (s.mb m) else s.mb n :=
  Tbl.get_upd ({} : Mailbox) s.mbs m f n
theorem State.cmp_modCmp (s : State) (u : Nat) (f : CmpUnit → CmpUnit) (m : Nat) : (s.modCmp u f).cmp m = if m = u then f (s.cmp u) else s.cmp m :=
  Tbl.get_upd ({} : CmpUnit) s.qz.units u f m
theorem State.landing_modLanding (s : State) (k : Nat) (f : Landing → Landing) (m : Nat) :
    (s.modLanding k f).landing m = if m = k then f (s.landing k) else s.landing m := Tbl.get_upd ({} : Landing) s.lands k f m
theorem State.fn_modFn (s : State) (w : World) (f : Func → Func) (v : World) : (s.modFn w f).fn v = if v = w then f (s.fn w) else s.fn v := by
  cases v <;> cases w <;> rfl
theorem State.sq_modSq (s : State) (w : World) (q : Nat) (f : Sq → Sq) (v : World) (n : Nat) :
    (s.modSq w q f).sq v n = if v = w ∧ n = q then f (s.sq w q) else s.sq v n := by
  cases v <;> cases w <;> simp [State.modSq, State.sq, Two.get, Two.upd, Two.set, Tbl.get_upd]
theorem State.cq_modCq (s : State) (w : World) (q : Nat) (f : Cq → Cq) (v : World) (n : Nat) :
    (s.modCq w q f).cq v n = if v = w ∧ n = q then f (s.cq w q) else s.cq v n := by
  cases v <;> cases w <;> simp [State.modCq, State.cq, Two.get, Two.upd, Two.set, Tbl.get_upd]
@[simp] theorem State.cq_modSq (s : State) (w : World) (q : Nat) (f : Sq → Sq) (v : World) (n : Nat) : (s.modSq w q f).cq v n = s.cq v n := by
  cases v <;> cases w <;> rfl
@[simp] theorem State.sq_modCq (s : State) (w : World) (q : Nat) (f : Cq → Cq) (v : World) (n : Nat) : (s.modCq w q f).sq v n = s.sq v n := by
  cases v <;> cases w <;> rfl

/-! ### After reset -/

theorem State.reset_memoryOk : State.reset.memoryOk = true := by decide

end Sys2Proof.Machine
end

