-- ==== Sys2Proof/Laws/Ops.lean ====
section
/-! SUPPORT. For each shared operation, what it can change, said once: an equation that gives the state back when those fields are put
back; and for the operations on memories, that they keep the canonical form. -/
namespace Sys2Proof.Machine

/-! ### Counting and messages (Ops.lean) -/

theorem State.countWorld_frame (s : State) (w : World) (i n : Nat) : { s.countWorld w i n with stats := s.stats } = s := (rfl)
theorem State.countLane_frame (s : State) (w : World) (l i n : Nat) : { s.countLane w l i n with stats := s.stats } = s := by
  unfold State.countLane; split <;> rfl
theorem State.countPort_frame (s : State) (p i n : Nat) : { s.countPort p i n with stats := s.stats } = s := by
  unfold State.countPort; split <;> rfl
theorem State.countBoth_frame (s : State) (w : World) (l iw il : Nat) : { s.countBoth w l iw il with stats := s.stats } = s :=
  congrArg (fun t : State => { t with stats := s.stats }) (State.countLane_frame (s.countWorld w iw 1) w l il 1)
theorem State.msix_frame (s : State) (w : World) (v : Nat) : { s.msix w v with fns := s.fns, out := s.out } = s := by
  unfold State.msix; split
  · split <;> rfl
  · rfl
theorem State.msixRunning_frame (s : State) (w : World) (v : Nat) : { s.msixRunning w v with fns := s.fns, out := s.out } = s := by
  unfold State.msixRunning; split
  · exact State.msix_frame s w v
  · rfl

/-- A message into a view changes the Collector and what its MSI-X changes. -/
theorem State.enterFnView_frame (s : State) (w : World) (m : W64) (c : Option Nat) (h : Bool) :
    { (s.enterFnView w m c h).1 with fc := s.fc, fns := s.fns, out := s.out } = s := by
  unfold State.enterFnView; split
  · dsimp only; split
    · exact congrArg (fun t : State => { t with fc := s.fc })
        (State.msixRunning_frame { s with fc := { s.fc with views := s.fc.views.set w _ } } w _)
    · rfl
  · rfl
theorem State.enterViews_frame (s : State) (m : W64) (c : Option Nat) (h : Bool) :
    { s.enterViews m c h with fc := s.fc, fns := s.fns, out := s.out } = s := by
  have h1 := State.enterFnView_frame s .slate m c h
  have h2 := State.enterFnView_frame (s.enterFnView .slate m c h).1 .granite m c h
  exact (congrArg (fun t : State => { t with fc := s.fc, fns := s.fns, out := s.out }) h2).trans h1
theorem State.report_frame (s : State) (m : W64) (c : Option Nat) : { s.report m c with fc := s.fc, fns := s.fns, out := s.out } = s := by
  unfold State.report; split
  · rfl
  · exact State.enterViews_frame s m c false
@[simp] theorem State.report_pantry (s : State) (m : W64) (c : Option Nat) : (s.report m c).pantry = s.pantry := by
  have h := congrArg State.pantry (State.report_frame s m c); exact h
@[simp] theorem State.report_flash (s : State) (m : W64) (c : Option Nat) : (s.report m c).flash = s.flash := by
  have h := congrArg State.flash (State.report_frame s m c); exact h
@[simp] theorem State.report_cellar (s : State) (m : W64) (c : Option Nat) : (s.report m c).cellar = s.cellar := by
  have h := congrArg State.cellar (State.report_frame s m c); exact h
@[simp] theorem State.report_hostMem (s : State) (m : W64) (c : Option Nat) : (s.report m c).hostMem = s.hostMem := by
  have h := congrArg State.hostMem (State.report_frame s m c); exact h
@[simp] theorem State.report_ctxs (s : State) (m : W64) (c : Option Nat) : (s.report m c).ctxs = s.ctxs := by
  have h := congrArg State.ctxs (State.report_frame s m c); exact h
@[simp] theorem State.report_fuses (s : State) (m : W64) (c : Option Nat) : (s.report m c).fuses = s.fuses := by
  have h := congrArg State.fuses (State.report_frame s m c); exact h
theorem State.takeReport_frame (s : State) : { s.takeReport with fc := s.fc, fns := s.fns, out := s.out } = s := by
  unfold State.takeReport; split
  · rfl
  · exact congrArg (fun t : State => { t with fc := s.fc }) (State.enterViews_frame { s with fc := { s.fc with buf := _ } } _ _ true)
theorem State.blEvent1_frame (s : State) (w : World) (b : Nat) : { s.blEvent1 w b with boiler := s.boiler, fns := s.fns, out := s.out } = s :=
  congrArg (fun t : State => { t with boiler := s.boiler }) (State.msixRunning_frame (s.modBl _) w _)
theorem State.blEvent_frame (s : State) (b : Nat) : { s.blEvent b with boiler := s.boiler, fns := s.fns, out := s.out } = s :=
  (congrArg (fun t : State => { t with boiler := s.boiler, fns := s.fns, out := s.out }) (State.blEvent1_frame (s.blEvent1 .slate b) .granite b)).trans
    (State.blEvent1_frame s .slate b)
theorem State.qmEvent_frame (s : State) (w : World) (b : Nat) : { s.qmEvent w b with fns := s.fns, out := s.out } = s := by
  unfold State.qmEvent; dsimp only; split
  · rfl
  · exact congrArg (fun t : State => { t with fns := s.fns }) (State.msix_frame (s.modFn w _) w _)
theorem State.dbError_frame (s : State) (w : World) (off : Nat) : { s.dbError w off with fc := s.fc, fns := s.fns, out := s.out } = s :=
  (congrArg (fun t : State => { t with fc := s.fc, fns := s.fns, out := s.out }) (State.report_frame ((s.modFn w _).qmEvent w 4) _ none)).trans
    (congrArg (fun t : State => { t with fc := s.fc, fns := s.fns }) (State.qmEvent_frame (s.modFn w _) w 4))
theorem State.accessFault_frame (s : State) (w : World) (off : Nat) : { s.accessFault w off with fc := s.fc, fns := s.fns, out := s.out } = s :=
  State.report_frame s _ none
theorem State.discardFault_frame (s : State) (w : World) (src off : Nat) :
    { s.discardFault w src off with fc := s.fc, fns := s.fns, out := s.out } = s := State.report_frame s _ none
theorem State.makeReady_frame (s : State) (c : Nat) : { s.makeReady c with ctxs := s.ctxs, hearths := s.hearths } = s := by
  unfold State.makeReady State.modCtx State.setCtx; rfl
theorem State.attEvent_frame (s : State) (a b : Nat) : { s.attEvent a b with ctxs := s.ctxs } = s := by
  unfold State.attEvent State.latchEvents; rfl
theorem State.driveEvent_frame (s : State) (n b : Nat) : { s.driveEvent n b with drives := s.drives, ctxs := s.ctxs } = s := by
  unfold State.driveEvent State.latchEvents State.modDrive; rfl

/-- A context that becomes READY takes the next place in the order of R218; no other context changes. -/
theorem State.ctx_makeReady (s : State) (c d : Nat) : (s.makeReady c).ctx d
    = if d = c then { s.ctx c with state := .ready, wait := .none, readySeq := s.hearths.readySeq, slotDue := false } else s.ctx d := by
  unfold State.makeReady; exact State.ctx_modCtx s c 
    (fun x => { x with state := .ready, wait := .none, readySeq := s.hearths.readySeq, slotDue := false }) d

/-! ### Pantry and host memory (Access.lean) -/

theorem State.pnUncorrectable_frame (s : State) (b : Nat) :
    { s.pnUncorrectable b with pantry := s.pantry, fc := s.fc, fns := s.fns, out := s.out } = s :=
  congrArg (fun t : State => { t with pantry := s.pantry }) (State.report_frame (s.modPn _) _ none)
@[simp] theorem State.pnUncorrectable_mem (s : State) (b : Nat) : (s.pnUncorrectable b).pantry.mem = s.pantry.mem := by
  simp only [State.pnUncorrectable, State.report_pantry, State.modPn_pantry]
@[simp] theorem State.pnUncorrectable_poison (s : State) (b : Nat) : (s.pnUncorrectable b).pantry.poison = s.pantry.poison := by
  simp only [State.pnUncorrectable, State.report_pantry, State.modPn_pantry]
theorem State.pnCorrected_frame (s : State) (b : Nat) : { s.pnCorrected b with pantry := s.pantry } = s := by unfold State.pnCorrected State.modPn; rfl
@[simp] theorem State.pnCorrected_mem (s : State) (b : Nat) : (s.pnCorrected b).pantry.mem = s.pantry.mem := by simp only [State.pnCorrected, State.modPn_pantry]
@[simp] theorem State.pnCorrected_poison (s : State) (b : Nat) : (s.pnCorrected b).pantry.poison = s.pantry.poison := by
  simp only [State.pnCorrected, State.modPn_pantry]

theorem State.pnCheck_fold (l : List Nat) (r : Bool × State) :
    let f := fun (r : Bool × State) b =>
      match r.2.pnJudge b with
      | .uncorrectable => (false, r.2.pnUncorrectable b)
      | .corrected => (r.1, r.2.pnCorrected b)
      | .clean => r
    { (l.foldl f r).2 with pantry := r.2.pantry, fc := r.2.fc, fns := r.2.fns, out := r.2.out } = r.2
      ∧ (l.foldl f r).2.pantry.mem = r.2.pantry.mem ∧ (l.foldl f r).2.pantry.poison = r.2.pantry.poison := by
  induction l generalizing r with
  | nil => exact ⟨rfl, rfl, rfl⟩
  | cons b l ih =>
    simp only [List.foldl_cons]
    split
    · obtain ⟨h1, h2, h3⟩ := ih (false, r.2.pnUncorrectable b)
      exact ⟨(congrArg (fun t : State => { t with pantry := r.2.pantry, fc := r.2.fc, fns := r.2.fns, out := r.2.out }) h1).trans
        (State.pnUncorrectable_frame r.2 b), h2.trans (State.pnUncorrectable_mem ..), h3.trans (State.pnUncorrectable_poison ..)⟩
    · obtain ⟨h1, h2, h3⟩ := ih (r.1, r.2.pnCorrected b)
      exact ⟨congrArg (fun t : State => { t with pantry := r.2.pantry }) h1, h2, h3⟩
    · exact ih r

/-- A check of bursts for a read changes only counts and records of Pantry, and the Collector. -/
theorem State.pnCheck_frame (s : State) (a n : Nat) : { (s.pnCheck a n).2 with pantry := s.pantry, fc := s.fc, fns := s.fns, out := s.out } = s :=
  (State.pnCheck_fold (burstsOf a n) (true, s)).1
@[simp] theorem State.pnCheck_mem (s : State) (a n : Nat) : (s.pnCheck a n).2.pantry.mem = s.pantry.mem :=
  (State.pnCheck_fold (burstsOf a n) (true, s)).2.1
@[simp] theorem State.pnCheck_poison (s : State) (a n : Nat) : (s.pnCheck a n).2.pantry.poison = s.pantry.poison :=
  (State.pnCheck_fold (burstsOf a n) (true, s)).2.2
theorem State.pnWrite_frame (s : State) (a : Nat) (d : List Byte) : { s.pnWrite a d with pantry := s.pantry } = s := by unfold State.pnWrite State.modPn; rfl
@[simp] theorem State.pnWrite_mem (s : State) (a : Nat) (d : List Byte) : (s.pnWrite a d).pantry.mem = Memory.write 0 s.pantry.mem a d := by
  simp only [State.pnWrite, State.modPn_pantry]
theorem State.readBlock_frame (s : State) (w : World) (a n : Nat) :
    { (s.readBlock w a n).2 with stats := s.stats, pantry := s.pantry, fc := s.fc, fns := s.fns, out := s.out } = s := by
  unfold State.readBlock; split
  · exact congrArg (fun t : State => { t with stats := s.stats }) (State.pnCheck_frame (s.countWorld w 12 n) a n)
  · split <;> rfl
theorem State.writeBlock_frame (s : State) (w : World) (a : Nat) (d : List Byte) :
    { s.writeBlock w a d with stats := s.stats, pantry := s.pantry, hostMem := s.hostMem } = s := by unfold State.writeBlock; split <;> rfl
theorem State.xlatNote_frame (s : State) (a : Nat) : { s.xlatNote a with fc := s.fc, fns := s.fns, out := s.out } = s := by
  unfold State.xlatNote; dsimp only; split
  · exact State.report_frame s _ none
  · rfl

/-! ### The memories keep their canonical form -/

/-- A change outside the memories keeps them. -/
theorem State.memoryOk_congr {s t : State} (h1 : t.pantry.mem = s.pantry.mem) (h2 : t.flash.mem = s.flash.mem) (h3 : t.cellar.mem = s.cellar.mem)
    (h4 : t.hostMem = s.hostMem) : t.memoryOk = s.memoryOk := by simp only [State.memoryOk, h1, h2, h3, h4]
theorem State.report_memoryOk (s : State) (m : W64) (c : Option Nat) : (s.report m c).memoryOk = s.memoryOk := by
  exact State.memoryOk_congr (by simp) (by simp) (by simp) (by simp)
theorem State.pnWrite_memoryOk (s : State) (a : Nat) (d : List Byte) (h : s.memoryOk = true) : (s.pnWrite a d).memoryOk = true := by
  simp only [State.memoryOk, Bool.and_eq_true] at h ⊢
  exact ⟨⟨⟨Memory.wf_write 0 _ a d h.1.1.1, h.1.1.2⟩, h.1.2⟩, h.2⟩
theorem State.hostWrite_memoryOk (s : State) (a : Nat) (d : List Byte) (h : s.memoryOk = true) : (s.hostWrite a d).memoryOk = true := by
  simp only [State.memoryOk, Bool.and_eq_true] at h ⊢
  exact ⟨h.1, rising_hostWriteOf _ a d h.2⟩
theorem State.writeBlock_memoryOk (s : State) (w : World) (a : Nat) (d : List Byte) (h : s.memoryOk = true) :
    (s.writeBlock w a d).memoryOk = true := by
  unfold State.writeBlock; split
  · exact State.pnWrite_memoryOk (s.countWorld w 12 d.length) a d h
  · exact State.hostWrite_memoryOk (s.countWorld w 11 d.length) _ d h
theorem State.readBlock_memoryOk (s : State) (w : World) (a n : Nat) : (s.readBlock w a n).2.memoryOk = s.memoryOk := by
  unfold State.readBlock; split
  · have h := State.pnCheck_frame (s.countWorld w 12 n) a n
    have h1 := congrArg (fun t : State => t.flash.mem) h
    have h2 := congrArg (fun t : State => t.cellar.mem) h
    have h3 := congrArg State.hostMem h
    exact State.memoryOk_congr (State.pnCheck_mem ..) h1 h2 h3
  · split <;> rfl
theorem State.writeSpan_memoryOk (s : State) (w : World) (sup : Bool) (fuel a : Nat) (d : List Byte) (h : s.memoryOk = true) :
    (s.writeSpan w sup fuel a d).2.2.memoryOk = true := by
  induction fuel generalizing s a d with
  | zero => exact h
  | succ k ih =>
    unfold State.writeSpan; split
    · exact h
    · split
      · unfold State.xlatNote; dsimp only; split
        · rw [State.report_memoryOk]; exact h
        · exact h
      · exact ih _ _ _ (State.writeBlock_memoryOk s w a _ h)
theorem State.flashErase_memoryOk (s : State) (a n : Nat) (h : s.memoryOk = true) : (s.flashErase a n).memoryOk = true := by
  simp only [State.memoryOk, Bool.and_eq_true] at h ⊢
  exact ⟨⟨⟨h.1.1.1, Memory.wf_filter 0xFF _ _ h.1.1.2⟩, h.1.2⟩, h.2⟩

/-- The erased range of the flash reads 0xFF, and every other byte is as before. -/
theorem State.byte_flashErase (s : State) (a n x : Nat) :
    Memory.byte 0xFF (s.flashErase a n).flash.mem x = if a ≤ x ∧ x < a + n then 0xFF else Memory.byte 0xFF s.flash.mem x := by
  simp only [State.flashErase, Memory.byte]
  induction s.flash.mem with
  | nil => simp
  | cons p t ih =>
    simp only [List.filter_cons, Tbl.get_cons]
    by_cases hp : (decide (p.1 < a) || decide (a + n ≤ p.1)) = true
    · rw [if_pos hp]; simp only [Tbl.get_cons, ih]
      simp only [Bool.or_eq_true, decide_eq_true_eq] at hp
      split_ifs <;> first | rfl | omega
    · rw [if_neg hp, ih]
      simp only [Bool.or_eq_true, decide_eq_true_eq, not_or, Nat.not_lt, Nat.not_le] at hp
      split_ifs <;> first | rfl | omega

/-! ### Mailboxes and completion queues -/

theorem State.mbDeliver_frame (s : State) (m code b : Nat) (reply : List (Nat × W64)) :
    { s.mbDeliver m code b reply with mbs := s.mbs, fns := s.fns, out := s.out } = s := by
  unfold State.mbDeliver; dsimp only; split
  · exact congrArg (fun t : State => { t with mbs := s.mbs }) (State.msix_frame (s.modMb m _) _ _)
  · rfl
theorem State.cqAnnounce_frame (s : State) (w : World) (n : Nat) : { s.cqAnnounce w n with qm := s.qm, fns := s.fns, out := s.out } = s :=
  congrArg (fun t : State => { t with qm := s.qm }) (State.msix_frame (s.modCq w n _) w _)

end Sys2Proof.Machine
end

