-- ==== Sys2Proof/Tests/Slice0.lean ====
section
/-! SUPPORT. The model's own tests: ill-formed commands that the check refuses, states that meet the hypotheses of each statement, and small
tests of one command each. Expected values are worked out from the rules that each test names. -/
set_option Elab.async false

namespace Sys2Proof.Machine

/-! ### Small states -/

/-- Whether a command answers a next state with a property. -/
def res (i : Instr) (s : State) (p : State → Bool) : Bool :=
  match exec i s with
  | .next t => p t
  | _ => false

/-- The state that a command leaves. -/
def after (i : Instr) (s : State) : State :=
  match exec i s with
  | .next t => t
  | _ => s

/-- Slate owns context 0, which runs a handler activation for a WRITE at address 0: code at 0, data at 64 KiB, two host window pages. -/
def cpuOf (x : Ctx) : State :=
  { ctxs := [(0, { x with state := .running, act := some { code := 1, tgt := 0, att := none } })]
    linkUp := true
    fns := ⟨{ bme := true }, {}⟩
    hostMem := [(0x1000008, 0x77)]
    pantry := { mem := [(0x10010, 0x81), (0x10011, 0x82)], xlat := [(0, 0x1000001#64)] }
    img := {
      ctxMap := 1, cap := 0x100000, hostPages := 4, windows := [⟨0, 2, .slate⟩]
      regions := [{ base := 0, len := 0x10000, world := .slate }, { base := 0x10000, len := 0x10000, world := .slate }]
      worlds := ⟨{ attrs := [(0, 2)] }, {}⟩ } }

/-- Some registers: addresses in the data region and in the host window, and small numbers. -/
def someRegs : Ctx := { regs := [(1, 0x10000), (2, 0x100000000), (3, 5), (4, 7), (5, 0x10012)] }

def cpu : State := cpuOf someRegs


/-! ### Arithmetic, immediates and memory (R130 to R138, R151, R152) -/

/-- Context 0 issues its next instruction, which stands in no delay slot and is not repeated. -/
theorem wit_issuesPlain : IssuesPlain cpu 0 := by
  unfold IssuesPlain Issues; (repeat' apply And.intro) <;> decide
theorem wit_issues : Issues cpu 0 := wit_issuesPlain.1

/-- RegisterInstructionsWriteResult: the field instructions at pos + len 64, and SETH with k 3. -/
theorem wit_immediates : (3 : Reg).val < 4 ∧ (⟨1, 2, 63, 0, false, 0⟩ : FmtF).rsv = 0
    ∧ (⟨1, 2, 63, 0, false, 0⟩ : FmtF).pos.toNat + (⟨1, 2, 63, 0, false, 0⟩ : FmtF).len1.toNat + 1 ≤ 64 := by decide

theorem test_andn : res (.andn 0 ⟨6, 4, 3⟩) cpu (fun t => (t.ctx 0).g 6 = 2) = true := by decide
theorem test_sra : res (.sra 0 ⟨6, 4, 3⟩) (cpuOf { regs := [(3, 68), (4, 0xFFFFFFFFFFFFFF00)] })
    (fun t => (t.ctx 0).g 6 = 0xFFFFFFFFFFFFFFF0) = true := by decide
theorem test_mulh : res (.mulh 0 ⟨6, 4, 3⟩) (cpuOf { regs := [(3, 2), (4, 0xFFFFFFFFFFFFFFFF)] })
    (fun t => (t.ctx 0).g 6 = 0xFFFFFFFFFFFFFFFF) = true := by decide
theorem test_clz : res (.clz 0 ⟨6, 3, 0⟩) cpu (fun t => (t.ctx 0).g 6 = 61) = true := by decide
theorem test_bswap : res (.bswap 0 ⟨6, 3, 0⟩) cpu (fun t => (t.ctx 0).g 6 = 0x0500000000000000) = true := by decide
theorem test_write_g0 : res (.or 0 ⟨0, 3, 4⟩) cpu (fun t => (t.ctx 0).g 0 = 0 && (t.ctx 0).pc = 4) = true := by decide
theorem test_seth : res (.seth 0 ⟨3, 1, 0x8000⟩) cpu (fun t => (t.ctx 0).g 3 = 0x80000005) = true := by decide
theorem test_exts : res (.exts 0 ⟨6, 3, 2, 0, true, 0⟩) cpu (fun t => (t.ctx 0).g 6 = 0xFFFFFFFFFFFFFFFF) = true := by decide

/-- ArithmeticWritesOrTraps: ADD that fits under OVE, ADD that overflows under OVE, and DIV by 0 under DZE. -/
def cpuMax : State := cpuOf { st := 3, regs := [(1, 0x7FFFFFFFFFFFFFFF), (2, 1)] }
theorem wit_arith : IssuesPlain cpuMax 0
    ∧ (decide (((cpuMax.ctx 0).g 1).toInt + ((cpuMax.ctx 0).g 2).toInt ≠ ((cpuMax.ctx 0).g 1 + (cpuMax.ctx 0).g 2).toInt) = true
      ∧ (cpuMax.ctx 0).st.getLsbD 0 = true)
    ∧ ((cpuMax.ctx 0).g 3 = 0 ∧ (cpuMax.ctx 0).st.getLsbD 1 = true)
    ∧ ¬(decide (((cpuMax.ctx 0).g 2).toInt + ((cpuMax.ctx 0).g 2).toInt ≠ ((cpuMax.ctx 0).g 2 + (cpuMax.ctx 0).g 2).toInt) = true
      ∧ (cpuMax.ctx 0).st.getLsbD 0 = true) := by
  unfold IssuesPlain Issues; (repeat' apply And.intro) <;> decide
theorem test_add_wraps : res (.add 0 ⟨6, 1, 2⟩) (cpuOf { regs := [(1, 0x7FFFFFFFFFFFFFFF), (2, 1)] })
    (fun t => (t.ctx 0).g 6 = 0x8000000000000000) = true := by decide
theorem test_div_min : res (.div 0 ⟨6, 1, 2⟩) (cpuOf { regs := [(1, 0x8000000000000000), (2, 0xFFFFFFFFFFFFFFFF)] })
    (fun t => (t.ctx 0).g 6 = 0x8000000000000000) = true := by decide

/-- LoadsDeliver and StoresWrite: Pantry, a host window page, and a mailbox partner block at supervisor level. -/
def cpuSuper : State :=
  let s := cpuOf { someRegs with st := 4 }
  { s with img := { s.img with mbMap := 1, mbAddr := [(0, 0x10100)]
                               worlds := ⟨{ attrs := [(0, 3)], partner := [(0, 1)] }, {}⟩ } }
theorem wit_loads :
    (EaOf ⟨6, 1, 0, 0x10⟩ (cpu.ctx 0) 1 true 0x10010 [] ∧ MayAccess cpu 0 .read 0x10010 1 ∧ NoPartner cpu 0 0x10010
      ∧ ∀ b ∈ burstsOf 0x10010 1, b ∉ cpu.pantry.poison)
    ∧ (EaOf ⟨6, 2, 1, 0⟩ (cpu.ctx 0) 8 true 0x100000000 [(2, 0x100000008)] ∧ MayAccess cpu 0 .read 0x100000000 8
      ∧ windowBase ≤ 0x100000000 ∧ NoPartner cpu 0 0x100000000 ∧ cpu.dmaOk (cpu.ctx 0).world = true ∧ (cpu.ctx 0).stores = [])
    ∧ (Issues cpuSuper 0 ∧ EaOf ⟨6, 1, 0, 0x100⟩ (cpuSuper.ctx 0) 4 true 0x10100 [] ∧ MayAccess cpuSuper 0 .read 0x10100 4
      ∧ (cpuSuper.ctx 0).super1 = true ∧ cpuSuper.mbBlockAt (cpuSuper.ctx 0).world 0x10100 = some 0) := by
  unfold EaOf MayAccess NoPartner Issues; (repeat' apply And.intro) <;> decide
theorem wit_stores : EaOf ⟨3, 1, 2, 0⟩ (cpu.ctx 0) 1 false 0xFFFF [(1, 0xFFFF)] ∧ MayAccess cpu 0 .write 0x10000 8 ∧ NoPartner cpu 0 0x10000 := by
  unfold EaOf MayAccess NoPartner; (repeat' apply And.intro) <;> decide
theorem wit_stores_host : EaOf ⟨3, 2, 0, 8⟩ (cpu.ctx 0) 8 false 0x100000008 [] ∧ MayAccess cpu 0 .write 0x100000008 8
    ∧ NoPartner cpu 0 0x100000008 := by
  unfold EaOf MayAccess NoPartner; (repeat' apply And.intro) <;> decide
theorem wit_stores_partner : EaOf ⟨3, 1, 0, 0x100⟩ (cpuSuper.ctx 0) 4 false 0x10100 [] ∧ MayAccess cpuSuper 0 .write 0x10100 4
    ∧ cpuSuper.mbBlockAt (cpuSuper.ctx 0).world 0x10100 = some 0 := by
  unfold EaOf MayAccess; (repeat' apply And.intro) <;> decide
/-- HostLoadErrors: a doubleword of the host window, and what BUS_ERROR leaves. -/
theorem wit_hostLoadErrors : IssuesPlain cpu 0 ∧ EaOf ⟨6, 2, 0, 8⟩ (cpu.ctx 0) 8 true 0x100000008 [] ∧ MayAccess cpu 0 .read 0x100000008 8
    ∧ windowBase ≤ (0x100000008 : W64).toNat ∧ NoPartner cpu 0 0x100000008 ∧ (cpu.ctx 0).stores = [] := by
  unfold EaOf MayAccess NoPartner IssuesPlain Issues; (repeat' apply And.intro) <;> decide

/-- UnassignedIsIllegal and WordsSpellInstructions: the zero word, an unassigned opcode, ADD g0, g0, g0, REP and XBLK. -/
theorem wit_unassigned : (0 : W32).toNat / 2 ^ 26 = 0 ∧ (0 : W32).toNat % 2 ^ 11 = 0 ∧ (0x0F : Nat) ∉ assignedOpcodes
    ∧ (BitVec.ofNat 32 (0x0F * 2 ^ 26) : W32).toNat / 2 ^ 26 = 0x0F := by decide
theorem test_word_zero : hearthWord 0 0 (fun _ => 0) 0 = .unassigned := by decide
theorem test_word_add : hearthWord 0 0 (fun _ => 0) 1 = .row (.add 0 ⟨0, 0, 0⟩) := by decide
theorem test_word_rep : hearthWord 0 0 (fun _ => 0) 0xAC000000 = .row (.rep 0 0) := by decide

theorem test_ldbs : res (.ldbs 0 ⟨4, 1, 0, 0x10⟩) cpu (fun t => (t.ctx 0).delayed = [(4, 0xFFFFFFFFFFFFFF81)]) = true := by decide
theorem test_ldh_order : res (.ldh 0 ⟨4, 1, 0, 0x10⟩) cpu (fun t => (t.ctx 0).delayed = [(4, 0x8281)]) = true := by decide
theorem test_ldb_host : res (.ldb 0 ⟨4, 2, 0, 8⟩) (cpuOf { someRegs with regs := [(2, 0x100000000)] })
    (fun t => (t.ctx 0).delayed = [(4, 0x77)]) = true := by decide
theorem test_std : res (.std 0 ⟨3, 1, 0, 8⟩) cpu
    (fun t => Memory.bytes 0 t.pantry.mem 0x10008 10 = [5, 0, 0, 0, 0, 0, 0, 0, 0x81, 0x82]) = true := by decide

/-- AccessTraps: a misaligned halfword, and a read outside every region. -/
def cpuFar : State := cpuOf { regs := [(3, 0x80000)] }
theorem wit_accessTraps : EaOf ⟨6, 1, 0, 1⟩ (cpu.ctx 0) 2 true 0x10001 [] ∧ (0x10001 : W64).toNat % 2 ≠ 0
    ∧ EaOf ⟨6, 3, 0, 0⟩ (cpuFar.ctx 0) 1 true 0x80000 [] ∧ cpuFar.accessExc 0 .read 0x80000 ≠ none := by
  unfold EaOf; (repeat' apply And.intro) <;> decide

/-- AddressesFencesAndBlocks: one buffered store of a valid page; three bytes copied within the data region. -/
def cpuStore : State := cpuOf { stores := [⟨.slate, 0x100000008, [1, 2], 0, false⟩] }
theorem wit_fence : Issues cpuStore 0 ∧ (∀ b ∈ (cpuStore.ctx 0).stores, cpuStore.pageValid ((b.addr - windowBase) / pageBytes) = true) := by
  unfold Issues; (repeat' apply And.intro) <;> decide
theorem test_fence : res (.fence 0 ⟨0, 0, 0⟩) cpuStore (fun t => t.hostMem = [(0x1000008, 1), (0x1000009, 2)] && (t.ctx 0).stores.isEmpty)
    = true := by decide
def cpuBlock : State := cpuOf { regs := [(1, 0x10010), (2, 3), (5, 0x10012)] }
theorem wit_block : IssuesPlain cpuBlock 0 ∧ (cpuBlock.ctx 0).delayed = [] ∧ ((cpuBlock.ctx 0).g 2).toNat ≤ 3
    ∧ PantryRange cpuBlock 0 .write ((cpuBlock.ctx 0).g 5).toNat ((cpuBlock.ctx 0).g 2).toNat
    ∧ PantryRange cpuBlock 0 .read ((cpuBlock.ctx 0).g 1).toNat ((cpuBlock.ctx 0).g 2).toNat ∧ cpuBlock.pantry.poison = [] := by
  unfold IssuesPlain Issues PantryRange NoPartner; (repeat' apply And.intro) <;> decide
theorem test_movb_overlap : res (.movb 0 ⟨5, 1, 2⟩ 3) cpuBlock
    (fun t => Memory.bytes 0 t.pantry.mem 0x10010 5 = [0x81, 0x82, 0x81, 0x82, 0x81]) = true := by decide


/-! ### Branches, traps, windows and locks (R122 to R127, R139 to R150, R169, R183, R191 to R199, R220) -/

/-- BranchesAndMisalignedJumps: an aligned and a misaligned target in a register, and an instruction in a delay slot. -/
theorem wit_jumps : ((cpu.ctx 0).g 1).toNat % 4 = 0 ∧ ((cpu.ctx 0).g 3).toNat % 4 ≠ 0 := by decide
def cpuSlot : State := cpuOf { pc := 8, branch := some (4, 0x40) }
theorem wit_slot : Issues cpuSlot 0 ∧ (cpuSlot.ctx 0).rep = false ∧ (cpuSlot.ctx 0).branch = some (4, 0x40) := by unfold Issues; decide
theorem test_br_delay : res (.or 0 ⟨6, 3, 0⟩) (after (.br 0 5) cpu) (fun t => (t.ctx 0).pc = 20 && (t.ctx 0).g 6 = 5) = true := by decide
theorem test_call_link : res (.call 0 0x3FFFFFF) (cpuOf { pc := 0x100 })
    (fun t => (t.ctx 0).g 31 = 0x108 && (t.ctx 0).branch = some (0x100, 0xFC)) = true := by decide
theorem test_bz_taken : res (.bz 0 0 2) cpu (fun t => (t.ctx 0).branch = some (0, 8)) = true := by decide

/-- LoopsAndRepeats: a LOOP of one instruction, the instruction at le, REP of a word that R149 allows, and a repetition. -/
theorem wit_loops : (1 : BitVec 16) ≠ 0 ∧ ((cpu.ctx 0).g 3).toNat < 2 ^ 32 := by decide
def cpuLast : State := cpuOf { pc := 8, le := 8, ls := 4, lc := 2 }
theorem wit_loopEnd : Issues cpuLast 0 ∧ (cpuLast.ctx 0).branch = none ∧ (cpuLast.ctx 0).rep = false ∧ (cpuLast.ctx 0).lc ≠ 0
    ∧ (cpuLast.ctx 0).pc = (cpuLast.ctx 0).le := by unfold Issues; decide
theorem wit_rep : (cpu.fetchExc 0 ((cpu.ctx 0).pc + 4).toNat).1 = none
    ∧ repForbidden (leNat (cpu.pnBytes ((cpu.ctx 0).pc + 4).toNat 4)) = false ∧ (cpu.ctx 0).lc = 0 := by decide
def cpuRep : State := cpuOf { rep := true, rc := 2 }
theorem wit_repeat : Issues cpuRep 0 ∧ (cpuRep.ctx 0).rep = true ∧ (cpuRep.ctx 0).lc = 0 := by unfold Issues; decide
theorem test_loop_back : res (.or 0 ⟨6, 3, 0⟩) cpuLast (fun t => (t.ctx 0).pc = 4 && (t.ctx 0).lc = 1) = true := by decide
theorem test_loopi_zero : res (.loopi 0 0 3) cpu (fun t => (t.ctx 0).pc = 16 && (t.ctx 0).lc = 0) = true := by decide
theorem test_rep_count : res (.or 0 ⟨6, 3, 0⟩) cpuRep (fun t => (t.ctx 0).pc = 0 && (t.ctx 0).rc = 1 && (t.ctx 0).rep) = true := by decide

/-- ControlRegisters: dlc is register 12, the last; a value for st that changes OVE and DZE alone. -/
theorem wit_control : (controlValues cpu 0)[(12 : Reg).val]? = some 0xFFFFFFFFFFFFFFFF
    ∧ ((cpuOf { regs := [(3, 3)] }).ctx 0 |>.g 3).toNat / 4 = (cpu.ctx 0).st.toNat / 4 ∧ (cpu.ctx 0).pc = (cpu.ctx 0).le
    ∧ (cpuSlot.ctx 0).pc ≠ (cpuSlot.ctx 0).le := by decide
theorem test_mfc_pc : res (.mfc 0 ⟨6, 0, 0⟩) (cpuOf { pc := 0x40 }) (fun t => (t.ctx 0).g 6 = 0x40) = true := by decide
theorem test_mtc_st : res (.mtc 0 ⟨1, 3, 0⟩) (cpuOf { regs := [(3, 3)] }) (fun t => (t.ctx 0).st = 3) = true := by decide

/-- Slate with a kernel: vectors of TRAP and EXTENSION at 0x20000, supervisor code at 0x30000, gate 9 LOCAL and gate 10 CROSS from both levels,
Granite with its own kernel at 0x40000, the frame area at 0x10000. -/
def kernelOf (x : Ctx) : State :=
  let s := cpuOf x
  { s with
    pantry := { mem := [(0x20058, 0), (0x2005A, 3), (0x20060, 0x40), (0x20062, 3)] }
    img := { s.img with
      regions := [⟨0, 0x10000, .slate⟩, ⟨0x10000, 0x10000, .slate⟩, ⟨0x20000, 0x10000, .slate⟩, ⟨0x30000, 0x10000, .slate⟩,
        ⟨0x40000, 0x10000, .granite⟩]
      worlds := ⟨{ attrs := [(0, 2), (2, 1), (3, 3)], kernel := true, vbase := 0x20000, gates := [(9, 13), (10, 0x10E)], niMax := 16
                   frameBase := 0x10000 },
        { attrs := [(4, 3)], kernel := true, kernelAddr := 0x40000 }⟩ } }
def kernel : State := kernelOf someRegs

/-- TrapsEnterAndReturn and CrossGateEntersOtherWorld. -/
theorem wit_traps : IssuesPlain kernel 0 ∧ (kernel.ctx 0).inWindow = false ∧ EntersSuper kernel 0 0xB 0x30000
    ∧ EntersSuper kernel 0 0xC 0x30040 ∧ Tbl.get 0 (kernel.wcfg (kernel.ctx 0).world).gates 9 % 4 = 1
    ∧ bitAt (Tbl.get 0 (kernel.wcfg (kernel.ctx 0).world).gates 9) 2 = true
    ∧ Tbl.get 0 (kernel.wcfg (kernel.ctx 0).world).gates 0 % 4 = 0 := by
  unfold IssuesPlain Issues EntersSuper; (repeat' apply And.intro) <;> decide
theorem wit_cross : (kernel.ctx 0).delayed = [] ∧ Tbl.get 0 (kernel.wcfg .slate).gates 10 % 4 = 2
    ∧ bitAt (Tbl.get 0 (kernel.wcfg .slate).gates 10) 2 = true ∧ (kernel.ctx 0).visit = none ∧ (kernel.ctx 0).stores = []
    ∧ (kernel.wcfg .granite).kernel = true ∧ kernel.fc.graniteHalt = false ∧ (kernel.ctx 0).world = kernel.home 0
    ∧ kernel.denyAll .slate true .write 0x10000 256 = none ∧ 0x10000 + 256 ≤ windowBase := by
  (repeat' apply And.intro) <;> decide
theorem test_trap_local : res (.trap 0 9 0) kernel (fun t => (t.ctx 0).pc = 0x30000 && (t.ctx 0).super1 && (t.ctx 0).super.pc = 0
    && (t.ctx 0).state = .running) = true := by decide
/-- Vectors of ILLEGAL_INSTRUCTION and of BUS_ERROR. -/
def kernelFaults : State := { kernel with pantry := { mem := [(0x20008, 0x40), (0x2000A, 3), (0x20040, 0x80), (0x20042, 3)], xlat := [(0, 0x1000001#64)] } }
theorem test_zero_word : res (.xblk 0 0) kernelFaults (fun t => (t.ctx 0).pc = 0x30040 && (t.ctx 0).super1) = true := by decide
theorem test_ldb_linkError : res (.ldb 0 ⟨6, 2, 0, 8⟩ .busError) kernelFaults
    (fun t => (t.ctx 0).pc = 0x30080 && (t.ctx 0).delayed.isEmpty && !t.linkBad) = true := by decide
theorem test_trap_refused : res (.trap 0 8 0) kernel (fun t => bitAt (t.ctx 0).super.x.toNat 17
    && (t.hearths.cnt.slate.refused = 1)) = true := by decide
set_option maxRecDepth 4000 in
theorem test_trap_cross : res (.trap 0 10 0) kernel (fun t => (t.ctx 0).pc = 0x40004 && (t.ctx 0).world = .granite && (t.ctx 0).g 1 = 0x10000) = true := by decide
def kernelBack : State := after (.trap 0 9 0) kernel
theorem wit_retx : IssuesPlain kernelBack 0 ∧ (kernelBack.ctx 0).inWindow = false ∧ (kernelBack.ctx 0).visit = none
    ∧ kernelBack.retxStatusBad (kernelBack.ctx 0).super = false ∧ (kernelBack.ctx 0).super.action = 0
    ∧ (kernelBack.ctx 0).super.pc.toNat % 4 = 0
    ∧ World.ofBit ((kernelBack.ctx 0).super.st.getLsbD 3) = kernelBack.home 0 ∧ (kernelBack.ctx 0).super1 = true := by
  unfold IssuesPlain Issues; (repeat' apply And.intro) <;> decide
theorem wit_retx_end : (({ x := 0x400000 } : SaveSet).action = 1) ∧ kernel.retxStatusBad { x := 0x400000 } = false := by
  (repeat' apply And.intro) <;> decide
theorem test_retx : res (.retx 0 ⟨0, 0, 0⟩) kernelBack (fun t => (t.ctx 0).pc = 0 && !(t.ctx 0).super1) = true := by decide

/-- WindowsYieldsAndLocks: a window of 16, which is NI_MAX; a free lock, a lock that context 1 holds, and a number not above one held. -/
theorem wit_window : IssuesPlain kernel 0 ∧ (kernel.ctx 0).inWindow = false ∧ bits (kernel.ctx 0).st.toNat 8 7 = 0 ∧ (16 : BitVec 7) ≠ 0
    ∧ (16 : BitVec 7).toNat ≤ (kernel.wcfg (kernel.ctx 0).world).niMax := by
  unfold IssuesPlain Issues; (repeat' apply And.intro) <;> decide
def cpuLocks : State :=
  let s := cpuOf { someRegs with locks := [⟨5, .slate, false⟩] }
  { s with ctxs := s.ctxs ++ [(1, { state := .waiting, locks := [⟨7, .slate, false⟩] })], img := { s.img with ctxMap := 5 } }
theorem wit_locks : IssuesPlain cpuLocks 0 ∧ (cpuLocks.ctx 0).answer = .none ∧ cpuLocks.lockExc (cpuLocks.ctx 0) 4 = none
    ∧ (cpuLocks.ctx 0).locks.length < 8 ∧ (∀ l ∈ (cpuLocks.ctx 0).locks, l.num < 7) ∧ (cpuLocks.lockHolder 7 .slate).isSome = true
    ∧ cpuLocks.lockHolder 8 .slate = none ∧ (∃ l ∈ (cpuLocks.ctx 0).locks, 5 ≤ l.num)
    ∧ (cpuLocks.ctx 0).locks.find? (fun k => k.num = 5 && k.world = .slate) = some ⟨5, .slate, false⟩
    ∧ cpuLocks.waiters (.lock 5 .slate) = [] := by
  unfold IssuesPlain Issues; (repeat' apply And.intro) <;> decide
theorem test_niw : res (.niw 0 5 0) kernel (fun t => (t.ctx 0).st = 0x510) = true := by decide
theorem test_yield : res (.yield 0 ⟨0, 0, 0⟩) cpu (fun t => (t.ctx 0).state = .ready && (t.ctx 0).pc = 4) = true := by decide
theorem test_lock_waits : res (.lock 0 ⟨0, 4, 0⟩) cpuLocks (fun t => (t.ctx 0).wait = .lock 7 .slate && (t.ctx 0).pc = 0) = true := by decide
theorem test_unlock : res (.unlock 0 ⟨0, 3, 0⟩) cpuLocks (fun t => (t.ctx 0).locks.isEmpty && (t.ctx 0).pc = 4) = true := by decide


/-! ### Ports, streams, drives, leases and coprocessors (R155 to R168, R305 to R307, R322, R380, R423) -/

/-- Port 0 of Slate in a mode, with attachment 0 READY and a bulk IN endpoint 0x81; register 6 holds a port command. -/
def portOf (mode : Nat) (w : W64) (t : Att) : State :=
  let s := cpuOf { someRegs with regs := someRegs.regs ++ [(6, w)] }
  { s with
    img := { s.img with portMap := 1 }
    ports := [(0, { cfg := { mode := mode, gpioDir := 3, pinDir := [(0, 1), (3, 1)], pulseMax := [(3, 50)], line := [(3, 9600)] }
                    enabled := true, vbus := true })]
    atts := [(0, { t with state := .ready, desc := some ⟨2, 0, 0, 0, 0, 0, 0, 0, 0, 0, 64, [], [⟨0x81, 2, 64, 0⟩, ⟨2, 2, 64, 0⟩, ⟨0x83, 3, 8, 1⟩], 0⟩ })] }

/-- PortInstructionsMoveWords: a word to be read, an empty channel, an open packet of one word, the marks, and the events. -/
def portRx : State := portOf 2 0 { rx := { words := [{ w := 0x10000002, head := true }], visible := 1 } }
def portBad : State := portOf 2 0 { rx := { words := [{ w := 1, bad := true }], visible := 1 } }
def portTx : State := portOf 2 3 { tx := { packets := [{ ctx := 0, words := [9] }], owner := some 0, written := 2 } }
theorem wit_port : Issues portRx 0 ∧ (portRx.ctx 0).rep = false ∧ portRx.portRef (portRx.ctx 0) 0 = .ok (0, none) := by
  unfold Issues; (repeat' apply And.intro) <;> decide
theorem wit_frd : (portRx.att 0).hasChannels = true ∧ (portRx.att 0).rx.read < (portRx.att 0).rx.visible
    ∧ (portRx.att 0).rx.words[0]? = some { w := 0x10000002, head := true } ∧ (portRx.ctx 0).actOn 0 cmdReads = false
    ∧ (portBad.att 0).rx.words[0]? = some { w := 1, bad := true }
    ∧ (portTx.att 0).rx.visible ≤ (portTx.att 0).rx.read ∧ ((portOf 2 0 { hub := true }).att 0).hasChannels = false := by
  (repeat' apply And.intro) <;> decide
theorem wit_tx : portRx.txFree 0 ≠ 0 ∧ (portRx.att 0).tx.owner = none ∧ (portTx.att 0).tx.owner = some 0 ∧ portTx.txFree 0 ≠ 0
    ∧ (portTx.att 0).tx.packets = [] ++ [{ ctx := 0, words := [9] }] ∧ ((portTx.ctx 0).g 6).toNat ≤ 4 * 1
    ∧ 4 * (1 - 1) < ((portTx.ctx 0).g 6).toNat := by (repeat' apply And.intro) <;> decide
def portMark (k : W64) : State := portOf 2 k { rx := { words := [{ w := 1 }, { w := 2 }], read := 1, visible := 2, mark := some 0 } }
theorem wit_marks : (portMark 5).portRef ((portMark 5).ctx 0) 0 = .ok (0, none) ∧ ((portMark 5).att 0).hasChannels = true
    ∧ ((portMark 5).ctx 0).actOn 0 cmdReads = false ∧ ((portMark 4).att 0).rx.mark = some 0 ∧ (((portMark 5).ctx 0).g 6).toNat % 8 = 5
    ∧ ((portMark 5).att 0).tx.mark = none := by (repeat' apply And.intro) <;> decide
def portNoAct (k : W64) : State :=
  let s := portMark k
  { s with ctxs := [(0, { s.ctx 0 with act := some { code := 10, tgt := 0, att := none }, tgtCount := 1, latch := [(0, 4)] })] }
theorem wit_marksNoWrite : Issues (portNoAct 7) 0 ∧ ((portNoAct 7).ctx 0).actOn 0 cmdWrites = false := by unfold Issues; decide
theorem wit_waite : (portNoAct 7).portRef ((portNoAct 7).ctx 0) 0 = .ok (0, none) ∧ ((portNoAct 7).ctx 0).latchFor 0 (some 0) = some 0
    ∧ ((portNoAct 4).waiteEvents 0 0 4 (some 0)) = 4 ∧ (portNoAct 1).waiteEvents 0 0 1 (some 0) = 0
    ∧ (((portNoAct 1).ctx 0).g 6).toNat % 128 ≠ 0 ∧ ((portNoAct 1).att 0).state ≠ .empty := by
  (repeat' apply And.intro) <;> decide
theorem test_frd : res (.frd 0 ⟨7, 0, 0⟩) portRx (fun t => (t.ctx 0).delayed = [(7, 0x110000002)] && (t.att 0).rx.read = 1) = true := by decide
theorem test_fclose : res (.fclose 0 ⟨0, 0, 6⟩) portTx (fun t => (t.att 0).tx.packets = [{ ctx := 0, words := [9], len := some 3 }]
    && (t.att 0).tx.owner.isNone) = true := by decide
theorem test_rewind_rx : res (.rewindRx 0 (.fmk 0 0 6)) (portMark 4) (fun t => (t.att 0).rx.read = 0) = true := by decide

/-- PortCommandsAct: a command of each mode that no check refuses, and one that is refused. -/
theorem wit_portCommands : (portOf 2 0x00050008 {}).cmdRefusal 0 0 0x00050008 = 0 ∧ (portOf 2 0x0000008 {}).cmdRefusal 0 0 8 = 2
    ∧ (portOf 1 0x00400002 {}).cmdRefusal 0 0 0x00408102 = 0 ∧ (portOf 1 0 {}).cmdRefusal 0 0 0x00408305 = 0
    ∧ (portOf 1 0 {}).cmdRefusal 0 0 1 = 0 ∧ (portOf 1 0 {}).cmdRefusal 0 0 0x8106 = 0 ∧ (portOf 1 0 {}).cmdRefusal 0 0 0x00010203 = 0
    ∧ (portOf 2 0 {}).cmdRefusal 0 0 0x309 = 0 ∧ (portOf 3 0 {}).cmdRefusal 0 0 0x0001000C = 0 ∧ (portOf 3 0 {}).cmdRefusal 0 0 0x0001000D = 0
    ∧ (portOf 4 0 {}).cmdRefusal 0 0 0xFFFF0010 = 2 ∧ (portOf 4 0 {}).cmdRefusal 0 0 0xFFFF0110 = 0 := by
  (repeat' apply And.intro) <;> decide
theorem wit_portCommandsAtOnce : (portOf 2 0 {}).cmdRefusal 0 0 0x010A = 0 ∧ (portOf 2 0 {}).cmdRefusal 0 0 0x0B = 0
    ∧ (portOf 4 0 {}).cmdRefusal 0 0 0x00010111 = 0 ∧ (portOf 5 0 {}).cmdRefusal 0 0 0x00010312 = 0
    ∧ (portOf 5 0 {}).cmdRefusal 0 0 0x00320313 = 0 ∧ (portOf 5 0 {}).cmdRefusal 0 0 0x00330313 = 2
    ∧ (portOf 5 0 {}).cmdRefusal 0 0 0x01000014 = 0 ∧ (portOf 1 0 {}).cmdRefusal 0 0 0x8107 = 0
    ∧ ∀ k ∈ ((portOf 1 0 {}).att 0).cmds, k.ep ≠ (portOf 1 0 {}).cmdEp 0 7 0x81 := by (repeat' apply And.intro) <;> decide
theorem wit_namesCmd : NamesCmd (portOf 2 0x00050008 {}) 0 6 8 ∧ (portOf 2 0x00050008 {}).portRef ((portOf 2 0x00050008 {}).ctx 0) 0 = .ok (0, none)
    ∧ Issues (portOf 2 0x00050008 {}) 0 := by unfold NamesCmd Issues; (repeat' apply And.intro) <;> decide
theorem test_uartBreak : res (.uartBreak 0 ⟨7, 0, 6⟩) (portOf 2 0x00050008 {}) (fun t => (t.ctx 0).g 7 = 0 && (t.att 0).cmds.length = 1) = true := by
  decide
theorem test_gpioSet : res (.gpioSet 0 ⟨7, 0, 6⟩) (portOf 5 0x00010312 {}) (fun t => ((t.port 0).pin 3).level && (t.ctx 0).g 7 = 0) = true := by decide
theorem test_gpioPulse : res (.gpioPulse 0 ⟨7, 0, 6⟩) (portOf 5 0x00320313 {})
    (fun t => ((t.port 0).pin 3).pulseEnd = some 50000000) = true := by decide

/-- StreamsMoveAndEnd: a WRITE member of 12 bytes at 0x10010 whose last 8 bytes stand before the stream; the member is used up; READ. -/
def streamOf (code moved : Nat) : State :=
  let s := cpuOf { regs := [(3, 8), (4, 0x1122334455667788)], stream := { members := [{ code := code, count := 12, addr := 0x10010 }], moved := moved } }
  { s with ctxs := [(0, { s.ctx 0 with act := some { code := code, tgt := 0, att := none } })] }
theorem wit_stream : Issues (streamOf 1 4) 0 ∧ ((streamOf 1 4).ctx 0).rep = false ∧ (streamOf 1 4).pantry.poison = []
    ∧ ((streamOf 1 4).ctx 0).actCode = 1 ∧ StreamAt (streamOf 1 4) 0 { code := 1, count := 12, addr := 0x10010 } 0x10010 8 .read
    ∧ (((streamOf 1 4).ctx 0).g 3).toNat = 8 := by unfold Issues StreamAt; (repeat' apply And.intro) <;> decide
theorem wit_streamRead : Issues (streamOf 2 4) 0 ∧ ((streamOf 2 4).ctx 0).actCode = 2
    ∧ StreamAt (streamOf 2 4) 0 { code := 2, count := 12, addr := 0x10010 } 0x10010 8 .write := by
  unfold Issues StreamAt; (repeat' apply And.intro) <;> decide
theorem wit_streamEnd : ((streamOf 1 12).ctx 0).stream.members = [{ code := 1, count := 12, addr := 0x10010 }]
    ∧ ({ code := 1, count := 12, addr := 0x10010 } : Ccw).cd = false ∧ ({ code := 1, count := 12 } : Ccw).bytes ≤ ((streamOf 1 12).ctx 0).stream.pos
    ∧ ({ code := 2, count := 12 } : Ccw).bytes ≤ ((streamOf 2 12).ctx 0).stream.pos := by (repeat' apply And.intro) <;> decide
theorem test_xget : res (.xget 0 ⟨5, 0, 3⟩) (streamOf 1 0) (fun t => (t.ctx 0).delayed = [(5, 0x8281), (3, 8)]) = true := by decide
theorem test_xput : res (.xput 0 ⟨0, 4, 3⟩) (streamOf 2 4) (fun t => Memory.bytes 0 t.pantry.mem 0x10013 3 = [0, 0x88, 0x77]
    && (t.ctx 0).g 3 = 8) = true := by decide
def hendState (a : Activation) (v : W64) : State :=
  let s := cpuOf { regs := [(3, v)] }
  { s with ctxs := [(0, { s.ctx 0 with act := some a })] }
theorem wit_hend : IssuesPlain (hendState ⟨1, 0, none, false, false, false, false⟩ 0) 0 ∧ (2 : Reg).val % 4 = 2 ∧ (7 : Reg).val % 4 = 3
    ∧ (7 : Reg).val < 8 ∧ (((hendState ⟨1, 0, none, false, false, false, false⟩ 7).ctx 0).g 3).toNat % 256 ∈ [2, 3, 6, 7] := by
  unfold IssuesPlain Issues; (repeat' apply And.intro) <;> decide
theorem test_hend : res (.hend 0 ⟨2, 3, 0⟩) (hendState ⟨1, 0, none, false, false, false, false⟩ 0)
    (fun t => ((t.ctx 0).act.map Activation.portDone) = some true) = true := by decide

/-- DriveAndLeaveInstructions: drive 0 of Slate, enabled; register 6 holds the value to write. -/
def driveOf (d : Drive) (v : W64) : State :=
  let s := cpuOf { regs := [(6, v)] }
  { s with img := { s.img with driveMap := 1 }, boiler := { s.boiler with domains := [48] }
           drives := [(0, { d with cfg := { d.cfg with mode := 1, loadW := 10 } })] }
theorem wit_drive : Issues (driveOf {} 1) 0 ∧ ((driveOf {} 1).ctx 0).rep = false ∧ NamesDrive (driveOf {} 1) 0 0 0
    ∧ ((driveOf {} 1).drive 0).answers = [] ∧ (driveOf {} 1).driveEnabled 0 = true ∧ (driveOf {} 1).driveRead 0 0x24 = none
    ∧ (driveOf {} 1).driveRead 0 0x18 ≠ none := by unfold Issues NamesDrive; (repeat' apply And.intro) <;> decide
theorem wit_driveValues : (((driveOf {} 1000).ctx 0).g 6).toNat ≤ 1000 ∧ (((driveOf {} 10000).ctx 0).g 6).toNat ≤ 10000
    ∧ ((driveOf {} 4095).drive 0).adc1 ≤ 4095 ∧ ((driveOf {} 2147483647).drive 0).encPos ≠ 2147483647
    ∧ ((driveOf { encCmp := 5 } 1).drive 0).encCmp ≠ 0 ∧ ((driveOf {} 1).drive 0).run = false ∧ ((driveOf {} 1).drive 0).waiting = []
    ∧ ((driveOf {} 1).drive 0).lease = none := by (repeat' apply And.intro) <;> decide
theorem wit_driveRun : ((driveOf {} 1).drive 0).safeOut = false ∧ ((driveOf {} 1).drive 0).cfg.gang = 0
    ∧ ((driveOf {} 1).drive 0).cfg.demand 0 0 ≤ (driveOf {} 1).leaseW 0 ∧ ((driveOf { run := true } 0).drive 0).run = true
    ∧ ((driveOf { causeRequest := true } 0).drive 0).causeRequest = true ∧ ((driveOf {} 1).drive 0).causeFault = false := by
  (repeat' apply And.intro) <;> decide
theorem wit_driveOff : ({ driveOf {} 1 with boiler := {} } : State).driveEnabled 0 = false := by decide
theorem test_drd : res (.drd 0 ⟨5, 0, 0⟩ 0x14) (driveOf { encPos := 0xFFFFFFFF } 0) (fun t => (t.ctx 0).delayed = [(5, 0xFFFFFFFFFFFFFFFF)]) = true := by
  decide
theorem test_pwmFreq : res (.pwmFreq 0 ⟨5, 0, 6⟩) (driveOf {} 1000) (fun t => (t.drive 0).freq = 1000 && (t.ctx 0).g 5 = 0) = true := by decide
theorem test_run : res (.run 0 ⟨5, 0, 6⟩) (driveOf { dir := true } 1) (fun t => (t.drive 0).run && (t.drive 0).dirNow) = true := by decide
theorem test_safeReq : res (.safeReq 0 ⟨5, 0, 6⟩) (driveOf { run := true, actA := 9 } 1)
    (fun t => (t.drive 0).causeRequest && (t.drive 0).safeOut && !(t.drive 0).run) = true := by decide
def leaveState (a : LeaveAnswer) : State :=
  let s := cpuOf { regs := [(1, 0x10000)], answer := a, leases := [7] }
  { s with
    pantry := { s.pantry with mem := [(0x10004, 1), (0x10005, 6), (0x10006, 7), (0x10008, 1)] }
    boiler := { s.boiler with leases := [(7, some { owner := .context 0, plant := true, cls := 6, amount := 5, estMs := 1, granted := 0 })] } }
theorem wit_leave : Issues (leaveState .none) 0 ∧ ((leaveState .none).ctx 0).answer = .none
    ∧ PantryRange (leaveState .none) 0 .read 0x10000 16 ∧ 7 ∈ ((leaveState .none).ctx 0).leases
    ∧ (let d := Memory.bytes 0 (leaveState .none).pantry.mem 0x10000 16
       fieldAt d 0 3 = 0 ∧ fieldAt d 3 1 = 0 ∧ fieldAt d 4 1 ≤ 1 ∧ fieldAt d 5 1 = 6 ∧ fieldAt d 6 2 = 7 ∧ fieldAt d 8 4 = 1 ∧ fieldAt d 12 4 = 0)
    ∧ ((leaveState .none).boiler.lease 7).isSome = true ∧ ((leaveState (.granted 3)).ctx 0).answer = .granted 3 := by
  unfold Issues PantryRange NoPartner; (repeat' apply And.intro) <;> decide
theorem test_leave_release : res (.leaveInstr 0 ⟨5, 1, 0⟩) (leaveState .none) (fun t => (t.ctx 0).g 5 = 7 && (t.boiler.lease 7).isNone) = true := by decide

/-- ChecksumAndControlUnits: the check value of CRC-32C over "123456789" is E3069283; 16 bytes of a control block. -/
theorem wit_crc : crcUpdate 7 0xF0 (leBytes 2 0x1234) = some 0xD6 := by decide
def crcState : State :=
  let s := cpuOf { regs := [(1, 0x10000), (2, 3), (3, 0xFF)] }
  { s with pantry := { mem := [(0x10000, 1), (0x10001, 2), (0x10002, 4)] } }
theorem wit_crcb : IssuesPlain crcState 0 ∧ (crcState.ctx 0).delayed = [] ∧ PantryRange crcState 0 .read 0x10000 3
    ∧ crcUpdate 7 0xFF (Memory.bytes 0 crcState.pantry.mem 0x10000 3) = some 0xF8 := by
  unfold IssuesPlain Issues PantryRange NoPartner; (repeat' apply And.intro) <;> decide
theorem wit_controlUnit : PantryRange cpu 0 .write 0x10000 32 ∧ PantryRange cpu 0 .read 0x10000 32 ∧ 0x10000 % 8 = 0 ∧ cpu.pantry.poison = [] := by
  unfold PantryRange NoPartner; (repeat' apply And.intro) <;> decide
theorem test_crcb : res (.crcb 0 ⟨3, 1, 2⟩ 7 0 0 9) crcState (fun t => (t.ctx 0).g 3 = 0xF8 && (t.ctx 0).g 1 = 0x10003 && (t.ctx 0).g 2 = 0) = true := by
  decide
theorem test_rlim : res (.rlim 0 ⟨5, 1, 3⟩) { crcState with pantry := { mem := [(0x10000, 7)] } } (fun t => (t.ctx 0).delayed = [(5, 7)]) = true := by
  decide

/-- FlintAbsorbsAndVerifies: an open session, 64 open sessions, and the block of an FLVER. -/
def flintState (q : Option FlintSession) (n : Nat) : State :=
  let s := cpuOf { regs := [(1, 0x10000), (2, 3)], flint := q }
  { s with ctxs := s.ctxs ++ (List.range n).map (fun i => (i + 1, { flint := some {} })) }
theorem wit_flint : IssuesPlain (flintState (some {}) 0) 0 ∧ (flintState none 63).flintOpen < 64 ∧ 64 ≤ (flintState none 64).flintOpen
    ∧ ((flintState none 64).ctx 0).flint = none ∧ ((flintState (some {}) 0).ctx 0).flint = some {} ∧ (flintState none 0).waiters .flint = []
    ∧ PantryRange (flintState (some {}) 0) 0 .read 0x10000 3 := by
  unfold IssuesPlain Issues PantryRange NoPartner; (repeat' apply And.intro) <;> decide
theorem test_flabs : res (.flabs 0 ⟨0, 1, 2⟩ 9) (flintState (some {}) 0) (fun t => (t.ctx 0).flint = some { absorbed := [0, 0, 0] }) = true := by decide
def flverState (a : LeaveAnswer) : State :=
  let s := cpuOf { regs := [(1, 0x10000)], answer := a }
  { s with pantry := { mem := [(0x10000, 0x40), (0x10002, 1), (0x10008, 9), (0x10011, 2), (0x10012, 1), (0x10018, 0x80), (0x1001A, 1)] } }
theorem wit_flver_range (a n : Nat) (h : 0x10000 ≤ a) (h1 : a + n ≤ 0x20000) : PantryRange (flverState .verified) 0 .read a n := by
  refine ⟨by unfold windowBase; omega, fun i hi => ⟨?_, fun h2 => absurd h2 (by decide)⟩⟩
  have h3 : (flverState .verified).place (a + i) = .region .slate 0 := by
    unfold State.place
    rw [if_pos (by unfold windowBase; omega), if_pos (show a + i < (flverState .verified).img.cap from by
      show a + i < 0x100000; omega)]
    have h4 : findRegion (a + i) (flverState .verified).img.regions 0 = some (1, { base := 0x10000, len := 0x10000, world := .slate }) := by
      show findRegion (a + i) [{ base := 0, len := 0x10000, world := .slate }, { base := 0x10000, len := 0x10000, world := .slate }] 0 = _
      unfold findRegion
      rw [if_neg (show ¬(0 ≤ a + i ∧ a + i < 0 + 0x10000) from by omega)]
      unfold findRegion
      rw [if_pos (by simp; omega)]
    rw [h4]; rfl
  unfold State.deny
  rw [h3]; rfl
theorem wit_flver : Issues (flverState .verified) 0 ∧ ((flverState .verified).ctx 0).answer = .verified
    ∧ (let w := fun i : Nat => fieldAt (Memory.bytes 0 (flverState .verified).pantry.mem 0x10000 32) (8 * i) 8
       w 0 = 0x10040 ∧ w 1 = 9 ∧ w 2 = 0x10200 ∧ w 3 = 0x10080)
    ∧ PantryRange (flverState .verified) 0 .read 0x10200 29792 ∧ PantryRange (flverState .verified) 0 .read 0x10080 64 := by
  refine ⟨by unfold Issues; decide, by decide, by (repeat' apply And.intro) <;> decide, wit_flver_range _ _ (by decide) (by decide),
    wit_flver_range _ _ (by decide) (by decide)⟩
theorem test_flver_waits : res (.flver 0 ⟨5, 1, 0⟩) (flverState .none) (fun t => (t.ctx 0).wait = .flverLeave && (t.ctx 0).pc = 0) = true := by
  decide


/-! ### Channel programs and contexts (R82 to R115, R213 to R230) -/

/-- Context 0 of Slate runs and starts the CCW `y`, which stands at 0x10000; its targets are attachment 0, drive 0 and compare unit 0. Queue 1
is its completion queue, which stands at 4 KiB of host memory. -/
def ccwState (y : Ccw) (x : Ctx) : State :=
  let s := cpu
  { s with
    attic := { s.attic with config := .image }
    ctxs := [(0, { x with state := .running, level := 3, ccwAddr := 0x10000, header := 0x10100, tgtCount := 3, tag := 9, cq := 1, sq := 1
                          targets := [(1, 0x1000), (2, 0x2000)] })]
    pantry := { mem := Memory.write 0 [] 0x10000 y.image }
    ports := [(0, { cfg := { mode := 2 }, enabled := true })]
    atts := [(0, { state := .ready, profile := 5, rx := { words := [{ w := 1 }], read := 1, visible := 1, mark := some 0 } })]
    drives := [(0, { cfg := { mode := 1 } })]
    boiler := { s.boiler with domains := [32, 48] }
    fns := ⟨{ bme := true, fstate := .running }, {}⟩
    qm := ⟨{ cqs := [(0, { state := .active, base := 0x9000, depth := 64 }), (1, { state := .active, base := 0x1000, depth := 64 })] }, {}⟩
    img := { s.img with
      ctxMap := 5, portMap := 1, driveMap := 1, cmpMap := 1
      profiles := ⟨{ base := 0x18000, stride := 256 }, {}⟩
      worlds := ⟨{ attrs := [(0, 2)], handler := true, handlers := [⟨5, 0, 15, 0x40⟩, ⟨7, 1, 0, 0x80⟩] }, {}⟩ } }
def ccwY (y : Ccw) : Ccw := { y with loc := 0x10000 }

theorem wit_handler : (let y : Ccw := { code := 1, count := 8, addr := 0x10200 }
    NextCcw (ccwState y {}) 0 (ccwY y) ∧ StartsWell (ccwState y {}) 0 (ccwY y) ∧ (ccwY y).dln = false
      ∧ ((ccwState y {}).ctx 0).kind 0 = 0 ∧ ((ccwState y {}).ctx 0).target 0 % 4096 = 0 ∧ (ccwState y {}).attPresent 0 0 = true
      ∧ ((ccwState y {}).port 0).safe = false ∧ ((ccwState y {}).wcfg .slate).handlerFor 1 ((ccwState y {}).att 0).profile 0 = some 0x40) := by
  unfold NextCcw StartsWell; (repeat' apply And.intro) <;> decide
theorem wit_exec : (let y : Ccw := { code := 9, count := 8, param := 7, addr := 0x10200 }
    NextCcw (ccwState y {}) 0 (ccwY y) ∧ StartsWell (ccwState y {}) 0 (ccwY y)
      ∧ ((ccwState y {}).wcfg .slate).handlerFor 9 ((ccwState y {}).att 0).profile 7 = some 0x80) := by
  unfold NextCcw StartsWell; (repeat' apply And.intro) <;> decide
theorem test_write_activates : res (.write 0) (ccwState { code := 1, count := 8, addr := 0x10200 } {})
    (fun t => (t.ctx 0).pc = 0x40 && (t.ctx 0).act.isSome) = true := by decide

theorem wit_nop_chain : (let y : Ccw := { code := 6, flags := 2 }
    NextCcw (ccwState y {}) 0 (ccwY y) ∧ Unencumbered (ccwState y {}) 0 ∧ StartsWell (ccwState y {}) 0 (ccwY y) ∧ (ccwY y).cc = true
      ∧ (ccwY y).pst = false) := by unfold NextCcw Unencumbered StartsWell; (repeat' apply And.intro) <;> decide
theorem wit_post : (let y : Ccw := { code := 0xC, flags := 2 }
    NextCcw (ccwState y {}) 0 (ccwY y) ∧ StartsWell (ccwState y {}) 0 (ccwY y) ∧ (ccwState y {}).isResident 0 = false
      ∧ ((ccwState y {}).cq .slate 1).state = .active ∧ ((ccwState y {}).cq .slate 1).full = false
      ∧ (ccwState y {}).storeOf .slate 1 = []) := by unfold NextCcw StartsWell; (repeat' apply And.intro) <;> decide
theorem wit_tic : (let y : Ccw := { code := 5, param := 1, addr := 0x10040 }
    NextCcw (ccwState y {}) 0 (ccwY y) ∧ (ccwY y).checkTic ((ccwState y {}).ctx 0) false = none
      ∧ effAddr ((ccwState y {}).ctx 0).header (ccwY y).addr = some 0x10040 ∧ ((ccwState y { ticRun := 3 }).ctx 0).ticRun < 4
      ∧ 4 ≤ ((ccwState y { ticRun := 4 }).ctx 0).ticRun) := by unfold NextCcw; (repeat' apply And.intro) <;> decide
theorem test_tic_cond : res (.tic 0) (ccwState { code := 5, param := 1, addr := 0x10040 } { lastCond := true })
    (fun t => (t.ctx 0).ccwAddr = 0x10040) = true := by decide
theorem test_tic_not : res (.tic 0) (ccwState { code := 5, param := 2, addr := 0x10040 } { lastCond := true })
    (fun t => (t.ctx 0).ccwAddr = 0x10010) = true := by decide
theorem wit_mark : (let y : Ccw := { code := 8, flags := 2, param := 4 }
    NextCcw (ccwState y {}) 0 (ccwY y) ∧ StartsWell (ccwState y {}) 0 (ccwY y) ∧ (ccwY y).dln = false
      ∧ ((ccwState y {}).att 0).hasChannels = true ∧ ((ccwState y {}).att 0).rx.mark = some 0) := by
  unfold NextCcw StartsWell; (repeat' apply And.intro) <;> decide
theorem test_mark_rewind : res (.rewindRx 0 .mark) (ccwState { code := 8, flags := 2, param := 4 } {})
    (fun t => (t.att 0).rx.read = 0 && (t.ctx 0).ccwAddr = 0x10010) = true := by decide

theorem wit_wait : (let y : Ccw := { code := 7, tgt := 2, flags := 2, param := 1 }
    NextCcw (ccwState y {}) 0 (ccwY y) ∧ (ccwY y).check ((ccwState y {}).ctx 0) ((ccwState y {}).isResident 0) false = none
      ∧ ((ccwState y {}).ctx 0).kind 2 ≠ 0 ∧ Tbl.get 0 ((ccwState y { latch := [(2, 3)] }).ctx 0).latch 2 &&& 1 ≠ 0
      ∧ Tbl.get 0 ((ccwState y {}).ctx 0).latch 2 &&& 1 = 0 ∧ ((ccwState y { pdeadline := 0 }).ctx 0).pdeadline ≤ (ccwState y {}).now
      ∧ (ccwState y {}).now < ((ccwState y {}).ctx 0).pdeadline) := by unfold NextCcw; (repeat' apply And.intro) <;> decide
theorem test_wait_latched : res (.wait 0) (ccwState { code := 7, tgt := 2, flags := 2, param := 1 } { latch := [(2, 3)] })
    (fun t => (t.ctx 0).lastCond && (t.ctx 0).ccwAddr = 0x10010 && Tbl.get 0 (t.ctx 0).latch 2 = 0) = true := by decide
theorem test_wait_waits : res (.wait 0) (ccwState { code := 7, tgt := 2, flags := 2, param := 1 } {})
    (fun t => (t.ctx 0).wait = .ccw 2 1 && (t.ctx 0).state = .waiting) = true := by decide
theorem wit_plant : (let y : Ccw := { code := 0xA, tgt := 1, flags := 2, param := 5 + 1000 * 65536 }
    NextCcw (ccwState y {}) 0 (ccwY y) ∧ StartsWell (ccwState y {}) 0 (ccwY y) ∧ ((ccwState y {}).ctx 0).kind 1 = 1
      ∧ (ccwState y {}).driveEnabled 0 = true ∧ (ccwY y).param % 256 = 5 ∧ (ccwY y).param / 65536 % 65536 = 1000) := by
  unfold NextCcw StartsWell; (repeat' apply And.intro) <;> decide
theorem wit_plantDir : (let y : Ccw := { code := 0xA, tgt := 1, flags := 2, param := 6 + 65536 }
    StartsWell (ccwState y {}) 0 (ccwY y) ∧ (ccwY y).param % 256 = 6 ∧ (ccwY y).param / 65536 % 65536 = 1) := by
  unfold StartsWell; (repeat' apply And.intro) <;> decide
theorem wit_leaveCcw : (let y : Ccw := { code := 0xB, flags := 2, count := 1, param := 3 }
    NextCcw (ccwState y {}) 0 (ccwY y) ∧ StartsWell (ccwState y {}) 0 (ccwY y) ∧ (ccwY y).param / 256 = 0
      ∧ Tbl.get 0 ((ccwState y {}).ctx 0).ccwLease 1 = 0) := by unfold NextCcw StartsWell; (repeat' apply And.intro) <;> decide
theorem test_plant : res (.plant 0) (ccwState { code := 0xA, tgt := 1, flags := 2, param := 5 + 1000 * 65536 } {})
    (fun t => (t.drive 0).freq = 1000 && (t.ctx 0).ccwAddr = 0x10010) = true := by decide

theorem wit_programEnd : (let y : Ccw := { code := 6 }
    NextCcw (ccwState y {}) 0 (ccwY y) ∧ Unencumbered (ccwState y {}) 0 ∧ StartsWell (ccwState y {}) 0 (ccwY y) ∧ (ccwY y).cc = false
      ∧ ((ccwState y {}).ctx 0).group = none ∧ ((ccwState y {}).ctx 0).orphaned = false ∧ ((ccwState y {}).ctx 0).leases = []
      ∧ ((ccwState y {}).ctx 0).flint = none ∧ ((ccwState y {}).qm.get .slate).haltWait = none
      ∧ bitAt ((ccwState y {}).fn .slate).accepted 8 = false) := by
  unfold NextCcw Unencumbered StartsWell; (repeat' apply And.intro) <;> decide
theorem test_nop_ends : res (.nop 0) (ccwState { code := 6 } {}) (fun t => (t.ctx 0).state = .free
    && hostBytesOf t.hostMem 0x1000 4 = [0, 0, 1, 0] && hostBytesOf t.hostMem 0x100A 3 = [0, 0, 0x0B]) = true := by decide

theorem wit_deadline : ((ccwState {} { started := true, deadline := 5 }).ctx 0).started = true
    ∧ (ccwState {} {}).frozen ((ccwState {} {}).home 0) = false ∧ (({ ccwState {} { started := true, deadline := 5 } with
        qz := { now := 6 } } : State).ctx 0).deadline < ({ ccwState {} {} with qz := { now := 6 } } : State).now
    ∧ (ccwState {} {}).now ≤ ((ccwState {} {}).ctx 0).deadline := by (repeat' apply And.intro) <;> decide
def lateState (e : Option AsyncErr) : State :=
  let s := kernelOf { someRegs with stores := [⟨.slate, 0x100000008, [1], 0, false⟩], asyncErr := e }
  { s with pantry := { s.pantry with mem := [(0x20072, 3)] } }
theorem wit_lateBusErrors : ((lateState none).ctx 0).stores = [⟨.slate, 0x100000008, [1], 0, false⟩] ∧ ((lateState none).ctx 0).state ≠ .suspended
    ∧ ((lateState none).ctx 0).asyncErr = none ∧ ((lateState (some ⟨2, 4, false⟩)).ctx 0).asyncErr = some ⟨2, 4, false⟩
    ∧ ((lateState (some ⟨2, 4, false⟩)).ctx 0).asyncDue = true ∧ (lateState (some ⟨2, 4, false⟩)).issues .slate = true
    ∧ EntersSuper (lateState (some ⟨2, 4, false⟩)) 0 0xE 0x30000 ∧ (lateState none).pageValid 0 = false := by
  unfold EntersSuper; (repeat' apply And.intro) <;> decide
theorem test_lateBusError_multi : res (.lateBusError 0 2) (lateState (some ⟨3, 4, false⟩))
    (fun t => (t.ctx 0).asyncErr = some ⟨3, 4, true⟩ && t.hearths.cnt.slate.async = 1) = true := by decide
theorem test_asyncBusError : res (.asyncBusError 0) (lateState (some ⟨2, 4, false⟩))
    (fun t => (t.ctx 0).pc = 0x30000 && (t.ctx 0).super1 && (t.ctx 0).asyncErr.isNone) = true := by decide

/-- Contexts 0 to 2 of Slate on Hearth 0, whose domain is on. -/
def hearthState (l : List Ctx) : State :=
  { ccwState {} {} with ctxs := l.zipIdx.map (fun p => (p.2, p.1)), img := { (ccwState {} {}).img with ctxMap := 0x55555 } }
def ready (d n : Nat) : Ctx := { state := .ready, deadline := d, readySeq := n }
def runs (d i : Nat) : Ctx := { state := .running, deadline := d, slot := i, retired := 4096 }
theorem wit_issueSlot : (let s := hearthState [runs 9 0, ready 5 0, ready 7 1]
    s.freeSlot 0 = some 1 ∧ (s.ctx 1).state = .ready ∧ (1, s.ctx 1) ∈ s.ctxs ∧ s.mayIssue 0 1 = true ∧ (s.ctx 1).wait ≠ .portEnd
      ∧ s.boiler.domains.contains (32 + 0 / 4) = true ∧ s.hearths.failed = [] ∧ s.onHearth 0 .ready = [(1, ready 5 0), (2, ready 7 1)]) := by
  (repeat' apply And.intro) <;> decide
def full : State := hearthState ((List.range 8).map (fun i => runs (10 + i) i) ++ [ready 5 0])
theorem wit_preemption : full.freeSlot 0 = none
    ∧ firstReady ((full.onHearth 0 .ready).filter (fun p => full.issues (full.home p.1))) = some (8, ready 5 0)
    ∧ lastRunning (full.onHearth 0 .running) = some (7, runs 17 7) ∧ (runs 17 7).interruptible = true ∧ 4096 ≤ (full.ctx 0).retired
    ∧ (8, ready 5 0) ∈ full.onHearth (full.ctx 0).home .ready ∧ (ready 5 0).deadline ≤ (full.ctx 0).deadline := by
  (repeat' apply And.intro) <;> decide
theorem test_issueSlotFree : res (.issueSlotFree 0) (hearthState [runs 9 0, ready 5 0, ready 7 1])
    (fun t => (t.ctx 1).state = .running && (t.ctx 1).slot = 1 && (t.ctx 2).state = .ready) = true := by decide
theorem test_preemption : res (.preemption 0) full (fun t => (t.ctx 7).state = .ready && (t.ctx 0).state = .running) = true := by decide
theorem wit_waitEnd : (let s := hearthState [{ state := .waiting, wait := .waite 0 4 (some 0), latch := [(0, 4)] }]
    (s.ctx 0).state = .waiting ∧ s.frozen (s.home 0) = false ∧ (s.ctx 0).ending = false ∧ s.waiteEvents 0 0 4 (some 0) ≠ 0) := by
  (repeat' apply And.intro) <;> decide
theorem wit_lockTimeout : (let s := hearthState [{ state := .waiting, wait := .lock 5 .slate, act := some ⟨1, 0, none, false, false, false, false⟩ }]
    (s.ctx 0).wait = .lock 5 .slate ∧ (s.ctx 0).act.isSome = true
      ∧ Nat.min (s.ctx 0).deadline ((s.ctx 0).waitSince + 1000 * (s.wcfg (s.home 0)).lockWaitUs) < ({ s with qz := { now := 1 } } : State).now) := by
  (repeat' apply And.intro) <;> decide
theorem wit_hearths : (0 < 64) ∧ (full.fc.buf.filter (fun r => msgSource r.msg = 0)).length < 4 ∧ (full.ctx 0).due = none
    ∧ ((hearthState [{ state := .migrating }]).ctx 0).state = .migrating
    ∧ ((hearthState [{ state := .migrating }]).ctx 0).stream.handed = 0 := by (repeat' apply And.intro) <;> decide
theorem test_checkerMismatch : res (.checkerMismatch 0) full (fun t => t.hearths.failed = [0] && (t.ctx 3).state ≠ .running) = true := by decide

/-- An entry of queue 1 that names the program header at 0x10000: level 1, Slate, back office and one target. -/
def bindEntry : Entry := { first := ⟨5, false⟩, ringSlots := 4, data := leBytes 1 1 ++ leBytes 1 1 ++ leBytes 2 77 ++ leBytes 4 0 ++ leBytes 8 0x10000 }
def bindState : State :=
  let s := ccwState {} {}
  { s with
    ctxs := [], fns := ⟨{ bme := true, fstate := .running, start := true }, {}⟩
    pantry := { mem := Memory.write 0 [] 0x10000 (leBytes 1 1 ++ leBytes 1 1 ++ leBytes 1 255 ++ leBytes 1 1 ++ leBytes 4 50 ++ leBytes 4 0x1000) }
    qm := ⟨{ sqs := [(1, { state := .enabled, depth := 64, cq := 1, accepted := 4, backOffice := true, entries := [bindEntry] })] }, {}⟩ }
theorem wit_bind : bindState.bindable .slate 1 = some bindEntry ∧ (bindState.sq .slate 1).entries = bindEntry :: []
    ∧ (slot0Of bindEntry.data).slots = 1 ∧ (slot0Of bindEntry.data).flags % 64 = 0 ∧ bindState.freeCtx .slate = some 0
    ∧ bindState.home 0 = .slate ∧ bindState.isResident 0 = false
    ∧ bindState.placeHome (bindState.homeCluster 255) (bindState.sq .slate 1).clusterWait = .hearth 0
    ∧ bindState.bindCheck .slate { level := 3, lanes := 0, backOffice := true } (Memory.bytes 0 bindState.pantry.mem 0x10000 8)
        (Memory.bytes 0 bindState.pantry.mem 0x10008 4) = none
    ∧ (∀ i, i < 80 → bindState.deny .slate false .read (0x10000 + i) = none) := by (repeat' apply And.intro) <;> decide +kernel
theorem test_programBind : res (.programBind .slate 1) bindState (fun t => (t.ctx 0).state = .ready && (t.ctx 0).tag = 77
    && (t.ctx 0).ccwAddr = 0x10010 && (t.ctx 0).pdeadline = 50000 && (t.sq .slate 1).head = ⟨9, false⟩) = true := by decide +kernel
def residentState (st : CtxState) (at1 now : Nat) : State :=
  let s := hearthState [{ state := st, restartAt := some at1 }]
  { s with qz := { now := now }, img := { s.img with worlds := s.img.worlds.upd .slate (fun c => { c with
      residents := [⟨0, 128, 0xFF, true, 0, 0x10000, 5⟩] }) } }
theorem wit_resident : ((residentState .free 5 4).ctx 0).restartAt = some 5 ∧ ((residentState .free 5 4).residentOf 0).isSome = true
    ∧ (residentState .free 5 4).now < 5 ∧ 5 ≤ (residentState .error 5 5).now ∧ ((residentState .error 5 5).ctx 0).state = .error
    ∧ ((residentState .free 5 5).ctx 0).state = .free ∧ (residentState .free 5 5).issues .slate = true
    ∧ (residentState .free 5 5).attic.config = .image := by (repeat' apply And.intro) <;> decide


/-! ### The queue manager (R249 to R275) -/

/-- An administrative command of queue 0 with its operand bytes from byte 8 on. -/
def adminCmd (op : Nat) (l : List Byte) : Entry :=
  { first := ⟨8, false⟩, ringSlots := 4, data := leBytes 1 op ++ leBytes 1 4 ++ leBytes 2 77 ++ leBytes 4 0xC ++ (l ++ List.replicate 56 0).take 56 }

/-- Slate runs with eight queues of each kind; queue 0 holds the command, queue 1 is `q` and completes to queue 1; context 0 is `x`. -/
def qmState (e : Entry) (q : Sq) (x : Ctx) : State :=
  { attic := { config := .image, state := 6 }
    linkUp := true
    fns := ⟨{ bme := true, start := true, fstate := .running, host := .hosted, accepted := 0x200 }, {}⟩
    ctxs := [(0, x)]
    qm := ⟨{ sqs := [(0, { state := .enabled, base := 0x20000, depth := 64, entries := [e], head := ⟨8, false⟩, fetch := ⟨12, false⟩, tail := ⟨12, false⟩ }),
                     (1, q)]
             cqs := [(0, { state := .active, base := 0x9000, depth := 64 }), (1, { state := .active, base := 0x1000, depth := 64 })] }, {}⟩
    ports := [(3, { cfg := { mode := 2 }, enabled := true })]
    img := { ctxMap := 1, portMap := 64, lanes := [(2, { listed := true, ports := 8 })]
             worlds := ⟨{ hosted := true, sqShare := 8, cqShare := 8, msixCount := 4, maxLevel := 3 }, {}⟩ } }
def sq1 : Sq := { state := .enabled, base := 0x30000, depth := 64, cq := 1, accepted := 0xC0, head := ⟨4, false⟩, tail := ⟨12, false⟩, fetch := ⟨4, false⟩ }

def cqCmd : Entry := adminCmd 0x10 (leBytes 8 0x5000 ++ leBytes 4 64 ++ leBytes 2 2 ++ leBytes 2 3)
theorem wit_createCq : (let s := qmState cqCmd {} {}
    let d := cqCmd.data
    AdminFront s .slate 0x10 cqCmd ∧ s.builtinServed .slate = false ∧ zeroRuns d [(28, 36)] = true ∧ fieldAt d 20 2 = 2 ∧ 2 < (s.wcfg .slate).cqShare
      ∧ fieldAt d 8 8 % 4096 = 0 ∧ 64 ≤ fieldAt d 16 4 ∧ fieldAt d 16 4 ≤ 65536 ∧ (s.cq .slate 2).state = .none
      ∧ fieldAt d 22 2 < (s.wcfg .slate).msixCount ∧ bitAt (s.fn .slate).accepted 10 = false) := by
  unfold AdminFront; (repeat' apply And.intro) <;> decide
theorem test_createCq : res (.createCq .slate) (qmState cqCmd {} {}) (fun t => (t.cq .slate 2).base = 0x5000 && (t.cq .slate 2).vector = 3
    && (t.sq .slate 0).entries.isEmpty && hostBytesOf t.hostMem 0x9012 2 = [77, 0]) = true := by decide

def named (op : Nat) (l : List Byte) : Entry := adminCmd op (List.replicate 12 0 ++ leBytes 2 1 ++ l)
def delCq : Entry := adminCmd 0x11 (List.replicate 12 0 ++ leBytes 2 1)
theorem wit_deleteCq : (let s := qmState delCq {} {}
    let d := delCq.data
    AdminFront s .slate 0x11 delCq ∧ zeroRuns d [(8, 12), (22, 42)] = true ∧ fieldAt d 20 2 = 1 ∧ (s.cq .slate 1).state ≠ .none
      ∧ (s.entryTaken .slate 0 delCq).cqBusy .slate 1 = false
      ∧ ((qmState delCq sq1 {}).entryTaken .slate 0 delCq).cqBusy .slate 1 = true ∧ ((qmState delCq sq1 {}).sq .slate 1).cq = 1) := by
  unfold AdminFront; (repeat' apply And.intro) <;> decide
theorem test_deleteCq_busy : res (.deleteCq .slate) (qmState delCq sq1 {}) (fun t => (t.cq .slate 1).state = .active
    && hostBytesOf t.hostMem 0x900A 1 = [BitVec.ofNat 8 asBusy]) = true := by decide

def sqCmd : Entry := adminCmd 0x12 (leBytes 8 0x6000 ++ leBytes 4 64 ++ leBytes 2 2 ++ leBytes 2 1 ++ leBytes 16 1)
theorem wit_createSq : (let s := qmState sqCmd {} {}
    let d := sqCmd.data
    AdminFront s .slate 0x12 sqCmd ∧ NamesQueue s .slate sqCmd 2 [(40, 24)] ∧ fieldAt d 8 8 % 4096 = 0 ∧ fieldAt d 16 4 = 64
      ∧ (s.sq .slate 2).state = .none ∧ fieldAt d 22 2 < (s.wcfg .slate).cqShare ∧ (s.cq .slate (fieldAt d 22 2)).state = .active
      ∧ fieldAt d 16 4 % 4 = 0) := by unfold AdminFront NamesQueue; (repeat' apply And.intro) <;> decide
theorem wit_deleteSq : (let s := qmState (named 0x13 []) sq1 {}
    AdminFront s .slate 0x13 (named 0x13 []) ∧ NamesQueue s .slate (named 0x13 []) 1 [(8, 12), (22, 42)] ∧ (s.sq .slate 1).state ≠ .none
      ∧ (s.sq .slate 1).groupOpen = false) := by unfold AdminFront NamesQueue; (repeat' apply And.intro) <;> decide
theorem wit_enableSq : (let e := named 0x14 []
    let s := qmState e { sq1 with state := .disabled } {}
    AdminFront s .slate 0x14 e ∧ NamesQueue s .slate e 1 [(8, 12), (22, 2), (24, 4), (32, 32)] ∧ fieldAt e.data 28 4 < 131072
      ∧ (s.sq .slate 1).state = .disabled ∧ ((qmState e { sq1 with state := .error } {}).sq .slate 1).entries = []) := by
  unfold AdminFront NamesQueue; (repeat' apply And.intro) <;> decide
theorem wit_disableSq : (let e := named 0x15 []
    let s := qmState e sq1 {}
    AdminFront s .slate 0x15 e ∧ NamesQueue s .slate e 1 [(8, 12), (22, 42)] ∧ (s.sq .slate 1).state = .enabled
      ∧ (s.sq .slate 1).groupOpen = false) := by unfold AdminFront NamesQueue; (repeat' apply And.intro) <;> decide
def bindCmd : Entry := named 0x16 (leBytes 2 0 ++ leBytes 8 1 ++ leBytes 16 4)
theorem wit_bindSq : AdminFront (qmState bindCmd sq1 {}) .slate 0x16 bindCmd ∧ NamesQueue (qmState bindCmd sq1 {}) .slate bindCmd 1 [(8, 12), (22, 2), (25, 7), (48, 16)]
    ∧ fieldAt bindCmd.data 24 1 ≤ 1 ∧ (∀ l, l < 128 → bitAt (fieldAt bindCmd.data 32 16) l = true → (qmState bindCmd sq1 {}).laneHolds .slate l = true) := by
  unfold AdminFront NamesQueue; (repeat' apply And.intro) <;> decide +kernel
theorem test_bindSq : res (.bindSq .slate) (qmState bindCmd sq1 {}) (fun t => (t.sq .slate 1).lanes = 4 && (t.sq .slate 1).backOffice) = true := by decide +kernel
theorem wit_invalidate : AdminFront (qmState (named 0x17 []) sq1 {}) .slate 0x17 (named 0x17 [])
    ∧ NamesQueue (qmState (named 0x17 []) sq1 {}) .slate (named 0x17 []) 1 [(8, 12), (22, 42)] := by
  unfold AdminFront NamesQueue; (repeat' apply And.intro) <;> decide

/-- Doorbells: queue 1 has head 4 and tail 12 in a ring of 64. -/
theorem wit_tail : (let s := qmState delCq sq1 {}
    TailOk s .slate 1 16 ∧ TailOk s .slate 1 0x10004 ∧ TailOk s .slate 1 0x20010 ∧ TailOk s .slate 1 0x40010 ∧ bitAt 16 17 = false ∧ bitAt 16 18 = false
      ∧ bitAt 0x20010 17 = true ∧ bitAt 0x40010 18 = true ∧ bitAt (s.sq .slate 1).accepted 6 = true ∧ bitAt (s.sq .slate 1).accepted 7 = true) := by
  unfold TailOk; (repeat' apply And.intro) <;> decide
def parked : Ctx := { state := .suspended, suspendCause := 0x0E, sq := 1, cq := 1, tag := 5, ccwAddr := 0x4000 }
theorem wit_doorbellResume : (let s := qmState delCq sq1 parked
    (s.worldCtxs .slate).filter (fun d => (s.ctx d).sq = 1) = [0] ∧ (s.ctx 0).byCommand = false ∧ s.isResident 0 = false ∧ s.isProbe 0 = false
      ∧ (s.ctx 0).home ∉ s.hearths.failed ∧ s.frozen (s.home 0) = false) := by (repeat' apply And.intro) <;> decide +kernel
theorem test_tail : res (.sqTailDoorbell .slate 1 16) (qmState delCq sq1 {}) (fun t => (t.sq .slate 1).tail = ⟨16, false⟩) = true := by decide
theorem test_tail_back : res (.sqTailDoorbell .slate 1 8) (qmState delCq sq1 {}) (fun t => (t.sq .slate 1).tail = ⟨12, false⟩) = true := by decide
def cqState (c : Cq) : State := { qmState delCq sq1 {} with qm := ⟨{ cqs := [(1, { c with state := .active, depth := 64 })] }, {}⟩ }
theorem wit_cqHead : (let s := cqState { head := ⟨60, false⟩, tail := ⟨2, true⟩ }
    s.done = true ∧ (ptrOf 0x10001).idx < 64 ∧ ptrDist (s.cq .slate 1).head (ptrOf 0x10001) 64 ≤ ptrDist (s.cq .slate 1).head (s.cq .slate 1).tail 64
      ∧ s.storeOf .slate 1 = [] ∧ s.cqWaits .slate 1 = false ∧ s.ovfWait = []) := by (repeat' apply And.intro) <;> decide
theorem wit_intDelay : (let s := { cqState { unannounced := 2, firstAt := 5, intDelayUs := 1, vector := 3 } with qz := { now := 1005 } }
    0 < (s.cq .slate 1).unannounced ∧ (s.cq .slate 1).firstAt + (s.cq .slate 1).intDelayUs * 1000 ≤ s.now
      ∧ (s.cq .slate 1).vector < (s.wcfg .slate).msixCount) := by (repeat' apply And.intro) <;> decide
/-- Queue 1 has one plain or one variable entry of one slot in its ring at 192 KiB. -/
def ringState (plain : Bool) : State :=
  { qmState delCq { sq1 with tail := ⟨8, false⟩, accepted := if plain then 0 else 1 } {} with
    hostMem := Memory.write 0 [] 0x30040 (leBytes 1 1 ++ leBytes 1 1 ++ leBytes 2 9 ++ leBytes 4 (if plain then 0xC else 0) ++ leBytes 8 0x10000) }
theorem wit_fetch : (let s := ringState true
    let x := s.sq .slate 1
    s.mayFetch .slate 1 = true ∧ x.fetch ≠ x.tail ∧ x.cached + 512 ≤ 2048 ∧ s.fnCached .slate + 512 ≤ 65536 ∧ x.job = none ∧ bitAt x.accepted 0 = false
      ∧ 4 ≤ ptrDist x.fetch x.tail x.depth ∧ bitAt ((ringState false).sq .slate 1).accepted 0 = true
      ∧ s.fetchTurn .slate = some 1) := by (repeat' apply And.intro) <;> decide
theorem wit_notBefore : (let s := qmState delCq { sq1 with held := true, entries := [{ adminCmd 1 (List.replicate 16 0 ++ leBytes 8 7) with }] } {}
    (s.sq .slate 1).held = true ∧ (∀ e ∈ (s.sq .slate 1).entries, 2 ≤ fieldAt e.data 1 1 ∧ fieldAt e.data 24 8 = 7)) := by
  (repeat' apply And.intro) <;> decide
theorem test_fetch_busError : res (.sqEntryFetch .slate 1 .busError) (ringState true)
    (fun t => (t.sq .slate 1).state = .error && (t.sq .slate 1).errReason = 8) = true := by decide

/-! ### Context and lane commands (R112, R270, R274, R275, R507) -/

def ctxCmd (op : Nat) (l : List Byte) : Entry := adminCmd op (leBytes 2 0 ++ leBytes 2 1 ++ leBytes 2 5 ++ l)
def busy : Ctx := { parked with state := .running, started := true, suspendCause := 0 }
theorem wit_suspend : (let e := ctxCmd 0x20 []
    let s := qmState e sq1 busy
    AdminFront s .slate 0x20 e ∧ NamesCtx s .slate e 0 [(14, 50)] ∧ CtxCq s .slate 0 ∧ (s.ctx 0).state = .running ∧ s.frozen .slate = false) := by
  unfold AdminFront NamesCtx CtxCq; (repeat' apply And.intro) <;> decide +kernel
theorem wit_resume : (let e := ctxCmd 0x21 []
    let s := qmState e sq1 parked
    AdminFront s .slate 0x21 e ∧ NamesCtx s .slate e 0 [(14, 50)] ∧ CtxCq s .slate 0 ∧ (s.ctx 0).home ∉ s.hearths.failed) := by
  unfold AdminFront NamesCtx CtxCq; (repeat' apply And.intro) <;> decide +kernel
theorem wit_halt : (let e := ctxCmd 0x22 []
    let s := qmState e sq1 parked
    AdminFront s .slate 0x22 e ∧ NamesCtx s .slate e 0 [(14, 50)] ∧ (s.ctx 0).group = none ∧ (s.ctx 0).leases = [] ∧ (s.ctx 0).cq ≠ 0
      ∧ (s.cq .slate 1).full = false ∧ s.storeOf .slate 1 = [] ∧ Apart (s.slotAt .slate 1) 32 (s.slotAt .slate 0) 32) := by
  unfold AdminFront NamesCtx Apart; refine ⟨?_, ?_, ?_, ?_, ?_, ?_, ?_, ?_⟩ <;> decide +kernel
theorem wit_adopt : (let e := ctxCmd 0x23 (leBytes 6 0 ++ leBytes 2 1 ++ leBytes 2 1)
    let s := qmState e sq1 parked
    AdminFront s .slate 0x23 e ∧ bitAt (s.fn .slate).accepted 9 = true ∧ NamesCtx s .slate e 0 [(14, 6), (24, 40)]
      ∧ fieldAt e.data 20 2 = 1 ∧ fieldAt e.data 22 2 = 1 ∧ (s.sq .slate 1).state ≠ .none) := by
  unfold AdminFront NamesCtx; (repeat' apply And.intro) <;> decide +kernel
theorem wit_readContext : (let e := adminCmd 0x24 (leBytes 8 0 ++ leBytes 8 0x40000)
    let s := qmState e sq1 parked
    AdminFront s .slate 0x24 e ∧ zeroRuns e.data [(10, 6), (24, 40)] = true ∧ fieldAt e.data 8 2 = 0 ∧ fieldAt e.data 16 8 % 64 = 0
      ∧ Apart (fieldAt e.data 16 8) 256 (s.slotAt .slate 0) 32) := by
  unfold AdminFront Apart; refine ⟨?_, ?_, ?_, ?_, ?_⟩ <;> decide
theorem wit_listContexts : (let e := adminCmd 0x25 (leBytes 8 0 ++ leBytes 8 0x40000 ++ leBytes 1 0x10)
    let s := qmState e sq1 parked
    AdminFront s .slate 0x25 e ∧ zeroRuns e.data [(8, 8), (25, 39)] = true ∧ Apart (fieldAt e.data 16 8) 2048 (s.slotAt .slate 0) 32) := by
  unfold AdminFront Apart; refine ⟨?_, ?_, ?_⟩ <;> decide
theorem wit_laneCommands : (let e := adminCmd 0x30 (leBytes 4 2)
    let s := { qmState e sq1 {} with ctxs := [] }
    AdminFront s .slate 0x30 e ∧ s.laneMembers .slate e.data = .ok ([3], []) ∧ (∀ b, (s.ctx b).act = none)) := by
  unfold AdminFront; refine ⟨?_, by decide +kernel, fun _ => rfl⟩; decide
theorem wit_laneRelease : (let e := adminCmd 0x31 (leBytes 4 2)
    AdminFront (qmState e sq1 {}) .slate 0x31 e ∧ (qmState e sq1 {}).laneMembers .slate e.data = .ok ([3], [])) := by
  unfold AdminFront; refine ⟨?_, ?_⟩ <;> decide +kernel
theorem test_laneSafe : res (.laneSafe .slate) (qmState (adminCmd 0x30 (leBytes 4 2)) sq1 {}) (fun t => (t.port 3).safe) = true := by decide +kernel
theorem test_resume : res (.resume .slate) (qmState (ctxCmd 0x21 []) sq1 parked) (fun t => (t.ctx 0).state = .ready) = true := by decide +kernel

/-- Granite runs and asks for a report. -/
def attestCmd : Entry := adminCmd 0x40 (leBytes 8 0 ++ leBytes 8 0x40000)
def graniteState (f : FlintUnit) : State :=
  { attic := { config := .image, state := 6 }
    linkUp := true
    flint := f
    fns := ⟨{}, { bme := true, start := true, fstate := .running, host := .hosted, accepted := 0x800 }⟩
    qm := ⟨{}, { sqs := [(0, { state := .enabled, base := 0x20000, depth := 64, entries := [attestCmd] })]
                 cqs := [(0, { state := .active, base := 0x9000, depth := 64 })] }⟩ }
theorem wit_attest : (let s := graniteState {}
    AdminFront s .granite 0x40 attestCmd ∧ s.flint.lifecycle ≠ 3 ∧ bitAt (s.fn .granite).accepted 11 = true ∧ fieldAt attestCmd.data 16 8 % 64 = 0
      ∧ zeroRuns attestCmd.data [(8, 8), (56, 8)] = true ∧ s.done = true ∧ s.flint.devkeyOk = false ∧ s.flint.attestWait = none
      ∧ (graniteState { devkeyOk := true }).flint.devkeyOk = true) := by unfold AdminFront; (repeat' apply And.intro) <;> decide
def reportJob : AttestJob := { tag := 77, dest := 0x40000, report := [1, 2] }
theorem wit_report : (graniteState { attest := some reportJob }).flint.attest = some reportJob
    ∧ ((graniteState { attest := some reportJob }).cq .granite 0).state = .active
    ∧ Apart reportJob.dest 2000 ((graniteState {}).slotAt .granite 0) 32 := by
  refine ⟨rfl, rfl, ?_⟩; unfold Apart; decide


/-! ### Functions, registers, mailboxes and the flash service (R7 to R11, R37, R44, R231 to R248, R277 to R283) -/

/-- Slate alone has a function, with no program, drive or Dumbwaiter; the device has reached DONE. -/
def fnState (f : Func) : State :=
  { attic := { config := .image, state := 6 }, linkUp := true, fns := ⟨f, {}⟩
    img := { mbMap := 5, worlds := ⟨{ sqShare := 8, cqShare := 8, msixCount := 4, wdogMs := 100, flashMb := 1, partner := [(0, 1)] }, {}⟩ } }
def upFn : Func := { bme := true, start := true, fstate := .running, host := .hosted, accepted := 0x4000 }
def startFn : Func := { drvVer := 0x10000, aqSqBase := 0x20000, aqCqBase := 0x9000, aqDepth := 0x400040 }

theorem noDw_of (s : State) (h : s.img.dwMap = 0) (e : Nat) (w : World) : s.dwWorld e ≠ some w := by
  simp [State.dwWorld, mapWorld, h, bits]
theorem wit_functionStart : (let s := fnState startFn
    s.running .slate = false ∧ s.pw.phase = .none ∧ (s.modFn .slate (fun f => { f with bme := true, d3hot := false })).startCheck .slate = 0
      ∧ (s.modFn .slate (fun f => { f with bme := true, d3hot := true })).startCheck .slate = 5) ∧ (∀ e, (fnState startFn).dwWorld e ≠ some .slate) :=
  ⟨by (repeat' apply And.intro) <;> decide, fun e => noDw_of _ rfl e _⟩
theorem wit_onlyFunction : OnlyFunction (fnState upFn) .slate :=
  ⟨by decide, fun _ => ⟨rfl, rfl⟩, by decide +kernel, fun e => noDw_of _ rfl e _⟩
theorem wit_watchdog : (let s := { fnState upFn with qz := { now := 100000000 } }
    bitAt (s.fn .slate).accepted 14 = true ∧ (s.fn .slate).wdogLast + (s.wcfg .slate).wdogMs * 1000000 ≤ s.now
      ∧ (fnState upFn).now < ((fnState upFn).fn .slate).wdogLast + ((fnState upFn).wcfg .slate).wdogMs * 1000000
      ∧ bitAt ((fnState {}).fn .slate).accepted 14 = false) := by (repeat' apply And.intro) <;> decide
theorem wit_links : State.reset.running .slate = false ∧ State.reset.running .granite = false
    ∧ (3 ≤ (fnState {}).attic.state ∧ (fnState {}).attic.state ≤ 6) ∧ (fnState {}).pw.phase = .none ∧ (fnState {}).pw.perstLow = false := by
  (repeat' apply And.intro) <;> decide
theorem test_functionStart : res (.functionStart .slate true true) (fnState startFn)
    (fun t => (t.fn .slate).fstate = .running && (t.sq .slate 0).depth = 64 && (t.cq .slate 0).vector = 0) = true := by decide +kernel
theorem test_functionStop : res (.functionStop .slate) (fnState upFn)
    (fun t => (t.fn .slate).lostCause = 5 && (t.fn .slate).host = .autonomous) = true := by decide +kernel
theorem test_functionLevelReset : res (.functionLevelReset .slate) (fnState { upFn with eventMask := 0 })
    (fun t => (t.fn .slate).fstate = .lost && (t.fn .slate).eventMask = 0x1F) = true := by decide +kernel

theorem wit_registers : (fnState {}).done = true ∧ State.reset.done = false ∧ (0x10000 ≤ 0x10018 ∧ 0x10018 % 4 = 0 ∧ isLow64 0x10018 = false
    ∧ isLow64 (0x10018 - 4) = false) ∧ (State.reset.fc.buf.filter (fun r => msgSource r.msg = 108)).length < 4 := by (repeat' apply And.intro) <;> decide
theorem test_registerWrite : res (.registerWrite .slate 0x4C false 0x12) (after (.registerWrite .slate 0x48 false 0x9000) State.reset)
    (fun t => (t.fn .slate).aqCqBase = 0x1200009000) = true := by decide
theorem test_misaligned : res (.misalignedRegAccess .slate 0x41 4 false) State.reset
    (fun t => t.out = [.readData 0] && t.fc.buf.length = 1) = true := by decide

/-- Mailbox 0 of Slate has the kernel for a partner, and mailbox 1 is its flash mailbox. -/
def mbState (x : Mailbox) : State := { fnState { upFn with msix := [(2, { masked := false })] } with mbs := [(0, x), (1, x)] }
theorem wit_mailboxes : (let s := mbState { vec := 2 }
    s.mbWorld 0 = some .slate ∧ s.mbPartner 0 ≠ 0 ∧ s.done = true ∧ s.fc.graniteHalt = false ∧ Sends s .slate (s.mb 0).vec ∧ (s.mb 0).ackValid = false
      ∧ (s.mb 0).req = 0) := by unfold Sends; (repeat' apply And.intro) <;> decide
def ackedMb : Mailbox := { vec := 2, ackValid := true, held := [(7, 3, [])] }
theorem wit_ackHeld : ((mbState ackedMb).mb 0).held = [(7, 3, [])] ∧ ((mbState ackedMb).mb 0).ackValid = true ∧ (0x80000000 : W32).getLsbD 31 = true
    ∧ Sends (mbState ackedMb) .slate 2 := by unfold Sends; (repeat' apply And.intro) <;> decide
theorem test_mbRequest : res (.mbRequest .slate 0 0x20001) (mbState { note := 3 }) (fun t => (t.mb 0).req = 1 && (t.mb 0).note = 1) = true := by decide
theorem test_mbAckClear : res (.mbAckClear .slate 0 0x80000000) (mbState ackedMb)
    (fun t => (t.mb 0).ackCode = 7 && (t.mb 0).ackBit = 3 && t.out = [.msix .slate 2]) = true := by decide
theorem test_mbNote : res (.mbNote 0 5) (mbState { vec := 2, noteMask := 1 }) (fun t => (t.mb 0).note = 5 && t.out.length = 1) = true := by decide
theorem test_mbCollide : res (.mbMsgWrite .slate 0 1 9) (mbState { req := 4 }) (fun t => (t.mb 0).collide && (t.mb 0).msg = []) = true := by decide

/-- A request of the flash service: operation and target kind in MB_MSG_0, with three more words. -/
def askMb (op kind a b c : Nat) : Mailbox :=
  { vec := 2, req := 1, msg := [(0, BitVec.ofNat 64 (op + 256 * kind)), (1, BitVec.ofNat 64 a), (2, BitVec.ofNat 64 b), (3, BitVec.ofNat 64 c)] }
def session (k n : Nat) : FlashSession := { world := .slate, target := k, copy := 1, base := copyBase k 1, written := n }
def flashState (x : Mailbox) (o : Option FlashSession) : State :=
  { mbState x with flash := { mem := [(0, 1), (copyBase 1 0, 0x20), (copyBase 1 1, 0x21)], session := o } }
theorem wit_flashOpen : FlashAsks (flashState (askMb 1 1 0 0 0) none) .slate 1 0 1 ∧ (flashState (askMb 1 1 0 0 0) none).flashTarget 1 = 1
    ∧ FlashAsks (flashState (askMb 1 1 0 0 0) (some (session 1 0))) .slate 1 0 1 := by unfold FlashAsks; (repeat' apply And.intro) <;> decide
theorem wit_flashWrite : (let s := flashState (askMb 2 0 8 3 0x030201) (some (session 1 8))
    FlashAsks s .slate 1 0 2 ∧ s.mbMsg 1 1 = 8 ∧ s.mbMsg 1 2 = 3 ∧ 8 + 3 ≤ copyMax 1) := by unfold FlashAsks; (repeat' apply And.intro) <;> decide
theorem wit_flashOthers : (let s := fun op => flashState (askMb op 0 0 0 0) (some (session 1 8))
    FlashAsks (s 3) .slate 1 0 3 ∧ FlashAsks (s 4) .slate 1 0 4 ∧ FlashAsks (s 5) .slate 1 0 5) := by unfold FlashAsks; (repeat' apply And.intro) <;> decide
theorem test_flashOpen : res (.flashOpen .slate 0) (flashState (askMb 1 1 0 0 0) none) (fun t => t.flash.session.isSome && t.flash.mem.length = 2
    && (t.mb 1).ackValid) = true := by decide +kernel
theorem test_flashWrite : res (.flashWrite .slate 0) (flashState (askMb 2 0 8 3 0x030201) (some (session 1 8)))
    (fun t => Memory.bytes 0xFF t.flash.mem (copyBase 1 1 + 8) 4 = [1, 2, 3, 0xFF] && (t.mb 1).ackCode = 0) = true := by decide +kernel
theorem test_flashCommit_bad : res (.flashCommit .slate 0) (flashState (askMb 3 0 0 0 0) (some (session 1 8)))
    (fun t => (t.mb 1).ackCode = 0x102 && t.flash.session.isNone) = true := by decide +kernel

/-! A copy that is checked and valid, if every signature verifies and each byte of a hash is 1: the hash and the signature are opaque
(log 16), so no state can be shown to hold a valid copy without a premise on them. -/

/-- The premise: a reading of the two opaque functions. -/
def HashOnes : Prop := (∀ m i, Config.shakeByte m i = 1) ∧ ∀ k m g, Config.slhVerify k m g = true
def ones : Nat := leNat (List.replicate 32 (1 : Byte))
theorem shake_ones (h : HashOnes) (m : List Byte) : Config.shake m 32 = List.replicate 32 1 := by
  unfold Config.shake; rw [show Config.shakeByte m = fun _ => (1 : Byte) from funext (h.1 m)]; rfl

/-- What the check asks of a header and a manifest, for hashes of ones and a copy without Granite. -/
def copyOnes (f : Fuses) (h man : List Byte) (kind : Nat) : Bool :=
  let x := headerOf h
  let l := sectsOf man x.count
  x.magic = 0x4F4E4C46 && x.ok kind && x.formed l kind && !x.granite && (f.keySlot (signKind kind) ones).isSome && l.all (fun e => e.digest = ones)
theorem checkSects_ones (h : HashOnes) (s : State) (base : Nat) (hr : s.attic.readBad = []) : ∀ l : List Sect,
    l.all (fun e => e.digest = ones) = true → (∀ e ∈ l, e.type = 1 → modeBad (s.flashBytes (base + e.off) e.len) = false) →
      s.checkSects base l = 1
  | [], _, _ => rfl
  | e :: l, hd, hm => by
    simp only [List.all_cons, Bool.and_eq_true, decide_eq_true_eq] at hd
    have h5 := checkSects_ones h s base hr l hd.2 (fun e he => hm e (List.mem_cons_of_mem _ he))
    have h6 : leNat (Config.shake (s.flashBytes (base + e.off) e.len) 32) = e.digest := by rw [shake_ones h, hd.1]; rfl
    have h7 : ¬(decide (e.type = 1) && modeBad (s.flashBytes (base + e.off) e.len)) = true := by
      by_cases ht : e.type = 1
      · simp [hm e (List.mem_cons_self ..) ht]
      · simp [ht]
    unfold State.checkSects
    rw [if_neg (by simp [State.readable, hr]), if_neg (by rw [h6]; simp), if_neg h7, h5]
theorem checkCopy_ones (h : HashOnes) (s : State) (base kind : Nat) (hd man : List Byte) (hr : s.attic.readBad = [])
    (h1 : s.flashBytes base 256 = hd) (h2 : s.flashBytes (base + (headerOf hd).manOff) (headerOf hd).manLen = man)
    (hc : copyOnes s.fuses hd man kind = true)
    (hm : ∀ e ∈ sectsOf man (headerOf hd).count, e.type = 1 → modeBad (s.flashBytes (base + e.off) e.len) = false) :
    s.checkCopy base kind = 1 := by
  simp only [copyOnes, Bool.and_eq_true, decide_eq_true_eq, Bool.not_eq_true'] at hc
  obtain ⟨⟨⟨⟨⟨c1, c2⟩, c3⟩, c4⟩, c5⟩, c6⟩ := hc
  have e1 : s.header base = headerOf hd := by rw [State.header, h1]
  have e2 : s.sects base = sectsOf man (headerOf hd).count := by unfold State.sects; rw [e1]; exact congrArg (sectsOf · _) h2
  have e3 : keyHash (headerOf hd).signKey = ones := by unfold keyHash; rw [shake_ones h]; rfl
  have e4 : ∀ a n, s.readable a n = true := fun a n => by simp [State.readable, hr]
  unfold State.checkCopy State.checkSigned
  simp only [e1, e2, e3, e4, c1, c2, c3, c4, h.2, Option.isNone_eq_false_iff.mpr c5, checkSects_ones h s base hr _ c6 hm]
  simp

/-- The header of a container with n sections, and its manifest for sections of 64 bytes that follow the signature: types and worlds. -/
def headOf (kind gen n : Nat) : List Byte :=
  leBytes 4 0x4F4E4C46 ++ leBytes 2 1 ++ leBytes 1 kind ++ leBytes 1 1 ++ leBytes 4 gen ++ leBytes 4 0xA000 ++ leBytes 4 n ++ leBytes 4 256
    ++ leBytes 4 (64 * n) ++ leBytes 4 0x1000 ++ leBytes 224 0
def manOf (l : List (Nat × Nat)) : List Byte :=
  l.zipIdx.flatMap (fun p => leBytes 4 (p.1.1 + 65536 * p.1.2) ++ leBytes 4 (0x9000 + 64 * p.2) ++ leBytes 4 64 ++ leBytes 20 0 ++ List.replicate 32 1)
def imageSects : List (Nat × Nat) := [(1, 0), (0x0D, 0), (0x0E, 0), (0x0F, 0), (0x10, 0), (2, 1), (3, 1), (4, 1)]
/-- The bodies of n sections of 64 bytes, zeros but for one, from its byte on. -/
def bodiesOf (n at0 : Nat) (b : List Byte) : List Byte := List.replicate at0 0 ++ b ++ List.replicate (64 * n - at0 - b.length) 0
/-- The flash with one copy, in a state of start-up. -/
def copyState (st kind : Nat) (l : List (Nat × Nat)) (bodies : List Byte) : State :=
  let c := headOf kind 5 l.length ++ manOf l
  let base := copyBase kind 0
  { attic := { state := st, config := .image, imageBase := some (copyBase 1 0) }
    flash := { mem := Memory.write 0xFF (Memory.write 0xFF [] base c) (base + 0x9000) bodies }
    fuses := { fwKey := [(0, ones)], imgKey := [(0, ones)] } }
theorem copyState_bytes (st kind : Nat) (l : List (Nat × Nat)) (d : List Byte) (o n : Nat) (h1 : o + n ≤ (headOf kind 5 l.length ++ manOf l).length)
    (h2 : o + n ≤ 0x9000) : (copyState st kind l d).flashBytes (copyBase kind 0 + o) n = ((headOf kind 5 l.length ++ manOf l).drop o).take n := by
  unfold copyState State.flashBytes
  rw [Memory.bytes_write_of_apart _ _ _ _ _ _ (by omega), Memory.bytes_write_part _ _ _ _ _ _ h1]
theorem copyState_body (st kind : Nat) (l : List (Nat × Nat)) (d : List Byte) (o n : Nat) (h : o + n ≤ d.length) :
    (copyState st kind l d).flashBytes (copyBase kind 0 + (0x9000 + o)) n = (d.drop o).take n := by
  unfold copyState State.flashBytes
  rw [← Nat.add_assoc, Memory.bytes_write_part _ _ _ _ _ _ h]

/-- What a container of this form keeps, but for the hashes. -/
def Formed (kind : Nat) (l : List (Nat × Nat)) (d : List Byte) : Prop :=
  ((headOf kind 5 l.length).length = 256 ∧ (manOf l).length = 64 * l.length ∧ l.length ≤ 8)
    ∧ ((headerOf (headOf kind 5 l.length)).manOff = 256 ∧ (headerOf (headOf kind 5 l.length)).manLen = 64 * l.length)
    ∧ copyOnes (copyState 0 kind l d).fuses (headOf kind 5 l.length) (manOf l) kind = true
    ∧ ∀ e ∈ sectsOf (manOf l) (headerOf (headOf kind 5 l.length)).count, e.type = 1 →
        e.off = 0x9000 ∧ e.len = 64 ∧ 64 ≤ d.length ∧ modeBad (d.take 64) = false

theorem copyState_head {st kind : Nat} {l : List (Nat × Nat)} {d : List Byte} (hf : Formed kind l d) :
    (copyState st kind l d).flashBytes (copyBase kind 0) 256 = headOf kind 5 l.length := by
  obtain ⟨⟨h1, h2, h3⟩, -⟩ := hf
  have h4 := copyState_bytes st kind l d 0 256 (by rw [List.length_append, h1]; omega) (by omega)
  rw [Nat.add_zero, List.drop_zero] at h4
  rw [h4]; exact List.take_left' h1
theorem copyState_man {st kind : Nat} {l : List (Nat × Nat)} {d : List Byte} (hf : Formed kind l d) :
    (copyState st kind l d).flashBytes (copyBase kind 0 + 256) (64 * l.length) = manOf l := by
  obtain ⟨⟨h1, h2, h3⟩, -⟩ := hf
  have h4 := copyState_bytes st kind l d 256 (64 * l.length) (by rw [List.length_append, h1, h2]) (by omega)
  rw [h4, List.drop_left' h1]; exact List.take_of_length_le (by omega)
/-- Such a copy is valid. -/
theorem copyState_valid (h : HashOnes) {st kind : Nat} {l : List (Nat × Nat)} {d : List Byte} (hf : Formed kind l d) :
    (copyState st kind l d).checkCopy (copyBase kind 0) kind = 1 := by
  refine checkCopy_ones h _ _ kind _ (manOf l) rfl (copyState_head hf) (by rw [hf.2.1.1, hf.2.1.2]; exact copyState_man hf) hf.2.2.1 (fun e he ht => ?_)
  obtain ⟨h3, h4, h5, h6⟩ := hf.2.2.2 e he ht
  have h7 := copyState_body st kind l d 0 64 (by omega)
  rw [h3, h4, h7]; exact h6
/-- The other copy is blank, so the choice takes this one. -/
theorem copyState_chosen (h : HashOnes) {st kind : Nat} {l : List (Nat × Nat)} {d : List Byte} (hf : Formed kind l d)
    (hg : (headerOf (headOf kind 5 l.length)).gen = 5 ∧ (headerOf (headOf kind 5 l.length)).magic = 0x4F4E4C46)
    (ha : copyBase kind 1 + 256 ≤ copyBase kind 0 ∨ copyBase kind 0 + 0x9000 + d.length ≤ copyBase kind 1) :
    ((copyState st kind l d).chooseCopy kind).sel = some 0 := by
  have e0 : (copyState st kind l d).header (copyBase kind 0) = headerOf (headOf kind 5 l.length) := by rw [State.header, copyState_head hf]
  have e1 : (copyState st kind l d).flashBytes (copyBase kind 1) 256 = List.replicate 256 0xFF := by
    obtain ⟨⟨h1, h2, h3⟩, -⟩ := hf
    unfold copyState State.flashBytes
    rw [Memory.bytes_write_of_apart _ _ _ _ _ _ (by omega),
      Memory.bytes_write_of_apart _ _ _ _ _ _ (by rw [List.length_append, h1, h2]; omega)]
    simp only [Memory.bytes, Memory.byte, Tbl.get_nil, List.map_const', List.length_range]
  have e2 : ∀ a n, (copyState st kind l d).readable a n = true := fun a n => rfl
  have g0 : (copyState st kind l d).copyGen kind 0 = 5 := by simp [State.copyGen, e0, e2, hg]
  have g1 : (copyState st kind l d).copyGen kind 1 = 0 := by
    simp only [State.copyGen, State.header, e1, e2]; decide
  simp [State.chooseCopy, g0, g1, copyState_valid h hf]

def imageBodies : List Byte := bodiesOf 8 128 [1, 1, 0, 0, 2, 3, 4, 0, 16, 0, 1, 0]
theorem formed_image : Formed 1 imageSects imageBodies := by
  unfold Formed; refine ⟨⟨?_, ?_, ?_⟩, ⟨?_, ?_⟩, ?_, ?_⟩ <;> decide +kernel
theorem formed_board : Formed 2 [(0x0D, 0), (2, 1), (3, 1)] (bodiesOf 3 0 []) := by
  unfold Formed; refine ⟨⟨?_, ?_, ?_⟩, ⟨?_, ?_⟩, ?_, ?_⟩ <;> decide +kernel
theorem formed_firmware : Formed 3 [(0x20, 0)] (bodiesOf 1 0 []) := by
  unfold Formed; refine ⟨⟨?_, ?_, ?_⟩, ⟨?_, ?_⟩, ?_, ?_⟩ <;> decide +kernel
theorem wit_flashCommit (h : HashOnes) : (copyState 6 3 [(0x20, 0)] (bodiesOf 1 0 [])).checkCopy (copyBase 3 0) 3 = 1
    ∧ (copyState 6 3 [(0x20, 0)] (bodiesOf 1 0 [])).commitAudits { world := .slate, target := 3, copy := 0, base := copyBase 3 0 } = false :=
  ⟨copyState_valid h formed_firmware, rfl⟩


/-! ### Ports and channels (R284 to R332) -/

/-- USB port 0 of Slate with hubs and power; attachment 0 is `x`, and one profile of Slate matches every device. -/
def aProfile : Profile :=
  { num := 5, usb := true, matchBits := 0, vid := 0, pid := 0, cls := 0, sub := 0, proto := 0, config := 0, bcdMin := 0, bcdMax := 65535, probe := 0
    verMin := 2, verMax := 4, defIn := 0, defOut := 0, timeoutMs := 10, outputMask := 0 }
def usbState (x : Att) (q : Profile) : State :=
  { attic := { config := .image, state := 6 }, qz := { now := 100000000 }
    ports := [(0, { cfg := { mode := 1, hubs := true, ocRetryMs := 50 }, enabled := true, vbus := true })]
    atts := [(0, x)]
    img := { portMap := 1, ctxMap := 1, profiles := ⟨{ loaded := true, profiles := [q] }, {}⟩ } }
def device (c : Nat) : Descriptors :=
  { speed := 1, vid := 1, pid := 2, bcd := 3, cls := c, sub := 0, proto := 0, ifCls := 0, ifSub := 0, ifProto := 0, mps0 := 8, config := []
    endpoints := [{ addr := 0x81, kind := 2, mps := 8, interval := 0 }] }
theorem wit_usbConnect : (let s := usbState {} aProfile
    (s.port 0).cfg.mode = 1 ∧ (s.port 0).vbus = true ∧ (s.att (16 * 0)).state = .empty ∧ (s.port 0).cfg.hubs = true ∧ none ∉ (s.port 0).refused) := by (repeat' apply And.intro) <;> decide
theorem wit_debounce : (let s := usbState { state := .debounce } aProfile
    (s.att 0).state = .debounce ∧ (s.att 0).since + 100000000 ≤ s.now
      ∧ ({ s with qz := {} } : State).now < (s.att 0).since + 100000000) := by (repeat' apply And.intro) <;> decide
def listing : Att := { state := .enumerating, attempts := 2 }
theorem wit_enumeration : (let s := usbState listing aProfile
    (s.att 0).state = .enumerating ∧ (s.att 0).since + 60000000 ≤ s.now ∧ 2 ≤ (s.att 0).attempts ∧ ((usbState { listing with attempts := 1 } aProfile).att 0).attempts < 2
      ∧ (device 9).cls = 9 ∧ (s.att 0).tier < 2 ∧ (device 3).cls ≠ 9
      ∧ ceilDiv (maxInOf (device 3)) 4 + 1
        ≤ (s.modAtt 0 (fun t => { t with resRx := (s.port 0).cfg.reserve (s.port 0).cfg.resRx 0, resTx := (s.port 0).cfg.reserve (s.port 0).cfg.resTx 0 })).rxFree 0
      ∧ (s.modAtt 0 (fun t => { t with desc := some (device 3) })).candidates 0 = [aProfile] ∧ aProfile.probe = 0
      ∧ ((usbState listing { aProfile with usb := false }).modAtt 0 (fun t => { t with desc := some (device 3) })).candidates 0 = []) := by
  (repeat' apply And.intro) <;> decide +kernel
theorem test_enumerated : res (.enumerationDone 0 (some (device 3))) (usbState listing aProfile)
    (fun t => (t.att 0).state = .ready && (t.att 0).profile = 5 && (t.att 0).pver = 4) = true := by decide +kernel
def probed : Att := { state := .probing, desc := some (device 3), probe := some { ctx := 0, cand := 0 } }
theorem wit_probe : (let s := { usbState probed aProfile with ctxs := [(0, { lastUnit := 3 })] }
    (s.att 0).probe = some { ctx := 0, cand := 0 } ∧ (s.candidates 0)[0]? = some aProfile ∧ (s.ctx 0).state = .free ∧ (s.ctx 0).lastStatus = 0
      ∧ aProfile.verMin ≤ (s.ctx 0).lastUnit ∧ (s.ctx 0).lastUnit ≤ aProfile.verMax ∧ (s.att 0).probeStart + aProfile.timeoutMs * 1000000 ≤ s.now
      ∧ (s.candidates 0)[0 + 1]? = none ∧ (s.ctx 0).live = false
      ∧ ({ s with qz := {} } : State).now < (s.att 0).probeStart + aProfile.timeoutMs * 1000000) := by (repeat' apply And.intro) <;> decide
theorem test_probeEnd : res (.probeEnd 0) { usbState probed aProfile with ctxs := [(0, { lastUnit := 3 })] }
    (fun t => (t.att 0).state = .ready && (t.att 0).pver = 3) = true := by decide +kernel
theorem wit_reprobe : (let s := { usbState { state := .failed } { aProfile with usb := false } with
      qz := { now := 5000000000 }, ports := [(0, { cfg := { mode := 2, cands := [5] }, enabled := true })] }
    (s.att 0).state = .failed ∧ (s.port 0).cfg.mode ≠ 1 ∧ (s.att 0).since + 5000000000 ≤ s.now ∧ s.candidates 0 = [{ aProfile with usb := false }]
      ∧ ({ s with qz := {} } : State).now < (s.att 0).since + 5000000000) := by (repeat' apply And.intro) <;> decide
theorem wit_disconnect : (usbState { state := .ready } aProfile).behind 0 = [] ∧ NoCcw (usbState { state := .ready } aProfile) :=
  ⟨by decide, fun _ => ⟨rfl, rfl⟩⟩
theorem wit_portEmpty : PortEmpty (usbState {} aProfile) 0 ∧ ((usbState {} aProfile).port 0).enabled = true := by unfold PortEmpty; exact ⟨by decide, rfl⟩
theorem wit_ocRetry : (let s := { usbState {} aProfile with ports := [(0, { ocRetry := some 7 })] }
    (s.port 0).ocRetry = some 7 ∧ 7 ≤ s.now) := by (repeat' apply And.intro) <;> decide
theorem test_overcurrent : res (.overcurrent 0) (usbState {} aProfile) (fun t => !(t.port 0).vbus && (t.port 0).ocRetry = some 150000000) = true := by decide
theorem test_overcurrent3 : res (.overcurrent 0) { usbState {} aProfile with ports := [(0, { vbus := true, ocTimes := [5, 4] })] }
    (fun t => (t.port 0).ocLockout && (t.port 0).ocRetry = none) = true := by decide

/-- Port 0 is a port of a mode, with attachment 0 ready. -/
def wireState (c : PortCfg) (x : Att) (p : Port) : State :=
  { usbState {} aProfile with ports := [(0, { p with cfg := c, enabled := true })], atts := [(0, { x with state := .ready })] }
theorem wit_commands : (let k : PortCmd := { code := 6, ep := 2, arg := 0 }
    let s := wireState { mode := 1 } { cmds := [k] } {}
    (s.att 0).cmds.find? (fun y => cmdMode y.code ≠ 1 || y.ep = 2) = some k ∧ s.cmdComplete 0 k = true) := by (repeat' apply And.intro) <;> decide
theorem wit_stretch : (let k : PortCmd := { code := 14, ep := 0, arg := 0, toRecv := 3 }
    ((wireState { mode := 4 } { cmds := [k] } {}).att 0).cmds = k :: [] ∧ cmdMode k.code = 4) := by (repeat' apply And.intro) <;> decide
theorem wit_intPoll : (let k : PortCmd := { code := 5, ep := 0x81, arg := 8 }
    ((wireState { mode := 1 } { cmds := [k] } {}).att 0).cmds = [k] ∧ k.code = 5 ∧ k.toRecv = 0) := by (repeat' apply And.intro) <;> decide
theorem wit_pins : (let s := wireState { mode := 4, gpioDir := 0 } {} { pins := [(1, { pulseEnd := some 9 }), (2, { blink := some (1, 2) })] }
    ((s.port 0).pin 1).pulseEnd = some 9 ∧ 9 ≤ s.now ∧ ((s.port 0).pin 2).blink = some (1, 2) ∧ bits (s.port 0).cfg.gpioDir 0 1 = 0
      ∧ (1 : BitVec 4).getLsbD 0 ≠ bitAt (s.port 0).inputs 0 ∧ (1 : BitVec 4).getLsbD 1 = bitAt (s.port 0).inputs 1 ∧ 5 + 10000 ≤ s.now) := by
  (repeat' apply And.intro) <;> decide
def openRx : RxChan := { words := [{ w := 0, head := true }], visible := 0, openAt := some 0 }
theorem wit_uart : (let s := wireState { mode := 2, rxIdle := 5 } { rx := openRx } {}
    s.wireOpen (16 * 0) = true ∧ (s.att 0).rx.gap = 0 ∧ (s.att 0).rx.discard = false ∧ (s.att 0).rx.openAt = some 0 ∧ 0 < s.rxFree (16 * 0)
      ∧ (s.port 0).cfg.eopEn = false ∧ (s.att 0).rx.openItems + 1 ≠ (s.port 0).cfg.limit ∧ (s.port 0).cfg.rxIdle ≠ 0 ∧ (s.att 0).hasChannels = true ∧ s.driverOn 0 = false) := by
  (repeat' apply And.intro) <;> decide
theorem test_uartChar : res (.rxItemArrival 0 (.char 0x41 false false false)) (wireState { mode := 2 } { rx := openRx } {})
    (fun t => (t.att 0).rx.words.length = 2 && (t.att 0).rx.openItems = 1) = true := by decide
theorem test_rxIdle : res (.rxIdleClose 0) (wireState { mode := 2, rxIdle := 5 } { rx := { openRx with openItems := 3 } } {})
    (fun t => (t.att 0).rx.visible = 1 && ((t.att 0).rx.words.map (fun x => x.w)) = [0x10000003]) = true := by decide
theorem wit_spiByte : (let k : PortCmd := { code := 12, ep := 0, arg := 0, toRecv := 4 }
    let s := wireState { mode := 3 } { cmds := [k] } {}
    s.wireOpen 0 = true ∧ 2 ≤ s.rxFree 0 ∧ (s.att 0).cmds = [k] ∧ 2 ≤ k.toRecv) := by (repeat' apply And.intro) <;> decide
theorem wit_gap : (let s := wireState { mode := 2 } { rx := { gap := 3, gapBoundary := true } } {}
    (s.att 0).hasChannels = true ∧ (s.att 0).rx.gap ≠ 0 ∧ (s.att 0).rx.gapAt = none ∧ 0 < s.rxFree 0) := by (repeat' apply And.intro) <;> decide
theorem wit_usbIn : (let k : PortCmd := { code := 3, ep := 0x81, arg := 0, toRecv := 64 }
    let s := wireState { mode := 1, dropOvr := true, drop := true } { desc := some (device 3), cmds := [k], rx := { openRx with openEp := 0x81 } } {}
    (s.att 0).endpoint 0x81 = some { addr := 0x81, kind := 2, mps := 8, interval := 0 } ∧ [1, 2, 3, 4, 5, 6, 7, (8 : Byte)].length = 8 ∧ 8 < k.toRecv
      ∧ s.wireOpen 0 = true ∧ s.portDrop (0 / 16) = true ∧ (s.att 0).rx.openItems + 8 ≤ (s.port 0).cfg.limit
      ∧ ceilDiv ((s.att 0).rx.openItems + 8) 4 - ceilDiv (s.att 0).rx.openItems 4 ≤ s.rxFree 0 ∧ bitAt 0x81 7 = true ∧ (s.att 0).rx.openEp = 0x81) := by
  (repeat' apply And.intro) <;> decide
theorem wit_txHandoff : (let q : TxPacket := { words := [0x04030201], len := some 4, handed := 1 }
    let s := wireState { mode := 2 } { tx := { packets := [q], written := 2 } } {}
    (s.att 0).hasChannels = true ∧ (s.port (0 / 16)).enabled = true ∧ (s.att 0).cmds = [] ∧ Nat.min 2 (s.sendLimit 0) = 2 ∧ q.handed + 2 < q.len.getD 0
      ∧ slice q.bytes q.handed 2 ≠ []) := by (repeat' apply And.intro) <;> decide
theorem test_txHandoff : res (.txHandoff 0 2) (wireState { mode := 2 } { tx := { packets := [{ words := [0x04030201], len := some 4, handed := 1 }], written := 2 } } {})
    (fun t => t.out = [.wire 0 0 [2, 3]]) = true := by decide

/-! ### Pantry, Dumbwaiters and Landings (R234, R339 to R370, R401 to R412) -/

def pantryState (p : Pantry) : State :=
  { cpu with pantry := { p with mem := [(0x10010, 0x81), (0x10011, 0x82)] }, attic := { config := .image, state := 6 }
             fns := ⟨{ bme := true, fstate := .running, start := true }, {}⟩
             img := { cpu.img with devices := 2, worlds := ⟨{ attrs := [(0, 2)], bar2 := true }, {}⟩ } }
theorem wit_pantry : (let s := pantryState { trained := [3], scrubActive := true }
    3 ∈ s.pantry.trained ∧ 0 < s.img.cap ∧ 1 < s.img.devices ∧ s.pantry.scrubBurst ∉ s.pantry.poison ∧ s.done = true
      ∧ s.pageWorld (s.pantry.xlatIdx.get .slate) = some .slate ∧ bits (5 * 2 ^ 32 + 0) 5 16 = 0 ∧ s.pageWorld 9 ≠ some .slate
      ∧ s.bar2Ok .slate 0x10010 4 = true ∧ (∀ b ∈ burstsOf 0x10010 4, b ∉ s.pantry.poison) ∧ s.bar2Ok .slate 0x40000 4 = false) := by
  (repeat' apply And.intro) <;> decide
theorem test_bar2 : res (.bar2Access .slate 0x10010 2 none) (pantryState {}) (fun t => t.out = [.readBytes [0x81, 0x82]]) = true := by decide
theorem test_bar2_hole : res (.bar2Access .slate 0x40000 2 none) (pantryState {}) (fun t => t.out = [.readBytes [0, 0]]) = true := by decide

def dwState (d : Dw) : State :=
  let s := pantryState {}
  { s with dws := [(0, d)], img := { s.img with dwMap := 1 }, boiler := { s.boiler with domains := [dwDomain 0], cfg := { s.boiler.cfg with dwDie := 1, dieBase := 0, coreImax := 100 } } }
def moving : Dw := { src := 0x10000, dst := 0x12000, cnt := 128, state := .running, enable := true, leave := 1, cqDepth := 16, cqTail := 3 }
theorem wit_dw : (let s := dwState moving
    s.done = true ∧ s.dwWorld 0 = some .slate ∧ (s.dw 0).reqKind = 0 ∧ (s.dw 0).released = true ∧ (s.dw 0).descending = false ∧ (s.dw 0).burst < (s.dw 0).cnt
      ∧ s.pw.phase = .none ∧ (∀ i, i < (s.dw 0).burst → s.deny .slate false .read ((s.dw 0).src + i) = none ∧ s.deny .slate false .write ((s.dw 0).dst + i) = none)
      ∧ (s.dw 0).src + (s.dw 0).burst ≤ windowBase ∧ s.pantry.poison = []) := by (repeat' apply And.intro) <;> decide
theorem wit_dwStart : (let s := dwState { moving with state := .idle }
    (s.dw 0).state = .idle ∧ dwAligned (s.dw 0).src (s.dw 0).dst (s.dw 0).cnt = true
      ∧ s.boiler.denied (s.leaveReq (.dumbwaiter 0) false 4 (Nat.max 1 (s.dw 0).leave) (satAt 65535 (ceilDiv (s.dw 0).cnt (2 ^ 20))) none (s.dwLst 0)) = false) := by
  (repeat' apply And.intro) <;> decide
theorem wit_dwOthers : (let s := dwState { moving with state := .disabled, reqKind := 1 }
    bits 1 4 2 ≠ 2 ∧ s.boiler.domains.contains (dwDomain 0) = true ∧ (s.dw 0).reqPending < 255 ∧ 255 ≤ ((dwState { moving with reqPending := 255 }).dw 0).reqPending
      ∧ (s.dw 0).state ≠ .cqWait ∧ (ptrOf 2).idx < (s.dw 0).cqDepth
      ∧ ptrDist ⟨(s.dw 0).cqHead, (s.dw 0).cqHeadWrap⟩ (ptrOf 2) 16 ≤ ptrDist ⟨(s.dw 0).cqHead, (s.dw 0).cqHeadWrap⟩ ⟨(s.dw 0).cqTail, (s.dw 0).cqTailWrap⟩ 16) := by
  (repeat' apply And.intro) <;> decide
theorem test_dwBurst : res (.dwBurstDone 0 .ok) (dwState moving) (fun t => (t.dw 0).cnt = 64 && Memory.byte 0 t.pantry.mem 0x12010 = 0x81) = true := by
  decide +kernel

def landReq (r : Nat) : LandReq := { req := r, lst := 0, tag := .slate, beats := 1, entered := 0, order := 0, background := false, lowers := false, ctx := none }
def landState (l : Landing) : State := { pantryState {} with lands := [(0, l), (72, l)], img := { (pantryState {}).img with driveMap := 1 } }
theorem wit_landings : landExists 0 = true ∧ ((landState {}).landing 0).grant = none ∧ ((landState { grant := some (landReq 1) }).landing 0).grant.isSome = true
    ∧ ((landState { grant := some (landReq 1), queue := [landReq 2] }).landing 0).queue = [landReq 2] ∧ (landReq 1).beats ≤ Nat.max 1 0
    ∧ landExists 72 = true ∧ (landState {}).landWorld 72 = some .slate ∧ (landState {}).biasWritable .slate 5 = true
    ∧ -(((landState {}).boiler.cfg.negb.get .slate : Nat) : Int) ≤ (5 : W32).toInt ∧ (5 : W32).toInt ≤ 1000000 := by
  (repeat' apply And.intro) <;> decide +kernel
theorem test_grantEnd : res (.grantEnd 0 1) (landState { grant := some (landReq 1), queue := [landReq 2] })
    (fun t => (t.landing 0).grant = some (landReq 2) && (t.landing 0).queue.isEmpty) = true := by decide


/-! ### Drive hardware (R372 to R392) -/

def driveEv (c : DriveCfg) (d : Drive) : State :=
  { attic := { config := .image, state := 6 }, qz := { now := 100000000 }, boiler := { domains := [48] }, img := { driveMap := 1 }, drives := [(0, { d with cfg := c })] }
theorem wit_driveEvents : (let s := driveEv { mode := 1, quad := true, rampUp := 7 } { encLevels := 0, encLast := some 5, zcLast := some 80000000, inrushEnd := some 9, run := true }
    (s.drive 0).faultLow = false ∧ (s.drive 0).cfg.mode ≠ 0 ∧ (s.drive 0).cfg.gang = 0 ∧ ((driveEv {} { faultLow := true }).drive 0).faultLow = true
      ∧ quadStep (s.drive 0).encLevels 1 ≠ 0 ∧ 5 + 1000000000 ≤ ({ s with qz := { now := 1000000005 } } : State).now ∧ ((driveEv {} { ilim := 4095 }).drive 0).ilim = 4095
      ∧ (s.drive 0).motion = .follow ∧ (s.drive 0).run = true ∧ 9 ≤ s.now ∧ (s.drive 0).lease = none
      ∧ 15300000 ≤ s.now - 80000000 ∧ s.now - 80000000 ≤ 22300000 ∧ ¬(15300000 ≤ s.now - 70000000) = false
      ∧ ¬(15300000 ≤ 100000000 - 70000000 ∧ 100000000 - 70000000 ≤ 22300000) ∧ 60000000 + 40000000 ≤ s.now) := by (repeat' apply And.intro) <;> decide
theorem test_driveFault : res (.driveFault 0 true) (driveEv { mode := 1 } { run := true, actA := 100 })
    (fun t => (t.drive 0).causeFault && (t.drive 0).actA = 0 && !(t.drive 0).run) = true := by decide
theorem test_encoder : res (.encoderEdge 0 2) (driveEv { mode := 1, quad := true } {}) (fun t => (t.drive 0).encPos = 0xFFFFFFFF) = true := by decide
theorem test_zcEdge : res (.zcEdge 0) (driveEv { mode := 3 } { zcLast := some 80000000, zcCount := 3 })
    (fun t => (t.drive 0).zcOk && (t.drive 0).zcPeriod = 20000000) = true := by decide

/-! ### Boiler (R34, R415 to R430) -/

def waitReq (n : Nat) : LeaveReq :=
  { owner := .context 0, plant := true, cls := 1, amount := n, estMs := 100, lease := none, lst := 0, order := 0, since := 0, world := some .slate }
def aLease : Lease := { owner := .context 0, plant := true, cls := 1, amount := 5, estMs := 10, granted := 0 }
def boilerState (b : Boiler) : State :=
  { attic := { config := .image, state := 6 }, qz := { now := 100000000 }, img := { ctxMap := 1 }, ctxs := [(0, { state := .waiting, wait := .leave })]
    boiler := { b with cfg := { plantCap := 50, coreImax := 1000, clusterDie := 3 } } }
theorem wit_boilerWork : (let s := boilerState {}
    s.workDue (.cluster 2) = true ∧ s.boiler.stopped = false
      ∧ s.boiler.denied (s.leaveReq (.boiler (.cluster 2)) false 0 (s.boiler.workAmount (.cluster 2)) 65535 none s.backgroundLst) = false) := by
  (repeat' apply And.intro) <;> decide
theorem wit_boilerEvaluate : (let b := (boilerState { waiting := [waitReq 10] }).boiler
    b.waiting = [waitReq 10] ∧ b.stopped = false ∧ b.measOver = false ∧ b.lowering = false ∧ b.freeLease.isSome = true ∧ b.fitsOpen (waitReq 10) = true
      ∧ b.fitsOpen (waitReq 60) = false ∧ ((boilerState { waiting := [waitReq 10] }).ctx 0).wait ≠ .flverLeave) := by (repeat' apply And.intro) <;> decide +kernel
theorem wit_boilerOthers : (let b := (boilerState { leases := [(4, some aLease)], switching := [40], pace := ⟨2, 2⟩, modePace := ⟨2, 2⟩, rail := 2
                                                    job := some { sent := true, slate := 1, granite := 2, rail := 1 } }).boiler
    b.lease 4 = some aLease ∧ aLease.overdue 100000000 = true ∧ b.switching.contains 40 = true ∧ 750 * 100 / 100000 ≤ b.capacity false
      ∧ b.capacity false < 60000 * 60000 / 100 ∧ 745 ≤ paceMv 1 + 15 ∧ paceMv 1 ≤ 745 + 15) := by (repeat' apply And.intro) <;> decide
theorem wit_paceChange : (let b := (boilerState { pace := ⟨2, 2⟩, modePace := ⟨2, 2⟩, rail := 2 }).boiler
    b.job = none ∧ bits 1 0 2 = 1 ∧ paceMv b.rail < paceMv (railOf 1 b.modePace.granite) ∧ b.paceFits (railOf 1 b.modePace.granite) = true ∧ 1 ≠ b.pace.slate) := by
  (repeat' apply And.intro) <;> decide
theorem wit_measOver : 2 ≤ (boilerState { overRun := 2 }).boiler.overRun ∧ (boilerState { overRun := 2 }).boiler.measOver = false := by decide
theorem test_boilerEvaluate : res (.boilerEvaluate true) (boilerState { waiting := [waitReq 10] })
    (fun t => (t.boiler.lease 1).isSome && t.boiler.waiting.isEmpty && (t.ctx 0).leases = [1]) = true := by decide +kernel
theorem test_boilerKeeps : res (.boilerEvaluate true) (boilerState { waiting := [waitReq 60] }) (fun t => t.boiler.waiting.length = 1) = true := by decide +kernel
theorem test_overrun : res (.leaseOverrun 4) (boilerState { leases := [(4, some aLease)] }) (fun t => t.boiler.overrun = 1 && t.fc.buf.length = 1) = true := by decide
theorem test_paceDone : res (.paceDone 745) (boilerState { rail := 2, job := some { sent := true, slate := 1, granite := 2, rail := 1 } })
    (fun t => t.boiler.rail = 1 && t.boiler.pace = ⟨1, 2⟩ && t.boiler.job.isNone) = true := by decide

/-! ### Quartz, the statistics and the faults (R434 to R480) -/

def quartzState (z : Quartz) : State := { attic := { config := .image, state := 6 }, qz := z, img := { cmpMap := 1, worlds := ⟨{ msixCount := 4 }, {}⟩ } }
theorem wit_quartz : (let s := quartzState { now := 0x700000000, units := [(0, { tgt := 5, int := 1000, arm := true })] }
    OnReference s ∧ s.done = true ∧ s.cmpWorld 0 = some .slate ∧ (s.cmp 0).lock = false ∧ (s.fc.buf.filter (fun r => msgSource r.msg = 99)).length < 4
      ∧ (1000 ≤ (1000 : W32).toNat ∧ (1000 : W32).toNat ≤ 2000000000) ∧ ((quartzState { now := 0x700000000 }).cmp 0).arm = false) := by
  unfold OnReference; (repeat' apply And.intro) <;> decide
theorem wit_lfEdge : (quartzState { lf := true, tL := 5 }).qz.writes = [] ∧ 5 + (0 + 1) * 1953125 / 64 < 2 ^ 64 := by decide
theorem wit_cmpArm : (let s := quartzState { now := 100, window := true, units := [(0, { tgt := 5000 })] }
    (3 : W32).getLsbD 0 = true ∧ s.qz.window = true ∧ cmpPassed (s.cmp 0).tgt.toNat ((s.qz.now + Config.advanceNs) % 2 ^ 64) = false
      ∧ (s.cmp 0).lock = false ∧ (s.cmp 0).arm = false) := by (repeat' apply And.intro) <;> decide
theorem wit_match : (let s := quartzState { now := 140, prev := 100, units := [(0, { tgt := 120, arm := true }), (1, { tgt := 120, int := 1000, arm := true })] }
    (s.cmp 0).matchesAt s.qz.window s.qz.prev s.qz.now = true ∧ (s.cmp 0).int = 0 ∧ (s.cmp 1).matchesAt s.qz.window s.qz.prev s.qz.now = true
      ∧ (s.cmp 1).int ≠ 0 ∧ (s.cmp 1).int.toNat ≤ 2000000000 ∧ cmpPassed (s.cmp 1).tgt.toNat s.qz.now = true) := by (repeat' apply And.intro) <;> decide
theorem wit_sync : (let s := quartzState { now := 201000 }
    100000 + 1000 ≤ s.now ∧ s.qz.sync + 100000 ≤ 100000 ∧ s.qz.syncFalling = false ∧ (s.stats.get .slate).syncEn = false) := by (repeat' apply And.intro) <;> decide
theorem wit_linked : ((quartzState { snap := ⟨{ low := some 0x400000 }, {}⟩ }).qz.snap.get .slate).low = some 0x400000
    ∧ ((quartzState {}).qz.snap.get .slate).low ≠ some 0x400000 := by decide
theorem test_match : res (.compareMatch 1) (quartzState { now := 2140, prev := 100, units := [(1, { tgt := 120, int := 1000, arm := true })] })
    (fun t => (t.cmp 1).tgt = 3120 && (t.cmp 1).missed = 2) = true := by decide
theorem test_linkedLow : res (.linkedLowRead .slate 0x400000) (quartzState { now := 0x123456789A })
    (fun t => t.out = [.readData 0x3456789A] && (t.qz.snap.get .slate).high = 0x12) = true := by decide

def epochState (e : EpochEngine) (n : Nat) : State := { quartzState { now := n } with stats := ⟨e, {}⟩ }
def anEpoch : EpochEngine := { periodMs := 1, running := true, next := 1000000, bounded := true }
theorem wit_epochPeriod : (let e := ((epochState anEpoch 1000000).stats.get .slate)
    e.running = true ∧ e.periodMs ≠ 0 ∧ e.next ≤ (epochState anEpoch 1000000).now ∧ e.safeSince = [] ∧ e.latched = none
      ∧ (∀ q ∈ (epochState anEpoch 1000000).boiler.waiting, q.world ≠ some .slate)) := by (repeat' apply And.intro) <;> decide
theorem wit_epochNow : (let s := epochState anEpoch 20000
    s.done = true ∧ (1 : W32).getLsbD 0 = true ∧ s.now < (s.stats.get .slate).next ∧ (s.stats.get .slate).start + 10000 ≤ s.now ∧ (s.stats.get .slate).lock = false
      ∧ (5 : W32).toNat ≤ 86400000 ∧ s.now < (s.stats.get .slate).start + (5 : W32).toNat * 1000000) := by (repeat' apply And.intro) <;> decide
theorem wit_publish : ((epochState { anEpoch with latched := some { stop := 10 } } 10010).stats.get .slate).latched = some { stop := 10 }
    ∧ 10 + 10000 ≤ (epochState anEpoch 10010).now := by decide
theorem test_epoch : res (.epochPeriod .slate) (epochState anEpoch 1000040)
    (fun t => (t.stats.get .slate).start = 1000000 && (t.stats.get .slate).next = 2000000) = true := by decide
theorem test_publish : res (.epochPublish .slate) (epochState { anEpoch with latched := some { stop := 10 } } 10010)
    (fun t => (t.stats.get .slate).seq = 1 && (t.stats.get .slate).readable.stop = 10) = true := by decide

def aMsg : W64 := faultMsg 93 1 5 0x40 (some .slate) false
def faultState (c : Collector) : State := { quartzState { now := 50000 } with fc := c }
theorem wit_faults : (faultState { buf := [⟨aMsg, none⟩] }).fc.buf = ⟨aMsg, none⟩ :: [] ∧ entersView aMsg .slate = true ∧ entersView aMsg .granite = false
    ∧ (faultState { pulse := true, pulseAt := 100 }).fc.pulseAt + 10000 ≤ (faultState {}).now ∧ (1 : W32).getLsbD 0 = true
    ∧ (faultState {}).causePresent (some .slate) 5 = false ∧ (faultState {}).flint.lifecycle = 0 ∧ (faultState {}).done = true
    ∧ ({ faultState { views := ⟨{ recs := [(98, { active := true, levels := [0x12] })] }, {}⟩ } with boiler := { measOver := true } } : State).causePresent (some .slate) 98 = true := by
  (repeat' apply And.intro) <;> decide
theorem wit_sweep : (let g := fun (v : W32) => ({ good := true, corrected := false, value := v } : CopyRead)
    voteOf [g 1, g 1, g 1] = .clean ∧ voteOf [g 1, g 2, g 1] = .repaired ∧ voteOf [g 1, g 2, g 3] = .unvotable
      ∧ NoCcw State.reset ∧ (∀ d, (State.reset.ctx d).visit = none) ∧ State.reset.worldDrives .granite = []) := by
  refine ⟨by decide, by decide, by decide, fun _ => ⟨rfl, rfl⟩, fun _ => rfl, by decide +kernel⟩
theorem test_faultMessage : res (.faultMessage none) (faultState { buf := [⟨aMsg, none⟩] })
    (fun t => (Tbl.get {} (t.fc.views.get .slate).recs 93).count = 1 && (Tbl.get {} (t.fc.views.get .granite).recs 93).count = 0
      && (Tbl.get {} t.fc.study.recs 93).first = studyMsg aMsg) = true := by decide
theorem test_injectDenied : res (.faultInject .slate 0) { faultState {} with flint := { lifecycle := 2 } } (fun t => (t.fc.views.get .slate).injectDenied) = true := by decide


/-! ### Resets and start-up (R36, R41 to R72, R454, R485 to R504) -/

theorem wit_resets : State.reset.pw.railsOk = true ∧ State.reset.pw.lost = false ∧ ({ State.reset with attic := { state := 7 } } : State).attic.state = 7
    ∧ State.reset.attic.state = 0 ∧ State.reset.attic.readRetry.contains 64 = false
    ∧ ({ State.reset with attic := { readRetry := [64] } } : State).attic.readRetry.contains 64 = true := by (repeat' apply And.intro) <;> decide
theorem test_reset : res (.resetN 5000 true) { cpu with fuses := { lifecycle := 2 }, cellar := { mem := [(5, 1)] } }
    (fun t => t.pw.cause = 1 && t.ctxs.isEmpty && t.flint.lifecycle = 2 && t.cellar.mem = [(5, 1)] && t.pantry.mem.isEmpty) = true := by decide +kernel
theorem test_probe : res (.atticProbe .octal) State.reset (fun t => t.attic.state = 2 && t.attic.octal) = true := by decide

/-- Blank flash: no copy of a kind is chosen. -/
def blank (st : Nat) : State := { attic := { state := st } }
theorem wit_chooseNone : ((blank 2).chooseCopy 3).sel = none ∧ ((blank 3).chooseCopy 1).sel = none ∧ ((blank 3).chooseCopy 2).sel = none
    ∧ (blank 3).flint.lifecycle ≠ 3 ∧ (blank 3).attic.fwRecovery = false ∧ (blank 4).attic.config ≠ .image ∧ (blank 4).attic.boardBase = none := by
  (repeat' apply And.intro) <;> decide +kernel
theorem wit_firmwareSelect (h : HashOnes) : ((copyState 2 3 [(0x20, 0)] (bodiesOf 1 0 [])).chooseCopy 3).sel = some 0 :=
  copyState_chosen h formed_firmware (by decide +kernel) (by decide +kernel)
theorem wit_imageSelect (h : HashOnes) : ((copyState 3 1 imageSects imageBodies).chooseCopy 1).sel = some 0
    ∧ (copyState 3 1 imageSects imageBodies).flint.lifecycle ≠ 3 ∧ (copyState 3 1 imageSects imageBodies).attic.fwRecovery = false :=
  ⟨copyState_chosen h formed_image (by decide +kernel) (by decide +kernel), by decide, rfl⟩

/-- A range of the flash that a copy of another kind leaves blank. -/
theorem copyState_blank {st kind : Nat} {l : List (Nat × Nat)} {d : List Byte} (hf : Formed kind l d) (a : Nat)
    (ha : a + 256 ≤ copyBase kind 0 ∨ copyBase kind 0 + 0x9000 + d.length ≤ a) (k : Nat) : (copyState st kind l d).checkCopy a k = 2
      ∧ ((copyState st kind l d).header a).magic ≠ 0x4F4E4C46 := by
  have e1 : (copyState st kind l d).flashBytes a 256 = List.replicate 256 0xFF := by
    obtain ⟨⟨h1, h2, h3⟩, -⟩ := hf
    unfold copyState State.flashBytes
    rw [Memory.bytes_write_of_apart _ _ _ _ _ _ (by omega),
      Memory.bytes_write_of_apart _ _ _ _ _ _ (by rw [List.length_append, h1, h2]; omega)]
    simp only [Memory.bytes, Memory.byte, Tbl.get_nil, List.map_const', List.length_range]
  have e2 : ((copyState st kind l d).header a).magic ≠ 0x4F4E4C46 := by simp only [State.header, e1]; decide
  have e3 : (copyState st kind l d).readable a 256 = true := rfl
  exact ⟨by simp [State.checkCopy, e2, e3], e2⟩
theorem copyState_none {st kind : Nat} {l : List (Nat × Nat)} {d : List Byte} (hf : Formed kind l d) (k : Nat)
    (ha : ∀ i, i < 2 → copyBase k i + 256 ≤ copyBase kind 0 ∨ copyBase kind 0 + 0x9000 + d.length ≤ copyBase k i) :
    ((copyState st kind l d).chooseCopy k).sel = none := by
  obtain ⟨a1, a2⟩ := copyState_blank (st := st) hf _ (ha 0 (by omega)) k
  obtain ⟨b1, b2⟩ := copyState_blank (st := st) hf _ (ha 1 (by omega)) k
  have ga : (copyState st kind l d).copyGen k 0 = 0 := by simp [State.copyGen, a2]
  have gb : (copyState st kind l d).copyGen k 1 = 0 := by simp [State.copyGen, b2]
  simp [State.chooseCopy, ga, gb, a1, b1]
theorem wit_boardSelect (h : HashOnes) : ((copyState 3 2 [(0x0D, 0), (2, 1), (3, 1)] (bodiesOf 3 0 [])).chooseCopy 1).sel = none
    ∧ ((copyState 3 2 [(0x0D, 0), (2, 1), (3, 1)] (bodiesOf 3 0 [])).chooseCopy 2).sel = some 0 :=
  ⟨copyState_none formed_board 1 (by decide +kernel), copyState_chosen h formed_board (by decide +kernel) (by decide +kernel)⟩

theorem find_body {l : List Sect} {p : Sect → Bool} {o n : Nat} (f : Nat → Nat → List Byte)
    (h : (l.find? p).map (fun e => (e.off, e.len)) = some (o, n)) : (l.find? p).map (fun e => f e.off e.len) = some (f o n) := by
  cases hl : l.find? p with
  | none => rw [hl] at h; simp at h
  | some e => rw [hl] at h; simp only [Option.map_some, Option.some.injEq, Prod.mk.injEq] at h ⊢; rw [h.1, h.2]
theorem image_section (st type o : Nat) (ho : o + 64 ≤ 512)
    (h : ((sectsOf (manOf imageSects) 8).find? (fun e => e.type = type && true)).map (fun e => (e.off, e.len)) = some (0x9000 + o, 64)) :
    (copyState st 1 imageSects imageBodies).section1 (copyBase 1 0) type none = some ((imageBodies.drop o).take 64) := by
  have e1 : (copyState st 1 imageSects imageBodies).sects (copyBase 1 0) = sectsOf (manOf imageSects) 8 := by
    unfold State.sects
    rw [State.header, copyState_head formed_image]
    have h1 : (headerOf (headOf 1 5 imageSects.length)).manOff = 256 := by decide +kernel
    have h2 : (headerOf (headOf 1 5 imageSects.length)).manLen = 64 * imageSects.length := by decide +kernel
    have h3 : (headerOf (headOf 1 5 imageSects.length)).count = 8 := by decide +kernel
    simp only [h1, h2, h3, copyState_man formed_image]
  unfold State.section1
  rw [e1, find_body (fun o n => (copyState st 1 imageSects imageBodies).flashBytes (copyBase 1 0 + o) n) h,
    copyState_body st 1 imageSects imageBodies o 64 (by
      have h5 : imageBodies.length = 512 := by decide +kernel
      omega)]
theorem wit_configApply : (let s := copyState 4 1 imageSects imageBodies
    let base := copyBase 1 0
    let p := (s.section1 base 0x0E none).getD []
    let strong := bitAt (fieldAt ((s.section1 base 1 none).getD []) 0 4) 4
    s.attic.state = 4 ∧ s.attic.config = .image ∧ s.attic.imageBase = some base
      ∧ pantryBad p strong (regionsOf ((s.section1 base 2 none).getD [])) = false ∧ trainOk (fieldAt p 0 1) [] = false
      ∧ (s.chooseCopy 2).sel = none) := by
  intro s base p strong
  have h1 := image_section 4 0x0E 128 (by decide) (by decide +kernel)
  have h2 := image_section 4 1 0 (by decide) (by decide +kernel)
  have h3 := image_section 4 2 320 (by decide) (by decide +kernel)
  refine ⟨rfl, rfl, rfl, ?_, ?_, copyState_none formed_image 2 (by decide +kernel)⟩
  · simp only [p, strong, s, base, h1, h2, h3]; decide +kernel
  · simp only [p, s, base, h1]; decide +kernel

/-- A Cellar with one slot of a KIND (1 record, 2 save) whose CRC is right. -/
def slotState (kind crc digest : Nat) : State :=
  { attic := { state := 5, config := .image, digest := digest }
    cellar := { mem := Memory.write 0 (Memory.write 0 [] 0 (leBytes 4 0x4C4C4543 ++ leBytes 2 1 ++ leBytes 2 kind ++ leBytes 8 7 ++ leBytes 8 0 ++ leBytes 4 512
      ++ leBytes 4 crc)) 0x7FFF8 (leBytes 8 commitPattern) } }
set_option maxRecDepth 1000000 in
theorem wit_cellarRestore : (slotState 2 2617707105 0).newestSlot.1 = some 0 ∧ (slotState 2 2617707105 0).slotIsSave 0 = true
    ∧ (slotState 2 2617707105 0).slotField 0 0x20 32 = (slotState 2 2617707105 0).attic.digest
    ∧ (slotState 2 2617707105 9).slotField 0 0x20 32 ≠ (slotState 2 2617707105 9).attic.digest ∧ (blank 5).newestSlot.1 = none
    ∧ (blank 5).attic.config ≠ .image := by (repeat' apply And.intro) <;> decide +kernel
theorem wit_atticDone : (∀ w, ((blank 5).wcfg w).residents = []) ∧ (blank 5).attic.config ≠ .builtin := by
  constructor
  · intro w; cases w <;> rfl
  · decide
theorem wit_records : (let s : State := { attic := { state := 6, config := .image }, cellar := { job := .startRecord } }
    s.cellar.job = .startRecord ∧ s.pw.phase = .none ∧ s.done = true ∧ s.flint.fwSlot < 4)
    ∧ (let s : State := { flint := { auditDue := 2, lcPending := 1 } }
      0 < s.flint.auditDue ∧ s.cellar.job = .idle) := by (repeat' apply And.intro) <;> decide
theorem test_keyRevoke : res .keyRevoke { attic := { state := 6, imageBase := some 4 }, flint := { fwSlot := 1, imgSlot := 2 }
                                          fuses := { fwKey := [(0, 3), (1, 4)], imgKey := [(1, 5), (2, 6)] } }
    (fun t => t.fuses.revoke = 0x21) = true := by decide
theorem test_audit : res .auditRecordWrite { flint := { auditDue := 2, lcPending := 1 } } (fun t => t.fuses.lifecycle = 1 && t.flint.auditDue = 1) = true := by
  decide +kernel

/-! ### Power fail, JTAG, SMBus and the fuses (R482 to R506, R523, R524) -/

theorem wit_save : (let s : State := { attic := { state := 6, config := .image }, pw := { ready := true } }
    s.done = true ∧ s.pw.phase = .none ∧ s.pw.lost = false ∧ s.pw.ready = true)
    ∧ (let s : State := { pw := { phase := .running }, cellar := { job := .save } }
      s.pw.phase = .running ∧ s.cellar.job = .save ∧ s.pw.phase ≠ .none) := by (repeat' apply And.intro) <;> decide
theorem test_saveStart : res (.saveStart true false) { attic := { state := 6 } }
    (fun t => (t.fn .slate).host = .saving && t.pw.phase = .ended && t.boiler.stopped) = true := by decide +kernel
theorem wit_jtag : cpu.ctxWorld 0 = some .slate ∧ cpu.jtag.openSlate = false ∧ cpu.flint.lifecycle ≤ 1 ∧ (cpu.debugWorld (.pantry 0x10000 2)).isSome = true
    ∧ ({ cpu with flint := { lifecycle := 2 } } : State).flint.debugSlate = false := by (repeat' apply And.intro) <;> decide
theorem test_dbgWrite : res (.dbgWrite (.pantry 0x10000 2) [7, 8]) cpu (fun t => t.pnBytes 0x10000 2 = [7, 8] && t.jtag.ir = 0x23) = true := by decide +kernel
theorem test_dbgHalt_locked : res .dbgHalt { cpu with flint := { lifecycle := 2 } } (fun t => t.jtag.ir = 0xFF && !t.qz.debugHalt) = true := by decide
theorem test_fuseProg : res (.fuseProg (.fwKey 2) 0xABC) State.reset (fun t => Tbl.get 0 t.fuses.fwKey 2 = 0xABC) = true := by decide +kernel
theorem test_fuseProg_taken : res (.fuseProg (.fwKey 2) 0xABC) { State.reset with fuses := { fwKey := [(2, 1)] } }
    (fun t => Tbl.get 0 t.fuses.fwKey 2 = 1 && t.jtag.ir = 0xFF) = true := by decide
theorem wit_lcAdvance : (let s : State := { flint := { lifecycle := 1 }, fuses := { imgKey := [(0, 5)] } }
    s.attic.config ≠ .image ∧ Tbl.get 0 s.fuses.imgKey 0 ≠ 0) ∧ ¬MayProgram State.reset (.imgKey 0)
    ∧ ¬MayProgram State.reset .revoke := by unfold MayProgram; (repeat' apply And.intro) <;> decide
theorem test_smbus : res .smbAtStatus { attic := { state := 6 } } (fun t => t.out.length = 1) = true := by decide
theorem test_smbus_early : res .smbAtStatus State.reset (fun t => t.out.isEmpty) = true := by decide

/-- A poisoned burst, a part of which is written. -/
theorem wit_poison : (let s : State := { pantry := { poison := [2] } }
    2 ∈ s.pantry.poison ∧ (64 ≤ 32 * 2 ∧ 32 * 2 + 32 ≤ 64 + 32) ∧ ¬(65 ≤ 32 * 2)) := by decide
theorem wit_deleteCqBusy : (∃ m, m ≠ 0 ∧ ((qmState delCq sq1 {}).sq .slate m).state ≠ .none ∧ ((qmState delCq sq1 {}).sq .slate m).cq = 1)
    ∧ (let s := qmState delCq {} parked
      s.ctxWorld 0 = some .slate ∧ (s.ctx 0).state ≠ .free ∧ (s.ctx 0).cq = 1 ∧ (s.ctx 0).orphaned = false ∧ s.isResident 0 = false ∧ s.isProbe 0 = false)
    ∧ ({ qmState delCq {} {} with ovf := [{ world := .slate, cq := 1, compl := { body := [] }, reserved := false }] } : State).storeOf .slate 1 ≠ [] := by
  refine ⟨⟨1, by decide, by decide, by decide⟩, ?_, by decide⟩
  (repeat' apply And.intro) <;> decide +kernel

/-- The canonical form holds after reset, and a step from there answers. -/
theorem wit_reset_memoryOk : State.reset.memoryOk = true := by decide
theorem test_step_idle : (match step State.reset with
    | .next t => decide (t.qz.now ≥ State.reset.qz.now)
    | _ => false) = true := by decide
theorem test_decode_none : decodeTableWord 32 0 = none ∧ State.reset.withFetchWord 32 0 = State.reset := ⟨rfl, rfl⟩


/-! ### Ill-formed commands, one for each check -/

theorem test_wf_bar0 : ((.registerWrite .slate 0x1000000 false 0 : Instr)).wf = false := by decide
theorem test_wf_misaligned : ((.misalignedRegAccess .slate 0x40 4 false : Instr)).wf = false := by decide
theorem test_wf_linkedLow : ((.linkedLowRead .slate 0x1000000 : Instr)).wf = false := by decide
theorem test_wf_bar2 : ((.bar2Access .slate 0xFFFFFFFF 2 none : Instr)).wf = false := by decide
theorem test_wf_bar2_data : ((.bar2Access .slate 0xFFFFFFFF 0 (some [1, 2]) : Instr)).wf = false := by decide
theorem test_wf_train : ((.configApply [{ chan := 4, rdMin := 0, rdBall := 0, wrMin := 0, wrBall := 0, rpreOk := true, alertOk := true, verifyOk := true }] : Instr)).wf = false := by decide
theorem test_wf_requestBit : ((.flashOpen .slate 16 : Instr)).wf = false := by decide
theorem test_wf_queue : ((.sqTailDoorbell .slate 8192 0 : Instr)).wf = false := by decide
theorem test_wf_context : ((.write 16384 : Instr)).wf = false := by decide
theorem test_wf_lateReason : ((.lateBusError 0 4 : Instr)).wf = false := by decide
theorem test_wf_hearth : ((.issueSlotFree 64 : Instr)).wf = false := by decide
theorem test_wf_mailbox : ((.mbNote 16 0 : Instr)).wf = false := by decide
theorem test_wf_message : ((.mbMsgWrite .slate 0 8 0 : Instr)).wf = false := by decide
theorem test_wf_reply : ((.mbAcknowledge 0 0 0 [(8, 0)] : Instr)).wf = false := by decide
/-- Every word is one that a context may meet: that of XBLK, of no instruction, of another row. -/
theorem test_wf_word : ((.xblk 0 1 : Instr)).wf = true ∧ ((.xblk 0 0 : Instr)).wf = true ∧ ((.xblk 0 0xFC000000 : Instr)).wf = true
    ∧ ((.xblk 16384 0 : Instr)).wf = false := by decide
theorem test_wf_port : ((.overcurrent 256 : Instr)).wf = false := by decide
theorem test_wf_attachment : ((.usbDisconnect 4096 : Instr)).wf = false := by decide
theorem test_wf_endpoint : ((.intPollInterval 0 16 : Instr)).wf = false := by decide
theorem test_wf_pin : ((.pulseEnd 0 4 : Instr)).wf = false := by decide
theorem test_wf_portError : ((.cmdDone 0 0 15 : Instr)).wf = false := by decide
theorem test_wf_channel : ((.pnAlert 4 : Instr)).wf = false := by decide
theorem test_wf_device : ((.refresh 0 2 : Instr)).wf = false := by decide
theorem test_wf_engine : ((.dwPause .slate 32 0 : Instr)).wf = false := by decide
theorem test_wf_drive : ((.zcEdge 64 : Instr)).wf = false := by decide
theorem test_wf_converter : ((.adcSample 0 2 0 : Instr)).wf = false := by decide
theorem test_wf_landing : ((.grantEnd 7 0 : Instr)).wf = false := by decide
theorem test_wf_requester : ((.landingRequest 0 103 .slate 1 false none : Instr)).wf = false := by decide
theorem test_wf_landingContext : ((.landingRequest 0 0 .slate 1 false (some 16384) : Instr)).wf = false := by decide
theorem test_wf_bias : ((.ldBiasWrite .slate 128 0 : Instr)).wf = false := by decide
theorem test_wf_cluster : ((.leaveRequest (.cluster 16) : Instr)).wf = false := by decide
theorem test_wf_porch : ((.leaveRequest (.porch 256) : Instr)).wf = false := by decide
theorem test_wf_driveGroup : ((.leaveRequest (.driveGroup 8) : Instr)).wf = false := by decide
theorem test_wf_dwDomain : ((.leaveRequest (.dwDomain 60) : Instr)).wf = false := by decide
theorem test_wf_lease : ((.leaseOverrun 0 : Instr)).wf = false := by decide
theorem test_wf_compare : ((.compareMatch 1024 : Instr)).wf = false := by decide
theorem test_wf_source : ((.recordClear (some .slate) 111 0 : Instr)).wf = false := by decide
theorem test_wf_debugRecord : ((.dbgRead (.record 16384) : Instr)).wf = false := by decide
theorem test_wf_debugPantry : ((.dbgRead (.pantry 0xFFFFFFFF 2) : Instr)).wf = false := by decide
theorem test_wf_fuseSlot : ((.fuseProg (.grnKey 4) 0 : Instr)).wf = false := by decide
theorem test_wf_domain : ((.domainOn 64 : Instr)).wf = false := by decide
theorem test_wf_bypass : ((.bypass 0x20 : Instr)).wf = false := by decide
/-- The sign of EXTU and of EXTS is that of the row. -/
theorem test_wf_ext (f : FmtF) : (Instr.extu 0 { f with s := true }).wf = false ∧ (Instr.exts 0 { f with s := false }).wf = false := ⟨rfl, rfl⟩
theorem test_wf_good : (Instr.landingRequest 0 102 .slate 1 false none).wf = true ∧ (Instr.intPollInterval 0 0x81).wf = true := by decide

end Sys2Proof.Machine

namespace Sys2Proof.Machine

/-! ### Leave, scheduling and ends, each where it completes -/

/-- Boiler's capacity for a LEAVE CCW of 5 units of the plant budget. -/
def leaveCcwState (y : Ccw) (x : Ctx) : State :=
  let s := ccwState y x
  { s with boiler := { s.boiler with cfg := { s.boiler.cfg with plantCap := 1000, coreImax := 1000 }, railMv := 1000 } }
def leaveY (amount : Nat) : Ccw := { code := 0xB, flags := 2, count := 5, param := 3 + 256 * amount }
/-- The LEAVE CCW has begun, with its lease granted. -/
def leaveGranted : Ctx :=
  { started := true, ccw := some (ccwY (leaveY 5)), stream := { members := [ccwY (leaveY 5)] }, answer := .granted 7, leases := [7] }
/-- A lease that the program's LEAVE CCWs hold on the plant budget. -/
def leaveHeld : State :=
  let s := leaveCcwState (leaveY 0) { ccwLease := [(1, 7)], leases := [7] }
  { s with boiler := { s.boiler with leases := [(7, some { owner := .context 0, plant := true, cls := 1, amount := 5, estMs := 1, granted := 0 })] } }
theorem notDone_of {o : Option Activation} (h : (match o with
    | some z => !z.portDone && !z.channelDone
    | none => true) = true) : ∀ z, o = some z → z.portDone = false ∧ z.channelDone = false := by
  intro z hz; subst hz; simpa using h
theorem wit_leaveAsk : (let s := leaveCcwState (leaveY 5) {}
    NextCcw s 0 (ccwY (leaveY 5)) ∧ Unencumbered s 0 ∧ StartsWell s 0 (ccwY (leaveY 5)) ∧ (ccwY (leaveY 5)).dln = false
      ∧ Tbl.get 0 (s.ctx 0).ccwLease 1 = 0 ∧ (ccwY (leaveY 5)).param / 256 % 2 ^ 24 = 5 ∧ (s.ctx 0).leases.length < 4
      ∧ s.boiler.denied (s.leaveReq (.context 0) true 1 5 5 none 0) = false) := by
  unfold NextCcw Unencumbered StartsWell; (repeat' apply And.intro) <;> decide
theorem wit_leaveRelease : (let s := leaveHeld
    NextCcw s 0 (ccwY (leaveY 0)) ∧ Unencumbered s 0 ∧ StartsWell s 0 (ccwY (leaveY 0)) ∧ (ccwY (leaveY 0)).cc = true
      ∧ Tbl.get 0 (s.ctx 0).ccwLease 1 = 7 ∧ 7 ∈ (s.ctx 0).leases ∧ (s.boiler.lease 7).isSome = true) := by
  unfold NextCcw Unencumbered StartsWell; (repeat' apply And.intro) <;> decide
theorem wit_leaveGranted : (let s := leaveCcwState (leaveY 5) leaveGranted
    (s.ctx 0).answer = .granted 7 ∧ Midway s 0 (ccwY (leaveY 5)) ∧ Unencumbered s 0 ∧ (ccwY (leaveY 5)).loc = (s.ctx 0).ccwAddr
      ∧ s.now ≤ (s.ctx 0).deadline) := by
  unfold Midway Unencumbered; refine ⟨?_, ⟨?_, ?_, ?_, ?_, ?_, ?_, ?_, ?_, ?_, ?_, ?_, ?_, ?_, notDone_of ?_⟩, ?_, ?_, ?_⟩ <;> decide
theorem test_leaveCcw_waits : res (.leaveCcw 0) (leaveCcwState (leaveY 5) {})
    (fun t => (t.ctx 0).wait = .leave && t.boiler.waiting.length = 1) = true := by decide
theorem test_leaveCcw_releases : res (.leaveCcw 0) leaveHeld
    (fun t => (t.boiler.lease 7).isNone && (t.ctx 0).ccwAddr = 0x10010) = true := by decide

/-- A WRITE of 8 bytes in its activation, whose deadline 5 has passed at time 10. -/
def midwayY : Ccw := { code := 1, count := 8, addr := 0x10200, loc := 0x10000 }
def midwayCtx : Ctx :=
  { started := true, deadline := 5, ccw := some midwayY, stream := { members := [midwayY] }
    act := some { code := 1, tgt := 0, att := none } }
def midwayState (x : Ctx) (st : CtxState) : State :=
  let s := ccwState midwayY x
  { (s.modCtx 0 (fun y => { y with state := st })) with qz := { now := 10 } }
def midwayWaits : State := midwayState { midwayCtx with wait := .lock 5 .slate } .waiting
theorem wit_misses : Midway (midwayState midwayCtx .running) 0 midwayY ∧ StatusFits (midwayState midwayCtx .running) 0
    ∧ ((midwayState midwayCtx .running).ctx 0).deadline < (midwayState midwayCtx .running).now := by
  unfold Midway StatusFits
  refine ⟨⟨?_, ?_, ?_, ?_, ?_, ?_, ?_, ?_, ?_, ?_, ?_, ?_, ?_, notDone_of ?_⟩, ?_, ?_⟩
  all_goals decide
theorem wit_lockWait : Midway midwayWaits 0 midwayY ∧ StatusFits midwayWaits 0 ∧ (midwayWaits.ctx 0).state = .waiting
    ∧ (midwayWaits.ctx 0).wait = .lock 5 .slate ∧ (midwayWaits.ctx 0).act.isSome = true
    ∧ (midwayWaits.ctx 0).waitSince + 1000 * (midwayWaits.wcfg (midwayWaits.home 0)).lockWaitUs < midwayWaits.now := by
  unfold Midway StatusFits
  refine ⟨⟨?_, ?_, ?_, ?_, ?_, ?_, ?_, ?_, ?_, ?_, ?_, ?_, ?_, notDone_of ?_⟩, ?_, ?_, ?_, ?_, ?_⟩
  all_goals decide
theorem test_deadlineMiss : res (.deadlineMiss 0) (midwayState midwayCtx .running) (fun t => (t.ctx 0).state = .free
    && hostBytesOf t.hostMem 0x1000 16 = leBytes 8 0x10000 ++ leBytes 2 8 ++ leBytes 1 8 ++ leBytes 1 0 ++ leBytes 2 8 ++ leBytes 2 0) = true := by decide
theorem test_lockWaitTimeout : res (.lockWaitTimeout 0) midwayWaits
    (fun t => (t.ctx 0).state = .free && t.hearths.cnt.slate.lockTo = 1) = true := by decide

theorem wit_asyncError : (let s := lateState (some ⟨2, 4, false⟩)
    (s.ctx 0).super1 = false ∧ (s.ctx 0).branch = none ∧ (s.ctx 0).st.getLsbD 4 = false ∧ (s.ctx 0).due = none
      ∧ (s.ctx 0).answer = .none) := by (repeat' apply And.intro) <;> decide
def waitsOn (k : Wait) (a : LeaveAnswer) : State :=
  let s := ccwState {} { wait := k, answer := a, deadline := 5 }
  let s := s.modDrive 0 (fun d => { d with answers := [⟨0, 0, 0⟩] })
  { (s.modCtx 0 (fun y => { y with state := .waiting })) with qz := { now := 10 } }
theorem wit_waits : ((waitsOn .leave .refused).ctx 0).answer ≠ .none ∧ ((waitsOn (.drive 0) .none).drive 0).answers.any (fun y => y.ctx = 0) = true
    ∧ (waitsOn .flint .none).flintOpen < 64 ∧ ((waitsOn .flver .none).ctx 0).wait = .flver
    ∧ ((waitsOn (.ccw 0 1) .none).ctx 0).deadline ≤ (waitsOn (.ccw 0 1) .none).now
    ∧ (waitsOn .leave .refused).frozen ((waitsOn .leave .refused).home 0) = false := by (repeat' apply And.intro) <;> decide
theorem test_waitEnd_flint : res (.waitEnd 0) (waitsOn .flint .none) (fun t => (t.ctx 0).state = .ready && (t.ctx 0).flint = some {}) = true := by decide
theorem get_of_all {α : Type} (P : α → Prop) (d : α) (h0 : P d) : ∀ (t : Tbl α) (_ : ∀ p ∈ t, P p.2) (k : Nat), P (Tbl.get d t k)
  | [], _, _ => h0
  | p :: t, h, k => by
    rw [Tbl.get_cons]
    split
    · exact h p (List.mem_cons_self ..)
    · exact get_of_all P d h0 t (fun q hq => h q (List.mem_cons_of_mem _ hq)) k
theorem wit_failure : (∀ d, (full.ctx d).due = none) ∧ (full.ctx 3).state = .running
    ∧ ((hearthState [{ state := .migrating, ccw := some midwayY }]).ctx 0).outputHanded = false
    ∧ ((hearthState [{ state := .migrating, ccw := some { midwayY with code := 3 }, started := true, outputHanded := true }]).ctx 0).started = true := by
  refine ⟨fun d => ?_, by decide, by decide, by decide⟩
  exact get_of_all (fun x : Ctx => x.due = none) {} rfl full.ctxs (by decide) d
theorem test_migratingPlaced : res (.migratingPlaced 0) (hearthState [{ state := .migrating, ccwAddr := 0x10000, regs := [(1, 5)] }])
    (fun t => (t.ctx 0).state = .ready && (t.ctx 0).regs = [] && (t.ctx 0).ccwAddr = 0x10000) = true := by decide

/-- A resident program whose header stands at 0x10000: level 1, Slate, back office and one target. -/
def restartState (st : CtxState) : State :=
  let s := residentState st 5 6
  { s with pantry := { mem := Memory.write 0 [] 0x10000 (leBytes 1 1 ++ leBytes 1 1 ++ leBytes 1 255 ++ leBytes 1 1 ++ leBytes 4 50 ++ leBytes 4 0x1000) }
           img := { s.img with worlds := s.img.worlds.upd .slate (fun c => { c with residents := [⟨0, 255, 0, true, 0, 0x10000, 5⟩] }) } }
theorem wit_restart : (let s := restartState .free
    s.issues (s.home 0) = true ∧ s.isProbe 0 = false ∧ (s.ctx 0).restartAt = some 5 ∧ (5 ≤ s.now)
      ∧ s.residentOf 0 = some ⟨0, 255, 0, true, 0, 0x10000, 5⟩ ∧ s.placeHome 0 (s.ctx 0).placeAsked = .hearth 0
      ∧ s.bindCheck .slate { level := 3, lanes := 0, backOffice := true } (Memory.bytes 0 s.pantry.mem 0x10000 8) (Memory.bytes 0 s.pantry.mem 0x10008 4)
          = none
      ∧ (∀ i, i < 80 → s.deny .slate false .read (0x10000 + i) = none)) := by (repeat' apply And.intro) <;> decide +kernel
theorem test_restart : res (.residentRestart 0) (restartState .error) (fun t => (t.ctx 0).state = .ready && (t.ctx 0).restarts = 1
    && (t.ctx 0).ccwAddr = 0x10010) = true := by decide +kernel


/-! ### Witnesses and tests for the clauses that name a trap, a refusal or a wait -/

/-- ControlRegisters: register 13 is not listed and is no number for MTC; a value for st beyond OVE and DZE; a value of 2^32 for lc. -/
theorem wit_controlTraps : 12 < (13 : Reg).val ∧ 9 ≤ (13 : Reg).val ∧ ((cpuOf { regs := [(3, 8)] }).ctx 0 |>.g 3).toNat / 4 ≠ (cpu.ctx 0).st.toNat / 4
    ∧ 2 ^ 32 ≤ ((cpuOf { regs := [(3, 0x100000000)] }).ctx 0 |>.g 3).toNat := by decide
theorem test_mfc_unlisted : res (.mfc 0 ⟨6, 13, 0⟩) kernelFaults (fun t => (t.ctx 0).pc = 0x30040 && (t.ctx 0).super1 && (t.ctx 0).g 6 = 0) = true := by
  decide
theorem test_mtc_reserved : res (.mtc 0 ⟨1, 4, 0⟩) kernelFaults (fun t => (t.ctx 0).pc = 0x30040 && (t.ctx 0).super1) = true := by decide

/-- WordsSpellInstructions: ADD g6, g3, g4 by its word runs ADD; the row of an opcode with its functions. -/
theorem wit_word : hearthWord 0 wholeBlock (cpu.ctx 0).g (wordA 0x00 1 ⟨6, 3, 4⟩) = .row (.add 0 ⟨6, 3, 4⟩)
    ∧ (functionRows 0)[0]? ≠ none ∧ pcmdRows.length = 20 ∧ itemRows.length = 11 := by (repeat' apply And.intro) <;> decide
theorem test_word_runs : res (.xblk 0 (wordA 0x00 1 ⟨6, 3, 4⟩)) cpu (fun t => (t.ctx 0).g 6 = 12 && (t.ctx 0).pc = 4) = true := by decide

/-- WindowsYieldsAndLocks: context 1 waits for the lock that context 0 holds, and is the only one. -/
def lockPassed : State :=
  { cpuLocks with ctxs := cpuLocks.ctxs.take 1 ++ [(1, { state := .waiting, wait := .lock 5 .slate })] }
theorem wit_unlockWaiter : IssuesPlain lockPassed 0 ∧ (1, lockPassed.ctx 1) ∈ lockPassed.waiters (.lock 5 .slate)
    ∧ (∀ p ∈ lockPassed.waiters (.lock 5 .slate), p.1 ≠ 1 → waitsBefore (1, lockPassed.ctx 1) p = true)
    ∧ (lockPassed.ctx 0).locks.find? (fun k => k.num = 5 && k.world = .slate) = some ⟨5, .slate, false⟩ := by
  unfold IssuesPlain Issues; (repeat' apply And.intro) <;> decide
theorem test_unlock_waiter : res (.unlock 0 ⟨0, 3, 0⟩) lockPassed (fun t => (t.ctx 0).locks.isEmpty && (t.ctx 1).locks = [⟨5, .slate, false⟩]
    && (t.ctx 1).state = .ready) = true := by decide

/-- PortCommandsAct: a USB_IN_N on endpoint 0x81 is pending, and its packet of 3 bytes is open. -/
def abortState : State :=
  portOf 1 0x8107 { cmds := [{ code := 2, ep := 0x81, arg := 0, toRecv := 61 }]
                    rx := { words := [{ w := 0, head := true }, { w := 0x030201 }], openAt := some 0, openItems := 3, openEp := 0x81 } }
theorem wit_usbAbort : (∃ k ∈ (abortState.att 0).cmds, k.ep = abortState.cmdEp 0 7 0x81) ∧ NamesCmd abortState 0 6 7
    ∧ abortState.cmdRefusal 0 0 0x8107 = 0 ∧ (abortState.att 0).rx.openAt = some 0 ∧ (abortState.att 0).rx.gap = 0 := by
  unfold NamesCmd; (repeat' apply And.intro) <;> decide
theorem test_usbAbort : res (.usbAbort 0 ⟨7, 0, 6⟩) abortState (fun t => (t.ctx 0).g 7 = 0 && (t.att 0).error = 0x0D && (t.att 0).cmds.isEmpty
    && (t.att 0).rx.words.map (fun x => x.w) = [0x10040003, 0x030201] && (t.att 0).rx.visible = 2) = true := by decide

/-- DriveAndLeaveInstructions: a cause FAULT whose FAULT_N has been high for 10 ms, and one whose FAULT_N is low. -/
def faultyDrive (low : Bool) : State := { driveOf { causeFault := true, faultLow := low } 1 with qz := { now := 10000000 } }
theorem wit_faultClear : ((faultyDrive false).drive 0).causeFault = true
    ∧ (∀ i ∈ (faultyDrive false).gangOf 0, ((faultyDrive false).drive i).faultLow = false
        ∧ ((faultyDrive false).drive i).faultHighAt + 10000000 ≤ (faultyDrive false).now)
    ∧ ((faultyDrive false).drive 0).cfg.gang ≠ 1 ∧ ((faultyDrive true).drive 0).faultLow = true
    ∧ ∀ i ∈ 0 :: (faultyDrive false).gangOf 0, ((faultyDrive false).drive i).waiting = [] ∧ ((faultyDrive false).drive i).lease = none := by
  (repeat' apply And.intro) <;> decide
theorem test_faultClear : res (.faultClear 0 ⟨5, 0, 6⟩) (faultyDrive false) (fun t => (t.ctx 0).g 5 = 0 && !(t.drive 0).causeFault) = true
    ∧ res (.faultClear 0 ⟨5, 0, 6⟩) (faultyDrive true) (fun t => (t.ctx 0).g 5 = 2 && (t.drive 0).causeFault) = true := by
  constructor <;> decide

/-- A new request for 5 W of plant class 6, which Boiler can hold, and one for more than it can. -/
def leaveAsk (watts : Nat) : State :=
  let s := cpuOf { regs := [(1, 0x10000)] }
  { s with
    pantry := { s.pantry with mem := Memory.write 0 [] 0x10000 (leBytes 3 watts ++ leBytes 1 0 ++ leBytes 1 1 ++ leBytes 1 6 ++ leBytes 2 0 ++ leBytes 4 1) }
    boiler := { s.boiler with cfg := { s.boiler.cfg with plantCap := 100 } } }
theorem wit_leaveAskInstr : (let d := Memory.bytes 0 (leaveAsk 5).pantry.mem 0x10000 16
      fieldAt d 0 3 = 5 ∧ fieldAt d 3 1 = 0 ∧ fieldAt d 4 1 = 1 ∧ fieldAt d 5 1 = 6 ∧ fieldAt d 6 2 = 0 ∧ fieldAt d 8 4 = 1 ∧ fieldAt d 12 4 = 0)
    ∧ PantryRange (leaveAsk 5) 0 .read 0x10000 16 ∧ ((leaveAsk 5).ctx 0).leases.length < 4
    ∧ (leaveAsk 5).boiler.denied ((leaveAsk 5).leaveReq (.context 0) true 6 5 1 none ((leaveAsk 5).lstOf ((leaveAsk 5).ctx 0).deadline)) = false
    ∧ (leaveAsk 500).boiler.denied ((leaveAsk 500).leaveReq (.context 0) true 6 500 1 none ((leaveAsk 500).lstOf ((leaveAsk 500).ctx 0).deadline)) = true := by
  unfold PantryRange NoPartner; (repeat' apply And.intro) <;> decide
theorem test_leave_waits : res (.leaveInstr 0 ⟨5, 1, 0⟩) (leaveAsk 5) (fun t => (t.ctx 0).wait = .leave && t.boiler.waiting.length = 1 && (t.ctx 0).pc = 0) = true
    ∧ res (.leaveInstr 0 ⟨5, 1, 0⟩) (leaveAsk 500) (fun t => (t.ctx 0).g 5 = 0 && t.boiler.waiting.isEmpty && (t.ctx 0).pc = 4) = true := by
  constructor <;> decide

/-- WaitPlantAndLeaveCommands: PLANT on a drive that is not enabled. -/
def plantOff : State := { ccwState { code := 0xA, tgt := 1, flags := 2, param := 5 + 1000 * 65536 } {} with drives := [] }
theorem wit_plantOff : plantOff.driveEnabled 0 = false ∧ PostsAlone plantOff 0 := by unfold PostsAlone; (repeat' apply And.intro) <;> decide
theorem test_plantOff : res (.plant 0) plantOff (fun t => (t.ctx 0).state = .free && hostBytesOf t.hostMem 0x100A 6 = [3, 0, 0x0B, 0, 2, 0xFE]) = true := by
  decide

/-- ProgramsEndOnDeadlinesAndLateErrors: a PLANT that its drive answered in time is not missed when the command comes later. -/
def plantAnswered : State :=
  { ccwState {} { started := true, deadline := 5, answeredAt := 4, ccw := some { code := 0xA, tgt := 1 } } with
    qz := { now := 9 }, drives := [(0, { answers := [{ ctx := 0, result := 0, unit := 0 }] })] }
theorem wit_answered : plantAnswered.answered 0 = some 4 ∧ (4 : Nat) ≤ (plantAnswered.ctx 0).deadline ∧ (plantAnswered.ctx 0).deadline < plantAnswered.now := by
  decide
theorem test_answered : res (.deadlineMiss 0) plantAnswered (fun t => (t.ctx 0).state = .running) = true := by decide

/-- ContextsRunAndWake: a context that holds a lock waits for its leave. -/
theorem wit_lockHeld : (let s := hearthState [{ state := .waiting, wait := .leave, locks := [⟨5, .slate, false⟩], act := some ⟨1, 0, none, false, false, false, false⟩ }]
    (s.ctx 0).locks ≠ [] ∧ (s.ctx 0).wait.ofInstr = true ∧ (s.ctx 0).act.isSome = true) := by (repeat' apply And.intro) <;> decide

/-- ChannelsMove: a lost character, whose turn each command is, and a port that may start. -/
def lostState : State :=
  let s := wireState { mode := 2, rxIdle := 5 } {} {}
  { s with atts := s.atts ++ [(1, { resRx := 16 })] }
theorem wit_lost : lostState.wireOpen 0 = true ∧ lostState.rxFree 0 = 0 ∧ (lostState.att 0).rx.gap = 0 ∧ (lostState.port 0).cfg.eopEn = false := by
  decide +kernel
theorem test_lost : res (.rxItemArrival 0 (.char 7 false false false)) lostState (fun t => (t.att 0).rx.gap = 1 && (t.port 0).rxLost = 1) = true := by
  decide +kernel
theorem wit_turns : (let k : PortCmd := { code := 6, ep := 2, arg := 0 }
    (wireState { mode := 1 } { cmds := [k] } {}).cmdTurn 0 k = true)
    ∧ (let k : PortCmd := { code := 14, ep := 0, arg := 0, toRecv := 3 }
      (wireState { mode := 4 } { cmds := [k] } {}).cmdTurn 0 k = true)
    ∧ (let k : PortCmd := { code := 12, ep := 0, arg := 0, toRecv := 4 }
      (wireState { mode := 3 } { cmds := [k] } {}).takesByte 0 k = true)
    ∧ (wireState { mode := 1 } { desc := some (device 3) } {}).usbTurn 0 0x81 = true
    ∧ (wireState { mode := 2 } {} {}).mayStart (0 / 16) = true := by (repeat' apply And.intro) <;> decide

/-- The commands that a debug halt or the want of a supply stops, and a state of neither. -/
theorem wit_powered : State.reset.powered = true ∧ State.reset.qz.debugHalt = false
    ∧ ({ State.reset with pw := { railsOk := false } } : State).powered = false := by decide
theorem test_unpowered : res (.boilerMeasure 900 100) { State.reset with pw := { railsOk := false } } (fun t => t = { State.reset with pw := { railsOk := false } })
    = true := by decide +kernel
theorem test_halted : res (.grantEnd 72 1) { landState { grant := some (landReq 1) } with qz := { debugHalt := true } }
    (fun t => (t.landing 72).grant = some (landReq 1)) = true := by decide

/-- FaultsAreCollected: a sweep votes the two copies that agree, and the word of the port map then holds them. -/
theorem test_sweep : (let g := fun (v : W32) => ({ good := true, corrected := false, value := v } : CopyRead)
    res (.tripleSweep 0 (g 9) (g 2) (g 9)) (blank 6) (fun t => t.img.portMap = 9 && t.fc.buf.length = 1) = true
      ∧ res (.tripleSweep 0 (g 1) (g 2) (g 3)) (blank 6) (fun t => t.fc.graniteHalt && t.copiesOf 0 = [g 1, g 2, g 3]) = true) := by
  constructor <;> decide +kernel
/-- JtagInstructions and SmbusBlockReads: a code that no instruction has; a transaction that is no Block Read. -/
theorem test_bypassCode : isBypassCode 0x77 = true ∧ res (.bypass 0x77) { State.reset with jtag := { ir := 3 } } (fun t => t.jtag.ir = 0xFF) = true
    ∧ res (.smbHoldup .other) (blank 6) (fun t => t.out = [.smbusNak]) = true := by (repeat' apply And.intro) <;> decide

end Sys2Proof.Machine
end

namespace Sys2Proof.Machine

/-! ### A report and the contexts -/

theorem State.msix_setCtx (s : State) (c : Nat) (x : Ctx) (w : World) (v : Nat) : (s.setCtx c x).msix w v = (s.msix w v).setCtx c x := by
  unfold State.msix
  rw [apply_ite (State.setCtx · c x), apply_ite (State.setCtx · c x)]
  rfl

theorem State.msixRunning_setCtx (s : State) (c : Nat) (x : Ctx) (w : World) (v : Nat) :
    (s.setCtx c x).msixRunning w v = (s.msixRunning w v).setCtx c x := by
  unfold State.msixRunning
  rw [apply_ite (State.setCtx · c x), State.msix_setCtx]
  rfl

theorem State.enterFnView_setCtx (s : State) (c : Nat) (x : Ctx) (w : World) (m : W64) (o : Option Nat) (h : Bool) :
    (s.setCtx c x).enterFnView w m o h = ((s.enterFnView w m o h).1.setCtx c x, (s.enterFnView w m o h).2) := by
  by_cases hw : entersView m w = true
  · simp only [State.enterFnView, if_pos hw, apply_ite (State.setCtx · c x), ← State.msixRunning_setCtx]
    rfl
  · simp only [State.enterFnView, if_neg hw]

theorem State.enterViews_setCtx (s : State) (c : Nat) (x : Ctx) (m : W64) (o : Option Nat) (h : Bool) :
    (s.setCtx c x).enterViews m o h = (s.enterViews m o h).setCtx c x := by
  simp only [State.enterViews, State.enterFnView_setCtx]
  rfl

/-- A report neither reads nor changes a context. -/
theorem State.report_setCtx (s : State) (c : Nat) (x : Ctx) (m : W64) (o : Option Nat) :
    (s.setCtx c x).report m o = (s.report m o).setCtx c x := by
  unfold State.report
  rw [apply_ite (State.setCtx · c x), State.enterViews_setCtx]
  rfl

@[simp] theorem State.report_ctx (s : State) (m : W64) (o : Option Nat) (d : Nat) : (s.report m o).ctx d = s.ctx d := by
  simp only [State.ctx, State.report_ctxs]

@[simp] theorem State.report_hearths (s : State) (m : W64) (o : Option Nat) : (s.report m o).hearths = s.hearths := by
  have h := congrArg State.hearths (State.report_frame s m o); exact h

theorem State.report_modCtx (s : State) (c : Nat) (f : Ctx → Ctx) (m : W64) (o : Option Nat) :
    (s.modCtx c f).report m o = (s.report m o).modCtx c f := by
  simp only [State.modCtx, State.report_setCtx, State.report_ctx]

/-! ### The counters of the Hearth blocks -/

theorem Two.get_upd {α : Type} (t : Two α) (w : World) (f : α → α) : (t.upd w f).get w = f (t.get w) := by cases w <;> rfl

@[simp] theorem State.modHt_ctx (s : State) (w : World) (f : HearthCnt → HearthCnt) (d : Nat) : (s.modHt w f).ctx d = s.ctx d := rfl
@[simp] theorem State.modHt_fc (s : State) (w : World) (f : HearthCnt → HearthCnt) : (s.modHt w f).fc = s.fc := rfl
@[simp] theorem State.modHt_pantry (s : State) (w : World) (f : HearthCnt → HearthCnt) : (s.modHt w f).pantry = s.pantry := rfl
@[simp] theorem State.modHt_cellar (s : State) (w : World) (f : HearthCnt → HearthCnt) : (s.modHt w f).cellar = s.cellar := rfl
@[simp] theorem State.modHt_flash (s : State) (w : World) (f : HearthCnt → HearthCnt) : (s.modHt w f).flash = s.flash := rfl
@[simp] theorem State.modHt_hostMem (s : State) (w : World) (f : HearthCnt → HearthCnt) : (s.modHt w f).hostMem = s.hostMem := rfl
@[simp] theorem State.modHt_cnt (s : State) (w : World) (f : HearthCnt → HearthCnt) :
    (s.modHt w f).hearths.cnt.get w = f (s.hearths.cnt.get w) := Two.get_upd s.hearths.cnt w f

/-! ### Late bus errors (R187 to R189) -/

/-- What the late error of a store leaves in the context of the program that made it: the pending error, merged where one was pending, and the
CCW of the store that failed first. -/
def Ctx.withLate (b : BufStore) (reason : Nat) (x : Ctx) : Ctx :=
  { x with
    asyncErr := match x.asyncErr with
      | none => some { reason := reason, addr := b.addr }
      | some e => some { e with multi := true }
    asyncCcw := match x.asyncCcw with
      | none => some b.ccw
      | some a => some a }

theorem Ctx.asyncErr_withLate_of_pending {x : Ctx} {e : AsyncErr} (b : BufStore) (reason : Nat) (h : x.asyncErr = some e) :
    (x.withLate b reason).asyncErr = some { e with multi := true } := by simp only [Ctx.withLate, h]

/-- The late error of a store of the program still bound is reported, counted in the world of the store, and left pending in the context. -/
theorem State.lateError_eq (s : State) (c : Nat) (b : BufStore) (reason : Nat) (h : b.old = false) :
    s.lateError c b reason = ((s.report (s.hearthMsg c 0x06 b.addr b.world) (some c)).modHt b.world
      (fun k => { k with async := satInc32 k.async })).modCtx c (Ctx.withLate b reason) := by
  unfold State.lateError
  rw [h, if_neg Bool.false_ne_true]
  rfl

/-- The state with a context's buffered stores replaced. -/
def State.withStores (s : State) (c : Nat) (l : List BufStore) : State := s.modCtx c (fun x => { x with stores := l })

theorem State.withStores_ctx_self (s : State) (c : Nat) (l : List BufStore) : (s.withStores c l).ctx c = { s.ctx c with stores := l } := by
  rw [State.withStores, State.ctx_modCtx, if_pos rfl]
theorem State.withStores_ctx_other (s : State) {c d : Nat} (l : List BufStore) (h : d ≠ c) : (s.withStores c l).ctx d = s.ctx d := by
  rw [State.withStores, State.ctx_modCtx, if_neg h]
theorem State.withStores_hearthMsg (s : State) (c : Nat) (l : List BufStore) (kind addr : Nat) (w : World) :
    (s.withStores c l).hearthMsg c kind addr w = s.hearthMsg c kind addr w := by
  simp only [State.hearthMsg, State.withStores_ctx_self]

/-- A buffered store fails late for this reason: for 1 its page must be no longer valid (R187). -/
def State.FailsLate (s : State) (b : BufStore) (reason : Nat) : Prop :=
  reason = 2 ∨ reason = 3 ∨ (reason = 1 ∧ s.pageValid ((b.addr - windowBase) / pageBytes) = false)

/-- LATE_BUS_ERROR takes the oldest store away and finds its error, and the program of a context that is not suspended goes on. -/
theorem execLateBusError_eq {s : State} {c reason : Nat} {b : BufStore} {rest : List BufStore} (hst : (s.ctx c).stores = b :: rest)
    (hsus : (s.ctx c).state ≠ .suspended) (hpark : (s.ctx c).parked = false) (hf : s.FailsLate b reason) :
    exec (.lateBusError c reason) s = .next ((s.withStores c rest).lateError c b reason) := by
  have hgo : (reason = 0 || 3 < reason || (reason = 1 && !(!s.pageValid ((b.addr - windowBase) / pageBytes)))) = false := by
    rcases hf with rfl | rfl | ⟨rfl, hbad⟩
    · rfl
    · rfl
    · simp [hbad]
  show execLateBusError c reason s = _
  simp only [execLateBusError, hst, hgo, hsus, hpark, State.withStores]
  rfl

/-- Settles O58: the command takes the oldest store away and finds its late error, whose record, count and merge into the pending error are those
of lateError_eq; taking the store away changes nothing that the record reads. -/
theorem furtherLateBusErrorsSetMulti : Obligations.FurtherLateBusErrorsSetMulti := by
  unfold Obligations.FurtherLateBusErrorsSetMulti
  intro s c reason b rest e hst hsus hpark hold herr hf
  refine ⟨_, execLateBusError_eq hst hsus hpark hf, ?_⟩
  rw [State.lateError_eq _ c b reason hold, State.withStores_hearthMsg]
  refine ⟨?multi, ?count, ?record, ?others, ?bytes⟩
  case multi =>
    rw [State.ctx_modCtx, if_pos rfl]
    exact Ctx.asyncErr_withLate_of_pending b reason (by simp [State.withStores_ctx_self, herr])
  case count => simp [State.withStores]
  case record => simp [State.withStores, State.report_modCtx]
  case others =>
    intro d hd
    rw [State.ctx_modCtx, if_neg hd]
    simp [State.withStores_ctx_other s rest hd]
  case bytes => simp [SameBytes, State.withStores]

end Sys2Proof.Machine

namespace Sys2Proof.Machine

/-! ### Tables and byte lists -/

/-- What a table answers at a key, if it is not the default, is listed there. -/
theorem Tbl.mem_of_get_ne {α : Type} {d : α} {t : Tbl α} {k : Nat} (h : Tbl.get d t k ≠ d) : (k, Tbl.get d t k) ∈ t := by
  induction t with
  | nil => exact absurd rfl h
  | cons p t ih =>
    rw [Tbl.get_cons] at h ⊢
    by_cases hk : k = p.1
    · rw [if_pos hk, hk]
      exact List.mem_cons_self
    · rw [if_neg hk] at h ⊢
      exact List.mem_cons_of_mem _ (ih h)

/-- A test that what a table answers at a key passes, and the default does not, some pair of the table passes. -/
theorem Tbl.any_of_get {α : Type} {d : α} {t : Tbl α} {k : Nat} (p : Nat × α → Bool) (hd : p (k, d) = false) (h : p (k, Tbl.get d t k) = true) :
    t.any p = true := by
  have hne : Tbl.get d t k ≠ d := by
    intro heq
    rw [heq, hd] at h
    exact Bool.false_ne_true h
  exact List.any_eq_true.mpr ⟨_, Tbl.mem_of_get_ne hne, h⟩

@[simp] theorem leBytes_length (n v : Nat) : (leBytes n v).length = n := by
  induction n generalizing v with
  | zero => rfl
  | succ n ih => rw [leBytes, List.length_cons, ih]

theorem hostBytesOf_take (m : Memory) (a : Nat) {k n : Nat} (h : k ≤ n) : (hostBytesOf m a n).take k = hostBytesOf m a k := by
  rw [hostBytesOf, ← List.map_take, List.take_range, Nat.min_eq_left h, hostBytesOf]

/-! ### An entry in a completion queue that has room (R264 to R267) -/

@[simp] theorem Compl.bytes_length (e : Compl) (head : Nat) (phase : Bool) : (e.bytes head phase).length = 32 := by simp [Compl.bytes]

@[simp] theorem State.msix_qm (s : State) (w : World) (v : Nat) : (s.msix w v).qm = s.qm := by
  have h := congrArg State.qm (State.msix_frame s w v); exact h
@[simp] theorem State.msix_hostMem (s : State) (w : World) (v : Nat) : (s.msix w v).hostMem = s.hostMem := by
  have h := congrArg State.hostMem (State.msix_frame s w v); exact h
@[simp] theorem State.qmEvent_qm (s : State) (w : World) (b : Nat) : (s.qmEvent w b).qm = s.qm := by
  have h := congrArg State.qm (State.qmEvent_frame s w b); exact h
@[simp] theorem State.qmEvent_hostMem (s : State) (w : World) (b : Nat) : (s.qmEvent w b).hostMem = s.hostMem := by
  have h := congrArg State.hostMem (State.qmEvent_frame s w b); exact h

/-- An update that keeps a function's accepted features keeps those of both functions. -/
theorem State.modFn_accepted (s : State) (w u : World) {f : Func → Func} (hf : ∀ x, (f x).accepted = x.accepted) :
    ((s.modFn w f).fn u).accepted = (s.fn u).accepted := by
  rw [State.fn_modFn]
  split
  · next h => rw [hf, h]
  · rfl

@[simp] theorem State.msix_accepted (s : State) (w : World) (v : Nat) (u : World) : ((s.msix w v).fn u).accepted = (s.fn u).accepted := by
  unfold State.msix
  split
  · split
    · exact State.modFn_accepted s w u fun _ => rfl
    · rfl
  · rfl

@[simp] theorem State.qmEvent_accepted (s : State) (w : World) (b : Nat) (u : World) :
    ((s.qmEvent w b).fn u).accepted = (s.fn u).accepted := by
  simp only [State.qmEvent]
  split
  · exact State.modFn_accepted s w u fun _ => rfl
  · rw [State.msix_accepted]
    exact State.modFn_accepted s w u fun _ => rfl

/-- The two ends of an entry's writing: its message is sent at once, or left to the delay of moderation (R267). -/
theorem State.cqRaw_cases (s : State) (w : World) (n : Nat) (e : Compl) :
    let q := s.cq w n
    let t := (s.hostWrite (q.base + 32 * q.tail.idx) (e.bytes (s.sq w e.sq).head.word (!q.tail.wrap))).modCq w n (fun q => { q with
      tail := q.tail.add q.depth 1
      firstAt := if q.unannounced = 0 then s.now else q.firstAt
      unannounced := q.unannounced + 1 })
    s.cqRaw w n e = t ∨ s.cqRaw w n e = t.cqAnnounce w n := by
  intro q t
  by_cases h : ((t.cq w n).intDelayUs = 0 || (t.cq w n).intCount ≤ (t.cq w n).unannounced) = true
  · exact .inr (if_pos h)
  · exact .inl (if_neg h)

@[simp] theorem State.hostWrite_cq (s : State) (a : Nat) (l : List Byte) (w : World) (n : Nat) : (s.hostWrite a l).cq w n = s.cq w n := rfl
@[simp] theorem State.hostWrite_sq (s : State) (a : Nat) (l : List Byte) (w : World) (n : Nat) : (s.hostWrite a l).sq w n = s.sq w n := rfl
@[simp] theorem State.msix_cq (s : State) (w : World) (v : Nat) (u : World) (n : Nat) : (s.msix w v).cq u n = s.cq u n := by
  simp only [State.cq, State.msix_qm]
@[simp] theorem State.msix_sq (s : State) (w : World) (v : Nat) (u : World) (n : Nat) : (s.msix w v).sq u n = s.sq u n := by
  simp only [State.sq, State.msix_qm]

theorem State.cqRaw_hostMem (s : State) (w : World) (n : Nat) (e : Compl) :
    (s.cqRaw w n e).hostMem
      = hostWriteOf s.hostMem ((s.cq w n).base + 32 * (s.cq w n).tail.idx) (e.bytes (s.sq w e.sq).head.word (!(s.cq w n).tail.wrap)) := by
  rcases State.cqRaw_cases s w n e with h | h <;> simp [h, State.cqAnnounce, State.hostWrite]

theorem State.cqRaw_tail (s : State) (w : World) (n : Nat) (e : Compl) :
    ((s.cqRaw w n e).cq w n).tail = (s.cq w n).tail.add (s.cq w n).depth 1 := by
  rcases State.cqRaw_cases s w n e with h | h <;> simp [h, State.cqAnnounce, State.cq_modCq]

theorem State.cqRaw_cq_ne (s : State) (w : World) {n m : Nat} (e : Compl) (hm : m ≠ n) : (s.cqRaw w n e).cq w m = s.cq w m := by
  rcases State.cqRaw_cases s w n e with h | h <;> simp [h, State.cqAnnounce, State.cq_modCq, hm]

@[simp] theorem State.cqRaw_sq (s : State) (w : World) (n : Nat) (e : Compl) (u : World) (m : Nat) : (s.cqRaw w n e).sq u m = s.sq u m := by
  rcases State.cqRaw_cases s w n e with h | h <;> simp [h, State.cqAnnounce]

@[simp] theorem State.cqRaw_accepted (s : State) (w : World) (n : Nat) (e : Compl) (u : World) :
    ((s.cqRaw w n e).fn u).accepted = (s.fn u).accepted := by
  rcases State.cqRaw_cases s w n e with h | h <;> rw [h]
  · rfl
  · rw [State.cqAnnounce, State.msix_accepted]
    rfl

/-- Where EVENTS is not accepted, placing an entry writes the entry and at most raises CQ_FULL (R271). -/
theorem State.cqPut_cases (s : State) (w : World) (n : Nat) (e : Compl) (hev : bitAt (s.fn w).accepted 8 = false) :
    s.cqPut w n e = s.cqRaw w n e ∨ s.cqPut w n e = (s.cqRaw w n e).qmEvent w 0 := by
  unfold State.cqPut
  dsimp only
  split
  · exact .inr (by simp [State.qmEventEntry, State.eventEntry, hev])
  · exact .inl rfl

theorem State.cqPut_qm (s : State) (w : World) (n : Nat) (e : Compl) (hev : bitAt (s.fn w).accepted 8 = false) :
    (s.cqPut w n e).qm = (s.cqRaw w n e).qm := by
  rcases State.cqPut_cases s w n e hev with h | h <;> simp [h]

theorem State.cqPut_hostMem (s : State) (w : World) (n : Nat) (e : Compl) (hev : bitAt (s.fn w).accepted 8 = false) :
    (s.cqPut w n e).hostMem = (s.cqRaw w n e).hostMem := by
  rcases State.cqPut_cases s w n e hev with h | h <;> simp [h]

/-- A status due to a queue that is open, with none before it that waits, is placed in it (R268). -/
theorem State.complete_of_open {s : State} {w : World} {n : Nat} (e : Compl) (ho : s.cqOpen w n = true) (hw : s.cqWaits w n = false) :
    s.complete w n e = (true, s.cqPut w n e) := by
  have hact : (s.cq w n).state = .active := by
    simp only [State.cqOpen, Bool.and_eq_true, decide_eq_true_eq] at ho
    exact ho.1.1
  simp [State.complete, hact, ho, hw]

/-! ### The answer to an administrative command (R272, R273) -/

/-- The entry with ASTATUS and RESULT0 that answers the command of a tag. -/
def adminCompl (tag astatus result : Nat) : Compl :=
  { body := leBytes 8 result ++ leBytes 2 0 ++ leBytes 1 astatus ++ leBytes 5 0, tag := tag, kind := .admin, kindData := 0 }

theorem State.adminDone_of_open {s : State} {w : World} (tag astatus result : Nat) (ho : s.cqOpen w 0 = true) (hw : s.cqWaits w 0 = false) :
    s.adminDone w tag astatus result 0 = s.cqPut w 0 (adminCompl tag astatus result) := by
  rw [State.adminDone, State.complete_of_open _ ho hw]
  rfl

theorem adminCompl_bytes_take (tag astatus result head : Nat) (phase : Bool) :
    ((adminCompl tag astatus result).bytes head phase).take 20
      = leBytes 8 result ++ leBytes 2 0 ++ leBytes 1 astatus ++ leBytes 5 0 ++ leBytes 2 0 ++ leBytes 2 tag := rfl

theorem State.adminRun_of_entry {s : State} {w : World} {op : Nat} {e : Entry} (k : List Byte → State → AdminOut)
    (h : s.adminEntry w op = some e) :
    s.adminRun w op k = (k e.data (s.entryTaken w 0 e)).next.adminDone w (fieldAt e.data 2 2) (k e.data (s.entryTaken w 0 e)).status
      (k e.data (s.entryTaken w 0 e)).result 0 := by
  simp only [State.adminRun, h]

/-! ### The entry taken from its queue (R252) -/

@[simp] theorem State.entryTaken_cq (s : State) (w : World) (q : Nat) (e : Entry) (u : World) (n : Nat) :
    (s.entryTaken w q e).cq u n = s.cq u n := State.cq_modSq ..
theorem State.entryTaken_sq_ne (s : State) (w : World) {q m : Nat} (e : Entry) (h : m ≠ q) : (s.entryTaken w q e).sq w m = s.sq w m := by
  rw [State.entryTaken, State.sq_modSq, if_neg fun hc => h hc.2]
theorem State.entryTaken_sq_self (s : State) (w : World) (q : Nat) (e : Entry) : (s.entryTaken w q e).sq w q = { s.sq w q with
    entries := (s.sq w q).entries.drop 1, head := e.first.add (s.sq w q).depth e.ringSlots, held := false, bindWaited := false, clusterWait := false } := by
  rw [State.entryTaken, State.sq_modSq, if_pos ⟨rfl, rfl⟩]

theorem AdminFront.cqOpen_entryTaken {s : State} {w : World} {op : Nat} {e : Entry} (h : AdminFront s w op e) :
    (s.entryTaken w 0 e).cqOpen w 0 = true := by
  obtain ⟨-, hact, hroom, hstore, -, -⟩ := h
  have hstore' : (s.entryTaken w 0 e).storeOf w 0 = [] := hstore
  simp [State.cqOpen, hact, hroom, hstore']

/-- A command that is refused is answered with the status of the refusal and no result, and no other queue of its world changes. -/
theorem AdminFront.answers_of_refuse {s : State} {w : World} {op : Nat} {e : Entry} {k : List Byte → State → AdminOut} {status : Nat}
    (h : AdminFront s w op e) (hk : k e.data (s.entryTaken w 0 e) = refuse (s.entryTaken w 0 e) status) :
    AdminAnswers s (s.adminRun w op k) w e status 0
      ∧ ∀ m, m ≠ 0 → (s.adminRun w op k).cq w m = s.cq w m ∧ (s.adminRun w op k).sq w m = s.sq w m := by
  have hopen := h.cqOpen_entryTaken
  obtain ⟨hentry, -, -, -, hwaits, hev⟩ := h
  let s1 := s.entryTaken w 0 e
  let c := adminCompl (fieldAt e.data 2 2) status 0
  have hrun : s.adminRun w op k = s1.cqPut w 0 c := by
    rw [State.adminRun_of_entry k hentry, hk]
    exact State.adminDone_of_open _ status 0 hopen hwaits
  have hqm : (s1.cqPut w 0 c).qm = (s1.cqRaw w 0 c).qm := State.cqPut_qm s1 w 0 c hev
  have hcq (m : Nat) : (s1.cqPut w 0 c).cq w m = (s1.cqRaw w 0 c).cq w m := by simp only [State.cq, hqm]
  have hsq (m : Nat) : (s1.cqPut w 0 c).sq w m = s1.sq w m := by
    rw [← State.cqRaw_sq s1 w 0 c]
    simp only [State.sq, hqm]
  have hmem := (State.cqPut_hostMem s1 w 0 c hev).trans (State.cqRaw_hostMem s1 w 0 c)
  rw [State.entryTaken_cq] at hmem
  rw [hrun]
  refine ⟨⟨?entries, ?head, ?tail, ?bytes, ?others⟩, fun m hm => ⟨?cq, ?sq⟩⟩
  case entries => rw [hsq, State.entryTaken_sq_self]
  case head => rw [hsq, State.entryTaken_sq_self]
  case tail => rw [hcq, State.cqRaw_tail, State.entryTaken_cq]
  case bytes =>
    rw [hmem, ← hostBytesOf_take _ _ (by decide : 20 ≤ 32), ← Compl.bytes_length c, hostBytesOf_write]
    exact adminCompl_bytes_take ..
  case others =>
    intro a ha
    rw [hmem]
    exact hostByteOf_write_of_out _ _ _ (by rwa [Compl.bytes_length])
  case cq => rw [hcq, State.cqRaw_cq_ne _ _ _ hm, State.entryTaken_cq]
  case sq => rw [hsq, State.entryTaken_sq_ne _ _ _ hm]

/-! ### The uses of a completion queue (R269) -/

theorem State.cqBusy_of_sq {s : State} {w : World} {n m : Nat} (hst : (s.sq w m).state ≠ .none) (hcq : (s.sq w m).cq = n) :
    s.cqBusy w n = true := by
  have h : (s.qm.get w).sqs.any (fun p => p.2.state ≠ SqState.none && p.2.cq = n) = true :=
    Tbl.any_of_get (d := {}) (k := m) _ rfl (by simpa using ⟨hst, hcq⟩)
  simp only [State.cqBusy, h, Bool.true_or]

theorem State.cqBusy_of_ctx {s : State} {w : World} {n c : Nat} (hw : s.ctxWorld c = some w) (hst : (s.ctx c).state ≠ .free)
    (hcq : (s.ctx c).cq = n) (horph : (s.ctx c).orphaned = false) (hres : s.isResident c = false) (hprobe : s.isProbe c = false) :
    s.cqBusy w n = true := by
  have h : s.ctxs.any (fun p => s.ctxWorld p.1 = some w && p.2.state ≠ CtxState.free && p.2.cq = n && !p.2.orphaned
      && !s.isResident p.1 && !s.isProbe p.1) = true :=
    Tbl.any_of_get (d := {}) (k := c) _ (by simp) (by simpa [hw, hres, hprobe] using ⟨⟨hst, hcq⟩, horph⟩)
  simp only [State.cqBusy, h, Bool.true_or, Bool.or_true]

theorem State.cqBusy_of_store {s : State} {w : World} {n : Nat} (h : s.storeOf w n ≠ []) : s.cqBusy w n = true := by
  simp [State.cqBusy, h]

theorem deleteCq_of_busy {s : State} {w : World} {d : List Byte} {n : Nat} (hrsv : zeroRuns d [(8, 12), (22, 42)] = true)
    (hn : fieldAt d 20 2 = n) (h0 : n ≠ 0) (hshare : n < (s.wcfg w).cqShare) (hst : (s.cq w n).state ≠ .none) (hbusy : s.cqBusy w n = true) :
    deleteCq w d s = refuse s asBusy := by
  simp only [deleteCq, hrsv, hn, h0, Nat.not_le.mpr hshare, hst, hbusy]
  rfl

/-- Settles O57: each of the three uses of the queue still stands once the command has been taken, so DELETE_CQ is refused. -/
theorem deleteCqReturnsBusy : Obligations.DeleteCqReturnsBusy := by
  unfold Obligations.DeleteCqReturnsBusy
  intro s w e n hfront hrsv hn h0 hshare hst huse
  have hbusy : (s.entryTaken w 0 e).cqBusy w n = true := by
    rcases huse with ⟨m, hm, hmst, hmcq⟩ | ⟨c, hw, hcst, hccq, horph, hres, hprobe⟩ | hstore
    · rw [← State.entryTaken_sq_ne s w e hm] at hmst hmcq
      exact State.cqBusy_of_sq hmst hmcq
    · exact State.cqBusy_of_ctx (s := s.entryTaken w 0 e) hw hcst hccq horph hres hprobe
    · exact State.cqBusy_of_store (s := s.entryTaken w 0 e) hstore
  have hrefuse : deleteCq w e.data (s.entryTaken w 0 e) = refuse (s.entryTaken w 0 e) asBusy :=
    deleteCq_of_busy hrsv hn h0 hshare (by rwa [State.entryTaken_cq]) hbusy
  exact ⟨_, rfl, hfront.answers_of_refuse hrefuse⟩

end Sys2Proof.Machine

namespace Sys2Proof.Machine

/-! ### The bursts of a read, and their checks (R344 to R346) -/

/-- A read of at least one byte that overlaps a burst touches it. -/
theorem mem_burstsOf {a n b : Nat} (hn : 0 < n) (hlo : a < 32 * b + 32) (hhi : 32 * b < a + n) : b ∈ burstsOf a n := by
  rw [burstsOf, if_neg hn.ne']
  exact List.mem_map.mpr ⟨b - a / 32, List.mem_range.mpr (by omega), by omega⟩

theorem State.pnJudge_of_poison {s : State} {b : Nat} (h : b ∈ s.pantry.poison) : s.pnJudge b = .uncorrectable := by
  rw [State.pnJudge, if_pos (List.contains_iff_mem.mpr h)]

/-- One step of the check of a read: whether all bursts so far are good, and the counts they leave, after one burst more. -/
def State.pnCheckBurst (r : Bool × State) (b : Nat) : Bool × State :=
  match r.2.pnJudge b with
  | .uncorrectable => (false, r.2.pnUncorrectable b)
  | .corrected => (r.1, r.2.pnCorrected b)
  | .clean => r

theorem State.pnCheck_eq_foldl (s : State) (a n : Nat) : s.pnCheck a n = (burstsOf a n).foldl State.pnCheckBurst (true, s) := rfl

@[simp] theorem State.pnCheckBurst_poison (r : Bool × State) (b : Nat) : (State.pnCheckBurst r b).2.pantry.poison = r.2.pantry.poison := by
  unfold State.pnCheckBurst
  split
  · exact State.pnUncorrectable_poison r.2 b
  · exact State.pnCorrected_poison r.2 b
  · rfl

theorem State.pnCheckBurst_fails_of_poison {r : Bool × State} {b : Nat} (h : b ∈ r.2.pantry.poison) : (State.pnCheckBurst r b).1 = false := by
  rw [State.pnCheckBurst, State.pnJudge_of_poison h]

theorem State.pnCheckBurst_fails_of_failed {r : Bool × State} (b : Nat) (h : r.1 = false) : (State.pnCheckBurst r b).1 = false := by
  unfold State.pnCheckBurst
  split
  · rfl
  · exact h
  · exact h

/-- A check that has failed, or has a poisoned burst still before it, ends failed: no step takes a burst out of the poisoned ones, and none makes
a failed check good. -/
theorem State.foldl_pnCheckBurst_fails {l : List Nat} {r : Bool × State} {b : Nat} (hp : b ∈ r.2.pantry.poison) (h : r.1 = false ∨ b ∈ l) :
    (l.foldl State.pnCheckBurst r).1 = false := by
  induction l generalizing r with
  | nil => exact h.resolve_right List.not_mem_nil
  | cons c l ih =>
    refine ih (by simpa using hp) ?_
    rcases h with hfailed | hmem
    · exact .inl (State.pnCheckBurst_fails_of_failed c hfailed)
    · rcases List.mem_cons.mp hmem with rfl | hrest
      · exact .inl (State.pnCheckBurst_fails_of_poison hp)
      · exact .inr hrest

/-- No read that touches a poisoned burst is good (R345, R346). -/
theorem State.pnCheck_fails_of_poison {s : State} {a n b : Nat} (hp : b ∈ s.pantry.poison) (hb : b ∈ burstsOf a n) : (s.pnCheck a n).1 = false := by
  rw [State.pnCheck_eq_foldl]
  exact State.foldl_pnCheckBurst_fails hp (.inr hb)

/-! ### What a write of Pantry leaves of poison and marks (R346) -/

theorem State.pnBytes_pnWrite (s : State) (a : Nat) (d : List Byte) : (s.pnWrite a d).pnBytes a d.length = d := by
  rw [State.pnBytes, State.pnWrite_mem, Memory.bytes_write]

/-- A write leaves poisoned just the poisoned bursts that it does not write whole. -/
theorem State.mem_pnWrite_poison {s : State} {a b : Nat} {d : List Byte} :
    b ∈ (s.pnWrite a d).pantry.poison ↔ b ∈ s.pantry.poison ∧ ¬(a ≤ 32 * b ∧ 32 * b + 32 ≤ a + d.length) := by
  simp only [State.pnWrite, State.modPn_pantry, List.mem_filter, Bool.not_eq_true', ← Bool.not_eq_true, Bool.and_eq_true, decide_eq_true_eq]

/-- No place stays in error in a burst written whole. -/
theorem State.pnWrite_errs_of_whole (s : State) {a b : Nat} {d : List Byte} (h : a ≤ 32 * b ∧ 32 * b + 32 ≤ a + d.length) :
    Tbl.get [] (s.pnWrite a d).pantry.errs b = [] := by
  by_contra hne
  have hmem := Tbl.mem_of_get_ne hne
  simp [State.pnWrite, h] at hmem

/-- Settles O56: the bytes read back as stored; of the poisoned bursts a write clears just those it writes whole, and their marks with them; and the
check of a read fails at a burst that is still poisoned. -/
theorem poisonedBurstsStayPoisoned : Obligations.PoisonedBurstsStayPoisoned := by
  unfold Obligations.PoisonedBurstsStayPoisoned
  intro s a b d hp
  refine ⟨State.pnBytes_pnWrite s a d, fun hwhole => ?whole, fun hpart => ?part⟩
  case whole => exact ⟨fun hb => (State.mem_pnWrite_poison.mp hb).2 hwhole, State.pnWrite_errs_of_whole s hwhole⟩
  case part =>
    have hb : b ∈ (s.pnWrite a d).pantry.poison := State.mem_pnWrite_poison.mpr ⟨hp, hpart⟩
    refine ⟨hb, fun x n hn hlo hhi => ⟨State.pnCheck_fails_of_poison hb (mem_burstsOf hn hlo hhi), ?_⟩⟩
    rwa [State.pnCheck_poison]

end Sys2Proof.Machine

namespace Sys2Proof.Machine

/-! ### Which fuses a command changes (R494, R496, R497, R505)

A step changes a fuse in six commands alone: FUSE_PROG programs the field that it names, KEY_REVOKE blows REVOKE, and LC_ADVANCE, LC_RETIRE,
AUDIT_RECORD_WRITE and SAVE_COMMIT blow LIFECYCLE. Every other function of the model hands the fuses on. That is stated once for each function,
in the order of the model's files, so that the lemma of a function follows from those of the functions that it calls. `simp` is given
`-implicitDefEqProofs` where a side goal (a loop's body, a continuation) is closed by a lemma about an update of the state, which holds by `rfl`. -/

/-- No step that answers with this result has changed a fuse. -/
def KeepsFuses (s : State) (r : Result) : Prop := ∀ t, r = .next t → t.fuses = s.fuses

@[simp] theorem keepsFuses_next {s t : State} : KeepsFuses s (.next t) ↔ t.fuses = s.fuses :=
  ⟨fun h => h t rfl, fun h u hu => by cases hu; exact h⟩

@[simp] theorem keepsFuses_ite {s : State} {p : Prop} [Decidable p] {a b : Result} :
    KeepsFuses s (if p then a else b) ↔ (p → KeepsFuses s a) ∧ (¬p → KeepsFuses s b) := by
  split <;> simp [*]

/-! Branches and loops. -/

@[simp] theorem fuses_ite (p : Prop) [Decidable p] (s t : State) : (if p then s else t).fuses = if p then s.fuses else t.fuses :=
  apply_ite State.fuses p s t

@[simp] theorem snd_ite {α β : Type} (p : Prop) [Decidable p] (x y : α × β) : (if p then x else y).2 = if p then x.2 else y.2 :=
  apply_ite Prod.snd p x y

@[simp] theorem foldl_fuses {α : Type} (l : List α) (s : State) (f : State → α → State) (h : ∀ t x, (f t x).fuses = t.fuses) :
    (l.foldl f s).fuses = s.fuses := by
  induction l generalizing s with
  | nil => rfl
  | cons x l ih => exact (ih (f s x)).trans (h s x)

@[simp] theorem foldl_snd_fuses {α β : Type} (l : List α) (r : β × State) (f : β × State → α → β × State)
    (h : ∀ r x, (f r x).2.fuses = r.2.fuses) : (l.foldl f r).2.fuses = r.2.fuses := by
  induction l generalizing r with
  | nil => rfl
  | cons x l ih => exact (ih (f r x)).trans (h r x)

/-- The state of a result that a match has taken apart has the fuses of that result. -/
theorem fuses_of_pair {α : Type} {r : α × State} {a : α} {t : State} (h : r = (a, t)) : t.fuses = r.2.fuses := by rw [h]
theorem fuses_of_triple {α β : Type} {r : α × β × State} {a : α} {b : β} {t : State} (h : r = (a, b, t)) : t.fuses = r.2.2.fuses := by
  rw [h]

/-- Where a CCW begins, or has ended at its start, the fuses are those given. -/
def Begun.FusesAre (d : Fuses) : Begun → Prop
  | .no => True
  | .done t | .go _ _ t => t.fuses = d

@[simp] theorem Begun.fusesAre_no (d : Fuses) : Begun.no.FusesAre d := trivial
@[simp] theorem Begun.fusesAre_done (d : Fuses) (t : State) : (Begun.done t).FusesAre d ↔ t.fuses = d := Iff.rfl
@[simp] theorem Begun.fusesAre_go (d : Fuses) (y : Ccw) (p : Nat) (t : State) : (Begun.go y p t).FusesAre d ↔ t.fuses = d := Iff.rfl
@[simp] theorem Begun.fusesAre_ite (d : Fuses) (p : Prop) [Decidable p] (x y : Begun) :
    (if p then x else y).FusesAre d ↔ (p → x.FusesAre d) ∧ (¬p → y.FusesAre d) := by
  split <;> simp [*]

/-- The state that an instruction leaves, however it ends. -/
def IStep.state : IStep → State
  | .exc _ s | .wait _ s | .retire _ s | .ended s => s

@[simp] theorem IStep.state_exc (e : Exc) (s : State) : (IStep.exc e s).state = s := (rfl)
@[simp] theorem IStep.state_wait (w : Wait) (s : State) : (IStep.wait w s).state = s := (rfl)
@[simp] theorem IStep.state_retire (r : Ret) (s : State) : (IStep.retire r s).state = s := (rfl)
@[simp] theorem IStep.state_ended (s : State) : (IStep.ended s).state = s := (rfl)
@[simp] theorem IStep.state_ite (p : Prop) [Decidable p] (x y : IStep) : (if p then x else y).state = if p then x.state else y.state :=
  apply_ite IStep.state p x y

@[simp] theorem AdminOut.next_ite (p : Prop) [Decidable p] (x y : AdminOut) : (if p then x else y).next = if p then x.next else y.next :=
  apply_ite AdminOut.next p x y

/-- The fields that FUSE_PROG programs: all but REVOKE and LIFECYCLE. -/
def Fuses.programmed (f : Fuses) : Fuses := { f with revoke := 0, lifecycle := 0 }

/-- No step that answers with this result has changed a field that FUSE_PROG programs. -/
def KeepsProgrammed (s : State) (r : Result) : Prop := ∀ t, r = .next t → t.fuses.programmed = s.fuses.programmed

@[simp] theorem keepsProgrammed_next {s t : State} : KeepsProgrammed s (.next t) ↔ t.fuses.programmed = s.fuses.programmed :=
  ⟨fun h => h t rfl, fun h u hu => by cases hu; exact h⟩

theorem KeepsFuses.programmed {s : State} {r : Result} (h : KeepsFuses s r) : KeepsProgrammed s r :=
  fun t ht => congrArg Fuses.programmed (h t ht)

/-! ### Statistics, messages and readiness (Ops.lean) -/

@[simp] theorem State.takeFree_fuses (s : State) : s.takeFree.2.fuses = s.fuses := by simp [State.takeFree]

@[simp] theorem State.countWorld_fuses (s : State) (w : World) (i n : Nat) : (s.countWorld w i n).fuses = s.fuses :=
  (congrArg State.fuses (State.countWorld_frame s w i n) :)

@[simp] theorem State.countLane_fuses (s : State) (w : World) (lane i n : Nat) : (s.countLane w lane i n).fuses = s.fuses :=
  (congrArg State.fuses (State.countLane_frame s w lane i n) :)

@[simp] theorem State.countPort_fuses (s : State) (port i n : Nat) : (s.countPort port i n).fuses = s.fuses :=
  (congrArg State.fuses (State.countPort_frame s port i n) :)

@[simp] theorem State.countBoth_fuses (s : State) (w : World) (lane iw il : Nat) : (s.countBoth w lane iw il).fuses = s.fuses :=
  (congrArg State.fuses (State.countBoth_frame s w lane iw il) :)

@[simp] theorem State.msix_fuses (s : State) (w : World) (vec : Nat) : (s.msix w vec).fuses = s.fuses :=
  (congrArg State.fuses (State.msix_frame s w vec) :)

@[simp] theorem State.msixRunning_fuses (s : State) (w : World) (vec : Nat) : (s.msixRunning w vec).fuses = s.fuses :=
  (congrArg State.fuses (State.msixRunning_frame s w vec) :)

@[simp] theorem State.enterViews_fuses (s : State) (m : W64) (ctx : Option Nat) (history : Bool) : (s.enterViews m ctx history).fuses = s.fuses :=
  (congrArg State.fuses (State.enterViews_frame s m ctx history) :)

@[simp] theorem State.takeReport_fuses (s : State) : s.takeReport.fuses = s.fuses := (congrArg State.fuses (State.takeReport_frame s) :)

@[simp] theorem State.blEvent1_fuses (s : State) (w : World) (bit : Nat) : (s.blEvent1 w bit).fuses = s.fuses :=
  (congrArg State.fuses (State.blEvent1_frame s w bit) :)

@[simp] theorem State.blEvent_fuses (s : State) (bit : Nat) : (s.blEvent bit).fuses = s.fuses := (congrArg State.fuses (State.blEvent_frame s bit) :)

@[simp] theorem State.qmEvent_fuses (s : State) (w : World) (bit : Nat) : (s.qmEvent w bit).fuses = s.fuses :=
  (congrArg State.fuses (State.qmEvent_frame s w bit) :)

@[simp] theorem State.dbError_fuses (s : State) (w : World) (off : Nat) : (s.dbError w off).fuses = s.fuses :=
  (congrArg State.fuses (State.dbError_frame s w off) :)

@[simp] theorem State.whenPowered_keepsFuses {s t : State} (h : t.fuses = s.fuses) : KeepsFuses s (s.whenPowered t) := by
  simp [State.whenPowered, h]

@[simp] theorem State.accessFault_fuses (s : State) (w : World) (off : Nat) : (s.accessFault w off).fuses = s.fuses :=
  (congrArg State.fuses (State.accessFault_frame s w off) :)

@[simp] theorem State.discardFault_fuses (s : State) (w : World) (src off : Nat) : (s.discardFault w src off).fuses = s.fuses :=
  (congrArg State.fuses (State.discardFault_frame s w src off) :)

@[simp] theorem State.hostItem_fuses (s : State) (fn : World) (off : Nat) (item : Option World) (k : State → State)
    (h : ∀ t, (k t).fuses = t.fuses) : (s.hostItem fn off item k).fuses = s.fuses := by
  unfold State.hostItem
  split
  · split <;> simp [h]
  · rfl

@[simp] theorem State.makeReady_fuses (s : State) (c : Nat) : (s.makeReady c).fuses = s.fuses := (congrArg State.fuses (State.makeReady_frame s c) :)

@[simp] theorem State.attEvent_fuses (s : State) (a bit : Nat) : (s.attEvent a bit).fuses = s.fuses :=
  (congrArg State.fuses (State.attEvent_frame s a bit) :)

@[simp] theorem State.driveEvent_fuses (s : State) (n bit : Nat) : (s.driveEvent n bit).fuses = s.fuses :=
  (congrArg State.fuses (State.driveEvent_frame s n bit) :)

/-! ### The Landings (Landings.lean) -/

@[simp] theorem State.landsKeep_fuses (s : State) : s.landsKeep.fuses = s.fuses := by simp [State.landsKeep]

@[simp] theorem State.refill_fuses (s : State) (k : Nat) : (s.refill k).fuses = s.fuses := by
  unfold State.refill
  dsimp only
  split
  · split <;> simp
  · simp

@[simp] theorem State.grantTo_fuses (s : State) (k : Nat) (q : LandReq) : (s.grantTo k q).fuses = s.fuses := by simp [State.grantTo]

@[simp] theorem State.landGrant_fuses (s : State) (k : Nat) : (s.landGrant k).fuses = s.fuses := by
  unfold State.landGrant
  dsimp only
  split
  · simp
  · split
    · simp
    · split <;> simp

@[simp] theorem State.landEnter_fuses (s : State) (k : Nat) (q : LandReq) : (s.landEnter k q).fuses = s.fuses := by simp [State.landEnter]

@[simp] theorem execLandingRequest_keepsFuses (k r : Nat) (tag : World) (beats : Nat) (lowers : Bool) (ctx : Option Nat) (sup : Bool) (s : State) :
    KeepsFuses s (execLandingRequest k r tag beats lowers ctx sup s) := by simp [execLandingRequest]

@[simp] theorem execGrantEnd_keepsFuses (k used : Nat) (s : State) : KeepsFuses s (execGrantEnd k used s) := by
  unfold execGrantEnd
  split
  · simp
  · dsimp only
    split <;> simp

@[simp] theorem State.landThaw_fuses (s : State) (k : Nat) : (s.landThaw k).fuses = s.fuses := by simp [State.landThaw]
@[simp] theorem State.landsFreeze_fuses (s : State) (d : Nat) : (s.landsFreeze d).fuses = s.fuses := by simp -implicitDefEqProofs [State.landsFreeze]
@[simp] theorem State.landsThaw_fuses (s : State) (d : Nat) : (s.landsThaw d).fuses = s.fuses := by simp [State.landsThaw]
@[simp] theorem State.ldCtlWrite_fuses (s : State) (fn : World) (k v : Nat) : (s.ldCtlWrite fn k v).fuses = s.fuses := by simp [State.ldCtlWrite]
@[simp] theorem execFreeze_keepsFuses (fn : World) (k : Nat) (v : W32) (s : State) : KeepsFuses s (execFreeze fn k v s) := by simp [execFreeze]
@[simp] theorem State.ldBiasSet_fuses (s : State) (fn : World) (r : Nat) (v : W32) : (s.ldBiasSet fn r v).fuses = s.fuses := by simp [State.ldBiasSet]

@[simp] theorem execLdBiasWrite_keepsFuses (fn : World) (r : Nat) (v : W32) (s : State) : KeepsFuses s (execLdBiasWrite fn r v s) := by
  simp [execLdBiasWrite]

@[simp] theorem State.landWithdraw_fuses (s : State) (p : LandReq → Bool) : (s.landWithdraw p).fuses = s.fuses := by simp [State.landWithdraw]
@[simp] theorem State.ldWrite_fuses (s : State) (fn : World) (off : Nat) (v : W32) : (s.ldWrite fn off v).fuses = s.fuses := by simp [State.ldWrite]

/-! ### Boiler's leases and waiting requests (Lease.lean) -/

@[simp] theorem State.noteRefused_fuses (s : State) (q : LeaveReq) : (s.noteRefused q).fuses = s.fuses := by
  unfold State.noteRefused
  split <;> split <;> simp

@[simp] theorem State.leaveArrive_fuses (s : State) (q : LeaveReq) : (s.leaveArrive q).2.fuses = s.fuses := by simp [State.leaveArrive]

@[simp] theorem State.countWait_fuses (s : State) (q : LeaveReq) : (s.countWait q).fuses = s.fuses := by
  unfold State.countWait
  split <;> simp

@[simp] theorem State.leaveWithdraw_fuses (s : State) (p : LeaveReq → Bool) : (s.leaveWithdraw p).fuses = s.fuses := by simp [State.leaveWithdraw]

@[simp] theorem State.leaveWithdrawOwner_fuses (s : State) (o : LeaveOwner) : (s.leaveWithdrawOwner o).fuses = s.fuses := by
  simp [State.leaveWithdrawOwner]

@[simp] theorem State.leaseRelease_fuses (s : State) (n : Nat) : (s.leaseRelease n).fuses = s.fuses := by
  unfold State.leaseRelease
  split
  · split <;> simp
  · simp

@[simp] theorem State.leaseReduce_fuses (s : State) (n amount : Nat) : (s.leaseReduce n amount).fuses = s.fuses := by
  unfold State.leaseReduce
  split <;> simp

@[simp] theorem State.leaseGrant_fuses (s : State) (q : LeaveReq) : (s.leaseGrant q).2.fuses = s.fuses := by
  unfold State.leaseGrant
  split
  · split <;> simp
  · simp

@[simp] theorem State.flverRelease_fuses (s : State) (c : Nat) : (s.flverRelease c).fuses = s.fuses := by
  unfold State.flverRelease
  split <;> simp

@[simp] theorem State.ctxLeasesEnd_fuses (s : State) (c : Nat) : (s.ctxLeasesEnd c).fuses = s.fuses := by simp [State.ctxLeasesEnd]

@[simp] theorem execLeaseOverrun_keepsFuses (lease : Nat) (s : State) : KeepsFuses s (execLeaseOverrun lease s) := by
  unfold execLeaseOverrun
  split <;> simp

@[simp] theorem State.blWrite_fuses (s : State) (fn : World) (off : Nat) (v : W32) : (s.blWrite fn off v).fuses = s.fuses := by simp [State.blWrite]

/-! ### The drive ports (Drives.lean) -/

@[simp] theorem State.driveBalls_fuses (s : State) (n : Nat) : (s.driveBalls n).fuses = s.fuses := by simp -implicitDefEqProofs [State.driveBalls]

@[simp] theorem State.driveAnswer_fuses (s : State) (n : Nat) (i : Increase) (result unit : Nat) :
    (s.driveAnswer n i result unit).fuses = s.fuses := by
  unfold State.driveAnswer
  split <;> simp

@[simp] theorem State.driveWithdraw_fuses (s : State) (n : Nat) (p : Increase → Bool) (result unit : Nat) :
    (s.driveWithdraw n p result unit).fuses = s.fuses := by simp [State.driveWithdraw]

@[simp] theorem State.driveTrim_fuses (s : State) (n : Nat) : (s.driveTrim n).fuses = s.fuses := by
  unfold State.driveTrim
  dsimp only
  split <;> simp

@[simp] theorem State.driveZero_fuses (s : State) (n : Nat) : (s.driveZero n).fuses = s.fuses := by simp [State.driveZero]
@[simp] theorem State.driveStop_fuses (s : State) (n : Nat) : (s.driveStop n).fuses = s.fuses := by simp [State.driveStop]
@[simp] theorem State.driveOff_fuses (s : State) (n : Nat) : (s.driveOff n).fuses = s.fuses := by simp [State.driveOff]

@[simp] theorem State.driveAsk_fuses (s : State) (n item value : Nat) (ctx : Option Nat) (total est lst : Nat) :
    (s.driveAsk n item value ctx total est lst).2.fuses = s.fuses := by
  unfold State.driveAsk
  dsimp only
  split
  · rfl
  · split <;> rename_i heq <;> simpa using (congrArg (·.2.fuses) heq).symm

@[simp] theorem State.driveFixed_fuses (s : State) (n : Nat) : (s.driveFixed n).fuses = s.fuses := by simp [State.driveFixed]

@[simp] theorem State.driveCauseSet_fuses (s : State) (n : Nat) (c : Cause) : (s.driveCauseSet n c).fuses = s.fuses := by
  unfold State.driveCauseSet
  extract_lets d entry s1 s2 cut s3
  have h3 : s3.fuses = s.fuses := by simp [s3, s2, s1]
  split
  · simp [h3]
  · simp [h3]
  · split <;> simp [h3]
  · split
    · exact h3
    · split <;> simp [h3]

@[simp] theorem State.driveCauseClear_fuses (s : State) (n : Nat) (c : Cause) : (s.driveCauseClear n c).fuses = s.fuses := by
  unfold State.driveCauseClear
  dsimp only
  split
  · simp
  · split
    · simp
    · split <;> simp

@[simp] theorem State.driveApply_fuses (s : State) (n item v inrushMs : Nat) : (s.driveApply n item v inrushMs).fuses = s.fuses := by
  simp [State.driveApply]

@[simp] theorem State.driveRaise_fuses (s : State) (n item v : Nat) (ctx : Option Nat) (lst : Nat) :
    (s.driveRaise n item v ctx lst).2.fuses = s.fuses := by
  unfold State.driveRaise
  grind [State.driveWithdraw_fuses, State.driveAsk_fuses, State.driveApply_fuses]

@[simp] theorem State.driveFaultClear_fuses (s : State) (n : Nat) : (s.driveFaultClear n).2.fuses = s.fuses := by simp [State.driveFaultClear]
@[simp] theorem State.encMatch_fuses (s : State) (n : Nat) (before : Bool) : (s.encMatch n before).fuses = s.fuses := by simp [State.encMatch]
@[simp] theorem State.ilimCut_fuses (s : State) (n : Nat) : (s.ilimCut n).fuses = s.fuses := by simp [State.ilimCut]

@[simp] theorem State.driveWrite_fuses (s : State) (n item : Nat) (v : Int) (ctx : Option Nat) (lst : Nat) :
    (s.driveWrite n item v ctx lst).2.fuses = s.fuses := by
  unfold State.driveWrite
  split
  · simp
  · split <;> simp

@[simp] theorem State.driveGranted_fuses (s : State) (n lease order : Nat) : (s.driveGranted n lease order).fuses = s.fuses := by
  unfold State.driveGranted
  split <;> simp

@[simp] theorem State.driveRefused_fuses (s : State) (n order : Nat) : (s.driveRefused n order).fuses = s.fuses := by
  unfold State.driveRefused
  split <;> simp

@[simp] theorem execDriveFault_keepsFuses (n : Nat) (low : Bool) (s : State) : KeepsFuses s (execDriveFault n low s) := by simp [execDriveFault]

@[simp] theorem execEncoderEdge_keepsFuses (n : Nat) (levels : BitVec 3) (s : State) : KeepsFuses s (execEncoderEdge n levels s) := by
  simp [execEncoderEdge]

@[simp] theorem execEncTimeout_keepsFuses (n : Nat) (s : State) : KeepsFuses s (execEncTimeout n s) := by simp [execEncTimeout]
@[simp] theorem execAdcSample_keepsFuses (n ch : Nat) (v : BitVec 12) (s : State) : KeepsFuses s (execAdcSample n ch v s) := by simp [execAdcSample]

@[simp] theorem execPwmPeriodEnd_keepsFuses (n : Nat) (s : State) : KeepsFuses s (execPwmPeriodEnd n s) := by
  unfold execPwmPeriodEnd
  split
  · simp
  · dsimp only
    split <;> simp -implicitDefEqProofs

@[simp] theorem execRampTick_keepsFuses (n : Nat) (s : State) : KeepsFuses s (execRampTick n s) := by
  unfold execRampTick
  split
  · simp
  · dsimp only
    split <;> simp

@[simp] theorem execInrushEnd_keepsFuses (n : Nat) (s : State) : KeepsFuses s (execInrushEnd n s) := by
  unfold execInrushEnd
  split <;> simp

@[simp] theorem State.zcLost_fuses (s : State) (n : Nat) : (s.zcLost n).fuses = s.fuses := by simp [State.zcLost]

@[simp] theorem execZcEdge_keepsFuses (n : Nat) (s : State) : KeepsFuses s (execZcEdge n s) := by
  unfold execZcEdge
  split
  · simp
  · dsimp only
    split <;> simp

@[simp] theorem execZcTimeout_keepsFuses (n : Nat) (s : State) : KeepsFuses s (execZcTimeout n s) := by simp [execZcTimeout]

@[simp] theorem State.stopLink_fuses (s : State) (port pin : Nat) (level : Bool) : (s.stopLink port pin level).fuses = s.fuses := by
  refine foldl_fuses _ _ _ fun t n => ?_
  dsimp only
  split_ifs
  · split <;> simp
  · simp
  · rfl

@[simp] theorem State.driveMemberSafe_fuses (s : State) (n : Nat) : (s.driveMemberSafe n).fuses = s.fuses := by simp [State.driveMemberSafe]
@[simp] theorem State.driveMemberRelease_fuses (s : State) (n : Nat) : (s.driveMemberRelease n).fuses = s.fuses := by simp [State.driveMemberRelease]
@[simp] theorem State.pdWrite_fuses (s : State) (fn : World) (off : Nat) (v : W32) : (s.pdWrite fn off v).fuses = s.fuses := by simp [State.pdWrite]

/-! ### The port FIFOs (Fifo.lean) -/

@[simp] theorem State.txSpaceLatch_fuses (s : State) (a : Nat) : (s.txSpaceLatch a).fuses = s.fuses := by simp [State.txSpaceLatch]
@[simp] theorem State.txSpaceLatches_fuses (s : State) (a : Nat) : (s.txSpaceLatches a).fuses = s.fuses := by simp [State.txSpaceLatches]
@[simp] theorem State.rtsFlow_fuses (s : State) (n : Nat) : (s.rtsFlow n).fuses = s.fuses := by simp [State.rtsFlow]
@[simp] theorem State.txChange_fuses (s : State) (a : Nat) (f : TxChan → TxChan) : (s.txChange a f).fuses = s.fuses := by simp [State.txChange]
@[simp] theorem State.countLost_fuses (s : State) (n k : Nat) : (s.countLost n k).fuses = s.fuses := by simp [State.countLost]

@[simp] theorem State.rxGapTry_fuses (s : State) (a : Nat) : (s.rxGapTry a).fuses = s.fuses := by
  unfold State.rxGapTry
  dsimp only
  split
  · simp
  · split <;> simp

@[simp] theorem State.rxLose_fuses (s : State) (a k : Nat) : (s.rxLose a k).fuses = s.fuses := by simp [State.rxLose]
@[simp] theorem State.rxBoundary_fuses (s : State) (a : Nat) : (s.rxBoundary a).fuses = s.fuses := by simp [State.rxBoundary]

@[simp] theorem State.rxClose_fuses (s : State) (a flags : Nat) : (s.rxClose a flags).fuses = s.fuses := by
  unfold State.rxClose
  dsimp only
  split <;> simp

theorem State.fuses_of_rxOpen {s t : State} {a : Nat} (h : s.rxOpen a = some t) : t.fuses = s.fuses := by
  unfold State.rxOpen at h
  split_ifs at h <;> cases h <;> rfl

@[simp] theorem State.rxWord_fuses (s : State) (a : Nat) (w : W32) (err : Bool) : (s.rxWord a w err).2.fuses = s.fuses := by
  unfold State.rxWord
  dsimp only
  split
  · simp
  · split
    · simp
    · rename_i heq
      simpa using State.fuses_of_rxOpen heq

@[simp] theorem State.rxPack_fuses (s : State) (a : Nat) (l : List Byte) : (s.rxPack a l).fuses = s.fuses := by
  induction l generalizing s with
  | nil => rfl
  | cons b l ih => simp [State.rxPack, ih]

@[simp] theorem State.rxBytes_fuses (s : State) (a : Nat) (data : List Byte) : (s.rxBytes a data).2.fuses = s.fuses := by
  unfold State.rxBytes
  dsimp only
  split
  · simp
  · split
    · simp
    · rename_i heq
      simpa using State.fuses_of_rxOpen heq

@[simp] theorem State.rxZero_fuses (s : State) (a flags : Nat) : (s.rxZero a flags).fuses = s.fuses := by simp [State.rxZero]
@[simp] theorem execGapMarkerStored_keepsFuses (a : Nat) (s : State) : KeepsFuses s (execGapMarkerStored a s) := by simp [execGapMarkerStored]
@[simp] theorem execRxIdleClose_keepsFuses (port : Nat) (s : State) : KeepsFuses s (execRxIdleClose port s) := by simp [execRxIdleClose]
@[simp] theorem State.portWordBad_fuses (s : State) (n at_ : Nat) : (s.portWordBad n at_).fuses = s.fuses := by simp [State.portWordBad]
@[simp] theorem State.portWordSoft_fuses (s : State) (n : Nat) : (s.portWordSoft n).fuses = s.fuses := by simp [State.portWordSoft]

@[simp] theorem State.fifoRead_fuses (s : State) (a : Nat) (chk : WordCheck) : (s.fifoRead a chk).2.2.fuses = s.fuses := by
  unfold State.fifoRead
  dsimp only
  split
  · simp
  · split <;> simp

@[simp] theorem State.txOpen_fuses (s : State) (a c : Nat) : (s.txOpen a c).fuses = s.fuses := by simp [State.txOpen]
@[simp] theorem State.txPut_fuses (s : State) (a : Nat) (w : W32) : (s.txPut a w).fuses = s.fuses := by simp [State.txPut]
@[simp] theorem State.txClose_fuses (s : State) (a len : Nat) : (s.txClose a len).fuses = s.fuses := by simp [State.txClose]
@[simp] theorem State.txTake_fuses (s : State) (a n : Nat) : (s.txTake a n).2.fuses = s.fuses := by simp [State.txTake]

@[simp] theorem State.txWordBad_fuses (s : State) (a : Nat) : (s.txWordBad a).fuses = s.fuses := by
  unfold State.txWordBad
  dsimp only
  split <;> simp

@[simp] theorem State.txRewind_fuses (s : State) (a : Nat) : (s.txRewind a).fuses = s.fuses := by simp [State.txRewind]
@[simp] theorem State.txCancelOpen_fuses (s : State) (a : Nat) : (s.txCancelOpen a).fuses = s.fuses := by simp [State.txCancelOpen]
@[simp] theorem State.txMark_fuses (s : State) (a : Nat) : (s.txMark a).fuses = s.fuses := by simp [State.txMark]
@[simp] theorem State.txUnmark_fuses (s : State) (a : Nat) : (s.txUnmark a).fuses = s.fuses := by simp [State.txUnmark]
@[simp] theorem State.chanClear_fuses (s : State) (a : Nat) : (s.chanClear a).fuses = s.fuses := by simp [State.chanClear]

/-! ### The lane ports (Ports.lean) -/

@[simp] theorem State.attChange_fuses (s : State) (a : Nat) (f : Att → Att) : (s.attChange a f).fuses = s.fuses := by
  simp -implicitDefEqProofs [State.attChange]

@[simp] theorem State.modPin_fuses (s : State) (n i : Nat) (f : Pin → Pin) : (s.modPin n i f).fuses = s.fuses := by simp [State.modPin]
@[simp] theorem State.attError_fuses (s : State) (a e : Nat) : (s.attError a e).fuses = s.fuses := by simp [State.attError]
@[simp] theorem State.attFail_fuses (s : State) (a e : Nat) : (s.attFail a e).fuses = s.fuses := by simp [State.attFail]
@[simp] theorem State.pulseCut_fuses (s : State) (n i : Nat) : (s.pulseCut n i).fuses = s.fuses := by simp [State.pulseCut]
@[simp] theorem State.pinsSafe_fuses (s : State) (n : Nat) : (s.pinsSafe n).fuses = s.fuses := by simp [State.pinsSafe]
@[simp] theorem State.cmdAdd_fuses (s : State) (a : Nat) (x : PortCmd) : (s.cmdAdd a x).fuses = s.fuses := by simp [State.cmdAdd]
@[simp] theorem State.usbClose_fuses (s : State) (a ep flags : Nat) : (s.usbClose a ep flags).fuses = s.fuses := by simp [State.usbClose]
@[simp] theorem State.cmdNow_fuses (s : State) (a : Nat) : (s.cmdNow a).fuses = s.fuses := by simp [State.cmdNow]
@[simp] theorem State.cmdAbort_fuses (s : State) (a ep : Nat) : (s.cmdAbort a ep).fuses = s.fuses := by simp [State.cmdAbort]

@[simp] theorem State.cmdStart_fuses (s0 : State) (a c word : Nat) : (s0.cmdStart a c word).fuses = s0.fuses := by
  unfold State.cmdStart
  dsimp only
  split <;> simp

@[simp] theorem State.portCommand_fuses (s : State) (a c word : Nat) : (s.portCommand a c word).2.fuses = s.fuses := by simp [State.portCommand]
@[simp] theorem State.lineErrs_fuses (s : State) (n k : Nat) : (s.lineErrs n k).fuses = s.fuses := by simp [State.lineErrs]

@[simp] theorem State.cmdEnd_fuses (s : State) (a : Nat) (x : PortCmd) (err : Nat) : (s.cmdEnd a x err).fuses = s.fuses := by
  unfold State.cmdEnd
  extract_lets n s1 s2 s3 mps s4
  have h3 : s3.fuses = s.fuses := by simp [s3, s2, s1]
  have h4 : s4.fuses = s.fuses := by
    dsimp only [s4]
    split <;> simp [h3]
  simp [h4]

@[simp] theorem execCmdDone_keepsFuses (a ep err : Nat) (s : State) : KeepsFuses s (execCmdDone a ep err s) := by
  unfold execCmdDone
  split <;> simp

@[simp] theorem execStretchTimeout_keepsFuses (a : Nat) (s : State) : KeepsFuses s (execStretchTimeout a s) := by
  unfold execStretchTimeout
  split <;> simp

@[simp] theorem execIntPollInterval_keepsFuses (a ep : Nat) (s : State) : KeepsFuses s (execIntPollInterval a ep s) := by simp [execIntPollInterval]

@[simp] theorem execPulseEnd_keepsFuses (port pin : Nat) (s : State) : KeepsFuses s (execPulseEnd port pin s) := by
  unfold execPulseEnd
  split <;> simp

@[simp] theorem execBlinkToggle_keepsFuses (port pin : Nat) (s : State) : KeepsFuses s (execBlinkToggle port pin s) := by simp [execBlinkToggle]
@[simp] theorem execCtsChange_keepsFuses (port : Nat) (high : Bool) (s : State) : KeepsFuses s (execCtsChange port high s) := by simp [execCtsChange]
@[simp] theorem State.driverRaise_fuses (s : State) (n : Nat) : (s.driverRaise n).fuses = s.fuses := by simp [State.driverRaise]
@[simp] theorem State.uartSends_fuses (s : State) (n k : Nat) : (s.uartSends n k).fuses = s.fuses := by simp [State.uartSends]

@[simp] theorem State.uartChar_fuses (s : State) (n : Nat) (v : Byte) (framing parity brk : Bool) :
    (s.uartChar n v framing parity brk).fuses = s.fuses := by simp [State.uartChar]

@[simp] theorem State.serialByte_fuses (s : State) (a : Nat) (v : Byte) (last : Bool) : (s.serialByte a v last).fuses = s.fuses := by
  unfold State.serialByte
  split <;> simp

@[simp] theorem execRxItemArrival_keepsFuses (a : Nat) (x : RxItem) (s : State) : KeepsFuses s (execRxItemArrival a x s) := by
  unfold execRxItemArrival
  split
  · simp
  · split <;> simp

@[simp] theorem State.gpioEvent_fuses (s : State) (a levels changed since : Nat) : (s.gpioEvent a levels changed since).fuses = s.fuses := by
  simp [State.gpioEvent]

@[simp] theorem execInputChange_keepsFuses (port : Nat) (levels : BitVec 4) (since : Nat) (s : State) :
    KeepsFuses s (execInputChange port levels since s) := by simp [execInputChange]

@[simp] theorem State.ctxHandoff_fuses (s : State) (a c k : Nat) : (s.ctxHandoff a c k).fuses = s.fuses := by
  unfold State.ctxHandoff
  split <;> simp

@[simp] theorem State.usbServed_fuses (s : State) (a ep : Nat) : (s.usbServed a ep).fuses = s.fuses := by simp [State.usbServed]

@[simp] theorem State.handed_fuses (s : State) (a : Nat) (x : Option PortCmd) (h : Handed) : (s.handed a x h).fuses = s.fuses := by
  unfold State.handed
  split <;> simp

@[simp] theorem execTxHandoff_keepsFuses (a n : Nat) (s0 : State) (chk : WordCheck) (retried : Nat) :
    KeepsFuses s0 (execTxHandoff a n s0 chk retried) := by
  unfold execTxHandoff
  extract_lets s k x
  have hs : s.fuses = s0.fuses := by simp [s]
  split
  · simp [hs]
  split
  · dsimp only [x]
    split <;> simp [hs]
  · simp +zetaDelta [hs]

@[simp] theorem execUsbInPacket_keepsFuses (a ep : Nat) (data : List Byte) (s0 : State) (retried : Nat) :
    KeepsFuses s0 (execUsbInPacket a ep data s0 retried) := by
  unfold execUsbInPacket
  dsimp only
  split <;> simp

@[simp] theorem State.portPower_fuses (s : State) (n : Nat) : (s.portPower n).fuses = s.fuses := by simp [State.portPower]
@[simp] theorem State.portSafeOn_fuses (s : State) (n : Nat) : (s.portSafeOn n).fuses = s.fuses := by simp [State.portSafeOn]
@[simp] theorem State.portSafeOff_fuses (s : State) (n : Nat) : (s.portSafeOff n).fuses = s.fuses := by simp [State.portSafeOff]
@[simp] theorem State.poWrite_fuses (s : State) (fn : World) (off : Nat) (v : W32) : (s.poWrite fn off v).fuses = s.fuses := by simp [State.poWrite]

/-! ### The device buffer space (Access.lean) -/

@[simp] theorem State.pnUncorrectable_fuses (s : State) (burst : Nat) : (s.pnUncorrectable burst).fuses = s.fuses :=
  (congrArg State.fuses (State.pnUncorrectable_frame s burst) :)

@[simp] theorem State.pnCorrected_fuses (s : State) (burst : Nat) : (s.pnCorrected burst).fuses = s.fuses :=
  (congrArg State.fuses (State.pnCorrected_frame s burst) :)

@[simp] theorem State.pnCheck_fuses (s : State) (a n : Nat) : (s.pnCheck a n).2.fuses = s.fuses :=
  (congrArg State.fuses (State.pnCheck_frame s a n) :)

@[simp] theorem State.pnWrite_fuses (s : State) (a : Nat) (data : List Byte) : (s.pnWrite a data).fuses = s.fuses :=
  (congrArg State.fuses (State.pnWrite_frame s a data) :)

@[simp] theorem State.readBlock_fuses (s : State) (w : World) (a n : Nat) : (s.readBlock w a n).2.fuses = s.fuses :=
  (congrArg State.fuses (State.readBlock_frame s w a n) :)

@[simp] theorem State.writeBlock_fuses (s : State) (w : World) (a : Nat) (data : List Byte) : (s.writeBlock w a data).fuses = s.fuses :=
  (congrArg State.fuses (State.writeBlock_frame s w a data) :)

@[simp] theorem State.xlatNote_fuses (s : State) (a : Nat) : (s.xlatNote a).fuses = s.fuses := (congrArg State.fuses (State.xlatNote_frame s a) :)

@[simp] theorem State.onLink_keepsFuses (s : State) (r : LinkResult) (k : State → Result) (h : ∀ t, KeepsFuses t (k t)) :
    KeepsFuses s (s.onLink r k) := by
  unfold State.onLink
  split
  · exact h s
  · have hk := h { s with linkBad := true }
    split <;> rename_i heq
    · rw [heq] at hk
      simpa using hk
    · exact hk

@[simp] theorem State.readSpan_fuses (s : State) (w : World) (super : Bool) (fuel a n : Nat) : (s.readSpan w super fuel a n).2.2.fuses = s.fuses := by
  induction fuel generalizing s a n with
  | zero => rfl
  | succ fuel ih =>
    unfold State.readSpan
    grind [State.xlatNote_fuses, State.readBlock_fuses]

@[simp] theorem State.readBytes_fuses (s : State) (w : World) (super : Bool) (a n : Nat) : (s.readBytes w super a n).2.2.fuses = s.fuses := by
  simp [State.readBytes]

@[simp] theorem State.writeSpan_fuses (s : State) (w : World) (super : Bool) (fuel a : Nat) (data : List Byte) :
    (s.writeSpan w super fuel a data).2.2.fuses = s.fuses := by
  induction fuel generalizing s a data with
  | zero => rfl
  | succ fuel ih =>
    unfold State.writeSpan
    grind [State.xlatNote_fuses, State.writeBlock_fuses]

@[simp] theorem State.writeBytes_fuses (s : State) (w : World) (super : Bool) (a : Nat) (data : List Byte) :
    (s.writeBytes w super a data).2.2.fuses = s.fuses := by simp [State.writeBytes]

/-! ### The queue manager (Queue.lean) -/

@[simp] theorem State.cqAnnounce_fuses (s : State) (w : World) (n : Nat) : (s.cqAnnounce w n).fuses = s.fuses :=
  (congrArg State.fuses (State.cqAnnounce_frame s w n) :)

@[simp] theorem State.cqRaw_fuses (s : State) (w : World) (n : Nat) (e : Compl) : (s.cqRaw w n e).fuses = s.fuses := by simp [State.cqRaw]

@[simp] theorem State.eventEntry_fuses (s : State) (w : World) (code detail : Nat) : (s.eventEntry w code detail).fuses = s.fuses := by
  simp [State.eventEntry]

@[simp] theorem State.qmEventEntry_fuses (s : State) (w : World) (bit code detail : Nat) : (s.qmEventEntry w bit code detail).fuses = s.fuses := by
  simp [State.qmEventEntry]

@[simp] theorem State.cqPut_fuses (s : State) (w : World) (n : Nat) (e : Compl) : (s.cqPut w n e).fuses = s.fuses := by simp [State.cqPut]
@[simp] theorem State.ovfPut_fuses (s : State) (w : World) (n : Nat) (e : Compl) : (s.ovfPut w n e).fuses = s.fuses := by simp [State.ovfPut]
@[simp] theorem State.complete_fuses (s : State) (w : World) (n : Nat) (e : Compl) : (s.complete w n e).2.fuses = s.fuses := by simp [State.complete]

@[simp] theorem State.completeOld_fuses (s : State) (w : World) (n : Nat) (orphaned : Bool) (e : Compl) :
    (s.completeOld w n orphaned e).2.fuses = s.fuses := by simp [State.completeOld]

@[simp] theorem State.orphanPlaced_fuses (s : State) (w : World) (e : Compl) : (s.orphanPlaced w e).fuses = s.fuses := by simp [State.orphanPlaced]

@[simp] theorem State.ovfAdmit_fuses (s : State) (l : List WaitStatus) : (s.ovfAdmit l).fuses = s.fuses := by
  induction l generalizing s with
  | nil => rfl
  | cons x l ih =>
    simp [State.ovfAdmit, ih]

@[simp] theorem State.ovfDrain_fuses (s : State) (w : World) (n fuel : Nat) : (s.ovfDrain w n fuel).fuses = s.fuses := by
  induction fuel generalizing s with
  | zero => rfl
  | succ fuel ih =>
    unfold State.ovfDrain
    grind [State.countWorld_fuses, State.orphanPlaced_fuses, State.cqPut_fuses, State.ovfAdmit_fuses]

@[simp] theorem State.cqDrain_fuses (s : State) (w : World) (n : Nat) : (s.cqDrain w n).fuses = s.fuses := by simp [State.cqDrain]

@[simp] theorem State.adminDone_fuses (s : State) (w : World) (tag astatus result0 result1 : Nat) :
    (s.adminDone w tag astatus result0 result1).fuses = s.fuses := by simp [State.adminDone]

@[simp] theorem State.groupCover_fuses (s : State) (w : World) (q g cq : Nat) (orphaned : Bool) :
    (s.groupCover w q g cq orphaned).fuses = s.fuses := by simp [State.groupCover]

@[simp] theorem State.groupCut_fuses (s : State) (w : World) (q : Nat) : (s.groupCut w q).fuses = s.fuses := by simp [State.groupCut]

@[simp] theorem State.sqError_fuses (s : State) (w : World) (q : Nat) (first : Ptr) (reason : Nat) :
    (s.sqError w q first reason).fuses = s.fuses := by simp [State.sqError]

@[simp] theorem State.sqDoorbell_fuses (s : State) (fn : World) (q v : Nat) : (s.sqDoorbell fn q v).2.fuses = s.fuses := by simp [State.sqDoorbell]

@[simp] theorem State.fetchPlain_fuses (s : State) (w : World) (q : Nat) : (s.fetchPlain w q).fuses = s.fuses := by
  unfold State.fetchPlain
  dsimp only
  split
  · simp
  · split <;> split <;> simp

@[simp] theorem State.fetchVariable_fuses (s : State) (w : World) (q : Nat) : (s.fetchVariable w q).fuses = s.fuses := by
  unfold State.fetchVariable
  dsimp only
  split
  · simp
  · split
    · simp
    · split <;> simp

@[simp] theorem execSqEntryFetch_keepsFuses (fn : World) (q : Nat) (r : LinkResult) (s : State) : KeepsFuses s (execSqEntryFetch fn q r s) := by
  unfold execSqEntryFetch
  split
  · split <;> simp
  · simp

@[simp] theorem execNotBeforeExpiry_keepsFuses (fn : World) (q : Nat) (s : State) : KeepsFuses s (execNotBeforeExpiry fn q s) := by
  unfold execNotBeforeExpiry
  split <;> simp

@[simp] theorem execIntDelayExpiry_keepsFuses (fn : World) (q : Nat) (s : State) : KeepsFuses s (execIntDelayExpiry fn q s) := by
  simp [execIntDelayExpiry]

@[simp] theorem State.cqDoorbell_fuses (s : State) (fn : World) (q v : Nat) : (s.cqDoorbell fn q v).fuses = s.fuses := by simp [State.cqDoorbell]

@[simp] theorem execCqHeadDoorbell_keepsFuses (fn : World) (q : Nat) (v : W32) (s : State) : KeepsFuses s (execCqHeadDoorbell fn q v s) := by
  simp [execCqHeadDoorbell]

@[simp] theorem State.msixWrite_fuses (s : State) (fn : World) (v i : Nat) (d : W32) : (s.msixWrite fn v i d).fuses = s.fuses := by
  simp [State.msixWrite]

@[simp] theorem State.qmWrite_fuses (s : State) (fn : World) (off : Nat) (v : W32) : (s.qmWrite fn off v).fuses = s.fuses := by simp [State.qmWrite]

/-! ### Status blocks, locks and the end of a program (Status.lean) -/

@[simp] theorem State.modHt_fuses (s : State) (w : World) (f : HearthCnt → HearthCnt) : (s.modHt w f).fuses = s.fuses := by simp [State.modHt]

@[simp] theorem State.lockPass_fuses (s : State) (num : Nat) (w : World) : (s.lockPass num w).fuses = s.fuses := by
  unfold State.lockPass
  split <;> simp

@[simp] theorem State.lockDrop_fuses (s : State) (c : Nat) (l : LockRef) : (s.lockDrop c l).fuses = s.fuses := by simp [State.lockDrop]
@[simp] theorem State.locksEnd_fuses (s : State) (c : Nat) : (s.locksEnd c).fuses = s.fuses := by simp [State.locksEnd]
@[simp] theorem State.visitLocksEnd_fuses (s : State) (c : Nat) : (s.visitLocksEnd c).fuses = s.fuses := by simp [State.visitLocksEnd]

@[simp] theorem State.flintClose_fuses (s : State) (c : Nat) : (s.flintClose c).fuses = s.fuses := by
  unfold State.flintClose
  split
  · dsimp only
    split <;> simp
  · simp

@[simp] theorem State.lateError_fuses (s : State) (c : Nat) (b : BufStore) (reason : Nat) : (s.lateError c b reason).fuses = s.fuses := by
  simp [State.lateError]

@[simp] theorem State.issueOne_fuses (s : State) (c : Nat) (b : BufStore) : (s.issueOne c b).fuses = s.fuses := by simp [State.issueOne]
@[simp] theorem State.issueStores_fuses (s : State) (c : Nat) : (s.issueStores c).fuses = s.fuses := by simp [State.issueStores]
@[simp] theorem State.storesLost_fuses (s : State) (w : World) : (s.storesLost w).fuses = s.fuses := by simp [State.storesLost]
@[simp] theorem State.postInterim_fuses (s : State) (c : Nat) (b : Block) : (s.postInterim c b).fuses = s.fuses := by simp [State.postInterim]

@[simp] theorem State.ctxFree_fuses (s : State) (c : Nat) : (s.ctxFree c).fuses = s.fuses := by
  unfold State.ctxFree
  dsimp only
  split <;> simp

@[simp] theorem State.programGone_fuses (s : State) (c : Nat) (posted : Bool) : (s.programGone c posted).fuses = s.fuses := by
  unfold State.programGone
  dsimp only
  split <;> simp

@[simp] theorem State.countFinal_fuses (s : State) (c status : Nat) : (s.countFinal c status).fuses = s.fuses := by simp [State.countFinal]
@[simp] theorem State.residentEnd_fuses (s : State) (c : Nat) (e : Ending) : (s.residentEnd c e).fuses = s.fuses := by simp [State.residentEnd]
@[simp] theorem State.programEnd_fuses (s : State) (c : Nat) (e0 : Ending) : (s.programEnd c e0).fuses = s.fuses := by simp [State.programEnd]
@[simp] theorem State.visitAbandon_fuses (s : State) (c : Nat) : (s.visitAbandon c).fuses = s.fuses := by simp [State.visitAbandon]
@[simp] theorem State.commitPoint_fuses (s : State) (c a : Nat) : (s.commitPoint c a).fuses = s.fuses := by simp [State.commitPoint]
@[simp] theorem State.actRxEnd_fuses (s : State) (c a : Nat) (own : Bool) : (s.actRxEnd c a own).fuses = s.fuses := by simp [State.actRxEnd]

@[simp] theorem State.actTxEnd_fuses (s : State) (a : Nat) (own abnormal : Bool) : (s.actTxEnd a own abnormal).fuses = s.fuses := by
  simp [State.actTxEnd]

@[simp] theorem State.openCancel_fuses (s : State) (c : Nat) : (s.openCancel c).fuses = s.fuses := by simp [State.openCancel]

@[simp] theorem State.requestsEnd_fuses (s : State) (c : Nat) : (s.requestsEnd c).fuses = s.fuses := by
  unfold State.requestsEnd
  split <;> simp -implicitDefEqProofs

@[simp] theorem State.actEnd_fuses (s : State) (c : Nat) (abnormal : Bool) : (s.actEnd c abnormal).fuses = s.fuses := by
  unfold State.actEnd
  split
  · split <;> simp
  · simp

/-! ### The memory accesses and the stream of a program (Stream.lean) -/

@[simp] theorem State.noteDenied_fuses (s : State) (c a : Nat) (x : XferStop) : (s.noteDenied c a x).fuses = s.fuses := by
  unfold State.noteDenied
  split <;> simp

@[simp] theorem State.progRead_fuses (s : State) (c a n : Nat) : (s.progRead c a n).2.2.fuses = s.fuses := by simp [State.progRead]

@[simp] theorem State.bufStore_fuses (s : State) (c : Nat) (w : World) (a : Nat) (data : List Byte) : (s.bufStore c w a data).fuses = s.fuses := by
  simp [State.bufStore]

@[simp] theorem State.placeBytes_fuses (s : State) (c : Nat) (w : World) (a : Nat) (data : List Byte) :
    (s.placeBytes c w a data).fuses = s.fuses := by simp [State.placeBytes]

@[simp] theorem State.progWrite_fuses (s : State) (c a : Nat) (data : List Byte) : (s.progWrite c a data).2.2.fuses = s.fuses := by
  unfold State.progWrite
  dsimp only
  split <;> simp

@[simp] theorem State.ccwFetch_fuses (s : State) (c loc : Nat) : (s.ccwFetch c loc).2.fuses = s.fuses := by
  unfold State.ccwFetch
  grind [State.progRead_fuses]

@[simp] theorem State.memberFetch_fuses (s : State) (c : Nat) (m : Ccw) : (s.memberFetch c m).2.2.fuses = s.fuses := by
  unfold State.memberFetch
  grind [State.ccwFetch_fuses]

@[simp] theorem State.modStream_fuses (s : State) (c : Nat) (f : Stream → Stream) : (s.modStream c f).fuses = s.fuses := by simp [State.modStream]

@[simp] theorem State.memberPst_fuses (s : State) (c : Nat) (m : Ccw) (residual : Nat) : (s.memberPst c m residual).fuses = s.fuses := by
  simp [State.memberPst]

@[simp] theorem State.streamStep_fuses (s : State) (c : Nat) : (s.streamStep c).2.fuses = s.fuses := by
  unfold State.streamStep
  dsimp only
  split <;> simp

@[simp] theorem State.idalFind_fuses (s : State) (c base off fuel idx start : Nat) : (s.idalFind c base off fuel idx start).2.fuses = s.fuses := by
  induction fuel generalizing s idx start with
  | zero => rfl
  | succ fuel ih =>
    unfold State.idalFind
    grind [State.progRead_fuses]

@[simp] theorem State.pieceOf_fuses (s : State) (c : Nat) (m : Ccw) (off : Nat) : (s.pieceOf c m off).2.fuses = s.fuses := by
  unfold State.pieceOf
  grind [State.idalFind_fuses, State.modStream_fuses]

@[simp] theorem State.streamSpan_fuses (s : State) (c : Nat) : (s.streamSpan c).2.fuses = s.fuses := by
  unfold State.streamSpan
  grind [State.streamStep_fuses, State.pieceOf_fuses]

@[simp] theorem State.streamMoved_fuses (s : State) (c n : Nat) : (s.streamMoved c n).fuses = s.fuses := by simp [State.streamMoved]

@[simp] theorem State.streamTake_fuses (s : State) (c fuel n : Nat) : (s.streamTake c fuel n).2.2.fuses = s.fuses := by
  induction fuel generalizing s n with
  | zero => rfl
  | succ fuel ih =>
    unfold State.streamTake
    grind [State.streamSpan_fuses, State.progRead_fuses, State.streamMoved_fuses]

@[simp] theorem State.streamPut_fuses (s : State) (c fuel : Nat) (data : List Byte) : (s.streamPut c fuel data).2.2.fuses = s.fuses := by
  induction fuel generalizing s data with
  | zero => rfl
  | succ fuel ih =>
    unfold State.streamPut
    grind [State.streamSpan_fuses, State.progWrite_fuses, State.streamMoved_fuses]

@[simp] theorem State.streamGet_fuses (s : State) (c n : Nat) : (s.streamGet c n).2.2.fuses = s.fuses := by
  unfold State.streamGet
  dsimp only
  split <;> simp

@[simp] theorem State.streamStore_fuses (s : State) (c : Nat) (data : List Byte) : (s.streamStore c data).2.2.fuses = s.fuses := by
  unfold State.streamStore
  dsimp only
  split <;> simp

@[simp] theorem State.chainLast_fuses (s : State) (c fuel : Nat) (m : Ccw) : (s.chainLast c fuel m).2.fuses = s.fuses := by
  induction fuel generalizing s m with
  | zero => rfl
  | succ fuel ih =>
    unfold State.chainLast
    grind [State.memberFetch_fuses]

/-! ### Boiler's own requests and placement (Place.lean) -/

@[simp] theorem State.workRefused_fuses (s : State) (k : BoilerWork) : (s.workRefused k).fuses = s.fuses := by
  unfold State.workRefused
  split <;> simp

@[simp] theorem State.boilerAsk_fuses (s : State) (k : BoilerWork) (lst : Nat) : (s.boilerAsk k lst).fuses = s.fuses := by
  unfold State.boilerAsk
  grind [State.leaveArrive_fuses, State.workRefused_fuses]

@[simp] theorem execLeaveRequest_keepsFuses (work : BoilerWork) (s : State) : KeepsFuses s (execLeaveRequest work s) := by simp [execLeaveRequest]
@[simp] theorem State.countSpill_fuses (s : State) (w : World) (k h : Nat) : (s.countSpill w k h).fuses = s.fuses := by simp [State.countSpill]

/-! ### Binding, the end of a CCW and its start (Program.lean) -/

@[simp] theorem State.asyncEnd_fuses (s : State) (c : Nat) : (s.asyncEnd c).fuses = s.fuses := by
  unfold State.asyncEnd
  split <;> simp

@[simp] theorem State.suspendAt_fuses (s : State) (c cause addr resid flags : Nat) : (s.suspendAt c cause addr resid flags).fuses = s.fuses := by
  simp [State.suspendAt]

@[simp] theorem State.peekCount_fuses (s : State) (c loc : Nat) : (s.peekCount c loc).2.fuses = s.fuses := by
  unfold State.peekCount
  grind [State.ccwFetch_fuses]

@[simp] theorem State.boundary_fuses (s : State) (c : Nat) : (s.boundary c).fuses = s.fuses := by simp [State.boundary]
@[simp] theorem State.countMiss_fuses (s : State) (c : Nat) : (s.countMiss c).fuses = s.fuses := by simp [State.countMiss]

@[simp] theorem State.ccwFinish_fuses (s0 : State) (c : Nat) (o0 : CcwOut) : (s0.ccwFinish c o0).fuses = s0.fuses := by
  unfold State.ccwFinish
  extract_lets o s x0 y late il cur st s1 x t n flags k s2 s3
  have hs : s.fuses = s0.fuses := by simp [s]
  have h3 : s3.fuses = s0.fuses := by simp [s3, s2, s1, hs]
  split
  · simp [h3]
  split
  · simp [h3]
  split
  · simp [h3]
  split <;> simp [fuses_of_pair ‹_›, h3]

@[simp] theorem State.missEnd_fuses (s : State) (c : Nat) (port chan : Bool) : (s.missEnd c port chan).fuses = s.fuses := by simp [State.missEnd]

@[simp] theorem State.dueEnd_fuses (s : State) (c : Nat) : (s.dueEnd c).fuses = s.fuses := by
  unfold State.dueEnd
  dsimp only
  split <;> simp

@[simp] theorem State.ccwStop_fuses (s : State) (c status unit : Nat) : (s.ccwStop c status unit).fuses = s.fuses := by simp [State.ccwStop]

@[simp] theorem State.noteTargets_fuses (s : State) (c : Nat) (w : World) (lane n : Nat) (tgts : List Byte) :
    (s.noteTargets c w lane n tgts).fuses = s.fuses := by
  unfold State.noteTargets
  split <;> simp

@[simp] theorem State.bindFail_fuses (s : State) (c status unit : Nat) : (s.bindFail c status unit).fuses = s.fuses := by simp [State.bindFail]

@[simp] theorem State.bindProgram_fuses (s : State) (c : Nat) (rules : BindRules) : (s.bindProgram c rules).fuses = s.fuses := by
  unfold State.bindProgram
  grind [State.bindFail_fuses, State.progRead_fuses, State.modCtx_fuses, State.noteTargets_fuses, State.makeReady_fuses]

@[simp] theorem State.inlineCopy_fuses (s : State) (c : Nat) (data : List Byte) : (s.inlineCopy c data).2.fuses = s.fuses := by
  unfold State.inlineCopy
  grind [State.progWrite_fuses, State.issueStores_fuses]

@[simp] theorem State.entryTaken_fuses (s : State) (w : World) (q : Nat) (e : Entry) : (s.entryTaken w q e).fuses = s.fuses := by
  simp [State.entryTaken]

@[simp] theorem State.groupJoin_fuses (s : State) (w : World) (q flags tag : Nat) : (s.groupJoin w q flags tag).2.fuses = s.fuses := by
  simp [State.groupJoin]

@[simp] theorem State.bindWait_fuses (s : State) (w : World) (q : Nat) : (s.bindWait w q).fuses = s.fuses := by simp [State.bindWait]

@[simp] theorem State.bindEntry_fuses (s : State) (w : World) (q : Nat) (e : Entry) (c h : Nat) : (s.bindEntry w q e c h).fuses = s.fuses := by
  unfold State.bindEntry
  grind [State.entryTaken_fuses, State.groupJoin_fuses, State.modSq_fuses, State.setCtx_fuses, State.countWorld_fuses,
    State.inlineCopy_fuses, State.bindFail_fuses, State.bindProgram_fuses]

@[simp] theorem State.programBind_keepsFuses (s : State) (fn : World) (q : Nat) : KeepsFuses s (s.programBind fn q) := by
  unfold State.programBind
  split
  · simp
  · split
    · simp
    · split <;> simp

@[simp] theorem execProgramBind_keepsFuses (fn : World) (q : Nat) (s : State) (link : LinkResult) : KeepsFuses s (execProgramBind fn q s link) := by
  simp [execProgramBind]

@[simp] theorem State.programCheck_fuses (s : State) (c : Nat) (y : Ccw) (reason : Nat) : (s.programCheck c y reason).fuses = s.fuses := by
  simp [State.programCheck]

@[simp] theorem State.nextCcw_fuses (s : State) (c : Nat) : (s.nextCcw c).2.fuses = s.fuses := by
  unfold State.nextCcw
  split
  · dsimp only
    split
    · simp
    · split <;> simp
  · dsimp only
    split <;> simp

@[simp] theorem State.ccwBegin_fusesAre (s : State) (c code : Nat) : (s.ccwBegin c code).FusesAre s.fuses := by
  unfold State.ccwBegin
  extract_lets x cont
  split
  · trivial
  split <;> rename_i hn
  · simp [fuses_of_pair hn]
  split
  · trivial
  split
  · split <;> simp [fuses_of_pair hn]
  split
  · simp [fuses_of_pair hn]
  split
  · simp [fuses_of_pair hn]
  split
  · simp [fuses_of_pair hn]
  extract_lets dl passed s2
  split <;> simp [s2, fuses_of_pair hn]

@[simp] theorem State.withdrawn_fuses (s : State) (c loc resid : Nat) : (s.withdrawn c loc resid).fuses = s.fuses := by simp [State.withdrawn]

@[simp] theorem State.activate_fuses (s : State) (c : Nat) (y : Ccw) (param entry : Nat) (a : Option Nat) :
    (s.activate c y param entry a).fuses = s.fuses := by
  unfold State.activate
  split <;> split <;> simp

@[simp] theorem State.paramOf_fuses (s : State) (c : Nat) (y : Ccw) (param : Nat) : (s.paramOf c y param).2.fuses = s.fuses := by
  unfold State.paramOf
  grind [State.streamGet_fuses, State.modStream_fuses]

@[simp] theorem State.handlerStart_fuses (s : State) (c : Nat) (y : Ccw) (param : Nat) : (s.handlerStart c y param).fuses = s.fuses := by
  unfold State.handlerStart
  grind [State.modStream_fuses, State.withdrawn_fuses, State.ccwFinish_fuses, State.modCtx_fuses, State.paramOf_fuses, State.activate_fuses]

/-! ### The channel commands (Ccws.lean) -/

@[simp] theorem Begun.run_fuses (b : Begun) (s : State) (f : Ccw → Nat → State → State) (hb : b.FusesAre s.fuses)
    (h : ∀ y p t, (f y p t).fuses = t.fuses) : (b.run s f).fuses = s.fuses := by
  rcases b with _ | t | ⟨y, p, t⟩
  · rfl
  · exact hb
  · exact (h y p t).trans hb

@[simp] theorem State.ccwPresent_fuses (s : State) (c : Nat) (y : Ccw) (f : State → State) (h : ∀ t, (f t).fuses = t.fuses) :
    (s.ccwPresent c y f).fuses = s.fuses := by
  unfold State.ccwPresent
  split <;> simp [h]

@[simp] theorem execWrite_keepsFuses (c : Nat) (s : State) (link : LinkResult) : KeepsFuses s (execWrite c s link) := by simp [execWrite]
@[simp] theorem execRead_keepsFuses (c : Nat) (s : State) (link : LinkResult) : KeepsFuses s (execRead c s link) := by simp [execRead]
@[simp] theorem execControl_keepsFuses (c : Nat) (s : State) (link : LinkResult) : KeepsFuses s (execControl c s link) := by simp [execControl]

@[simp] theorem State.driveSenseCcw_fuses (s : State) (c : Nat) (y : Ccw) : (s.driveSenseCcw c y).fuses = s.fuses := by
  unfold State.driveSenseCcw
  grind [State.modStream_fuses, State.streamStore_fuses, State.ccwFinish_fuses, State.modCtx_fuses]

@[simp] theorem execSense_keepsFuses (c : Nat) (s : State) (link : LinkResult) : KeepsFuses s (execSense c s link) := by simp [execSense]
@[simp] theorem execExec_keepsFuses (c : Nat) (s : State) (link : LinkResult) : KeepsFuses s (execExec c s link) := by simp [execExec]

@[simp] theorem State.ticStep_keepsFuses (s : State) (c : Nat) : KeepsFuses s (s.ticStep c) := by
  unfold State.ticStep
  dsimp only
  split
  · simp
  split <;> rename_i h
  · simp [fuses_of_pair h]
  · split
    · simp
    · split <;> simp [fuses_of_pair h]

@[simp] theorem execTic_keepsFuses (c : Nat) (s : State) (link : LinkResult) : KeepsFuses s (execTic c s link) := by simp [execTic]
@[simp] theorem execNop_keepsFuses (c : Nat) (s : State) (link : LinkResult) : KeepsFuses s (execNop c s link) := by simp [execNop]
@[simp] theorem execPost_keepsFuses (c : Nat) (s : State) (link : LinkResult) : KeepsFuses s (execPost c s link) := by simp [execPost]

@[simp] theorem State.markCcw_fuses (s : State) (c op : Nat) (f : Nat → State → State) (h : ∀ a t, (f a t).fuses = t.fuses) :
    (s.markCcw c op f).fuses = s.fuses := by
  have hb := s.ccwBegin_fusesAre c 8
  unfold State.markCcw
  split <;> rename_i heq
  · rfl
  · rwa [heq] at hb
  · rw [heq, Begun.fusesAre_go] at hb
    simp [h, hb]

@[simp] theorem State.waitRun_fuses (s : State) (c : Nat) (y : Ccw) (mask : Nat) : (s.waitRun c y mask).fuses = s.fuses := by simp [State.waitRun]

@[simp] theorem State.waitStep_keepsFuses (s : State) (c : Nat) : KeepsFuses s (s.waitStep c) := by
  unfold State.waitStep
  split <;> simp

@[simp] theorem execWait_keepsFuses (c : Nat) (s : State) (link : LinkResult) : KeepsFuses s (execWait c s link) := by simp [execWait]

@[simp] theorem State.plantRun_fuses (s : State) (c : Nat) (y : Ccw) (p : Nat) : (s.plantRun c y p).fuses = s.fuses := by
  unfold State.plantRun
  grind [State.driveWrite_fuses, State.modCtx_fuses, State.ccwFinish_fuses]

@[simp] theorem State.driveAnswerTake_fuses (s : State) (n c : Nat) : (s.driveAnswerTake n c).2.fuses = s.fuses := by simp [State.driveAnswerTake]

@[simp] theorem State.plantStep_keepsFuses (s : State) (c : Nat) : KeepsFuses s (s.plantStep c) := by
  unfold State.plantStep
  split
  · split <;> simp
  · simp

@[simp] theorem execPlant_keepsFuses (c : Nat) (s : State) (link : LinkResult) : KeepsFuses s (execPlant c s link) := by simp [execPlant]

@[simp] theorem State.leaveCcwAsk_fuses (s : State) (c : Nat) (q : LeaveReq) : (s.leaveCcwAsk c q).fuses = s.fuses := by
  unfold State.leaveCcwAsk
  grind [State.leaveArrive_fuses, State.ccwFinish_fuses, State.modCtx_fuses]

@[simp] theorem State.leaveCcwRun_fuses (s : State) (c : Nat) (y : Ccw) (p : Nat) : (s.leaveCcwRun c y p).fuses = s.fuses := by
  unfold State.leaveCcwRun
  dsimp only
  split
  · split <;> simp
  · simp

@[simp] theorem State.leaveCcwStep_keepsFuses (s : State) (c : Nat) : KeepsFuses s (s.leaveCcwStep c) := by
  unfold State.leaveCcwStep
  split
  · split <;> simp
  · simp

@[simp] theorem execLeaveCcw_keepsFuses (c : Nat) (s : State) (link : LinkResult) : KeepsFuses s (execLeaveCcw c s link) := by simp [execLeaveCcw]
@[simp] theorem execDeadlineMiss_keepsFuses (c : Nat) (s : State) : KeepsFuses s (execDeadlineMiss c s) := by simp [execDeadlineMiss]

@[simp] theorem execLateBusError_keepsFuses (c reason : Nat) (s : State) : KeepsFuses s (execLateBusError c reason s) := by
  unfold execLateBusError
  dsimp only
  split <;> simp

/-! ### Suspension, resumption, issue and migration (Contexts.lean) -/

@[simp] theorem State.suspendDueSet_fuses (s : State) (c cause : Nat) : (s.suspendDueSet c cause).fuses = s.fuses := by simp [State.suspendDueSet]

@[simp] theorem State.moveCtx_fuses (s : State) (c : Nat) : (s.moveCtx c).fuses = s.fuses := by
  unfold State.moveCtx
  dsimp only
  split <;> simp

@[simp] theorem State.suspendOp_fuses (s : State) (c : Nat) : (s.suspendOp c).fuses = s.fuses := by simp [State.suspendOp]

@[simp] theorem State.headerAgain_fuses (s : State) (c : Nat) : (s.headerAgain c).fuses = s.fuses := by
  unfold State.headerAgain
  grind [State.progRead_fuses, State.bindFail_fuses, State.modCtx_fuses]

@[simp] theorem State.progressAgain_fuses (s : State) (c : Nat) : (s.progressAgain c).fuses = s.fuses := by
  unfold State.progressAgain
  dsimp only
  split
  · rfl
  split <;> rename_i h1
  · simp [fuses_of_pair h1]
  split <;> rename_i h2
  · simp [fuses_of_pair h2, fuses_of_pair h1]
  split <;> rename_i h3 <;> simp [fuses_of_pair h3, fuses_of_pair h2, fuses_of_pair h1]

@[simp] theorem State.refetch_fuses (s : State) (c : Nat) : (s.refetch c).fuses = s.fuses := by simp [State.refetch]
@[simp] theorem State.resumeNow_fuses (s0 : State) (c : Nat) (pass : Bool) : (s0.resumeNow c pass).fuses = s0.fuses := by simp [State.resumeNow]

@[simp] theorem State.resumeWithdrawn_fuses (s : State) (c : Nat) : (s.resumeWithdrawn c).fuses = s.fuses := by
  unfold State.resumeWithdrawn
  dsimp only
  split <;> simp

@[simp] theorem State.resumeOp_fuses (s : State) (c : Nat) (command : Bool) : (s.resumeOp c command).fuses = s.fuses := by
  unfold State.resumeOp
  dsimp only
  split_ifs
  · rfl
  all_goals split <;> simp

@[simp] theorem State.haltOp_fuses (s : State) (c : Nat) : (s.haltOp c).fuses = s.fuses := by simp [State.haltOp]
@[simp] theorem State.attWithdrawn_fuses (s : State) (a : Nat) : (s.attWithdrawn a).fuses = s.fuses := by simp [State.attWithdrawn]
@[simp] theorem State.readyAgain_fuses (s : State) (c : Nat) : (s.readyAgain c).fuses = s.fuses := by simp [State.readyAgain]
@[simp] theorem State.statusPlaced_fuses (s : State) (c : Nat) : (s.statusPlaced c).fuses = s.fuses := by simp [State.statusPlaced]

@[simp] theorem execWaitEnd_keepsFuses (c : Nat) (s : State) : KeepsFuses s (execWaitEnd c s) := by
  unfold execWaitEnd
  dsimp only
  split
  · split
    · simp
    · split <;> simp
  · simp

@[simp] theorem State.recordError_fuses (s : State) (c word : Nat) : (s.recordError c word).fuses = s.fuses := by
  unfold State.recordError
  dsimp only
  split <;> simp

@[simp] theorem execIssueSlotFree_keepsFuses (h : Nat) (s : State) : KeepsFuses s (execIssueSlotFree h s) := by
  unfold execIssueSlotFree
  split
  · simp
  · split
    · split <;> simp
    · split
      · split <;> simp
      · simp

@[simp] theorem State.slotLost_fuses (s : State) (c : Nat) : (s.slotLost c).fuses = s.fuses := by simp [State.slotLost]

@[simp] theorem execPreemption_keepsFuses (h : Nat) (s : State) : KeepsFuses s (execPreemption h s) := by
  unfold execPreemption
  split <;> simp

@[simp] theorem execQuantumEnd_keepsFuses (c : Nat) (s : State) : KeepsFuses s (execQuantumEnd c s) := by simp [execQuantumEnd]
@[simp] theorem execLockWaitTimeout_keepsFuses (c : Nat) (s : State) : KeepsFuses s (execLockWaitTimeout c s) := by simp [execLockWaitTimeout]
@[simp] theorem State.migrateCtx_fuses (s : State) (c : Nat) : (s.migrateCtx c).fuses = s.fuses := by simp [State.migrateCtx]
@[simp] theorem execCheckerMismatch_keepsFuses (h : Nat) (s : State) : KeepsFuses s (execCheckerMismatch h s) := by simp [execCheckerMismatch]

@[simp] theorem State.actMigrate_fuses (s : State) (c : Nat) : (s.actMigrate c).fuses = s.fuses := by
  unfold State.actMigrate
  split
  · split <;> simp
  · simp

@[simp] theorem execMigratingPlaced_keepsFuses (c : Nat) (s : State) : KeepsFuses s (execMigratingPlaced c s) := by simp [execMigratingPlaced]

@[simp] theorem State.residentPlace_fuses (s : State) (w : World) (e : ResidentEntry) (lst : Nat) (again : Bool)
    (f : State → Nat → Nat → State) (h : ∀ t k i, (f t k i).fuses = t.fuses) : (s.residentPlace w e lst again f).fuses = s.fuses := by
  unfold State.residentPlace
  dsimp only
  split <;> simp [h]

@[simp] theorem State.bindResident_fuses (s : State) (w : World) (e : ResidentEntry) (again : Bool) : (s.bindResident w e again).fuses = s.fuses := by
  simp [State.bindResident]

/-! ### The mailboxes (Mailbox.lean) -/

@[simp] theorem State.mbHost_fuses (s : State) (fn : World) (m off : Nat) (k : State → State) (h : ∀ t, (k t).fuses = t.fuses) :
    (s.mbHost fn m off k).fuses = s.fuses := by
  simp [State.mbHost, h]

@[simp] theorem State.mbDbWrite_fuses (s : State) (fn : World) (m v : Nat) : (s.mbDbWrite fn m v).fuses = s.fuses := by
  simp -implicitDefEqProofs [State.mbDbWrite]

@[simp] theorem execMbRequest_keepsFuses (fn : World) (m : Nat) (v : W32) (s : State) : KeepsFuses s (execMbRequest fn m v s) := by
  simp [execMbRequest]

@[simp] theorem State.mbDeliver_fuses (s : State) (m code b : Nat) (reply : List (Nat × W64)) : (s.mbDeliver m code b reply).fuses = s.fuses :=
  (congrArg State.fuses (State.mbDeliver_frame s m code b reply) :)

@[simp] theorem State.mbAck_fuses (s : State) (m code b : Nat) (reply : List (Nat × W64)) : (s.mbAck m code b reply).fuses = s.fuses := by
  simp [State.mbAck]

@[simp] theorem execMbAcknowledge_keepsFuses (m : Nat) (code : BitVec 16) (bit : Nat) (reply : List (Nat × W64)) (s : State) :
    KeepsFuses s (execMbAcknowledge m code bit reply s) := by simp [execMbAcknowledge]

@[simp] theorem State.mbAckWrite_fuses (s : State) (fn : World) (m v : Nat) : (s.mbAckWrite fn m v).fuses = s.fuses := by
  refine State.mbHost_fuses _ _ _ _ _ fun t => ?_
  split
  · split <;> simp
  · rfl

@[simp] theorem execMbAckClear_keepsFuses (fn : World) (m : Nat) (v : W32) (s : State) : KeepsFuses s (execMbAckClear fn m v s) := by
  simp [execMbAckClear]

@[simp] theorem State.mbNoteSet_fuses (s : State) (m v : Nat) : (s.mbNoteSet m v).fuses = s.fuses := by
  unfold State.mbNoteSet
  split <;> simp

@[simp] theorem execMbNote_keepsFuses (m : Nat) (bits : BitVec 16) (s : State) : KeepsFuses s (execMbNote m bits s) := by simp [execMbNote]

@[simp] theorem State.mbMsgSet_fuses (s : State) (fn : World) (m i : Nat) (v : W64) : (s.mbMsgSet fn m i v).fuses = s.fuses := by
  simp -implicitDefEqProofs [State.mbMsgSet]

@[simp] theorem execMbMsgWrite_keepsFuses (fn : World) (m i : Nat) (v : W64) (s : State) : KeepsFuses s (execMbMsgWrite fn m i v s) := by
  simp [execMbMsgWrite]

@[simp] theorem State.mbWrite_fuses (s : State) (fn : World) (off : Nat) (v : W32) : (s.mbWrite fn off v).fuses = s.fuses := by
  unfold State.mbWrite
  split <;> simp -implicitDefEqProofs

@[simp] theorem State.mbPartnerFault_fuses (s : State) (m off n : Nat) : (s.mbPartnerFault m off n).fuses = s.fuses := by simp [State.mbPartnerFault]

@[simp] theorem State.mbPartnerWord_fuses (s : State) (m off v : Nat) : (s.mbPartnerWord m off v).fuses = s.fuses := by
  unfold State.mbPartnerWord
  split <;> simp

@[simp] theorem State.mbPartnerLong_fuses (s : State) (m off v : Nat) : (s.mbPartnerLong m off v).fuses = s.fuses := by simp [State.mbPartnerLong]

@[simp] theorem State.mbPartnerWrite_fuses (s : State) (m off : Nat) (data : List Byte) : (s.mbPartnerWrite m off data).fuses = s.fuses := by
  simp [State.mbPartnerWrite]

/-! ### Exceptions, gates and the retirement of an instruction (Exceptions.lean) -/

@[simp] theorem State.vectorRead_fuses (s : State) (w : World) (code : Nat) : (s.vectorRead w code).2.fuses = s.fuses := by simp [State.vectorRead]

@[simp] theorem State.contextError_fuses (s : State) (c unit : Nat) : (s.contextError c unit).fuses = s.fuses := by
  unfold State.contextError
  split <;> simp

@[simp] theorem State.nestedFault_fuses (s : State) (c code : Nat) : (s.nestedFault c code).fuses = s.fuses := by simp [State.nestedFault]
@[simp] theorem State.excNote_fuses (s : State) (c : Nat) (e : Exc) : (s.excNote c e).fuses = s.fuses := by simp [State.excNote]

@[simp] theorem State.toVector_fuses (s : State) (c : Nat) (e : Exc) (super : Bool) (x : Ctx) : (s.toVector c e super x).fuses = s.fuses := by
  unfold State.toVector
  dsimp only
  split <;> simp

@[simp] theorem State.takeExc_fuses (s : State) (c : Nat) (e : Exc) (pc : W64) (ds : Bool) : (s.takeExc c e pc ds).fuses = s.fuses := by
  simp [State.takeExc]

@[simp] theorem State.asyncTake_fuses (s : State) (c : Nat) : (s.asyncTake c).fuses = s.fuses := by
  unfold State.asyncTake
  split <;> simp

@[simp] theorem execAsyncBusError_keepsFuses (c : Nat) (s : State) : KeepsFuses s (execAsyncBusError c s) := by simp [execAsyncBusError]

@[simp] theorem State.fetchExc_fuses (s : State) (c a : Nat) : (s.fetchExc c a).2.fuses = s.fuses := by
  unfold State.fetchExc
  split <;> simp

@[simp] theorem State.afterRetire_fuses (s : State) (c : Nat) : (s.afterRetire c).fuses = s.fuses := by simp [State.afterRetire]

@[simp] theorem State.raise_fuses (s : State) (c : Nat) (e : Exc) (pc : W64) (ds : Bool) : (s.raise c e pc ds).fuses = s.fuses := by
  simp [State.raise]

@[simp] theorem blockExc_fuses (c done : Nat) (e : Exc) (s : State) : (blockExc c done e s).state.fuses = s.fuses := by simp [blockExc]
@[simp] theorem State.enterWait_fuses (s : State) (c : Nat) (w : Wait) : (s.enterWait c w).fuses = s.fuses := by simp [State.enterWait]

@[simp] theorem State.instr_fuses (s : State) (c : Nat) (p : Place1) (f : State → Ctx → IStep) (h : ∀ t x, (f t x).state.fuses = t.fuses) :
    (s.instr c p f).fuses = s.fuses := by
  unfold State.instr
  extract_lets x a at1 ds
  split
  · rfl
  split
  · simp
  split <;> rename_i s1 hf
  · simp [fuses_of_pair hf]
  · split
    · simp [fuses_of_pair hf]
    · have hi := (h s1 x).trans (fuses_of_pair hf)
      split <;> rename_i hs <;> rw [hs] at hi <;> simpa using hi

@[simp] theorem State.asyncAt_fuses (s : State) (c : Nat) : (s.asyncAt c).2.fuses = s.fuses := by
  unfold State.asyncAt
  split <;> simp

@[simp] theorem State.crossGate_fuses (s : State) (c n entry : Nat) : (s.crossGate c n entry).state.fuses = s.fuses := by
  unfold State.crossGate
  split <;> rename_i h
  · simp [fuses_of_pair h]
  · dsimp only
    split <;> simp [fuses_of_pair h]

@[simp] theorem State.trap_fuses (s : State) (c n : Nat) : (s.trap c n).state.fuses = s.fuses := by simp [State.trap]

@[simp] theorem State.visitReturn_fuses (s : State) (c : Nat) (v : Visit) : (s.visitReturn c v).state.fuses = s.fuses := by
  unfold State.visitReturn
  split <;> rename_i h1
  · simp [fuses_of_pair h1]
  split <;> simp [fuses_of_triple ‹_›, fuses_of_pair h1]

@[simp] theorem retxLoad_fuses (v : SaveSet) (s : State) (c : Nat) : (retxLoad v s c).state.fuses = s.fuses := by simp [retxLoad]
@[simp] theorem State.endContext_fuses (s : State) (c code : Nat) : (s.endContext c code).fuses = s.fuses := by simp [State.endContext]

@[simp] theorem State.retx_fuses (s : State) (c : Nat) : (s.retx c).state.fuses = s.fuses := by
  unfold State.retx
  dsimp only
  split
  · simp
  · split
    · simp
    · split
      · simp
      · split
        · simp
        · split <;> simp

/-! ### The operand forms of instructions (Operands.lean) -/

@[simp] theorem retireW_fuses (s : State) (rd : Reg) (v : W64) : (retireW s rd v).state.fuses = s.fuses := by simp [retireW]
@[simp] theorem retireD_fuses (s : State) (rd : Reg) (v : W64) : (retireD s rd v).state.fuses = s.fuses := by simp [retireD]

@[simp] theorem legal_fuses (ok : Bool) (s : State) (k : IStep) (h : k.state.fuses = s.fuses) : (legal ok s k).state.fuses = s.fuses := by
  simp [legal, h]

@[simp] theorem arithStep_fuses (s : State) (x : Ctx) (rd : Reg) (r : Arith) : (arithStep s x rd r).state.fuses = s.fuses := by simp [arithStep]

@[simp] theorem State.hReadPart_fuses (s : State) (c a n : Nat) : (s.hReadPart c a n).2.2.fuses = s.fuses := by
  unfold State.hReadPart
  split
  · dsimp only
    split <;> simp
  · dsimp only
    split <;> simp

@[simp] theorem State.hReadParts_fuses (c : Nat) (l : List (Nat × Nat)) (s : State) : (State.hReadParts c l s).2.2.fuses = s.fuses := by
  induction l generalizing s with
  | nil => rfl
  | cons p l ih =>
    unfold State.hReadParts
    split <;> simp [ih, fuses_of_triple ‹_›]

@[simp] theorem State.hRead_fuses (s : State) (c a n : Nat) : (s.hRead c a n).2.2.fuses = s.fuses := by simp [State.hRead]

@[simp] theorem State.hWritePart_fuses (s : State) (c a : Nat) (data : List Byte) : (s.hWritePart c a data).fuses = s.fuses := by
  unfold State.hWritePart
  dsimp only
  split <;> simp

@[simp] theorem State.hWrite_fuses (s : State) (c a : Nat) (data : List Byte) : (s.hWrite c a data).fuses = s.fuses := by simp [State.hWrite]

@[simp] theorem loadStep_fuses (f : FmtM) (c size : Nat) (sx : Bool) (s : State) (x : Ctx) : (loadStep f c size sx s x).state.fuses = s.fuses := by
  unfold loadStep
  split
  · rfl
  split
  · rfl
  split
  · simp
  · split <;> simp [fuses_of_triple ‹_›]

@[simp] theorem storeStep_fuses (f : FmtM) (c size : Nat) (s : State) (x : Ctx) : (storeStep f c size s x).state.fuses = s.fuses := by
  unfold storeStep
  split
  · rfl
  split
  · rfl
  split <;> simp

@[simp] theorem withPort_fuses (s : State) (x : Ctx) (r : Reg) (k : Nat → Option Nat → IStep) (h : ∀ a t, (k a t).state.fuses = s.fuses) :
    (withPort s x r k).state.fuses = s.fuses := by
  unfold withPort
  split
  · rfl
  · exact h _ _

@[simp] theorem withDrive_fuses (s : State) (x : Ctx) (r : Reg) (k : Nat → IStep) (h : ∀ n, (k n).state.fuses = s.fuses) :
    (withDrive s x r k).state.fuses = s.fuses := by
  simp [withDrive, h]

/-! ### Loads, stores and block instructions (Mem.lean) -/

@[simp] theorem execLdb_keepsFuses (c : Nat) (f : FmtM) (s : State) (link : LinkResult) : KeepsFuses s (execLdb c f s link) := by simp [execLdb]
@[simp] theorem execLdh_keepsFuses (c : Nat) (f : FmtM) (s : State) (link : LinkResult) : KeepsFuses s (execLdh c f s link) := by simp [execLdh]
@[simp] theorem execLdw_keepsFuses (c : Nat) (f : FmtM) (s : State) (link : LinkResult) : KeepsFuses s (execLdw c f s link) := by simp [execLdw]
@[simp] theorem execLdd_keepsFuses (c : Nat) (f : FmtM) (s : State) (link : LinkResult) : KeepsFuses s (execLdd c f s link) := by simp [execLdd]
@[simp] theorem execLdbs_keepsFuses (c : Nat) (f : FmtM) (s : State) (link : LinkResult) : KeepsFuses s (execLdbs c f s link) := by simp [execLdbs]
@[simp] theorem execLdhs_keepsFuses (c : Nat) (f : FmtM) (s : State) (link : LinkResult) : KeepsFuses s (execLdhs c f s link) := by simp [execLdhs]
@[simp] theorem execLdws_keepsFuses (c : Nat) (f : FmtM) (s : State) (link : LinkResult) : KeepsFuses s (execLdws c f s link) := by simp [execLdws]
@[simp] theorem execStb_keepsFuses (c : Nat) (f : FmtM) (s : State) : KeepsFuses s (execStb c f s) := by simp [execStb]
@[simp] theorem execSth_keepsFuses (c : Nat) (f : FmtM) (s : State) : KeepsFuses s (execSth c f s) := by simp [execSth]
@[simp] theorem execStw_keepsFuses (c : Nat) (f : FmtM) (s : State) : KeepsFuses s (execStw c f s) := by simp [execStw]
@[simp] theorem execStd_keepsFuses (c : Nat) (f : FmtM) (s : State) : KeepsFuses s (execStd c f s) := by simp [execStd]

@[simp] theorem execLea_keepsFuses (c : Nat) (f : FmtM) (s : State) : KeepsFuses s (execLea c f s) := by
  refine keepsFuses_next.mpr (State.instr_fuses _ _ _ _ fun t x => ?_)
  split
  · rfl
  · split <;> simp

@[simp] theorem execFence_keepsFuses (c : Nat) (f : FmtA) (s : State) : KeepsFuses s (execFence c f s) := by
  refine keepsFuses_next.mpr (State.instr_fuses _ _ _ _ fun t x => legal_fuses _ _ _ ?_)
  split <;> simp [fuses_of_pair ‹_›]

@[simp] theorem movbRun_fuses (f : FmtA) (c fuel done : Nat) (s : State) : (movbRun f c fuel done s).state.fuses = s.fuses := by
  induction fuel generalizing done s with
  | zero =>
    unfold movbRun
    simp
  | succ fuel ih =>
    unfold movbRun
    dsimp only
    split
    · rfl
    · split <;> try simp
      split <;> simp [ih, fuses_of_triple ‹_›]

@[simp] theorem execMovb_keepsFuses (c : Nat) (f : FmtA) (limit : Nat) (s : State) (link : LinkResult) :
    KeepsFuses s (execMovb c f limit s link) := by simp [execMovb]

@[simp] theorem fillbRun_fuses (f : FmtA) (c fuel done : Nat) (s : State) : (fillbRun f c fuel done s).state.fuses = s.fuses := by
  induction fuel generalizing done s with
  | zero =>
    unfold fillbRun
    simp
  | succ fuel ih =>
    unfold fillbRun
    dsimp only
    split
    · rfl
    · split <;> simp [ih]

@[simp] theorem execFillb_keepsFuses (c : Nat) (f : FmtA) (limit : Nat) (s : State) : KeepsFuses s (execFillb c f limit s) := by simp [execFillb]

/-! ### Branches, loops and system instructions (Flow.lean) -/

@[simp] theorem branchTo_fuses (t : State) (w : List (Reg × W64)) (to1 : W64) : (branchTo t w to1).state.fuses = t.fuses := by simp [branchTo]
@[simp] theorem execBz_keepsFuses (c : Nat) (ra : Reg) (disp : BitVec 21) (s : State) : KeepsFuses s (execBz c ra disp s) := by simp [execBz]
@[simp] theorem execBnz_keepsFuses (c : Nat) (ra : Reg) (disp : BitVec 21) (s : State) : KeepsFuses s (execBnz c ra disp s) := by simp [execBnz]
@[simp] theorem execBr_keepsFuses (c : Nat) (disp : BitVec 26) (s : State) : KeepsFuses s (execBr c disp s) := by simp [execBr]
@[simp] theorem execCall_keepsFuses (c : Nat) (disp : BitVec 26) (s : State) : KeepsFuses s (execCall c disp s) := by simp [execCall]
@[simp] theorem jumpTo_fuses (t : State) (w : List (Reg × W64)) (a : W64) : (jumpTo t w a).state.fuses = t.fuses := by simp [jumpTo]
@[simp] theorem execJr_keepsFuses (c : Nat) (f : FmtA) (s : State) : KeepsFuses s (execJr c f s) := by simp [execJr]
@[simp] theorem execJalr_keepsFuses (c : Nat) (f : FmtA) (s : State) : KeepsFuses s (execJalr c f s) := by simp [execJalr]

@[simp] theorem loopStart_fuses (t : State) (c : Nat) (x : Ctx) (count len : Nat) : (loopStart t c x count len).state.fuses = t.fuses := by
  simp [loopStart]

@[simp] theorem execLoop_keepsFuses (c : Nat) (rsv ra : Reg) (len : BitVec 16) (s : State) : KeepsFuses s (execLoop c rsv ra len s) := by
  simp [execLoop]

@[simp] theorem execLoopi_keepsFuses (c : Nat) (count : BitVec 10) (len : BitVec 16) (s : State) : KeepsFuses s (execLoopi c count len s) := by
  simp [execLoopi]

@[simp] theorem execRep_keepsFuses (c : Nat) (rsv : BitVec 26) (s : State) : KeepsFuses s (execRep c rsv s) := by
  refine keepsFuses_next.mpr (State.instr_fuses _ _ _ _ fun t x => legal_fuses _ _ _ ?_)
  split <;> simp [fuses_of_pair ‹_›]

@[simp] theorem execMfc_keepsFuses (c : Nat) (f : FmtA) (s : State) : KeepsFuses s (execMfc c f s) := by simp [execMfc]

@[simp] theorem mtcStep_fuses (t : State) (c : Nat) (x : Ctx) (n : Nat) (v : W64) (ra : Reg) : (mtcStep t c x n v ra).state.fuses = t.fuses := by
  unfold mtcStep
  split <;> simp

@[simp] theorem execMtc_keepsFuses (c : Nat) (f : FmtA) (s : State) : KeepsFuses s (execMtc c f s) := by simp [execMtc]
@[simp] theorem execRetx_keepsFuses (c : Nat) (f : FmtA) (s : State) : KeepsFuses s (execRetx c f s) := by simp [execRetx]
@[simp] theorem execTrap_keepsFuses (c : Nat) (n : BitVec 8) (rsv : BitVec 18) (s : State) : KeepsFuses s (execTrap c n rsv s) := by simp [execTrap]

@[simp] theorem execNiw_keepsFuses (c : Nat) (k : BitVec 7) (rsv : BitVec 19) (s : State) : KeepsFuses s (execNiw c k rsv s) := by
  simp -implicitDefEqProofs [execNiw]

@[simp] theorem execYield_keepsFuses (c : Nat) (f : FmtA) (s : State) : KeepsFuses s (execYield c f s) := by simp -implicitDefEqProofs [execYield]

@[simp] theorem State.lockTake_fuses (s : State) (c : Nat) (x : Ctx) (r : Reg) : (s.lockTake c x r).state.fuses = s.fuses := by
  unfold State.lockTake
  split <;> simp

@[simp] theorem execLock_keepsFuses (c : Nat) (f : FmtA) (s : State) : KeepsFuses s (execLock c f s) := by simp [execLock]

@[simp] theorem execUnlock_keepsFuses (c : Nat) (f : FmtA) (s : State) : KeepsFuses s (execUnlock c f s) := by
  refine keepsFuses_next.mpr (State.instr_fuses _ _ _ _ fun t x => legal_fuses _ _ _ ?_)
  dsimp only
  split <;> simp

/-! ### The port instructions and marks (PortIns.lean) -/

@[simp] theorem State.rxCommitAt_fuses (s : State) (c a pos : Nat) : (s.rxCommitAt c a pos).fuses = s.fuses := by simp [State.rxCommitAt]

@[simp] theorem execFrd_keepsFuses (c : Nat) (f : FmtA) (s : State) (chk : WordCheck) : KeepsFuses s (execFrd c f s chk) := by
  refine keepsFuses_next.mpr (State.instr_fuses _ _ _ _ fun t x => legal_fuses _ _ _ (withPort_fuses _ _ _ _ fun a _ => ?_))
  simp

@[simp] theorem execFopen_keepsFuses (c : Nat) (f : FmtA) (s : State) : KeepsFuses s (execFopen c f s) := by
  refine keepsFuses_next.mpr (State.instr_fuses _ _ _ _ fun t x => legal_fuses _ _ _ (withPort_fuses _ _ _ _ fun a _ => ?_))
  simp

@[simp] theorem execFput_keepsFuses (c : Nat) (f : FmtA) (s : State) : KeepsFuses s (execFput c f s) := by
  refine keepsFuses_next.mpr (State.instr_fuses _ _ _ _ fun t x => legal_fuses _ _ _ (withPort_fuses _ _ _ _ fun a _ => ?_))
  simp

@[simp] theorem execFclose_keepsFuses (c : Nat) (f : FmtA) (s : State) : KeepsFuses s (execFclose c f s) := by
  refine keepsFuses_next.mpr (State.instr_fuses _ _ _ _ fun t x => legal_fuses _ _ _ (withPort_fuses _ _ _ _ fun a _ => ?_))
  simp

@[simp] theorem State.setRxMark_fuses (s : State) (c a : Nat) : (s.setRxMark c a).fuses = s.fuses := by simp [State.setRxMark]
@[simp] theorem State.releaseRxMark_fuses (s : State) (c a : Nat) : (s.releaseRxMark c a).fuses = s.fuses := by simp [State.releaseRxMark]
@[simp] theorem State.rewindRxMark_fuses (s : State) (c a : Nat) : (s.rewindRxMark c a).fuses = s.fuses := by simp [State.rewindRxMark]
@[simp] theorem State.setTxMark_fuses (s : State) (c a : Nat) : (s.setTxMark c a).fuses = s.fuses := by simp [State.setTxMark]
@[simp] theorem State.releaseTxMark_fuses (s : State) (c a : Nat) : (s.releaseTxMark c a).fuses = s.fuses := by simp [State.releaseTxMark]

@[simp] theorem State.fmk_fuses (s : State) (c op : Nat) (rd ra rb : Reg) (g : State → Nat → State) (h : ∀ t a, (g t a).fuses = t.fuses) :
    (s.fmk c op rd ra rb g).fuses = s.fuses := by
  unfold State.fmk
  dsimp only
  split
  · rfl
  · refine State.instr_fuses _ _ _ _ fun t x => legal_fuses _ _ _ ?_
    simp [h]

@[simp] theorem State.markOp_fuses (s : State) (c op : Nat) (via : MarkVia) (g : State → Nat → State) (h : ∀ t a, (g t a).fuses = t.fuses) :
    (s.markOp c op via g).fuses = s.fuses := by
  cases via <;> simp [State.markOp, h]

@[simp] theorem execSetRx_keepsFuses (c : Nat) (via : MarkVia) (s : State) : KeepsFuses s (execSetRx c via s) := by simp [execSetRx]
@[simp] theorem execSetTx_keepsFuses (c : Nat) (via : MarkVia) (s : State) : KeepsFuses s (execSetTx c via s) := by simp [execSetTx]
@[simp] theorem execReleaseRx_keepsFuses (c : Nat) (via : MarkVia) (s : State) : KeepsFuses s (execReleaseRx c via s) := by simp [execReleaseRx]
@[simp] theorem execReleaseTx_keepsFuses (c : Nat) (via : MarkVia) (s : State) : KeepsFuses s (execReleaseTx c via s) := by simp [execReleaseTx]
@[simp] theorem execRewindRx_keepsFuses (c : Nat) (via : MarkVia) (s : State) : KeepsFuses s (execRewindRx c via s) := by simp [execRewindRx]
@[simp] theorem execRewindTx_keepsFuses (c : Nat) (f : FmtA) (s : State) : KeepsFuses s (execRewindTx c f s) := by simp [execRewindTx]

@[simp] theorem execPstat_keepsFuses (c : Nat) (f : FmtA) (s : State) : KeepsFuses s (execPstat c f s) := by
  refine keepsFuses_next.mpr (State.instr_fuses _ _ _ _ fun t x => legal_fuses _ _ _ (withPort_fuses _ _ _ _ fun a _ => ?_))
  simp

@[simp] theorem State.outputCommit_fuses (s : State) (c a code : Nat) : (s.outputCommit c a code).fuses = s.fuses := by simp [State.outputCommit]
@[simp] theorem State.pcmd_fuses (s : State) (c code : Nat) (f : FmtA) : (s.pcmd c code f).fuses = s.fuses := by simp [State.pcmd]
@[simp] theorem execUsbCtrl_keepsFuses (c : Nat) (f : FmtA) (s : State) : KeepsFuses s (execUsbCtrl c f s) := by simp [execUsbCtrl]
@[simp] theorem execUsbIn_keepsFuses (c : Nat) (f : FmtA) (s : State) : KeepsFuses s (execUsbIn c f s) := by simp [execUsbIn]
@[simp] theorem execUsbOut_keepsFuses (c : Nat) (f : FmtA) (s : State) : KeepsFuses s (execUsbOut c f s) := by simp [execUsbOut]
@[simp] theorem execUsbOutZlp_keepsFuses (c : Nat) (f : FmtA) (s : State) : KeepsFuses s (execUsbOutZlp c f s) := by simp [execUsbOutZlp]
@[simp] theorem execUsbIntPoll_keepsFuses (c : Nat) (f : FmtA) (s : State) : KeepsFuses s (execUsbIntPoll c f s) := by simp [execUsbIntPoll]
@[simp] theorem execUsbClearHalt_keepsFuses (c : Nat) (f : FmtA) (s : State) : KeepsFuses s (execUsbClearHalt c f s) := by simp [execUsbClearHalt]
@[simp] theorem execUsbAbort_keepsFuses (c : Nat) (f : FmtA) (s : State) : KeepsFuses s (execUsbAbort c f s) := by simp [execUsbAbort]
@[simp] theorem execUartBreak_keepsFuses (c : Nat) (f : FmtA) (s : State) : KeepsFuses s (execUartBreak c f s) := by simp [execUartBreak]
@[simp] theorem execUartLine_keepsFuses (c : Nat) (f : FmtA) (s : State) : KeepsFuses s (execUartLine c f s) := by simp [execUartLine]
@[simp] theorem execUartRts_keepsFuses (c : Nat) (f : FmtA) (s : State) : KeepsFuses s (execUartRts c f s) := by simp [execUartRts]
@[simp] theorem execUartClose_keepsFuses (c : Nat) (f : FmtA) (s : State) : KeepsFuses s (execUartClose c f s) := by simp [execUartClose]
@[simp] theorem execSpiXfer_keepsFuses (c : Nat) (f : FmtA) (s : State) : KeepsFuses s (execSpiXfer c f s) := by simp [execSpiXfer]
@[simp] theorem execSpiRead_keepsFuses (c : Nat) (f : FmtA) (s : State) : KeepsFuses s (execSpiRead c f s) := by simp [execSpiRead]
@[simp] theorem execI2cWrite_keepsFuses (c : Nat) (f : FmtA) (s : State) : KeepsFuses s (execI2cWrite c f s) := by simp [execI2cWrite]
@[simp] theorem execI2cRead_keepsFuses (c : Nat) (f : FmtA) (s : State) : KeepsFuses s (execI2cRead c f s) := by simp [execI2cRead]
@[simp] theorem execI2cWriteRead_keepsFuses (c : Nat) (f : FmtA) (s : State) : KeepsFuses s (execI2cWriteRead c f s) := by simp [execI2cWriteRead]
@[simp] theorem execI2cGpio_keepsFuses (c : Nat) (f : FmtA) (s : State) : KeepsFuses s (execI2cGpio c f s) := by simp [execI2cGpio]
@[simp] theorem execGpioSet_keepsFuses (c : Nat) (f : FmtA) (s : State) : KeepsFuses s (execGpioSet c f s) := by simp [execGpioSet]
@[simp] theorem execGpioPulse_keepsFuses (c : Nat) (f : FmtA) (s : State) : KeepsFuses s (execGpioPulse c f s) := by simp [execGpioPulse]
@[simp] theorem execGpioBlink_keepsFuses (c : Nat) (f : FmtA) (s : State) : KeepsFuses s (execGpioBlink c f s) := by simp [execGpioBlink]

@[simp] theorem State.latchOpen_fuses (s : State) (c a : Nat) : (s.latchOpen c a).fuses = s.fuses := by
  unfold State.latchOpen
  split <;> simp

@[simp] theorem execWaite_keepsFuses (c : Nat) (f : FmtA) (s : State) : KeepsFuses s (execWaite c f s) := by simp [execWaite]

/-! ### The stream, drive and leave instructions (StreamIns.lean) -/

@[simp] theorem State.streamDue_fuses (s : State) (c : Nat) (e : Nat × Nat) : (s.streamDue c e).fuses = s.fuses := by simp [State.streamDue]

@[simp] theorem execXget_keepsFuses (c : Nat) (f : FmtA) (s : State) (link : LinkResult) : KeepsFuses s (execXget c f s link) := by
  refine State.onLink_keepsFuses _ _ _ fun u => keepsFuses_next.mpr (State.instr_fuses _ _ _ _ fun t x => legal_fuses _ _ _ ?_)
  dsimp only
  split
  · rfl
  split
  · rfl
  · split <;> simp [fuses_of_triple ‹_›]

@[simp] theorem execXput_keepsFuses (c : Nat) (f : FmtA) (s : State) (link : LinkResult) : KeepsFuses s (execXput c f s link) := by
  refine State.onLink_keepsFuses _ _ _ fun u => keepsFuses_next.mpr (State.instr_fuses _ _ _ _ fun t x => legal_fuses _ _ _ ?_)
  split
  · rfl
  split
  · simp
  · split <;> simp [fuses_of_triple ‹_›]

@[simp] theorem execXrem_keepsFuses (c : Nat) (f : FmtA) (s : State) : KeepsFuses s (execXrem c f s) := by simp [execXrem]

@[simp] theorem State.chanDonePst_fuses (s : State) (c : Nat) (y : Activation) : (s.chanDonePst c y).fuses = s.fuses := by
  unfold State.chanDonePst
  split
  · dsimp only
    split <;> simp
  · dsimp only
    split <;> simp

@[simp] theorem State.hendDone_fuses (s : State) (c : Nat) (y : Activation) (flags unit : Nat) :
    (s.hendDone c y flags unit).state.fuses = s.fuses := by simp [State.hendDone]

@[simp] theorem execHend_keepsFuses (c : Nat) (f : FmtA) (s : State) (link : LinkResult) : KeepsFuses s (execHend c f s link) := by
  refine State.onLink_keepsFuses _ _ _ fun u => keepsFuses_next.mpr (State.instr_fuses _ _ _ _ fun t x => legal_fuses _ _ _ ?_)
  split
  · rfl
  · split <;> simp

@[simp] theorem execDrd_keepsFuses (c : Nat) (f : FmtA) (item : BitVec 8) (s : State) : KeepsFuses s (execDrd c f item s) := by
  refine keepsFuses_next.mpr (State.instr_fuses _ _ _ _ fun t x => legal_fuses _ _ _ (withDrive_fuses _ _ _ _ fun n => ?_))
  split <;> simp

@[simp] theorem State.dwr_fuses (s : State) (c item : Nat) (f : FmtA) : (s.dwr c item f).fuses = s.fuses := by
  refine State.instr_fuses _ _ _ _ fun t x => withDrive_fuses _ _ _ _ fun n => ?_
  split
  · simp [fuses_of_pair ‹_›]
  extract_lets v
  split
  · rfl
  split
  · rfl
  split
  · rfl
  · split <;> simp [fuses_of_pair ‹_›]

@[simp] theorem execRun_keepsFuses (c : Nat) (f : FmtA) (s : State) : KeepsFuses s (execRun c f s) := by simp [execRun]
@[simp] theorem execDutyA_keepsFuses (c : Nat) (f : FmtA) (s : State) : KeepsFuses s (execDutyA c f s) := by simp [execDutyA]
@[simp] theorem execDutyB_keepsFuses (c : Nat) (f : FmtA) (s : State) : KeepsFuses s (execDutyB c f s) := by simp [execDutyB]
@[simp] theorem execBurst_keepsFuses (c : Nat) (f : FmtA) (s : State) : KeepsFuses s (execBurst c f s) := by simp [execBurst]
@[simp] theorem execPwmFreq_keepsFuses (c : Nat) (f : FmtA) (s : State) : KeepsFuses s (execPwmFreq c f s) := by simp [execPwmFreq]
@[simp] theorem execDir_keepsFuses (c : Nat) (f : FmtA) (s : State) : KeepsFuses s (execDir c f s) := by simp [execDir]
@[simp] theorem execIlim_keepsFuses (c : Nat) (f : FmtA) (s : State) : KeepsFuses s (execIlim c f s) := by simp [execIlim]
@[simp] theorem execSafeReq_keepsFuses (c : Nat) (f : FmtA) (s : State) : KeepsFuses s (execSafeReq c f s) := by simp [execSafeReq]
@[simp] theorem execFaultClear_keepsFuses (c : Nat) (f : FmtA) (s : State) : KeepsFuses s (execFaultClear c f s) := by simp [execFaultClear]
@[simp] theorem execEncCmp_keepsFuses (c : Nat) (f : FmtA) (s : State) : KeepsFuses s (execEncCmp c f s) := by simp [execEncCmp]
@[simp] theorem execEncZero_keepsFuses (c : Nat) (f : FmtA) (s : State) : KeepsFuses s (execEncZero c f s) := by simp [execEncZero]

@[simp] theorem State.leaveBlock_fuses (s : State) (c : Nat) (x : Ctx) (f : FmtA) (d : List Byte) :
    (s.leaveBlock c x f d).state.fuses = s.fuses := by
  unfold State.leaveBlock
  extract_lets amount plant cls n est dl bad lst ask
  have hask : ∀ q, (ask q).state.fuses = s.fuses := by
    intro q
    dsimp only [ask]
    split <;> simp [fuses_of_pair ‹_›]
  split
  · rfl
  split
  · exact hask _
  split
  · split_ifs
    · simp
    · simp
    · exact hask _
  · rfl

@[simp] theorem execLeaveInstr_keepsFuses (c : Nat) (f : FmtA) (s : State) (link : LinkResult) : KeepsFuses s (execLeaveInstr c f s link) := by
  refine State.onLink_keepsFuses _ _ _ fun u => keepsFuses_next.mpr (State.instr_fuses _ _ _ _ fun t x => legal_fuses _ _ _ ?_)
  dsimp only
  split
  · simp
  · simp
  split
  · rfl
  split
  · simp
  · split <;> simp [fuses_of_triple ‹_›]

/-! ### The coprocessors (Coproc.lean) -/

@[simp] theorem execCrc_keepsFuses (c : Nat) (f : FmtA) (alg : BitVec 4) (size : BitVec 2) (rsv : BitVec 4) (s : State) :
    KeepsFuses s (execCrc c f alg size rsv s) := by
  refine keepsFuses_next.mpr (State.instr_fuses _ _ _ _ fun t x => legal_fuses _ _ _ ?_)
  split <;> simp

@[simp] theorem crcbRun_fuses (f : FmtA) (alg c fuel done : Nat) (s : State) : (crcbRun f alg c fuel done s).state.fuses = s.fuses := by
  induction fuel generalizing done s with
  | zero =>
    unfold crcbRun
    simp
  | succ fuel ih =>
    unfold crcbRun
    dsimp only
    split
    · rfl
    · split
      · simp
      · split <;> simp [ih, fuses_of_triple ‹_›]

@[simp] theorem execCrcb_keepsFuses (c : Nat) (f : FmtA) (alg : BitVec 4) (size : BitVec 2) (rsv : BitVec 4) (limit : Nat) (s : State)
    (link : LinkResult) : KeepsFuses s (execCrcb c f alg size rsv limit s link) := by
  refine State.onLink_keepsFuses _ _ _ fun u => keepsFuses_next.mpr (State.instr_fuses _ _ _ _ fun t x => legal_fuses _ _ _ ?_)
  simp

@[simp] theorem ctlStep_fuses (f : FmtA) (c size : Nat) (refuse : Nat × Nat × (List Byte → Bool))
    (op : List Byte → Int → Int × Nat × List Byte) (t : State) (x : Ctx) : (ctlStep f c size refuse op t x).state.fuses = t.fuses := by
  unfold ctlStep
  dsimp only
  split
  · rfl
  split
  · rfl
  split
  · simp
  split
  · simp
  split <;> simp [fuses_of_triple ‹_›]

@[simp] theorem execPi_keepsFuses (c : Nat) (f : FmtA) (s : State) (link : LinkResult) : KeepsFuses s (execPi c f s link) := by simp [execPi]
@[simp] theorem execRlim_keepsFuses (c : Nat) (f : FmtA) (s : State) (link : LinkResult) : KeepsFuses s (execRlim c f s link) := by simp [execRlim]
@[simp] theorem execFom_keepsFuses (c : Nat) (f : FmtA) (s : State) (link : LinkResult) : KeepsFuses s (execFom c f s link) := by simp [execFom]
@[simp] theorem execFlinit_keepsFuses (c : Nat) (f : FmtA) (s : State) : KeepsFuses s (execFlinit c f s) := by simp [execFlinit]

@[simp] theorem flabsRun_fuses (f : FmtA) (c fuel done : Nat) (s : State) : (flabsRun f c fuel done s).state.fuses = s.fuses := by
  induction fuel generalizing done s with
  | zero =>
    unfold flabsRun
    simp
  | succ fuel ih =>
    unfold flabsRun
    dsimp only
    split
    · rfl
    · split
      · simp
      · split <;> simp [ih, fuses_of_triple ‹_›]

@[simp] theorem execFlabs_keepsFuses (c : Nat) (f : FmtA) (limit : Nat) (s : State) (link : LinkResult) :
    KeepsFuses s (execFlabs c f limit s link) := by
  refine State.onLink_keepsFuses _ _ _ fun u => keepsFuses_next.mpr (State.instr_fuses _ _ _ _ fun t x => legal_fuses _ _ _ ?_)
  split <;> simp

@[simp] theorem execFlsqz_keepsFuses (c : Nat) (f : FmtA) (s : State) : KeepsFuses s (execFlsqz c f s) := by
  refine keepsFuses_next.mpr (State.instr_fuses _ _ _ _ fun t x => legal_fuses _ _ _ ?_)
  split <;> simp

@[simp] theorem State.flverAsk_fuses (s : State) (c : Nat) : (s.flverAsk c).state.fuses = s.fuses := by simp [State.flverAsk]

@[simp] theorem flverBlock_fuses (t : State) (c : Nat) (x : Ctx) (f : FmtA) (d : List Byte) : (flverBlock t c x f d).state.fuses = t.fuses := by
  unfold flverBlock
  dsimp only
  split
  · simp
  split
  · simp
  split <;> rename_i h1
  · simp [fuses_of_triple h1]
  split <;> rename_i h2
  · simp [fuses_of_triple h2, fuses_of_triple h1]
  split <;> rename_i h3 <;> simp [fuses_of_triple h3, fuses_of_triple h2, fuses_of_triple h1]

@[simp] theorem execFlver_keepsFuses (c : Nat) (f : FmtA) (s : State) (link : LinkResult) : KeepsFuses s (execFlver c f s link) := by
  refine State.onLink_keepsFuses _ _ _ fun u => keepsFuses_next.mpr (State.instr_fuses _ _ _ _ fun t x => legal_fuses _ _ _ ?_)
  dsimp only
  split
  · rfl
  split
  · simp
  · split <;> simp [fuses_of_triple ‹_›]

@[simp] theorem execFlend_keepsFuses (c : Nat) (f : FmtA) (s : State) : KeepsFuses s (execFlend c f s) := by simp [execFlend]

/-! ### Safe state and the attachments of lane ports (Discovery.lean) -/

@[simp] theorem State.laneEntered_fuses (s : State) (w : World) (l : Option Nat) : (s.laneEntered w l).fuses = s.fuses := by
  unfold State.laneEntered
  split <;> simp

@[simp] theorem State.laneLeft_fuses (s : State) (w : World) (l : Option Nat) : (s.laneLeft w l).fuses = s.fuses := by
  unfold State.laneLeft
  split
  · split <;> simp
  · simp

@[simp] theorem State.portMemberSafe_fuses (s : State) (n : Nat) : (s.portMemberSafe n).fuses = s.fuses := by
  unfold State.portMemberSafe
  split
  · simp
  · split <;> simp

@[simp] theorem State.portMemberRelease_fuses (s : State) (n : Nat) : (s.portMemberRelease n).fuses = s.fuses := by
  unfold State.portMemberRelease
  split
  · simp
  · split <;> simp

@[simp] theorem State.driveSafeIn_fuses (s : State) (n : Nat) : (s.driveSafeIn n).fuses = s.fuses := by
  unfold State.driveSafeIn
  split <;> simp

@[simp] theorem State.driveSafeOut_fuses (s : State) (n : Nat) : (s.driveSafeOut n).fuses = s.fuses := by
  unfold State.driveSafeOut
  split <;> simp

@[simp] theorem State.worldSafe_fuses (s : State) (w : World) : (s.worldSafe w).fuses = s.fuses := by simp [State.worldSafe]

@[simp] theorem State.laneAtt_fuses (s : State) (a i : Nat) : (s.laneAtt a i).fuses = s.fuses := by
  unfold State.laneAtt
  split <;> simp

@[simp] theorem State.attDetach_fuses (s : State) (a status : Nat) : (s.attDetach a status).fuses = s.fuses := by simp [State.attDetach]

@[simp] theorem State.detachTree_fuses (s : State) (a status k : Nat) : (s.detachTree a status k).fuses = s.fuses := by
  induction k generalizing s a with
  | zero => rfl
  | succ k ih => simp [State.detachTree, ih]

@[simp] theorem State.detachAll_fuses (s : State) (n status : Nat) : (s.detachAll n status).fuses = s.fuses := by simp [State.detachAll]
@[simp] theorem State.pinsOff_fuses (s : State) (n : Nat) : (s.pinsOff n).fuses = s.fuses := by simp [State.pinsOff]
@[simp] theorem State.portDisable_fuses (s : State) (n : Nat) : (s.portDisable n).fuses = s.fuses := by simp [State.portDisable]
@[simp] theorem execPortPhyFault_keepsFuses (port : Nat) (s : State) : KeepsFuses s (execPortPhyFault port s) := by simp [execPortPhyFault]
@[simp] theorem execOvercurrent_keepsFuses (port : Nat) (s : State) : KeepsFuses s (execOvercurrent port s) := by simp [execOvercurrent]

@[simp] theorem execOcRetryExpiry_keepsFuses (port : Nat) (s : State) : KeepsFuses s (execOcRetryExpiry port s) := by
  unfold execOcRetryExpiry
  split <;> simp

@[simp] theorem State.blockInit_fuses (s : State) (a : Nat) : (s.blockInit a).fuses = s.fuses := by
  unfold State.blockInit
  split <;> simp

@[simp] theorem State.textOut_fuses (s : State) (a : Nat) : (s.textOut a).fuses = s.fuses := by simp [State.textOut]

@[simp] theorem State.usbConfigure_fuses (s : State) (a want : Nat) : (s.usbConfigure a want).fuses = s.fuses := by
  unfold State.usbConfigure
  split <;> simp

@[simp] theorem State.attAccept_fuses (s0 : State) (a num ver : Nat) (entry : Option Nat) : (s0.attAccept a num ver entry).fuses = s0.fuses := by
  unfold State.attAccept
  dsimp only
  split <;> simp

@[simp] theorem State.probeBegin_fuses (s : State) (w : World) : (s.probeBegin w).2.fuses = s.fuses := by
  unfold State.probeBegin
  split
  · split
    · split
      · dsimp only
        split <;> simp
      · simp
    · simp
  · simp

@[simp] theorem State.probesStart_fuses (s : State) (w : World) (k : Nat) : (s.probesStart w k).fuses = s.fuses := by
  induction k generalizing s with
  | zero => rfl
  | succ k ih =>
    unfold State.probesStart
    grind [State.probeBegin_fuses]

@[simp] theorem State.probesOf_fuses (s : State) (a : Nat) : (s.probesOf a).fuses = s.fuses := by
  unfold State.probesOf
  split <;> simp

@[simp] theorem State.tryCand_fuses (s : State) (a i : Nat) : (s.tryCand a i).fuses = s.fuses := by
  unfold State.tryCand
  split
  · simp
  · split <;> simp

@[simp] theorem State.enterProbing_fuses (s : State) (a : Nat) : (s.enterProbing a).fuses = s.fuses := by simp [State.enterProbing]

@[simp] theorem execProbeEnd_keepsFuses (a : Nat) (s : State) : KeepsFuses s (execProbeEnd a s) := by
  unfold execProbeEnd
  dsimp only
  split
  · split
    · simp
    · split <;> simp
  · simp

@[simp] theorem execProbeTimeout_keepsFuses (a : Nat) (s : State) : KeepsFuses s (execProbeTimeout a s) := by
  unfold execProbeTimeout
  dsimp only
  split
  · split <;> simp
  · simp

@[simp] theorem execReprobeTimer_keepsFuses (a : Nat) (s : State) : KeepsFuses s (execReprobeTimer a s) := by simp [execReprobeTimer]

@[simp] theorem State.attRefuse_fuses (s : State) (n : Nat) (place : Option (Nat × Nat)) : (s.attRefuse n place).fuses = s.fuses := by
  simp [State.attRefuse]

@[simp] theorem State.keepRefused_fuses (s : State) (n : Nat) (keep : Option (Nat × Nat) → Bool) : (s.keepRefused n keep).fuses = s.fuses := by
  simp [State.keepRefused]

@[simp] theorem State.groupTake_fuses (s : State) (n par : Nat) (slots hps : List Nat) : (s.groupTake n par slots hps).fuses = s.fuses := by
  simp [State.groupTake]

@[simp] theorem execUsbDisconnect_keepsFuses (a : Nat) (s : State) (refused : Option Nat) : KeepsFuses s (execUsbDisconnect a s refused) := by
  unfold execUsbDisconnect
  split <;> simp

@[simp] theorem execUsbConnect_keepsFuses (port : Nat) (parent : Option (Nat × Nat)) (hub : Bool) (s : State) :
    KeepsFuses s (execUsbConnect port parent hub s) := by
  unfold execUsbConnect
  split
  · simp
  · split <;> split <;> simp

@[simp] theorem State.hubReset_fuses (s : State) (a : Nat) : (s.hubReset a).fuses = s.fuses := by simp [State.hubReset]
@[simp] theorem execDebounceStable_keepsFuses (a : Nat) (s : State) : KeepsFuses s (execDebounceStable a s) := by simp [execDebounceStable]
@[simp] theorem State.hubStart_fuses (s : State) (a : Nat) : (s.hubStart a).fuses = s.fuses := by simp [State.hubStart]
@[simp] theorem State.enumerated_fuses (s0 : State) (a : Nat) (d : Descriptors) : (s0.enumerated a d).fuses = s0.fuses := by simp [State.enumerated]

@[simp] theorem execEnumerationDone_keepsFuses (a : Nat) (d : Option Descriptors) (s : State) : KeepsFuses s (execEnumerationDone a d s) := by
  unfold execEnumerationDone
  split <;> simp

@[simp] theorem State.portEnable_fuses (s : State) (n : Nat) : (s.portEnable n).fuses = s.fuses := by simp [State.portEnable]

/-! ### Quartz and the statistics epochs (Quartz.lean) -/

@[simp] theorem State.dwRequestUnit_fuses (s : State) (u : Nat) : (s.dwRequestUnit u).fuses = s.fuses := by simp [State.dwRequestUnit]

@[simp] theorem State.cmpEvent_fuses (s : State) (u : Nat) (late : Bool) : (s.cmpEvent u late).fuses = s.fuses := by
  unfold State.cmpEvent
  split <;> split <;> simp

@[simp] theorem State.cmpMatch_fuses (s : State) (u : Nat) : (s.cmpMatch u).fuses = s.fuses := by simp [State.cmpMatch]

@[simp] theorem State.cmpApply_fuses (s : State) (ws : List (Nat × CmpWrite)) (u : Nat) : (s.cmpApply ws u).fuses = s.fuses := by
  simp [State.cmpApply]

@[simp] theorem State.advanceTo_fuses (s : State) (q : Nat) : (s.advanceTo q).fuses = s.fuses := by simp [State.advanceTo]
@[simp] theorem State.tick_fuses (s : State) : s.tick.fuses = s.fuses := by simp [State.tick]
@[simp] theorem State.cmpAccept_fuses (s : State) (u : Nat) (w : CmpWrite) : (s.cmpAccept u w).fuses = s.fuses := by simp [State.cmpAccept]

@[simp] theorem State.cmpHostWrite_fuses (s : State) (fn : World) (u off : Nat) (w : CmpWrite) : (s.cmpHostWrite fn u off w).fuses = s.fuses := by
  simp [State.cmpHostWrite]

@[simp] theorem State.cmpWriteTgt_fuses (s : State) (fn : World) (u : Nat) (v : W32) : (s.cmpWriteTgt fn u v).fuses = s.fuses := by
  simp [State.cmpWriteTgt]

@[simp] theorem State.cmpWriteInt_fuses (s : State) (fn : World) (u : Nat) (v : W32) : (s.cmpWriteInt fn u v).fuses = s.fuses := by
  simp [State.cmpWriteInt]

@[simp] theorem State.cmpWriteCtl_fuses (s : State) (fn : World) (u : Nat) (v : W32) : (s.cmpWriteCtl fn u v).fuses = s.fuses := by
  simp [State.cmpWriteCtl]

@[simp] theorem State.cmpWriteStat_fuses (s : State) (fn : World) (u : Nat) (v : W32) : (s.cmpWriteStat fn u v).fuses = s.fuses := by
  simp [State.cmpWriteStat]

@[simp] theorem State.pendWrite_fuses (s : State) (fn : World) (w : Nat) (v : W32) : (s.pendWrite fn w v).fuses = s.fuses := by simp [State.pendWrite]
@[simp] theorem State.enterLf_fuses (s : State) : s.enterLf.fuses = s.fuses := by simp [State.enterLf]
@[simp] theorem State.leaveLf_fuses (s : State) : s.leaveLf.fuses = s.fuses := by simp [State.leaveLf]
@[simp] theorem execRefLost_keepsFuses (byLoss : Bool) (s : State) : KeepsFuses s (execRefLost byLoss s) := by simp [execRefLost]
@[simp] theorem execLfEdge_keepsFuses (refGood : Bool) (s : State) : KeepsFuses s (execLfEdge refGood s) := by simp [execLfEdge]
@[simp] theorem execLfAbsent_keepsFuses (refRuns : Bool) (s : State) : KeepsFuses s (execLfAbsent refRuns s) := by simp [execLfAbsent]

@[simp] theorem execCmpTgtWrite_keepsFuses (fn : World) (u : Nat) (v : W32) (s : State) : KeepsFuses s (execCmpTgtWrite fn u v s) := by
  simp [execCmpTgtWrite]

@[simp] theorem execCmpIntWrite_keepsFuses (fn : World) (u : Nat) (v : W32) (s : State) : KeepsFuses s (execCmpIntWrite fn u v s) := by
  simp [execCmpIntWrite]

@[simp] theorem execCmpArmWrite_keepsFuses (fn : World) (u : Nat) (v : W32) (s : State) : KeepsFuses s (execCmpArmWrite fn u v s) := by
  simp [execCmpArmWrite]

@[simp] theorem State.publish_fuses (s : State) (w : World) : (s.publish w).fuses = s.fuses := by
  unfold State.publish
  split <;> simp

@[simp] theorem State.closeTimes_fuses (s : State) (w : World) (tb : Nat) : (s.closeTimes w tb).fuses = s.fuses := by simp [State.closeTimes]

@[simp] theorem State.takeBoundary_fuses (s : State) (w : World) (tb cause : Nat) (split : Bool) :
    (s.takeBoundary w tb cause split).fuses = s.fuses := by simp [State.takeBoundary]

@[simp] theorem State.duePeriod_fuses (s : State) (w : World) : (s.duePeriod w).fuses = s.fuses := by simp [State.duePeriod]
@[simp] theorem State.trigger_fuses (s : State) (w : World) (tb cause : Nat) : (s.trigger w tb cause).fuses = s.fuses := by simp [State.trigger]
@[simp] theorem execEpochPeriod_keepsFuses (fn : World) (s : State) : KeepsFuses s (execEpochPeriod fn s) := by simp [execEpochPeriod]
@[simp] theorem State.stCtlWrite_fuses (s : State) (fn : World) (v : Nat) : (s.stCtlWrite fn v).fuses = s.fuses := by simp [State.stCtlWrite]
@[simp] theorem execEpochNow_keepsFuses (fn : World) (v : W32) (s : State) : KeepsFuses s (execEpochNow fn v s) := by simp [execEpochNow]
@[simp] theorem State.stPeriodSet_fuses (s : State) (fn : World) (v : Nat) : (s.stPeriodSet fn v).fuses = s.fuses := by simp [State.stPeriodSet]

@[simp] theorem execStPeriodWrite_keepsFuses (fn : World) (v : W32) (s : State) : KeepsFuses s (execStPeriodWrite fn v s) := by
  simp [execStPeriodWrite]

@[simp] theorem execEpochPublish_keepsFuses (fn : World) (s : State) : KeepsFuses s (execEpochPublish fn s) := by
  unfold execEpochPublish
  split <;> simp

@[simp] theorem execStatSync_keepsFuses (since : Nat) (rising : Bool) (s : State) : KeepsFuses s (execStatSync since rising s) := by
  simp [execStatSync]

@[simp] theorem State.setSnap_fuses (s : State) (fn : World) (b : LinkedBlock) (x : Snapshot) : (s.setSnap fn b x).fuses = s.fuses := by
  unfold State.setSnap
  split <;> simp

@[simp] theorem State.setTorn_fuses (s : State) (fn : World) (b : LinkedBlock) : (s.setTorn fn b).fuses = s.fuses := by
  unfold State.setTorn
  split <;> simp

@[simp] theorem State.linkedLow_getD_fuses (s : State) (fn : World) (off : Nat) (r : W64 × State) (h : r.2.fuses = s.fuses) :
    ((s.linkedLow fn off).getD r).2.fuses = s.fuses := by
  unfold State.linkedLow
  cases s.linkedAt fn off <;> cases s.done <;> simp [h]

@[simp] theorem State.linkedHigh_getD_fuses (s : State) (fn : World) (off : Nat) (r : W64 × State) (h : r.2.fuses = s.fuses) :
    ((s.linkedHigh fn off).getD r).2.fuses = s.fuses := by
  unfold State.linkedHigh
  split
  · cases s.linkedAt fn (off - 4) <;> simp [h]
  · exact h

@[simp] theorem State.qzWrite_fuses (s : State) (fn : World) (off : Nat) (v : W32) : (s.qzWrite fn off v).fuses = s.fuses := by
  unfold State.qzWrite
  split
  · simp
  · split
    · simp
    · split
      · split <;> simp
      · simp

@[simp] theorem State.stWrite_fuses (s : State) (fn : World) (off : Nat) (v : W32) : (s.stWrite fn off v).fuses = s.fuses := by
  unfold State.stWrite
  split
  · simp
  · split
    · simp
    · split
      · simp
      · split
        · simp
        · split <;> simp

/-! ### The Dumbwaiters (Dumbwaiters.lean) -/

@[simp] theorem State.dwLeaseEnd_fuses (s : State) (e : Nat) : (s.dwLeaseEnd e).fuses = s.fuses := by
  unfold State.dwLeaseEnd
  split <;> simp

@[simp] theorem State.dwRest_fuses (s : State) (e : Nat) (st : DwState) : (s.dwRest e st).fuses = s.fuses := by simp [State.dwRest]

@[simp] theorem State.dwRecordWrite_fuses (s : State) (e status : Nat) : (s.dwRecordWrite e status).2.fuses = s.fuses := by
  unfold State.dwRecordWrite
  grind [State.writeBytes_fuses, State.modDw_fuses, State.msix_fuses]

@[simp] theorem State.dwFail_fuses (s : State) (e : Nat) : (s.dwFail e).fuses = s.fuses := by simp [State.dwFail]
@[simp] theorem State.dwAsk_fuses (s : State) (e : Nat) : (s.dwAsk e).2.fuses = s.fuses := by simp [State.dwAsk]

@[simp] theorem State.dwEnd_fuses (s : State) (e fuel status : Nat) (hand : Bool) : (s.dwEnd e fuel status hand).fuses = s.fuses := by
  induction fuel generalizing s status hand with
  | zero => rfl
  | succ fuel ih =>
    unfold State.dwEnd
    grind [State.dwRecordWrite_fuses, State.dwFail_fuses, State.modDw_fuses, State.dwRest_fuses, State.dwLeaseEnd_fuses, State.dwAsk_fuses]

@[simp] theorem State.dwGranted_fuses (s : State) (e lease : Nat) : (s.dwGranted e lease).fuses = s.fuses := by simp [State.dwGranted]
@[simp] theorem State.dwRefused_fuses (s : State) (e : Nat) : (s.dwRefused e).fuses = s.fuses := by simp [State.dwRefused]

@[simp] theorem State.dwBegin_fuses (s : State) (e : Nat) : (s.dwBegin e).fuses = s.fuses := by
  unfold State.dwBegin
  grind [State.modDw_fuses, State.dwEnd_fuses, State.dwAsk_fuses]

@[simp] theorem State.dwPauseAct_fuses (s : State) (e : Nat) : (s.dwPauseAct e).fuses = s.fuses := by
  unfold State.dwPauseAct
  grind [State.modDw_fuses, State.dwLeaseEnd_fuses, State.dwAsk_fuses, State.dwEnd_fuses]

@[simp] theorem State.dwCtlWrite_fuses (s : State) (fn : World) (e v : Nat) : (s.dwCtlWrite fn e v).fuses = s.fuses := by simp [State.dwCtlWrite]
@[simp] theorem execDwStart_keepsFuses (fn : World) (e : Nat) (v : W32) (s : State) : KeepsFuses s (execDwStart fn e v s) := by simp [execDwStart]
@[simp] theorem execDwPause_keepsFuses (fn : World) (e : Nat) (v : W32) (s : State) : KeepsFuses s (execDwPause fn e v s) := by simp [execDwPause]

@[simp] theorem State.dwDisable_fuses (s : State) (e : Nat) : (s.dwDisable e).fuses = s.fuses := by
  unfold State.dwDisable
  dsimp only
  split <;> simp

@[simp] theorem State.dwEnableOn_fuses (s : State) (e : Nat) : (s.dwEnableOn e).fuses = s.fuses := by simp [State.dwEnableOn]
@[simp] theorem State.dwCfgWrite_fuses (s : State) (fn : World) (e v : Nat) : (s.dwCfgWrite fn e v).fuses = s.fuses := by simp [State.dwCfgWrite]
@[simp] theorem execDwEnable_keepsFuses (fn : World) (e : Nat) (v : W32) (s : State) : KeepsFuses s (execDwEnable fn e v s) := by simp [execDwEnable]
@[simp] theorem State.dwReqWrite_fuses (s : State) (fn : World) (e v : Nat) : (s.dwReqWrite fn e v).fuses = s.fuses := by simp [State.dwReqWrite]
@[simp] theorem execDwReq_keepsFuses (fn : World) (e : Nat) (v : W32) (s : State) : KeepsFuses s (execDwReq fn e v s) := by simp [execDwReq]

@[simp] theorem State.dwDenied_fuses (s : State) (e a : Nat) (d : Deny) : (s.dwDenied e a d).fuses = s.fuses := by
  unfold State.dwDenied
  split <;> simp

@[simp] theorem State.dwMove_fuses (s0 : State) (e : Nat) (r : LinkResult) : (s0.dwMove e r).2.fuses = s0.fuses := by
  unfold State.dwMove
  extract_lets s d w n up eccAt
  have hs : s.fuses = s0.fuses := by simp [s]
  split
  · exact hs
  split <;> rename_i h1
  · simp [fuses_of_triple h1, hs]
  · simp [fuses_of_triple h1, hs]
  · simp [fuses_of_triple h1, hs]
  split
  · simp [fuses_of_triple h1, hs]
  split <;> simp [fuses_of_triple ‹_›, fuses_of_triple h1, hs]

@[simp] theorem execDwBurstDone_keepsFuses (e : Nat) (r : LinkResult) (s : State) : KeepsFuses s (execDwBurstDone e r s) := by
  unfold execDwBurstDone
  dsimp only
  split
  · simp
  split
  · split <;> simp [fuses_of_pair ‹_›]
  · simp

@[simp] theorem State.dwHeadWrite_fuses (s : State) (fn : World) (e v : Nat) : (s.dwHeadWrite fn e v).fuses = s.fuses := by
  refine State.hostItem_fuses _ _ _ _ _ fun t => ?_
  dsimp only
  split
  · simp
  · split <;> simp

@[simp] theorem execDwCqHead_keepsFuses (fn : World) (e : Nat) (v : W32) (s : State) : KeepsFuses s (execDwCqHead fn e v s) := by simp [execDwCqHead]
@[simp] theorem State.dwHostLoss_fuses (s : State) (w : World) : (s.dwHostLoss w).fuses = s.fuses := by simp [State.dwHostLoss]
@[simp] theorem State.dwDomainOn_fuses (s : State) (dom : Nat) : (s.dwDomainOn dom).fuses = s.fuses := by simp [State.dwDomainOn]

@[simp] theorem State.dwWrite64_fuses (s : State) (fn : World) (off v : Nat) : (s.dwWrite64 fn off v).fuses = s.fuses := by
  simp -implicitDefEqProofs [State.dwWrite64]

@[simp] theorem State.dwWrite_fuses (s : State) (fn : World) (off : Nat) (v : W32) : (s.dwWrite fn off v).fuses = s.fuses := by
  simp -implicitDefEqProofs [State.dwWrite]
  split <;> simp -implicitDefEqProofs

/-! ### Boiler (Boiler.lean) -/

@[simp] theorem State.paceSend_fuses (s : State) (j : PaceJob) : (s.paceSend j).fuses = s.fuses := by simp [State.paceSend]
@[simp] theorem State.paceStart_fuses (s : State) (slate granite : Nat) : (s.paceStart slate granite).fuses = s.fuses := by simp [State.paceStart]
@[simp] theorem State.paceWrite_fuses (s : State) (fn : World) (v : Nat) : (s.paceWrite fn v).fuses = s.fuses := by simp [State.paceWrite]
@[simp] theorem execPaceChange_keepsFuses (fn : World) (v : W32) (s : State) : KeepsFuses s (execPaceChange fn v s) := by simp [execPaceChange]

@[simp] theorem State.leaveRefuse_fuses (s : State) (q : LeaveReq) : (s.leaveRefuse q).fuses = s.fuses := by
  unfold State.leaveRefuse
  split <;> simp

@[simp] theorem State.portUngate_fuses (s : State) (n : Nat) : (s.portUngate n).fuses = s.fuses := by simp [State.portUngate]
@[simp] theorem State.domainSwitch_fuses (s : State) (d : Nat) : (s.domainSwitch d).fuses = s.fuses := by simp [State.domainSwitch]

@[simp] theorem State.workGranted_fuses (s : State) (k : BoilerWork) : (s.workGranted k).fuses = s.fuses := by
  unfold State.workGranted
  split <;> simp

@[simp] theorem State.leaveGranted_fuses (s : State) (q : LeaveReq) : (s.leaveGranted q).fuses = s.fuses := by
  unfold State.leaveGranted
  split
  · split <;> simp
  · simp
  · simp
  · simp
  · simp

@[simp] theorem leaveWalk_fuses (l : List LeaveReq) (pool : Bool) (s : State) : (leaveWalk l pool s).fuses = s.fuses := by
  induction l generalizing pool s with
  | nil => rfl
  | cons q l ih =>
    unfold leaveWalk
    split
    · exact ih pool s
    · split <;> simp [ih]

@[simp] theorem execBoilerEvaluate_keepsFuses (plant : Bool) (s : State) : KeepsFuses s (execBoilerEvaluate plant s) := by simp [execBoilerEvaluate]

@[simp] theorem State.domainUsable_fuses (s : State) (d : Nat) : (s.domainUsable d).fuses = s.fuses := by
  simp -implicitDefEqProofs [State.domainUsable]

@[simp] theorem execDomainOn_keepsFuses (d : Nat) (s : State) : KeepsFuses s (execDomainOn d s) := by simp [execDomainOn]
@[simp] theorem State.domainOff_fuses (s : State) (d : Nat) : (s.domainOff d).fuses = s.fuses := by simp [State.domainOff]
@[simp] theorem State.domainsOff_fuses (s : State) : s.domainsOff.fuses = s.fuses := by simp [State.domainsOff]

@[simp] theorem execBoilerMeasure_keepsFuses (milliV ma100 : Nat) (s : State) : KeepsFuses s (execBoilerMeasure milliV ma100 s) := by
  simp [execBoilerMeasure]

@[simp] theorem State.leaveRecheck_fuses (s : State) : s.leaveRecheck.fuses = s.fuses := by
  refine foldl_fuses _ _ _ fun t q => ?_
  split <;> simp

@[simp] theorem execPaceDone_keepsFuses (milliV : Nat) (s : State) : KeepsFuses s (execPaceDone milliV s) := by
  unfold execPaceDone
  split <;> simp

@[simp] theorem execPmbusAlert_keepsFuses (status : Option (BitVec 16)) (s : State) : KeepsFuses s (execPmbusAlert status s) := by
  unfold execPmbusAlert
  split
  · simp
  · split
    · dsimp only
      split
      · simp
      · split <;> simp
    · simp

/-! ### The configuration flash (Image.lean) -/

@[simp] theorem execFlashReadTimeout_keepsFuses (base : Nat) (s : State) : KeepsFuses s (execFlashReadTimeout base s) := by
  simp [execFlashReadTimeout]

@[simp] theorem State.choiceFaults_fuses (s : State) (kind : Nat) (c : Choice) : (s.choiceFaults kind c).fuses = s.fuses := by
  simp [State.choiceFaults]

/-! ### The sections of an image (Sections.lean) -/

@[simp] theorem State.modWcfg_fuses (s : State) (w : World) (f : WorldCfg → WorldCfg) : (s.modWcfg w f).fuses = s.fuses := by simp [State.modWcfg]

@[simp] theorem State.imageEntry_fuses (s : State) (copy type idx : Nat) (w : Option World) (severe : Bool) :
    (s.imageEntry copy type idx w severe).fuses = s.fuses := by simp [State.imageEntry]

@[simp] theorem State.applyAssign_fuses (s : State) (b : List Byte) : (s.applyAssign b).fuses = s.fuses := by simp [State.applyAssign]

@[simp] theorem State.applyKernel_fuses (s : State) (copy : Nat) (w : World) (b : List Byte) : (s.applyKernel copy w b).fuses = s.fuses := by
  simp [State.applyKernel]

@[simp] theorem State.applyHandler_fuses (s : State) (copy : Nat) (w : World) (b : List Byte) : (s.applyHandler copy w b).fuses = s.fuses := by
  simp [State.applyHandler]

@[simp] theorem State.applyGates_fuses (s : State) (b : List Byte) : (s.applyGates b).fuses = s.fuses := by simp [State.applyGates]

@[simp] theorem State.applyResident_fuses (s : State) (copy : Nat) (w : World) (b : List Byte) : (s.applyResident copy w b).fuses = s.fuses := by
  simp [State.applyResident]

@[simp] theorem State.applyHost_fuses (s : State) (w : World) (b : List Byte) : (s.applyHost w b).fuses = s.fuses := by simp [State.applyHost]
@[simp] theorem State.applyShares_fuses (s : State) (copy : Nat) : (s.applyShares copy).fuses = s.fuses := by simp [State.applyShares]

@[simp] theorem State.applyPartners_fuses (s : State) (copy : Nat) (assignWorld : Option World) :
    (s.applyPartners copy assignWorld).fuses = s.fuses := by
  refine foldl_fuses _ _ _ fun t m => ?_
  split <;> simp

@[simp] theorem State.applyPort_fuses (s : State) (copy : Nat) (w : World) (b : List Byte) : (s.applyPort copy w b).fuses = s.fuses := by
  simp [State.applyPort]

@[simp] theorem State.applyLane_fuses (s : State) (copy : Nat) (sw : Option World) (b : List Byte) : (s.applyLane copy sw b).fuses = s.fuses := by
  simp [State.applyLane]

@[simp] theorem State.applyProfile_fuses (s : State) (copy : Nat) (w : World) (b : List Byte) : (s.applyProfile copy w b).fuses = s.fuses := by
  simp [State.applyProfile]

@[simp] theorem State.applyText_fuses (s : State) (copy : Nat) (w : World) (b : List Byte) (image : Bool) :
    (s.applyText copy w b image).fuses = s.fuses := by simp [State.applyText]

@[simp] theorem State.applyPlant_fuses (s : State) (copy : Nat) (w : World) (b : List Byte) (basic : Bool) :
    (s.applyPlant copy w b basic).fuses = s.fuses := by simp [State.applyPlant]

@[simp] theorem State.applyBoiler_fuses (s : State) (b : List Byte) (mode : Nat) : (s.applyBoiler b mode).fuses = s.fuses := by
  simp [State.applyBoiler]

@[simp] theorem State.applyPantry_fuses (s : State) (b : List Byte) (strong : Bool) : (s.applyPantry b strong).fuses = s.fuses := by
  simp [State.applyPantry]

@[simp] theorem State.applyPools_fuses (s : State) (copy : Nat) (b : List Byte) : (s.applyPools copy b).fuses = s.fuses := by simp [State.applyPools]

@[simp] theorem State.setPeriod_fuses (s : State) (w : World) (ms : Nat) (sync lock : Bool) : (s.setPeriod w ms sync lock).fuses = s.fuses := by
  simp [State.setPeriod]

@[simp] theorem State.applyTiming_fuses (s : State) (copy : Nat) (b : List Byte) : (s.applyTiming copy b).fuses = s.fuses := by
  simp [State.applyTiming]

@[simp] theorem State.applySaveArea_fuses (s : State) (copy : Nat) (w : World) (addr len : Nat) :
    (s.applySaveArea copy w addr len).fuses = s.fuses := by simp [State.applySaveArea]

@[simp] theorem State.applyFault_fuses (s : State) (copy : Nat) (b : List Byte) : (s.applyFault copy b).fuses = s.fuses := by simp [State.applyFault]

/-! ### The ROM programs of drives (Rom.lean) -/

@[simp] theorem State.romBind_fuses (s : State) (w : World) (n : Nat) (again : Bool) : (s.romBind w n again).fuses = s.fuses := by
  simp [State.romBind]

@[simp] theorem State.romPut_fuses (s : State) (n item v : Nat) : (s.romPut n item v).2.fuses = s.fuses := by
  unfold State.romPut
  grind [State.driveWrite_fuses, State.programEnd_fuses]

@[simp] theorem State.romPuts_fuses (s : State) (n : Nat) (l : List (Nat × Nat)) : (s.romPuts n l).2.fuses = s.fuses := by
  induction l generalizing s with
  | nil => rfl
  | cons x l ih =>
    unfold State.romPuts
    grind [State.romPut_fuses]

@[simp] theorem State.romHeater_fuses (s : State) (n : Nat) : (s.romHeater n).fuses = s.fuses := by
  unfold State.romHeater
  grind [State.romPuts_fuses, State.modDrive_fuses]

@[simp] theorem State.romCharger_fuses (s : State) (n : Nat) : (s.romCharger n).fuses = s.fuses := by
  unfold State.romCharger
  grind [State.romPuts_fuses, State.modDrive_fuses]

@[simp] theorem State.romStep_fuses (s : State) (n : Nat) : (s.romStep n).fuses = s.fuses := by
  unfold State.romStep
  dsimp only
  split
  · simp
  · split
    · simp
    · split
      · simp
      · split <;> simp

@[simp] theorem State.romRun_fuses (s : State) : s.romRun.fuses = s.fuses := by simp [State.romRun]
@[simp] theorem execCompareMatch_keepsFuses (u : Nat) (s : State) : KeepsFuses s (execCompareMatch u s) := by simp [execCompareMatch]

@[simp] theorem State.residentBind_fuses (s : State) (w : World) (e : ResidentEntry) (again : Bool) : (s.residentBind w e again).fuses = s.fuses := by
  simp [State.residentBind]

@[simp] theorem execResidentRestart_keepsFuses (c : Nat) (s : State) : KeepsFuses s (execResidentRestart c s) := by
  unfold execResidentRestart
  dsimp only
  split <;> simp

/-! ### The Cellar: restore, records and the power-fail save (Cellar.lean) -/

@[simp] theorem State.restoreAreas_fuses (s : State) (i : Nat) : (s.restoreAreas i).fuses = s.fuses := by
  unfold State.restoreAreas
  dsimp only
  split <;> split <;> simp

@[simp] theorem State.restoreQueue_fuses (s : State) (e : List Byte) : (s.restoreQueue e).fuses = s.fuses := by simp [State.restoreQueue]

@[simp] theorem State.restoreCtx_fuses (s : State) (e : List Byte) : (s.restoreCtx e).fuses = s.fuses := by
  unfold State.restoreCtx
  dsimp only
  split <;> simp

@[simp] theorem State.restoreOvf_fuses (s : State) (e : List Byte) : (s.restoreOvf e).fuses = s.fuses := by simp [State.restoreOvf]
@[simp] theorem State.restoreStats_fuses (s : State) (b : List Byte) : (s.restoreStats b).fuses = s.fuses := by simp [State.restoreStats]

@[simp] theorem State.restoreSlot_fuses (s : State) (i : Nat) : (s.restoreSlot i).fuses = s.fuses := by
  unfold State.restoreSlot
  dsimp only
  split <;> simp

@[simp] theorem State.slotReads_fuses (s : State) : s.slotReads.fuses = s.fuses := by simp [State.slotReads]

@[simp] theorem execCellarRestore_keepsFuses (s : State) : KeepsFuses s (execCellarRestore s) := by
  unfold execCellarRestore
  split
  · simp
  · dsimp only
    split <;> simp

@[simp] theorem State.slotWrite_fuses (s : State) (i : Nat) (h : SlotHead) (parts : List SlotPart) : (s.slotWrite i h parts).fuses = s.fuses := by
  simp [State.slotWrite]

@[simp] theorem State.slotOpen_fuses (s : State) (i : Nat) : (s.slotOpen i).fuses = s.fuses := by simp [State.slotOpen]
@[simp] theorem execStartRecordWrite_keepsFuses (s : State) : KeepsFuses s (execStartRecordWrite s) := by simp [execStartRecordWrite]
@[simp] theorem State.lcBlow_programmed (s : State) : s.lcBlow.fuses.programmed = s.fuses.programmed := (rfl)

@[simp] theorem State.auditWritten_programmed (s : State) (n : Nat) : (s.auditWritten n).fuses.programmed = s.fuses.programmed := by
  unfold State.auditWritten
  dsimp only
  split
  · simp
  · rfl

theorem execAuditRecordWrite_keepsProgrammed (s : State) : KeepsProgrammed s (execAuditRecordWrite s) := by
  unfold execAuditRecordWrite
  split <;> simp

@[simp] theorem State.auditAdvance_fuses (s : State) : s.auditAdvance.fuses = s.fuses := by simp [State.auditAdvance]
@[simp] theorem State.saveReads_fuses (s : State) : s.saveReads.fuses = s.fuses := by simp [State.saveReads]
@[simp] theorem State.saveStop_fuses (s : State) : s.saveStop.fuses = s.fuses := by simp -implicitDefEqProofs [State.saveStop]
@[simp] theorem State.saveShed_fuses (s : State) : s.saveShed.fuses = s.fuses := by simp [State.saveShed]
@[simp] theorem execSaveStart_keepsFuses (pfail vin12 : Bool) (s : State) : KeepsFuses s (execSaveStart pfail vin12 s) := by simp [execSaveStart]

theorem execSaveCommit_keepsProgrammed (s : State) : KeepsProgrammed s (execSaveCommit s) := by
  unfold execSaveCommit
  split <;> simp

@[simp] theorem execHoldupCollapse_keepsFuses (s : State) : KeepsFuses s (execHoldupCollapse s) := by simp [execHoldupCollapse]

/-! ### Resets and start-up (Attic.lean) -/

@[simp] theorem State.deviceReset_fuses (s : State) (cause : Nat) : (s.deviceReset cause).fuses = s.fuses := by simp [State.deviceReset]
@[simp] theorem execPowerOnReset_keepsFuses (railsOk : Bool) (s : State) : KeepsFuses s (execPowerOnReset railsOk s) := by simp [execPowerOnReset]

@[simp] theorem execResetN_keepsFuses (lowNs : Nat) (refPresent : Bool) (s : State) : KeepsFuses s (execResetN lowNs refPresent s) := by
  simp [execResetN]

@[simp] theorem execRestart_keepsFuses (s : State) : KeepsFuses s (execRestart s) := by simp [execRestart]
@[simp] theorem execStudyWatchdogExpiry_keepsFuses (s : State) : KeepsFuses s (execStudyWatchdogExpiry s) := by simp [execStudyWatchdogExpiry]
@[simp] theorem execAtticHalt_keepsFuses (pfail vin12 : Bool) (s : State) : KeepsFuses s (execAtticHalt pfail vin12 s) := by simp [execAtticHalt]

@[simp] theorem execAtticProbe_keepsFuses (r : FlashProbe) (s : State) : KeepsFuses s (execAtticProbe r s) := by
  unfold execAtticProbe
  split
  · simp
  · split <;> simp

@[simp] theorem execFirmwareSelect_keepsFuses (s : State) : KeepsFuses s (execFirmwareSelect s) := by
  unfold execFirmwareSelect
  split
  · simp
  · dsimp only
    split <;> simp

@[simp] theorem State.chooseBoard_fuses (s : State) : s.chooseBoard.fuses = s.fuses := by simp [State.chooseBoard]

@[simp] theorem execImageSelect_keepsFuses (s : State) : KeepsFuses s (execImageSelect s) := by
  unfold execImageSelect
  split
  · simp
  · split
    · simp
    · split
      · simp
      · dsimp only
        split <;> simp

@[simp] theorem State.trainConfig_fuses (s : State) (p : List Byte) (ch : Nat) : (s.trainConfig p ch).fuses = s.fuses := by
  simp -implicitDefEqProofs [State.trainConfig]

@[simp] theorem State.trainAlerts_fuses (s : State) (p : List Byte) (ch : Nat) (ok : Bool) : (s.trainAlerts p ch ok).fuses = s.fuses := by
  simp [State.trainAlerts]

@[simp] theorem State.trainPattern_fuses (s : State) (p : List Byte) (ch : Nat) : (s.trainPattern p ch).fuses = s.fuses := by
  simp [State.trainPattern]

@[simp] theorem State.trainAll_fuses (s : State) (p : List Byte) (train : List TrainReport) : (s.trainAll p train).fuses = s.fuses := by
  simp [State.trainAll]

@[simp] theorem State.withSect_fuses (s : State) (base type : Nat) (w : Option World) (f : State → List Byte → State)
    (h : ∀ t b, (f t b).fuses = t.fuses) : (s.withSect base type w f).fuses = s.fuses := by
  unfold State.withSect
  split <;> simp [h]

@[simp] theorem State.withBoth_fuses (s : State) (base type : Nat) (f : State → World → List Byte → State)
    (h : ∀ t w b, (f t w b).fuses = t.fuses) : (s.withBoth base type f).fuses = s.fuses := by
  simp [State.withBoth, h]

@[simp] theorem State.lockWaits_fuses (s : State) : s.lockWaits.fuses = s.fuses := by simp [State.lockWaits]
@[simp] theorem State.applyRom_fuses (s : State) : s.applyRom.fuses = s.fuses := by simp [State.applyRom]

@[simp] theorem State.applyRomPrograms_fuses (s : State) : s.applyRomPrograms.fuses = s.fuses := by
  refine foldl_fuses _ _ _ fun t n => ?_
  split <;> simp

@[simp] theorem State.applyBoard_fuses (s : State) : s.applyBoard.fuses = s.fuses := by
  unfold State.applyBoard
  split
  · simp
  · dsimp only
    split <;> simp

@[simp] theorem State.applyFallback_fuses (s : State) : s.applyFallback.fuses = s.fuses := by simp [State.applyFallback]

@[simp] theorem State.applyRest_fuses (s : State) (base k mode : Nat) (boiler pantry : List Byte) :
    (s.applyRest base k mode boiler pantry).fuses = s.fuses := by simp [State.applyRest]

@[simp] theorem State.applyImage_fuses (s : State) (base : Nat) (train : List TrainReport) : (s.applyImage base train).fuses = s.fuses := by
  simp [State.applyImage]

@[simp] theorem execConfigApply_keepsFuses (train : List TrainReport) (s : State) : KeepsFuses s (execConfigApply train s) := by
  unfold execConfigApply
  split
  · simp
  · split <;> simp

@[simp] theorem State.startUnits_fuses (s : State) : s.startUnits.fuses = s.fuses := by simp -implicitDefEqProofs [State.startUnits]
@[simp] theorem State.startEpoch_fuses (s : State) (w : World) : (s.startEpoch w).fuses = s.fuses := by simp [State.startEpoch]
@[simp] theorem State.startResidents_fuses (s : State) (w : World) : (s.startResidents w).fuses = s.fuses := by simp [State.startResidents]
@[simp] theorem State.startDomains_fuses (s : State) : s.startDomains.fuses = s.fuses := by simp [State.startDomains]
@[simp] theorem execAtticDone_keepsFuses (s : State) : KeepsFuses s (execAtticDone s) := by simp [execAtticDone]

@[simp] theorem State.blowRevoke_programmed (s : State) (kind : Nat) (l : List Nat) : (s.blowRevoke kind l).fuses.programmed = s.fuses.programmed :=
  (rfl)

theorem execKeyRevoke_keepsProgrammed (s : State) : KeepsProgrammed s (execKeyRevoke s) := by
  unfold execKeyRevoke
  split <;> simp

/-! ### The flash service (FlashService.lean) -/

@[simp] theorem State.flashAck_fuses (s : State) (m bit code : Nat) (msg1 : Option Nat) : (s.flashAck m bit code msg1).fuses = s.fuses := by
  simp [State.flashAck]

@[simp] theorem State.flashServe_fuses (s : State) (fn : World) (bit op : Nat) (f : State → Nat → State)
    (h : ∀ t m, (f t m).fuses = t.fuses) : (s.flashServe fn bit op f).fuses = s.fuses := by
  unfold State.flashServe
  split <;> simp [h]

@[simp] theorem State.flashErase_fuses (s : State) (base n : Nat) : (s.flashErase base n).fuses = s.fuses := by simp [State.flashErase]
@[simp] theorem State.flashClose_fuses (s : State) : s.flashClose.fuses = s.fuses := by simp [State.flashClose]
@[simp] theorem State.flashLoss_fuses (s : State) (w : World) : (s.flashLoss w).fuses = s.fuses := by simp [State.flashLoss]
@[simp] theorem State.flashDrop_fuses (s : State) (x : FlashSession) : (s.flashDrop x).fuses = s.fuses := by simp [State.flashDrop]

@[simp] theorem State.flashAbortOf_fuses (s : State) (w : World) : (s.flashAbortOf w).fuses = s.fuses := by
  unfold State.flashAbortOf
  split <;> simp

@[simp] theorem State.flashChecked_fuses (s : State) (base n : Nat) : (s.flashChecked base n).fuses = s.fuses := by simp [State.flashChecked]
@[simp] theorem execFlashOpen_keepsFuses (fn : World) (bit : Nat) (s : State) : KeepsFuses s (execFlashOpen fn bit s) := by simp [execFlashOpen]

@[simp] theorem execFlashWrite_keepsFuses (fn : World) (bit : Nat) (s : State) : KeepsFuses s (execFlashWrite fn bit s) := by
  refine keepsFuses_next.mpr (State.flashServe_fuses _ _ _ _ _ fun t m => ?_)
  split <;> simp

@[simp] theorem execFlashCommit_keepsFuses (fn : World) (bit : Nat) (s : State) : KeepsFuses s (execFlashCommit fn bit s) := by
  refine keepsFuses_next.mpr (State.flashServe_fuses _ _ _ _ _ fun t m => ?_)
  split <;> simp

@[simp] theorem execFlashAbort_keepsFuses (fn : World) (bit : Nat) (s : State) : KeepsFuses s (execFlashAbort fn bit s) := by
  refine keepsFuses_next.mpr (State.flashServe_fuses _ _ _ _ _ fun t m => ?_)
  split <;> simp

@[simp] theorem execFlashStatus_keepsFuses (fn : World) (bit : Nat) (s : State) : KeepsFuses s (execFlashStatus fn bit s) := by simp [execFlashStatus]

/-! ### The functions and the link (Foyer.lean) -/

@[simp] theorem State.queuesLost_fuses (s : State) (w : World) : (s.queuesLost w).fuses = s.fuses := by simp [State.queuesLost]
@[simp] theorem State.hostLostCtx_fuses (s : State) (c : Nat) : (s.hostLostCtx c).fuses = s.fuses := by simp [State.hostLostCtx]
@[simp] theorem State.programsOrphaned_fuses (s : State) (w : World) : (s.programsOrphaned w).fuses = s.fuses := by simp [State.programsOrphaned]
@[simp] theorem State.attestLoss_fuses (s : State) (w : World) : (s.attestLoss w).fuses = s.fuses := by simp [State.attestLoss]
@[simp] theorem State.windowsLost_fuses (s : State) (w : World) : (s.windowsLost w).fuses = s.fuses := by simp [State.windowsLost]
@[simp] theorem State.hostLoss_fuses (s : State) (w : World) (cause : Nat) : (s.hostLoss w cause).fuses = s.fuses := by simp [State.hostLoss]
@[simp] theorem State.functionStop_fuses (s : State) (w : World) : (s.functionStop w).fuses = s.fuses := by simp [State.functionStop]
@[simp] theorem execFunctionStop_keepsFuses (fn : World) (s : State) : KeepsFuses s (execFunctionStop fn s) := by simp [execFunctionStop]
@[simp] theorem State.orphansMake_fuses (s : State) (w : World) : (s.orphansMake w).fuses = s.fuses := by simp [State.orphansMake]
@[simp] theorem State.functionRun_fuses (s : State) (w : World) : (s.functionRun w).fuses = s.fuses := by simp [State.functionRun]
@[simp] theorem State.functionStart_fuses (s : State) (w : World) : (s.functionStart w).fuses = s.fuses := by simp [State.functionStart]

@[simp] theorem execFunctionStart_keepsFuses (fn : World) (bme d0 : Bool) (s : State) : KeepsFuses s (execFunctionStart fn bme d0 s) := by
  simp [execFunctionStart]

@[simp] theorem State.linkLoss_fuses (s : State) : s.linkLoss.fuses = s.fuses := by simp [State.linkLoss]
@[simp] theorem execLinkDown_keepsFuses (s : State) : KeepsFuses s (execLinkDown s) := by simp [execLinkDown]
@[simp] theorem execLinkUp_keepsFuses (s : State) : KeepsFuses s (execLinkUp s) := by simp [execLinkUp]
@[simp] theorem execPerstNLow_keepsFuses (s : State) : KeepsFuses s (execPerstNLow s) := by simp [execPerstNLow]
@[simp] theorem execPerstNHigh_keepsFuses (s : State) : KeepsFuses s (execPerstNHigh s) := by simp [execPerstNHigh]

@[simp] theorem execBusMasterDisable_keepsFuses (fn : World) (d3hot : Bool) (s : State) : KeepsFuses s (execBusMasterDisable fn d3hot s) := by
  simp [execBusMasterDisable]

@[simp] theorem execFunctionLevelReset_keepsFuses (fn : World) (s : State) : KeepsFuses s (execFunctionLevelReset fn s) := by
  simp [execFunctionLevelReset]

@[simp] theorem State.wdogWrite_fuses (s : State) (fn : World) (v : Nat) : (s.wdogWrite fn v).fuses = s.fuses := by simp [State.wdogWrite]

@[simp] theorem execWatchdogRestart_keepsFuses (fn : World) (v : W32) (s : State) : KeepsFuses s (execWatchdogRestart fn v s) := by
  simp [execWatchdogRestart]

@[simp] theorem execHostWatchdogExpiry_keepsFuses (fn : World) (s : State) : KeepsFuses s (execHostWatchdogExpiry fn s) := by
  simp [execHostWatchdogExpiry]

/-! ### The administrative commands (Admin.lean) -/

@[simp] theorem refuse_fuses (s : State) (status : Nat) : (refuse s status).next.fuses = s.fuses := by simp [refuse]

@[simp] theorem State.adminRun_fuses (s : State) (w : World) (op : Nat) (k : List Byte → State → AdminOut)
    (h : ∀ d t, (k d t).next.fuses = t.fuses) : (s.adminRun w op k).fuses = s.fuses := by
  unfold State.adminRun
  split <;> simp [h]

@[simp] theorem createCq_fuses (w : World) (d : List Byte) (s : State) : (createCq w d s).next.fuses = s.fuses := by simp [createCq]
@[simp] theorem execCreateCq_keepsFuses (fn : World) (s : State) : KeepsFuses s (execCreateCq fn s) := by simp [execCreateCq]
@[simp] theorem deleteCq_fuses (w : World) (d : List Byte) (s : State) : (deleteCq w d s).next.fuses = s.fuses := by simp [deleteCq]
@[simp] theorem execDeleteCq_keepsFuses (fn : World) (s : State) : KeepsFuses s (execDeleteCq fn s) := by simp [execDeleteCq]
@[simp] theorem createSq_fuses (w : World) (d : List Byte) (s : State) : (createSq w d s).next.fuses = s.fuses := by simp [createSq]
@[simp] theorem execCreateSq_keepsFuses (fn : World) (s : State) : KeepsFuses s (execCreateSq fn s) := by simp [execCreateSq]

@[simp] theorem sqNamed_fuses (w : World) (d : List Byte) (s : State) (rsv : Bool) (k : Nat → AdminOut) (h : ∀ n, (k n).next.fuses = s.fuses) :
    (sqNamed w d s rsv k).next.fuses = s.fuses := by
  simp [sqNamed, h]

@[simp] theorem State.sqForget_fuses (s : State) (w : World) (n : Nat) : (s.sqForget w n).fuses = s.fuses := by simp [State.sqForget]
@[simp] theorem deleteSq_fuses (w : World) (d : List Byte) (s : State) : (deleteSq w d s).next.fuses = s.fuses := by simp [deleteSq]
@[simp] theorem execDeleteSq_keepsFuses (fn : World) (s : State) : KeepsFuses s (execDeleteSq fn s) := by simp [execDeleteSq]
@[simp] theorem enableSq_fuses (w : World) (d : List Byte) (s : State) : (enableSq w d s).next.fuses = s.fuses := by simp [enableSq]
@[simp] theorem execEnableSq_keepsFuses (fn : World) (s : State) : KeepsFuses s (execEnableSq fn s) := by simp [execEnableSq]
@[simp] theorem disableSq_fuses (w : World) (d : List Byte) (s : State) : (disableSq w d s).next.fuses = s.fuses := by simp [disableSq]
@[simp] theorem execDisableSq_keepsFuses (fn : World) (s : State) : KeepsFuses s (execDisableSq fn s) := by simp [execDisableSq]
@[simp] theorem bindSq_fuses (w : World) (d : List Byte) (s : State) : (bindSq w d s).next.fuses = s.fuses := by simp [bindSq]
@[simp] theorem execBindSq_keepsFuses (fn : World) (s : State) : KeepsFuses s (execBindSq fn s) := by simp [execBindSq]

@[simp] theorem invalidateSq_fuses (w : World) (d : List Byte) (s : State) : (invalidateSq w d s).next.fuses = s.fuses := by
  simp -implicitDefEqProofs [invalidateSq]

@[simp] theorem execInvalidate_keepsFuses (fn : World) (s : State) : KeepsFuses s (execInvalidate fn s) := by simp [execInvalidate]

@[simp] theorem ctxCommand_fuses (w : World) (op : Nat → State → State) (d : List Byte) (s : State) (h : ∀ c t, (op c t).fuses = t.fuses) :
    (ctxCommand w op d s).next.fuses = s.fuses := by
  unfold ctxCommand
  dsimp only
  split <;> simp [h]

@[simp] theorem execSuspend_keepsFuses (fn : World) (s : State) : KeepsFuses s (execSuspend fn s) := by simp [execSuspend]
@[simp] theorem execResume_keepsFuses (fn : World) (s : State) : KeepsFuses s (execResume fn s) := by simp [execResume]

@[simp] theorem execHalt_keepsFuses (fn : World) (s : State) : KeepsFuses s (execHalt fn s) := by
  unfold execHalt
  split
  · simp
  · dsimp only
    split <;> simp

@[simp] theorem adopt_fuses (w : World) (d : List Byte) (s : State) : (adopt w d s).next.fuses = s.fuses := by
  unfold adopt
  split
  · simp
  · split <;> simp

@[simp] theorem execAdopt_keepsFuses (fn : World) (s : State) : KeepsFuses s (execAdopt fn s) := by simp [execAdopt]

@[simp] theorem State.adminWrite_fuses (s : State) (dest : Nat) (data : List Byte) (r : LinkResult) :
    (s.adminWrite dest data r).next.fuses = s.fuses := by
  unfold State.adminWrite
  split <;> simp

@[simp] theorem readContext_fuses (w : World) (r : LinkResult) (d : List Byte) (s : State) : (readContext w r d s).next.fuses = s.fuses := by
  simp [readContext]

@[simp] theorem execReadContext_keepsFuses (fn : World) (r : LinkResult) (s : State) : KeepsFuses s (execReadContext fn r s) := by
  simp [execReadContext]

@[simp] theorem listContexts_fuses (w : World) (r : LinkResult) (d : List Byte) (s : State) : (listContexts w r d s).next.fuses = s.fuses := by
  simp [listContexts]

@[simp] theorem execListContexts_keepsFuses (fn : World) (r : LinkResult) (s : State) : KeepsFuses s (execListContexts fn r s) := by
  simp [execListContexts]

@[simp] theorem laneSafe_fuses (w : World) (d : List Byte) (s : State) : (laneSafe w d s).next.fuses = s.fuses := by
  unfold laneSafe
  split <;> simp

@[simp] theorem execLaneSafe_keepsFuses (fn : World) (s : State) : KeepsFuses s (execLaneSafe fn s) := by simp [execLaneSafe]

@[simp] theorem laneRelease_fuses (w : World) (d : List Byte) (s : State) : (laneRelease w d s).next.fuses = s.fuses := by
  unfold laneRelease
  split
  · simp
  · split <;> simp

@[simp] theorem execLaneRelease_keepsFuses (fn : World) (s : State) : KeepsFuses s (execLaneRelease fn s) := by simp [execLaneRelease]
@[simp] theorem State.sqTailWrite_fuses (s : State) (fn : World) (q v : Nat) : (s.sqTailWrite fn q v).fuses = s.fuses := by simp [State.sqTailWrite]

@[simp] theorem execSqTailDoorbell_keepsFuses (fn : World) (q : Nat) (v : W32) (s : State) : KeepsFuses s (execSqTailDoorbell fn q v s) := by
  simp [execSqTailDoorbell]

@[simp] theorem execDoorbellInv_keepsFuses (fn : World) (q : Nat) (v : W32) (s : State) : KeepsFuses s (execDoorbellInv fn q v s) := by
  simp [execDoorbellInv]

@[simp] theorem execDoorbellResume_keepsFuses (fn : World) (q : Nat) (v : W32) (s : State) : KeepsFuses s (execDoorbellResume fn q v s) := by
  simp [execDoorbellResume]

/-! ### Arithmetic, logic and fields (Alu.lean) -/

@[simp] theorem State.aluOp_fuses (s : State) (c : Nat) (f : FmtA) (op : W64 → W64 → W64) : (s.aluOp c f op).fuses = s.fuses := by simp [State.aluOp]
@[simp] theorem State.unaryOp_fuses (s : State) (c : Nat) (f : FmtA) (op : W64 → W64) : (s.unaryOp c f op).fuses = s.fuses := by simp [State.unaryOp]

@[simp] theorem State.arithOp_fuses (s : State) (c : Nat) (f : FmtA) (op : W64 → W64 → Arith) : (s.arithOp c f op).fuses = s.fuses := by
  simp [State.arithOp]

@[simp] theorem State.immOp_fuses (s : State) (c : Nat) (f : FmtI) (op : W64 → BitVec 16 → W64) : (s.immOp c f op).fuses = s.fuses := by
  simp [State.immOp]

@[simp] theorem State.shiftOp_fuses (s : State) (c : Nat) (rd ra : Reg) (rsv : BitVec 8) (op : W64 → W64) :
    (s.shiftOp c rd ra rsv op).fuses = s.fuses := by simp [State.shiftOp]

@[simp] theorem State.extOp_fuses (s : State) (c : Nat) (f : FmtF) : (s.extOp c f).fuses = s.fuses := by simp [State.extOp]
@[simp] theorem execAnd_keepsFuses (c : Nat) (f : FmtA) (s : State) : KeepsFuses s (execAnd c f s) := by simp [execAnd]
@[simp] theorem execOr_keepsFuses (c : Nat) (f : FmtA) (s : State) : KeepsFuses s (execOr c f s) := by simp [execOr]
@[simp] theorem execXor_keepsFuses (c : Nat) (f : FmtA) (s : State) : KeepsFuses s (execXor c f s) := by simp [execXor]
@[simp] theorem execAndn_keepsFuses (c : Nat) (f : FmtA) (s : State) : KeepsFuses s (execAndn c f s) := by simp [execAndn]
@[simp] theorem execNor_keepsFuses (c : Nat) (f : FmtA) (s : State) : KeepsFuses s (execNor c f s) := by simp [execNor]
@[simp] theorem execSll_keepsFuses (c : Nat) (f : FmtA) (s : State) : KeepsFuses s (execSll c f s) := by simp [execSll]
@[simp] theorem execSrl_keepsFuses (c : Nat) (f : FmtA) (s : State) : KeepsFuses s (execSrl c f s) := by simp [execSrl]
@[simp] theorem execSra_keepsFuses (c : Nat) (f : FmtA) (s : State) : KeepsFuses s (execSra c f s) := by simp [execSra]
@[simp] theorem execRotr_keepsFuses (c : Nat) (f : FmtA) (s : State) : KeepsFuses s (execRotr c f s) := by simp [execRotr]
@[simp] theorem execMin_keepsFuses (c : Nat) (f : FmtA) (s : State) : KeepsFuses s (execMin c f s) := by simp [execMin]
@[simp] theorem execMax_keepsFuses (c : Nat) (f : FmtA) (s : State) : KeepsFuses s (execMax c f s) := by simp [execMax]
@[simp] theorem execMinu_keepsFuses (c : Nat) (f : FmtA) (s : State) : KeepsFuses s (execMinu c f s) := by simp [execMinu]
@[simp] theorem execMaxu_keepsFuses (c : Nat) (f : FmtA) (s : State) : KeepsFuses s (execMaxu c f s) := by simp [execMaxu]
@[simp] theorem execMulh_keepsFuses (c : Nat) (f : FmtA) (s : State) : KeepsFuses s (execMulh c f s) := by simp [execMulh]
@[simp] theorem execMulhu_keepsFuses (c : Nat) (f : FmtA) (s : State) : KeepsFuses s (execMulhu c f s) := by simp [execMulhu]
@[simp] theorem execCeq_keepsFuses (c : Nat) (f : FmtA) (s : State) : KeepsFuses s (execCeq c f s) := by simp [execCeq]
@[simp] theorem execCne_keepsFuses (c : Nat) (f : FmtA) (s : State) : KeepsFuses s (execCne c f s) := by simp [execCne]
@[simp] theorem execClt_keepsFuses (c : Nat) (f : FmtA) (s : State) : KeepsFuses s (execClt c f s) := by simp [execClt]
@[simp] theorem execCltu_keepsFuses (c : Nat) (f : FmtA) (s : State) : KeepsFuses s (execCltu c f s) := by simp [execCltu]
@[simp] theorem execCle_keepsFuses (c : Nat) (f : FmtA) (s : State) : KeepsFuses s (execCle c f s) := by simp [execCle]
@[simp] theorem execCleu_keepsFuses (c : Nat) (f : FmtA) (s : State) : KeepsFuses s (execCleu c f s) := by simp [execCleu]
@[simp] theorem execCbef32_keepsFuses (c : Nat) (f : FmtA) (s : State) : KeepsFuses s (execCbef32 c f s) := by simp [execCbef32]
@[simp] theorem execAdd_keepsFuses (c : Nat) (f : FmtA) (s : State) : KeepsFuses s (execAdd c f s) := by simp [execAdd]
@[simp] theorem execSub_keepsFuses (c : Nat) (f : FmtA) (s : State) : KeepsFuses s (execSub c f s) := by simp [execSub]
@[simp] theorem execMul_keepsFuses (c : Nat) (f : FmtA) (s : State) : KeepsFuses s (execMul c f s) := by simp [execMul]
@[simp] theorem execDiv_keepsFuses (c : Nat) (f : FmtA) (s : State) : KeepsFuses s (execDiv c f s) := by simp [execDiv]
@[simp] theorem execDivu_keepsFuses (c : Nat) (f : FmtA) (s : State) : KeepsFuses s (execDivu c f s) := by simp [execDivu]
@[simp] theorem execRem_keepsFuses (c : Nat) (f : FmtA) (s : State) : KeepsFuses s (execRem c f s) := by simp [execRem]
@[simp] theorem execRemu_keepsFuses (c : Nat) (f : FmtA) (s : State) : KeepsFuses s (execRemu c f s) := by simp [execRemu]
@[simp] theorem execClz_keepsFuses (c : Nat) (f : FmtA) (s : State) : KeepsFuses s (execClz c f s) := by simp [execClz]
@[simp] theorem execPopc_keepsFuses (c : Nat) (f : FmtA) (s : State) : KeepsFuses s (execPopc c f s) := by simp [execPopc]
@[simp] theorem execBswap_keepsFuses (c : Nat) (f : FmtA) (s : State) : KeepsFuses s (execBswap c f s) := by simp [execBswap]
@[simp] theorem execAddi_keepsFuses (c : Nat) (f : FmtI) (s : State) : KeepsFuses s (execAddi c f s) := by simp [execAddi]
@[simp] theorem execAndi_keepsFuses (c : Nat) (f : FmtI) (s : State) : KeepsFuses s (execAndi c f s) := by simp [execAndi]
@[simp] theorem execOri_keepsFuses (c : Nat) (f : FmtI) (s : State) : KeepsFuses s (execOri c f s) := by simp [execOri]
@[simp] theorem execXori_keepsFuses (c : Nat) (f : FmtI) (s : State) : KeepsFuses s (execXori c f s) := by simp [execXori]
@[simp] theorem execCeqi_keepsFuses (c : Nat) (f : FmtI) (s : State) : KeepsFuses s (execCeqi c f s) := by simp [execCeqi]
@[simp] theorem execClti_keepsFuses (c : Nat) (f : FmtI) (s : State) : KeepsFuses s (execClti c f s) := by simp [execClti]
@[simp] theorem execCltui_keepsFuses (c : Nat) (f : FmtI) (s : State) : KeepsFuses s (execCltui c f s) := by simp [execCltui]
@[simp] theorem execSeth_keepsFuses (c : Nat) (f : FmtI) (s : State) : KeepsFuses s (execSeth c f s) := by simp [execSeth]

@[simp] theorem execSlli_keepsFuses (c : Nat) (rd ra : Reg) (rsv : BitVec 8) (amount : BitVec 6) (s : State) :
    KeepsFuses s (execSlli c rd ra rsv amount s) := by simp [execSlli]

@[simp] theorem execSrli_keepsFuses (c : Nat) (rd ra : Reg) (rsv : BitVec 8) (amount : BitVec 6) (s : State) :
    KeepsFuses s (execSrli c rd ra rsv amount s) := by simp [execSrli]

@[simp] theorem execSrai_keepsFuses (c : Nat) (rd ra : Reg) (rsv : BitVec 8) (amount : BitVec 6) (s : State) :
    KeepsFuses s (execSrai c rd ra rsv amount s) := by simp [execSrai]

@[simp] theorem execRotri_keepsFuses (c : Nat) (rd ra : Reg) (rsv : BitVec 8) (amount : BitVec 6) (s : State) :
    KeepsFuses s (execRotri c rd ra rsv amount s) := by simp [execRotri]

@[simp] theorem execExtu_keepsFuses (c : Nat) (f : FmtF) (s : State) : KeepsFuses s (execExtu c f s) := by simp [execExtu]
@[simp] theorem execExts_keepsFuses (c : Nat) (f : FmtF) (s : State) : KeepsFuses s (execExts c f s) := by simp [execExts]
@[simp] theorem execIns_keepsFuses (c : Nat) (f : FmtF) (s : State) : KeepsFuses s (execIns c f s) := by simp [execIns]

/-! ### The Fault Collector and the power monitor (Faults.lean) -/

@[simp] theorem execFaultMessage_keepsFuses (ext : Option (W64 × Option Nat)) (s : State) : KeepsFuses s (execFaultMessage ext s) := by
  unfold execFaultMessage
  split <;> simp

@[simp] theorem execErrPulseEnd_keepsFuses (s : State) : KeepsFuses s (execErrPulseEnd s) := by simp [execErrPulseEnd]

@[simp] theorem State.recordWrite_fuses (s : State) (view : Option World) (src v : Nat) : (s.recordWrite view src v).fuses = s.fuses := by
  unfold State.recordWrite
  split
  · split <;> simp
  · simp

@[simp] theorem execRecordClear_keepsFuses (view : Option World) (src : Nat) (v : W32) (s : State) : KeepsFuses s (execRecordClear view src v s) := by
  simp [execRecordClear]

@[simp] theorem State.inject_fuses (s : State) (fn : World) (m : W64) : (s.inject fn m).fuses = s.fuses := by simp [State.inject]
@[simp] theorem execFaultInject_keepsFuses (fn : World) (hi : W32) (s : State) : KeepsFuses s (execFaultInject fn hi s) := by simp [execFaultInject]
@[simp] theorem State.errHoldSet_fuses (s : State) (fn : World) (v : Nat) : (s.errHoldSet fn v).fuses = s.fuses := by simp [State.errHoldSet]
@[simp] theorem execErrHoldWrite_keepsFuses (fn : World) (v : W32) (s : State) : KeepsFuses s (execErrHoldWrite fn v s) := by simp [execErrHoldWrite]
@[simp] theorem execStudyHoldSet_keepsFuses (s : State) : KeepsFuses s (execStudyHoldSet s) := by simp [execStudyHoldSet]
@[simp] theorem execSaveArmed_keepsFuses (milliV : Nat) (s : State) : KeepsFuses s (execSaveArmed milliV s) := by simp [execSaveArmed]
@[simp] theorem execSaveDisarmed_keepsFuses (milliV : Nat) (s : State) : KeepsFuses s (execSaveDisarmed milliV s) := by simp [execSaveDisarmed]
@[simp] theorem State.fcWrite_fuses (s : State) (fn : World) (off : Nat) (v : W32) : (s.fcWrite fn off v).fuses = s.fuses := by simp [State.fcWrite]

/-! ### Pantry and the host windows (Pantry.lean) -/

@[simp] theorem execPnAlert_keepsFuses (ch : Nat) (s : State) : KeepsFuses s (execPnAlert ch s) := by simp -implicitDefEqProofs [execPnAlert]
@[simp] theorem execRefresh_keepsFuses (ch dev : Nat) (s : State) : KeepsFuses s (execRefresh ch dev s) := by simp [execRefresh]

@[simp] theorem execScrub_keepsFuses (s : State) : KeepsFuses s (execScrub s) := by
  unfold execScrub
  split
  · dsimp only
    split <;> simp
  · simp

@[simp] theorem State.xlatCommit_fuses (s : State) (fn : World) (v : Nat) : (s.xlatCommit fn v).fuses = s.fuses := by
  simp -implicitDefEqProofs [State.xlatCommit]

@[simp] theorem execXlatCommit_keepsFuses (fn : World) (hi : W32) (s : State) : KeepsFuses s (execXlatCommit fn hi s) := by simp [execXlatCommit]
@[simp] theorem execXlatDrainDone_keepsFuses (fn : World) (s : State) : KeepsFuses s (execXlatDrainDone fn s) := by simp [execXlatDrainDone]

@[simp] theorem State.pnRegWrite_fuses (s : State) (fn : World) (off : Nat) (v : W32) : (s.pnRegWrite fn off v).fuses = s.fuses := by
  simp [State.pnRegWrite]

@[simp] theorem execBar2Access_keepsFuses (fn : World) (off len : Nat) (data : Option (List Byte)) (s : State) :
    KeepsFuses s (execBar2Access fn off len data s) := by
  unfold execBar2Access
  split <;> simp

/-! ### The Granite control words (Granite.lean) -/

/-- The words of the Granite controls: a write changes no fuse. -/
def ControlWord.KeepsFuses (x : ControlWord) : Prop := ∀ v s, (x.put v s).fuses = s.fuses

@[simp] theorem imgWord_keepsFuses (get : ImageCfg → Nat) (set : Nat → ImageCfg → ImageCfg) (j : Nat) : (imgWord get set j).KeepsFuses :=
  fun _ _ => rfl

@[simp] theorem graniteCfgWord_keepsFuses (get : WorldCfg → Nat) (set : Nat → WorldCfg → WorldCfg) (j : Nat) :
    (graniteCfgWord get set j).KeepsFuses :=
  fun _ _ => State.modWcfg_fuses ..

@[simp] theorem noWord_keepsFuses : noWord.KeepsFuses := fun _ _ => rfl

@[simp] theorem ControlWord.keepsFuses_ite (p : Prop) [Decidable p] (x y : ControlWord) :
    (if p then x else y).KeepsFuses ↔ (p → x.KeepsFuses) ∧ (¬p → y.KeepsFuses) := by
  split <;> simp [*]

@[simp] theorem ControlWord.keepsFuses_mk (r : State → Nat) (k : Nat → State → State) :
    (ControlWord.mk r k).KeepsFuses ↔ ∀ v s, (k v s).fuses = s.fuses := Iff.rfl

@[simp] theorem assignWord_keepsFuses (i : Nat) : (assignWord i).KeepsFuses := by
  simp [assignWord]

@[simp] theorem hostWord_keepsFuses (i : Nat) : (hostWord i).KeepsFuses := by
  unfold hostWord
  split <;> apply graniteCfgWord_keepsFuses

@[simp] theorem driveWord_keepsFuses (n i : Nat) : (driveWord n i).KeepsFuses := by
  intro v s
  unfold driveWord
  dsimp only
  split <;> simp

@[simp] theorem portModeWord_keepsFuses (n : Nat) : (portModeWord n).KeepsFuses := by
  intro v s
  simp [portModeWord]

@[simp] theorem laneWord_keepsFuses (l j : Nat) : (laneWord l j).KeepsFuses := fun _ _ => rfl

@[simp] theorem controlWord_keepsFuses (i : Nat) : (controlWord i).KeepsFuses := by
  simp [controlWord]

@[simp] theorem State.copiesSet_fuses (s : State) (i : Nat) (l : List CopyRead) : (s.copiesSet i l).fuses = s.fuses := by simp [State.copiesSet]

@[simp] theorem State.wordVoted_fuses (s : State) (i : Nat) (v : W32) : (s.wordVoted i v).fuses = s.fuses := by
  have h : ∀ v t, ((controlWord i).put v t).fuses = t.fuses := controlWord_keepsFuses i
  simp [State.wordVoted, h]

/-! ### Attestation, JTAG and SMBus (Security.lean) -/

@[simp] theorem State.attestSample_fuses (s : State) (r : AttestReq) : (s.attestSample r).fuses = s.fuses := by simp [State.attestSample]

@[simp] theorem execDevkeyDerived_keepsFuses (s : State) : KeepsFuses s (execDevkeyDerived s) := by
  unfold execDevkeyDerived
  split
  · dsimp only
    split <;> simp
  · simp

@[simp] theorem execAttest_keepsFuses (fn : World) (s : State) : KeepsFuses s (execAttest fn s) := by
  unfold execAttest
  split
  · simp
  · dsimp only
    split <;> simp

@[simp] theorem execReportWritten_keepsFuses (r : LinkResult) (s : State) : KeepsFuses s (execReportWritten r s) := by
  unfold execReportWritten
  split
  · simp
  · split <;> simp

@[simp] theorem State.visitsHalt_fuses (s : State) : s.visitsHalt.fuses = s.fuses := by simp [State.visitsHalt]
@[simp] theorem State.graniteStop_fuses (s : State) : s.graniteStop.fuses = s.fuses := by simp [State.graniteStop]

@[simp] theorem execTripleSweep_keepsFuses (word : Nat) (a b d : CopyRead) (s : State) : KeepsFuses s (execTripleSweep word a b d s) := by
  unfold execTripleSweep
  dsimp only
  split
  · split <;> simp
  · simp

@[simp] theorem State.jtagLoad_fuses (s : State) (code : Nat) : (s.jtagLoad code).fuses = s.fuses := by simp [State.jtagLoad]
@[simp] theorem State.jtagRefuse_fuses (s : State) : s.jtagRefuse.fuses = s.fuses := by simp [State.jtagRefuse]

@[simp] theorem State.jtagRun_keepsFuses (s : State) (code : Nat) (ok : Bool) (k : State → State) (h : ∀ t, (k t).fuses = t.fuses) :
    KeepsFuses s (s.jtagRun code ok k) := by
  simp [State.jtagRun, h]

@[simp] theorem execIdcode_keepsFuses (s : State) : KeepsFuses s (execIdcode s) := by simp -implicitDefEqProofs [execIdcode]
@[simp] theorem execSample_keepsFuses (s : State) : KeepsFuses s (execSample s) := by simp [execSample]
@[simp] theorem execExtest_keepsFuses (s : State) : KeepsFuses s (execExtest s) := by simp [execExtest]
@[simp] theorem execClamp_keepsFuses (s : State) : KeepsFuses s (execClamp s) := by simp [execClamp]
@[simp] theorem execHighz_keepsFuses (s : State) : KeepsFuses s (execHighz s) := by simp [execHighz]
@[simp] theorem execBypass_keepsFuses (s : State) (code : BitVec 8) : KeepsFuses s (execBypass s code) := by simp [execBypass]
@[simp] theorem execDbgHalt_keepsFuses (s : State) : KeepsFuses s (execDbgHalt s) := by simp [execDbgHalt]
@[simp] theorem execDbgRun_keepsFuses (s : State) : KeepsFuses s (execDbgRun s) := by simp [execDbgRun]

@[simp] theorem State.debugOpen_fuses (s : State) (w : World) : (s.debugOpen w).fuses = s.fuses := by
  unfold State.debugOpen
  split <;> simp

@[simp] theorem State.freeBytes_fuses (s : State) (n : Nat) : (s.freeBytes n).2.fuses = s.fuses := by simp [State.freeBytes]

@[simp] theorem State.debugGet_fuses (s : State) (t : DebugTarget) : (s.debugGet t).fuses = s.fuses := by
  unfold State.debugGet
  split <;> simp

@[simp] theorem execDbgRead_keepsFuses (t : DebugTarget) (s : State) : KeepsFuses s (execDbgRead t s) := by
  unfold execDbgRead
  split <;> simp

@[simp] theorem State.debugPut_fuses (s : State) (t : DebugTarget) (data : List Byte) : (s.debugPut t data).fuses = s.fuses := by
  unfold State.debugPut
  split <;> simp

@[simp] theorem execDbgWrite_keepsFuses (t : DebugTarget) (data : List Byte) (s : State) : KeepsFuses s (execDbgWrite t data s) := by
  unfold execDbgWrite
  split <;> simp

theorem execLcAdvance_keepsProgrammed (s : State) : KeepsProgrammed s (execLcAdvance s) := by
  unfold execLcAdvance State.jtagRun
  rw [keepsProgrammed_next]
  split
  · rfl
  split
  · dsimp only
    split <;> simp
  · simp

theorem execLcRetire_keepsProgrammed (s : State) : KeepsProgrammed s (execLcRetire s) := by
  unfold execLcRetire State.jtagRun
  rw [keepsProgrammed_next]
  split
  · rfl
  split <;> rfl

@[simp] theorem State.smbus_keepsFuses (s : State) (cmd v : Nat) (acc : SmbAccess) : KeepsFuses s (s.smbus cmd v acc) := by
  unfold State.smbus
  split
  · split <;> simp
  · simp

@[simp] theorem execSmbFyId_keepsFuses (s : State) (acc : SmbAccess) : KeepsFuses s (execSmbFyId s acc) := by simp [execSmbFyId]
@[simp] theorem execSmbAtStatus_keepsFuses (s : State) (acc : SmbAccess) : KeepsFuses s (execSmbAtStatus s acc) := by simp [execSmbAtStatus]

@[simp] theorem execSmbFaultSummary_keepsFuses (s : State) (acc : SmbAccess) : KeepsFuses s (execSmbFaultSummary s acc) := by
  simp [execSmbFaultSummary]

@[simp] theorem execSmbDieMeas_keepsFuses (s : State) (acc : SmbAccess) : KeepsFuses s (execSmbDieMeas s acc) := by simp [execSmbDieMeas]
@[simp] theorem execSmbHoldup_keepsFuses (s : State) (acc : SmbAccess) : KeepsFuses s (execSmbHoldup s acc) := by simp [execSmbHoldup]
@[simp] theorem execSmbClStatus_keepsFuses (s : State) (acc : SmbAccess) : KeepsFuses s (execSmbClStatus s acc) := by simp [execSmbClStatus]

/-! ### Registers in BAR0 (Regs.lean) -/

@[simp] theorem State.hostRead_fuses (s : State) (fn : World) (off : Nat) : (s.hostRead fn off).2.fuses = s.fuses := by simp [State.hostRead]

@[simp] theorem State.hostRead64_fuses (s : State) (fn : World) (off : Nat) : (s.hostRead64 fn off).2.fuses = s.fuses := by
  unfold State.hostRead64
  split <;> simp

@[simp] theorem execLinkedLowRead_keepsFuses (fn : World) (off : Nat) (s : State) (wide : Bool) : KeepsFuses s (execLinkedLowRead fn off s wide) := by
  simp [execLinkedLowRead]

@[simp] theorem execLinkedHighRead_keepsFuses (fn : World) (off : Nat) (s : State) : KeepsFuses s (execLinkedHighRead fn off s) := by
  simp [execLinkedHighRead]

@[simp] theorem State.holdLow_fuses (s : State) (fn : World) (off : Nat) (v : W32) : (s.holdLow fn off v).fuses = s.fuses := by
  simp -implicitDefEqProofs [State.holdLow]

@[simp] theorem State.write64_fuses (s : State) (fn : World) (off : Nat) (v : W64) : (s.write64 fn off v).fuses = s.fuses := by simp [State.write64]
@[simp] theorem State.fyWrite_fuses (s : State) (fn : World) (off : Nat) (v : W32) : (s.fyWrite fn off v).fuses = s.fuses := by simp [State.fyWrite]
@[simp] theorem State.write32_fuses (s : State) (fn : World) (off : Nat) (v : W32) : (s.write32 fn off v).fuses = s.fuses := by simp [State.write32]

@[simp] theorem execRegisterWrite_keepsFuses (fn : World) (off : Nat) (wide : Bool) (v : W64) (s : State) :
    KeepsFuses s (execRegisterWrite fn off wide v s) := by simp [execRegisterWrite]

@[simp] theorem execMisalignedRegAccess_keepsFuses (fn : World) (off bytes : Nat) (isWrite : Bool) (s : State) :
    KeepsFuses s (execMisalignedRegAccess fn off bytes isWrite s) := by simp [execMisalignedRegAccess]

/-! ### The words that a context executes (Words.lean) -/

@[simp] theorem hearthRun_keepsFuses (i : Instr) (s : State) : KeepsFuses s (hearthRun i s) := by
  cases i <;> simp [hearthRun]

@[simp] theorem execXblk_keepsFuses (c : Nat) (w : W32) (s : State) : KeepsFuses s (execXblk c w s) := by
  unfold execXblk
  split <;> simp

/-! ### Time that passes (Step.lean) -/

@[simp] theorem State.idle_fuses (s : State) : s.idle.fuses = s.fuses := by simp [State.idle]

/-! ### Every command and every step (R494, R496, R497, R505) -/

/-- A command that is no FUSE_PROG leaves the programmed fields: five commands may blow bits of REVOKE or LIFECYCLE, the others no fuse. -/
theorem exec_keepsProgrammed {i : Instr} (hi : ∀ f v, i ≠ .fuseProg f v) (s : State) : KeepsProgrammed s (exec i s) := by
  cases i
  case fuseProg f v => exact absurd rfl (hi f v)
  case auditRecordWrite => exact execAuditRecordWrite_keepsProgrammed s
  case saveCommit => exact execSaveCommit_keepsProgrammed s
  case keyRevoke => exact execKeyRevoke_keepsProgrammed s
  case lcAdvance => exact execLcAdvance_keepsProgrammed s
  case lcRetire => exact execLcRetire_keepsProgrammed s
  all_goals exact KeepsFuses.programmed (by simp [exec])

/-- A step whose front command is no FUSE_PROG leaves the programmed fields; where no command waits, time passes. -/
theorem step_keepsProgrammed {s : State} (h : ∀ f v rest, s.pending ≠ .fuseProg f v :: rest) : KeepsProgrammed s (step s) := by
  unfold step
  split
  · simp
  · rename_i c rest hp
    exact exec_keepsProgrammed (fun f v hc => h f v rest (hc ▸ hp)) { s with pending := rest }

theorem Fuses.programmed_eq_iff {f g : Fuses} :
    f.programmed = g.programmed ↔ { f with revoke := g.revoke, lifecycle := g.lifecycle } = g := by
  cases f
  cases g
  simp [Fuses.programmed]

/-! ### FUSE_PROG where the state does not allow it (R497, R506) -/

/-- A field that the state does not allow, or a taken slot, gives no fuses to program. -/
theorem State.fuseSet_eq_none {s : State} {f : FuseField} (h : ¬MayProgram s f) (v : BitVec 768) : s.fuseSet f v = none := by
  unfold State.fuseSet
  cases f <;> simp_all [MayProgram]

theorem execFuseProg_of_not_mayProgram {s : State} {f : FuseField} (h : ¬MayProgram s f) (v : BitVec 768) :
    execFuseProg f v s = .next (if s.powered then s.jtagRefuse else s) := by
  unfold execFuseProg State.jtagRun
  rw [State.fuseSet_eq_none h v]
  cases s.powered <;> rfl

/-- Settles O59: every command but FUSE_PROG leaves the programmed fields, and so does the passing of time; a FUSE_PROG that the state does not
allow is refused, so it only selects BYPASS, or does nothing while the device has no power. -/
theorem fusesAreProgrammedOnlyByFuseProg : Obligations.FusesAreProgrammedOnlyByFuseProg := by
  unfold Obligations.FusesAreProgrammedOnlyByFuseProg
  refine ⟨fun s t hstep hfront => ?step, fun s f v hf => ?refused⟩
  case step => exact Fuses.programmed_eq_iff.mp (step_keepsProgrammed hfront t hstep)
  case refused =>
    refine ⟨_, execFuseProg_of_not_mayProgram hf v, ?_, fun hrails hlost => ?_⟩
    · split <;> rfl
    · rw [if_pos (by simp [State.powered, hrails, hlost])]
      rfl

end Sys2Proof.Machine

namespace Sys2Proof.Machine

/-! ### Blown fuses stay blown (R494)

Six commands change a fuse; each programs an empty slot, sets bits by OR, or raises the lifecycle. -/

theorem bitsKept_refl (a : Nat) : bitsKept a a = true := by simp [bitsKept]

theorem bitsKept_or (a b : Nat) : bitsKept a (a ||| b) = true := by simp [bitsKept]

theorem bitsKept_trans {a b c : Nat} (h : bitsKept a b = true) (k : bitsKept b c = true) : bitsKept a c = true := by
  simp only [bitsKept, decide_eq_true_eq] at h k ⊢
  rw [← k, ← Nat.or_assoc, h]

theorem slotsKept_refl (a : Tbl Nat) : slotsKept a a = true := by simp [slotsKept]

/-- A slot that holds 0 may be programmed. -/
theorem slotsKept_put {a : Tbl Nat} {k : Nat} (h : Tbl.get 0 a k = 0) (v : Nat) : slotsKept a (Tbl.put 0 a k v) = true := by
  simp only [slotsKept, List.all_eq_true, Bool.or_eq_true, decide_eq_true_eq]
  intro j _
  by_cases hj : j = k
  · exact .inl (hj ▸ h)
  · exact .inr (Tbl.get_put_ne 0 a v hj)

@[simp] theorem Fuses.kept_refl (f : Fuses) : f.kept f = true := by simp [Fuses.kept, bitsKept_refl, slotsKept_refl]

@[simp] theorem Fuses.kept_lifecycle (f : Fuses) (n : Nat) : f.kept { f with lifecycle := Nat.max f.lifecycle n } = true := by
  simp [Fuses.kept, bitsKept_refl, slotsKept_refl]

theorem Fuses.kept_revoke {f : Fuses} {r : Nat} (h : bitsKept f.revoke r = true) : f.kept { f with revoke := r } = true := by
  simp [Fuses.kept, bitsKept_refl, slotsKept_refl, h]

/-- No step that answers with this result has lost a blown fuse. -/
def KeepsBlown (s : State) (r : Result) : Prop := ∀ t, r = .next t → s.fuses.kept t.fuses = true

@[simp] theorem keepsBlown_next {s t : State} : KeepsBlown s (.next t) ↔ s.fuses.kept t.fuses = true :=
  ⟨fun h => h t rfl, fun h u hu => by cases hu; exact h⟩

theorem KeepsFuses.blown {s : State} {r : Result} (h : KeepsFuses s r) : KeepsBlown s r :=
  fun t ht => by rw [h t ht]; exact Fuses.kept_refl _

@[simp] theorem State.lcBlow_kept (s : State) : s.fuses.kept s.lcBlow.fuses = true := Fuses.kept_lifecycle _ _

theorem State.auditWritten_kept {s : State} {f : Fuses} (h : s.fuses = f) (n : Nat) : f.kept (s.auditWritten n).fuses = true := by
  subst h
  unfold State.auditWritten
  dsimp only
  split
  · exact Fuses.kept_lifecycle _ _
  · exact Fuses.kept_refl _

theorem execAuditRecordWrite_keepsBlown (s : State) : KeepsBlown s (execAuditRecordWrite s) := by
  unfold execAuditRecordWrite
  split
  · exact keepsBlown_next.mpr (State.auditWritten_kept (by simp) 1)
  · simp

theorem execSaveCommit_keepsBlown (s : State) : KeepsBlown s (execSaveCommit s) := by
  unfold execSaveCommit
  split
  · exact keepsBlown_next.mpr (State.auditWritten_kept (by simp) _)
  · simp

theorem bitsKept_foldl_or (l : List Nat) (e : Nat → Nat) (r : Nat) : bitsKept r (l.foldl (fun r k => r ||| e k) r) = true := by
  induction l generalizing r with
  | nil => exact bitsKept_refl r
  | cons k l ih => exact bitsKept_trans (bitsKept_or r (e k)) (ih _)

theorem State.blowRevoke_bits (s : State) (kind : Nat) (l : List Nat) : bitsKept s.fuses.revoke (s.blowRevoke kind l).fuses.revoke = true :=
  bitsKept_foldl_or l _ _

theorem execKeyRevoke_keepsBlown (s : State) : KeepsBlown s (execKeyRevoke s) := by
  unfold execKeyRevoke
  split
  · simp
  · rw [keepsBlown_next, foldl_fuses _ _ _ (fun t _ => State.auditAdvance_fuses t)]
    exact Fuses.kept_revoke (bitsKept_trans (State.blowRevoke_bits s 0 _)
      (bitsKept_trans (State.blowRevoke_bits (s.blowRevoke 0 _) 1 _) (State.blowRevoke_bits ((s.blowRevoke 0 _).blowRevoke 1 _) 2 _)))

/-- A JTAG instruction that is refused, or finds no power, blows no fuse; one that acts does what its effect does. -/
theorem State.jtagRun_keepsBlown {s : State} {k : State → State} (h : ∀ t, t.fuses = s.fuses → s.fuses.kept (k t).fuses = true)
    (code : Nat) (ok : Bool) : KeepsBlown s (s.jtagRun code ok k) := by
  unfold State.jtagRun
  rw [keepsBlown_next]
  split
  · exact Fuses.kept_refl _
  split
  · exact h _ rfl
  · exact Fuses.kept_refl _

theorem execLcAdvance_keepsBlown (s : State) : KeepsBlown s (execLcAdvance s) := by
  unfold execLcAdvance
  refine State.jtagRun_keepsBlown (fun t ht => ?_) _ _
  rw [← ht, ← State.auditAdvance_fuses t]
  dsimp only
  split
  · exact State.lcBlow_kept _
  · exact Fuses.kept_refl _

theorem execLcRetire_keepsBlown (s : State) : KeepsBlown s (execLcRetire s) :=
  State.jtagRun_keepsBlown (fun _ ht => ht ▸ Fuses.kept_lifecycle _ _) _ _

/-- FUSE_PROG programs a slot that holds 0, or sets bits by OR. -/
theorem State.fuseSet_kept {s : State} {f : FuseField} {v : BitVec 768} {g : Fuses} (h : s.fuseSet f v = some g) : s.fuses.kept g = true := by
  unfold State.fuseSet at h
  cases f <;> simp only [Option.map_eq_some_iff, Option.ite_none_right_eq_some, Option.some.injEq, Bool.and_eq_true, decide_eq_true_eq,
    reduceCtorEq] at h
  case fwKey k | imgKey k | grnKey k =>
    obtain ⟨_, ⟨⟨_, hz⟩, rfl⟩, rfl⟩ := h
    simp [Fuses.kept, bitsKept_refl, slotsKept_refl, slotsKept_put hz]
  case deviceSecret =>
    obtain ⟨_, rfl⟩ := h
    simp [Fuses.kept, bitsKept_refl, slotsKept_refl, ← BitVec.or_assoc]
  case dsn =>
    obtain ⟨_, rfl⟩ := h
    simp [Fuses.kept, bitsKept_refl, slotsKept_refl, bitsKept_or]
  case grade =>
    obtain ⟨_, rfl⟩ := h
    simp only [Fuses.kept, bitsKept_refl, slotsKept_refl]
    cases s.fuses.grade <;> simp

theorem execFuseProg_keepsBlown (f : FuseField) (v : BitVec 768) (s : State) : KeepsBlown s (execFuseProg f v s) := by
  unfold execFuseProg
  split
  · rename_i g hg
    exact State.jtagRun_keepsBlown (fun _ _ => State.fuseSet_kept hg) _ _
  · exact (State.jtagRun_keepsFuses s _ _ _ (fun _ => rfl)).blown

theorem exec_keepsBlown (i : Instr) (s : State) : KeepsBlown s (exec i s) := by
  cases i
  case fuseProg f v => exact execFuseProg_keepsBlown f v s
  case auditRecordWrite => exact execAuditRecordWrite_keepsBlown s
  case saveCommit => exact execSaveCommit_keepsBlown s
  case keyRevoke => exact execKeyRevoke_keepsBlown s
  case lcAdvance => exact execLcAdvance_keepsBlown s
  case lcRetire => exact execLcRetire_keepsBlown s
  all_goals exact KeepsFuses.blown (by simp [exec])

/-- Settles O54: six commands change a fuse, and each only adds to it; every other command, and the passing of time, hands the fuses on. -/
theorem fusesStayBlown : Obligations.FusesStayBlown := by
  unfold Obligations.FusesStayBlown
  intro s t h
  unfold step at h
  split at h
  · cases h
    rw [State.idle_fuses]
    exact Fuses.kept_refl _
  · rename_i c rest _
    exact exec_keepsBlown c { s with pending := rest } t h

end Sys2Proof.Machine

namespace Sys2Proof.Machine

/-- Settles O52: a step takes the command off the front of the queue and runs it on what is left. -/
theorem stepRunsFrontCommand : Obligations.StepRunsFrontCommand := by
  unfold Obligations.StepRunsFrontCommand
  intro c s rest
  rfl

/-! ### The state after reset (R9, R41): every table is empty, so each item is at its default -/

theorem State.reset_portWorld (n : Nat) : State.reset.portWorld n = none := by
  unfold State.portWorld mapWorld
  simp [State.reset, bits]

/-- Settles O53: the reset state lists nothing, so every item of a table has its default value. -/
theorem resetState : Obligations.ResetState := by
  unfold Obligations.ResetState
  have hfn : ∀ w, (State.reset.fn w).host = .off := fun w => by cases w <;> rfl
  have hqs : ∀ w q, (State.reset.sq w q).state = .none ∧ (State.reset.cq w q).state = .none := fun w q => by cases w <;> exact ⟨rfl, rfl⟩
  exact ⟨rfl, rfl, rfl, fun _ => rfl, fun n => ⟨rfl, State.reset_portWorld n⟩, fun _ => ⟨rfl, rfl⟩, hfn, rfl, rfl, rfl, rfl, rfl, rfl, hqs⟩
end Sys2Proof.Machine

namespace Sys2Proof.Machine

/-! ### Bits of a status word (R8, R125) -/

theorem bitAt_eq_testBit (v i : Nat) : bitAt v i = v.testBit i := by
  simp only [bitAt, bits, Nat.testBit_eq_decide_div_mod_eq, Nat.pow_one]

theorem getLsbD_eq_bitAt {n : Nat} (v : BitVec n) (i : Nat) : v.getLsbD i = bitAt v.toNat i := (bitAt_eq_testBit v.toNat i).symm

/-- Two numbers that agree in a field of n bits at lo agree in each bit of it. -/
theorem testBit_eq_of_bits {u v lo n i : Nat} (h : bits u lo n = bits v lo n) (hlo : lo ≤ i) (hhi : i < lo + n) :
    u.testBit i = v.testBit i := by
  have hk := congrArg (fun w => Nat.testBit w (i - lo)) h
  simpa [bits, Nat.testBit_mod_two_pow, Nat.testBit_div_two_pow, show i - lo < n by omega, Nat.sub_add_cancel hlo] using hk

theorem testBit_eq_of_div {u v lo i : Nat} (h : u / 2 ^ lo = v / 2 ^ lo) (hlo : lo ≤ i) : u.testBit i = v.testBit i := by
  have hk := congrArg (fun w => Nat.testBit w (i - lo)) h
  simpa [Nat.testBit_div_two_pow, Nat.sub_add_cancel hlo] using hk

/-- A window is closed, or counts down within NIC (R191). -/
theorem windowAfter_cases (v n : Nat) : (v / 256 % 128 ≤ n ∧ windowAfter v n = v - v / 256 % 128 * 256 - v / 16 % 2 * 16)
    ∨ (n < v / 256 % 128 ∧ windowAfter v n = v - n * 256) := by
  by_cases h : v / 256 % 128 ≤ n
  · exact .inl ⟨h, if_pos h⟩
  · exact .inr ⟨Nat.lt_of_not_le h, if_neg h⟩

/-- Counting a window down changes the fields NI and NIC alone (R191). -/
theorem testBit_windowAfter (v n i : Nat) (h4 : i ≠ 4) (h8 : ¬(8 ≤ i ∧ i < 15)) : (windowAfter v n).testBit i = v.testBit i := by
  rcases Nat.lt_or_ge i 4 with h | h
  · refine testBit_eq_of_bits (lo := 0) (n := 4) ?_ (by omega) (by omega)
    unfold bits
    rcases windowAfter_cases v n with ⟨hk, hw⟩ | ⟨hk, hw⟩ <;> omega
  rcases Nat.lt_or_ge i 8 with h' | h'
  · refine testBit_eq_of_bits (lo := 5) (n := 3) ?_ (by omega) (by omega)
    unfold bits
    rcases windowAfter_cases v n with ⟨hk, hw⟩ | ⟨hk, hw⟩ <;> omega
  · refine testBit_eq_of_div (lo := 15) ?_ (by omega)
    rcases windowAfter_cases v n with ⟨hk, hw⟩ | ⟨hk, hw⟩ <;> omega

theorem getLsbD_windowAfter (v : W64) (n i : Nat) (h4 : i ≠ 4) (h8 : ¬(8 ≤ i ∧ i < 15)) :
    (BitVec.ofNat 64 (windowAfter v.toNat n)).getLsbD i = v.getLsbD i := by
  have hle : windowAfter v.toNat n ≤ v.toNat := by
    rcases windowAfter_cases v.toNat n with ⟨hk, hw⟩ | ⟨hk, hw⟩ <;> omega
  rw [BitVec.getLsbD_ofNat, testBit_windowAfter _ _ _ h4 h8]
  rcases Nat.lt_or_ge i 64 with hi | hi
  · simp [hi, BitVec.getLsbD]
  · simp [Nat.not_lt.mpr hi, BitVec.getLsbD_of_ge v i hi]

/-! ### What a retirement leaves of a context (R137 to R150, R191) -/

/-- The context with other general registers. -/
def Ctx.withRegs (x : Ctx) (l : Tbl W64) : Ctx := { x with regs := l }

theorem Ctx.setG_eq (x : Ctx) (r : Reg) (v : W64) : x.setG r v = x.withRegs (x.setG r v).regs := by
  unfold Ctx.setG
  split <;> rfl

/-- Register writes change the general registers alone. -/
theorem Ctx.setAll_eq (x : Ctx) (l : List (Reg × W64)) : x.setAll l = x.withRegs (x.setAll l).regs := by
  induction l generalizing x with
  | nil => rfl
  | cons p l ih =>
    calc x.setAll (p :: l) = (x.setG p.1 p.2).withRegs ((x.setG p.1 p.2).setAll l).regs := ih _
      _ = x.withRegs (x.setAll (p :: l)).regs :=
          (congrArg (fun y : Ctx => y.withRegs ((x.setG p.1 p.2).setAll l).regs) (Ctx.setG_eq x p.1 p.2)).trans rfl

theorem Ctx.g_congr {x y : Ctx} (h : x.regs = y.regs) (r : Reg) : x.g r = y.g r := by unfold Ctx.g; rw [h]

/-- Where control goes at a retirement is of pc, the loop, the repetition and the delay slot alone. -/
theorem Ctx.advance_frame (x : Ctx) (r : Ret) :
    { x.advance r with pc := x.pc, lc := x.lc, rc := x.rc, rep := x.rep, branch := x.branch } = x := by
  unfold Ctx.advance Ctx.seqNext
  repeat' split
  all_goals rfl

/-- What an instruction that retires leaves before control moves: its writes, the results that were delayed before it, its own delayed
results, and the window counted down. -/
def Ctx.retired1 (x : Ctx) (r : Ret) : Ctx :=
  { x with
    regs := (x.setAll r.writes).flush.regs, delayed := r.late
    st := BitVec.ofNat 64 (windowAfter x.st.toNat (if r.yield then 127 else x.windowCount r))
    retired := x.retired + x.retireCount r, shadow := false }

theorem Ctx.retire_eq (x : Ctx) {r : Ret} (h : r.stay = false) : x.retire r = (x.retired1 r).advance r := by
  have hf : (x.setAll r.writes).flush = { x.withRegs (x.setAll r.writes).flush.regs with delayed := [] } := by
    unfold Ctx.flush
    rw [Ctx.setAll_eq (x.setAll r.writes), Ctx.setAll_eq x]
    rfl
  unfold Ctx.retire
  rw [h, hf]
  simp only [Bool.false_eq_true, if_false, Bool.and_false]
  rfl

@[simp] theorem Ctx.advance_regs (x : Ctx) (r : Ret) : (x.advance r).regs = x.regs := (congrArg Ctx.regs (Ctx.advance_frame x r) :)
@[simp] theorem Ctx.advance_delayed (x : Ctx) (r : Ret) : (x.advance r).delayed = x.delayed :=
  (congrArg Ctx.delayed (Ctx.advance_frame x r) :)
@[simp] theorem Ctx.advance_st (x : Ctx) (r : Ret) : (x.advance r).st = x.st := (congrArg Ctx.st (Ctx.advance_frame x r) :)
@[simp] theorem Ctx.advance_due (x : Ctx) (r : Ret) : (x.advance r).due = x.due := (congrArg Ctx.due (Ctx.advance_frame x r) :)
@[simp] theorem Ctx.advance_asyncErr (x : Ctx) (r : Ret) : (x.advance r).asyncErr = x.asyncErr :=
  (congrArg Ctx.asyncErr (Ctx.advance_frame x r) :)
@[simp] theorem Ctx.advance_slotDue (x : Ctx) (r : Ret) : (x.advance r).slotDue = x.slotDue :=
  (congrArg Ctx.slotDue (Ctx.advance_frame x r) :)

/-- A retirement changes of its context what every instruction moves. -/
theorem Ctx.retire_ctxFrame (x : Ctx) {r : Ret} (h : r.stay = false) : CtxFrame x (x.retire r) := by
  rw [Ctx.retire_eq x h]
  refine ⟨?_, fun i h4 h8 => ?_⟩
  · have ha := congrArg (fun y : Ctx => { y with
      regs := x.regs, delayed := x.delayed, st := x.st, shadow := x.shadow, retired := x.retired }) (Ctx.advance_frame (x.retired1 r) r)
    exact ha
  · rw [Ctx.advance_st]
    exact getLsbD_windowAfter x.st _ i h4 h8

theorem Ctx.retire_regs (x : Ctx) {r : Ret} (h : r.stay = false) : (x.retire r).regs = (x.setAll r.writes).flush.regs := by
  rw [Ctx.retire_eq x h, Ctx.advance_regs]
  rfl

theorem Ctx.retire_g (x : Ctx) {r : Ret} (h : r.stay = false) (k : Reg) : (x.retire r).g k = (x.setAll r.writes).flush.g k :=
  Ctx.g_congr (Ctx.retire_regs x h) k

theorem Ctx.retire_delayed (x : Ctx) {r : Ret} (h : r.stay = false) : (x.retire r).delayed = r.late := by
  rw [Ctx.retire_eq x h, Ctx.advance_delayed]
  rfl

/-! ### The fetch of an instruction (R133, R345) -/

/-- The state with other counts of corrected bursts and other marks of errors in Pantry. -/
def State.withCorr (s : State) (k : Tbl Nat) (e : Tbl (List Nat)) : State := s.modPn (fun p => { p with corr := k, errs := e })

/-- A burst that is good, or corrected, leaves at most its correction. -/
theorem State.pnCheckBurst_good {s : State} {b : Nat} {ok : Bool} (h : (State.pnCheckBurst (ok, s) b).1 = true) :
    ok = true ∧ ∃ k e, (State.pnCheckBurst (ok, s) b).2 = s.withCorr k e := by
  unfold State.pnCheckBurst at h ⊢
  split at h
  · exact absurd h (by simp)
  · exact ⟨h, _, _, rfl⟩
  · exact ⟨h, s.pantry.corr, s.pantry.errs, rfl⟩

/-- A read that finds every burst good leaves at most its corrections. -/
theorem State.foldl_pnCheckBurst_good (l : List Nat) (r : Bool × State) (h : (l.foldl State.pnCheckBurst r).1 = true) :
    r.1 = true ∧ ∃ k e, (l.foldl State.pnCheckBurst r).2 = r.2.withCorr k e := by
  induction l generalizing r with
  | nil => exact ⟨h, r.2.pantry.corr, r.2.pantry.errs, rfl⟩
  | cons b l ih =>
    obtain ⟨h1, k1, e1, hl⟩ := ih _ h
    obtain ⟨h0, k0, e0, hb⟩ := State.pnCheckBurst_good h1
    exact ⟨h0, k1, e1, by rw [List.foldl_cons, hl, hb]; rfl⟩

theorem State.pnCheck_good {s : State} {a n : Nat} (h : (s.pnCheck a n).1 = true) : ∃ k e, (s.pnCheck a n).2 = s.withCorr k e :=
  (State.foldl_pnCheckBurst_good (burstsOf a n) (true, s) h).2

/-- The fetch of an instruction that raises nothing leaves at most Pantry's corrections. -/
theorem State.fetchExc_good {s : State} {c a : Nat} (h : (s.fetchExc c a).1 = none) : ∃ k e, (s.fetchExc c a).2 = s.withCorr k e := by
  unfold State.fetchExc at h ⊢
  split at h
  · exact absurd h (by simp)
  split at h
  · exact absurd h (by simp)
  rename_i hal
  rw [if_neg hal]
  refine State.pnCheck_good (Classical.byContradiction fun hb => ?_)
  simp [hb] at h

@[simp] theorem State.withCorr_ctx (s : State) (k : Tbl Nat) (e : Tbl (List Nat)) (d : Nat) : (s.withCorr k e).ctx d = s.ctx d := rfl

/-- The fetch of an instruction changes no context. -/
@[simp] theorem State.fetchExc_ctx (s : State) (c a d : Nat) : (s.fetchExc c a).2.ctx d = s.ctx d := by
  have hc : (s.pnCheck a 4).2.ctxs = s.ctxs := (congrArg State.ctxs (State.pnCheck_frame s a 4) :)
  unfold State.fetchExc
  split
  · rfl
  · dsimp only
    split
    · rfl
    · unfold State.ctx
      rw [hc]

theorem State.ctx_modCtx_self (s : State) (c : Nat) (f : Ctx → Ctx) : (s.modCtx c f).ctx c = f (s.ctx c) := by
  rw [State.ctx_modCtx, if_pos rfl]

theorem State.ctx_modCtx_ne (s : State) {c d : Nat} (f : Ctx → Ctx) (h : d ≠ c) : (s.modCtx c f).ctx d = s.ctx d := by
  rw [State.ctx_modCtx, if_neg h]

/-! ### An instruction that executes (R117 to R120, R137 to R150) -/

/-- An instruction with these restrictions may stand where the context is: in no delay slot, not last in a loop body, not repeated, where
it says so; a branch's slot is never last in a loop body (R141, R145, R149). -/
def Ctx.allows (x : Ctx) (p : Place1) : Prop :=
  (x.rep = true → p.noRep = false) ∧ (x.branch.isSome = true → p.noSlot = false)
    ∧ (x.lc ≠ 0 → x.rep = false → x.pc = x.le → p.noLe = false ∧ x.branch.isSome = false)

theorem Issues.allows_any {s : State} {c : Nat} (h : Issues s c) : (s.ctx c).allows anyPlace := by
  obtain ⟨_, _, _, _, _, _, _, hle⟩ := h
  exact ⟨fun _ => rfl, fun _ => rfl, fun h1 h2 h3 => ⟨rfl, by
    rw [Bool.eq_false_iff]
    exact fun hb => hle ⟨h1, h2, hb, h3⟩⟩⟩

theorem Issues.allows_norep {s : State} {c : Nat} (h : Issues s c) (hr : (s.ctx c).rep = false) : (s.ctx c).allows norepPlace := by
  obtain ⟨_, h2, h3⟩ := h.allows_any
  exact ⟨fun hrep => by simp [hr] at hrep, h2, h3⟩

theorem IssuesPlain.allows {s : State} {c : Nat} (h : IssuesPlain s c) (p : Place1) : (s.ctx c).allows p := by
  obtain ⟨_, hb, hr, hle⟩ := h
  refine ⟨fun hrep => by simp [hr] at hrep, fun hbr => by simp [hb] at hbr, fun h1 _ h3 => ?_⟩
  exact absurd h3 (hle.resolve_left h1)

/-- The address that an exception of the context's next instruction names: of a branch, in its delay slot (R142). -/
def Ctx.excPc (x : Ctx) : W64 := match x.branch with
  | some (b, _) => b
  | none => x.pc

/-- What becomes of the context's instruction, by the way it ends. -/
def State.instrEnd (s : State) (c : Nat) : IStep → State
  | .exc e t => t.raise c e (s.ctx c).excPc (s.ctx c).branch.isSome
  | .wait w t => t.enterWait c w
  | .ended t => t.countWorld (s.home c) 6 1
  | .retire r t =>
    let t1 := ((t.countWorld (s.home c) 6 ((s.ctx c).retireCount r)).modCtx c (fun y => y.retire r)).afterRetire c
    if r.yield && (t1.ctx c).state = .running && (t1.ctx c).act.isSome then t1.makeReady c else t1

/-- The state in which the operation of the context's next instruction begins: its word has been fetched. -/
def State.fetched (s : State) (c : Nat) : State := (s.fetchExc c (s.ctx c).issueAddr.toNat).2

@[simp] theorem State.fetched_ctx (s : State) (c d : Nat) : (s.fetched c).ctx d = s.ctx d := State.fetchExc_ctx ..

theorem Issues.fetched_eq {s : State} {c : Nat} (h : Issues s c) : ∃ k e, s.fetched c = s.withCorr k e := by
  obtain ⟨_, _, _, _, _, _, hfetch, _⟩ := h
  exact State.fetchExc_good hfetch

/-- An instruction that issues, and may stand where it is, does its operation on the state that its fetch leaves. -/
theorem Issues.instr_eq {s : State} {c : Nat} (h : Issues s c) {p : Place1} (hp : (s.ctx c).allows p) (f : State → Ctx → IStep) :
    s.instr c p f = s.instrEnd c (f (s.fetched c) (s.ctx c)) := by
  obtain ⟨hrun, hact, hiss, hasync, _, _, hfetch, _⟩ := h
  obtain ⟨hrep, hslot, hle⟩ := hp
  have hstop : ((s.ctx c).state ≠ .running || (s.ctx c).act.isNone || ((s.ctx c).rep && p.noRep) || !s.issues (s.home c)) = false := by
    cases hr : (s.ctx c).rep <;> simp_all [Option.isNone_eq_false_iff]
  have hdue : (s.ctx c).asyncDue = false := by simp [Ctx.asyncDue, hasync]
  have hplace : (((s.ctx c).branch.isSome && p.noSlot) || ((s.ctx c).lc ≠ 0 && (s.ctx c).issueAddr = (s.ctx c).le && !(s.ctx c).rep
      && (p.noLe || (s.ctx c).branch.isSome))) = false := by
    rw [Bool.or_eq_false_iff]
    refine ⟨by cases hb : (s.ctx c).branch.isSome <;> simp_all, ?_⟩
    rw [Bool.eq_false_iff]
    intro hl
    simp only [Bool.and_eq_true, decide_eq_true_eq, Bool.not_eq_true', Ctx.issueAddr] at hl
    obtain ⟨⟨⟨h1, h2⟩, h3⟩, h4⟩ := hl
    obtain ⟨h5, h6⟩ := hle h1 h3 (by simpa [h3] using h2)
    simp [h5, h6] at h4
  have hf : s.fetchExc c (if (s.ctx c).rep then (s.ctx c).pc + 4 else (s.ctx c).pc).toNat = (none, s.fetched c) := Prod.ext hfetch rfl
  unfold State.instr
  dsimp only
  rw [hstop, hdue, if_neg Bool.false_ne_true, if_neg Bool.false_ne_true, hf]
  dsimp only
  unfold Ctx.issueAddr at hplace
  rw [hplace, if_neg Bool.false_ne_true]
  rfl

/-- An instruction with nothing due at the boundary after it retires with its count and its results, and no more. -/
theorem State.instrEnd_retire {s t : State} {c : Nat} {r : Ret} (hs : r.stay = false) (hy : r.yield = false)
    (hdue : (t.ctx c).due = none) (hasync : (t.ctx c).asyncErr = none) (hslot : (t.ctx c).slotDue = false) :
    s.instrEnd c (.retire r t) = (t.countWorld (s.home c) 6 ((s.ctx c).retireCount r)).modCtx c (fun y => y.retire r) := by
  have hx : (((t.countWorld (s.home c) 6 ((s.ctx c).retireCount r)).modCtx c (fun y => y.retire r)).ctx c) = (t.ctx c).retire r :=
    State.ctx_modCtx_self ..
  have hr := Ctx.retire_eq (t.ctx c) hs
  unfold State.instrEnd
  dsimp only
  generalize (t.countWorld (s.home c) 6 ((s.ctx c).retireCount r)).modCtx c (fun y => y.retire r) = u at hx ⊢
  rw [hr] at hx
  have hu : u.afterRetire c = u := by
    unfold State.afterRetire Ctx.asyncDue
    dsimp only
    rw [hx]
    simp [Ctx.retired1, hdue, hasync, hx, hslot]
  simp [hu, hy]

/-- Where nothing but the context's next instruction is due, an instruction that retires on a state with the same contexts leaves the context
retired and the other contexts alone. -/
theorem Issues.instrEnd_retire {s t : State} {c : Nat} (h : Issues s c) (ht : t.ctx c = s.ctx c) {r : Ret} (hs : r.stay = false)
    (hy : r.yield = false) :
    s.instrEnd c (.retire r t) = (t.countWorld (s.home c) 6 ((s.ctx c).retireCount r)).modCtx c (fun y => y.retire r) := by
  obtain ⟨_, _, _, hasync, hdue, hslot, _, _⟩ := h
  exact State.instrEnd_retire hs hy (ht ▸ hdue) (ht ▸ hasync) (ht ▸ hslot)

/-- An instruction that retires on a state in which only corrections of Pantry have been counted changes general registers alone. -/
theorem Issues.retire_corr {s : State} {c : Nat} (h : Issues s c) {r : Ret} (hs : r.stay = false) (hy : r.yield = false) (k : Tbl Nat)
    (e : Tbl (List Nat)) :
    (s.instrEnd c (.retire r (s.withCorr k e))).ctx c = (s.ctx c).retire r ∧ RegFrame s (s.instrEnd c (.retire r (s.withCorr k e))) c := by
  have ht := h.instrEnd_retire (State.withCorr_ctx s k e c) hs hy
  have hx : (s.instrEnd c (.retire r (s.withCorr k e))).ctx c = (s.ctx c).retire r := by
    rw [ht, State.ctx_modCtx_self]
    rfl
  refine ⟨hx, hx ▸ Ctx.retire_ctxFrame _ hs, ⟨fun d hd => ?_, ?_⟩, ?_⟩
  · rw [ht, State.ctx_modCtx_ne _ _ hd]
    rfl
  · rw [ht]
    rfl
  · rw [ht]
    exact ⟨fun _ => rfl, fun _ => rfl, fun _ => rfl, fun _ => rfl⟩

theorem Issues.retire_frame {s : State} {c : Nat} (h : Issues s c) {r : Ret} (hs : r.stay = false) (hy : r.yield = false) :
    (s.instrEnd c (.retire r (s.fetched c))).ctx c = (s.ctx c).retire r ∧ RegFrame s (s.instrEnd c (.retire r (s.fetched c))) c := by
  obtain ⟨k, e, hk⟩ := h.fetched_eq
  rw [hk]
  exact h.retire_corr hs hy k e

/-! ### The forms of an instruction that only writes registers -/

/-- RETIRE with one register written at once. -/
theorem Issues.retireW {s : State} {c : Nat} (h : Issues s c) (rd : Reg) (v : W64) :
    let t := s.instrEnd c (Machine.retireW (s.fetched c) rd v)
    WritesReg s t c rd v ∧ RegFrame s t c := by
  obtain ⟨hx, hf⟩ := h.retire_frame (r := { writes := [(rd, v)] }) rfl rfl
  refine ⟨⟨fun r => ?_, ?_⟩, hf⟩
  · exact hx ▸ Ctx.retire_g _ rfl r
  · exact hx ▸ Ctx.retire_delayed _ rfl

end Sys2Proof.Machine

namespace Sys2Proof.Machine

/-! ### The operations of R130 in terms of the model's -/

theorem rotateRight_eq (a : W64) (n : Nat) (h : n < 64) : a.rotateRight n = (a >>> n) ||| (a <<< ((64 - n) % 64)) := by
  rw [BitVec.rotateRight_def, Nat.mod_eq_of_lt h]
  rcases Nat.eq_zero_or_pos n with rfl | hn
  · simp
  · rw [Nat.mod_eq_of_lt (show 64 - n < 64 by omega)]

/-- A choice by ≤ and one by < differ only where the two are equal. -/
theorem ite_le_eq_ite_lt {α β : Type} [LinearOrder α] {u v : α} {x y : β} (h : u = v → x = y) :
    (if u ≤ v then x else y) = if u < v then x else y := by
  rcases lt_trichotomy u v with hlt | heq | hgt
  · rw [if_pos hlt.le, if_pos hlt]
  · rw [h heq, ite_self, ite_self]
  · rw [if_neg hgt.not_ge, if_neg hgt.not_gt]

theorem min_eq (a b : W64) : (if a.toInt ≤ b.toInt then a else b) = if a.slt b then a else b := by
  rw [ite_le_eq_ite_lt BitVec.eq_of_toInt_eq]
  simp only [BitVec.slt_iff_toInt_lt]

theorem max_eq (a b : W64) : (if a.toInt ≤ b.toInt then b else a) = if a.slt b then b else a := by
  rw [ite_le_eq_ite_lt fun h => (BitVec.eq_of_toInt_eq h).symm]
  simp only [BitVec.slt_iff_toInt_lt]

theorem minu_eq (a b : W64) : (if a.toNat ≤ b.toNat then a else b) = if a.ult b then a else b := by
  rw [ite_le_eq_ite_lt BitVec.eq_of_toNat_eq]
  simp only [BitVec.ult_iff_toNat_lt]

theorem maxu_eq (a b : W64) : (if a.toNat ≤ b.toNat then b else a) = if a.ult b then b else a := by
  rw [ite_le_eq_ite_lt fun h => (BitVec.eq_of_toNat_eq h).symm]
  simp only [BitVec.ult_iff_toNat_lt]

theorem mulhu_eq (a b : W64) : BitVec.ofNat 64 (a.toNat * b.toNat / 2 ^ 64) = ((a.setWidth 128 * b.setWidth 128) >>> 64).setWidth 64 := by
  apply BitVec.eq_of_toNat_eq
  have ha := a.isLt
  have hb := b.isLt
  have hab : a.toNat * b.toNat < 2 ^ 128 := by nlinarith
  rw [BitVec.toNat_setWidth, BitVec.toNat_ushiftRight, BitVec.toNat_mul, BitVec.toNat_setWidth_of_le (by omega),
    BitVec.toNat_setWidth_of_le (by omega), Nat.mod_eq_of_lt hab, Nat.shiftRight_eq_div_pow, BitVec.toNat_ofNat]

theorem mulh_eq (a b : W64) : BitVec.ofInt 64 ((a.toInt * b.toInt).fdiv (2 ^ 64)) = ((a.signExtend 128 * b.signExtend 128) >>> 64).setWidth 64 := by
  have hx : a.signExtend 128 * b.signExtend 128 = BitVec.ofInt 128 (a.toInt * b.toInt) := (BitVec.ofInt_mul ..).symm
  rw [hx]
  apply BitVec.eq_of_toNat_eq
  generalize a.toInt * b.toInt = p
  rw [BitVec.toNat_setWidth, BitVec.toNat_ushiftRight, BitVec.toNat_ofInt, BitVec.toNat_ofInt, Nat.shiftRight_eq_div_pow,
    Int.fdiv_eq_ediv_of_nonneg _ (by norm_num)]
  omega

theorem before32_eq (a b : W64) : before32 a b = (a.setWidth 32 - b.setWidth 32 : W32).msb := by
  unfold before32
  rw [BitVec.msb_eq_decide, BitVec.toNat_sub, BitVec.toNat_setWidth, BitVec.toNat_setWidth]
  have hb : b.toNat % 2 ^ 32 < 2 ^ 32 := Nat.mod_lt _ (by norm_num)
  congr 2
  omega

theorem bit64_le {α : Type} [LinearOrder α] (u v : α) : bit64 (u ≤ v) = if v < u then 0 else 1 := by
  rcases le_or_gt u v with h | h
  · rw [if_neg h.not_gt]; simp [bit64, h]
  · rw [if_pos h]; simp [bit64, h.not_ge]

/-- An ALU row of the model completes with its operation's result. -/
theorem completes_aluOp {i : Instr} {s : State} {c : Nat} {f : FmtA} {op : W64 → W64 → W64} (hi : exec i s = .next (s.aluOp c f op))
    (h : Issues s c) {v : W64} (hv : op ((s.ctx c).g f.ra) ((s.ctx c).g f.rb) = v) :
    Completes i s (fun t => WritesReg s t c f.rd v ∧ RegFrame s t c) := by
  refine ⟨_, hi, ?_⟩
  unfold State.aluOp
  rw [h.instr_eq h.allows_any, ← hv]
  exact h.retireW f.rd _

/-- Each row of R130 that cannot trap is one of the model's ALU operations, with the same result. -/
theorem aluRows_op : ∀ row ∈ aluRows, ∃ op : W64 → W64 → W64, (∀ c f s, exec (row.1 c f) s = .next (s.aluOp c f op))
    ∧ ∀ a b, op a b = row.2 a b := by
  simp only [aluRows, List.forall_mem_cons]
  refine ⟨⟨_, fun _ _ _ => rfl, fun a b => ?and⟩, ⟨_, fun _ _ _ => rfl, fun a b => ?or⟩, ⟨_, fun _ _ _ => rfl, fun a b => ?xor⟩,
    ⟨_, fun _ _ _ => rfl, fun a b => ?andn⟩, ⟨_, fun _ _ _ => rfl, fun a b => ?nor⟩, ⟨_, fun _ _ _ => rfl, fun a b => ?sll⟩,
    ⟨_, fun _ _ _ => rfl, fun a b => ?srl⟩, ⟨_, fun _ _ _ => rfl, fun a b => ?sra⟩, ⟨_, fun _ _ _ => rfl, fun a b => ?rotr⟩,
    ⟨_, fun _ _ _ => rfl, fun a b => ?min⟩, ⟨_, fun _ _ _ => rfl, fun a b => ?max⟩, ⟨_, fun _ _ _ => rfl, fun a b => ?minu⟩,
    ⟨_, fun _ _ _ => rfl, fun a b => ?maxu⟩, ⟨_, fun _ _ _ => rfl, fun a b => ?mulh⟩, ⟨_, fun _ _ _ => rfl, fun a b => ?mulhu⟩,
    ⟨_, fun _ _ _ => rfl, fun a b => ?ceq⟩, ⟨_, fun _ _ _ => rfl, fun a b => ?cne⟩, ⟨_, fun _ _ _ => rfl, fun a b => ?clt⟩,
    ⟨_, fun _ _ _ => rfl, fun a b => ?cltu⟩, ⟨_, fun _ _ _ => rfl, fun a b => ?cle⟩, ⟨_, fun _ _ _ => rfl, fun a b => ?cleu⟩,
    ⟨_, fun _ _ _ => rfl, fun a b => ?cbef32⟩, nofun⟩
  case rotr => exact rotateRight_eq a _ (Nat.mod_lt _ (by norm_num))
  case min => exact min_eq a b
  case max => exact max_eq a b
  case minu => exact minu_eq a b
  case maxu => exact maxu_eq a b
  case mulh => exact mulh_eq a b
  case mulhu => exact mulhu_eq a b
  case ceq => simp [bit64]
  case cne => simp [bit64]
  case clt => simp [bit64, BitVec.slt_iff_toInt_lt]
  case cltu => simp [bit64, BitVec.ult_iff_toNat_lt]
  case cle => simp only [bit64_le, BitVec.slt_iff_toInt_lt]
  case cleu => simp only [bit64_le, BitVec.ult_iff_toNat_lt]
  case cbef32 => simp [bit64, before32_eq]
  all_goals rfl

theorem aluWritesResult : AluWritesResult := by
  intro row hrow s c f h
  obtain ⟨op, hexec, hop⟩ := aluRows_op row hrow
  exact completes_aluOp (hexec c f s) h (hop _ _)

end Sys2Proof.Machine

namespace Sys2Proof.Machine

/-! ### Bytes of a number (R6) -/

theorem leBytes_getElem (n v i : Nat) (h : i < (leBytes n v).length) : (leBytes n v)[i] = BitVec.ofNat 8 (v / 2 ^ (8 * i)) := by
  induction n generalizing v i with
  | zero => simp at h
  | succ n ih =>
    cases i with
    | zero => simp [leBytes]
    | succ i =>
      simp only [leBytes, List.getElem_cons_succ]
      rw [ih]
      congr 1
      rw [show 8 * (i + 1) = 8 + 8 * i by omega, Nat.pow_add, ← Nat.div_div_eq_div_mul]

theorem leNat_div (l : List Byte) (i : Nat) (h : i < l.length) : leNat l / 2 ^ (8 * i) % 256 = l[i].toNat := by
  induction l generalizing i with
  | nil => simp at h
  | cons b l ih =>
    cases i with
    | zero => simp [leNat]; omega
    | succ i =>
      have hb := b.isLt
      rw [show 8 * (i + 1) = 8 + 8 * i by omega, Nat.pow_add, ← Nat.div_div_eq_div_mul, List.getElem_cons_succ,
        ← ih i (by simpa using h), leNat]
      congr 2
      omega

theorem leNat_lt (l : List Byte) : leNat l < 2 ^ (8 * l.length) := by
  induction l with
  | nil => simp [leNat]
  | cons b l ih =>
    have hb := b.isLt
    rw [leNat, List.length_cons, show 8 * (l.length + 1) = 8 + 8 * l.length by omega, Nat.pow_add]
    omega

/-- Byte i of the word that eight bytes spell. -/
theorem extractLsb'_leNat (n : Nat) (l : List Byte) (i : Nat) (h : i < l.length) (hn : 8 * l.length ≤ n) :
    (BitVec.ofNat n (leNat l)).extractLsb' (8 * i) 8 = l[i] := by
  apply BitVec.eq_of_toNat_eq
  have hl : leNat l < 2 ^ n := (leNat_lt l).trans_le (Nat.pow_le_pow_right (by norm_num) hn)
  rw [BitVec.extractLsb'_toNat, BitVec.toNat_ofNat, Nat.mod_eq_of_lt hl, Nat.shiftRight_eq_div_pow]
  exact leNat_div l i h

theorem extractLsb'_eq_ofNat {n : Nat} (v : BitVec n) (lo len : Nat) : v.extractLsb' lo len = BitVec.ofNat len (v.toNat / 2 ^ lo) := by
  apply BitVec.eq_of_toNat_eq
  rw [BitVec.extractLsb'_toNat, BitVec.toNat_ofNat, Nat.shiftRight_eq_div_pow]

/-! ### CLZ, POPC and BSWAP (R130) -/

theorem clz64_spec (a : W64) :
    clz64 a ≤ 64 ∧ a.toNat < 2 ^ (64 - clz64 a) ∧ (clz64 a < 64 → 2 ^ (63 - clz64 a) ≤ a.toNat) := by
  unfold clz64
  cases hf : (List.range 64).find? (fun i => a.getLsbD (63 - i)) with
  | none =>
    have hz : ∀ i, a.toNat.testBit i = false := fun i => by
      rcases Nat.lt_or_ge i 64 with hi | hi
      · have hb := List.find?_eq_none.mp hf (63 - i) (List.mem_range.mpr (by omega))
        rw [Bool.not_eq_true, show 63 - (63 - i) = i by omega] at hb
        exact hb
      · exact Nat.testBit_lt_two_pow (a.isLt.trans_le (Nat.pow_le_pow_right (by norm_num) hi))
    have ha : a.toNat = 0 := Nat.eq_of_testBit_eq fun i => by simp [hz i]
    simp [ha]
  | some i =>
    obtain ⟨hbit, hmem, hbefore⟩ := List.find?_range_eq_some.mp hf
    have hi := List.mem_range.mp hmem
    refine ⟨hi.le, ?_, fun _ => Nat.ge_two_pow_of_testBit hbit⟩
    refine Nat.lt_pow_two_of_testBit _ fun j hj => ?_
    rcases Nat.lt_or_ge j 64 with hj' | hj'
    · have hb := hbefore (63 - j) (by simp at hj; omega)
      rw [show 63 - (63 - j) = j by omega] at hb
      simpa [BitVec.getLsbD] using hb
    · exact Nat.testBit_lt_two_pow (a.isLt.trans_le (Nat.pow_le_pow_right (by norm_num) hj'))

theorem length_filter_eq_sum {α : Type} (l : List α) (p : α → Bool) (f : α → Nat) (h : ∀ x, f x = if p x then 1 else 0) :
    (l.filter p).length = (l.map f).sum := by
  induction l with
  | nil => rfl
  | cons x l ih => cases hp : p x <;> simp [hp, h x, ih, Nat.add_comm]

theorem popc64_eq_sum (a : W64) : popc64 a = ((List.range 64).map (fun i => a.toNat / 2 ^ i % 2)).sum :=
  length_filter_eq_sum _ _ _ fun i => by
    simp only [BitVec.getLsbD, Nat.testBit_eq_decide_div_mod_eq, decide_eq_true_eq]
    split <;> omega

theorem bswap64_byte (a : W64) (i : Fin 8) : (bswap64 a).extractLsb' (8 * i.val) 8 = a.extractLsb' (56 - 8 * i.val) 8 := by
  unfold bswap64
  rw [extractLsb'_leNat 64 _ i.val (by simp) (by simp), List.getElem_reverse, leBytes_getElem, extractLsb'_eq_ofNat, leBytes_length]
  congr 3
  omega

theorem completes_unaryOp {i : Instr} {s : State} {c : Nat} {f : FmtA} {op : W64 → W64} (hi : exec i s = .next (s.unaryOp c f op))
    (h : Issues s c) (hrb : f.rb = 0) : Completes i s (fun t => WritesReg s t c f.rd (op ((s.ctx c).g f.ra)) ∧ RegFrame s t c) := by
  refine ⟨_, hi, ?_⟩
  unfold State.unaryOp
  rw [h.instr_eq h.allows_any]
  simp only [legal, hrb, decide_true, if_true]
  exact h.retireW f.rd _

theorem unaryWritesResult : UnaryWritesResult := by
  intro s c f h hrb
  refine ⟨?clz, ?popc, ?bswap⟩
  case clz =>
    obtain ⟨t, ht, hw, hf⟩ := completes_unaryOp (i := .clz c f) rfl h hrb
    exact ⟨t, ht, ⟨_, hw, clz64_spec _⟩, hf⟩
  case popc =>
    rw [← popc64_eq_sum]
    exact completes_unaryOp (i := .popc c f) rfl h hrb
  case bswap =>
    obtain ⟨t, ht, hw, hf⟩ := completes_unaryOp (i := .bswap c f) rfl h hrb
    exact ⟨t, ht, ⟨_, hw, bswap64_byte _⟩, hf⟩

/-! ### OVERFLOW and DIVIDE_ZERO (R131) -/

theorem overflows_eq (v : Int) : overflows v = decide (v ≠ (BitVec.ofInt 64 v).toInt) := by
  rw [BitVec.toInt_ofInt, overflows, Int.bmod_def, Bool.eq_iff_iff]
  simp only [Bool.or_eq_true, decide_eq_true_eq]
  split <;> omega

theorem addA_eq (a b : W64) : addA a b = { value := a + b, ovf := decide (a.toInt + b.toInt ≠ (a + b).toInt) } := by
  have h : BitVec.ofInt 64 (a.toInt + b.toInt) = a + b := by simp [BitVec.ofInt_add]
  rw [addA, arith, overflows_eq, h]

theorem subA_eq (a b : W64) : subA a b = { value := a - b, ovf := decide (a.toInt - b.toInt ≠ (a - b).toInt) } := by
  have h : BitVec.ofInt 64 (a.toInt - b.toInt) = a - b := BitVec.eq_of_toInt_eq (by rw [BitVec.toInt_ofInt, BitVec.toInt_sub])
  rw [subA, arith, overflows_eq, h]

theorem mulA_eq (a b : W64) : mulA a b = { value := a * b, ovf := decide (a.toInt * b.toInt ≠ (a * b).toInt) } := by
  have h : BitVec.ofInt 64 (a.toInt * b.toInt) = a * b := by simp [BitVec.ofInt_mul]
  rw [mulA, arith, overflows_eq, h]

theorem divA_eq (a b : W64) : divA a b
    = ⟨if b = 0 then BitVec.allOnes 64 else a.sdiv b, decide (a = BitVec.intMin 64 ∧ b = BitVec.allOnes 64), decide (b = 0)⟩ := by
  unfold divA
  by_cases hb : b = 0
  · subst hb
    simp
  have hv : BitVec.ofInt 64 (a.toInt.tdiv b.toInt) = a.sdiv b := BitVec.eq_of_toInt_eq (by rw [BitVec.toInt_ofInt, BitVec.toInt_sdiv])
  simp only [hb, if_false, arith, overflows_eq, hv, decide_false]
  congr 1
  by_cases hm : a = BitVec.intMin 64 ∧ b = BitVec.allOnes 64
  · obtain ⟨rfl, rfl⟩ := hm
    decide
  · have hne : a ≠ BitVec.intMin 64 ∨ b ≠ -1#64 := by
      rw [BitVec.neg_one_eq_allOnes]
      exact not_and_or.mp hm
    rw [BitVec.toInt_sdiv_of_ne_or_ne a b hne, decide_eq_false hm]
    simp

theorem remA_eq (a b : W64) : remA a b = { value := if b = 0 then a else a.srem b, zero := decide (b = 0) } := by
  unfold remA
  have hv : BitVec.ofInt 64 (a.toInt.tmod b.toInt) = a.srem b := by rw [← BitVec.toInt_srem, BitVec.ofInt_toInt]
  rw [hv]
  split <;> simp_all

theorem divuA_eq (a b : W64) : divuA a b = { value := if b = 0 then BitVec.allOnes 64 else a / b, zero := decide (b = 0) } := by
  unfold divuA
  rw [← BitVec.toNat_udiv, BitVec.ofNat_toNat, BitVec.setWidth_eq]
  split <;> simp_all

theorem remuA_eq (a b : W64) : remuA a b = { value := if b = 0 then a else a % b, zero := decide (b = 0) } := by
  unfold remuA
  rw [← BitVec.toNat_umod, BitVec.ofNat_toNat, BitVec.setWidth_eq]
  split <;> simp_all

/-! ### Immediates and fields (R132) -/

/-- A field of a number replaced: below it, in it, and above it. -/
theorem testBit_replaceField (d v pos len i : Nat) :
    (d - bits d pos len * 2 ^ pos + bits v 0 len * 2 ^ pos).testBit i = if pos ≤ i ∧ i < pos + len then v.testBit (i - pos) else d.testBit i := by
  have hd : d = d % 2 ^ pos + (bits d pos len + d / 2 ^ (pos + len) * 2 ^ len) * 2 ^ pos := by
    unfold bits
    rw [Nat.pow_add, ← Nat.div_div_eq_div_mul, Nat.mod_add_div', Nat.mod_add_div']
  have hn : d - bits d pos len * 2 ^ pos + bits v 0 len * 2 ^ pos
      = d % 2 ^ pos + (bits v 0 len + d / 2 ^ (pos + len) * 2 ^ len) * 2 ^ pos := by
    have h2 : d % 2 ^ pos + (bits d pos len + d / 2 ^ (pos + len) * 2 ^ len) * 2 ^ pos - bits d pos len * 2 ^ pos
        = d % 2 ^ pos + d / 2 ^ (pos + len) * 2 ^ len * 2 ^ pos := by
      rw [Nat.add_mul]
      omega
    rw [← hd] at h2
    rw [h2, Nat.add_mul]
    omega
  rw [hn]
  have hlow : d % 2 ^ pos < 2 ^ pos := Nat.mod_lt _ (by positivity)
  have hmid : bits v 0 len < 2 ^ len := Nat.mod_lt _ (by positivity)
  rcases Nat.lt_or_ge i pos with h | h
  · rw [if_neg (by omega)]
    refine testBit_eq_of_bits (lo := 0) (n := pos) ?_ (by omega) (by omega)
    simp [bits]
  rcases Nat.lt_or_ge i (pos + len) with h' | h'
  · rw [if_pos ⟨h, h'⟩]
    have hm := testBit_eq_of_bits (u := (d % 2 ^ pos + (bits v 0 len + d / 2 ^ (pos + len) * 2 ^ len) * 2 ^ pos) / 2 ^ pos) (v := v) (lo := 0)
      (n := len) (i := i - pos) (by
        rw [Nat.add_mul_div_right _ _ (by positivity), Nat.div_eq_of_lt hlow]
        simp [bits]) (by omega) (by omega)
    rw [← hm, Nat.testBit_div_two_pow, Nat.sub_add_cancel h]
  · rw [if_neg (by omega)]
    refine testBit_eq_of_div (lo := pos + len) ?_ h'
    rw [Nat.pow_add, ← Nat.div_div_eq_div_mul, ← Nat.div_div_eq_div_mul, Nat.add_mul_div_right _ _ (by positivity), Nat.div_eq_of_lt hlow,
      Nat.zero_add, Nat.add_mul_div_right _ _ (by positivity), Nat.div_eq_of_lt hmid, Nat.zero_add, Nat.div_div_eq_div_mul]

theorem getLsbD_insField (d v : W64) (pos len i : Nat) (h : i < 64) :
    (insField d v pos len).getLsbD i = if pos ≤ i ∧ i < pos + len then v.getLsbD (i - pos) else d.getLsbD i := by
  simp only [insField, BitVec.getLsbD_ofNat, h, decide_true, Bool.true_and, testBit_replaceField]
  rfl

theorem signed_eq_toInt (n v : Nat) : signed (n + 1) v = (BitVec.ofNat (n + 1) v).toInt := by
  simp only [signed, BitVec.toInt_eq_toNat_cond, BitVec.toNat_ofNat, Nat.add_sub_cancel, Nat.pow_succ]
  split <;> split <;> omega

theorem extField_false (v : W64) (pos len : Nat) : extField v pos len false = ((v.extractLsb' pos len).toNat : W64) := by
  simp [extField, bits, Nat.shiftRight_eq_div_pow]

theorem extField_true (v : W64) (pos n : Nat) : extField v pos (n + 1) true = (v.extractLsb' pos (n + 1)).signExtend 64 := by
  have hx : BitVec.ofNat (n + 1) (bits v.toNat pos (n + 1)) = v.extractLsb' pos (n + 1) := by
    rw [extractLsb'_eq_ofNat]
    exact BitVec.eq_of_toNat_eq (by simp [bits])
  simp only [extField, if_true, signed_eq_toInt, hx]
  rfl

theorem completes_instr {i : Instr} {s : State} {c : Nat} {f : State → Ctx → IStep} (hi : exec i s = .next (s.instr c anyPlace f))
    (h : Issues s c) {rd : Reg} {v : W64} (hf : ∀ t, f t (s.ctx c) = retireW t rd v) :
    Completes i s (fun t => WritesReg s t c rd v ∧ RegFrame s t c) := by
  refine ⟨_, hi, ?_⟩
  rw [h.instr_eq h.allows_any, hf]
  exact h.retireW rd v

theorem immRows_op : ∀ row ∈ immRows, ∃ op : W64 → BitVec 16 → W64, (∀ c f s, exec (row.1 c f) s = .next (s.immOp c f op))
    ∧ ∀ a i, op a i = row.2 a i := by
  simp only [immRows, List.forall_mem_cons]
  refine ⟨⟨_, fun _ _ _ => rfl, fun a i => ?and⟩, ⟨_, fun _ _ _ => rfl, fun a i => ?or⟩, ⟨_, fun _ _ _ => rfl, fun a i => ?xor⟩,
    ⟨_, fun _ _ _ => rfl, fun a i => ?ceq⟩, ⟨_, fun _ _ _ => rfl, fun a i => ?clt⟩, ⟨_, fun _ _ _ => rfl, fun a i => ?cltu⟩, nofun⟩
  case ceq => by_cases h : a = i.signExtend 64 <;> simp [bit64, sext64, h]
  case clt => simp [bit64, BitVec.slt_iff_toInt_lt, BitVec.toInt_signExtend_of_le]
  case cltu =>
    have hi : i.toNat < 18446744073709551616 := i.isLt.trans (by norm_num)
    simp [bit64, BitVec.ult_iff_toNat_lt, Nat.mod_eq_of_lt hi]
  all_goals rfl

theorem shiftRows_op : ∀ row ∈ shiftRows, ∃ op : W64 → Nat → W64,
    (∀ c rd ra rsv (n : BitVec 6) s, exec (row.1 c rd ra rsv n) s = .next (s.shiftOp c rd ra rsv (fun a => op a n.toNat)))
      ∧ ∀ a (n : BitVec 6), op a n.toNat = row.2 a n.toNat := by
  simp only [shiftRows, List.forall_mem_cons]
  refine ⟨⟨_, fun _ _ _ _ _ _ => rfl, fun a n => rfl⟩, ⟨_, fun _ _ _ _ _ _ => rfl, fun a n => rfl⟩,
    ⟨_, fun _ _ _ _ _ _ => rfl, fun a n => rfl⟩, ⟨fun a n => a.rotateRight n, fun _ _ _ _ _ _ => rfl, fun a n => ?rotr⟩, nofun⟩
  case rotr => exact rotateRight_eq a _ n.isLt

theorem addi_toInt (a : W64) (i : BitVec 16) : addA a (sext64 i)
    = ⟨a + i.signExtend 64, decide (a.toInt + i.toInt ≠ (a + i.signExtend 64).toInt), false⟩ := by
  rw [addA_eq, sext64, BitVec.toInt_signExtend_of_le (by norm_num)]

theorem State.extOp_eq (s : State) (c : Nat) (f : FmtF) : s.extOp c f = s.instr c anyPlace
    (fun t x => legal (f.rsv = 0 && f.pos.toNat + (f.len1.toNat + 1) ≤ 64) t
      (retireW t f.rd (extField (x.g f.ra) f.pos.toNat (f.len1.toNat + 1) f.s))) := rfl

theorem immediateWritesResult : ImmediateWritesResult := by
  refine ⟨?imm, ?addi, ?shift, ?seth, ?field⟩
  case imm =>
    intro row hrow s c f h
    obtain ⟨op, hexec, hop⟩ := immRows_op row hrow
    exact completes_instr (hexec c f s) h fun t => by rw [hop]
  case addi =>
    intro s c f h hov
    refine completes_instr (i := .addi c f) rfl h fun t => ?_
    rw [addi_toInt, arithStep, if_neg, if_neg (by simp)]
    rw [← getLsbD_eq_bitAt]
    simpa using hov
  case shift =>
    intro row hrow s c rd ra n h
    obtain ⟨op, hexec, hop⟩ := shiftRows_op row hrow
    exact completes_instr (hexec c rd ra 0 n s) h fun t => by rw [← hop]; rfl
  case seth =>
    intro s c f h hk
    have hret := completes_instr (i := .seth c f) (rd := f.rd) (v := insField ((s.ctx c).g f.rd) (f.imm.setWidth 64) (16 * (f.ra.val % 4)) 16) rfl h
      fun t => by simp [legal, hk]
    obtain ⟨t, ht, hw, hf⟩ := hret
    refine ⟨t, ht, ⟨_, hw, fun i hi => ?_⟩, hf⟩
    rw [getLsbD_insField _ _ _ _ _ hi, Nat.mod_eq_of_lt hk]
    split
    · rw [BitVec.getLsbD_setWidth]
      simp
      omega
    · rfl
  case field =>
    intro s c f h hrsv hlen
    refine ⟨fun hs => ?extu, fun hs => ?exts, fun hs => ?ins⟩
    case extu =>
      refine completes_instr (i := .extu c f) (congrArg Host.Outcome.next (State.extOp_eq s c f)) h fun t => ?_
      simp [legal, hrsv, hs, extField_false]
      omega
    case exts =>
      refine completes_instr (i := .exts c f) (congrArg Host.Outcome.next (State.extOp_eq s c f)) h fun t => ?_
      simp [legal, hrsv, hs, extField_true]
      omega
    case ins =>
      have hret := completes_instr (i := .ins c f) (rd := f.rd) (v := insField ((s.ctx c).g f.rd) ((s.ctx c).g f.ra) f.pos.toNat (f.len1.toNat + 1)) rfl h
        fun t => by simp [legal, hrsv, hs]; omega
      obtain ⟨t, ht, hw, hf⟩ := hret
      refine ⟨t, ht, ⟨_, hw, fun i hi => ?_⟩, hf⟩
      rw [getLsbD_insField _ _ _ _ _ hi]
      congr 1
      apply propext
      omega

/-- Settles O2: each row is an operation of the model with the result of R130 or R132, and an instruction that retires with one register
written changes nothing else. -/
theorem registerInstructionsWriteResult : Obligations.RegisterInstructionsWriteResult :=
  ⟨aluWritesResult, unaryWritesResult, immediateWritesResult⟩

end Sys2Proof.Machine

namespace Sys2Proof.Machine

/-! ### An instruction that raises an exception (R142, R171, R175) -/

theorem IssuesPlain.excPc {s : State} {c : Nat} (h : IssuesPlain s c) : (s.ctx c).excPc = (s.ctx c).pc := by
  obtain ⟨_, hb, _, _⟩ := h
  rw [Ctx.excPc, hb]

theorem IssuesPlain.fetched_def {s : State} {c : Nat} (h : IssuesPlain s c) : s.fetched c = (s.fetchExc c (s.ctx c).pc.toNat).2 := by
  obtain ⟨_, _, hr, _⟩ := h
  rw [State.fetched, Ctx.issueAddr, hr]
  rfl

/-- An instruction that is neither in a delay slot nor repeated takes its exception at its own address. -/
theorem IssuesPlain.instrEnd_exc {s : State} {c : Nat} (h : IssuesPlain s c) (e : Exc) (t : State) :
    s.instrEnd c (.exc e t) = t.raise c e (s.ctx c).pc false := by
  have hpc := h.excPc
  obtain ⟨_, hb, _, _⟩ := h
  rw [State.instrEnd, hpc, hb]
  rfl

/-- An instruction whose operation raises an exception other than a reach takes it on the state that its fetch leaves. -/
theorem IssuesPlain.instr_exc {s : State} {c : Nat} (h : IssuesPlain s c) {p : Place1} {f : State → Ctx → IStep} {e : Exc}
    (hf : f (s.fetched c) (s.ctx c) = .exc e (s.fetched c)) (he : e.reach = false) :
    s.instr c p f = (s.fetchExc c (s.ctx c).pc.toNat).2.takeExc c e (s.ctx c).pc false := by
  rw [h.1.instr_eq (h.allows p), hf, h.instrEnd_exc, h.fetched_def, State.raise, he]
  rfl

/-! ### Instructions that may trap (R131) -/

/-- Each row of R131 is one of the model's arithmetic operations, with the same result and the same two conditions. -/
theorem trapRows_op : ∀ row ∈ trapRows, ∃ op : W64 → W64 → Arith, (∀ c f s, exec (row.1 c f) s = .next (s.arithOp c f op))
    ∧ ∀ a b, op a b = ⟨row.2.1 a b, row.2.2.1 a b, row.2.2.2 && decide (b = 0)⟩ := by
  simp only [trapRows, List.forall_mem_cons]
  exact ⟨⟨_, fun _ _ _ => rfl, addA_eq⟩, ⟨_, fun _ _ _ => rfl, subA_eq⟩, ⟨_, fun _ _ _ => rfl, mulA_eq⟩, ⟨_, fun _ _ _ => rfl, divA_eq⟩,
    ⟨_, fun _ _ _ => rfl, divuA_eq⟩, ⟨_, fun _ _ _ => rfl, remA_eq⟩, ⟨_, fun _ _ _ => rfl, remuA_eq⟩, nofun⟩

/-- A divisor of 0 gives no signed overflow. -/
theorem trapRows_zero : ∀ row ∈ trapRows, row.2.2.2 = true → ∀ a, row.2.2.1 a 0 = false := by
  simp only [trapRows, List.forall_mem_cons]
  exact ⟨nofun, nofun, nofun, fun _ _ => decide_eq_false fun h => absurd h.2 (by decide), fun _ _ => trivial, fun _ _ => trivial, fun _ _ => trivial, nofun⟩

theorem arithWritesResult : ArithWritesResult := by
  intro row hrow s c f h hovf hzero
  obtain ⟨op, hexec, hop⟩ := trapRows_op row hrow
  refine completes_instr (hexec c f s) h fun t => ?_
  rw [getLsbD_eq_bitAt] at hovf hzero
  rw [hop, arithStep, if_neg (by simpa using hovf), if_neg (by simpa using hzero)]

theorem arithTraps : ArithTraps := by
  intro row hrow s c f h
  obtain ⟨op, hexec, hop⟩ := trapRows_op row hrow
  rw [getLsbD_eq_bitAt, getLsbD_eq_bitAt]
  refine ⟨fun ⟨hovf, hove, _⟩ => ?ovf, fun ⟨hdiv, hz, hdze⟩ => ?zero⟩
  case ovf =>
    refine (hexec c f s).trans (congrArg Host.Outcome.next (h.instr_exc ?_ rfl))
    rw [hop, arithStep, if_pos (by simp [hovf, hove])]
  case zero =>
    refine (hexec c f s).trans (congrArg Host.Outcome.next (h.instr_exc ?_ rfl))
    rw [hop, arithStep, hz, trapRows_zero row hrow hdiv, if_neg (by simp), if_pos (by simp [hdiv, hdze])]

/-- Settles O1: the model's three results of R131, value, overflow and zero divisor, are those of each row, and decide between retirement and trap. -/
theorem arithmeticWritesOrTraps : Obligations.ArithmeticWritesOrTraps := ⟨arithWritesResult, arithTraps⟩

end Sys2Proof.Machine

namespace Sys2Proof.Machine

/-! ### Where control goes at a retirement (R139, R144, R148) -/

/-- Registers written and control moved: what a retirement leaves, with its frame. -/
theorem Issues.retire_writes {s : State} {c : Nat} (h : Issues s c) {r : Ret} (hs : r.stay = false) (hy : r.yield = false) (hl : r.late = []) :
    let t := s.instrEnd c (.retire r (s.fetched c))
    t.ctx c = (s.ctx c).retire r ∧ WritesAll s t c r.writes ∧ (t.ctx c).delayed = [] ∧ RegFrame s t c := by
  obtain ⟨hx, hf⟩ := h.retire_frame hs hy
  exact ⟨hx, fun k => hx ▸ Ctx.retire_g _ hs k, hx ▸ (Ctx.retire_delayed _ hs).trans hl, hf⟩

theorem Ctx.retire_of_branch {x : Ctx} {r : Ret} {to1 : W64} (hrep : x.rep = false) (hs : r.stay = false) (hr : r.startRep = false)
    (hb : r.branch = some to1) : (x.retire r).branch = some (x.pc, to1) ∧ (x.retire r).pc = x.pc + 4 := by
  rw [Ctx.retire_eq x hs]
  unfold Ctx.advance Ctx.retired1
  simp [hs, hr, hrep, hb]

/-- In a delay slot control goes where the branch sent it. -/
theorem Ctx.retire_of_slot {x : Ctx} {r : Ret} {b to1 : W64} (hrep : x.rep = false) (hs : r.stay = false) (hr : r.startRep = false)
    (hb : r.branch = none) (hx : x.branch = some (b, to1)) : (x.retire r).pc = to1 ∧ (x.retire r).branch = none := by
  rw [Ctx.retire_eq x hs]
  unfold Ctx.advance Ctx.retired1
  simp [hs, hr, hrep, hb, hx]

theorem IssuesPlain.branchTo {s : State} {c : Nat} (h : IssuesPlain s c) (l : List (Reg × W64)) (to1 : W64) :
    let t := s.instrEnd c (Machine.branchTo (s.fetched c) l to1)
    (t.ctx c).branch = some ((s.ctx c).pc, to1) ∧ (t.ctx c).pc = (s.ctx c).pc + 4 ∧ WritesAll s t c l ∧ (t.ctx c).delayed = [] ∧ RegFrame s t c := by
  obtain ⟨hi, _, hrep, _⟩ := h
  obtain ⟨hx, hw, hd, hf⟩ := hi.retire_writes (r := { writes := l, branch := some to1 }) rfl rfl rfl
  obtain ⟨hb, hp⟩ := Ctx.retire_of_branch (x := s.ctx c) (r := { writes := l, branch := some to1 }) hrep rfl rfl rfl
  exact ⟨hx ▸ hb, hx ▸ hp, hw, hd, hf⟩

/-- An instruction that branches, by its operation on the state that its fetch leaves. -/
theorem IssuesPlain.completes_branch {i : Instr} {s : State} {c : Nat} {f : State → Ctx → IStep} {l : List (Reg × W64)} {to1 : W64}
    (h : IssuesPlain s c) (hi : exec i s = .next (s.instr c flowPlace f)) (hf : ∀ t, f t (s.ctx c) = Machine.branchTo t l to1) :
    Completes i s (fun t => (t.ctx c).branch = some ((s.ctx c).pc, to1) ∧ (t.ctx c).pc = (s.ctx c).pc + 4 ∧ WritesAll s t c l
      ∧ (t.ctx c).delayed = [] ∧ RegFrame s t c) := by
  refine ⟨_, hi, ?_⟩
  rw [h.1.instr_eq (h.allows flowPlace), hf]
  exact h.branchTo l to1

/-- OR retires as every ALU operation does. -/
theorem Issues.exec_or {s : State} {c : Nat} (h : Issues s c) (f : FmtA) :
    ∃ t, exec (.or c f) s = .next t ∧ ∃ v, t.ctx c = (s.ctx c).retire { writes := [(f.rd, v)] } := by
  refine ⟨s.aluOp c f (fun a b => a ||| b), rfl, (s.ctx c).g f.ra ||| (s.ctx c).g f.rb, ?_⟩
  unfold State.aluOp
  rw [h.instr_eq h.allows_any]
  exact (h.retire_frame rfl rfl).1

theorem branchesHaveOneDelaySlot : BranchesHaveOneDelaySlot := by
  refine ⟨fun s c h => ⟨fun ra d => ?bz, fun ra d => ?bnz, fun d => ?br, fun d => ?call, fun ra ha => ?jr, fun rd ra ha => ?jalr⟩,
    fun s c f b to1 h hrep hb => ?slot⟩
  case bz => exact h.completes_branch (i := .bz c ra d) rfl fun t => rfl
  case bnz =>
    refine h.completes_branch (i := .bnz c ra d) rfl fun t => ?_
    rw [dispTo, sext64, ite_not]
  case br => exact h.completes_branch (i := .br c d) rfl fun t => rfl
  case call => exact h.completes_branch (i := .call c d) rfl fun t => rfl
  case jr => exact h.completes_branch (i := .jr c ⟨0, ra, 0⟩) rfl fun t => by simp [legal, jumpTo, ha]
  case jalr => exact h.completes_branch (i := .jalr c ⟨rd, ra, 0⟩) rfl fun t => by simp [legal, jumpTo, ha]
  case slot =>
    obtain ⟨t, ht, v, hx⟩ := h.exec_or f
    refine ⟨t, ht, ?_⟩
    dsimp only
    rw [hx]
    exact Ctx.retire_of_slot hrep rfl rfl rfl hb

theorem misalignedJumpTraps : MisalignedJumpTraps := by
  intro s c rd ra h ha
  have hf : ∀ l, jumpTo (s.fetched c) l ((s.ctx c).g ra) = .exc { code := 4, addr := ((s.ctx c).g ra).toNat % 2 ^ 38 } (s.fetched c) := fun l =>
    if_pos ha
  exact ⟨congrArg Host.Outcome.next (h.instr_exc (by simp [legal, hf]) rfl), congrArg Host.Outcome.next (h.instr_exc (by simp [legal, hf]) rfl)⟩

/-- Settles O7: a branch retires with its target held back for one instruction, and the instruction in the slot retires to it. -/
theorem branchesAndMisalignedJumps : Obligations.BranchesAndMisalignedJumps := ⟨branchesHaveOneDelaySlot, misalignedJumpTraps⟩

end Sys2Proof.Machine

namespace Sys2Proof.Machine

/-! ### The checks of reads, one after another (R345) -/

@[simp] theorem State.report_img (s : State) (m : W64) (c : Option Nat) : (s.report m c).img = s.img :=
  (congrArg State.img (State.report_frame s m c) :)

theorem State.pnJudge_congr {s t : State} {b : Nat} (hi : t.img = s.img) (hp : t.pantry.poison = s.pantry.poison)
    (he : Tbl.get [] t.pantry.errs b = Tbl.get [] s.pantry.errs b) : t.pnJudge b = s.pnJudge b := by
  unfold State.pnJudge
  rw [hi, hp, he]

/-- A check makes no burst bad and none good: what it corrects was good before. -/
theorem State.pnBad_pnCheckBurst (r : Bool × State) (b d : Nat) : (State.pnCheckBurst r b).2.pnBad d = r.2.pnBad d := by
  unfold State.pnCheckBurst
  split
  · exact congrArg (fun j => decide (j = EccEnd.uncorrectable)) (State.pnJudge_congr (by simp [State.pnUncorrectable]) (by simp)
      (by simp [State.pnUncorrectable]))
  · rename_i hj
    by_cases hd : d = b
    · subst hd
      have hnp : d ∉ r.2.pantry.poison := fun hm => by
        rw [State.pnJudge_of_poison hm] at hj
        cases hj
      have hc : (r.2.pnCorrected d).pnJudge d = .clean := by
        unfold State.pnJudge
        simp [hnp, State.pnCorrected, eccJudge]
      simp [State.pnBad, hj, hc]
    · exact congrArg (fun j => decide (j = EccEnd.uncorrectable)) (State.pnJudge_congr rfl (by simp)
        (Tbl.get_put_ne [] r.2.pantry.errs [] hd))
  · rfl

theorem State.foldl_pnCheckBurst_eq (l : List Nat) (r : Bool × State) :
    ((l.foldl State.pnCheckBurst r).1 = true ↔ r.1 = true ∧ ∀ b ∈ l, r.2.pnBad b = false)
      ∧ ∀ d, (l.foldl State.pnCheckBurst r).2.pnBad d = r.2.pnBad d := by
  induction l generalizing r with
  | nil => simp
  | cons b l ih =>
    obtain ⟨h1, h2⟩ := ih (State.pnCheckBurst r b)
    have hb : (State.pnCheckBurst r b).1 = true ↔ r.1 = true ∧ r.2.pnBad b = false := by
      unfold State.pnCheckBurst State.pnBad
      split <;> simp_all
    refine ⟨?_, fun d => (h2 d).trans (State.pnBad_pnCheckBurst r b d)⟩
    simp only [List.foldl_cons, h1, hb, State.pnBad_pnCheckBurst, List.forall_mem_cons, and_assoc]

/-- A read is good if and only if each burst of it is. -/
theorem State.pnCheck_good_iff (s : State) (a n : Nat) : (s.pnCheck a n).1 = true ↔ GoodRead s a n := by
  rw [State.pnCheck_eq_foldl, (State.foldl_pnCheckBurst_eq _ _).1]
  simp [GoodRead]

theorem State.pnCheck_pnBad (s : State) (a n d : Nat) : (s.pnCheck a n).2.pnBad d = s.pnBad d :=
  (State.foldl_pnCheckBurst_eq (burstsOf a n) (true, s)).2 d

@[simp] theorem State.fetched_pnBad (s : State) (c d : Nat) : (s.fetched c).pnBad d = s.pnBad d := by
  unfold State.fetched State.fetchExc
  split
  · rfl
  · dsimp only
    split
    · rfl
    · exact State.pnCheck_pnBad ..

theorem State.goodRead_fetched {s : State} {c a n : Nat} : GoodRead (s.fetched c) a n ↔ GoodRead s a n := by
  simp only [GoodRead, State.fetched_pnBad]

/-- The parts of the state that decide what an address names and who may access it are the same. -/
structure State.SameRights (s t : State) : Prop where
  img : t.img = s.img
  xlat : t.pantry.xlat = s.pantry.xlat
  xlatBad : t.pantry.xlatBad = s.pantry.xlatBad

theorem State.SameRights.wcfg {s t : State} (h : s.SameRights t) (w : World) : t.wcfg w = s.wcfg w := by
  unfold State.wcfg
  rw [h.img]

theorem State.SameRights.pageWorld {s t : State} (h : s.SameRights t) (i : Nat) : t.pageWorld i = s.pageWorld i := by
  unfold State.pageWorld
  rw [h.img]

theorem State.SameRights.place {s t : State} (h : s.SameRights t) (a : Nat) : t.place a = s.place a := by
  unfold State.place
  simp only [h.pageWorld, h.wcfg, h.img]

theorem State.SameRights.pageValid {s t : State} (h : s.SameRights t) (i : Nat) : t.pageValid i = s.pageValid i := by
  unfold State.pageValid State.xlatOf
  rw [h.xlat, h.xlatBad]

theorem State.SameRights.deny {s t : State} (h : s.SameRights t) (w : World) (sup : Bool) (k : AccKind) (a : Nat) :
    t.deny w sup k a = s.deny w sup k a := by
  unfold State.deny
  rw [h.place]
  cases s.place a with
  | absent => rfl
  | region x attr => rfl
  | page x i =>
    dsimp only
    rw [h.pageValid, State.xlatOf, State.xlatOf, h.xlat]

theorem State.SameRights.home {s t : State} (h : s.SameRights t) (c : Nat) : t.home c = s.home c := by
  unfold State.home State.ctxWorld
  rw [h.img]

theorem State.SameRights.isResident {s t : State} (h : s.SameRights t) (c : Nat) : t.isResident c = s.isResident c := by
  unfold State.isResident State.wcfg
  rw [h.img]

theorem State.SameRights.accessExc {s t : State} (h : s.SameRights t) {c : Nat} (hc : t.ctx c = s.ctx c) (k : AccKind) (ea : Nat) :
    t.accessExc c k ea = s.accessExc c k ea := by
  unfold State.accessExc State.inPageOf
  simp only [hc, h.isResident, h.place, h.deny]

theorem State.SameRights.withCorr (s : State) (k : Tbl Nat) (e : Tbl (List Nat)) : s.SameRights (s.withCorr k e) := ⟨rfl, rfl, rfl⟩

theorem Issues.sameRights {s : State} {c : Nat} (h : Issues s c) : s.SameRights (s.fetched c) := by
  obtain ⟨k, e, hk⟩ := h.fetched_eq
  exact hk ▸ .withCorr s k e

/-- After a fetch that raised nothing, the fetch at another address raises what it would have raised before. -/
theorem Issues.fetchExc_fetched {s : State} {c a : Nat} (h : Issues s c) (ha : (s.fetchExc c a).1 = none) :
    ∃ k e, (s.fetched c).fetchExc c a = (none, s.withCorr k e) := by
  obtain ⟨k0, e0, h0⟩ := h.fetched_eq
  have hacc := h.sameRights.accessExc (State.fetched_ctx s c c) .fetch a
  have hgood : ((s.fetched c).fetchExc c a).1 = none := by
    unfold State.fetchExc at ha ⊢
    rw [hacc]
    split at ha
    · exact absurd ha (by simp)
    split at ha
    · exact absurd ha (by simp)
    rename_i hal
    rw [if_neg hal]
    have hs : (s.pnCheck a 4).1 = true := Classical.byContradiction fun hb => by simp [hb] at ha
    have ht : ((s.fetched c).pnCheck a 4).1 = true :=
      (State.pnCheck_good_iff _ a 4).mpr (State.goodRead_fetched.mpr ((State.pnCheck_good_iff s a 4).mp hs))
    simp [ht]
  obtain ⟨k, e, hk⟩ := State.fetchExc_good hgood
  exact ⟨k, e, Prod.ext hgood (by rw [hk, h0]; rfl)⟩

/-! ### An instruction that changes its own context and retires -/

theorem Ctx.setG_regs_congr {x y : Ctx} (h : x.regs = y.regs) (r : Reg) (v : W64) : (x.setG r v).regs = (y.setG r v).regs := by
  unfold Ctx.setG
  split
  · exact h
  · dsimp only
    rw [h]

theorem Ctx.setAll_regs_congr {x y : Ctx} (h : x.regs = y.regs) (l : List (Reg × W64)) : (x.setAll l).regs = (y.setAll l).regs := by
  induction l generalizing x y with
  | nil => exact h
  | cons p l ih => exact ih (Ctx.setG_regs_congr h p.1 p.2)

theorem Ctx.setAll_delayed (x : Ctx) (l : List (Reg × W64)) : (x.setAll l).delayed = x.delayed := (congrArg Ctx.delayed (Ctx.setAll_eq x l) :)

theorem Ctx.flush_setAll_regs_congr {x y : Ctx} (h : x.regs = y.regs) (hd : x.delayed = y.delayed) (l : List (Reg × W64)) :
    (x.setAll l).flush.regs = (y.setAll l).flush.regs := by
  unfold Ctx.flush
  dsimp only
  rw [Ctx.setAll_delayed, Ctx.setAll_delayed, hd]
  exact Ctx.setAll_regs_congr (Ctx.setAll_regs_congr h l) _

/-- What an instruction changes in its own context before it retires: not its registers, what is delayed, and what is due of it. -/
structure Ctx.Changes (x y : Ctx) : Prop where
  regs : y.regs = x.regs
  delayed : y.delayed = x.delayed
  due : y.due = x.due
  asyncErr : y.asyncErr = x.asyncErr
  slotDue : y.slotDue = x.slotDue

theorem Issues.retire_mod {s : State} {c : Nat} (h : Issues s c) {r : Ret} (hs : r.stay = false) (hy : r.yield = false) (hl : r.late = [])
    (k : Tbl Nat) (e : Tbl (List Nat)) {g : Ctx → Ctx} {y : Ctx} (hgy : g (s.ctx c) = y) (hg : (s.ctx c).Changes y) :
    let t := s.instrEnd c (.retire r ((s.withCorr k e).modCtx c g))
    t.ctx c = y.retire r ∧ WritesAll s t c r.writes ∧ (t.ctx c).delayed = [] ∧ CtxFrame y (t.ctx c) ∧ Beside s t c ∧ SameBytes s t := by
  obtain ⟨_, _, _, hasync, hdue, hslot, _, _⟩ := h
  have hu : ((s.withCorr k e).modCtx c g).ctx c = y := (State.ctx_modCtx_self ..).trans hgy
  have ht := State.instrEnd_retire (s := s) (t := (s.withCorr k e).modCtx c g) hs hy (by rw [hu, hg.due, hdue]) (by rw [hu, hg.asyncErr, hasync])
    (by rw [hu, hg.slotDue, hslot])
  have hx : (s.instrEnd c (.retire r ((s.withCorr k e).modCtx c g))).ctx c = y.retire r := by
    rw [ht, State.ctx_modCtx_self]
    exact congrArg (fun y : Ctx => y.retire r) hu
  refine ⟨hx, fun q => ?_, ?_, hx ▸ Ctx.retire_ctxFrame _ hs, ⟨fun d hd => ?_, ?_⟩, ?_⟩
  · rw [hx, Ctx.retire_g _ hs]
    exact Ctx.g_congr (Ctx.flush_setAll_regs_congr hg.regs hg.delayed r.writes) q
  · rw [hx, Ctx.retire_delayed _ hs, hl]
  · rw [ht, State.ctx_modCtx_ne _ _ hd]
    exact State.ctx_modCtx_ne _ _ hd
  · rw [ht]
    unfold State.modCtx State.setCtx State.countWorld State.countBank
    rfl
  · rw [ht]
    exact ⟨fun _ => rfl, fun _ => rfl, fun _ => rfl, fun _ => rfl⟩

end Sys2Proof.Machine

namespace Sys2Proof.Machine

/-! ### LOOP, LOOPI and REP (R143, R144, R148, R149) -/

theorem ofNat_four_mul (len : BitVec 16) : BitVec.ofNat 64 (4 * len.toNat) = 4 * len.setWidth 64 := by
  apply BitVec.eq_of_toNat_eq
  simp

/-- The last instruction of a loop body is not its own LOOP. -/
theorem pc_ne_le (pc : W64) {len : BitVec 16} (h : len ≠ 0) : pc ≠ pc + 4 * len.setWidth 64 := by
  have hl : len.toNat ≠ 0 := fun hz => h (BitVec.eq_of_toNat_eq hz)
  bv_omega

theorem CtxFrame.of_lc {x y : Ctx} {n : Nat} (h : CtxFrame { x with lc := n } y) : CtxFrame x y :=
  ⟨congrArg (fun z : Ctx => { z with lc := x.lc }) h.1, h.2⟩

/-- A retirement that goes on in sequence, or where it says. -/
theorem Ctx.retire_of_seq {x : Ctx} {r : Ret} (hrep : x.rep = false) (hs : r.stay = false) (hr : r.startRep = false) (hb : r.branch = none)
    (hx : x.branch = none) (hg : r.goto = none) :
    (x.retire r).pc = (x.seqNext x.pc).pc ∧ (x.retire r).lc = (x.seqNext x.pc).lc ∧ (x.retire r).rep = false := by
  rw [Ctx.retire_eq x hs]
  unfold Ctx.advance Ctx.retired1 Ctx.seqNext
  simp only [hs, hr, hrep, hb, hx, hg, Bool.false_eq_true, if_false]
  split
  · split <;> exact ⟨rfl, rfl, rfl⟩
  · exact ⟨rfl, rfl, rfl⟩

theorem Ctx.retire_of_goto {x : Ctx} {r : Ret} {a : W64} (hrep : x.rep = false) (hs : r.stay = false) (hr : r.startRep = false)
    (hb : r.branch = none) (hx : x.branch = none) (hg : r.goto = some a) :
    (x.retire r).pc = a ∧ (x.retire r).lc = x.lc ∧ (x.retire r).rep = false ∧ (x.retire r).rc = x.rc := by
  rw [Ctx.retire_eq x hs]
  unfold Ctx.advance Ctx.retired1
  simp [hs, hr, hrep, hb, hx, hg]

/-- The context of LOOP or LOOPI with its loop begun. -/
def Ctx.looped (x : Ctx) (n : Nat) (len : BitVec 16) : Ctx :=
  { x with lc := n, ls := x.pc + 4, le := x.pc + 4 * len.setWidth 64 }

/-- Where a loop that begins sends control: into its body, or with a count of 0 past it. -/
theorem Ctx.looped_retire {x : Ctx} {n : Nat} {len : BitVec 16} (hlen : len ≠ 0) (hrep : x.rep = false) (hb : x.branch = none) :
    let r : Ret := { goto := if n = 0 then some (x.pc + 4 * len.setWidth 64 + 4) else none }
    ((x.looped n len).retire r).pc = (if n = 0 then x.pc + 4 * len.setWidth 64 + 4 else x.pc + 4) ∧ ((x.looped n len).retire r).lc = n := by
  by_cases hn : n = 0
  · obtain ⟨hp, hl, _⟩ := Ctx.retire_of_goto (x := x.looped n len) (r := { goto := if n = 0 then some (x.pc + 4 * len.setWidth 64 + 4) else none })
      hrep rfl rfl rfl hb (if_pos hn)
    exact ⟨hp.trans (if_pos hn).symm, hl⟩
  · obtain ⟨hp, hl, _⟩ := Ctx.retire_of_seq (x := x.looped n len) (r := { goto := if n = 0 then some (x.pc + 4 * len.setWidth 64 + 4) else none })
      hrep rfl rfl rfl hb (if_neg hn)
    have hne : ¬(n ≠ 0 ∧ x.pc = x.pc + 4 * len.setWidth 64) := fun h => pc_ne_le x.pc hlen h.2
    have hseq : (x.looped n len).seqNext x.pc = { x.looped n len with pc := x.pc + 4 } := if_neg hne
    exact ⟨by rw [hp, if_neg hn]; exact congrArg Ctx.pc hseq, by rw [hl]; exact congrArg Ctx.lc hseq⟩

/-- An instruction that begins a loop. -/
theorem IssuesPlain.completes_loop {i : Instr} {s : State} {c : Nat} {f : State → Ctx → IStep} {n : Nat} {len : BitVec 16}
    (h : IssuesPlain s c) (hlen : len ≠ 0) (hi : exec i s = .next (s.instr c flowPlace f))
    (hf : ∀ t, f t (s.ctx c) = loopStart t c (s.ctx c) n len.toNat) :
    Completes i s (fun t => (t.ctx c).lc = n ∧ (t.ctx c).ls = (s.ctx c).pc + 4 ∧ (t.ctx c).le = (s.ctx c).pc + 4 * len.setWidth 64
      ∧ (t.ctx c).pc = (if n = 0 then (s.ctx c).pc + 4 * len.setWidth 64 + 4 else (s.ctx c).pc + 4) ∧ WritesAll s t c [] ∧ (t.ctx c).delayed = []
      ∧ CtxFrame { s.ctx c with ls := (t.ctx c).ls, le := (t.ctx c).le } (t.ctx c) ∧ Beside s t c ∧ SameBytes s t) := by
  refine ⟨_, hi, ?_⟩
  obtain ⟨k, e, hk⟩ := h.1.fetched_eq
  rw [h.1.instr_eq (h.allows flowPlace), hf, hk]
  unfold loopStart
  dsimp only
  rw [ofNat_four_mul]
  obtain ⟨hx, hw, hd, hfr, hb, hm⟩ := h.1.retire_mod (r := { goto := if n = 0 then some ((s.ctx c).pc + 4 * len.setWidth 64 + 4) else none })
    rfl rfl rfl k e (g := fun y => { y with lc := n, ls := (s.ctx c).pc + 4, le := (s.ctx c).pc + 4 * len.setWidth 64 })
    (y := (s.ctx c).looped n len) rfl ⟨rfl, rfl, rfl, rfl, rfl⟩
  obtain ⟨hp, hl⟩ := Ctx.looped_retire (n := n) hlen h.2.2.1 h.2.1
  have hls := congrArg Ctx.ls hfr.1
  have hle := congrArg Ctx.le hfr.1
  dsimp only at hls hle
  refine ⟨(congrArg Ctx.lc hx).trans hl, hls, hle, (congrArg Ctx.pc hx).trans hp, hw, hd, ?_, hb, hm⟩
  rw [hls, hle]
  exact hfr.of_lc

theorem Ctx.seqNext_of_le {x : Ctx} {pc : W64} (hlc : x.lc ≠ 0) (hpc : pc = x.le) :
    x.seqNext pc = if 1 < x.lc then { x with lc := x.lc - 1, pc := x.ls } else { x with lc := 0, pc := x.le + 4 } := if_pos ⟨hlc, hpc⟩

theorem loopsCount : LoopsCount := by
  refine ⟨fun s c h => ⟨fun ra len hlen hn => ?loop, fun n len hlen => ?loopi⟩, fun s c f h hb hrep hlc hpc => ?last⟩
  case loop =>
    refine h.completes_loop (i := .loop c 0 ra len) hlen rfl fun t => ?_
    have hno : ¬(0xFFFFFFFF < ((s.ctx c).g ra).toNat) := by omega
    simp [legal, show len ≠ 0#16 from hlen, hno]
  case loopi => exact h.completes_loop (i := .loopi c n len) hlen rfl fun t => by simp [legal, show len ≠ 0#16 from hlen]
  case last =>
    obtain ⟨t, ht, v, hx⟩ := h.exec_or f
    obtain ⟨hp, hl, _⟩ := Ctx.retire_of_seq (x := s.ctx c) (r := { writes := [(f.rd, v)] }) hrep rfl rfl rfl hb rfl
    refine ⟨t, ht, ?_⟩
    dsimp only
    rw [hx, hp, hl]
    rw [Ctx.seqNext_of_le hlc hpc]
    split <;> exact ⟨rfl, rfl⟩

/-! ### REP -/

/-- REP with a count begins its repetitions; with none it leaves past the instruction that it names. -/
theorem Ctx.retire_startRep (x : Ctx) : (x.retire { startRep := true }).rep = true ∧ (x.retire { startRep := true }).pc = x.pc
    ∧ (x.retire { startRep := true }).rc = x.rc := by
  rw [Ctx.retire_eq x rfl]
  exact ⟨rfl, rfl, rfl⟩

theorem add_four_four (a : W64) : a + 4 + 4 = a + 8 := by bv_omega

/-- A repetition counts down, and the last goes on past the repeated instruction. -/
theorem Ctx.retire_of_rep {x : Ctx} {r : Ret} (hrep : x.rep = true) (hs : r.stay = false) (hr : r.startRep = false) (hlc : x.lc = 0) :
    if x.rc ≤ 1 then (x.retire r).rep = false ∧ (x.retire r).rc = 0 ∧ (x.retire r).pc = x.pc + 8
    else (x.retire r).rep = true ∧ (x.retire r).rc = x.rc - 1 ∧ (x.retire r).pc = x.pc := by
  rw [Ctx.retire_eq x hs]
  unfold Ctx.advance Ctx.retired1 Ctx.seqNext
  simp only [hs, hr, hrep, hlc, Bool.false_eq_true, if_false, if_true, ne_eq, not_true_eq_false, false_and]
  split
  · exact ⟨rfl, rfl, add_four_four x.pc⟩
  · exact ⟨rfl, rfl, rfl⟩

theorem repRepeats : RepRepeats := by
  refine ⟨fun s c h hfetch => ?_, fun s c f h hrep hlc => ?_⟩
  · intro w hforbid hassigned hlc
    obtain ⟨k, e, hk⟩ := h.1.fetchExc_fetched hfetch
    have hbytes : leNat ((s.withCorr k e).pnBytes ((s.ctx c).pc + 4).toNat 4) = w := rfl
    refine ⟨_, rfl, ?_⟩
    rw [h.1.instr_eq (h.allows flowPlace)]
    dsimp only
    rw [hk]
    dsimp only
    rw [hbytes, hforbid, decide_eq_false hassigned]
    simp only [legal, Bool.false_eq_true, if_false, Bool.or_false, decide_true, if_true]
    by_cases hrc : (s.ctx c).rc = 0
    · have hseq : (s.ctx c).seqNext ((s.ctx c).pc + 4) = { s.ctx c with pc := (s.ctx c).pc + 8 } := by
        unfold Ctx.seqNext
        rw [if_neg (fun hl => hl.1 hlc), add_four_four]
      rw [if_pos hrc, hseq]
      obtain ⟨hx, hw, hd, hfr, hb, hm⟩ := h.1.retire_mod (r := { goto := some ((s.ctx c).pc + 8) }) rfl rfl rfl k e
        (g := fun z => { z with lc := (s.ctx c).lc }) (y := s.ctx c) rfl ⟨rfl, rfl, rfl, rfl, rfl⟩
      obtain ⟨hp, _, hrp, hr⟩ := Ctx.retire_of_goto (x := s.ctx c) (r := { goto := some ((s.ctx c).pc + 8) }) h.2.2.1 rfl rfl rfl h.2.1 rfl
      refine ⟨hw, hd, (congrArg Ctx.rc hx).trans hr, ⟨hfr, hb, hm⟩, ?_⟩
      rw [if_pos hrc]
      exact ⟨(congrArg Ctx.rep hx).trans hrp, (congrArg Ctx.pc hx).trans hp⟩
    · rw [if_neg hrc]
      obtain ⟨hx, hfr⟩ := h.1.retire_corr (r := { startRep := true }) rfl rfl k e
      obtain ⟨hrp, hp, hr⟩ := (s.ctx c).retire_startRep
      refine ⟨fun q => ?_, (congrArg Ctx.delayed hx).trans (Ctx.retire_delayed _ rfl), (congrArg Ctx.rc hx).trans hr, hfr, ?_⟩
      · rw [hx]
        exact Ctx.retire_g _ rfl q
      · rw [if_neg hrc]
        exact ⟨(congrArg Ctx.rep hx).trans hrp, (congrArg Ctx.pc hx).trans hp⟩
  · obtain ⟨t, ht, v, hx⟩ := h.exec_or f
    refine ⟨t, ht, ?_⟩
    dsimp only
    rw [hx]
    exact Ctx.retire_of_rep hrep rfl rfl hlc

/-- Settles O8: LOOP and REP retire with the loop or the repetition begun, and OR stands for an instruction that ends a loop body or is repeated. -/
theorem loopsAndRepeats : Obligations.LoopsAndRepeats := ⟨loopsCount, repRepeats⟩

end Sys2Proof.Machine

namespace Sys2Proof.Machine

/-! ### Control registers (R122 to R127) -/

theorem svstStored_eq (v : W64) : svstStored v = v &&& 0x7F3F := by
  have hmask : ∀ i < 64, (0x7F3F : W64).getLsbD i = decide (i < 6 ∨ 8 ≤ i ∧ i < 15) := by decide
  apply BitVec.eq_of_getLsbD_eq
  intro i hi
  rw [svstStored, BitVec.getLsbD_ofNat, BitVec.getLsbD_and, hmask i hi, BitVec.getLsbD, decide_eq_true hi, Bool.true_and]
  generalize v.toNat = u
  have hlt : bits u 0 6 + bits u 8 7 * 256 < 2 ^ 15 := by unfold bits; omega
  rcases Nat.lt_or_ge i 6 with h6 | h6
  · rw [testBit_eq_of_bits (v := u) (lo := 0) (n := 6) (by unfold bits; omega) (by omega) (by omega)]
    simp [h6]
  rcases Nat.lt_or_ge i 8 with h8 | h8
  · rw [testBit_eq_of_bits (v := 0) (lo := 6) (n := 2) (by unfold bits; omega) h6 (by omega)]
    simp [h6.not_gt, h8.not_ge]
  rcases Nat.lt_or_ge i 15 with h15 | h15
  · rw [testBit_eq_of_bits (v := u) (lo := 8) (n := 7) (by unfold bits; omega) h8 (by omega)]
    simp [h8, h15]
  · rw [Nat.testBit_lt_two_pow (hlt.trans_le (Nat.pow_le_pow_right (by norm_num) h15))]
    simp [h6.not_gt, h15.not_gt]

theorem svxStored_eq (v : W64) : svxStored v = v &&& ~~~(0x3000000 : W64) := by
  have hmask : ∀ i < 64, (0x3000000 : W64).getLsbD i = decide (24 ≤ i ∧ i < 26) := by decide
  apply BitVec.eq_of_getLsbD_eq
  intro i hi
  have hf := testBit_replaceField v.toNat 0 24 2 i
  rw [show bits 0 0 2 * 2 ^ 24 = 0 from rfl, Nat.add_zero, Nat.zero_testBit] at hf
  rw [svxStored, BitVec.getLsbD_ofNat, hf, BitVec.getLsbD_and, BitVec.getLsbD_not, hmask i hi]
  by_cases hk : 24 ≤ i ∧ i < 26
  · simp [hk]
  · rw [if_neg hk, decide_eq_false hk]
    simp [hi, BitVec.getLsbD]

theorem Ctx.save_setName (x : Ctx) : x.save x.setName = if x.super1 then (if x.visit.isSome then x.gate else x.super) else x.user := by
  unfold Ctx.setName
  cases x.super1 <;> cases x.visit.isSome <;> rfl

/-- The control values are what MFC reads, register by register. -/
theorem controlValues_eq (s : State) (c : Nat) : controlValues s c = (List.range 13).map (s.creg c (s.ctx c)) := by
  dsimp only [controlValues]
  rw [← Ctx.save_setName, ← svstStored_eq]
  rfl

theorem creg_of_controlValues {s : State} {c n : Nat} {v : W64} (h : (controlValues s c)[n]? = some v) : n ≤ 12 ∧ s.creg c (s.ctx c) n = v := by
  rw [controlValues_eq, List.getElem?_map, Option.map_eq_some_iff] at h
  obtain ⟨m, hm, hv⟩ := h
  obtain ⟨hlt, rfl⟩ := List.getElem?_eq_some_iff.mp hm
  simp only [List.length_range] at hlt
  rw [List.getElem_range] at hv
  exact ⟨by omega, hv⟩

theorem State.creg_withCorr (s : State) (k : Tbl Nat) (e : Tbl (List Nat)) (c : Nat) (x : Ctx) (n : Nat) :
    (s.withCorr k e).creg c x n = s.creg c x n := by
  unfold State.creg
  rfl

/-- A retirement out of any loop end, delay slot and repetition keeps the repetition count, and the loop count unless it loops. -/
theorem Ctx.retire_counts {x : Ctx} {r : Ret} (hrep : x.rep = false) (hs : r.stay = false) (hr : r.startRep = false) (hb : r.branch = none)
    (hx : x.branch = none) (hg : r.goto = none) : (x.retire r).rc = x.rc ∧ (x.pc ≠ x.le → (x.retire r).lc = x.lc) := by
  rw [Ctx.retire_eq x hs]
  unfold Ctx.advance Ctx.retired1 Ctx.seqNext
  simp only [hs, hr, hrep, hb, hx, hg, Bool.false_eq_true, if_false]
  by_cases hl : x.lc ≠ 0 ∧ x.pc = x.le
  · rw [if_pos hl]
    refine ⟨?_, fun hne => absurd hl.2 hne⟩
    split <;> rfl
  · rw [if_neg hl]
    exact ⟨rfl, fun _ => rfl⟩

/-- MTC that writes a control register: the change of the context, and its retirement. -/
theorem IssuesPlain.completes_mtc {s : State} {c : Nat} (h : IssuesPlain s c) {rd ra : Reg} {g : Ctx → Ctx}
    (hf : ∀ t, mtcStep t c (s.ctx c) rd.val ((s.ctx c).g ra) ra = .retire {} (t.modCtx c g)) {y : Ctx} (hgy : g (s.ctx c) = y)
    (hg : (s.ctx c).Changes y) : ∃ t, exec (.mtc c ⟨rd, ra, 0⟩) s = .next t ∧ t.ctx c = y.retire {} ∧ WritesAll s t c []
      ∧ CtxFrame y (t.ctx c) ∧ Beside s t c ∧ SameBytes s t := by
  refine ⟨_, rfl, ?_⟩
  obtain ⟨k, e, hk⟩ := h.1.fetched_eq
  rw [h.1.instr_eq (h.allows _)]
  dsimp only
  rw [hf, hk]
  simp only [legal, decide_true, if_true]
  obtain ⟨hx, hw, _, hfr, hb, hm⟩ := h.1.retire_mod (r := {}) rfl rfl rfl k e hgy hg
  exact ⟨hx, hw, hfr, hb, hm⟩

theorem CtxFrame.of_rc {x y : Ctx} {n : Nat} (h : CtxFrame { x with rc := n } y) : CtxFrame x y :=
  ⟨congrArg (fun z : Ctx => { z with rc := x.rc }) h.1, h.2⟩

theorem CtxFrame.save {x y : Ctx} (h : CtxFrame x y) (n : SetName) : y.save n = x.save n := by
  cases n
  · exact (congrArg Ctx.user h.1 :)
  · exact (congrArg Ctx.super h.1 :)
  · exact (congrArg Ctx.gate h.1 :)

@[simp] theorem Ctx.save_setSave (x : Ctx) (n : SetName) (v : SaveSet) : (x.setSave n v).save n = v := by cases n <;> rfl

theorem Ctx.changes_setSave (x : Ctx) (n : SetName) (v : SaveSet) : x.Changes (x.setSave n v) := by
  cases n <;> exact ⟨rfl, rfl, rfl, rfl, rfl⟩

/-- MTC that writes a field of the save set of the running level. -/
theorem IssuesPlain.completes_mtcSave {s : State} {c : Nat} (h : IssuesPlain s c) {rd ra : Reg} {g : SaveSet → SaveSet}
    (hf : ∀ t, mtcStep t c (s.ctx c) rd.val ((s.ctx c).g ra) ra = .retire {} (t.modCtx c (fun y => y.modSave g))) :
    ∃ t, exec (.mtc c ⟨rd, ra, 0⟩) s = .next t ∧ (t.ctx c).save (s.ctx c).setName = g ((s.ctx c).save (s.ctx c).setName) ∧ WritesAll s t c []
      ∧ CtxFrame ((s.ctx c).setSave (s.ctx c).setName (g ((s.ctx c).save (s.ctx c).setName))) (t.ctx c) ∧ Beside s t c ∧ SameBytes s t := by
  obtain ⟨t, ht, _, hw, hfr, hb, hm⟩ := h.completes_mtc hf rfl (Ctx.changes_setSave _ _ _)
  exact ⟨t, ht, (hfr.save _).trans (Ctx.save_setSave _ _ _), hw, hfr, hb, hm⟩

/-- MTC that raises. -/
theorem IssuesPlain.mtc_exc {s : State} {c : Nat} (h : IssuesPlain s c) {f : FmtA} {e : Exc} (he : e.reach = false)
    (hf : ∀ t, legal (f.rb = 0) t (mtcStep t c (s.ctx c) f.rd.val ((s.ctx c).g f.ra) f.ra) = .exc e t) :
    exec (.mtc c f) s = .next ((s.fetchExc c (s.ctx c).pc.toNat).2.takeExc c e (s.ctx c).pc false) :=
  congrArg Host.Outcome.next (h.instr_exc (hf _) he)

theorem mtcStep_unlisted {t : State} {c n : Nat} {x : Ctx} {v : W64} {ra : Reg} (h : n = 0 ∨ 9 ≤ n) :
    mtcStep t c x n v ra = .exc excIllegal t := by
  rcases h with rfl | h
  · rfl
  · obtain ⟨m, rfl⟩ := Nat.exists_eq_add_of_le' h
    rfl

theorem mtcStep_lc {t : State} {c : Nat} {x : Ctx} {v : W64} {ra : Reg} (h : 0xFFFFFFFF < v.toNat) :
    mtcStep t c x 2 v ra = .exc { code := 2, info := ra.val } t := if_pos h

theorem mtcStep_rc {t : State} {c : Nat} {x : Ctx} {v : W64} {ra : Reg} (h : 0xFFFFFFFF < v.toNat) :
    mtcStep t c x 5 v ra = .exc { code := 2, info := ra.val } t := if_pos h

theorem getLsbD_and_not_mask (v : W64) {i : Nat} (h24 : i ≠ 24) (h25 : i ≠ 25) : (v &&& ~~~(0x3000000 : W64)).getLsbD i = v.getLsbD i := by
  have hmask : ∀ i < 64, i ≠ 24 → i ≠ 25 → (0x3000000 : W64).getLsbD i = false := by decide
  rcases Nat.lt_or_ge i 64 with hi | hi
  · rw [BitVec.getLsbD_and, BitVec.getLsbD_not, hmask i hi h24 h25]
    simp [hi]
  · rw [BitVec.getLsbD_of_ge _ i hi, BitVec.getLsbD_of_ge _ i hi]

/-- Settles O9: MFC writes the value of the register's row to rd, MTC changes its register in the context and retires, and what neither may do is an
exception at the instruction. -/
theorem controlRegisters : Obligations.ControlRegisters := by
  unfold Obligations.ControlRegisters
  intro s c h
  refine ⟨fun rd ra v hv => ?mfc, fun ra => ⟨fun hv => ?st, fun hv hne => ?lc, ?ls, ?le, fun hv => ?rc, ?svpc, ?svst, ?svx,
    fun rd rb => ⟨fun hbad => ?mfcBad, fun hbad => ?mtcBad, fun hv => ?stBad, fun hv => ⟨?lcBad, ?rcBad⟩⟩⟩⟩
  case mfc =>
    obtain ⟨hn, hc⟩ := creg_of_controlValues hv
    obtain ⟨k, e, hk⟩ := h.1.fetched_eq
    refine ⟨_, rfl, ?_⟩
    rw [h.1.instr_eq h.1.allows_any]
    have hcr : (s.fetched c).creg c (s.ctx c) ra.val = v := by rw [hk, State.creg_withCorr, hc]
    simp only [legal, decide_true, Bool.true_and, decide_eq_true hn, if_true, hcr]
    exact h.1.retireW rd v
  case st =>
    obtain ⟨t, ht, _, hw, hfr, hb, hm⟩ := h.completes_mtc (rd := 1) (ra := ra) (g := fun y => { y with st := (s.ctx c).g ra })
      (fun t => if_neg (not_not.mpr hv)) rfl ⟨rfl, rfl, rfl, rfl, rfl⟩
    exact ⟨t, ht, ⟨hfr.2 0 (by omega) (by omega), hfr.2 1 (by omega) (by omega)⟩, hw, hfr, hb, hm⟩
  case lc =>
    obtain ⟨t, ht, hx, hw, hfr, hb, hm⟩ := h.completes_mtc (rd := 2) (ra := ra) (g := fun y => { y with lc := ((s.ctx c).g ra).toNat })
      (fun t => if_neg (by omega)) rfl ⟨rfl, rfl, rfl, rfl, rfl⟩
    obtain ⟨_, hl⟩ := Ctx.retire_counts (x := { s.ctx c with lc := ((s.ctx c).g ra).toNat }) (r := {}) h.2.2.1 rfl rfl rfl h.2.1 rfl
    exact ⟨t, ht, (congrArg Ctx.lc hx).trans (hl hne), hw, hfr.of_lc, hb, hm⟩
  case ls =>
    obtain ⟨t, ht, _, hw, hfr, hb, hm⟩ := h.completes_mtc (rd := 3) (ra := ra) (g := fun y => { y with ls := (s.ctx c).g ra })
      (fun t => rfl) rfl ⟨rfl, rfl, rfl, rfl, rfl⟩
    exact ⟨t, ht, (congrArg Ctx.ls hfr.1 :), hw, hfr, hb, hm⟩
  case le =>
    obtain ⟨t, ht, _, hw, hfr, hb, hm⟩ := h.completes_mtc (rd := 4) (ra := ra) (g := fun y => { y with le := (s.ctx c).g ra })
      (fun t => rfl) rfl ⟨rfl, rfl, rfl, rfl, rfl⟩
    exact ⟨t, ht, (congrArg Ctx.le hfr.1 :), hw, hfr, hb, hm⟩
  case rc =>
    obtain ⟨t, ht, hx, hw, hfr, hb, hm⟩ := h.completes_mtc (rd := 5) (ra := ra) (g := fun y => { y with rc := ((s.ctx c).g ra).toNat })
      (fun t => if_neg (by omega)) rfl ⟨rfl, rfl, rfl, rfl, rfl⟩
    obtain ⟨hr, _⟩ := Ctx.retire_counts (x := { s.ctx c with rc := ((s.ctx c).g ra).toNat }) (r := {}) h.2.2.1 rfl rfl rfl h.2.1 rfl
    exact ⟨t, ht, (congrArg Ctx.rc hx).trans hr, hw, hfr.of_rc, hb, hm⟩
  case svpc =>
    obtain ⟨t, ht, hsv, hrest⟩ := h.completes_mtcSave (rd := 6) (ra := ra) (g := fun z => { z with pc := (s.ctx c).g ra }) (fun t => rfl)
    exact ⟨t, ht, congrArg SaveSet.pc hsv, hrest⟩
  case svst =>
    obtain ⟨t, ht, hsv, hrest⟩ := h.completes_mtcSave (rd := 7) (ra := ra) (g := fun z => { z with st := (s.ctx c).g ra }) (fun t => rfl)
    exact ⟨t, ht, congrArg SaveSet.st hsv, hrest⟩
  case svx =>
    obtain ⟨t, ht, hsv, hrest⟩ := h.completes_mtcSave (rd := 8) (ra := ra)
      (g := fun z => { z with x := (s.ctx c).g ra &&& ~~~(0x3000000 : W64) }) (fun t => by rw [← svxStored_eq]; rfl)
    refine ⟨t, ht, fun i h24 h25 => ?_, hrest⟩
    rw [congrArg SaveSet.x hsv]
    exact getLsbD_and_not_mask _ h24 h25
  case mfcBad =>
    have hl : (decide (rb = 0) && decide (ra.val ≤ 12)) = false := by
      rcases hbad with h12 | hrb
      · simp [h12.not_ge]
      · rw [decide_eq_false hrb, Bool.false_and]
    exact congrArg Host.Outcome.next (h.instr_exc (by simp only [legal]; rw [hl]; rfl) rfl)
  case mtcBad =>
    refine h.mtc_exc rfl fun t => ?_
    by_cases hrb : rb = 0
    · have hn : rd.val = 0 ∨ 9 ≤ rd.val := by
        rcases hbad with rfl | h9 | hne
        · exact .inl rfl
        · exact .inr h9
        · exact absurd hrb hne
      rw [mtcStep_unlisted hn]
      exact ite_self _
    · exact if_neg (by simpa using hrb)
  case stBad => exact h.mtc_exc rfl fun t => if_pos hv
  case lcBad => exact h.mtc_exc (f := ⟨2, ra, 0⟩) rfl fun t => mtcStep_lc (x := s.ctx c) (v := (s.ctx c).g ra) (by omega)
  case rcBad => exact h.mtc_exc (f := ⟨5, ra, 0⟩) rfl fun t => mtcStep_rc (x := s.ctx c) (v := (s.ctx c).g ra) (by omega)

end Sys2Proof.Machine

namespace Sys2Proof.Machine

/-! ### Addresses and accesses of one word (R133 to R135) -/

/-- The model computes the address and the base update that the statement of R134 and R135 gives. -/
theorem EaOf.memEa {f : FmtM} {x : Ctx} {size : Nat} {load : Bool} {ea : W64} {up : List (Reg × W64)} (h : EaOf f x size load ea up) :
    Machine.memEa f x size load = some (ea, up) := by
  unfold Machine.memEa
  rcases h with ⟨hm, rfl, rfl⟩ | ⟨hm, hl, hra, hrd, rfl, rfl⟩ | ⟨hm, hl, hra, hrd, rfl, rfl⟩ | ⟨hm, hl, rfl, rfl⟩
  · rw [hm]
    rfl
  · rw [hm]
    exact if_neg (by simpa [hl, hra] using hrd)
  · rw [hm]
    exact if_neg (by simpa [hl, hra] using hrd)
  · have hlow : bits f.low.toNat 0 7 = 0 := by
      have h7 := congrArg BitVec.toNat hl
      simpa [bits, BitVec.extractLsb'_toNat] using h7
    rw [hm]
    refine (if_neg (not_not.mpr hlow)).trans ?_
    simp only [bits, BitVec.extractLsb'_toNat, Nat.shiftRight_eq_div_pow]

theorem loadRows_op : ∀ row ∈ loadRows, ∀ c f s, exec (row.1 c f) s = .next (s.instr c norepPlace (loadStep f c row.2.1 row.2.2)) := by
  simp only [loadRows, List.forall_mem_cons]
  exact ⟨fun _ _ _ => rfl, fun _ _ _ => rfl, fun _ _ _ => rfl, fun _ _ _ => rfl, fun _ _ _ => rfl, fun _ _ _ => rfl, fun _ _ _ => rfl, nofun⟩

theorem storeRows_op : ∀ row ∈ storeRows, ∀ c f s, exec (row.1 c f) s = .next (s.instr c anyPlace (storeStep f c row.2)) := by
  simp only [storeRows, List.forall_mem_cons]
  exact ⟨fun _ _ _ => rfl, fun _ _ _ => rfl, fun _ _ _ => rfl, fun _ _ _ => rfl, nofun⟩

theorem loadStep_of_ea {f : FmtM} {c size : Nat} {sx : Bool} {s : State} {x : Ctx} {ea : W64} {up : List (Reg × W64)}
    (h : EaOf f x size true ea up) : loadStep f c size sx s x
      = if ea.toNat % size ≠ 0 then .exc (excAlign ea.toNat) s
        else match s.accessExc c .read ea.toNat with
        | some e => .exc e (s.xlatNote ea.toNat)
        | none =>
          match s.hRead c ea.toNat size with
          | (_, some e, s1) => .exc e s1
          | (d, none, s1) =>
            .retire { writes := up, late := [(f.rd, if sx then BitVec.ofInt 64 (signed (8 * size) (leNat d)) else BitVec.ofNat 64 (leNat d))] } s1 := by
  unfold loadStep
  rw [h.memEa] <;> rfl

theorem storeStep_of_ea {f : FmtM} {c size : Nat} {s : State} {x : Ctx} {ea : W64} {up : List (Reg × W64)}
    (h : EaOf f x size false ea up) : storeStep f c size s x
      = if ea.toNat % size ≠ 0 then .exc (excAlign ea.toNat) s
        else match s.accessExc c .write ea.toNat with
        | some e => .exc e (s.xlatNote ea.toNat)
        | none => .retire { writes := up } (s.hWrite c ea.toNat (leBytes size (x.g f.rd).toNat)) := by
  unfold storeStep
  rw [h.memEa] <;> rfl

/-- An instruction whose operation ends in an exception, whatever state it leaves. -/
theorem IssuesPlain.instr_exc_on {s t : State} {c : Nat} (h : IssuesPlain s c) {p : Place1} {f : State → Ctx → IStep} {e : Exc}
    (hf : f (s.fetched c) (s.ctx c) = .exc e t) : s.instr c p f = t.raise c e (s.ctx c).pc false := by
  rw [h.1.instr_eq (h.allows p), hf, h.instrEnd_exc]

theorem IssuesPlain.accessExc_fetched {s : State} {c : Nat} (h : IssuesPlain s c) (k : AccKind) (a : Nat) :
    (s.fetched c).accessExc c k a = s.accessExc c k a := h.1.sameRights.accessExc (State.fetched_ctx s c c) k a

/-- Settles O5: loads and stores look at the alignment and then at the rights of their address, before they touch memory. -/
theorem accessTraps : Obligations.AccessTraps := by
  unfold Obligations.AccessTraps
  intro s c f ea up h
  refine ⟨fun row hrow hea => ⟨fun hal => ?loadAlign, fun e hal hacc => ?loadDeny⟩,
    fun row hrow hea => ⟨fun hal => ?storeAlign, fun e hal hacc => ?storeDeny⟩⟩
  case loadAlign =>
    rw [loadRows_op row hrow]
    exact congrArg Host.Outcome.next (h.instr_exc (by rw [loadStep_of_ea hea, if_pos hal]; rfl) rfl)
  case loadDeny =>
    rw [loadRows_op row hrow, ← h.fetched_def]
    exact congrArg Host.Outcome.next (h.instr_exc_on (by rw [loadStep_of_ea hea, if_neg (not_not.mpr hal), h.accessExc_fetched, hacc]))
  case storeAlign =>
    rw [storeRows_op row hrow]
    exact congrArg Host.Outcome.next (h.instr_exc (by rw [storeStep_of_ea hea, if_pos hal]; rfl) rfl)
  case storeDeny =>
    rw [storeRows_op row hrow, ← h.fetched_def]
    exact congrArg Host.Outcome.next (h.instr_exc_on (by rw [storeStep_of_ea hea, if_neg (not_not.mpr hal), h.accessExc_fetched, hacc]))

end Sys2Proof.Machine

namespace Sys2Proof.Machine

/-! ### An instruction that retires on whatever its operation left (R117 to R120, R138) -/

/-- What a retirement leaves: its own context retired, every other one as the operation left it, and of the rest the statistics alone
moved. -/
structure State.RetiredFrom (u : State) (c : Nat) (r : Ret) (t : State) : Prop where
  own : t.ctx c = (u.ctx c).retire r
  other : ∀ d, d ≠ c → t.ctx d = u.ctx d
  rest : { t with ctxs := u.ctxs, stats := u.stats } = u

theorem Issues.retiredFrom {s u : State} {c : Nat} (h : Issues s c) {r : Ret} (hs : r.stay = false) (hy : r.yield = false)
    (hg : (s.ctx c).Changes (u.ctx c)) : u.RetiredFrom c r (s.instrEnd c (.retire r u)) := by
  obtain ⟨_, _, _, hasync, hdue, hslot, _, _⟩ := h
  have ht := State.instrEnd_retire (s := s) (t := u) hs hy (hg.due.trans hdue) (hg.asyncErr.trans hasync) (hg.slotDue.trans hslot)
  rw [ht]
  exact ⟨State.ctx_modCtx_self .., fun d hd => State.ctx_modCtx_ne _ _ hd, by
    unfold State.modCtx State.setCtx State.countWorld State.countBank
    rfl⟩

theorem Ctx.Changes.refl (x : Ctx) : x.Changes x := ⟨rfl, rfl, rfl, rfl, rfl⟩

theorem Ctx.Changes.of_eq {x y : Ctx} (h : y = x) : x.Changes y := h ▸ .refl x

namespace State.RetiredFrom
variable {s u t : State} {c : Nat} {r : Ret}

theorem writes (h : u.RetiredFrom c r t) (hs : r.stay = false) (hg : (s.ctx c).Changes (u.ctx c)) :
    WritesAll s t c r.writes ∧ (t.ctx c).delayed = r.late := by
  refine ⟨fun q => ?_, ?_⟩
  · rw [h.own, Ctx.retire_g _ hs]
    exact Ctx.g_congr (Ctx.flush_setAll_regs_congr hg.regs hg.delayed r.writes) q
  · rw [h.own, Ctx.retire_delayed _ hs]

theorem ctxFrame (h : u.RetiredFrom c r t) (hs : r.stay = false) : CtxFrame (u.ctx c) (t.ctx c) := by
  rw [h.own]
  exact Ctx.retire_ctxFrame _ hs

theorem pantry (h : u.RetiredFrom c r t) : t.pantry = u.pantry := (congrArg State.pantry h.rest :)
theorem cellar (h : u.RetiredFrom c r t) : t.cellar = u.cellar := (congrArg State.cellar h.rest :)
theorem flash (h : u.RetiredFrom c r t) : t.flash = u.flash := (congrArg State.flash h.rest :)
theorem hostMem (h : u.RetiredFrom c r t) : t.hostMem = u.hostMem := (congrArg State.hostMem h.rest :)

theorem sameBytes (h : u.RetiredFrom c r t) (hu : SameBytes s u) : SameBytes s t := by
  unfold SameBytes
  rw [h.pantry, h.cellar, h.flash, h.hostMem]
  exact hu

theorem beside (h : u.RetiredFrom c r t) (hu : Beside s u c) : Beside s t c := by
  refine ⟨fun d hd => (h.other d hd).trans (hu.1 d hd), Eq.trans ?_ hu.2⟩
  exact (congrArg (fun v : State => { v with
    ctxs := s.ctxs, stats := s.stats, pantry := { v.pantry with corr := s.pantry.corr, errs := s.pantry.errs } }) h.rest :)

/-- The same of a state whose Pantry bytes are put back. -/
theorem withMem (h : u.RetiredFrom c r t) (m : Memory) :
    ({ u with pantry := { u.pantry with mem := m } } : State).RetiredFrom c r { t with pantry := { t.pantry with mem := m } } :=
  ⟨h.own, h.other, (congrArg (fun v : State => { v with pantry := { v.pantry with mem := m } }) h.rest :)⟩

end State.RetiredFrom

/-! ### What does not look at Pantry's corrections -/

section Corr
variable (s : State) (k : Tbl Nat) (e : Tbl (List Nat))

theorem State.withCorr_ite (p : Prop) [Decidable p] (a b : State) :
    (if p then a else b).withCorr k e = if p then a.withCorr k e else b.withCorr k e := apply_ite (fun t => State.withCorr t k e) p a b

theorem State.msix_withCorr (w : World) (v : Nat) : (s.withCorr k e).msix w v = (s.msix w v).withCorr k e := by
  unfold State.msix
  rw [State.withCorr_ite, State.withCorr_ite]
  rfl

theorem State.msixRunning_withCorr (w : World) (v : Nat) : (s.withCorr k e).msixRunning w v = (s.msixRunning w v).withCorr k e := by
  unfold State.msixRunning
  rw [State.withCorr_ite, State.msix_withCorr]
  rfl

theorem State.enterFnView_withCorr (w : World) (m : W64) (x : Option Nat) (h : Bool) :
    (s.withCorr k e).enterFnView w m x h = ((s.enterFnView w m x h).1.withCorr k e, (s.enterFnView w m x h).2) := by
  unfold State.enterFnView
  split
  · dsimp only
    rw [State.withCorr_ite, ← State.msixRunning_withCorr]
    rfl
  · rfl

theorem State.enterViews_withCorr (m : W64) (x : Option Nat) (h : Bool) :
    (s.withCorr k e).enterViews m x h = (s.enterViews m x h).withCorr k e := by
  unfold State.enterViews
  simp only [State.enterFnView_withCorr]
  rfl

theorem State.report_withCorr (m : W64) (x : Option Nat) : (s.withCorr k e).report m x = (s.report m x).withCorr k e := by
  unfold State.report
  rw [State.withCorr_ite, State.enterViews_withCorr]
  rfl

theorem State.mbPartnerFault_withCorr (m off n : Nat) :
    (s.withCorr k e).mbPartnerFault m off n = (s.mbPartnerFault m off n).withCorr k e := by
  unfold State.mbPartnerFault
  rw [State.withCorr_ite, State.report_withCorr]
  rfl

theorem State.mbDeliver_withCorr (m code b : Nat) (reply : List (Nat × W64)) :
    (s.withCorr k e).mbDeliver m code b reply = (s.mbDeliver m code b reply).withCorr k e := by
  unfold State.mbDeliver
  change (match s.mbWorld m with | some _ => _ | none => _) = _
  cases s.mbWorld m with
  | none => rfl
  | some w =>
    dsimp only
    rw [← State.msix_withCorr]
    rfl

theorem State.mbAck_withCorr (m code b : Nat) (reply : List (Nat × W64)) :
    (s.withCorr k e).mbAck m code b reply = (s.mbAck m code b reply).withCorr k e := by
  unfold State.mbAck
  rw [State.withCorr_ite, State.mbDeliver_withCorr]
  rfl

theorem State.mbNoteSet_withCorr (m v : Nat) : (s.withCorr k e).mbNoteSet m v = (s.mbNoteSet m v).withCorr k e := by
  unfold State.mbNoteSet
  change (match s.mbWorld m with | some _ => _ | none => _) = _
  cases s.mbWorld m with
  | none => rfl
  | some w =>
    dsimp only
    rw [State.withCorr_ite, ← State.msix_withCorr]
    rfl

theorem State.mbPartnerWord_withCorr (m off v : Nat) :
    (s.withCorr k e).mbPartnerWord m off v = (s.mbPartnerWord m off v).withCorr k e := by
  unfold State.mbPartnerWord
  split
  · exact State.mbNoteSet_withCorr ..
  · rfl
  · exact State.mbAck_withCorr ..
  · dsimp only
    rw [State.withCorr_ite, State.withCorr_ite]
    rfl

theorem State.mbPartnerLong_withCorr (m off v : Nat) :
    (s.withCorr k e).mbPartnerLong m off v = (s.mbPartnerLong m off v).withCorr k e := by
  unfold State.mbPartnerLong
  rw [State.withCorr_ite, State.mbPartnerWord_withCorr, State.mbPartnerWord_withCorr]
  rfl

theorem State.mbPartnerWrite_withCorr (m off : Nat) (d : List Byte) :
    (s.withCorr k e).mbPartnerWrite m off d = (s.mbPartnerWrite m off d).withCorr k e := by
  have hl : ∀ (l : List Nat) (t : State), l.foldl (fun t i => t.mbPartnerLong m (off + 8 * i) (leNat (slice d (8 * i) 8))) (t.withCorr k e)
      = (l.foldl (fun t i => t.mbPartnerLong m (off + 8 * i) (leNat (slice d (8 * i) 8))) t).withCorr k e := by
    intro l
    induction l with
    | nil => exact fun _ => rfl
    | cons i l ih =>
      intro t
      rw [List.foldl_cons, State.mbPartnerLong_withCorr, ih]
      rfl
  unfold State.mbPartnerWrite
  rw [State.withCorr_ite, State.withCorr_ite, State.mbPartnerFault_withCorr, State.mbPartnerWord_withCorr, hl]

end Corr

/-! ### What a store to a partner block leaves (R277 to R279) -/

/-- A store to a partner block changes mailboxes, what is announced and what is reported, and no more. -/
def State.MailboxFrame (s t : State) : Prop := { t with mbs := s.mbs, fc := s.fc, fns := s.fns, out := s.out } = s

theorem State.MailboxFrame.refl (s : State) : s.MailboxFrame s := rfl

theorem State.MailboxFrame.trans {s t u : State} (h : s.MailboxFrame t) (h' : t.MailboxFrame u) : s.MailboxFrame u :=
  (congrArg (fun v : State => { v with mbs := s.mbs, fc := s.fc, fns := s.fns, out := s.out }) h' :).trans h

section
variable {s t : State} (h : s.MailboxFrame t)
include h

theorem State.MailboxFrame.eq : { t with mbs := s.mbs, fc := s.fc, fns := s.fns, out := s.out } = s := h
theorem State.MailboxFrame.ctxs : t.ctxs = s.ctxs := (congrArg State.ctxs h.eq :)

theorem State.MailboxFrame.ctx (c : Nat) : t.ctx c = s.ctx c := by
  unfold State.ctx
  rw [h.ctxs]

theorem State.MailboxFrame.sameBytes : SameBytes s t := by
  have hp : t.pantry = s.pantry := (congrArg State.pantry h.eq :)
  have hc : t.cellar = s.cellar := (congrArg State.cellar h.eq :)
  have hf : t.flash = s.flash := (congrArg State.flash h.eq :)
  have hm : t.hostMem = s.hostMem := (congrArg State.hostMem h.eq :)
  unfold SameBytes
  rw [hp, hc, hf, hm]
  exact ⟨fun _ => rfl, fun _ => rfl, fun _ => rfl, fun _ => rfl⟩

end

theorem State.mailboxFrame_modMb (s : State) (m : Nat) (f : Mailbox → Mailbox) : s.MailboxFrame (s.modMb m f) := rfl

theorem State.mailboxFrame_msix (s : State) (w : World) (v : Nat) : s.MailboxFrame (s.msix w v) :=
  (congrArg (fun t : State => { t with mbs := s.mbs, fc := s.fc }) (State.msix_frame s w v) :)

theorem State.mailboxFrame_fault (s : State) (m off n : Nat) : s.MailboxFrame (s.mbPartnerFault m off n) := by
  unfold State.mbPartnerFault
  split
  · exact (congrArg (fun t : State => { t with mbs := s.mbs }) (State.report_frame s _ none) :)
  · exact .refl s

theorem State.mailboxFrame_deliver (s : State) (m code b : Nat) (reply : List (Nat × W64)) : s.MailboxFrame (s.mbDeliver m code b reply) := by
  unfold State.mbDeliver
  cases s.mbWorld m with
  | none => exact State.mailboxFrame_modMb ..
  | some w => exact (State.mailboxFrame_modMb s m _).trans (State.mailboxFrame_msix ..)

theorem State.mailboxFrame_noteSet (s : State) (m v : Nat) : s.MailboxFrame (s.mbNoteSet m v) := by
  unfold State.mbNoteSet
  cases s.mbWorld m with
  | none => exact State.mailboxFrame_modMb ..
  | some w =>
    dsimp only
    split
    · exact (State.mailboxFrame_modMb s m _).trans (State.mailboxFrame_msix ..)
    · exact State.mailboxFrame_modMb ..

theorem State.mailboxFrame_word (s : State) (m off v : Nat) : s.MailboxFrame (s.mbPartnerWord m off v) := by
  unfold State.mbPartnerWord
  split
  · exact State.mailboxFrame_noteSet ..
  · exact State.mailboxFrame_modMb ..
  · unfold State.mbAck
    split
    · exact State.mailboxFrame_modMb ..
    · exact State.mailboxFrame_deliver ..
  · dsimp only
    split
    · split <;> exact State.mailboxFrame_modMb ..
    · exact .refl s

theorem State.mailboxFrame_long (s : State) (m off v : Nat) : s.MailboxFrame (s.mbPartnerLong m off v) := by
  unfold State.mbPartnerLong
  split
  · exact State.mailboxFrame_modMb ..
  · exact (State.mailboxFrame_word ..).trans (State.mailboxFrame_word ..)

theorem State.mailboxFrame_write (s : State) (m off : Nat) (d : List Byte) : s.MailboxFrame (s.mbPartnerWrite m off d) := by
  have hl : ∀ (l : List Nat) (t : State), t.MailboxFrame (l.foldl (fun t i => t.mbPartnerLong m (off + 8 * i) (leNat (slice d (8 * i) 8))) t) := by
    intro l
    induction l with
    | nil => exact .refl
    | cons i l ih => exact fun t => (State.mailboxFrame_long t m _ _).trans (ih _)
  unfold State.mbPartnerWrite
  split
  · exact State.mailboxFrame_fault ..
  split
  · exact State.mailboxFrame_word ..
  · exact hl _ _

end Sys2Proof.Machine

namespace Sys2Proof.Machine

/-! ### An aligned access lies in one block (R135, R502) -/

/-- The sizes of loads and stores (R135). -/
def accessSize (n : Nat) : Prop := n = 1 ∨ n = 2 ∨ n = 4 ∨ n = 8

theorem storeRows_size : ∀ row ∈ storeRows, accessSize row.2 := by simp [storeRows, accessSize]

theorem loadRows_size : ∀ row ∈ loadRows, accessSize row.2.1 := by
  simp [loadRows, accessSize]

theorem accessSize.pos {n : Nat} (h : accessSize n) : 0 < n := by
  unfold accessSize at h
  omega

theorem blockParts_aligned {a n : Nat} (h : accessSize n) (ha : a % n = 0) : blockParts a n = [(a, n)] := by
  have hn := h.pos
  have h1 : (a + n - 1) / 256 = a / 256 := by rcases h with rfl | rfl | rfl | rfl <;> omega
  have h2 : a + n ≤ 256 * (a / 256 + 1) := by rcases h with rfl | rfl | rfl | rfl <;> omega
  have h3 : Nat.max a (256 * (a / 256)) = a := Nat.max_eq_left (Nat.mul_div_le a 256)
  have h4 : Nat.min (a + n) (256 * (a / 256 + 1)) = a + n := Nat.min_eq_left h2
  unfold blockParts
  rw [if_neg (by omega), h1, Nat.sub_self]
  simp [List.range_succ, h3, h4]

/-- The mailbox partner block that the running level meets at an address (R277, R502). -/
def State.partnerAt (s : State) (c a : Nat) : Option Nat := if (s.ctx c).super1 then s.mbBlockAt (s.ctx c).world a else none

theorem NoPartner.partnerAt {s : State} {c a : Nat} (h : NoPartner s c a) : s.partnerAt c a = none := by
  unfold State.partnerAt
  split
  · next hs => exact h hs
  · rfl

theorem State.meetsPartner_aligned {s : State} {c a n : Nat} (h : accessSize n) (ha : a % n = 0) :
    s.meetsPartner (s.ctx c) a n = (s.partnerAt c a).isSome := by
  unfold State.meetsPartner State.partnerAt
  rw [blockParts_aligned h ha]
  cases (s.ctx c).super1 <;> simp

/-! ### What a store does (R136, R277, R346) -/

theorem State.hWritePart_eq (s : State) (c a : Nat) (d : List Byte) : s.hWritePart c a d = match s.partnerAt c a with
    | some m => s.mbPartnerWrite m (a - Tbl.get 0 s.img.mbAddr m) d
    | none => s.placeBytes c (s.ctx c).world a d := rfl

theorem State.hWrite_partner {s : State} {c a : Nat} {d : List Byte} {m : Nat} (h : accessSize d.length) (ha : a % d.length = 0)
    (hm : s.partnerAt c a = some m) : s.hWrite c a d = s.mbPartnerWrite m (a - Tbl.get 0 s.img.mbAddr m) d := by
  have hs : slice d (a - a) d.length = d := by simp [slice]
  unfold State.hWrite
  rw [State.meetsPartner_aligned h ha, hm, blockParts_aligned h ha]
  simp only [Option.isSome_some, if_true, List.foldl_cons, List.foldl_nil, hs]
  rw [State.hWritePart_eq, hm]

/-- A write that meets no partner block is placed as any other. -/
theorem State.hWrite_of_noPartner {s : State} {c a : Nat} {d : List Byte} (hp : s.meetsPartner (s.ctx c) a d.length = false)
    (ha : s.partnerAt c a = none) : s.hWrite c a d = s.placeBytes c (s.ctx c).world a d := by
  unfold State.hWrite
  rw [hp, State.hWritePart_eq, ha]
  rfl

theorem State.placeBytes_pantry {s : State} {c a : Nat} {w : World} {d : List Byte} (hd : d ≠ []) (ha : a + d.length ≤ windowBase) :
    s.placeBytes c w a d = (s.countWorld w 12 d.length).pnWrite a d := by
  have hl : 0 < d.length := List.length_pos_of_ne_nil hd
  have hk : Nat.min d.length (windowBase - a) = d.length := Nat.min_eq_left (by omega)
  unfold State.placeBytes State.writeBlock
  rw [hk]
  dsimp only
  rw [List.take_length, if_neg (show ¬d.length = 0 by omega), if_pos (show a < windowBase by omega), if_neg (Nat.lt_irrefl _)]

theorem State.placeBytes_window {s : State} {c a : Nat} {w : World} {d : List Byte} (hd : d ≠ []) (ha : windowBase ≤ a)
    (hp : a % pageBytes + d.length ≤ pageBytes) :
    s.placeBytes c w a d = s.modCtx c (fun x => { x with stores := x.stores ++ [⟨w, a, d, (s.ctx c).curLoc, false⟩] }) := by
  have hl : 0 < d.length := List.length_pos_of_ne_nil hd
  have hk : Nat.min d.length (windowBase - a) = 0 := by
    rw [Nat.sub_eq_zero_of_le ha]
    exact Nat.min_zero _
  have hle : d.length ≤ pageBytes - a % pageBytes := by omega
  unfold State.placeBytes State.bufStore
  rw [hk]
  simp [hl, hd, List.take_of_length_le hle, List.drop_of_length_le hle]

theorem whole_burst_le {a b n : Nat} (h : (decide (a ≤ 32 * b) && decide (32 * b + 32 ≤ a + n)) = true) : 32 ≤ n := by
  simp only [Bool.and_eq_true, decide_eq_true_eq] at h
  omega

/-- A write narrower than a burst leaves every poison mark and every error mark (R346). -/
theorem State.pnWrite_narrow {s : State} {a : Nat} {d : List Byte} (h : d.length < 32) :
    s.pnWrite a d = s.modPn (fun p => { p with mem := Memory.write 0 p.mem a d }) := by
  have hw : ∀ b, (!(decide (a ≤ 32 * b) && decide (32 * b + 32 ≤ a + d.length))) = true := by
    intro b
    rw [Bool.not_eq_true', Bool.eq_false_iff]
    exact fun hb => absurd (whole_burst_le hb) (by omega)
  unfold State.pnWrite
  simp only [hw, List.filter_true]

theorem leBytes_eq_extract (n : Nat) (v : W64) : leBytes n v.toNat = (List.range n).map (fun i => v.extractLsb' (8 * i) 8) := by
  refine List.ext_getElem (by simp) (fun i h1 h2 => ?_)
  simp [leBytes_getElem, extractLsb'_eq_ofNat]

theorem SameBytes.refl (s : State) : SameBytes s s := ⟨fun _ => rfl, fun _ => rfl, fun _ => rfl, fun _ => rfl⟩

/-- Settles O4: by the place of the address, Pantry, a host window page or a partner block. -/
theorem storesWrite : Obligations.StoresWrite := by
  unfold Obligations.StoresWrite
  intro row hrow s c f ea up h hea ⟨hal, hacc⟩
  have hsz := storeRows_size row hrow
  obtain ⟨k, e, hk⟩ := h.fetched_eq
  have hsame := h.sameRights.accessExc (State.fetched_ctx s c c) .write ea.toNat
  have hdo : ∀ P, P (s.instrEnd c (.retire { writes := up } ((s.withCorr k e).hWrite c ea.toNat (leBytes row.2 ((s.ctx c).g f.rd).toNat))))
      → Completes (row.1 c f) s P := by
    intro P hP
    refine ⟨_, storeRows_op row hrow c f s, ?_⟩
    rw [h.instr_eq h.allows_any, storeStep_of_ea hea, if_neg (not_not.mpr hal), hsame, hacc, hk]
    exact hP
  have hd : (leBytes row.2 ((s.ctx c).g f.rd).toNat) ≠ [] := by
    rw [← List.length_pos_iff, leBytes_length]
    exact hsz.pos
  have hmeet : ∀ {o}, s.partnerAt c ea.toNat = o →
      (s.withCorr k e).meetsPartner ((s.withCorr k e).ctx c) ea.toNat (leBytes row.2 ((s.ctx c).g f.rd).toNat).length = o.isSome := by
    intro o ho
    rw [leBytes_length]
    exact (State.meetsPartner_aligned (s := s) hsz hal).trans (congrArg Option.isSome ho)
  have hlen := leBytes_length row.2 ((s.ctx c).g f.rd).toNat
  refine ⟨fun hpn hno => hdo _ ?pantry, fun hwin hno => hdo _ ?window, fun m hsup hm => hdo _ ?partner⟩
  case pantry =>
    have hin : ea.toNat + row.2 ≤ windowBase := by
      unfold windowBase at hpn ⊢
      rcases hsz with h' | h' | h' | h' <;> rw [h'] at hal ⊢ <;> omega
    rw [State.hWrite_of_noPartner (hmeet hno.partnerAt) hno.partnerAt, State.placeBytes_pantry hd (hlen.symm ▸ hin),
      State.pnWrite_narrow (by rw [hlen]; unfold accessSize at hsz; omega)]
    generalize hu : (((s.withCorr k e).countWorld _ 12 _).modPn _) = u
    have hg : (s.ctx c).Changes (u.ctx c) := .of_eq (hu ▸ rfl)
    have hret := h.retiredFrom (u := u) (r := { writes := up }) rfl rfl hg
    obtain ⟨hw, hdl⟩ := hret.writes rfl hg
    have hmem : (s.instrEnd c (.retire { writes := up } u)).pantry.mem
        = Memory.write 0 s.pantry.mem ea.toNat (leBytes row.2 ((s.ctx c).g f.rd).toNat) := by rw [hret.pantry, ← hu]; rfl
    refine ⟨fun i hi => ?_, fun a ha => ?_, ?_, hw, hdl, ?_, (hret.withMem s.pantry.mem).beside ⟨fun d hd => ?_, ?_⟩⟩
    · rw [hmem, Memory.byte_write _ _ _ _ (by rwa [hlen])]
      simp [leBytes_eq_extract]
    · rw [hmem, Memory.byte_write_of_out _ _ _ _ (by rwa [hlen])]
    · rw [hret.hostMem, ← hu]
      rfl
    · have := hret.ctxFrame rfl
      rwa [show u.ctx c = s.ctx c from hu ▸ rfl] at this
    · exact hu ▸ rfl
    · rw [← hu]
      rfl
  case window =>
    have hpage : ea.toNat % pageBytes + row.2 ≤ pageBytes := by
      unfold pageBytes
      rcases hsz with h' | h' | h' | h' <;> rw [h'] at hal ⊢ <;> omega
    rw [State.hWrite_of_noPartner (hmeet hno.partnerAt) hno.partnerAt, State.placeBytes_window hd hwin (hlen.symm ▸ hpage)]
    have hg : (s.ctx c).Changes { s.ctx c with stores := (s.ctx c).stores ++ [⟨(s.ctx c).world, ea.toNat,
      leBytes row.2 ((s.ctx c).g f.rd).toNat, (s.ctx c).curLoc, false⟩] } := ⟨rfl, rfl, rfl, rfl, rfl⟩
    obtain ⟨hx, hw, hdl, hcf, hb, hsb⟩ := h.retire_mod (r := { writes := up }) rfl rfl rfl k e
      (g := fun x => { x with stores := x.stores ++ [⟨(s.ctx c).world, ea.toNat, leBytes row.2 ((s.ctx c).g f.rd).toNat, (s.ctx c).curLoc, false⟩] })
      rfl hg
    refine ⟨?_, hw, hdl, ?_, hb, hsb⟩
    · have hst := congrArg Ctx.stores hcf.1
      exact (hst :).trans (by rw [leBytes_eq_extract])
    · exact ⟨(congrArg (fun x : Ctx => { x with stores := (s.ctx c).stores }) hcf.1 :), hcf.2⟩
  case partner =>
    have hat : s.partnerAt c ea.toNat = some m := (if_pos hsup).trans hm
    have hwr : (s.withCorr k e).hWrite c ea.toNat (leBytes row.2 ((s.ctx c).g f.rd).toNat)
        = (s.mbPartnerWrite m (ea.toNat - Tbl.get 0 s.img.mbAddr m) (leBytes row.2 ((s.ctx c).g f.rd).toNat)).withCorr k e :=
      (State.hWrite_partner (s := s.withCorr k e) (hlen.symm ▸ hsz) (by rwa [hlen]) hat).trans (State.mbPartnerWrite_withCorr ..)
    have hfr := State.mailboxFrame_write s m (ea.toNat - Tbl.get 0 s.img.mbAddr m) (leBytes row.2 ((s.ctx c).g f.rd).toNat)
    have hnarrow : row.2 < 4 → s.mbPartnerWrite m (ea.toNat - Tbl.get 0 s.img.mbAddr m) (leBytes row.2 ((s.ctx c).g f.rd).toNat)
        = s.mbPartnerFault m (ea.toNat - Tbl.get 0 s.img.mbAddr m) row.2 := by
      intro hlt
      have hmis : mbMisaligned (ea.toNat - Tbl.get 0 s.img.mbAddr m) row.2 = true := by
        have := hsz.pos
        simp [mbMisaligned, show row.2 ≠ 4 by omega, show row.2 % 8 ≠ 0 by omega]
      unfold State.mbPartnerWrite
      rw [hlen, hmis, if_pos rfl]
    rw [hwr]
    generalize s.mbPartnerWrite m (ea.toNat - Tbl.get 0 s.img.mbAddr m) (leBytes row.2 ((s.ctx c).g f.rd).toNat) = v at hfr hnarrow
    have hctx : ∀ d, (v.withCorr k e).ctx d = s.ctx d := fun d => hfr.ctx d
    have hg : (s.ctx c).Changes ((v.withCorr k e).ctx c) := .of_eq (hctx c)
    have hret := h.retiredFrom (u := v.withCorr k e) (r := { writes := up }) rfl rfl hg
    obtain ⟨hw, hdl⟩ := hret.writes rfl hg
    refine ⟨fun n => ?_, fun hlt => ?_, hw, hdl, ?_, hret.sameBytes hfr.sameBytes⟩
    · exact congrArg (fun l => Tbl.get {} l n) (congrArg State.mbs hret.rest :)
    · exact hnarrow hlt ▸ hret.beside ⟨fun _ _ => rfl, rfl⟩
    · exact hctx c ▸ hret.ctxFrame rfl

end Sys2Proof.Machine

namespace Sys2Proof.Machine

/-! ### Reads within one block (R86, R119, R135, R354) -/

theorem State.deny_of_accessExc {s : State} {c a : Nat} {k : AccKind} (h : s.accessExc c k a = none) :
    s.deny (s.ctx c).world (s.ctx c).super1 k a = none := by
  unfold State.accessExc at h
  split at h
  · exact absurd h (by simp)
  dsimp only at h
  split at h
  · exact absurd h (by simp)
  · exact Option.map_eq_none_iff.mp h

/-- A read that one block of rights holds is one read of its block. -/
theorem State.readBytes_block {s : State} {w : World} {sup : Bool} {a n : Nat} (hn : 0 < n) (hb : n ≤ blockLeft a)
    (hd : s.deny w sup .read a = none) : s.readBytes w sup a n = match s.readBlock w a n with
      | (.ok d, t) => (d, .done, t)
      | (.ecc, t) => ([], .ecc, t)
      | (.busError, t) => ([], .busError, t) := by
  have hz : ∀ (t : State) (k b : Nat), t.readSpan w sup (k + 1) b 0 = ([], .done, t) := fun t k b => rfl
  have hmin : Nat.min n (blockLeft a) = n := Nat.min_eq_left hb
  unfold State.readBytes State.readSpan
  rw [if_neg (by omega), hd]
  dsimp only
  rw [hmin, Nat.sub_self]
  rcases s.readBlock w a n with ⟨_ | _ | _, t⟩
  · simp [hz]
  · rfl
  · rfl

theorem blockLeft_aligned {a n : Nat} (h : accessSize n) (ha : a % n = 0) : n ≤ blockLeft a := by
  unfold blockLeft
  rcases h with rfl | rfl | rfl | rfl <;> omega

theorem State.hRead_aligned {s : State} {c a n : Nat} (h : accessSize n) (ha : a % n = 0) : s.hRead c a n = s.hReadPart c a n := by
  unfold State.hRead
  rw [blockParts_aligned h ha]
  unfold State.hReadParts
  split
  · rcases s.hReadPart c a n with ⟨d, _ | e, t⟩
    · simp [State.hReadParts]
    · rfl
  · rfl

theorem State.hReadPart_eq (s : State) (c a n : Nat) : s.hReadPart c a n = match s.partnerAt c a with
    | some m => (s.mbPartnerRead m (a - Tbl.get 0 s.img.mbAddr m) n, none, s.mbPartnerFault m (a - Tbl.get 0 s.img.mbAddr m) n)
    | none =>
      let s1 := if windowBase < a + n then s.issueStores c else s
      let r := s1.readBytes (s.ctx c).world (s.ctx c).super1 a n
      (r.1, readExc (if r.2.1 = .ecc then s1.eccAt (a + r.1.length) (a + n - (a + r.1.length)) else a + r.1.length) r.2.1, r.2.2) := rfl

/-- The state with a context listed anew. -/
def State.relist (s : State) (c : Nat) : State := s.modCtx c (fun x => x)

theorem State.ctx_relist (s : State) (c d : Nat) : (s.relist c).ctx d = s.ctx d := by
  unfold State.relist
  rw [State.ctx_modCtx]
  split
  · next h => rw [h]
  · rfl

theorem State.SameRights.relist (s : State) (c : Nat) : s.SameRights (s.relist c) := ⟨rfl, rfl, rfl⟩

/-- With no store buffered, issuing the stores does nothing. -/
theorem State.issueStores_none {s : State} {c : Nat} (h : (s.ctx c).stores = []) : s.issueStores c = s.relist c := by
  have hx : ({ s.ctx c with stores := [] } : Ctx) = s.ctx c := by rw [← h]
  unfold State.issueStores
  rw [h]
  exact congrArg (s.setCtx c) hx

section
variable {s : State} {c a n : Nat} (hsz : accessSize n) (hal : a % n = 0)
include hsz hal

/-- An aligned read from Pantry that finds each burst good gives its bytes. -/
theorem State.hRead_pantry (hacc : s.accessExc c .read a = none) (hp : a < windowBase) (hno : s.partnerAt c a = none) (hg : GoodRead s a n) :
    ∃ k e, s.hRead c a n = (Memory.bytes 0 s.pantry.mem a n, none, (s.countWorld (s.ctx c).world 12 n).withCorr k e) := by
  have hin : a + n ≤ windowBase := by
    unfold windowBase at hp ⊢
    rcases hsz with rfl | rfl | rfl | rfl <;> omega
  have hok : ((s.countWorld (s.ctx c).world 12 n).pnCheck a n).1 = true := (State.pnCheck_good_iff _ a n).mpr hg
  obtain ⟨k, e, hk⟩ := State.pnCheck_good hok
  have hrb : s.readBlock (s.ctx c).world a n = (.ok (Memory.bytes 0 s.pantry.mem a n),
      (s.countWorld (s.ctx c).world 12 n).withCorr k e) := by
    unfold State.readBlock
    rw [if_pos hp]
    dsimp only
    rw [if_pos hok, hk]
    rfl
  refine ⟨k, e, ?_⟩
  rw [State.hRead_aligned hsz hal, State.hReadPart_eq, hno]
  dsimp only
  rw [if_neg (by omega), State.readBytes_block hsz.pos (blockLeft_aligned hsz hal) (State.deny_of_accessExc hacc), hrb]
  rfl

theorem State.hRead_window (hw : windowBase ≤ a) (hno : s.partnerAt c a = none) (hst : (s.ctx c).stores = [])
    (hacc : (s.relist c).accessExc c .read a = none) : s.hRead c a n = match (s.relist c).readBlock (s.ctx c).world a n with
      | (.ok d, t) => (d, none, t)
      | (.ecc, t) => ([], some { code := 7, addr := (s.relist c).eccAt a n }, t)
      | (.busError, t) => ([], some { code := 8, addr := a }, t) := by
  have hd := State.deny_of_accessExc hacc
  rw [State.ctx_relist] at hd
  have hn := hsz.pos
  rw [State.hRead_aligned hsz hal, State.hReadPart_eq, hno]
  dsimp only
  rw [if_pos (by omega), State.issueStores_none hst, State.readBytes_block hsz.pos (blockLeft_aligned hsz hal) hd]
  rcases (s.relist c).readBlock (s.ctx c).world a n with ⟨_ | _ | _, t⟩
  · rfl
  · simp [readExc]
  · rfl

end

theorem State.length_mbPartnerRead (s : State) (m off n : Nat) : (s.mbPartnerRead m off n).length ≤ n := by
  unfold State.mbPartnerRead
  split
  · exact (List.length_replicate ..).le
  · exact List.length_take_le ..

/-! ### The result of a load (R135) -/

theorem loaded_eq {n : Nat} {sx : Bool} {l : List Byte} (hn : accessSize n) (hl : l.length ≤ n) :
    (if sx then BitVec.ofInt 64 (signed (8 * n) (leNat l)) else BitVec.ofNat 64 (leNat l)) = loaded n sx l := by
  unfold loaded
  cases sx with
  | true =>
    obtain ⟨k, hk⟩ := Nat.exists_eq_succ_of_ne_zero (show 8 * n ≠ 0 by have := hn.pos; omega)
    simp only [if_true]
    rw [hk, Nat.succ_eq_add_one, signed_eq_toInt]
    rfl
  | false =>
    have hlt : leNat l < 2 ^ (8 * n) := (leNat_lt l).trans_le (Nat.pow_le_pow_right (by norm_num) (Nat.mul_le_mul_left 8 hl))
    refine BitVec.eq_of_toNat_eq ?_
    simp [Nat.mod_eq_of_lt hlt]

/-- What a load of the model comes to once its bytes are read. -/
theorem Issues.completes_load {s : State} {c : Nat} (h : Issues s c) (hr : (s.ctx c).rep = false) {row : (Nat → FmtM → Instr) × Nat × Bool}
    (hrow : row ∈ loadRows) {f : FmtM} {ea : W64} {up : List (Reg × W64)} (hea : EaOf f (s.ctx c) row.2.1 true ea up)
    (hacc : MayAccess s c .read ea row.2.1) {k : Tbl Nat} {e : Tbl (List Nat)}
    (hk : s.fetched c = s.withCorr k e) {l : List Byte} {u v : State} (hl : l.length ≤ row.2.1)
    (hread : (s.withCorr k e).hRead c ea.toNat row.2.1 = (l, none, u)) (hu : ∀ d, u.ctx d = s.ctx d) (hb : Beside v u c) (hm : SameBytes s u) :
    Completes (row.1 c f) s (fun t => WritesLate s t c up f.rd (loaded row.2.1 row.2.2 l)
      ∧ CtxFrame (s.ctx c) (t.ctx c) ∧ Beside v t c ∧ SameBytes s t) := by
  obtain ⟨hal, hacc⟩ := hacc
  have hg : (s.ctx c).Changes (u.ctx c) := .of_eq (hu c)
  have hret := h.retiredFrom (u := u) (r := { writes := up, late := [(f.rd, loaded row.2.1 row.2.2 l)] }) rfl rfl hg
  refine ⟨_, loadRows_op row hrow c f s, ?_⟩
  rw [h.instr_eq (h.allows_norep hr), loadStep_of_ea hea, if_neg (not_not.mpr hal), h.sameRights.accessExc (State.fetched_ctx s c c), hacc,
    hk, hread]
  dsimp only
  rw [loaded_eq (loadRows_size row hrow) hl]
  exact ⟨hret.writes rfl hg, hu c ▸ hret.ctxFrame rfl, hret.beside hb, hret.sameBytes hm⟩

theorem loadsComplete : LoadsComplete := by
  unfold LoadsComplete
  intro row hrow s c f ea up h hr hea hmay
  have hsz := loadRows_size row hrow
  have hal := hmay.1
  obtain ⟨k, e, hk⟩ := h.fetched_eq
  have hacc : (s.withCorr k e).accessExc c .read ea.toNat = none :=
    ((State.SameRights.withCorr s k e).accessExc (State.withCorr_ctx s k e c) .read ea.toNat).trans hmay.2
  refine ⟨fun hp hno hgood => ?pantry, fun hw hno hdma hlink hst => ?window, fun m hsup hm => ?partner⟩
  case pantry =>
    obtain ⟨k', e', hread⟩ := State.hRead_pantry (s := s.withCorr k e) hsz hal hacc hp hno.partnerAt (hk ▸ State.goodRead_fetched.mpr hgood)
    exact h.completes_load hr hrow hea hmay hk (Memory.length_bytes ..).le hread (fun d => rfl) ⟨fun d hd => rfl, rfl⟩ (.refl s)
  case window =>
    have hread := State.hRead_window (s := s.withCorr k e) hsz hal hw hno.partnerAt hst ((State.SameRights.relist ..).accessExc (State.ctx_relist ..) .read ea.toNat |>.trans hacc)
    have hrb : ((s.withCorr k e).relist c).readBlock (s.ctx c).world ea.toNat row.2.1 = (.ok (hostBytesOf s.hostMem (s.busAddr ea.toNat) row.2.1),
        ((s.withCorr k e).relist c).countWorld (s.ctx c).world 10 row.2.1) := by
      have hsend : (((s.withCorr k e).relist c).dmaOk (s.ctx c).world && !((s.withCorr k e).relist c).linkBad) = true := by
        change (s.dmaOk (s.ctx c).world && !s.linkBad) = true
        rw [hdma, hlink]
        rfl
      unfold State.readBlock
      rw [if_neg (Nat.not_lt.mpr hw), if_pos hsend]
      rfl
    have hctx : ∀ d, (((s.withCorr k e).relist c).countWorld (s.ctx c).world 10 row.2.1).ctx d = s.ctx d :=
      fun d => State.ctx_relist (s.withCorr k e) c d
    have hb : { ((s.withCorr k e).relist c).countWorld (s.ctx c).world 10 row.2.1 with
        ctxs := s.ctxs, stats := s.stats, pantry := { s.pantry with corr := s.pantry.corr, errs := s.pantry.errs } } = s := by
      unfold State.relist State.modCtx State.setCtx State.countWorld State.countBank
      rfl
    rw [State.withCorr_ctx, hrb] at hread
    exact h.completes_load hr hrow hea hmay hk (by simp [hostBytesOf]) hread hctx ⟨fun d hd => hctx d, hb⟩ (.refl s)
  case partner =>
    have hat : (s.withCorr k e).partnerAt c ea.toNat = some m := (if_pos hsup).trans hm
    have hfr := State.mailboxFrame_fault s m (ea.toNat - Tbl.get 0 s.img.mbAddr m) row.2.1
    have hread : (s.withCorr k e).hRead c ea.toNat row.2.1 = (s.mbPartnerRead m (ea.toNat - Tbl.get 0 s.img.mbAddr m) row.2.1, none,
        (s.mbPartnerFault m (ea.toNat - Tbl.get 0 s.img.mbAddr m) row.2.1).withCorr k e) := by
      rw [State.hRead_aligned hsz hal, State.hReadPart_eq, hat, ← State.mbPartnerFault_withCorr]
      rfl
    exact h.completes_load hr hrow hea hmay hk (State.length_mbPartnerRead ..) hread hfr.ctx ⟨fun _ _ => rfl, rfl⟩ hfr.sameBytes

/-! ### A load whose read fails on the link (R119, R354) -/

/-- The state whose reads on the link fail. -/
def State.failing (s : State) : State := { s with linkBad := true }

theorem State.fetchExc_failing (s : State) (c a : Nat) : (s.failing.fetchExc c a).1 = (s.fetchExc c a).1 := by
  have hacc : s.failing.accessExc c .fetch a = s.accessExc c .fetch a :=
    State.SameRights.accessExc (s := s) (t := s.failing) ⟨rfl, rfl, rfl⟩ rfl .fetch a
  have hgood : (s.failing.pnCheck a 4).1 = (s.pnCheck a 4).1 :=
    Bool.eq_iff_iff.mpr ((State.pnCheck_good_iff s.failing a 4).trans (State.pnCheck_good_iff s a 4).symm)
  unfold State.fetchExc
  rw [hacc]
  split
  · rfl
  · dsimp only
    rw [hgood]
    split <;> rfl

theorem IssuesPlain.failing {s : State} {c : Nat} (h : IssuesPlain s c) : IssuesPlain s.failing c := by
  obtain ⟨⟨hrun, hact, hiss, hasync, hdue, hslot, hfetch, hle⟩, hplain⟩ := h
  exact ⟨⟨hrun, hact, hiss, hasync, hdue, hslot, (State.fetchExc_failing ..).trans hfetch, hle⟩, hplain⟩

theorem Tbl.ins_ins {α : Type} (t : Tbl α) (k : Nat) (v v' : α) : Tbl.ins (Tbl.ins t k v) k v' = Tbl.ins t k v' := by
  induction t with
  | nil => simp [Tbl.ins]
  | cons p t ih =>
    rcases Nat.lt_trichotomy k p.1 with h | h | h
    · simp [Tbl.ins, h]
    · simp [Tbl.ins, h]
    · simp [Tbl.ins, Nat.not_lt.mpr h.le, h.ne', ih]

theorem State.onLink_busError {s t : State} {k : State → Result} (h : k s.failing = .next t) :
    s.onLink .busError k = .next { t with linkBad := s.linkBad } := by
  unfold State.failing at h
  unfold State.onLink
  dsimp only
  rw [h]

/-- A context that is not in its first state is listed once more without effect before it is changed. -/
theorem State.modCtx_relist {s : State} {c : Nat} {f : Ctx → Ctx} (hx : s.ctx c ≠ {}) (hf : f (s.ctx c) ≠ {}) :
    (s.relist c).modCtx c f = s.modCtx c f := by
  have hc : (s.relist c).ctxs = Tbl.ins s.ctxs c (s.ctx c) := if_neg hx
  unfold State.modCtx State.setCtx
  rw [State.ctx_relist, hc, Tbl.put, Tbl.put, if_neg hf, if_neg hf, Tbl.ins_ins]
  rfl

theorem State.takeExc_congr {s t : State} {c : Nat} (h : s.modCtx c Ctx.flush = t.modCtx c Ctx.flush) (hc : s.ctx c = t.ctx c) (e : Exc)
    (pc : W64) (ds : Bool) : s.takeExc c e pc ds = t.takeExc c e pc ds := by
  unfold State.takeExc
  rw [h, hc]

theorem linkLoads_op : ∀ row ∈ linkLoads, accessSize row.2 ∧ ∀ c f, ∃ sx, ∀ s : State,
    exec (row.1 c f .busError) s = s.onLink .busError (fun u => .next (u.instr c norepPlace (loadStep f c row.2 sx))) := by
  simp only [linkLoads, List.forall_mem_cons]
  exact ⟨⟨.inl rfl, fun _ _ => ⟨_, fun _ => rfl⟩⟩, ⟨.inr (.inl rfl), fun _ _ => ⟨_, fun _ => rfl⟩⟩,
    ⟨.inr (.inr (.inl rfl)), fun _ _ => ⟨_, fun _ => rfl⟩⟩, ⟨.inr (.inr (.inr rfl)), fun _ _ => ⟨_, fun _ => rfl⟩⟩,
    ⟨.inl rfl, fun _ _ => ⟨_, fun _ => rfl⟩⟩, ⟨.inr (.inl rfl), fun _ _ => ⟨_, fun _ => rfl⟩⟩,
    ⟨.inr (.inr (.inl rfl)), fun _ _ => ⟨_, fun _ => rfl⟩⟩, nofun⟩

theorem hostLoadErrors : HostLoadErrors := by
  unfold HostLoadErrors
  intro row hrow s c f ea up h hea hmay hw hno hst
  obtain ⟨hsz, hop⟩ := linkLoads_op row hrow
  obtain ⟨sx, hop⟩ := hop c f
  have h' := h.failing
  have hea' : EaOf f (s.failing.ctx c) row.2 true ea up := hea
  have hsr := h'.1.sameRights
  have hacc : (s.failing.fetched c).accessExc c .read ea.toNat = none :=
    (hsr.accessExc (State.fetched_ctx ..) .read ea.toNat).trans
      ((State.SameRights.accessExc (s := s) (t := s.failing) ⟨rfl, rfl, rfl⟩ rfl .read ea.toNat).trans hmay.2)
  obtain ⟨k, e, hk⟩ := h'.1.fetched_eq
  have hno' : (s.failing.fetched c).partnerAt c ea.toNat = none := by
    rw [hk]
    exact hno.partnerAt
  have hread : (s.failing.fetched c).hRead c ea.toNat row.2 = ([], some { code := 8, addr := ea.toNat }, (s.failing.fetched c).relist c) := by
    rw [State.hRead_window hsz hmay.1 hw hno' (by rw [State.fetched_ctx]; exact hst)
      ((State.SameRights.relist ..).accessExc (State.ctx_relist ..) .read ea.toNat |>.trans hacc)]
    unfold State.readBlock
    rw [if_neg (Nat.not_lt.mpr hw), if_neg (by rw [hk]; simp [State.relist, State.modCtx, State.setCtx, State.withCorr, State.modPn, State.failing])]
  have hinstr := h'.instr_exc_on (p := norepPlace) (f := loadStep f c row.2 sx) (e := { code := 8, addr := ea.toNat })
    (t := (s.failing.fetched c).relist c) (by rw [loadStep_of_ea hea', if_neg (not_not.mpr hmay.1), hacc, hread])
  have hrun : ∀ x : Ctx, x.state = .running → x ≠ {} := fun x hx he => by simp [he] at hx
  have htake : ((s.failing.fetched c).relist c).takeExc c { code := 8, addr := ea.toNat } (s.ctx c).pc false
      = (s.failing.fetched c).takeExc c { code := 8, addr := ea.toNat } (s.ctx c).pc false := by
    refine State.takeExc_congr (State.modCtx_relist ?_ ?_) (State.ctx_relist ..) _ _ _
    · rw [State.fetched_ctx]
      exact hrun _ h'.1.1
    · rw [State.fetched_ctx]
      exact hrun _ ((congrArg Ctx.state (Ctx.setAll_eq (s.failing.ctx c) _)).trans h'.1.1)
  rw [hop, State.onLink_busError (s := s) (k := fun u => .next (u.instr c norepPlace (loadStep f c row.2 sx))) (congrArg Host.Outcome.next hinstr), State.raise]
  change Host.Outcome.next { ((s.failing.fetched c).relist c).takeExc c { code := 8, addr := ea.toNat } (s.ctx c).pc false with linkBad := s.linkBad } = _
  have hf : s.failing.fetched c = (s.failing.fetchExc c (s.ctx c).pc.toNat).2 := h'.fetched_def
  rw [htake, hf]
  rfl

/-- Settles O3: by the place of the address, as for the stores, and with the mark of a read that fails. -/
theorem loadsDeliver : Obligations.LoadsDeliver := ⟨loadsComplete, hostLoadErrors⟩

end Sys2Proof.Machine

namespace Sys2Proof.Machine

/-! ### Reads of a range of Pantry (R86, R133, R345, R502) -/

theorem mem_burstsOf_iff {a n b : Nat} (hn : 0 < n) : b ∈ burstsOf a n ↔ a < 32 * b + 32 ∧ 32 * b < a + n := by
  refine ⟨fun h => ?_, fun ⟨h1, h2⟩ => mem_burstsOf hn h1 h2⟩
  rw [burstsOf, if_neg hn.ne'] at h
  obtain ⟨i, hi, rfl⟩ := List.mem_map.mp h
  rw [List.mem_range] at hi
  omega

/-- A part of a good range is good. -/
theorem GoodRead.part {s : State} {a n b k : Nat} (h : GoodRead s a n) (hlo : a ≤ b) (hhi : b + k ≤ a + n) : GoodRead s b k := by
  intro d hd
  rcases Nat.eq_zero_or_pos k with rfl | hk
  · simp [burstsOf] at hd
  · obtain ⟨h1, h2⟩ := (mem_burstsOf_iff hk).mp hd
    exact h d (mem_burstsOf (by omega) (by omega) (by omega))

theorem Memory.bytes_append (m : Memory) (a j k : Nat) : Memory.bytes 0 m a j ++ Memory.bytes 0 m (a + j) k = Memory.bytes 0 m a (j + k) := by
  simp [Memory.bytes, List.range_add, Nat.add_assoc]

/-- The state with other statistics. -/
def State.withStats (s : State) (st : Two EpochEngine) : State := { s with stats := st }

/-- What good reads of Pantry leave: counts and corrections, with every burst as good or bad as it was. -/
structure State.ReadFrom (s u : State) : Prop where
  rest : ∃ st k e, u = (s.withStats st).withCorr k e
  bad : ∀ d, u.pnBad d = s.pnBad d

namespace State.ReadFrom
variable {s t u : State}

theorem refl (s : State) : s.ReadFrom s := ⟨⟨s.stats, s.pantry.corr, s.pantry.errs, rfl⟩, fun _ => rfl⟩

theorem trans (h : s.ReadFrom t) (h' : t.ReadFrom u) : s.ReadFrom u := by
  obtain ⟨⟨st, k, e, rfl⟩, hb⟩ := h
  obtain ⟨⟨st', k', e', rfl⟩, hb'⟩ := h'
  exact ⟨⟨st', k', e', rfl⟩, fun d => (hb' d).trans (hb d)⟩

theorem ctx (h : s.ReadFrom u) (d : Nat) : u.ctx d = s.ctx d := by
  obtain ⟨⟨st, k, e, rfl⟩, _⟩ := h
  rfl

theorem sameRights (h : s.ReadFrom u) : s.SameRights u := by
  obtain ⟨⟨st, k, e, rfl⟩, _⟩ := h
  exact ⟨rfl, rfl, rfl⟩

theorem mem (h : s.ReadFrom u) : u.pantry.mem = s.pantry.mem := by
  obtain ⟨⟨st, k, e, rfl⟩, _⟩ := h
  rfl

theorem beside (h : s.ReadFrom u) (c : Nat) : Beside s u c := by
  obtain ⟨⟨st, k, e, rfl⟩, _⟩ := h
  exact ⟨fun _ _ => rfl, rfl⟩

theorem sameBytes (h : s.ReadFrom u) : SameBytes s u := by
  obtain ⟨⟨st, k, e, rfl⟩, _⟩ := h
  exact ⟨fun _ => rfl, fun _ => rfl, fun _ => rfl, fun _ => rfl⟩

theorem goodRead (h : s.ReadFrom u) {a n : Nat} : GoodRead u a n ↔ GoodRead s a n := by
  simp only [GoodRead, h.bad]

end State.ReadFrom

theorem Issues.readFrom {s : State} {c : Nat} (h : Issues s c) : s.ReadFrom (s.fetched c) := by
  obtain ⟨k, e, hk⟩ := h.fetched_eq
  exact ⟨⟨s.stats, k, e, hk⟩, State.fetched_pnBad s c⟩

theorem State.readBlock_good {s : State} {w : World} {a n : Nat} (ha : a < windowBase) (hg : GoodRead s a n) :
    ∃ u, s.readBlock w a n = (.ok (Memory.bytes 0 s.pantry.mem a n), u) ∧ s.ReadFrom u := by
  have hok : ((s.countWorld w 12 n).pnCheck a n).1 = true := (State.pnCheck_good_iff _ a n).mpr hg
  obtain ⟨k, e, hk⟩ := State.pnCheck_good hok
  refine ⟨((s.countWorld w 12 n).pnCheck a n).2, ?_, ⟨_, k, e, hk⟩, State.pnCheck_pnBad (s.countWorld w 12 n) a n⟩
  unfold State.readBlock
  rw [if_pos ha]
  dsimp only
  rw [if_pos hok, hk]
  rfl

theorem State.readSpan_good {w : World} {sup : Bool} (fuel : Nat) {s : State} {a n : Nat} (hin : a + n ≤ windowBase)
    (hd : ∀ i, i < n → s.deny w sup .read (a + i) = none) (hg : GoodRead s a n) (hf : n = 0 ∨ a % 65536 + n ≤ fuel * 65536) :
    ∃ u, s.readSpan w sup fuel a n = (Memory.bytes 0 s.pantry.mem a n, .done, u) ∧ s.ReadFrom u := by
  induction fuel generalizing s a n with
  | zero =>
    obtain rfl : n = 0 := by omega
    exact ⟨s, rfl, .refl s⟩
  | succ fuel ih =>
    unfold State.readSpan
    by_cases hn : n = 0
    · subst hn
      exact ⟨s, rfl, .refl s⟩
    rw [if_neg hn, show s.deny w sup _ a = none from hd 0 (by omega)]
    dsimp only
    generalize hb : Nat.min n (blockLeft a) = b
    have hbn : b ≤ n := hb ▸ Nat.min_le_left ..
    have hleft : b = n ∨ a % 65536 + b = 65536 := by
      have : b = n ∨ b = blockLeft a := hb ▸ (Nat.le_total n (blockLeft a)).imp Nat.min_eq_left Nat.min_eq_right
      unfold blockLeft at this
      omega
    obtain ⟨t, ht, hst⟩ := State.readBlock_good (w := w) (show a < windowBase by omega) (hg.part (b := a) (k := b) (by omega) (by omega))
    obtain ⟨u, hu, htu⟩ := ih (s := t) (a := a + b) (n := n - b) (by omega)
      (fun i hi => by rw [hst.sameRights.deny, Nat.add_assoc]; exact hd _ (by omega))
      (hst.goodRead.mpr (hg.part (by omega) (by omega))) (by omega)
    refine ⟨u, ?_, hst.trans htu⟩
    rw [ht]
    dsimp only
    rw [hu, hst.mem, Memory.bytes_append, Nat.add_sub_cancel' hbn]

theorem blockParts_mem {a n : Nat} {p : Nat × Nat} (h : p ∈ blockParts a n) : a ≤ p.1 ∧ p.1 < a + n := by
  unfold blockParts at h
  split at h
  · exact absurd h (by simp)
  · next hn =>
    obtain ⟨i, hi, rfl⟩ := List.mem_map.mp h
    rw [List.mem_range] at hi
    exact ⟨Nat.le_max_left .., Nat.max_lt.mpr ⟨by omega, by omega⟩⟩

theorem State.meetsPartner_none {s : State} {c a n : Nat} (h : ∀ i, i < n → NoPartner s c (a + i)) :
    s.meetsPartner (s.ctx c) a n = false := by
  unfold State.meetsPartner
  cases hs : (s.ctx c).super1 with
  | false => rfl
  | true =>
    rw [Bool.true_and, List.any_eq_false]
    intro p hp
    obtain ⟨h1, h2⟩ := blockParts_mem hp
    have := h (p.1 - a) (by omega) hs
    rw [show a + (p.1 - a) = p.1 by omega] at this
    simp [this]

theorem PantryRange.congr {s t : State} {c : Nat} {k : AccKind} {a n : Nat} (h : PantryRange s c k a n) (hr : s.SameRights t)
    (hw : (t.ctx c).world = (s.ctx c).world) (hs : (t.ctx c).super1 = (s.ctx c).super1) : PantryRange t c k a n := by
  refine ⟨h.1, fun i hi => ?_⟩
  obtain ⟨hd, hp⟩ := h.2 i hi
  refine ⟨by rw [hr.deny, hw, hs]; exact hd, fun hsup => ?_⟩
  have hmb : t.mbBlockAt (s.ctx c).world (a + i) = s.mbBlockAt (s.ctx c).world (a + i) := by
    have hwm : ∀ m, t.mbWorld m = s.mbWorld m := fun m => by unfold State.mbWorld; rw [hr.img]
    have hpm : ∀ m, t.mbPartner m = s.mbPartner m := fun m => by unfold State.mbPartner State.flashMb; simp only [hwm, hr.wcfg]
    unfold State.mbBlockAt
    simp only [hwm, hpm, hr.img]
  rw [hw, hmb]
  exact hp (hs ▸ hsup)

theorem PantryRange.part {s : State} {c : Nat} {k : AccKind} {a n b m : Nat} (h : PantryRange s c k a n) (hlo : a ≤ b)
    (hhi : b + m ≤ a + n) : PantryRange s c k b m := by
  refine ⟨hhi.trans h.1, fun i hi => ?_⟩
  have := h.2 (b + i - a) (by omega)
  rwa [show a + (b + i - a) = b + i by omega] at this

/-- A read of a range of Pantry that rights allow, with each burst good, gives its bytes. -/
theorem State.hRead_range {s : State} {c a n : Nat} (h : PantryRange s c .read a n) (hn : 0 < n) (hg : GoodRead s a n) :
    ∃ u, s.hRead c a n = (Memory.bytes 0 s.pantry.mem a n, none, u) ∧ s.ReadFrom u := by
  obtain ⟨hin, hr⟩ := h
  obtain ⟨u, hu, hsu⟩ := State.readSpan_good (n / 65536 + 2) hin (fun i hi => (hr i hi).1) hg (.inr (by omega))
  have hat : s.partnerAt c a = none := (hr 0 hn).2.partnerAt
  have hrb : s.readBytes (s.ctx c).world (s.ctx c).super1 a n = (Memory.bytes 0 s.pantry.mem a n, .done, u) := hu
  refine ⟨u, ?_, hsu⟩
  unfold State.hRead
  rw [State.meetsPartner_none (fun i hi => (hr i hi).2), if_neg Bool.false_ne_true, State.hReadPart_eq, hat]
  dsimp only
  rw [if_neg (by omega), hrb]
  rfl

theorem State.allowed_all {s : State} {w : World} {sup : Bool} {k : AccKind} (fuel : Nat) {a n : Nat}
    (hd : ∀ i, i < n → s.deny w sup k (a + i) = none) (hf : n = 0 ∨ a % 65536 + n ≤ fuel * 65536) : s.allowed w sup k fuel a n = (n, none) := by
  induction fuel generalizing a n with
  | zero =>
    obtain rfl : n = 0 := by omega
    rfl
  | succ fuel ih =>
    unfold State.allowed
    by_cases hn : n = 0
    · rw [if_pos hn, hn]
    rw [if_neg hn, show s.deny w sup _ a = none from hd 0 (by omega)]
    dsimp only
    generalize hb : Nat.min n (blockLeft a) = b
    have hbn : b ≤ n := hb ▸ Nat.min_le_left ..
    have hleft : b = n ∨ a % 65536 + b = 65536 := by
      have : b = n ∨ b = blockLeft a := hb ▸ (Nat.le_total n (blockLeft a)).imp Nat.min_eq_left Nat.min_eq_right
      unfold blockLeft at this
      omega
    rw [ih (fun i hi => by rw [Nat.add_assoc]; exact hd _ (by omega)) (by omega)]
    simp [Nat.add_sub_cancel' hbn]

theorem State.rangeExc_none {s : State} {c : Nat} {k : AccKind} {a n : Nat} (h : PantryRange s c k a n) : s.rangeExc c k a n = none := by
  obtain ⟨hin, hr⟩ := h
  have hm : Nat.min n ((if s.isResident c then windowBase else 2 ^ 38) - a) = n := by
    refine Nat.min_eq_left ?_
    unfold windowBase at hin ⊢
    split <;> omega
  unfold State.rangeExc
  dsimp only
  rw [hm, State.allowed_all (n / 65536 + 2) (fun i hi => (hr i hi).1) (.inr (by omega))]
  exact if_pos (Nat.le_refl n)

/-! ### Writes of a range of Pantry (R136, R346) -/

/-- A write makes no burst bad. -/
theorem State.pnBad_pnWrite {s : State} {a d : Nat} {l : List Byte} (h : s.pnBad d = false) : (s.pnWrite a l).pnBad d = false := by
  generalize hw : (fun b => decide (a ≤ 32 * b) && decide (32 * b + 32 ≤ a + l.length)) = whole
  have hp : (s.pnWrite a l).pantry.poison = s.pantry.poison.filter (fun b => !whole b) := by rw [← hw]; rfl
  have he : (s.pnWrite a l).pantry.errs = s.pantry.errs.filter (fun e => !whole e.1) := by rw [← hw]; rfl
  have hi : (s.pnWrite a l).img = s.img := rfl
  have hget : ∀ (t : Tbl (List Nat)) , Tbl.get [] (t.filter (fun e => !whole e.1)) d = if whole d then [] else Tbl.get [] t d := by
    intro t
    induction t with
    | nil => simp
    | cons p t ih =>
      by_cases hpd : d = p.1
      · subst hpd
        cases hwd : whole p.1 <;> simp [hwd, Tbl.get_cons, ih]
      · cases hwp : whole p.1 <;> simp [hwp, Tbl.get_cons, hpd, ih]
  unfold State.pnBad State.pnJudge at h ⊢
  rw [hi, hp, he, hget]
  cases hwd : whole d with
  | true => simp [hwd, eccJudge]
  | false => simpa [hwd] using h

theorem State.hWrite_range {s : State} {c a : Nat} {d : List Byte} (h : PantryRange s c .write a d.length) (hd : d ≠ []) :
    s.hWrite c a d = (s.countWorld (s.ctx c).world 12 d.length).pnWrite a d := by
  obtain ⟨hin, hr⟩ := h
  have hat : s.partnerAt c a = none := (hr 0 (List.length_pos_of_ne_nil hd)).2.partnerAt
  rw [State.hWrite_of_noPartner (State.meetsPartner_none (fun i hi => (hr i hi).2)) hat, State.placeBytes_pantry hd hin]

end Sys2Proof.Machine

namespace Sys2Proof.Machine

/-! ### LEA and FENCE (R135, R136) -/

theorem lea_completes {s : State} {c : Nat} {f : FmtM} {ea : W64} {up : List (Reg × W64)} (h : Issues s c) (hm : f.mode = 0 ∨ f.mode = 3)
    (hea : EaOf f (s.ctx c) 1 false ea up) : Completes (.lea c f) s (fun t => WritesReg s t c f.rd ea ∧ RegFrame s t c) := by
  refine completes_instr (c := c) (f := fun t x => if f.mode.toNat = 1 ∨ f.mode.toNat = 2 then .exc excIllegal t
    else match memEa f x 1 false with
    | none => .exc excIllegal t
    | some (ea, _) => retireW t f.rd ea) rfl h ?_
  have hmode : ¬(f.mode.toNat = 1 ∨ f.mode.toNat = 2) := by rcases hm with hm | hm <;> simp [hm]
  intro t
  simp only [if_neg hmode, hea.memEa]

/-- The state with other host memory and other statistics. -/
def State.hosted (s : State) (st : Two EpochEngine) (m : Memory) : State := { s with stats := st, hostMem := m }

/-- Stores to valid pages go out to host memory in order. -/
theorem State.foldl_issueOne (c : Nat) (l : List BufStore) {s : State} (h : ∀ b ∈ l, s.pageValid ((b.addr - windowBase) / pageBytes) = true) :
    ∃ st, l.foldl (fun t b => t.issueOne c b) s
      = s.hosted st (l.foldl (fun m b => hostWriteOf m (s.busAddr b.addr) b.data) s.hostMem) := by
  induction l generalizing s with
  | nil => exact ⟨s.stats, rfl⟩
  | cons b l ih =>
    obtain ⟨hb, hl⟩ := List.forall_mem_cons.mp h
    have h1 : s.issueOne c b = s.hosted (s.countWorld b.world 11 b.data.length).stats (hostWriteOf s.hostMem (s.busAddr b.addr) b.data) :=
      if_pos hb
    obtain ⟨st, hst⟩ := ih (s := s.issueOne c b) (by rw [h1]; exact hl)
    refine ⟨st, ?_⟩
    rw [List.foldl_cons, hst, h1]
    rfl

theorem State.RetiredFrom.withHost {u t : State} {c : Nat} {r : Ret} (h : u.RetiredFrom c r t) (m : Memory) :
    ({ u with hostMem := m } : State).RetiredFrom c r { t with hostMem := m } :=
  ⟨h.own, h.other, (congrArg (fun v : State => { v with hostMem := m }) h.rest :)⟩

theorem fence_completes {s : State} {c : Nat} (h : Issues s c)
    (hv : ∀ b ∈ (s.ctx c).stores, s.pageValid ((b.addr - windowBase) / pageBytes) = true) :
    Completes (.fence c ⟨0, 0, 0⟩) s (fun t => (t.ctx c).stores = [] ∧ WritesAll s t c []
      ∧ t.hostMem = (s.ctx c).stores.foldl (fun m b => hostWriteOf m (s.busAddr b.addr) b.data) s.hostMem
      ∧ CtxFrame { s.ctx c with stores := [] } (t.ctx c) ∧ Beside s { t with hostMem := s.hostMem } c) := by
  obtain ⟨k, e, hk⟩ := h.fetched_eq
  generalize hu0 : (s.withCorr k e).modCtx c (fun x => { x with stores := [] }) = u0
  obtain ⟨st, hst⟩ := State.foldl_issueOne c (s.ctx c).stores (s := u0) (by rw [← hu0]; exact hv)
  have hu : (s.withCorr k e).issueStores c
      = u0.hosted st ((s.ctx c).stores.foldl (fun m b => hostWriteOf m (s.busAddr b.addr) b.data) s.hostMem) := by
    unfold State.issueStores
    rw [hu0]
    exact hst.trans (by rw [← hu0]; rfl)
  generalize hM : (s.ctx c).stores.foldl (fun m b => hostWriteOf m (s.busAddr b.addr) b.data) s.hostMem = M at hu
  have hctx : ∀ d, (u0.hosted st M).ctx d = u0.ctx d := fun _ => rfl
  have hx : (u0.hosted st M).ctx c = { s.ctx c with stores := [] } := by
    rw [hctx, ← hu0, State.ctx_modCtx_self]
    rfl
  have hg : (s.ctx c).Changes ((u0.hosted st M).ctx c) := hx ▸ ⟨rfl, rfl, rfl, rfl, rfl⟩
  have hret := h.retiredFrom (u := u0.hosted st M) (r := {}) rfl rfl hg
  have hasync : (u0.hosted st M).asyncAt c = (none, u0.hosted st M) := by
    unfold State.asyncAt
    rw [show ((u0.hosted st M).ctx c).asyncErr = none from hg.asyncErr.trans h.2.2.2.1]
  have hcf := hx ▸ hret.ctxFrame rfl
  have hother : ∀ d, d ≠ c → (u0.hosted st M).ctx d = s.ctx d := fun d hd => by
    rw [hctx, ← hu0]
    exact State.ctx_modCtx_ne _ _ hd
  have hrest : Beside s ({ u0.hosted st M with hostMem := s.hostMem } : State) c := by
    refine ⟨hother, ?_⟩
    rw [← hu0]
    unfold State.modCtx State.setCtx State.hosted
    rfl
  refine ⟨s.instrEnd c (.retire {} (u0.hosted st M)), ?_, ?_, (hret.writes rfl hg).1, hret.hostMem, hcf,
    (hret.withHost s.hostMem).beside hrest⟩
  · refine congrArg Host.Outcome.next ?_
    rw [h.instr_eq h.allows_any, hk]
    simp [legal, noRegs, hu, hasync]
  · exact (congrArg Ctx.stores hcf.1 :)

theorem leaAndFence : LeaAndFence := ⟨fun _ _ _ _ _ h hm hea => lea_completes h hm hea, fun _ _ h hv => fence_completes h hv⟩

/-! ### The elements of a block instruction (R151, R152) -/

theorem Ctx.g_setG (x : Ctx) {r : Reg} (v : W64) (h : r ≠ 0) (q : Reg) : (x.setG r v).g q = if q = r then v else x.g q := by
  have hr : r.val ≠ 0 := fun hv => h (Fin.ext hv)
  unfold Ctx.setG Ctx.g
  rw [if_neg h]
  by_cases hq : q = r
  · simp [hq, h]
  · simp [hq, Tbl.get_put_ne _ _ _ (fun hv => hq (Fin.ext hv))]

theorem Ctx.cursors_eq (x : Ctx) (f : FmtA) (b : Bool) (n : Nat) : x.cursors f b n = x.withRegs (x.cursors f b n).regs := by
  have h1 : ∀ (y : Ctx), y = x.withRegs y.regs → ∀ r v, y.setG r v = x.withRegs (y.setG r v).regs := by
    intro y hy r v
    exact (Ctx.setG_eq y r v).trans ((congrArg (fun z : Ctx => z.withRegs (y.setG r v).regs) hy).trans rfl)
  unfold Ctx.cursors
  cases b with
  | true => exact h1 _ (h1 _ (h1 x rfl _ _) _ _) _ _
  | false => exact h1 _ (h1 x rfl _ _) _ _

theorem Ctx.cursors_g {x : Ctx} {f : FmtA} (b : Bool) (n : Nat) (hrd : f.rd ≠ 0) (hra : f.ra ≠ 0) (hrb : f.rb ≠ 0) (hda : f.rd ≠ f.ra)
    (q : Reg) : (x.cursors f b n).g q
      = if q = f.rb then x.g f.rb - BitVec.ofNat 64 n
        else if q = f.ra then (if b then x.g f.ra + BitVec.ofNat 64 n else x.g f.ra)
        else if q = f.rd then x.g f.rd + BitVec.ofNat 64 n else x.g q := by
  unfold Ctx.cursors
  cases b with
  | true => simp only [if_true, Ctx.g_setG _ _ hrd, Ctx.g_setG _ _ hra, Ctx.g_setG _ _ hrb]
  | false =>
    simp only [Bool.false_eq_true, if_false, Ctx.g_setG _ _ hrd, Ctx.g_setG _ _ hrb]
    by_cases hq : q = f.ra
    · simp [hq, hda.symm]
    · simp [hq]

/-- The state of a block instruction between its elements: of its context general registers alone have changed, and beside it Pantry's bytes
and marks, its counts and the statistics; no burst has become bad. -/
structure BlockRun (s t : State) (c : Nat) : Prop where
  ctx : t.ctx c = (s.ctx c).withRegs (t.ctx c).regs
  beside : BesideBlock s t c
  bad : ∀ d, s.pnBad d = false → t.pnBad d = false

namespace BlockRun
variable {s t u : State} {c : Nat}

theorem refl (s : State) (c : Nat) : BlockRun s s c := ⟨rfl, ⟨fun _ _ => rfl, rfl⟩, fun _ h => h⟩

theorem sameRights (h : BlockRun s t c) : s.SameRights t := by
  have hr := h.beside.2
  exact ⟨(congrArg State.img hr :), (congrArg (fun v : State => v.pantry.xlat) hr :), (congrArg (fun v : State => v.pantry.xlatBad) hr :)⟩

theorem world (h : BlockRun s t c) : (t.ctx c).world = (s.ctx c).world := (congrArg Ctx.world h.ctx :)

theorem super1 (h : BlockRun s t c) : (t.ctx c).super1 = (s.ctx c).super1 := by
  rw [h.ctx]
  rfl

theorem range (h : BlockRun s t c) {k : AccKind} {a n : Nat} (hr : PantryRange s c k a n) : PantryRange t c k a n :=
  hr.congr h.sameRights h.world h.super1

theorem good (h : BlockRun s t c) {a n : Nat} (hg : GoodRead s a n) : GoodRead t a n := fun b hb => h.bad b (hg b hb)

theorem hostMem (h : BlockRun s t c) : t.hostMem = s.hostMem := (congrArg State.hostMem h.beside.2 :)

theorem read (h : BlockRun s t c) (hu : t.ReadFrom u) : BlockRun s u c := by
  obtain ⟨⟨st, k, e, hu'⟩, hb⟩ := hu
  refine ⟨?_, ⟨fun d hd => ?_, ?_⟩, fun d hd => (hb d).trans (h.bad d hd)⟩
  · rw [hu']
    exact h.ctx
  · rw [hu']
    exact h.beside.1 d hd
  · rw [hu']
    exact h.beside.2

/-- An element: bytes written, and the cursors moved. -/
theorem element (h : BlockRun s t c) (f : FmtA) (b : Bool) (n : Nat) (a : Nat) (d : List Byte) (w : World) :
    BlockRun s (((t.countWorld w 12 d.length).pnWrite a d).modCtx c (fun y => y.cursors f b n)) c := by
  have hx : (((t.countWorld w 12 d.length).pnWrite a d).modCtx c (fun y => y.cursors f b n)).ctx c = (t.ctx c).cursors f b n :=
    State.ctx_modCtx_self ..
  refine ⟨?_, ⟨fun e he => ?_, ?_⟩, fun e he => ?_⟩
  · rw [hx, Ctx.cursors_eq]
    exact (congrArg (fun y : Ctx => y.withRegs ((t.ctx c).cursors f b n).regs) h.ctx).trans rfl
  · exact (State.ctx_modCtx_ne ((t.countWorld w 12 d.length).pnWrite a d) (fun y => y.cursors f b n) he).trans (h.beside.1 e he)
  · exact h.beside.2
  · exact State.pnBad_pnWrite (s := t.countWorld w 12 d.length) (h.bad e he)

end BlockRun

theorem CtxFrame.of_withRegs {x y : Ctx} {l : Tbl W64} (h : CtxFrame (x.withRegs l) y) : CtxFrame x y :=
  ⟨(congrArg (fun z : Ctx => z.withRegs x.regs) h.1 :).trans rfl, h.2⟩

theorem State.RetiredFrom.withBlock {u t : State} {c : Nat} {r : Ret} (h : u.RetiredFrom c r t) (m : Memory) (p : List Nat) :
    ({ u with pantry := { u.pantry with mem := m, poison := p } } : State).RetiredFrom c r
      { t with pantry := { t.pantry with mem := m, poison := p } } :=
  ⟨h.own, h.other, (congrArg (fun v : State => { v with pantry := { v.pantry with mem := m, poison := p } }) h.rest :)⟩

/-- A block instruction that has done its elements retires with what they left. -/
theorem IssuesPlain.completes_block {s : State} {c : Nat} (h : IssuesPlain s c) (hdel : (s.ctx c).delayed = []) {t : State} (hb : BlockRun s t c)
    (n : Nat) : let v := s.instrEnd c (.retire { count := n } t)
    v.pantry.mem = t.pantry.mem ∧ (∀ q, (v.ctx c).g q = (t.ctx c).g q) ∧ v.hostMem = s.hostMem ∧ CtxFrame (s.ctx c) (v.ctx c)
      ∧ BesideBlock s v c := by
  have hret : t.RetiredFrom c { count := n } (s.instrEnd c (.retire { count := n } t)) := by
    obtain ⟨_, _, _, hasync, hdue, hslot, _, _⟩ := h.1
    have ht := State.instrEnd_retire (s := s) (t := t) (c := c) (r := { count := n }) rfl rfl
      ((congrArg Ctx.due hb.ctx :).trans hdue) ((congrArg Ctx.asyncErr hb.ctx :).trans hasync) ((congrArg Ctx.slotDue hb.ctx :).trans hslot)
    rw [ht]
    exact ⟨State.ctx_modCtx_self .., fun d hd => State.ctx_modCtx_ne _ _ hd, by
      unfold State.modCtx State.setCtx State.countWorld State.countBank
      rfl⟩
  have hcf : CtxFrame ((s.ctx c).withRegs (t.ctx c).regs) _ := hb.ctx ▸ hret.ctxFrame rfl
  refine ⟨congrArg Pantry.mem hret.pantry, fun q => ?_, hret.hostMem.trans hb.hostMem, hcf.of_withRegs,
    (hret.withBlock s.pantry.mem s.pantry.poison).beside hb.beside⟩
  rw [hret.own, Ctx.retire_g _ rfl]
  unfold Ctx.flush
  rw [Ctx.setAll_delayed, (congrArg Ctx.delayed hb.ctx :).trans hdel]
  rfl

/-! ### The bytes of a copy and of a fill -/

/-- The bytes after the first j of a copy in ascending order (R151). -/
def copied (m : Memory) (rd ra j : Nat) : Memory :=
  (List.range j).foldl (fun m i => Memory.setByte 0 m (rd + i) (Memory.byte 0 m (ra + i))) m

theorem copied_succ (m : Memory) (rd ra j : Nat) :
    copied m rd ra (j + 1) = Memory.setByte 0 (copied m rd ra j) (rd + j) (Memory.byte 0 (copied m rd ra j) (ra + j)) := by
  unfold copied
  rw [List.range_succ, List.foldl_append]
  rfl

theorem Memory.byte_write_eq (m : Memory) (a : Nat) (l : List Byte) (x : Nat) :
    Memory.byte 0 (Memory.write 0 m a l) x = if a ≤ x ∧ x < a + l.length then l.getD (x - a) 0 else Memory.byte 0 m x := by
  split
  · next h =>
    have hw := Memory.byte_write 0 m a l (i := x - a) (by omega)
    rw [show a + (x - a) = x by omega] at hw
    rw [hw, List.getD_eq_getElem]
  · exact Memory.byte_write_of_out 0 m a l (by omega)

theorem Memory.getD_bytes (m : Memory) (a : Nat) {n i : Nat} (h : i < n) : (Memory.bytes 0 m a n).getD i 0 = Memory.byte 0 m (a + i) := by
  simp [Memory.bytes, h]

/-- An element of a copy that reads nothing it writes moves its bytes as the copy in ascending order does. -/
theorem byte_copied_add {m m' : Memory} {rd ra j k : Nat} (hm : ∀ a, Memory.byte 0 m' a = Memory.byte 0 (copied m rd ra j) a)
    (hap : ∀ i i', i < k → i' < i → ra + j + i ≠ rd + j + i') (a : Nat) :
    Memory.byte 0 (Memory.write 0 m' (rd + j) (Memory.bytes 0 m' (ra + j) k)) a = Memory.byte 0 (copied m rd ra (j + k)) a := by
  induction k generalizing a with
  | zero => exact hm a
  | succ k ih =>
    have ih := ih (fun i i' hi => hap i i' (by omega))
    have hsrc := ih (ra + j + k)
    have ih := ih a
    rw [Memory.byte_write_eq, Memory.length_bytes] at ih ⊢
    rw [Memory.byte_write_eq, Memory.length_bytes, if_neg (fun h => hap k (ra + j + k - (rd + j)) (by omega) (by omega) (by omega))] at hsrc
    rw [show j + (k + 1) = j + k + 1 by omega, copied_succ, Memory.byte_setByte, ← ih, show ra + (j + k) = ra + j + k by omega, ← hsrc]
    by_cases ha : a = rd + (j + k)
    · rw [if_pos (by omega), if_pos ha, Memory.getD_bytes _ _ (by omega), show a - (rd + j) = k by omega]
    · rw [if_neg ha]
      by_cases h2 : rd + j ≤ a ∧ a < rd + j + k
      · rw [if_pos h2, if_pos (by omega), Memory.getD_bytes _ _ (by omega), Memory.getD_bytes _ _ (by omega)]
      · rw [if_neg h2, if_neg (by omega)]

theorem Issues.elements_eq {s : State} {c : Nat} (h : Issues s c) (limit : Nat) : (s.ctx c).elements limit = limit := by
  obtain ⟨_, _, _, hasync, hdue, hslot, _, _⟩ := h
  simp [Ctx.elements, hasync, hdue, hslot]

/-- The cursors of a block instruction stand k bytes on from where they began (R151). -/
structure Cursors (x y : Ctx) (f : FmtA) (b : Bool) (j : Nat) : Prop where
  rd : y.g f.rd = x.g f.rd + BitVec.ofNat 64 j
  ra : y.g f.ra = if b then x.g f.ra + BitVec.ofNat 64 j else x.g f.ra
  rb : y.g f.rb = x.g f.rb - BitVec.ofNat 64 j
  other : ∀ q, q ≠ f.rd → q ≠ f.ra → q ≠ f.rb → y.g q = x.g q

theorem Cursors.zero (x : Ctx) (f : FmtA) (b : Bool) : Cursors x x f b 0 := ⟨by simp, by simp, by simp, fun _ _ _ _ => rfl⟩

theorem toNat_add_ofNat {v : W64} {j : Nat} (h : v.toNat + j ≤ windowBase) : (v + BitVec.ofNat 64 j).toNat = v.toNat + j := by
  unfold windowBase at h
  simp only [BitVec.toNat_add, BitVec.toNat_ofNat]
  omega

theorem toNat_sub_ofNat {v : W64} {j : Nat} (h : j ≤ v.toNat) : (v - BitVec.ofNat 64 j).toNat = v.toNat - j := by
  have := v.isLt
  simp only [BitVec.toNat_sub, BitVec.toNat_ofNat]
  omega

/-- The length of an element of a copy: some bytes, no more than are left, and none of them written by the element before it is read (R151). -/
theorem copyElement_spec {rd ra rb : Nat} (h : 0 < rb) : 0 < copyElement rd ra rb ∧ copyElement rd ra rb ≤ rb
    ∧ (rd ≤ ra ∨ ra + copyElement rd ra rb ≤ rd) := by
  have hk : 0 < Nat.min 64 rb ∧ Nat.min 64 rb ≤ rb := ⟨Nat.lt_min.mpr ⟨by omega, h⟩, Nat.min_le_right ..⟩
  unfold copyElement
  dsimp only
  split <;> omega

section
variable {f : FmtA} (hrd : f.rd ≠ 0) (hra : f.ra ≠ 0) (hrb : f.rb ≠ 0) (hda : f.rd ≠ f.ra) (hdb : f.rd ≠ f.rb) (hab : f.ra ≠ f.rb)
include hrd hra hrb hda hdb hab

theorem Cursors.step {x y : Ctx} {b : Bool} {j : Nat} (h : Cursors x y f b j) (k : Nat) : Cursors x (y.cursors f b k) f b (j + k) := by
  have hg := Ctx.cursors_g (x := y) b k hrd hra hrb hda
  refine ⟨?_, ?_, ?_, fun q h1 h2 h3 => ?_⟩
  · rw [hg, if_neg hdb, if_neg hda, if_pos rfl, h.rd, BitVec.ofNat_add, BitVec.add_assoc]
  · rw [hg, if_neg hab, if_pos rfl, h.ra]
    cases b
    · rfl
    · simp [BitVec.ofNat_add, BitVec.add_assoc]
  · rw [hg, if_pos rfl, h.rb, BitVec.ofNat_add]
    rw [BitVec.sub_sub]
  · rw [hg, if_neg h3, if_neg h2, if_neg h1, h.other q h1 h2 h3]


/-- An element of a block instruction writes d at the destination cursor and moves the cursors on. -/
theorem BlockRun.step {s t : State} {c : Nat} {b : Bool} {j : Nat} (hb : BlockRun s t c) (hc : Cursors (s.ctx c) (t.ctx c) f b j) (d : List Byte) :
    ∃ u, ((t.countWorld (t.ctx c).world 12 d.length).pnWrite ((t.ctx c).g f.rd).toNat d).modCtx c (fun y => y.cursors f b d.length) = u
      ∧ BlockRun s u c ∧ Cursors (s.ctx c) (u.ctx c) f b (j + d.length)
      ∧ u.pantry.mem = Memory.write 0 t.pantry.mem ((t.ctx c).g f.rd).toNat d := by
  refine ⟨_, rfl, hb.element f b d.length _ d _, ?_, rfl⟩
  rw [State.ctx_modCtx_self]
  exact hc.step hrd hra hrb hda hdb hab d.length

/-- FILLB's elements, from j bytes on, end with the block filled. -/
theorem fillbRun_eq {s : State} {c : Nat} (hw : PantryRange s c .write ((s.ctx c).g f.rd).toNat ((s.ctx c).g f.rb).toNat) (fuel : Nat) {done j : Nat}
    {t : State} (hb : BlockRun s t c) (hc : Cursors (s.ctx c) (t.ctx c) f false j) (hj : j ≤ ((s.ctx c).g f.rb).toNat)
    (hfuel : ((s.ctx c).g f.rb).toNat ≤ fuel + j)
    (hm : ∀ a, Memory.byte 0 t.pantry.mem a = if ((s.ctx c).g f.rd).toNat ≤ a ∧ a < ((s.ctx c).g f.rd).toNat + j
      then ((s.ctx c).g f.ra).setWidth 8 else Memory.byte 0 s.pantry.mem a) :
    ∃ n u, fillbRun f c fuel done t = .retire { count := n } u ∧ BlockRun s u c
      ∧ Cursors (s.ctx c) (u.ctx c) f false ((s.ctx c).g f.rb).toNat
      ∧ ∀ a, Memory.byte 0 u.pantry.mem a = if ((s.ctx c).g f.rd).toNat ≤ a ∧ a < ((s.ctx c).g f.rd).toNat + ((s.ctx c).g f.rb).toNat
        then ((s.ctx c).g f.ra).setWidth 8 else Memory.byte 0 s.pantry.mem a := by
  have hin := hw.1
  induction fuel generalizing done j t with
  | zero =>
    obtain rfl : j = ((s.ctx c).g f.rb).toNat := by omega
    have hleft : ((t.ctx c).g f.rb).toNat = 0 := by rw [hc.rb, toNat_sub_ofNat hj, Nat.sub_self]
    exact ⟨Nat.max 1 done, t, by unfold fillbRun; exact if_pos hleft, hb, hc, hm⟩
  | succ fuel ih =>
    have hleft : ((t.ctx c).g f.rb).toNat = ((s.ctx c).g f.rb).toNat - j := by rw [hc.rb, toNat_sub_ofNat hj]
    have hdst : ((t.ctx c).g f.rd).toNat = ((s.ctx c).g f.rd).toNat + j := by rw [hc.rd, toNat_add_ofNat (by omega)]
    have hra' : (t.ctx c).g f.ra = (s.ctx c).g f.ra := by simpa using hc.ra
    by_cases h0 : j = ((s.ctx c).g f.rb).toNat
    · subst h0
      exact ⟨Nat.max 1 done, t, by unfold fillbRun; exact if_pos (by omega), hb, hc, hm⟩
    generalize hk : Nat.min 64 ((t.ctx c).g f.rb).toNat = k
    have hk0 : 0 < k ∧ k ≤ ((s.ctx c).g f.rb).toNat - j := by
      rw [hleft] at hk
      rw [← hk]
      exact ⟨Nat.lt_min.mpr ⟨by omega, by omega⟩, Nat.min_le_right ..⟩
    have hrange : PantryRange t c .write ((t.ctx c).g f.rd).toNat k := hb.range (hw.part (by omega) (by omega))
    generalize hd : List.replicate k (((s.ctx c).g f.ra).setWidth 8 : Byte) = d
    have hel : ∀ i, i < k → d.getD i 0 = ((s.ctx c).g f.ra).setWidth 8 := by
      intro i hi
      simp [← hd, hi]
    obtain rfl : k = d.length := by rw [← hd, List.length_replicate]
    obtain ⟨u, hu, hbu, hcu, hmu⟩ := hb.step hrd hra hrb hda hdb hab hc d
    have hstep : fillbRun f c (fuel + 1) done t = fillbRun f c fuel (done + 1) u := by
      have hwr := State.hWrite_range hrange (List.ne_nil_of_length_pos hk0.1)
      conv_lhs => unfold fillbRun
      dsimp only
      rw [if_neg (by omega), hk, State.rangeExc_none hrange, hra', hd, hwr, hu]
    rw [hstep]
    refine ih hbu hcu (by omega) (by omega) (fun a => ?_)
    rw [hmu, Memory.byte_write_eq, hdst, hm]
    by_cases h1 : ((s.ctx c).g f.rd).toNat + j ≤ a ∧ a < ((s.ctx c).g f.rd).toNat + j + d.length
    · rw [if_pos h1, hel _ (by omega), if_pos (by omega)]
    · rw [if_neg h1]
      refine if_congr ?_ rfl rfl
      omega

/-- MOVB's elements, from j bytes on, end with the block copied. -/
theorem movbRun_eq {s : State} {c : Nat} (hw : PantryRange s c .write ((s.ctx c).g f.rd).toNat ((s.ctx c).g f.rb).toNat)
    (hr : PantryRange s c .read ((s.ctx c).g f.ra).toNat ((s.ctx c).g f.rb).toNat)
    (hg : GoodRead s ((s.ctx c).g f.ra).toNat ((s.ctx c).g f.rb).toNat) (fuel : Nat) {done j : Nat} {t : State} (hb : BlockRun s t c)
    (hc : Cursors (s.ctx c) (t.ctx c) f true j) (hj : j ≤ ((s.ctx c).g f.rb).toNat) (hfuel : ((s.ctx c).g f.rb).toNat ≤ fuel + j)
    (hm : ∀ a, Memory.byte 0 t.pantry.mem a
      = Memory.byte 0 (copied s.pantry.mem ((s.ctx c).g f.rd).toNat ((s.ctx c).g f.ra).toNat j) a) :
    ∃ n u, movbRun f c fuel done t = .retire { count := n } u ∧ BlockRun s u c
      ∧ Cursors (s.ctx c) (u.ctx c) f true ((s.ctx c).g f.rb).toNat
      ∧ ∀ a, Memory.byte 0 u.pantry.mem a
        = Memory.byte 0 (copied s.pantry.mem ((s.ctx c).g f.rd).toNat ((s.ctx c).g f.ra).toNat ((s.ctx c).g f.rb).toNat) a := by
  have hin := hw.1
  have hin' := hr.1
  induction fuel generalizing done j t with
  | zero =>
    obtain rfl : j = ((s.ctx c).g f.rb).toNat := by omega
    have hleft : ((t.ctx c).g f.rb).toNat = 0 := by rw [hc.rb, toNat_sub_ofNat hj, Nat.sub_self]
    exact ⟨Nat.max 1 done, t, by unfold movbRun; exact if_pos hleft, hb, hc, hm⟩
  | succ fuel ih =>
    have hleft : ((t.ctx c).g f.rb).toNat = ((s.ctx c).g f.rb).toNat - j := by rw [hc.rb, toNat_sub_ofNat hj]
    have hdst : ((t.ctx c).g f.rd).toNat = ((s.ctx c).g f.rd).toNat + j := by rw [hc.rd, toNat_add_ofNat (by omega)]
    have hsrc : ((t.ctx c).g f.ra).toNat = ((s.ctx c).g f.ra).toNat + j := by rw [hc.ra, if_pos rfl, toNat_add_ofNat (by omega)]
    by_cases h0 : j = ((s.ctx c).g f.rb).toNat
    · subst h0
      exact ⟨Nat.max 1 done, t, by unfold movbRun; exact if_pos (by omega), hb, hc, hm⟩
    obtain ⟨hk1, hk2, hapart⟩ := copyElement_spec (rd := ((t.ctx c).g f.rd).toNat) (ra := ((t.ctx c).g f.ra).toNat)
      (rb := ((t.ctx c).g f.rb).toNat) (by omega)
    generalize hk : copyElement ((t.ctx c).g f.rd).toNat ((t.ctx c).g f.ra).toNat ((t.ctx c).g f.rb).toNat = k at hk1 hk2 hapart
    have hrangeW : PantryRange t c .write ((t.ctx c).g f.rd).toNat k := hb.range (hw.part (by omega) (by omega))
    have hrangeR : PantryRange t c .read ((t.ctx c).g f.ra).toNat k := hb.range (hr.part (by omega) (by omega))
    obtain ⟨v, hread, htv⟩ := State.hRead_range hrangeR hk1 (hb.good (hg.part (by omega) (by omega)))
    have hbv := hb.read htv
    have hvc := htv.ctx c
    generalize hd : Memory.bytes 0 t.pantry.mem ((t.ctx c).g f.ra).toNat k = d at hread
    obtain rfl : k = d.length := by rw [← hd, Memory.length_bytes]
    obtain ⟨u, hu, hbu, hcu, hmu⟩ := hbv.step hrd hra hrb hda hdb hab (hvc ▸ hc) d
    have hrangeV : PantryRange v c .write ((t.ctx c).g f.rd).toNat d.length := hbv.range (hw.part (by omega) (by omega))
    have hstep : movbRun f c (fuel + 1) done t = movbRun f c fuel (done + 1) u := by
      have hwr := State.hWrite_range hrangeV (List.ne_nil_of_length_pos hk1)
      conv_lhs => unfold movbRun
      dsimp only
      rw [if_neg (by omega), hk, State.rangeExc_none hrangeR, State.rangeExc_none hrangeW]
      dsimp only
      rw [hread]
      dsimp only
      rw [hwr, ← hu, hvc]
    rw [hstep]
    refine ih hbu hcu (by omega) (by omega) (fun a => ?_)
    have hcopy := byte_copied_add (k := d.length) hm (fun i i' hi hi' => by omega) a
    rwa [← hsrc, ← hdst, hd, ← hvc, ← htv.mem, ← hmu] at hcopy

end

theorem blockInstructions : BlockInstructions := by
  unfold BlockInstructions
  intro s c f limit h hdel hrd hra hrb hda hdb hab hlim hw
  obtain ⟨k, e, hk⟩ := h.1.fetched_eq
  have hb : BlockRun s (s.fetched c) c := (BlockRun.refl s c).read h.1.readFrom
  have hmem : (s.fetched c).pantry.mem = s.pantry.mem := h.1.readFrom.mem
  have hcur : ∀ b, Cursors (s.ctx c) ((s.fetched c).ctx c) f b 0 := fun b => by
    rw [State.fetched_ctx]
    exact .zero (s.ctx c) f b
  refine ⟨fun hr hg => ?movb, ?fillb⟩
  case movb =>
    obtain ⟨n, u, hrun, hbu, hcu, hmu⟩ := movbRun_eq hrd hra hrb hda hdb hab hw hr hg limit (done := 0) hb (hcur true) (Nat.zero_le _) hlim
      (fun a => by rw [hmem]; rfl)
    obtain ⟨h1, h2, h3, h4, h5⟩ := h.completes_block hdel hbu n
    refine ⟨_, rfl, ?_⟩
    rw [h.1.instr_eq (h.allows _), h.1.elements_eq, hrun]
    refine ⟨fun a => by rw [h1]; exact hmu a, ?_, ?_, ?_, fun r h6 h7 h8 => (h2 r).trans (hcu.other r h6 h7 h8), h3, h4, h5⟩
    · rw [h2, hcu.rd, BitVec.ofNat_toNat, BitVec.setWidth_eq]
    · rw [h2, hcu.ra, if_pos rfl, BitVec.ofNat_toNat, BitVec.setWidth_eq]
    · rw [h2, hcu.rb, BitVec.ofNat_toNat, BitVec.setWidth_eq, BitVec.sub_self]
      rfl
  case fillb =>
    obtain ⟨n, u, hrun, hbu, hcu, hmu⟩ := fillbRun_eq hrd hra hrb hda hdb hab hw limit (done := 0) hb (hcur false) (Nat.zero_le _) hlim
      (fun a => by rw [hmem, if_neg (by omega)])
    obtain ⟨h1, h2, h3, h4, h5⟩ := h.completes_block hdel hbu n
    refine ⟨_, rfl, ?_⟩
    rw [h.1.instr_eq (h.allows _), h.1.elements_eq, hrun]
    refine ⟨fun a => by rw [h1]; exact hmu a, ?_, ?_, fun r h6 h8 => (h2 r).trans ?_, h3, h4, h5⟩
    · rw [h2, hcu.rd, BitVec.ofNat_toNat, BitVec.setWidth_eq]
    · rw [h2, hcu.rb, BitVec.ofNat_toNat, BitVec.setWidth_eq, BitVec.sub_self]
      rfl
    · by_cases h7 : r = f.ra
      · subst h7
        simpa using hcu.ra
      · exact hcu.other r h6 h7 h8

/-- Settles O6: FENCE by the stores one after another, the block instructions by their elements. -/
theorem addressesFencesAndBlocks : Obligations.AddressesFencesAndBlocks := ⟨leaAndFence, blockInstructions⟩

end Sys2Proof.Machine

namespace Sys2Proof.Machine

/-! ### Words that the opcode map does not assign (R128 to R130) -/

theorem wField_op (w : W32) : wField w 26 6 = w.toNat / 2 ^ 26 := by
  have := w.isLt
  unfold wField
  omega

theorem wField_fn (w : W32) : wField w 0 11 = w.toNat % 2 ^ 11 := by
  unfold wField
  rw [Nat.pow_zero, Nat.div_one]

theorem hearthWord_of_opcode {c limit : Nat} {g : Reg → W64} {w : W32} (h : w.toNat / 2 ^ 26 ∉ assignedOpcodes) :
    hearthWord c limit g w = .unassigned := by
  rw [← wField_op] at h
  unfold hearthWord
  dsimp only
  generalize wField w 26 6 = op at h ⊢
  split
  on_goal -1 => rfl
  all_goals exact absurd (by decide) h

theorem hearthWord_of_function {c limit : Nat} {g : Reg → W64} {w : W32} {l : Nat × Nat} (hl : l ∈ functionsOf) (hop : l.1 = w.toNat / 2 ^ 26)
    (hfn : w.toNat % 2 ^ 11 = 0 ∨ l.2 < w.toNat % 2 ^ 11) : hearthWord c limit g w = .unassigned := by
  rw [← wField_op] at hop
  rw [← wField_fn] at hfn
  simp only [functionsOf, List.mem_cons, List.not_mem_nil, or_false] at hl
  unfold hearthWord
  dsimp only
  rcases hl with rfl | rfl | rfl | rfl | rfl | rfl | rfl | rfl | rfl | rfl
  all_goals
    rw [← hop]
    dsimp only at hfn ⊢
    generalize wField w 0 11 = k at hfn ⊢
    simp only [aluRow, muldivRow, cmpRow, sysRow, jumpRow, blockRow, portRow, streamRow, ctlRow, flintRow]
    split
    on_goal -1 => rfl
    all_goals omega

theorem unassignedIsIllegal : UnassignedIsIllegal := by
  unfold UnassignedIsIllegal
  intro s c w h op fn hw
  have hword : hearthWord c wholeBlock (s.ctx c).g w = .unassigned := by
    rcases hw with hw | ⟨l, hl, hop, hfn⟩
    · exact hearthWord_of_opcode hw
    · exact hearthWord_of_function hl hop hfn
  have hexec : exec (.xblk c w) s = .next (s.instr c flowPlace (fun t _ => .exc excIllegal t)) := by
    change execXblk c w s = _
    unfold execXblk
    rw [hword]
  rw [hexec]
  exact congrArg Host.Outcome.next (h.instr_exc rfl rfl)

/-! ### Entry into the supervisor (R142, R173 to R176) -/

/-- What reads of Pantry by the vectors see is the same: the image, the translation table, the bytes, and which bursts are bad. -/
structure State.SameReads (s t : State) : Prop extends s.SameRights t where
  mem : t.pantry.mem = s.pantry.mem
  bad : ∀ d, t.pnBad d = s.pnBad d

theorem State.ReadFrom.sameReads {s t : State} (h : s.ReadFrom t) : s.SameReads t := ⟨h.sameRights, h.mem, h.bad⟩

theorem State.SameReads.trans {s t u : State} (h : s.SameReads t) (h' : t.SameReads u) : s.SameReads u :=
  ⟨⟨h'.img.trans h.img, h'.xlat.trans h.xlat, h'.xlatBad.trans h.xlatBad⟩, h'.mem.trans h.mem, fun d => (h'.bad d).trans (h.bad d)⟩

theorem State.sameReads_modCtx (s : State) (c : Nat) (f : Ctx → Ctx) : s.SameReads (s.modCtx c f) := ⟨⟨rfl, rfl, rfl⟩, rfl, fun _ => rfl⟩

theorem State.pnCheck_fst_congr {s t : State} (h : ∀ d, t.pnBad d = s.pnBad d) (a n : Nat) : (t.pnCheck a n).1 = (s.pnCheck a n).1 := by
  rw [Bool.eq_iff_iff, State.pnCheck_good_iff, State.pnCheck_good_iff]
  simp only [GoodRead, h]

theorem State.SameReads.vectorWord {s t : State} (h : s.SameReads t) (w : World) (code : Nat) : t.vectorWord w code = s.vectorWord w code := by
  unfold State.vectorWord State.vectorRead
  dsimp only
  rw [h.wcfg]
  split
  · dsimp only
    rw [State.pnCheck_fst_congr h.bad, State.pnBytes, State.pnBytes, h.mem]
  · rfl

theorem State.SameReads.vectorAddr {s t : State} (h : s.SameReads t) (w : World) (code : Nat) (sup : Bool) :
    t.vectorAddr w code sup = s.vectorAddr w code sup := by
  unfold State.vectorAddr State.attrAt
  simp only [h.vectorWord, h.place]

/-- A vector that is usable has been read well. -/
theorem State.vectorRead_good {s : State} {w : World} {code a : Nat} {sup : Bool} (h : s.vectorAddr w code sup = some a) :
    s.ReadFrom (s.vectorRead w code).2 := by
  have hne : s.vectorWord w code ≠ 0 := by
    intro h0
    unfold State.vectorAddr at h
    simp [h0] at h
  unfold State.vectorWord State.vectorRead at hne
  unfold State.vectorRead
  dsimp only at hne ⊢
  split at hne
  · next hk =>
    rw [if_pos hk]
    dsimp only at hne ⊢
    have hok : (s.pnCheck ((s.wcfg w).vbase + 8 * code) 8).1 = true := Classical.byContradiction fun hb => by simp [hb] at hne
    obtain ⟨k, e, hk'⟩ := State.pnCheck_good hok
    exact ⟨⟨s.stats, k, e, hk'⟩, State.pnCheck_pnBad s _ 8⟩
  · exact absurd rfl hne

theorem bits_one {n : Nat} (v : BitVec n) (i : Nat) : bits v.toNat i 1 = if v.getLsbD i then 1 else 0 := by
  have h := Nat.mod_two_eq_zero_or_one (v.toNat / 2 ^ i)
  rw [getLsbD_eq_bitAt]
  unfold bitAt bits
  rcases h with h | h <;> simp [h]

/-- What an entry into the supervisor comes to: the vector's read, what the exception notes, and the context entered. -/
theorem State.takeExc_super {s u : State} {c a : Nat} {e : Exc} {pc : W64} {ds : Bool} (h : EntersSuper s c e.code a)
    (hu : ((s.modCtx c Ctx.flush).vectorRead (s.ctx c).world e.code).2.excNote c e = u) (hr : (s.modCtx c Ctx.flush).SameReads u)
    (hc : u.ctx c = (s.ctx c).flush) : s.takeExc c e pc ds = u.setCtx c (enteredSuper (s.ctx c) e pc (BitVec.ofNat 64 a) ds) := by
  obtain ⟨hvis, hlive, husr, haddr⟩ := h
  have hsr := (State.sameReads_modCtx s c Ctx.flush).trans hr
  have hfl : (s.ctx c).flush = { (s.ctx c).withRegs (s.ctx c).flush.regs with delayed := [] } :=
    congrArg (fun y : Ctx => { y with delayed := [] }) (Ctx.setAll_eq (s.ctx c) (s.ctx c).delayed)
  have hw : (s.ctx c).flush.world = (s.ctx c).world := by rw [hfl]; rfl
  have hv : (s.ctx c).flush.visit = none := by rw [hfl]; exact hvis
  have hs : (s.ctx c).flush.super = (s.ctx c).super := by rw [hfl]; rfl
  have hst : (s.ctx c).flush.st = (s.ctx c).st := by rw [hfl]; rfl
  unfold State.takeExc
  rw [hu]
  dsimp only
  rw [hc, hw, hsr.vectorWord, husr, hv]
  simp only [Bool.and_false, Bool.false_and, Bool.false_eq_true, if_false, Option.isSome_none, Ctx.save, hs, hlive, Bool.not_false,
    Ctx.setSave, State.toVector, hc, hw, hsr.vectorAddr, haddr, hst]
  refine congrArg (u.setCtx c) ?_
  unfold enteredSuper
  rw [bits_one]
  cases ds <;> cases (s.ctx c).st.getLsbD 3 <;> rfl

theorem State.ctx_setCtx_self (s : State) (c : Nat) (x : Ctx) : (s.setCtx c x).ctx c = x := by rw [State.ctx_setCtx, if_pos rfl]

theorem State.ctx_setCtx_ne (s : State) {c d : Nat} (x : Ctx) (h : d ≠ c) : (s.setCtx c x).ctx d = s.ctx d := by
  rw [State.ctx_setCtx, if_neg h]

theorem Beside.trans {s t u : State} {c : Nat} (h : Beside s t c) (h' : Beside t u c) : Beside s u c :=
  ⟨fun d hd => (h'.1 d hd).trans (h.1 d hd), (congrArg (fun v : State => { v with
    ctxs := s.ctxs, stats := s.stats, pantry := { v.pantry with corr := s.pantry.corr, errs := s.pantry.errs } }) h'.2 :).trans h.2⟩

theorem Beside.setCtx (s : State) (c : Nat) (x : Ctx) : Beside s (s.setCtx c x) c := ⟨fun _ hd => State.ctx_setCtx_ne s x hd, rfl⟩

theorem Beside.modCtx (s : State) (c : Nat) (f : Ctx → Ctx) : Beside s (s.modCtx c f) c := .setCtx s c _

theorem SameBytes.trans {s t u : State} (h : SameBytes s t) (h' : SameBytes t u) : SameBytes s u :=
  ⟨fun a => (h'.1 a).trans (h.1 a), fun a => (h'.2.1 a).trans (h.2.1 a), fun a => (h'.2.2.1 a).trans (h.2.2.1 a),
    fun a => (h'.2.2.2 a).trans (h.2.2.2 a)⟩

theorem SameBytes.setCtx (s : State) (c : Nat) (x : Ctx) : SameBytes s (s.setCtx c x) := .refl s

theorem SameBytes.modCtx (s : State) (c : Nat) (f : Ctx → Ctx) : SameBytes s (s.modCtx c f) := .refl s

/-- After the fetch of an instruction the supervisor is entered as before it. -/
theorem EntersSuper.fetched {s : State} {c code a : Nat} (h : EntersSuper s c code a) (hi : Issues s c) : EntersSuper (s.fetched c) c code a := by
  obtain ⟨h1, h2, h3, h4⟩ := h
  have hr := hi.readFrom.sameReads
  refine ⟨?_, ?_, ?_, ?_⟩
  · rw [State.fetched_ctx]; exact h1
  · rw [State.fetched_ctx]; exact h2
  · rw [State.fetched_ctx, hr.vectorWord]; exact h3
  · rw [State.fetched_ctx, hr.vectorAddr]; exact h4

/-- What the read of a usable vector leaves, its delayed results written. -/
theorem EntersSuper.read {s : State} {c code a : Nat} (h : EntersSuper s c code a) :
    (s.modCtx c Ctx.flush).ReadFrom ((s.modCtx c Ctx.flush).vectorRead (s.ctx c).world code).2 :=
  State.vectorRead_good (((State.sameReads_modCtx s c Ctx.flush).vectorAddr ..).trans h.2.2.2)

/-- An exception that no counter takes enters the supervisor. -/
theorem IssuesPlain.enters {s : State} {c a : Nat} (h : IssuesPlain s c) {e : Exc} (hen : EntersSuper s c e.code a) (hn : ∀ t : State, t.excNote c e = t) :
    let t := (s.fetchExc c (s.ctx c).pc.toNat).2.takeExc c e (s.ctx c).pc false
    t.ctx c = enteredSuper (s.ctx c) e (s.ctx c).pc (BitVec.ofNat 64 a) false ∧ Beside s t c ∧ SameBytes s t := by
  have hen' := hen.fetched h.1
  have hread := hen'.read
  have hctx := hread.ctx c
  rw [State.ctx_modCtx_self] at hctx
  have ht := State.takeExc_super (pc := (s.ctx c).pc) (ds := false) hen' (hn _) hread.sameReads hctx
  rw [State.fetched_ctx] at ht hread
  rw [← h.fetched_def, ht]
  have hf := h.1.readFrom
  refine ⟨State.ctx_setCtx_self .., ?_, ?_⟩
  · exact (((hf.beside c).trans (Beside.modCtx ..)).trans (hread.beside c)).trans (Beside.setCtx ..)
  · exact ((hf.sameBytes.trans (SameBytes.modCtx ..)).trans hread.sameBytes).trans (SameBytes.setCtx ..)

theorem State.sameReads_modHt (s : State) (w : World) (f : HearthCnt → HearthCnt) : s.SameReads (s.modHt w f) := ⟨⟨rfl, rfl, rfl⟩, rfl, fun _ => rfl⟩

theorem State.excNote_refused (s : State) (c n : Nat) :
    s.excNote c { code := 0xB, info := n, refused := true } = s.modHt (s.ctx c).world (fun z => { z with refused := satInc32 z.refused }) := by
  unfold State.excNote
  simp

theorem State.ReadFrom.hearths {s u : State} (h : s.ReadFrom u) : u.hearths = s.hearths := by
  obtain ⟨⟨st, k, e, rfl⟩, _⟩ := h
  rfl

theorem Two.get_upd_self {α : Type} (x : Two α) (w : World) (f : α → α) : (x.upd w f).get w = f (x.get w) := by cases w <;> rfl

/-- A refused TRAP enters the supervisor and is counted (R195). -/
theorem IssuesPlain.enters_refused {s : State} {c a n : Nat} (h : IssuesPlain s c) (hen : EntersSuper s c 0xB a) {t : State}
    (ht : t = (s.fetchExc c (s.ctx c).pc.toNat).2.takeExc c { code := 0xB, info := n, refused := true } (s.ctx c).pc false) :
    t.ctx c = enteredSuper (s.ctx c) { code := 0xB, info := n, refused := true } (s.ctx c).pc (BitVec.ofNat 64 a) false
      ∧ (t.hearths.cnt.get (s.ctx c).world).refused = satInc32 (s.hearths.cnt.get (s.ctx c).world).refused := by
  have hen' := hen.fetched h.1
  have hread := hen'.read
  have hctx := hread.ctx c
  rw [State.ctx_modCtx_self] at hctx
  have hworld : (s.ctx c).flush.world = (s.ctx c).world := (congrArg Ctx.world (Ctx.setAll_eq (s.ctx c) (s.ctx c).delayed) :)
  have hsup := State.takeExc_super (e := { code := 0xB, info := n, refused := true }) (pc := (s.ctx c).pc) (ds := false) hen'
    (State.excNote_refused ..) (hread.sameReads.trans (State.sameReads_modHt ..)) hctx
  rw [State.fetched_ctx] at hsup hread hctx
  rw [hctx, hworld] at hsup
  rw [ht, ← h.fetched_def, hsup]
  refine ⟨State.ctx_setCtx_self .., ?_⟩
  have hh : (((s.fetched c).modCtx c Ctx.flush).vectorRead (s.ctx c).world 0xB).2.hearths = s.hearths :=
    hread.hearths.trans h.1.readFrom.hearths
  generalize (((s.fetched c).modCtx c Ctx.flush).vectorRead (s.ctx c).world 0xB).2 = v at hh
  change ((v.hearths.cnt.upd (s.ctx c).world _).get (s.ctx c).world).refused = _
  rw [hh, Two.get_upd_self]

theorem IssuesPlain.trap_eq {s : State} {c : Nat} {n : BitVec 8} {e : Exc} (h : IssuesPlain s c) (hw : (s.ctx c).inWindow = false) (he : e.reach = false)
    (hf : (s.fetched c).trap c n.toNat = .exc e (s.fetched c)) :
    exec (.trap c n 0) s = .next ((s.fetchExc c (s.ctx c).pc.toNat).2.takeExc c e (s.ctx c).pc false) := by
  refine congrArg Host.Outcome.next (h.instr_exc ?_ he)
  simp [legal, hw, hf]

theorem trapEntersSupervisor : TrapEntersSupervisor := by
  unfold TrapEntersSupervisor
  intro s c a n h hwin x g from1
  have hcfg : ∀ w, (s.fetched c).wcfg w = s.wcfg w := h.1.sameRights.wcfg
  refine ⟨fun hen hg hfrom => ?gate, fun hen hg => ?refused, fun w hw hen => ?extension⟩
  case gate =>
    refine ⟨_, h.trap_eq (e := { code := 0xB, info := n.toNat }) hwin rfl ?_, h.enters (e := { code := 0xB, info := n.toNat }) hen (fun _ => rfl)⟩
    unfold State.trap
    dsimp only
    rw [State.fetched_ctx, hcfg, hcfg]
    have hgate : (decide (g % 4 = 1) && from1) = true := by rw [hg, hfrom]; rfl
    exact if_pos hgate
  case refused =>
    refine ⟨_, h.trap_eq (e := { code := 0xB, info := n.toNat, refused := true }) hwin rfl ?_, h.enters_refused hen rfl⟩
    unfold State.trap
    dsimp only
    rw [State.fetched_ctx, hcfg, hcfg]
    have hgate : (decide (g % 4 = 1) && from1) = false := by rcases hg with hg | hg <;> simp [hg]
    have hcross : (decide (g % 4 = 2) && from1) = false := by rcases hg with hg | hg <;> simp [hg]
    refine (if_neg (ne_true_of_eq_false hgate)).trans (if_neg ?_)
    change ¬(decide (g % 4 = 2) && from1 && _ && _) = true
    rw [hcross]
    exact Bool.false_ne_true
  case extension =>
    have hword : hearthWord c wholeBlock (s.ctx c).g w = .extension := by
      unfold hearthWord
      dsimp only
      rw [wField_op, hw]
      rfl
    have hexec : exec (.xblk c w) s = .next (s.instr c flowPlace (fun t _ => .exc { code := 0xC } t)) := by
      change execXblk c w s = _
      unfold execXblk
      rw [hword]
    exact ⟨_, hexec.trans (congrArg Host.Outcome.next (h.instr_exc rfl rfl)), h.enters (e := { code := 0xC }) hen (fun _ => rfl)⟩

/-! ### RETX (R183, R184) -/

theorem IssuesPlain.retx_eq {s : State} {c : Nat} (h : IssuesPlain s c) (hw : (s.ctx c).inWindow = false) :
    exec (.retx c ⟨0, 0, 0⟩) s = .next (s.instrEnd c ((s.fetched c).retx c)) := by
  refine congrArg Host.Outcome.next ?_
  rw [h.1.instr_eq (h.allows _)]
  simp [legal, noRegs, hw]

theorem Ctx.setName_of_noVisit {x : Ctx} (h : x.visit = none) : x.save x.setName = if x.super1 then x.super else x.user := by
  unfold Ctx.setName
  rw [h]
  cases x.super1 <;> rfl

/-- A number without its bit 5. -/
theorem testBit_clear_five (n i : Nat) : (n - bits n 5 1 * 32).testBit i = (n.testBit i && !decide (i = 5)) := by
  rcases Nat.lt_trichotomy i 5 with h | h | h
  · rw [testBit_eq_of_bits (u := n - bits n 5 1 * 32) (v := n) (lo := 0) (n := 5) (by unfold bits; omega) (by omega) (by omega)]
    simp [h.ne]
  · subst h
    rw [Nat.testBit_eq_decide_div_mod_eq]
    unfold bits
    simp only [decide_true, Bool.not_true, Bool.and_false, decide_eq_false_iff_not]
    omega
  · rw [testBit_eq_of_div (u := n - bits n 5 1 * 32) (v := n) (lo := 6) (by unfold bits; omega) (by omega)]
    simp [h.ne']

/-- The saved status without DS, as RETX loads it (R183). -/
theorem clearDs_eq (v : W64) : BitVec.ofNat 64 (v.toNat - bits v.toNat 5 1 * 32) = v &&& ~~~(32 : W64) := by
  have hmask : ∀ i < 64, (32 : W64).getLsbD i = decide (i = 5) := by decide
  refine BitVec.eq_of_getLsbD_eq fun i hi => ?_
  rw [BitVec.getLsbD_ofNat, testBit_clear_five, BitVec.getLsbD_and, BitVec.getLsbD_not, hmask i hi]
  simp [hi, BitVec.getLsbD]

/-- A window that is shut, or open with instructions left, is as it was after an instruction that counts none (R191). -/
theorem windowAfter_zero {v : Nat} (h : bits v 8 7 = 0 → bitAt v 4 = false) : windowAfter v 0 = v := by
  unfold windowAfter
  dsimp only
  split
  · next hk =>
    have h0 : bits v 8 7 = 0 := by omega
    have h4 : bits v 4 1 = 0 := by
      have hne : bits v 4 1 ≠ 1 := by simpa [bitAt] using h h0
      have := Nat.mod_lt (v / 2 ^ 4) (show 2 ^ 1 > 0 by decide)
      unfold bits at hne ⊢
      omega
    rw [h0, h4]
    rfl
  · omega

theorem retxStatus_window {s : State} {v : SaveSet} (h : s.retxStatusBad v = false) : bits v.st.toNat 8 7 = 0 → bitAt v.st.toNat 4 = false := by
  intro h0
  unfold State.retxStatusBad at h
  simp [h0] at h
  exact h.1.1

theorem clearDs_window {v : W64} (h : bits v.toNat 8 7 = 0 → bitAt v.toNat 4 = false) :
    bits (BitVec.ofNat 64 (v.toNat - bits v.toNat 5 1 * 32)).toNat 8 7 = 0
      → bitAt (BitVec.ofNat 64 (v.toNat - bits v.toNat 5 1 * 32)).toNat 4 = false := by
  have hlt := v.isLt
  rw [BitVec.toNat_ofNat, Nat.mod_eq_of_lt (by omega)]
  intro h8
  have h4 := h (by unfold bits at h8 ⊢; omega)
  rw [bitAt_eq_testBit] at h4 ⊢
  rw [testBit_clear_five, h4]
  rfl

/-- A retirement that counts no instruction leaves the status as it is. -/
theorem Ctx.retire_st_closed {x : Ctx} {g : Option W64} (hrep : x.rep = false) (h : bits x.st.toNat 8 7 = 0 → bitAt x.st.toNat 4 = false) :
    (x.retire { goto := g, count := 0 }).st = x.st := by
  have hcount : x.windowCount { goto := g, count := 0 } = 0 := by simp [Ctx.windowCount, hrep]
  rw [Ctx.retire_eq x rfl, Ctx.advance_st]
  unfold Ctx.retired1
  dsimp only
  rw [hcount, if_neg Bool.false_ne_true, windowAfter_zero h, BitVec.ofNat_toNat, BitVec.setWidth_eq]

theorem retxReturns : RetxReturns := by
  unfold RetxReturns
  intro s c h hwin hvis x v hbad
  have hsr := h.1.sameRights
  have hv : ((s.fetched c).ctx c).save ((s.fetched c).ctx c).setName = v := by rw [State.fetched_ctx]; exact Ctx.setName_of_noVisit hvis
  have hbad' : (s.fetched c).retxStatusBad v = false := by
    unfold State.retxStatusBad at hbad ⊢
    dsimp only at hbad ⊢
    rwa [hsr.wcfg]
  refine ⟨fun hact hal hhome hlvl => ?load, fun hact => ?stop⟩
  case load =>
    have hload : (s.fetched c).retx c = retxLoad v (s.fetched c) c := by
      unfold State.retx
      dsimp only
      rw [hv, hbad', hact, State.fetched_ctx, hsr.home, hvis, ← getLsbD_eq_bitAt, ← getLsbD_eq_bitAt, hhome]
      cases hsup : (s.ctx c).super1 with
      | true => simp
      | false =>
        have hl : v.st.getLsbD 2 = false := Bool.eq_false_iff.mpr fun hl => absurd (hlvl hl) (by simp [x, hsup])
        dsimp only
        rw [hl, if_neg Bool.false_ne_true, if_pos rfl]
        rfl
    obtain ⟨k, e, hk⟩ := h.1.fetched_eq
    have hni := retxStatus_window hbad
    have hend : s.instrEnd c ((s.fetched c).retx c) = s.instrEnd c (.retire { goto := some v.pc, count := 0 } ((s.withCorr k e).modCtx c (fun x =>
        { x with st := BitVec.ofNat 64 (v.st.toNat - bits v.st.toNat 5 1 * 32) }))) := by
      rw [hload, retxLoad, if_neg (not_not.mpr hal), hk]
    obtain ⟨hx, hw, hdl, hcf, hb, hsb⟩ := h.1.retire_mod (r := { goto := some v.pc, count := 0 }) rfl rfl rfl k e
      (g := fun x => { x with st := BitVec.ofNat 64 (v.st.toNat - bits v.st.toNat 5 1 * 32) }) rfl ⟨rfl, rfl, rfl, rfl, rfl⟩
    refine ⟨_, h.retx_eq hwin, ?_⟩
    rw [hend]
    obtain ⟨hpc, _⟩ := Ctx.retire_of_goto (x := { s.ctx c with st := BitVec.ofNat 64 (v.st.toNat - bits v.st.toNat 5 1 * 32) })
      (r := { goto := some v.pc, count := 0 }) (a := v.pc) h.2.2.1 rfl rfl rfl h.2.1 rfl
    have hst := Ctx.retire_st_closed (x := { s.ctx c with st := BitVec.ofNat 64 (v.st.toNat - bits v.st.toNat 5 1 * 32) }) (g := some v.pc)
      h.2.2.1 (clearDs_window hni)
    refine ⟨(congrArg Ctx.pc hx).trans hpc, ((congrArg Ctx.st hx).trans hst).trans (clearDs_eq _), hw, ?_, hb, hsb⟩
    rw [(congrArg Ctx.st hx).trans hst]
    exact hcf
  case stop =>
    refine ⟨_, h.retx_eq hwin, ?_⟩
    have hstop : (s.fetched c).retx c = .ended ((s.fetched c).ccwStop c 0xF v.code) := by
      unfold State.retx
      dsimp only
      rw [hv, hbad', hact]
      rfl
    rw [hstop, ← h.fetched_def]
    rfl

/-- Settles O12: each trap by the rule of a supervisor entry, unassigned words by the opcode map's rows, RETX by its ACTION. -/
theorem trapsEnterAndReturn : Obligations.TrapsEnterAndReturn := ⟨trapEntersSupervisor, unassignedIsIllegal, retxReturns⟩

end Sys2Proof.Machine

namespace Sys2Proof.Machine

/-! ### Windows and YIELD (R153, R191, R218) -/

theorem CtxFrame.of_st {x y : Ctx} {v : W64} (h : CtxFrame { x with st := v } y)
    (hv : ∀ i, i ≠ 4 → ¬(8 ≤ i ∧ i < 15) → v.getLsbD i = x.st.getLsbD i) : CtxFrame x y :=
  ⟨(congrArg (fun z : Ctx => { z with st := x.st }) h.1 :), fun i h4 h8 => (h.2 i h4 h8).trans (hv i h4 h8)⟩

theorem CtxFrame.locks {x y : Ctx} (h : CtxFrame x y) : y.locks = x.locks := (congrArg Ctx.locks h.1 :)

/-- The status with a window of k instructions opened (R191). -/
def openWindow (st : W64) (k : BitVec 7) : W64 := BitVec.ofNat 64 (st.toNat + 16 + 256 * k.toNat)

section
variable {st : W64} {k : BitVec 7} (h4 : bitAt st.toNat 4 = false) (h8 : bits st.toNat 8 7 = 0)
include h4 h8

theorem openWindow_toNat : (openWindow st k).toNat = st.toNat + 16 + 256 * k.toNat := by
  have hlt := st.isLt
  have hk := k.isLt
  have h4' : bits st.toNat 4 1 ≠ 1 := by simpa [bitAt] using h4
  unfold openWindow
  rw [BitVec.toNat_ofNat]
  unfold bits at h4' h8
  omega

theorem bits_openWindow : bits (openWindow st k).toNat 8 7 = k.toNat := by
  have hk := k.isLt
  have h4' : bits st.toNat 4 1 ≠ 1 := by simpa [bitAt] using h4
  rw [openWindow_toNat h4 h8]
  unfold bits at h4' h8 ⊢
  omega

theorem openWindow_bit4 : (openWindow st k).getLsbD 4 = true := by
  have h4' : bits st.toNat 4 1 ≠ 1 := by simpa [bitAt] using h4
  rw [getLsbD_eq_bitAt, openWindow_toNat h4 h8]
  unfold bitAt
  rw [decide_eq_true_eq]
  unfold bits at h4' h8 ⊢
  omega

theorem openWindow_other {i : Nat} (hi4 : i ≠ 4) (hi8 : ¬(8 ≤ i ∧ i < 15)) : (openWindow st k).getLsbD i = st.getLsbD i := by
  have h4' : bits st.toNat 4 1 ≠ 1 := by simpa [bitAt] using h4
  have hk := k.isLt
  rw [getLsbD_eq_bitAt, getLsbD_eq_bitAt, bitAt_eq_testBit, bitAt_eq_testBit, openWindow_toNat h4 h8]
  unfold bits at h4' h8
  rcases Nat.lt_or_ge i 4 with h | h
  · exact testBit_eq_of_bits (lo := 0) (n := 4) (by unfold bits; omega) (by omega) (by omega)
  rcases Nat.lt_or_ge i 8 with h' | h'
  · exact testBit_eq_of_bits (lo := 5) (n := 3) (by unfold bits; omega) (by omega) (by omega)
  · exact testBit_eq_of_div (lo := 15) (by omega) (by omega)

end

theorem niw_completes {s : State} {c : Nat} (h : IssuesPlain s c) {k : BitVec 7} (hw : (s.ctx c).inWindow = false)
    (h8 : bits (s.ctx c).st.toNat 8 7 = 0) (hk : k ≠ 0) (hmax : k.toNat ≤ (s.wcfg (s.ctx c).world).niMax) :
    Completes (.niw c k 0) s (fun t => (t.ctx c).st.getLsbD 4 = true ∧ (t.ctx c).st.extractLsb' 8 7 = k ∧ WritesAll s t c []
      ∧ RegFrame s t c) := by
  have hbits := bits_openWindow (k := k) hw h8
  have hk0 : k.toNat ≠ 0 := fun h0 => hk (BitVec.eq_of_toNat_eq h0)
  have hsr := h.1.sameRights
  obtain ⟨k1, e, hk1⟩ := h.1.fetched_eq
  obtain ⟨hx, hwr, hdl, hcf, hb, hsb⟩ := h.1.retire_mod (r := { count := 0 }) rfl rfl rfl k1 e
    (g := fun y => { y with st := openWindow y.st k }) rfl ⟨rfl, rfl, rfl, rfl, rfl⟩
  have hst := (congrArg Ctx.st hx).trans (Ctx.retire_st_closed (x := { s.ctx c with st := openWindow (s.ctx c).st k }) (g := none) h.2.2.1
    (fun h0 => absurd (hbits.symm.trans h0) hk0))
  refine ⟨_, rfl, ?_⟩
  rw [h.1.instr_eq (h.allows _), hsr.wcfg, hk1]
  have hl : (decide ((0 : BitVec 19) = 0) && !(s.ctx c).inWindow && decide (k ≠ 0) && decide (k.toNat ≤ (s.wcfg (s.ctx c).world).niMax)) = true := by
    rw [hw, decide_eq_true hk, decide_eq_true hmax]
    rfl
  rw [hl]
  refine ⟨?_, ?_, hwr, hcf.of_st fun i => openWindow_other hw h8, hb, hsb⟩
  · exact (congrArg (fun v : W64 => v.getLsbD 4) hst).trans (openWindow_bit4 hw h8)
  · refine (congrArg (fun v : W64 => v.extractLsb' 8 7) hst).trans (BitVec.eq_of_toNat_eq ?_)
    rw [BitVec.extractLsb'_toNat, Nat.shiftRight_eq_div_pow]
    exact hbits

/-- Giving up the slot closes the window. -/
theorem Ctx.retire_yield_bit4 (x : Ctx) : (x.retire { yield := true }).st.getLsbD 4 = false := by
  have hlt := x.st.isLt
  rw [Ctx.retire_eq x rfl, Ctx.advance_st, getLsbD_eq_bitAt]
  unfold Ctx.retired1
  dsimp only
  rw [if_pos rfl, BitVec.toNat_ofNat]
  unfold bitAt
  rw [decide_eq_false_iff_not]
  rcases windowAfter_cases x.st.toNat 127 with ⟨hk, hw⟩ | ⟨hk, hw⟩
  · rw [hw]
    unfold bits
    omega
  · omega

/-- The context that has retired a YIELD, READY at the end of the order. -/
def Ctx.yielded (x : Ctx) (n : Nat) : Ctx := { x.retire { yield := true } with state := .ready, wait := .none, readySeq := n, slotDue := false }

theorem State.ctx_makeReady_self (s : State) (c : Nat) : (s.makeReady c).ctx c
    = { s.ctx c with state := .ready, wait := .none, readySeq := s.hearths.readySeq, slotDue := false } := by rw [State.ctx_makeReady, if_pos rfl]

theorem State.ctx_makeReady_ne (s : State) {c d : Nat} (h : d ≠ c) : (s.makeReady c).ctx d = s.ctx d := by rw [State.ctx_makeReady, if_neg h]

theorem Issues.instrEnd_yield {s : State} {c : Nat} (h : Issues s c) (k : Tbl Nat) (e : Tbl (List Nat)) :
    let t := s.instrEnd c (.retire { yield := true } (s.withCorr k e))
    t.ctx c = (s.ctx c).yielded s.hearths.readySeq ∧ (∀ d, d ≠ c → t.ctx d = s.ctx d) ∧ t.hearths.readySeq = s.hearths.readySeq + 1
      ∧ SameBytes s t := by
  obtain ⟨hrun, hact, _, hasync, hdue, hslot, _, _⟩ := h
  have hfr := (Ctx.retire_ctxFrame (s.ctx c) (r := { yield := true }) rfl).1
  generalize hv : ((s.withCorr k e).countWorld (s.home c) 6 ((s.ctx c).retireCount { yield := true })).modCtx c
    (fun y => y.retire { yield := true }) = v
  have hx : v.ctx c = (s.ctx c).retire { yield := true } := by
    rw [← hv, State.ctx_modCtx_self]
    rfl
  have hd1 : (v.ctx c).due = none := hx ▸ (congrArg Ctx.due hfr :).trans hdue
  have hd2 : (v.ctx c).asyncErr = none := hx ▸ (congrArg Ctx.asyncErr hfr :).trans hasync
  have hd3 : (v.ctx c).slotDue = false := hx ▸ (congrArg Ctx.slotDue hfr :).trans hslot
  have hd4 : (v.ctx c).state = .running := hx ▸ (congrArg Ctx.state hfr :).trans hrun
  have hd5 : (v.ctx c).act.isSome = true := hx ▸ (congrArg (fun y : Ctx => y.act.isSome) hfr :).trans hact
  have hafter : v.afterRetire c = v := by
    unfold State.afterRetire Ctx.asyncDue
    simp [hd1, hd2, hd3]
  have hend : s.instrEnd c (.retire { yield := true } (s.withCorr k e)) = v.makeReady c := by
    unfold State.instrEnd
    dsimp only
    rw [hv, hafter, hd4, hd5]
    rfl
  have hh : v.hearths = s.hearths := by rw [← hv]; rfl
  rw [hend]
  refine ⟨?_, fun d hd => ?_, congrArg (fun z : Hearths => z.readySeq + 1) hh, ?_⟩
  · rw [State.ctx_makeReady_self]
    rw [hx, hh]
    rfl
  · rw [State.ctx_makeReady_ne v hd, ← hv]
    exact State.ctx_modCtx_ne _ _ hd
  · have hsb : SameBytes s v := by rw [← hv]; exact ⟨fun _ => rfl, fun _ => rfl, fun _ => rfl, fun _ => rfl⟩
    exact hsb

theorem yield_completes {s : State} {c : Nat} (h : IssuesPlain s c) :
    Completes (.yield c ⟨0, 0, 0⟩) s (fun t => (t.ctx c).state = .ready ∧ (t.ctx c).readySeq = s.hearths.readySeq
        ∧ t.hearths.readySeq = s.hearths.readySeq + 1 ∧ (t.ctx c).st.getLsbD 4 = false ∧ WritesAll s t c []
        ∧ (∀ d, d ≠ c → t.ctx d = s.ctx d) ∧ SameBytes s t
        ∧ CtxFrame { s.ctx c with state := .ready, wait := .none, readySeq := s.hearths.readySeq } (t.ctx c)) := by
  obtain ⟨k, e, hk⟩ := h.1.fetched_eq
  obtain ⟨hx, hother, hseq, hsb⟩ := h.1.instrEnd_yield k e
  have hcf := Ctx.retire_ctxFrame (s.ctx c) (r := { yield := true }) rfl
  have hslot : (s.ctx c).slotDue = false := h.1.2.2.2.2.2.1
  have hcf' : CtxFrame { s.ctx c with state := .ready, wait := .none, readySeq := s.hearths.readySeq } ((s.ctx c).yielded s.hearths.readySeq) := by
    refine ⟨?_, hcf.2⟩
    have h1 := congrArg (fun y : Ctx => { y with state := .ready, wait := .none, readySeq := s.hearths.readySeq, slotDue := false }) hcf.1
    exact Eq.trans h1 (by rw [← hslot])
  refine ⟨_, rfl, ?_⟩
  rw [h.1.instr_eq h.1.allows_any, hk]
  change (fun t : State => _) (s.instrEnd c (.retire { yield := true } (s.withCorr k e)))
  refine ⟨congrArg Ctx.state hx, congrArg Ctx.readySeq hx, hseq, ?_, fun r => ?_, hother, hsb, (congrArg (CtxFrame _) hx).mpr hcf'⟩
  · exact (congrArg (fun y : Ctx => y.st.getLsbD 4) hx).trans (Ctx.retire_yield_bit4 (s.ctx c))
  · exact (congrArg (fun y : Ctx => y.g r) hx).trans (Ctx.retire_g (s.ctx c) rfl r)

theorem windowAndYield : WindowAndYield := fun _ _ h => ⟨fun _ hw h8 hk hmax => niw_completes h hw h8 hk hmax, yield_completes h⟩

/-! ### Who waits for a lock (R220) -/

theorem waitsBefore_trans {a b c : Nat × Ctx} (h1 : waitsBefore b a = false) (h2 : waitsBefore c b = false) : waitsBefore c a = false := by
  simp only [waitsBefore, Bool.or_eq_false_iff, Bool.and_eq_false_iff, decide_eq_false_iff_not] at h1 h2 ⊢
  omega

theorem waitsBefore_asymm {a b : Nat × Ctx} (h : waitsBefore a b = true) : waitsBefore b a = false := by
  simp only [waitsBefore, Bool.or_eq_true, Bool.and_eq_true, decide_eq_true_eq, Bool.or_eq_false_iff, Bool.and_eq_false_iff,
    decide_eq_false_iff_not] at h ⊢
  omega

theorem waitsBefore_irrefl (a : Nat × Ctx) : waitsBefore a a = false := by simp [waitsBefore]

/-- The first waiter is one of the waiters, and none waits before it. -/
theorem firstWaiter_spec (l : List (Nat × Ctx)) (hl : l ≠ []) : ∃ r, firstWaiter l = some r ∧ r ∈ l ∧ ∀ q ∈ l, waitsBefore q r = false := by
  induction l with
  | nil => exact absurd rfl hl
  | cons a l ih =>
    unfold firstWaiter
    by_cases hnil : l = []
    · subst hnil
      exact ⟨a, rfl, by simp, by simp [waitsBefore_irrefl]⟩
    · obtain ⟨b, hb, hmem, hmin⟩ := ih hnil
      rw [hb]
      dsimp only
      by_cases hba : waitsBefore b a = true
      · refine ⟨b, if_pos hba, List.mem_cons_of_mem _ hmem, List.forall_mem_cons.mpr ⟨waitsBefore_asymm hba, hmin⟩⟩
      · refine ⟨a, if_neg hba, List.mem_cons_self .., List.forall_mem_cons.mpr ⟨waitsBefore_irrefl a, fun q hq => ?_⟩⟩
        exact waitsBefore_trans (Bool.eq_false_iff.mpr hba) (hmin q hq)

theorem Tbl.filter_ins {α : Type} (d : α) (t : Tbl α) {k : Nat} {v : α} (p : Nat × α → Bool) (hv : p (k, v) = false) (hg : p (k, Tbl.get d t k) = false) :
    (Tbl.ins t k v).filter p = t.filter p := by
  induction t with
  | nil => simp [Tbl.ins, hv]
  | cons q t ih =>
    unfold Tbl.ins
    split
    · simp [hv]
    · split
      · next h => simp_all [Tbl.get_cons]
      · next h => simp_all [Tbl.get_cons, List.filter_cons]

/-- A running context that stays running waits for nothing: who waits is as before. -/
theorem State.waiters_setCtx {s : State} {c : Nat} {x : Ctx} (hs : (s.ctx c).state = .running) (hx : x.state = .running) (w : Wait) :
    (s.setCtx c x).waiters w = s.waiters w := by
  have hne : x ≠ {} := fun h0 => by simp [h0] at hx
  have hput : (s.setCtx c x).ctxs = Tbl.ins s.ctxs c x := if_neg hne
  have hold : (decide ((s.ctx c).state = .waiting) && decide ((s.ctx c).wait = w)) = false := by rw [hs]; rfl
  have hnew : (decide (x.state = .waiting) && decide (x.wait = w)) = false := by rw [hx]; rfl
  unfold State.waiters
  rw [hput]
  exact Tbl.filter_ins ({} : Ctx) s.ctxs _ hnew hold

/-! ### LOCK and UNLOCK (R154, R220) -/

/-- The context with a lock taken. -/
def Ctx.locking (x : Ctx) (n : Nat) (w : World) : Ctx := { x with locks := x.locks ++ [{ num := n, world := w, visit := x.visit.isSome }] }

/-- LOCK of a number that its rules allow, in the order of its checks. -/
theorem State.lockTake_eq {s : State} {c : Nat} {x : Ctx} {r : Reg} (ha : x.answer = .none) (he : s.lockExc x r = none) (hlen : x.locks.length < 8) :
    s.lockTake c x r = if x.locks.any (fun l => decide ((x.g r).toNat % 65536 ≤ l.num)) then .exc { code := 0xD } s
      else if (s.lockHolder ((x.g r).toNat % 65536) (lockWorld ((x.g r).toNat % 65536) x.world)).isSome then
        .wait (.lock ((x.g r).toNat % 65536) (lockWorld ((x.g r).toNat % 65536) x.world)) s
      else .retire {} (s.modCtx c (fun y => y.locking ((x.g r).toNat % 65536) (lockWorld ((x.g r).toNat % 65536) x.world))) := by
  unfold State.lockTake
  dsimp only
  rw [ha, if_neg (by simp), he]
  dsimp only
  rw [if_neg (by omega)]
  rfl

theorem IssuesPlain.lock_eq {s : State} {c : Nat} {ra : Reg} (h : IssuesPlain s c) :
    exec (.lock c ⟨0, ra, 0⟩) s = .next (s.instrEnd c ((s.fetched c).lockTake c (s.ctx c) ra)) := by
  refine congrArg Host.Outcome.next ?_
  rw [h.1.instr_eq (h.allows _)]
  rfl

theorem IssuesPlain.unlock_eq {s : State} {c n : Nat} {w : World} {ra : Reg} {l : LockRef} (h : IssuesPlain s c)
    (hn : ((s.ctx c).g ra).toNat % 65536 = n) (hw : lockWorld n (s.ctx c).world = w) (he : s.lockExc (s.ctx c) ra = none)
    (hl : (s.ctx c).locks.find? (fun k => decide (k.num = n) && decide (k.world = w)) = some l) :
    exec (.unlock c ⟨0, ra, 0⟩) s = .next (s.instrEnd c (.retire {} ((s.fetched c).lockDrop c l))) := by
  obtain ⟨k, e, hk⟩ := h.1.fetched_eq
  have he' : (s.fetched c).lockExc (s.ctx c) ra = none := by
    rw [hk]
    exact he
  refine congrArg Host.Outcome.next ?_
  rw [h.1.instr_eq (h.allows _)]
  dsimp only
  rw [hn, hw, hl, he']
  rfl

theorem any_le_of_lt {l : List LockRef} {n : Nat} (h : ∀ k ∈ l, k.num < n) : l.any (fun k => decide (n ≤ k.num)) = false := by
  rw [List.any_eq_false]
  intro k hk
  have := h k hk
  simp only [decide_eq_true_eq]
  omega

/-- The context with a lock given up, and with a lock that it waited for. -/
def Ctx.unlocking (x : Ctx) (l : LockRef) : Ctx := { x with locks := x.locks.filter (fun m => m != l) }
def Ctx.lockGiven (x : Ctx) (n : Nat) (w : World) : Ctx :=
  { x with locks := x.locks ++ [{ num := n, world := w, visit := x.visit.isSome }], answer := .locked n }

theorem State.waiters_unlocking {s : State} {c : Nat} (hs : (s.ctx c).state = .running) (l : LockRef) (w : Wait) :
    (s.modCtx c (fun x => x.unlocking l)).waiters w = s.waiters w := State.waiters_setCtx (x := (s.ctx c).unlocking l) hs hs w

theorem State.lockDrop_none {s : State} {c : Nat} {l : LockRef} (hs : (s.ctx c).state = .running) (h : s.waiters (.lock l.num l.world) = []) :
    s.lockDrop c l = s.modCtx c (fun x => x.unlocking l) := by
  have hw := (State.waiters_unlocking hs l _).trans h
  change (s.modCtx c (fun x => x.unlocking l)).lockPass l.num l.world = _
  unfold State.lockPass
  rw [hw]
  rfl

theorem State.lockDrop_some {s : State} {c : Nat} {l : LockRef} {r : Nat × Ctx} (hs : (s.ctx c).state = .running)
    (h : firstWaiter (s.waiters (.lock l.num l.world)) = some r) :
    s.lockDrop c l = ((s.modCtx c (fun x => x.unlocking l)).modCtx r.1 (fun x => x.lockGiven l.num l.world)).makeReady r.1 := by
  have hw := (congrArg firstWaiter (State.waiters_unlocking hs l _)).trans h
  change (s.modCtx c (fun x => x.unlocking l)).lockPass l.num l.world = _
  unfold State.lockPass
  rw [hw]
  rfl

theorem SameBytes.makeReady (s : State) (c : Nat) : SameBytes s (s.makeReady c) := ⟨fun _ => rfl, fun _ => rfl, fun _ => rfl, fun _ => rfl⟩

theorem SameBytes.withCorr (s : State) (k : Tbl Nat) (e : Tbl (List Nat)) : SameBytes s (s.withCorr k e) :=
  ⟨fun _ => rfl, fun _ => rfl, fun _ => rfl, fun _ => rfl⟩

section
variable {s : State} {c n : Nat} {w : World} {ra : Reg} {l : LockRef} (h : IssuesPlain s c) (hn : ((s.ctx c).g ra).toNat % 65536 = n)
  (hw : lockWorld n (s.ctx c).world = w) (he : s.lockExc (s.ctx c) ra = none)
  (hl : (s.ctx c).locks.find? (fun k => decide (k.num = n) && decide (k.world = w)) = some l)
include h hn hw he hl

theorem IssuesPlain.unlock_none (hnone : s.waiters (.lock n w) = []) :
    Completes (.unlock c ⟨0, ra, 0⟩) s (fun t => (t.ctx c).locks = (s.ctx c).locks.filter (fun k => k != l) ∧ WritesAll s t c []
      ∧ CtxFrame { s.ctx c with locks := (t.ctx c).locks } (t.ctx c) ∧ Beside s t c ∧ SameBytes s t) := by
  obtain ⟨k1, e, hk⟩ := h.1.fetched_eq
  obtain ⟨hnum, hworld⟩ : l.num = n ∧ l.world = w := by simpa using List.find?_some hl
  obtain ⟨hx, hwr, hdl, hcf, hb, hsb⟩ := h.1.retire_mod (r := {}) rfl rfl rfl k1 e (g := fun y => y.unlocking l) rfl ⟨rfl, rfl, rfl, rfl, rfl⟩
  have hun := h.unlock_eq hn hw he hl
  rw [hk, State.lockDrop_none (s := s.withCorr k1 e) h.1.1 (by rw [hnum, hworld]; exact hnone)] at hun
  have hlocks := hcf.locks
  refine ⟨_, hun, hlocks, hwr, ?_, hb, hsb⟩
  rw [hlocks]
  exact hcf

theorem IssuesPlain.unlock_pass {k : Nat} (hkc : k ≠ c) (hmem : (k, s.ctx k) ∈ s.waiters (.lock n w))
    (hmin : ∀ p ∈ s.waiters (.lock n w), p.1 ≠ k → waitsBefore (k, s.ctx k) p = true) :
    Completes (.unlock c ⟨0, ra, 0⟩) s (fun t => (t.ctx c).locks = (s.ctx c).locks.filter (fun k => k != l)
      ∧ (t.ctx k).locks = (s.ctx k).locks ++ [{ num := n, world := w, visit := (s.ctx k).visit.isSome }]
      ∧ (t.ctx k).state = .ready ∧ (t.ctx k).answer = .locked n ∧ WritesAll s t c []
      ∧ CtxFrame { s.ctx c with locks := (t.ctx c).locks } (t.ctx c) ∧ (∀ d, d ≠ c → d ≠ k → t.ctx d = s.ctx d) ∧ SameBytes s t) := by
  obtain ⟨k1, e, hk⟩ := h.1.fetched_eq
  obtain ⟨hnum, hworld⟩ : l.num = n ∧ l.world = w := by simpa using List.find?_some hl
  obtain ⟨r, hr, hrmem, hrmin⟩ := firstWaiter_spec (s.waiters (.lock n w)) (List.ne_nil_of_mem hmem)
  have hrk : r.1 = k := Classical.byContradiction fun hne => by
    have h1 := hmin r hrmem hne
    rw [hrmin _ hmem] at h1
    exact Bool.false_ne_true h1
  have hdrop := State.lockDrop_some (s := s.withCorr k1 e) (c := c) (l := l) (r := r) h.1.1 (by rw [hnum, hworld]; exact hr)
  have hun := h.unlock_eq hn hw he hl
  rw [hk, hdrop, hrk, hnum, hworld] at hun
  generalize hv : (s.withCorr k1 e).modCtx c (fun x => x.unlocking l) = v at hun
  have hvc : v.ctx c = (s.ctx c).unlocking l := by rw [← hv, State.ctx_modCtx_self, State.withCorr_ctx]
  have hvd : ∀ d, d ≠ c → v.ctx d = s.ctx d := fun d hd => by rw [← hv, State.ctx_modCtx_ne _ _ hd, State.withCorr_ctx]
  have hvs : SameBytes s v := hv ▸ (SameBytes.withCorr s k1 e).trans (.modCtx ..)
  generalize hu : (v.modCtx k (fun x => x.lockGiven n w)).makeReady k = u at hun
  have huc : u.ctx c = (s.ctx c).unlocking l := by rw [← hu, State.ctx_makeReady_ne _ hkc.symm, State.ctx_modCtx_ne _ _ hkc.symm, hvc]
  have hud : ∀ d, d ≠ c → d ≠ k → u.ctx d = s.ctx d := fun d hc hd => by
    rw [← hu, State.ctx_makeReady_ne _ hd, State.ctx_modCtx_ne _ _ hd, hvd d hc]
  have huk : u.ctx k = { (s.ctx k).lockGiven n w with state := .ready, wait := .none, readySeq := v.hearths.readySeq, slotDue := false } := by
    rw [← hu, State.ctx_makeReady_self, State.ctx_modCtx_self, hvd k hkc]
    rfl
  have hsb : SameBytes s u := hu ▸ (hvs.trans (.modCtx ..)).trans (.makeReady ..)
  have hg : (s.ctx c).Changes (u.ctx c) := huc ▸ ⟨rfl, rfl, rfl, rfl, rfl⟩
  have hret := h.1.retiredFrom (u := u) (r := {}) rfl rfl hg
  have hcf := huc ▸ hret.ctxFrame rfl
  have hlocks := hcf.locks
  have htk := (hret.other k hkc).trans huk
  refine ⟨_, hun, hlocks, congrArg Ctx.locks htk, congrArg Ctx.state htk, congrArg Ctx.answer htk, (hret.writes rfl hg).1, ?_,
    fun d hc hd => (hret.other d hc).trans (hud d hc hd), hret.sameBytes hsb⟩
  rw [hlocks]
  exact hcf

end

theorem locksFollowOrder : LocksFollowOrder := by
  unfold LocksFollowOrder
  intro s c ra h hans x n w hexc
  obtain ⟨k1, e, hk⟩ := h.1.fetched_eq
  have hexc' : (s.fetched c).lockExc (s.ctx c) ra = none := by
    rw [hk]
    exact hexc
  have hholder : (s.fetched c).lockHolder n w = s.lockHolder n w := by
    rw [hk]
    rfl
  have htake := fun hlen => State.lockTake_eq (c := c) hans hexc' hlen
  refine ⟨fun hlen hord hfree => ?take, fun hlen hord hheld => ?wait, fun hlen hbad => ?order, fun l hl => ⟨fun hnone => ?unlock, ?pass⟩⟩
  case take =>
    have hw := htake hlen
    rw [any_le_of_lt hord, if_neg Bool.false_ne_true, hholder, hfree, if_neg (by simp), hk] at hw
    obtain ⟨hx, hwr, hdl, hcf, hb, hsb⟩ := h.1.retire_mod (r := {}) rfl rfl rfl k1 e
      (g := fun y => y.locking (((s.ctx c).g ra).toNat % 65536) (lockWorld (((s.ctx c).g ra).toNat % 65536) (s.ctx c).world))
      rfl ⟨rfl, rfl, rfl, rfl, rfl⟩
    refine ⟨_, h.lock_eq, ?_⟩
    rw [hk, hw]
    have hlocks := hcf.locks
    refine ⟨hlocks, hwr, ?_, hb, hsb⟩
    rw [hlocks]
    exact hcf
  case wait =>
    have hw := htake hlen
    rw [any_le_of_lt hord, if_neg Bool.false_ne_true, hholder, hheld, if_pos rfl] at hw
    refine ⟨_, h.lock_eq, ?_⟩
    rw [hw]
    have hdue : (s.ctx c).due = none := h.1.2.2.2.2.1
    have hent : s.instrEnd c (.wait (.lock n w) (s.fetched c)) = (s.fetched c).modCtx c (fun x => { x with
        state := .waiting, wait := .lock n w, waitSince := (s.fetched c).now, st := BitVec.ofNat 64 (windowAfter x.st.toNat 127) }) := by
      change (s.fetched c).enterWait c (.lock n w) = _
      unfold State.enterWait
      dsimp only
      rw [State.fetched_ctx, hdue]
      rfl
    rw [hent, State.ctx_modCtx_self, State.fetched_ctx]
    exact ⟨rfl, rfl, rfl⟩
  case order =>
    have hw := htake hlen
    have hany : x.locks.any (fun l => decide (n ≤ l.num)) = true := by
      obtain ⟨l, hl, hle⟩ := hbad
      exact List.any_eq_true.mpr ⟨l, hl, decide_eq_true hle⟩
    rw [if_pos hany] at hw
    refine congrArg Host.Outcome.next (h.instr_exc (p := norepPlace) ?_ rfl)
    exact hw
  case unlock => exact h.unlock_none rfl rfl hexc hl hnone
  case pass => exact fun k hkc hmem hmin => h.unlock_pass rfl rfl hexc hl hkc hmem hmin

/-- Settles O13: by the status that NIW and YIELD leave, and by who holds a lock and who waits for it. -/
theorem windowsYieldsAndLocks : Obligations.WindowsYieldsAndLocks := ⟨windowAndYield, locksFollowOrder⟩

end Sys2Proof.Machine

namespace Sys2Proof.Machine

/-! ### The cross gate (R196 to R199) -/

theorem Ctx.flush_of_none {x : Ctx} (h : x.delayed = []) : x.flush = x := by
  unfold Ctx.flush
  rw [h]
  exact congrArg (fun l => { x with delayed := l }) h.symm

theorem Tbl.get_highRegs (regs : Tbl W64) (f : Nat → W64) (k : Nat) :
    Tbl.get 0 (highRegs regs f) k = if 8 ≤ k ∧ k < 32 then f (k - 8) else Tbl.get 0 regs k := by
  have hfold : ∀ n, Tbl.get 0 ((List.range n).foldl (fun t i => Tbl.put 0 t (8 + i) (f i)) regs) k
      = if 8 ≤ k ∧ k < 8 + n then f (k - 8) else Tbl.get 0 regs k := by
    intro n
    induction n with
    | zero => simp
    | succ n ih =>
      rw [List.range_succ, List.foldl_append, List.foldl_cons, List.foldl_nil]
      by_cases hk : k = 8 + n
      · subst hk
        rw [Tbl.get_put_self, if_pos (by omega), Nat.add_sub_cancel_left]
      · rw [Tbl.get_put_ne _ _ _ hk, ih]
        refine if_congr ?_ rfl rfl
        omega
  exact hfold 24

theorem length_flatMap_leBytes (n k : Nat) (f : Nat → Nat) : ((List.range n).flatMap (fun i => leBytes k (f i))).length = n * k := by
  simp [List.length_flatMap, leBytes_length]

theorem Ctx.length_frame (x : Ctx) (n : Nat) : (x.frame n).length = 256 := by
  unfold Ctx.frame
  simp only [List.length_append, length_flatMap_leBytes, leBytes_length, List.length_replicate]

/-- The frame of a cross gate in terms of the caller's registers (R199). -/
theorem Ctx.frame_eq (x : Ctx) (n : BitVec 8) : x.frame n.toNat = (List.range 24).flatMap (fun i => leBytes 8 (x.g (Fin.ofNat 32 (8 + i))).toNat)
    ++ leBytes 4 x.lc ++ leBytes 4 x.rc ++ leBytes 8 x.ls.toNat ++ leBytes 8 x.le.toNat ++ leBytes 8 x.st.toNat ++ leBytes 8 (x.pc + 4).toNat
    ++ [n] ++ List.replicate 23 0 := by
  have hn : leBytes 1 n.toNat = [n] := by simp [leBytes]
  have hg : (List.range 24).flatMap (fun i => leBytes 8 (Tbl.get 0 x.regs (8 + i)).toNat)
      = (List.range 24).flatMap (fun i => leBytes 8 (x.g (Fin.ofNat 32 (8 + i))).toNat) := by
    refine List.flatMap_congr fun i hi => ?_
    rw [List.mem_range] at hi
    have hval : (Fin.ofNat 32 (8 + i)).val = 8 + i := Nat.mod_eq_of_lt (by omega)
    unfold Ctx.g
    rw [if_neg (fun h0 => by have := congrArg Fin.val h0; rw [hval] at this; simp at this), hval]
  unfold Ctx.frame
  rw [hn, hg]

/-- The context in the other world, entered through its gate (R198). -/
def Ctx.gated (x : Ctx) (fa n : Nat) (w : World) (pc : W64) : Ctx :=
  { x with
    visit := some { frame := fa, callerSuper := x.super1, callerWorld := w }
    regs := highRegs x.regs (fun _ => 0), lc := 0, ls := 0, le := 0, rc := 0
    gate := { pc := 0, st := BitVec.ofNat 64 (bits x.st.toNat 2 2 * 4), x := ({ code := 0xB } : Exc).svx n false }
    st := BitVec.ofNat 64 (4 + 8 * w.other.bit), pc := pc, shadow := true, retired := x.retired + 1 }

theorem State.SameRights.allowed {s t : State} (h : s.SameRights t) (w : World) (sup : Bool) (k : AccKind) (fuel a n : Nat) :
    t.allowed w sup k fuel a n = s.allowed w sup k fuel a n := by
  induction fuel generalizing a n with
  | zero => rfl
  | succ fuel ih =>
    unfold State.allowed
    simp only [h.deny, ih]

theorem State.SameRights.denyAll {s t : State} (h : s.SameRights t) (w : World) (sup : Bool) (k : AccKind) (a n : Nat) :
    t.denyAll w sup k a n = s.denyAll w sup k a n := by
  unfold State.denyAll
  rw [h.allowed]

theorem State.crossGate_eq {s : State} {c n entry fa : Nat} (hst : (s.ctx c).stores = []) (hasync : (s.ctx c).asyncErr = none)
    (hdel : (s.ctx c).delayed = []) (hfa : (s.wcfg (s.home c)).frameBase + 256 * c = fa)
    (hdeny : s.denyAll (s.home c) true .write fa 256 = none) (hin : fa + 256 ≤ windowBase) :
    s.crossGate c n entry = .ended (((((s.relist c).countWorld (s.home c) 12 256).pnWrite fa ((s.ctx c).frame n))).setCtx c
      ((s.ctx c).gated fa n (s.home c) (BitVec.ofNat 64 ((s.wcfg (s.home c).other).kernelAddr + 4 * entry)))) := by
  have hx := State.ctx_relist s c c
  have hasy : (s.relist c).asyncAt c = (none, s.relist c) := by
    unfold State.asyncAt
    rw [hx, hasync]
  have hdeny' : (s.relist c).denyAll (s.home c) true .write fa 256 = none := ((State.SameRights.relist s c).denyAll ..).trans hdeny
  have hlen := (s.ctx c).length_frame n
  unfold State.crossGate
  rw [State.issueStores_none hst, hasy]
  dsimp only
  rw [hx, Ctx.flush_of_none hdel, hfa, hdeny']
  dsimp only
  rw [State.placeBytes_pantry (List.ne_nil_of_length_pos (by omega)) (by rw [hlen]; exact hin), hlen]
  rfl

theorem Ctx.gated_g (x : Ctx) (fa n : Nat) (w : World) (pc : W64) (r : Reg) : (x.gated fa n w pc).g r = if r.val < 8 then x.g r else 0 := by
  have hregs : (x.gated fa n w pc).regs = highRegs x.regs (fun _ => 0) := by simp only [Ctx.gated]
  unfold Ctx.g
  rw [hregs, Tbl.get_highRegs]
  have hr := r.isLt
  by_cases h0 : r = 0
  · subst h0
    rfl
  · by_cases h8 : r.val < 8
    · simp [h0, h8, Nat.not_le.mpr h8]
    · simp [h0, h8, hr, Nat.not_lt.mp h8]

theorem gate_status (v : W64) : BitVec.ofNat 64 (bits v.toNat 2 2 * 4) = v &&& 12 := by
  have hmask : ∀ i < 64, (12 : W64).getLsbD i = decide (2 ≤ i ∧ i < 4) := by decide
  refine BitVec.eq_of_getLsbD_eq fun i hi => ?_
  rw [BitVec.getLsbD_and, hmask i hi, BitVec.getLsbD_ofNat]
  have hm : bits v.toNat 2 2 * 4 = bits v.toNat 2 2 * 2 ^ 2 := rfl
  rw [hm, Nat.testBit_mul_two_pow]
  unfold bits
  rw [Nat.testBit_mod_two_pow, Nat.testBit_div_two_pow]
  rcases Nat.lt_or_ge i 2 with h | h
  · simp [show ¬2 ≤ i by omega]
  · simp [h, hi, BitVec.getLsbD, show i - 2 < 2 ↔ i < 4 by omega, Bool.and_comm]

/-- The state in which the caller's frame has been written and the other world entered. -/
def State.gateEntered (s : State) (c fa : Nat) (w v : World) (d : List Byte) (x : Ctx) : State :=
  (((s.relist c).countWorld w 12 256).pnWrite fa d).setCtx c x |>.countWorld v 6 1

theorem State.gateEntered_ctx (s : State) (c fa : Nat) (w v : World) (d : List Byte) (x : Ctx) : (s.gateEntered c fa w v d x).ctx c = x :=
  State.ctx_setCtx_self ..

theorem State.gateEntered_beside (s : State) (c fa : Nat) (w v : World) (d : List Byte) (x : Ctx) : BesideBlock s (s.gateEntered c fa w v d x) c := by
  refine ⟨fun e he => (State.ctx_setCtx_ne (((s.relist c).countWorld w 12 256).pnWrite fa d) x he).trans (State.ctx_relist s c e), ?_⟩
  unfold State.gateEntered State.relist State.modCtx State.setCtx State.countWorld State.countBank State.pnWrite State.modPn
  rfl

theorem State.gateEntered_mem (s : State) (c fa : Nat) (w v : World) (d : List Byte) (x : Ctx) :
    (s.gateEntered c fa w v d x).pantry.mem = Memory.write 0 s.pantry.mem fa d := rfl

theorem BesideBlock.of_withCorr {s t : State} {c : Nat} {k : Tbl Nat} {e : Tbl (List Nat)} (h : BesideBlock (s.withCorr k e) t c) : BesideBlock s t c :=
  ⟨h.1, (congrArg (fun v : State => v.withCorr s.pantry.corr s.pantry.errs) h.2 :)⟩

/-- Settles O11: the gate's checks pass, the frame is written to Pantry, and the context enters the other world. -/
theorem crossGateEntersOtherWorld : Obligations.CrossGateEntersOtherWorld := by
  unfold Obligations.CrossGateEntersOtherWorld
  intro s c n h hwin hdel x w g fa hg hfrom hvis hst hkern hhalt hw hdeny hin
  obtain ⟨k, e, hk⟩ := h.1.fetched_eq
  have htrap : (s.withCorr k e).trap c n.toNat = (s.withCorr k e).crossGate c n.toNat (bits g 8 24) := by
    have h1 : (decide (g % 4 = 1) && (if x.super1 then bitAt g 3 else bitAt g 2)) = false := by rw [hg]; rfl
    have h2 : (decide (g % 4 = 2) && (if x.super1 then bitAt g 3 else bitAt g 2) && x.visit.isNone
        && ((s.wcfg x.world.other).kernel && !(s.fc.graniteHalt && decide (x.world.other = .granite)))) = true := by
      have h3 : (s.fc.graniteHalt && decide (x.world.other = .granite)) = false := by simpa using hhalt
      rw [hg, hfrom, hvis, hkern, h3]
      rfl
    exact (if_neg (ne_true_of_eq_false h1)).trans (if_pos h2)
  have hgate := State.crossGate_eq (s := s.withCorr k e) (c := c) (n := n.toNat) (entry := bits g 8 24) (fa := fa) hst h.1.2.2.2.1 hdel rfl
    (((State.SameRights.withCorr s k e).denyAll ..).trans hdeny) hin
  have hexec : exec (.trap c n 0) s = .next ((s.withCorr k e).gateEntered c fa w w (x.frame n.toNat)
      (x.gated fa n.toNat w (BitVec.ofNat 64 ((s.wcfg w.other).kernelAddr + 4 * bits g 8 24)))) := by
    refine congrArg Host.Outcome.next ?_
    have hl : (decide ((0 : BitVec 18) = 0) && !(s.ctx c).inWindow) = true := by rw [hwin]; rfl
    rw [h.1.instr_eq (h.allows _), hl, hk]
    change s.instrEnd c ((s.withCorr k e).trap c n.toNat) = _
    rw [htrap, hgate]
    rfl
  have hx := State.gateEntered_ctx (s.withCorr k e) c fa w w (x.frame n.toNat)
      (x.gated fa n.toNat w (BitVec.ofNat 64 ((s.wcfg w.other).kernelAddr + 4 * bits g 8 24)))
  have hm := State.gateEntered_mem (s.withCorr k e) c fa w w (x.frame n.toNat)
      (x.gated fa n.toNat w (BitVec.ofNat 64 ((s.wcfg w.other).kernelAddr + 4 * bits g 8 24)))
  have hb := (State.gateEntered_beside (s.withCorr k e) c fa w w (x.frame n.toNat)
      (x.gated fa n.toNat w (BitVec.ofNat 64 ((s.wcfg w.other).kernelAddr + 4 * bits g 8 24)))).of_withCorr
  generalize (s.withCorr k e).gateEntered c fa w w (x.frame n.toNat)
      (x.gated fa n.toNat w (BitVec.ofNat 64 ((s.wcfg w.other).kernelAddr + 4 * bits g 8 24))) = t at hexec hx hm hb
  have hlen := x.length_frame n.toNat
  refine ⟨t, hexec, congrArg Ctx.visit hx, ?_, congrArg Ctx.pc hx, fun r => (Ctx.g_congr (congrArg Ctx.regs hx) r).trans (Ctx.gated_g ..),
    congrArg Ctx.lc hx, congrArg Ctx.ls hx, congrArg Ctx.le hx, congrArg Ctx.rc hx, ?_, ?_, ?_, hb, fun a ha => ?_⟩
  · refine (congrArg Ctx.st hx).trans ?_
    change BitVec.ofNat 64 (4 + 8 * w.other.bit) = _
    cases w <;> rfl
  · exact (congrArg Ctx.gate hx).trans (congrArg (fun v : W64 => ({ pc := 0, st := v, x := ({ code := 0xB } : Exc).svx n.toNat false } : SaveSet))
      (gate_status x.st))
  · rw [← Ctx.frame_eq, State.pnBytes, hm, ← hlen]
    exact Memory.bytes_write ..
  · rw [hx]
    exact ⟨rfl, fun _ _ _ => rfl⟩
  · rw [hm, Memory.byte_write_of_out _ _ _ _ (by rw [hlen]; exact ha)]
    rfl

end Sys2Proof.Machine

namespace Sys2Proof.Machine

/-! ### The fields of a word (R128) -/

theorem wField_ofNat {v lo n : Nat} (h : v < 2 ^ 32) : wField (BitVec.ofNat 32 v) lo n = v / 2 ^ lo % 2 ^ n := by
  unfold wField
  rw [BitVec.toNat_ofNat, Nat.mod_eq_of_lt h]

theorem wReg_eq {w : W32} {lo : Nat} {r : Reg} (h : wField w lo 5 = r.val) : wReg w lo = r := by
  unfold wReg
  rw [h]
  exact Fin.ext (Nat.mod_eq_of_lt r.isLt)

theorem ofNat_wField {w : W32} {n : Nat} {v : BitVec n} {lo k : Nat} (h : wField w lo k = v.toNat) : BitVec.ofNat n (wField w lo k) = v := by
  rw [h, BitVec.ofNat_toNat, BitVec.setWidth_eq]

theorem wordA_lt {op fn : Nat} (f : FmtA) (hop : op < 64) (hfn : fn < 2048) :
    op * 2 ^ 26 + f.rd.val * 2 ^ 21 + f.ra.val * 2 ^ 16 + f.rb.val * 2 ^ 11 + fn < 2 ^ 32 := by
  have h1 := f.rd.isLt
  have h2 := f.ra.isLt
  have h3 := f.rb.isLt
  omega

/-- The word of format A spells its opcode, its function and its registers. -/
theorem wordA_fields {op fn : Nat} (f : FmtA) (hop : op < 64) (hfn : fn < 2048) :
    wField (wordA op fn f) 26 6 = op ∧ wField (wordA op fn f) 0 11 = fn ∧ fmtA (wordA op fn f) = f := by
  have hlt := wordA_lt f hop hfn
  have h1 := f.rd.isLt
  have h2 := f.ra.isLt
  have h3 := f.rb.isLt
  unfold wordA
  refine ⟨by rw [wField_ofNat hlt]; omega, by rw [wField_ofNat hlt]; omega, ?_⟩
  unfold fmtA
  rw [wReg_eq (r := f.rd) (by rw [wField_ofNat hlt]; omega), wReg_eq (r := f.ra) (by rw [wField_ofNat hlt]; omega),
    wReg_eq (r := f.rb) (by rw [wField_ofNat hlt]; omega)]

theorem wordI_fields {op : Nat} (f : FmtI) (hop : op < 64) :
    wField (wordI op f) 26 6 = op ∧ wField (wordI op f) 0 16 = f.imm.toNat ∧ (fmtA (wordI op f)).rd = f.rd ∧ (fmtA (wordI op f)).ra = f.ra
      ∧ fmtI (wordI op f) = f := by
  have h1 := f.rd.isLt
  have h2 := f.ra.isLt
  have h3 := f.imm.isLt
  have hlt : op * 2 ^ 26 + f.rd.val * 2 ^ 21 + f.ra.val * 2 ^ 16 + f.imm.toNat < 2 ^ 32 := by omega
  have himm : wField (wordI op f) 0 16 = f.imm.toNat := by
    unfold wordI
    rw [wField_ofNat hlt]
    omega
  have hrd : wReg (wordI op f) 21 = f.rd := wReg_eq (by unfold wordI; rw [wField_ofNat hlt]; omega)
  have hra : wReg (wordI op f) 16 = f.ra := wReg_eq (by unfold wordI; rw [wField_ofNat hlt]; omega)
  refine ⟨by unfold wordI; rw [wField_ofNat hlt]; omega, himm, hrd, hra, ?_⟩
  unfold fmtI
  rw [hrd, hra, ofNat_wField himm]

theorem wordM_fields {op : Nat} (f : FmtM) (hop : op < 64) : wField (wordM op f) 26 6 = op ∧ fmtM (wordM op f) = f := by
  have h1 := f.rd.isLt
  have h2 := f.ra.isLt
  have h3 := f.mode.isLt
  have h4 := f.low.isLt
  have hlt : op * 2 ^ 26 + f.rd.val * 2 ^ 21 + f.ra.val * 2 ^ 16 + f.mode.toNat * 2 ^ 14 + f.low.toNat < 2 ^ 32 := by omega
  unfold wordM
  refine ⟨by rw [wField_ofNat hlt]; omega, ?_⟩
  unfold fmtM
  rw [wReg_eq (r := f.rd) (by rw [wField_ofNat hlt]; omega), wReg_eq (r := f.ra) (by rw [wField_ofNat hlt]; omega),
    ofNat_wField (v := f.mode) (by rw [wField_ofNat hlt]; omega), ofNat_wField (v := f.low) (by rw [wField_ofNat hlt]; omega)]

theorem wordF_fields {op : Nat} (f : FmtF) (hop : op < 64) : wField (wordF op f) 26 6 = op ∧ fmtF (wordF op f) = f := by
  obtain ⟨rd, ra, pos, len1, sx, rsv⟩ := f
  have h1 := rd.isLt
  have h2 := ra.isLt
  have h3 := pos.isLt
  have h4 := len1.isLt
  have h5 := rsv.isLt
  generalize hb : (if sx = true then 8 else 0) = b
  have hb8 : b = 8 ∧ sx = true ∨ b = 0 ∧ sx = false := by cases sx <;> simp_all
  have hlt : op * 2 ^ 26 + rd.val * 2 ^ 21 + ra.val * 2 ^ 16 + pos.toNat * 2 ^ 10 + len1.toNat * 2 ^ 4 + b + rsv.toNat < 2 ^ 32 := by omega
  have hs : decide (wField (BitVec.ofNat 32 (op * 2 ^ 26 + rd.val * 2 ^ 21 + ra.val * 2 ^ 16 + pos.toNat * 2 ^ 10 + len1.toNat * 2 ^ 4 + b
      + rsv.toNat)) 3 1 = 1) = sx := by
    rw [wField_ofNat hlt]
    rcases hb8 with ⟨rfl, rfl⟩ | ⟨rfl, rfl⟩
    · rw [decide_eq_true_eq]; omega
    · rw [decide_eq_false_iff_not]; omega
  unfold wordF
  dsimp only
  rw [hb]
  refine ⟨by rw [wField_ofNat hlt]; omega, ?_⟩
  unfold fmtF
  rw [wReg_eq (r := rd) (by rw [wField_ofNat hlt]; omega), wReg_eq (r := ra) (by rw [wField_ofNat hlt]; omega),
    ofNat_wField (v := pos) (by rw [wField_ofNat hlt]; omega), ofNat_wField (v := len1) (by rw [wField_ofNat hlt]; omega),
    ofNat_wField (v := rsv) (by rw [wField_ofNat hlt]; omega), hs]

/-! ### The rows of the opcode map (R128 to R130) -/

section
variable {c n : Nat} {g : Reg → W64}

/-- What the map gives a word of format A, by its opcode and function. -/
def hearthA (c n : Nat) (g : Reg → W64) (f : FmtA) : Nat → Nat → Option Instr
  | 0x00, fn => aluRow c f fn
  | 0x01, fn => muldivRow c f fn
  | 0x02, fn => cmpRow c f fn
  | 0x03, fn => sysRow c f fn
  | 0x24, fn => jumpRow c f fn
  | 0x28, fn => blockRow c n f fn
  | 0x30, fn => portRow c f (g f.rb) fn
  | 0x31, fn => streamRow c f fn
  | 0x3D, fn => ctlRow c f fn
  | 0x3E, fn => flintRow c n f fn
  | _, _ => none

theorem hearthWord_of_hearthA {w : W32} {op fn : Nat} {f : FmtA} {i : Instr} (h1 : wField w 26 6 = op) (h2 : wField w 0 11 = fn) (h3 : fmtA w = f)
    (hop : op ∈ (functionRows n).map Prod.fst) (h : hearthA c n g f op fn = some i) : hearthWord c n g w = .row i := by
  simp only [functionRows, List.map_cons, List.map_nil, List.mem_cons, List.not_mem_nil, or_false] at hop
  unfold hearthWord
  dsimp only
  rw [h1, h2, h3]
  rcases hop with rfl | rfl | rfl | rfl | rfl | rfl | rfl | rfl | rfl | rfl <;> exact congrArg HearthWord.ofRow h

theorem hearthWord_wordA {op fn : Nat} {f : FmtA} {i : Instr} (hop : op ∈ (functionRows n).map Prod.fst) (hfn : fn < 2048)
    (h : hearthA c n g f op fn = some i) : hearthWord c n g (wordA op fn f) = .row i := by
  have hlt : op < 64 := by
    simp only [functionRows, List.map_cons, List.map_nil, List.mem_cons, List.not_mem_nil, or_false] at hop
    omega
  obtain ⟨h1, h2, h3⟩ := wordA_fields (op := op) (fn := fn) f hlt hfn
  exact hearthWord_of_hearthA h1 h2 h3 hop h

theorem functionRows_spell : ∀ row ∈ functionRows n, ∀ k i, row.2[k]? = some i → ∀ f, hearthWord c n g (wordA row.1 (k + 1) f) = .row (i c f) := by
  intro row hrow k i hi f
  have hop : row.1 ∈ (functionRows n).map Prod.fst := List.mem_map_of_mem hrow
  obtain ⟨hk, rfl⟩ := List.getElem?_eq_some_iff.mp hi
  have hrow' : k < 18 ∧ hearthA c n g f row.1 (k + 1) = some (row.2[k] c f) := by
    clear hop hi
    simp only [functionRows, List.mem_cons, List.not_mem_nil, or_false] at hrow
    rcases hrow with rfl | rfl | rfl | rfl | rfl | rfl | rfl | rfl | rfl | rfl
    all_goals
      simp only [List.length_cons, List.length_nil] at hk
      refine ⟨by omega, ?_⟩
      interval_cases k <;> rfl
  exact hearthWord_wordA hop (by omega) hrow'.2

/-- The rows of PORT that the value of register rb selects (R155, R305). -/
theorem pcmdRows_spell {k : Nat} {i : Nat → FmtA → Instr} (hi : pcmdRows[k]? = some i) (f : FmtA) (hg : (g f.rb).toNat % 256 = k + 1) :
    hearthWord c n g (wordA 0x30 6 f) = .row (i c f) := by
  refine hearthWord_wordA (by simp [functionRows]) (by decide) (congrArg some ?_)
  rw [hg]
  obtain ⟨hk, rfl⟩ := List.getElem?_eq_some_iff.mp hi
  simp only [pcmdRows, List.length_cons, List.length_nil] at hk
  interval_cases k <;> rfl

theorem fmkRows_spell {k : Nat} {i : Nat → MarkVia → Instr}
    (hi : ([.setRx, .setTx, .releaseRx, .releaseTx, .rewindRx] : List (Nat → MarkVia → Instr))[k]? = some i) (f : FmtA)
    (hg : (g f.rb).toNat % 8 = k) : hearthWord c n g (wordA 0x30 5 f) = .row (i c (.fmk f.rd f.ra f.rb)) := by
  refine hearthWord_wordA (by simp [functionRows]) (by decide) (congrArg some ?_)
  rw [hg]
  obtain ⟨hk, rfl⟩ := List.getElem?_eq_some_iff.mp hi
  simp only [List.length_cons, List.length_nil] at hk
  interval_cases k <;> rfl

theorem rewindTx_spell (f : FmtA) (hg : (g f.rb).toNat % 8 = 5) : hearthWord c n g (wordA 0x30 5 f) = .row (.rewindTx c f) := by
  refine hearthWord_wordA (by simp [functionRows]) (by decide) (congrArg some ?_)
  rw [hg]
  rfl

section
variable {w : W32} {f : FmtA} {fn : Nat} (h2 : wField w 0 11 = fn) (h3 : fmtA w = f)
include h2 h3

theorem hearthWord_waite (h1 : wField w 26 6 = 0x32) (h0 : fn = 0) : hearthWord c n g w = .row (.waite c f) := by
  unfold hearthWord
  dsimp only
  rw [h1, h2, h3, h0]
  rfl

theorem hearthWord_leave (h1 : wField w 26 6 = 0x34) (h0 : fn = 0) : hearthWord c n g w = .row (.leaveInstr c f) := by
  unfold hearthWord
  dsimp only
  rw [h1, h2, h3, h0]
  rfl

theorem hearthWord_drd (h1 : wField w 26 6 = 0x33) {item : BitVec 8} (h0 : fn = item.toNat * 8 + 1) : hearthWord c n g w = .row (.drd c f item) := by
  unfold hearthWord
  dsimp only
  rw [h1, h2, h3, show fn % 8 = 1 by omega, show fn / 8 = item.toNat by omega, BitVec.ofNat_toNat, BitVec.setWidth_eq]
  rfl

theorem hearthWord_dwr (h1 : wField w 26 6 = 0x33) {k : Nat} {i : Nat → FmtA → Instr} (hi : itemRows[k]? = some i) (h0 : fn = (k + 1) * 8 + 2) :
    hearthWord c n g w = .row (i c f) := by
  obtain ⟨hk, rfl⟩ := List.getElem?_eq_some_iff.mp hi
  have hrow : driveRow c f (k + 1) = some (itemRows[k] c f) := by
    simp only [itemRows, List.length_cons, List.length_nil] at hk
    interval_cases k <;> rfl
  unfold hearthWord
  dsimp only
  rw [h1, h2, h3, show fn % 8 = 2 by omega, show fn / 8 = k + 1 by omega, hrow]
  rfl

theorem hearthWord_crc (h1 : wField w 26 6 = 0x3C) {alg : BitVec 4} {size : BitVec 2} {rsv : BitVec 4} {b : Nat} (hb : b < 2)
    (h0 : fn = alg.toNat * 128 + size.toNat * 32 + 16 * b + rsv.toNat) :
    hearthWord c n g w = .row (if b = 1 then .crcb c f alg size rsv n else .crc c f alg size rsv) := by
  have h4 := size.isLt
  have h5 := rsv.isLt
  have hop : ∀ l s r : Nat, l = alg.toNat → s = size.toNat → r = rsv.toNat →
      BitVec.ofNat 4 l = alg ∧ BitVec.ofNat 2 s = size ∧ BitVec.ofNat 4 r = rsv := by
    rintro _ _ _ rfl rfl rfl
    simp
  obtain ⟨ha, hs, hr⟩ := hop (fn / 128) (fn / 32 % 4) (fn % 16) (by omega) (by omega) (by omega)
  unfold hearthWord
  dsimp only
  rw [h1, h2, h3, ha, hs, hr, show fn / 16 % 2 = b by omega]
  rfl

end

/-- The rows of the formats I and M, and of SHIFTI, in the order of their opcodes or kinds. -/
theorem hearthWord_imm {w : W32} {f : FmtI} {k : Nat} {i : Nat → FmtI → Instr} (h1 : wField w 26 6 = 0x04 + k) (h2 : fmtI w = f)
    (hi : ([.addi, .andi, .ori, .xori, .ceqi, .clti, .cltui, .seth] : List (Nat → FmtI → Instr))[k]? = some i) :
    hearthWord c n g w = .row (i c f) := by
  obtain ⟨hk, rfl⟩ := List.getElem?_eq_some_iff.mp hi
  unfold hearthWord
  dsimp only
  rw [h1, h2]
  simp only [List.length_cons, List.length_nil] at hk
  interval_cases k <;> rfl

theorem hearthWord_shift {w : W32} {rd ra : Reg} {rsv : BitVec 8} {amount : BitVec 6} {k : Nat} {i : Nat → Reg → Reg → BitVec 8 → BitVec 6 → Instr}
    (h1 : wField w 26 6 = 0x0C) (h2 : (fmtA w).rd = rd) (h3 : (fmtA w).ra = ra)
    (h4 : wField w 0 16 = k * 2 ^ 14 + rsv.toNat * 2 ^ 6 + amount.toNat)
    (hi : ([.slli, .srli, .srai, .rotri] : List (Nat → Reg → Reg → BitVec 8 → BitVec 6 → Instr))[k]? = some i) :
    hearthWord c n g w = .row (i c rd ra rsv amount) := by
  have h5 := rsv.isLt
  have h6 := amount.isLt
  have hop : ∀ l s : Nat, l = rsv.toNat → s = amount.toNat → BitVec.ofNat 8 l = rsv ∧ BitVec.ofNat 6 s = amount := by
    rintro _ _ rfl rfl
    simp
  obtain ⟨hr, ha⟩ := hop (wField w 0 16 / 64 % 256) (wField w 0 16 % 64) (by omega) (by omega)
  obtain ⟨hk, rfl⟩ := List.getElem?_eq_some_iff.mp hi
  unfold hearthWord shiftRow
  dsimp only
  rw [h1, h2, h3, hr, ha, show wField w 0 16 / 16384 = k by omega]
  simp only [List.length_cons, List.length_nil] at hk
  interval_cases k <;> rfl

theorem hearthWord_field {w : W32} {f : FmtF} (h2 : fmtF w = f) : (wField w 26 6 = 0x0D → hearthWord c n g w = .row (if f.s then .exts c f else .extu c f))
    ∧ (wField w 26 6 = 0x0E → hearthWord c n g w = .row (.ins c f)) := by
  unfold hearthWord
  dsimp only
  rw [h2]
  exact ⟨fun h1 => by rw [h1]; rfl, fun h1 => by rw [h1]; rfl⟩

theorem hearthWord_load {w : W32} {f : FmtM} {k : Nat} {i : Nat → FmtM → Instr} (h1 : wField w 26 6 = 0x10 + k) (h2 : fmtM w = f)
    (hi : ([fun c f => .ldb c f, fun c f => .ldh c f, fun c f => .ldw c f, fun c f => .ldd c f, fun c f => .ldbs c f,
      fun c f => .ldhs c f, fun c f => .ldws c f] : List (Nat → FmtM → Instr))[k]? = some i) : hearthWord c n g w = .row (i c f) := by
  obtain ⟨hk, rfl⟩ := List.getElem?_eq_some_iff.mp hi
  unfold hearthWord
  dsimp only
  rw [h1, h2]
  simp only [List.length_cons, List.length_nil] at hk
  interval_cases k <;> rfl

theorem hearthWord_store {w : W32} {f : FmtM} {k : Nat} {i : Nat → FmtM → Instr} (h1 : wField w 26 6 = 0x18 + k) (h2 : fmtM w = f)
    (hi : ([.stb, .sth, .stw, .std, .lea] : List (Nat → FmtM → Instr))[k]? = some i) : hearthWord c n g w = .row (i c f) := by
  obtain ⟨hk, rfl⟩ := List.getElem?_eq_some_iff.mp hi
  unfold hearthWord
  dsimp only
  rw [h1, h2]
  simp only [List.length_cons, List.length_nil] at hk
  interval_cases k <;> rfl

/-- The rows whose words have no format of R128 in common, each by its opcode and its own fields. -/
theorem hearthWord_branch {w : W32} {ra : Reg} {d : BitVec 21} (h2 : wField w 21 5 = ra.val) (h3 : wField w 0 21 = d.toNat) :
    (wField w 26 6 = 0x20 → hearthWord c n g w = .row (.bz c ra d)) ∧ (wField w 26 6 = 0x21 → hearthWord c n g w = .row (.bnz c ra d)) := by
  have hra : (fmtA w).rd = ra := wReg_eq h2
  unfold hearthWord
  dsimp only
  rw [hra, ofNat_wField h3]
  exact ⟨fun h1 => by rw [h1]; rfl, fun h1 => by rw [h1]; rfl⟩

theorem hearthWord_jump {w : W32} {d : BitVec 26} (h3 : wField w 0 26 = d.toNat) :
    (wField w 26 6 = 0x22 → hearthWord c n g w = .row (.br c d)) ∧ (wField w 26 6 = 0x23 → hearthWord c n g w = .row (.call c d))
      ∧ (wField w 26 6 = 0x2B → hearthWord c n g w = .row (.rep c d)) := by
  unfold hearthWord
  dsimp only
  rw [ofNat_wField h3]
  exact ⟨fun h1 => by rw [h1]; rfl, fun h1 => by rw [h1]; rfl, fun h1 => by rw [h1]; rfl⟩

theorem hearthWord_loop {w : W32} {rsv ra : Reg} {len : BitVec 16} (h2 : wField w 21 5 = rsv.val) (h3 : wField w 16 5 = ra.val)
    (h4 : wField w 0 16 = len.toNat) (h1 : wField w 26 6 = 0x25) : hearthWord c n g w = .row (.loop c rsv ra len) := by
  have hrsv : (fmtA w).rd = rsv := wReg_eq h2
  have hra : (fmtA w).ra = ra := wReg_eq h3
  unfold hearthWord
  dsimp only
  rw [h1, hrsv, hra, ofNat_wField h4]
  rfl

theorem hearthWord_loopi {w : W32} {k : BitVec 10} {len : BitVec 16} (h2 : wField w 16 10 = k.toNat) (h4 : wField w 0 16 = len.toNat)
    (h1 : wField w 26 6 = 0x26) : hearthWord c n g w = .row (.loopi c k len) := by
  unfold hearthWord
  dsimp only
  rw [h1, ofNat_wField h2, ofNat_wField h4]
  rfl

theorem hearthWord_trap {w : W32} {k : BitVec 8} {rsv : BitVec 18} (h2 : wField w 0 8 = k.toNat) (h4 : wField w 8 18 = rsv.toNat)
    (h1 : wField w 26 6 = 0x2A) : hearthWord c n g w = .row (.trap c k rsv) := by
  unfold hearthWord
  dsimp only
  rw [h1, ofNat_wField h2, ofNat_wField h4]
  rfl

theorem hearthWord_niw {w : W32} {k : BitVec 7} {rsv : BitVec 19} (h2 : wField w 0 7 = k.toNat) (h4 : wField w 7 19 = rsv.toNat)
    (h1 : wField w 26 6 = 0x2C) : hearthWord c n g w = .row (.niw c k rsv) := by
  unfold hearthWord
  dsimp only
  rw [h1, ofNat_wField h2, ofNat_wField h4]
  rfl

end

/-! ### A word runs as its row (R128, R129) -/

/-- A word that is a row's runs as that row. -/
def WordRuns (x : HearthWord) : Prop := ∀ i s, x = .row i → hearthRun i s = exec i s

theorem runs_row {i : Instr} (h : ∀ s, hearthRun i s = exec i s) : WordRuns (.row i) := by
  rintro _ s ⟨⟩
  exact h s

theorem driveRow_runs {c k : Nat} {f : FmtA} {i : Instr} (h : driveRow c f k = some i) (s : State) : hearthRun i s = exec i s := by
  unfold driveRow at h
  split at h <;> cases h <;> rfl

theorem hearthWord_runs (c n : Nat) (g : Reg → W64) (w : W32) : WordRuns (hearthWord c n g w) := by
  unfold hearthWord aluRow muldivRow cmpRow sysRow jumpRow blockRow portRow streamRow ctlRow flintRow shiftRow pcmdRow fmkRow
  dsimp only
  repeat' split
  all_goals rintro i s ⟨⟩
  any_goals rfl
  exact driveRow_runs ‹_› s

section
variable {op hi lo : Nat} (hop : op < 64) (hlo : hi + lo < 2 ^ 26)
include hop hlo

theorem wordX_op : wField (BitVec.ofNat 32 (op * 2 ^ 26 + hi + lo)) 26 6 = op := by
  rw [wField_ofNat (by omega)]
  omega

/-- A field below the opcode is one of what stands there. -/
theorem wordX_field {m k v : Nat} (hmk : m + k ≤ 26) (hv : (hi + lo) / 2 ^ m % 2 ^ k = v) :
    wField (BitVec.ofNat 32 (op * 2 ^ 26 + hi + lo)) m k = v := by
  rw [wField_ofNat (by omega), ← hv]
  have hsplit : op * 2 ^ 26 = 2 ^ m * (2 ^ k * (op * 2 ^ (26 - m - k))) := by
    have h26 : 2 ^ 26 = 2 ^ m * (2 ^ k * 2 ^ (26 - m - k)) := by
      rw [← Nat.pow_add, ← Nat.pow_add]
      congr 1
      omega
    rw [h26]
    ring
  rw [Nat.add_assoc, hsplit, Nat.mul_add_div (Nat.two_pow_pos m), Nat.mul_add_mod]

end

/-- Settles O10: the fields of a word come back from it, and each opcode and function has its row. -/
theorem wordsSpellInstructions : Obligations.WordsSpellInstructions := by
  unfold Obligations.WordsSpellInstructions
  refine ⟨fun c n g => ⟨functionRows_spell, fun f => ⟨hearthWord_wordA (by simp [functionRows]) (by decide) rfl, ?waite, ?leave,
      fun k i hi hg => pcmdRows_spell hi f hg, fun k i hi hg => fmkRows_spell hi f hg, rewindTx_spell f, fun item => ?drd, fun k i hi => ?dwr,
      fun alg size rsv => ?crc⟩,
    fun k i hi f => ?imm, fun k i hi rd ra rsv amount => ?shift, fun f => ?field, fun k i hi f => ?load, fun k i hi f => ?store,
    fun ra d => ?bz, fun d => ?br, fun rsv ra len => ?loop, fun k len => ?loopi, fun k rsv => ?trap, fun k rsv => ?niw⟩, fun s c w i h => ?run⟩
  case waite =>
    obtain ⟨h1, h2, h3⟩ := wordA_fields (op := 0x32) (fn := 0) f (by decide) (by decide)
    exact hearthWord_waite h2 h3 h1 rfl
  case leave =>
    obtain ⟨h1, h2, h3⟩ := wordA_fields (op := 0x34) (fn := 0) f (by decide) (by decide)
    exact hearthWord_leave h2 h3 h1 rfl
  case drd =>
    obtain ⟨h1, h2, h3⟩ := wordA_fields (op := 0x33) (fn := item.toNat * 8 + 1) f (by decide) (by omega)
    exact hearthWord_drd h2 h3 h1 rfl
  case dwr =>
    have hk : k < 11 := (List.getElem?_eq_some_iff.mp hi).1
    obtain ⟨h1, h2, h3⟩ := wordA_fields (op := 0x33) (fn := (k + 1) * 8 + 2) f (by decide) (by omega)
    exact hearthWord_dwr h2 h3 h1 hi rfl
  case crc =>
    have h4 := alg.isLt
    have h5 := size.isLt
    have h6 := rsv.isLt
    obtain ⟨h1, h2, h3⟩ := wordA_fields (op := 0x3C) (fn := alg.toNat * 128 + size.toNat * 32 + rsv.toNat) f (by decide) (by omega)
    obtain ⟨h1', h2', h3'⟩ := wordA_fields (op := 0x3C) (fn := alg.toNat * 128 + size.toNat * 32 + 16 + rsv.toNat) f (by decide) (by omega)
    exact ⟨hearthWord_crc h2 h3 h1 (b := 0) (by decide) rfl, hearthWord_crc h2' h3' h1' (b := 1) (by decide) rfl⟩
  case imm =>
    have hk : k < 8 := (List.getElem?_eq_some_iff.mp hi).1
    obtain ⟨h1, _, _, _, h2⟩ := wordI_fields (op := 0x04 + k) f (by omega)
    exact hearthWord_imm h1 h2 hi
  case shift =>
    have hk : k < 4 := (List.getElem?_eq_some_iff.mp hi).1
    have h5 := rsv.isLt
    have h6 := amount.isLt
    obtain ⟨h1, h4, h2, h3, _⟩ := wordI_fields (op := 0x0C) ⟨rd, ra, BitVec.ofNat 16 (k * 2 ^ 14 + rsv.toNat * 2 ^ 6 + amount.toNat)⟩ (by decide)
    refine hearthWord_shift h1 h2 h3 (h4.trans ?_) hi
    rw [BitVec.toNat_ofNat, Nat.mod_eq_of_lt (by omega)]
  case field =>
    obtain ⟨h1, h2⟩ := wordF_fields (op := 0x0D) f (by decide)
    obtain ⟨h1', h2'⟩ := wordF_fields (op := 0x0E) f (by decide)
    exact ⟨(hearthWord_field h2).1 h1, (hearthWord_field h2').2 h1'⟩
  case load =>
    have hk : k < 7 := (List.getElem?_eq_some_iff.mp hi).1
    obtain ⟨h1, h2⟩ := wordM_fields (op := 0x10 + k) f (by omega)
    exact hearthWord_load h1 h2 hi
  case store =>
    have hk : k < 5 := (List.getElem?_eq_some_iff.mp hi).1
    obtain ⟨h1, h2⟩ := wordM_fields (op := 0x18 + k) f (by omega)
    exact hearthWord_store h1 h2 hi
  case bz =>
    have h4 := ra.isLt
    have h5 := d.isLt
    have hlo : ra.val * 2 ^ 21 + d.toNat < 2 ^ 26 := by omega
    refine ⟨(hearthWord_branch (wordX_field (by decide) hlo (by decide) ?_) (wordX_field (by decide) hlo (by decide) ?_)).1 (wordX_op (by decide) hlo),
      (hearthWord_branch (wordX_field (by decide) hlo (by decide) ?_) (wordX_field (by decide) hlo (by decide) ?_)).2 (wordX_op (by decide) hlo)⟩
    all_goals omega
  case br =>
    have h5 := d.isLt
    have hlo : 0 + d.toNat < 2 ^ 26 := by omega
    refine ⟨(hearthWord_jump (wordX_field (by decide) hlo (by decide) ?_)).1 (wordX_op (by decide) hlo),
      (hearthWord_jump (wordX_field (by decide) hlo (by decide) ?_)).2.1 (wordX_op (by decide) hlo),
      (hearthWord_jump (wordX_field (by decide) hlo (by decide) ?_)).2.2 (wordX_op (by decide) hlo)⟩
    all_goals omega
  case loop =>
    have h4 := rsv.isLt
    have h5 := ra.isLt
    have h6 := len.isLt
    have hlo : rsv.val * 2 ^ 21 + ra.val * 2 ^ 16 + len.toNat < 2 ^ 26 := by omega
    refine hearthWord_loop (wordX_field (by decide) hlo (by decide) ?_) (wordX_field (by decide) hlo (by decide) ?_)
      (wordX_field (by decide) hlo (by decide) ?_) (wordX_op (by decide) hlo)
    all_goals omega
  case loopi =>
    have h4 := k.isLt
    have h5 := len.isLt
    have hlo : k.toNat * 2 ^ 16 + len.toNat < 2 ^ 26 := by omega
    refine hearthWord_loopi (wordX_field (by decide) hlo (by decide) ?_) (wordX_field (by decide) hlo (by decide) ?_) (wordX_op (by decide) hlo)
    all_goals omega
  case trap =>
    have h4 := k.isLt
    have h5 := rsv.isLt
    have hlo : rsv.toNat * 2 ^ 8 + k.toNat < 2 ^ 26 := by omega
    refine hearthWord_trap (wordX_field (by decide) hlo (by decide) ?_) (wordX_field (by decide) hlo (by decide) ?_) (wordX_op (by decide) hlo)
    all_goals omega
  case niw =>
    have h4 := k.isLt
    have h5 := rsv.isLt
    have hlo : rsv.toNat * 2 ^ 7 + k.toNat < 2 ^ 26 := by omega
    refine hearthWord_niw (wordX_field (by decide) hlo (by decide) ?_) (wordX_field (by decide) hlo (by decide) ?_) (wordX_op (by decide) hlo)
    all_goals omega
  case run =>
    change execXblk c w s = _
    unfold execXblk
    rw [h]
    exact hearthWord_runs c wholeBlock (s.ctx c).g w i s h

end Sys2Proof.Machine

namespace Sys2Proof.Machine

/-! ### SMBus (R524) -/

theorem State.powered_of_rails {s : State} (hr : s.pw.railsOk = true) (hl : s.pw.lost = false) : s.powered = true := by
  simp [State.powered, hr, hl]

theorem State.smbus_answers {s : State} (cmd v : Nat) (hr : s.pw.railsOk = true) (hl : s.pw.lost = false) (ha : 1 ≤ s.attic.state) :
    s.smbus cmd v (.blockRead false) = .next (s.emit (.smbus (leBytes 4 v)))
      ∧ s.smbus cmd v (.blockRead true)
          = .next (s.emit (.smbus (leBytes 4 v ++ leBytes 1 (smbusPec (smbusFrame cmd (leBytes 4 v))))))
      ∧ s.smbus cmd v .other = .next (s.emit .smbusNak) := by
  simp [State.smbus, State.powered_of_rails hr hl, ha]

theorem State.smbus_silent {s : State} (cmd v : Nat) (ha : s.attic.state = 0) (a : SmbAccess) : s.smbus cmd v a = .next s := by
  simp [State.smbus, ha]

/-- The clause of one Block Read, for a command that answers with a word. -/
theorem completes_smbus {s : State} {i : SmbAccess → Instr} {cmd v : Nat} (hi : ∀ a, exec (i a) s = s.smbus cmd v a) :
    (s.pw.railsOk = true → s.pw.lost = false → 1 ≤ s.attic.state →
        Completes (i (.blockRead false)) s (fun t => t.out = s.out ++ [.smbus (leBytes 4 v)] ∧ { t with out := s.out } = s)
        ∧ Completes (i (.blockRead true)) s (fun t => { t with out := s.out } = s
            ∧ t.out = s.out ++ [.smbus (leBytes 4 v ++ leBytes 1 (smbusPec (smbusFrame cmd (leBytes 4 v))))])
        ∧ Completes (i .other) s (fun t => t.out = s.out ++ [.smbusNak] ∧ { t with out := s.out } = s))
      ∧ (s.attic.state = 0 → ∀ a, Completes (i a) s (fun t => t = s)) := by
  refine ⟨fun hr hl ha => ?_, fun ha a => ⟨s, (hi a).trans (State.smbus_silent cmd v ha a), rfl⟩⟩
  obtain ⟨h1, h2, h3⟩ := State.smbus_answers cmd v hr hl ha
  exact ⟨⟨_, (hi _).trans h1, rfl, rfl⟩, ⟨_, (hi _).trans h2, rfl, rfl⟩, ⟨_, (hi _).trans h3, rfl, rfl⟩⟩

/-- Settles O51: each Block Read is `State.smbus` of its command and word. -/
theorem smbusBlockReads : Obligations.SmbusBlockReads := by
  intro s n words p hp
  simp only [words, List.mem_cons, List.not_mem_nil, or_false] at hp
  rcases hp with rfl | rfl | rfl | rfl | rfl | rfl
  all_goals exact completes_smbus fun _ => rfl

end Sys2Proof.Machine

namespace Sys2Proof.Machine

/-! ### Fuses, the lifecycle and JTAG (R494, R497, R505, R506, R523) -/

theorem SameBytes.of_mems {s t : State} (hp : t.pantry.mem = s.pantry.mem) (hc : t.cellar.mem = s.cellar.mem)
    (hf : t.flash.mem = s.flash.mem) (hh : t.hostMem = s.hostMem) : SameBytes s t :=
  ⟨fun a => by rw [hp], fun a => by rw [hc], fun a => by rw [hf], fun a => by rw [hh]⟩

/-- An instruction that the lifecycle allows acts on the state in which it is selected. -/
theorem State.jtagRun_allowed {s : State} (h : s.powered = true) {ok : Bool} (hok : ok = true) (code : Nat) (k : State → State) :
    s.jtagRun code ok k = .next (k (s.jtagLoad code)) := by
  simp [State.jtagRun, h, hok]

/-- An instruction that the lifecycle does not allow selects BYPASS. -/
theorem State.jtagRun_refused {s : State} (h : s.powered = true) {ok : Bool} (hok : ok = false) (code : Nat) (k : State → State) :
    s.jtagRun code ok k = .next (s.jtagLoad 0xFF) := by
  simp [State.jtagRun, h, hok, State.jtagRefuse]

/-- The effect of a refused instruction (R506). -/
def JtagRefused (s t : State) : Prop := t.jtag.ir = 0xFF ∧ { t with jtag := s.jtag } = s

theorem completes_refused {i : Instr} {s : State} {code : Nat} {ok : Bool} {k : State → State} (h : s.powered = true)
    (hi : exec i s = s.jtagRun code ok k) (hok : ok = false) : Completes i s (JtagRefused s) :=
  ⟨_, hi.trans (State.jtagRun_refused h hok code k), rfl, rfl⟩

theorem completes_allowed {i : Instr} {s : State} {code : Nat} {ok : Bool} {k : State → State} {P : State → Prop} (h : s.powered = true)
    (hi : exec i s = s.jtagRun code ok k) (hok : ok = true) (hP : P (k (s.jtagLoad code))) : Completes i s P :=
  ⟨_, hi.trans (State.jtagRun_allowed h hok code k), hP⟩

/-- FUSE_PROG where the fuses take the value. -/
theorem completes_fuseProg {s : State} {field : FuseField} {v : BitVec 768} {f : Fuses} {P : State → Prop} (h : s.powered = true)
    (hf : s.fuseSet field v = some f) (hP : P { s.jtagLoad 0x30 with fuses := f }) : Completes (.fuseProg field v) s P :=
  completes_allowed (code := 0x30) (ok := true) (k := fun t => { t with fuses := f }) h
    (by simp only [exec, execFuseProg, hf]) rfl hP

/-- FUSE_PROG where the fuses do not take the value. -/
theorem completes_fuseProg_refused {s : State} {field : FuseField} {v : BitVec 768} (h : s.powered = true)
    (hf : s.fuseSet field v = none) : Completes (.fuseProg field v) s (JtagRefused s) :=
  completes_refused (code := 0x30) (ok := false) (k := id) h (by simp only [exec, execFuseProg, hf]; rfl) rfl

/-- The fields of which TEST alone programs any bits, and the key slots of each state (R497). -/
theorem State.fuseSet_test {s : State} (h : s.flint.lifecycle = 0) (v : BitVec 768) :
    (∀ k, k < 4 → Tbl.get 0 s.fuses.fwKey k = 0 →
        s.fuseSet (.fwKey k) v = some { s.fuses with fwKey := Tbl.put 0 s.fuses.fwKey k (v.toNat % 2 ^ 256) })
      ∧ s.fuseSet .deviceSecret v = some { s.fuses with deviceSecret := s.fuses.deviceSecret ||| v }
      ∧ s.fuseSet .dsn v = some { s.fuses with dsn := s.fuses.dsn ||| v.toNat % 2 ^ 64 }
      ∧ s.fuseSet .grade v = some { s.fuses with grade := s.fuses.grade || bitAt v.toNat 0 } := by
  refine ⟨fun k hk h0 => ?_, ?_, ?_, ?_⟩ <;> simp [State.fuseSet, *]

theorem State.fuseSet_provision {s : State} (h : s.flint.lifecycle = 1) (v : BitVec 768) {k : Nat} (hk : k < 4) :
    (Tbl.get 0 s.fuses.imgKey k = 0 →
        s.fuseSet (.imgKey k) v = some { s.fuses with imgKey := Tbl.put 0 s.fuses.imgKey k (v.toNat % 2 ^ 256) })
      ∧ (Tbl.get 0 s.fuses.grnKey k = 0 →
        s.fuseSet (.grnKey k) v = some { s.fuses with grnKey := Tbl.put 0 s.fuses.grnKey k (v.toNat % 2 ^ 256) }) := by
  refine ⟨fun h0 => ?_, fun h0 => ?_⟩ <;> simp [State.fuseSet, h, hk, h0]

theorem State.fuseSet_closed {s : State} (h : 2 ≤ s.flint.lifecycle) (f : FuseField) (v : BitVec 768) : s.fuseSet f v = none := by
  have h0 : s.flint.lifecycle ≠ 0 := by omega
  have h1 : s.flint.lifecycle ≠ 1 := by omega
  cases f <;> simp [State.fuseSet, h0, h1]

theorem State.fuseSet_taken {s : State} {k : Nat} (h : Tbl.get 0 s.fuses.fwKey k ≠ 0) (v : BitVec 768) :
    s.fuseSet (.fwKey k) v = none := by
  simp [State.fuseSet, h]

theorem exec_lcAdvance (s : State) : exec .lcAdvance s = s.jtagRun 0x31
    (s.flint.lifecycle = 0 || (s.flint.lifecycle = 1 && (List.range 4).any (fun k => Tbl.get 0 s.fuses.imgKey k ≠ 0)))
    (fun t => if t.auditAdvance.flint.auditDue = t.flint.auditDue then t.auditAdvance.lcBlow
      else { t.auditAdvance with flint := { t.auditAdvance.flint with lcPending := t.auditAdvance.flint.auditDue } }) := rfl

theorem exec_lcRetire (s : State) : exec .lcRetire s = s.jtagRun 0x32 (s.flint.lifecycle ≠ 3)
    (fun t => { t with fuses := { t.fuses with lifecycle := Nat.max t.fuses.lifecycle 3 } }) := rfl

/-- Without a Filino image the audit counter stands, and LC_ADVANCE blows its bit at once (R503, R505). -/
theorem completes_lcAdvance {s : State} {P : State → Prop} (h : s.powered = true) (hc : s.attic.config ≠ .image)
    (hok : (s.flint.lifecycle = 0 || (s.flint.lifecycle = 1 && (List.range 4).any (fun k => Tbl.get 0 s.fuses.imgKey k ≠ 0))) = true)
    (hP : P (s.jtagLoad 0x31).lcBlow) : Completes .lcAdvance s P := by
  refine completes_allowed h (exec_lcAdvance s) hok ?_
  have ha : (s.jtagLoad 0x31).auditAdvance = s.jtagLoad 0x31 := by simp [State.auditAdvance, State.jtagLoad, hc]
  simp only [ha, ↓reduceIte]
  exact hP

/-- Settles O50: a fuse instruction runs as `State.jtagRun` says, on the fuses that `State.fuseSet` gives. -/
theorem fusesAndLifecycle : Obligations.FusesAndLifecycle := by
  intro s hr hl rest refused
  have hp := State.powered_of_rails hr hl
  refine ⟨fun v h0 => ?test, fun v h1 => ?provision, fun v => ?never, fun f v h => ?closed, fun k v h => ?taken, fun hc h0 => ?first,
    fun hc h1 hk => ?second, fun h => ?beyond, fun h => ?retire, fun h => ?retired⟩
  case test =>
    obtain ⟨hfw, hds, hdsn, hgr⟩ := State.fuseSet_test h0 v
    exact ⟨fun k hk hz => completes_fuseProg hp (hfw k hk hz) ⟨rfl, fun j => Tbl.get_put 0 _ k _ j, rfl⟩,
      completes_fuseProg hp hds ⟨rfl, rfl⟩, completes_fuseProg hp hdsn ⟨rfl, rfl⟩, completes_fuseProg hp hgr ⟨rfl, rfl⟩⟩
  case provision =>
    exact ⟨fun k hk hz => completes_fuseProg hp ((State.fuseSet_provision h1 v hk).1 hz) ⟨rfl, fun j => Tbl.get_put 0 _ k _ j, rfl⟩,
      fun k hk hz => completes_fuseProg hp ((State.fuseSet_provision h1 v hk).2 hz) ⟨rfl, fun j => Tbl.get_put 0 _ k _ j, rfl⟩⟩
  case never => exact ⟨completes_fuseProg_refused hp rfl, completes_fuseProg_refused hp rfl⟩
  case closed => exact completes_fuseProg_refused hp (State.fuseSet_closed h f v)
  case taken => exact completes_fuseProg_refused hp (State.fuseSet_taken h v)
  case first => exact completes_lcAdvance hp hc (by simp [h0]) ⟨rfl, by simp [State.lcBlow, State.jtagLoad, h0], rfl⟩
  case second =>
    refine completes_lcAdvance hp hc (by simp [h1, List.range_succ, hk]) ⟨rfl, by simp [State.lcBlow, State.jtagLoad, h1]⟩
  case beyond => exact completes_refused hp (exec_lcAdvance s) (by simp; omega)
  case retire => exact completes_allowed hp (exec_lcRetire s) (by simpa using h) ⟨rfl, rfl, rfl, rfl⟩
  case retired => exact completes_refused hp (exec_lcRetire s) (by simpa using h)

end Sys2Proof.Machine

namespace Sys2Proof.Machine

/-! ### JTAG (R435, R497, R505, R506, R523) -/

/-- What a session that opens may change: the messages, the Flint counts, the sessions and the free values. -/
theorem State.debugOpen_frame (s : State) (w : World) :
    { s.debugOpen w with fc := s.fc, fns := s.fns, out := s.out, flint := s.flint, jtag := s.jtag, free := s.free } = s := by
  cases w with
  | slate =>
    simp only [State.debugOpen]
    split
    · rfl
    · have h := State.report_frame { s with flint := { s.flint with debugCnt := s.flint.debugCnt.upd .slate satInc32 }, free := s.free + 1 }
        (faultMsg 110 0 ((Config.freeValue s.free).toNat % 28 + 1) 0 (some .slate) false) none
      exact (congrArg (fun t : State => { t with flint := s.flint, free := s.free, jtag := s.jtag }) h :)
  | granite =>
    simp only [State.debugOpen, State.auditAdvance]
    split
    · rfl
    · split <;> rfl

@[simp] theorem State.report_jtag (s : State) (m : W64) (c : Option Nat) : (s.report m c).jtag = s.jtag := by
  have h := congrArg State.jtag (State.report_frame s m c); exact h

@[simp] theorem State.report_flint (s : State) (m : W64) (c : Option Nat) : (s.report m c).flint = s.flint := by
  have h := congrArg State.flint (State.report_frame s m c); exact h

/-- The session of the world is open afterwards, and the instruction stays. -/
theorem State.debugOpen_jtag (s : State) (w : World) :
    (s.debugOpen w).jtag.ir = s.jtag.ir
      ∧ (if w = .slate then (s.debugOpen w).jtag.openSlate else (s.debugOpen w).jtag.openGranite) = true := by
  cases w with
  | slate =>
    cases h : s.jtag.openSlate <;> simp [State.debugOpen, h, State.takeFree]
  | granite =>
    cases h : s.jtag.openGranite <;> simp [State.debugOpen, State.auditAdvance, h]
    split <;> rfl

/-- A session that opens on Slate is recorded and counted (R506, R510). -/
theorem State.debugOpen_flint_slate {s : State} (h : s.jtag.openSlate = false) :
    (s.debugOpen .slate).flint.slateObserved = true
      ∧ (s.debugOpen .slate).flint.debugCnt.slate = satInc32 s.flint.debugCnt.slate := by
  simp [State.debugOpen, h, State.takeFree, Two.upd, Two.get, Two.set]

theorem exec_dbgRead {s : State} {x : DebugTarget} {w : World} (h : s.debugWorld x = some w) :
    exec (.dbgRead x) s = s.jtagRun 0x22 (s.debugReads w) (fun t => (t.debugOpen w).debugGet x) := by
  simp only [exec, execDbgRead, h]

theorem State.debugReads_of_open {s : State} (h : s.flint.lifecycle ≤ 1) (w : World) : s.debugReads w = true := by
  have : s.flint.lifecycle = 0 ∨ s.flint.lifecycle = 1 := by omega
  rcases this with h | h <;> simp [State.debugReads, State.openState, h]

theorem State.openState_iff {s : State} : s.openState = true ↔ s.flint.lifecycle ≤ 1 := by
  simp only [State.openState, Bool.or_eq_true, decide_eq_true_eq]; omega

/-- What DBG_READ of a record leaves: the record as it stands once the session is open. -/
theorem completes_dbgRead {s : State} {c : Nat} {w : World} (hp : s.powered = true) (h : s.flint.lifecycle ≤ 1)
    (hw : s.ctxWorld c = some w) {P : State → Prop}
    (hP : P (((s.jtagLoad 0x22).debugOpen w).emit (.readBytes (((s.jtagLoad 0x22).debugOpen w).recordBytes c)))) :
    Completes (.dbgRead (.record c)) s P :=
  completes_allowed hp (exec_dbgRead hw) (State.debugReads_of_open h w) hP

theorem completes_dbgRead_record {s : State} {c : Nat} {w : World} (hp : s.powered = true) (h : s.flint.lifecycle ≤ 1)
    (hw : s.ctxWorld c = some w) : Completes (.dbgRead (.record c)) s (fun t => t.jtag.ir = 0x22
      ∧ (∃ l, t.out = l ++ [.readBytes (((s.jtagLoad 0x22).debugOpen w).recordBytes c)]) ∧ t.ctxs = s.ctxs ∧ SameBytes s t
      ∧ (if w = .slate then t.jtag.openSlate else t.jtag.openGranite) = true) := by
  refine completes_dbgRead hp h hw ?_
  have hf := State.debugOpen_frame (s.jtagLoad 0x22) w
  obtain ⟨hir, hopen⟩ := State.debugOpen_jtag (s.jtagLoad 0x22) w
  generalize (s.jtagLoad 0x22).debugOpen w = t at hf hir hopen ⊢
  exact ⟨hir, ⟨_, rfl⟩, (congrArg State.ctxs hf :), .of_mems (congrArg (·.pantry.mem) hf :) (congrArg (·.cellar.mem) hf :)
    (congrArg (·.flash.mem) hf :) (congrArg State.hostMem hf :), hopen⟩

/-- DBG_WRITE of the bytes that it names stores them. -/
theorem completes_dbgWrite_pantry {s : State} {a : Nat} {d : List Byte} (hp : s.powered = true) (h : s.flint.lifecycle ≤ 1)
    (hw : (s.debugWorld (.pantry a d.length)).isSome = true) : Completes (.dbgWrite (.pantry a d.length) d) s (fun t =>
      t.jtag.ir = 0x23 ∧ t.pnBytes a d.length = d
        ∧ ∀ b, ¬(a ≤ b ∧ b < a + d.length) → Memory.byte 0 t.pantry.mem b = Memory.byte 0 s.pantry.mem b) := by
  obtain ⟨w, hw⟩ := Option.isSome_iff_exists.mp hw
  refine completes_allowed (code := 0x23) (k := fun t => t.debugPut (.pantry a d.length) d) hp
    (by simp only [exec, execDbgWrite, hw]) (State.openState_iff.mpr h) ?_
  have hput : (s.jtagLoad 0x23).debugPut (.pantry a d.length) d = (s.jtagLoad 0x23).pnWrite a d := by
    simp only [State.debugPut, List.take_length]
  refine hput ▸ ⟨(congrArg (·.jtag.ir) (State.pnWrite_frame (s.jtagLoad 0x23) a d) :), State.pnBytes_pnWrite _ a d, fun b hb => ?_⟩
  rw [State.pnWrite_mem]
  exact Memory.byte_write_of_out 0 _ a d (by omega)

theorem exec_dbgHalt (s : State) : exec .dbgHalt s = s.jtagRun 0x20 s.openState
    (fun t => ({ t with qz := { t.qz with debugHalt := true } } : State).enterLf) := rfl

theorem exec_dbgRun (s : State) : exec .dbgRun s = s.jtagRun 0x21 s.openState
    (fun t => { t with qz := { t.qz with debugHalt := false } }) := rfl

theorem completes_dbgHalt {s : State} (hp : s.powered = true) (h : s.flint.lifecycle ≤ 1) : Completes .dbgHalt s (fun t =>
    t.jtag.ir = 0x20 ∧ t.qz.debugHalt = true ∧ t.qz.lf = true ∧ t.ctxs = s.ctxs ∧ SameBytes s t) := by
  refine completes_allowed hp (exec_dbgHalt s) (State.openState_iff.mpr h) ?_
  cases hlf : s.qz.lf
  · simp only [State.enterLf, State.jtagLoad, hlf]
    exact ⟨rfl, rfl, rfl, rfl, .of_mems rfl rfl rfl rfl⟩
  · simp only [State.enterLf, State.jtagLoad, hlf]
    exact ⟨rfl, rfl, rfl, rfl, .of_mems rfl rfl rfl rfl⟩

/-- DBG_WRITE outside TEST and PROVISION, whatever it names. -/
theorem completes_dbgWrite_refused {s : State} (hp : s.powered = true) (h : s.openState = false) (g : DebugTarget) (d : List Byte) :
    Completes (.dbgWrite g d) s (JtagRefused s) := by
  cases hw : s.debugWorld g with
  | none => exact completes_refused (code := 0x23) (ok := false) (k := id) hp (by simp only [exec, execDbgWrite, hw]; rfl) rfl
  | some w =>
    exact completes_refused (code := 0x23) (k := fun t => t.debugPut g d) hp (by simp only [exec, execDbgWrite, hw]) h

/-- DBG_READ of a record in DEPLOYED: of Granite never, and of Slate where DEBUG_SLATE is 0 (R506). -/
theorem completes_dbgRead_refused {s : State} {c : Nat} (hp : s.powered = true) (h : s.flint.lifecycle = 2)
    (hc : s.ctxWorld c = some .granite ∨ s.flint.debugSlate = false) : Completes (.dbgRead (.record c)) s (JtagRefused s) := by
  cases hw : s.debugWorld (.record c) with
  | none => exact completes_refused (code := 0x22) (ok := false) (k := id) hp (by simp only [exec, execDbgRead, hw]; rfl) rfl
  | some w =>
    refine completes_refused hp (exec_dbgRead hw) ?_
    rcases hc with hc | hc
    · cases (Option.some.inj (hw.symm.trans hc))
      simp [State.debugReads, State.openState, h]
    · simp [State.debugReads, State.openState, h, hc]

theorem completes_bypass {s : State} {code : BitVec 8} (hp : s.powered = true) (hc : isBypassCode code = true) :
    Completes (.bypass code) s (fun t => t.jtag.ir = 0xFF ∧ { t with jtag := s.jtag } = s) :=
  completes_allowed (code := 0xFF) (ok := true) (k := id) hp (by simp only [exec, execBypass, hc]; rfl) rfl ⟨rfl, rfl⟩

theorem idcodeWord_eq : idcodeWord = BitVec.ofNat 32 (0x18256001 + 2 * Config.jedecId.toNat) :=
  congrArg (BitVec.ofNat 32) (by have h : pciDeviceId .slate = 0x8256 := rfl; rw [h]; omega)

theorem exec_idcode (s : State) : exec .idcode s = s.jtagRun 0x01 true (fun t => t.emit (.jtag idcodeWord)) := rfl
theorem exec_sample (s : State) : exec .sample s = s.jtagRun 0x02 true (fun t => t) := rfl
theorem exec_extest (s : State) : exec .extest s = s.jtagRun 0x03 s.ballsAllowed (fun t => t) := rfl
theorem exec_clamp (s : State) : exec .clamp s = s.jtagRun 0x04 s.ballsAllowed (fun t => t) := rfl
theorem exec_highz (s : State) : exec .highz s = s.jtagRun 0x05 s.ballsAllowed (fun t => t) := rfl

/-- Settles O49: every instruction runs as `State.jtagRun` says, where its column of R506 allows it. -/
theorem jtagInstructions : Obligations.JtagInstructions := by
  intro s hr hl sel
  have hp := State.powered_of_rails hr hl
  refine ⟨completes_allowed hp (exec_idcode s) rfl ⟨rfl, idcodeWord_eq ▸ rfl, rfl⟩, completes_allowed hp (exec_sample s) rfl ⟨rfl, rfl⟩,
    completes_bypass hp rfl, fun code hc => completes_bypass hp hc, fun h => ?balls, fun h => ?noBalls, fun h => ?debug,
    fun h => ?closed, fun c h hc => completes_dbgRead_refused hp h hc⟩
  case balls =>
    have hb : s.ballsAllowed = true := by simp [State.ballsAllowed, h]
    exact ⟨completes_allowed hp (exec_extest s) hb ⟨rfl, rfl⟩, completes_allowed hp (exec_clamp s) hb ⟨rfl, rfl⟩,
      completes_allowed hp (exec_highz s) hb ⟨rfl, rfl⟩⟩
  case noBalls =>
    have hb : s.ballsAllowed = false := by simp [State.ballsAllowed, h]
    exact ⟨completes_refused hp (exec_extest s) hb, completes_refused hp (exec_clamp s) hb, completes_refused hp (exec_highz s) hb⟩
  case debug =>
    refine ⟨completes_dbgHalt hp h, completes_allowed hp (exec_dbgRun s) (State.openState_iff.mpr h) ⟨rfl, rfl, rfl⟩,
      fun c w hw => completes_dbgRead_record hp h hw, fun c hw hopen => completes_dbgRead hp h hw ?_,
      fun a d hw => completes_dbgWrite_pantry hp h hw⟩
    exact State.debugOpen_flint_slate (s := s.jtagLoad 0x22) (by simp [State.jtagLoad, hopen])
  case closed =>
    have ho : s.openState = false := by simp [State.openState]; omega
    exact ⟨completes_refused hp (exec_dbgHalt s) ho, completes_refused hp (exec_dbgRun s) ho,
      fun g d => completes_dbgWrite_refused hp ho g d⟩

end Sys2Proof.Machine

namespace Sys2Proof.Machine

/-! ### The power-fail save (R345, R462, R467, R482 to R486) -/

/-- The save writes its slot and ends; what happens to the functions happens as the save areas are read. -/
theorem execSaveCommit_fns {s t : State} (hph : s.pw.phase = .running) (hj : s.cellar.job = .save) (h : exec .saveCommit s = .next t) :
    t.fns = s.saveReads.fns := by
  simp only [exec, execSaveCommit, hph, hj, decide_true, Bool.and_true, ↓reduceIte, Host.Outcome.next.injEq] at h
  subst h
  unfold State.auditWritten
  split <;> rfl

/-- A save that is running while the save area of Slate lies in a poisoned burst. The buffer of the Pantry channel at the Fault Collector
is full, so the message of the failed read merges at once (R467); Slate's view sends every event to a vector that is masked. -/
def saveOverPoison : State :=
  { pw := { phase := .running }
    cellar := { job := .save }
    fns := ⟨{ fstate := .running }, {}⟩
    fc := { buf := List.replicate 4 ⟨faultMsg 88 0 2 0 none false, none⟩
            views := ⟨{ onEvent := true, vec := 0 }, {}⟩
            saveLen := ⟨32, 0⟩ }
    pantry := { poison := [0] }
    img := { worlds := ⟨{ msixCount := 1 }, {}⟩ } }

/-- The read of the save area sets the pending bit of Slate's masked vector (R345, R463, R467). -/
theorem saveOverPoison_fns : saveOverPoison.saveReads.fns ≠ saveOverPoison.fns := by decide

/-- Refutes O48: SAVE_COMMIT need not leave the functions as they are. A read of a save area in an uncorrectable burst sends a message
of Pantry (R345); where four messages of its source wait already, it merges into the views at once (R467), and a view that sends every
event sets the pending bit of a masked vector, which is in the state of its function. -/
theorem not_powerFailSave : ¬ Obligations.PowerFailSave := by
  intro h
  obtain ⟨-, hcommit, -⟩ := h saveOverPoison
  obtain ⟨t, ht, -, -, -, -, -, -, -, -, -, hfns, -⟩ := hcommit rfl rfl
  exact saveOverPoison_fns ((execSaveCommit_fns rfl rfl ht).symm.trans hfns)

end Sys2Proof.Machine

namespace Sys2Proof.Machine

/-! ### Numbers and bytes (R6, R364) -/

theorem leNat_leBytes (n v : Nat) : leNat (leBytes n v) = v % 256 ^ n := by
  induction n generalizing v with
  | zero => simp [leBytes, leNat, Nat.mod_one]
  | succ n ih =>
    simp only [leBytes, leNat, ih, BitVec.toNat_ofNat]
    have h : (2 ^ 8 : Nat) = 256 := rfl
    rw [h, pow_succ', Nat.mod_mul]

theorem fieldAt_head (n v : Nat) (l : List Byte) : fieldAt (leBytes n v ++ l) 0 n = v % 256 ^ n := by
  rw [fieldAt, slice, List.drop_zero, List.take_left' (leBytes_length n v), leNat_leBytes]

theorem fieldAt_skip (k v off n : Nat) (l : List Byte) : fieldAt (leBytes k v ++ l) (k + off) n = fieldAt l off n := by
  have h : (leBytes k v ++ l).drop (k + off) = l.drop off := by
    rw [List.drop_append, List.drop_of_length_le (by simp), leBytes_length, Nat.add_sub_cancel_left, List.nil_append]
  rw [fieldAt, fieldAt, slice, slice, h]

theorem fieldAt_append_left {l m : List Byte} {off n : Nat} (h : off + n ≤ l.length) : fieldAt (l ++ m) off n = fieldAt l off n := by
  rw [fieldAt, fieldAt, slice, slice, List.drop_append_of_le_length (by omega), List.take_append_of_le_length (by simp; omega)]

theorem slice_bytes (m : Memory) (a n off k : Nat) (h : off + k ≤ n) :
    slice (Memory.bytes 0 m a n) off k = Memory.bytes 0 m (a + off) k := by
  apply List.ext_getElem (by simp [slice]; omega)
  intro i h1 h2
  simp [slice, Memory.bytes, Nat.add_assoc]

/-- A register of CRC-32C stays within 32 bits. -/
theorem crcBitRefl_lt {c : Nat} (h : c < 2 ^ 32) : crcBitRefl 0x82F63B78 c < 2 ^ 32 := by
  have h2 : c / 2 < 2 ^ 32 := by omega
  unfold crcBitRefl
  split
  · exact Nat.xor_lt_two_pow h2 (by norm_num)
  · exact h2

theorem repeat_lt {f : Nat → Nat} {m : Nat} (hf : ∀ c, c < m → f c < m) (n : Nat) {c : Nat} (h : c < m) : Nat.repeat f n c < m := by
  induction n with
  | zero => exact h
  | succ n ih => exact hf _ ih

theorem crc32c_lt (l : List Byte) : crc32c l < 2 ^ 32 := by
  have h : ∀ c, c < 2 ^ 32 → crcRefl 0x82F63B78 c l < 2 ^ 32 := by
    induction l with
    | nil => exact fun c h => h
    | cons b l ih =>
      intro c h
      have hb : b.toNat < 2 ^ 32 := lt_of_lt_of_le b.isLt (by norm_num)
      exact ih _ (repeat_lt (fun _ => crcBitRefl_lt) 8 (Nat.xor_lt_two_pow h hb))
  exact Nat.xor_lt_two_pow (h _ (by norm_num)) (by norm_num)

/-! ### A record in a slot (R485, R487, R491) -/

/-- The 28 bytes of a record before its CRC. -/
def State.recordHead (s : State) (seq : Nat) : List Byte :=
  leBytes 4 0x4C4C4543 ++ (leBytes 2 1 ++ (leBytes 1 1 ++ (leBytes 1 0 ++ (leBytes 8 seq ++ (leBytes 8 s.flint.audit ++ leBytes 4 0x200)))))

/-- The 480 bytes of a record after its CRC. -/
def State.recordRest (s : State) : List Byte :=
  leBytes 32 s.attic.digest ++ leBytes 32 s.attic.gdigest ++ leBytes 4 0 ++ leBytes 2 0 ++ leBytes 2 0 ++ leBytes 2 0 ++ leBytes 6 0
    ++ List.replicate 256 0 ++ List.replicate 144 0

theorem State.length_recordHead (s : State) (seq : Nat) : (s.recordHead seq).length = 28 := by
  simp only [State.recordHead, List.length_append, leBytes_length]

theorem State.length_recordRest (s : State) : s.recordRest.length = 480 := by
  simp only [State.recordRest, List.length_append, leBytes_length, List.length_replicate]

/-- A start record and an audit record have no sections. -/
theorem State.slotDraft_record (s : State) (seq : Nat) :
    s.slotDraft { kind := 1 } seq [] = s.recordHead seq ++ (leBytes 4 0 ++ s.recordRest) := by
  have hd : slotDir [] 0x200 = [] := rfl
  have hz : (0x200 : Nat) + ([] : List Byte).length = 0x200 := rfl
  have hr : 256 - ([] : List Byte).length = 256 := rfl
  have hp : ([] : List SlotPart).length = 0 := rfl
  unfold State.slotDraft State.recordHead State.recordRest
  simp only [hd, List.flatMap_nil, hz, hr, hp]
  simp only [List.append_assoc, List.append_nil]

/-- The CRC of a record: its own field counts as 0. -/
theorem State.slotCrc_record (s : State) (seq crc : Nat) :
    slotCrc (s.recordHead seq ++ (leBytes 4 crc ++ s.recordRest)) = crc32c (s.recordHead seq ++ (leBytes 4 0 ++ s.recordRest)) := by
  have h1 : (s.recordHead seq ++ (leBytes 4 crc ++ s.recordRest)).take 0x1C = s.recordHead seq :=
    List.take_left' (s.length_recordHead seq)
  have h2 : (s.recordHead seq ++ (leBytes 4 crc ++ s.recordRest)).drop 0x20 = s.recordRest := by
    rw [← List.append_assoc]
    exact List.drop_left' (by rw [List.length_append, s.length_recordHead, leBytes_length])
  rw [slotCrc, h1, h2, List.append_assoc]

/-- Slot k holds the record of a state with a sequence number, none of its words in error. -/
structure State.HoldsRecord (t s : State) (k seq : Nat) : Prop where
  bytes : t.slotBytes k 0 0x200 = s.recordHead seq ++ (leBytes 4 (crc32c (s.recordHead seq ++ (leBytes 4 0 ++ s.recordRest))) ++ s.recordRest)
  commit : t.slotField k 0x7FFF8 8 = commitPattern
  good : slotErrs k 0x200 t.cellar.bad = []

/-- A field of the first 512 bytes of a slot. -/
theorem State.slotField_eq_fieldAt (t : State) (k : Nat) {off n : Nat} (h : off + n ≤ 0x200) :
    t.slotField k off n = fieldAt (t.slotBytes k 0 0x200) off n := by
  rw [State.slotField, fieldAt, State.slotBytes, State.slotBytes, slice_bytes _ _ _ _ _ h]; rfl

section
variable {t s : State} {k seq : Nat} (h : t.HoldsRecord s k seq)
include h

theorem State.HoldsRecord.head {off n : Nat} (hn : off + n ≤ 28) : t.slotField k off n = fieldAt (s.recordHead seq) off n := by
  rw [t.slotField_eq_fieldAt k (by omega), h.bytes, fieldAt_append_left (by rw [s.length_recordHead]; exact hn)]

theorem State.HoldsRecord.magic : t.slotField k 0 4 = 0x4C4C4543 := by
  rw [h.head (by norm_num), State.recordHead, fieldAt_head]; rfl

theorem State.HoldsRecord.format : t.slotField k 4 2 = 1 := by
  rw [h.head (by norm_num), State.recordHead, show (4 : Nat) = 4 + 0 from rfl, fieldAt_skip, fieldAt_head]; rfl

theorem State.HoldsRecord.kind : t.slotField k 6 1 = 1 := by
  rw [h.head (by norm_num), State.recordHead, show (6 : Nat) = 4 + (2 + 0) from rfl]
  simp only [fieldAt_skip, fieldAt_head]; rfl

theorem State.HoldsRecord.seq_eq : t.slotSeq k = seq % 2 ^ 64 := by
  rw [State.slotSeq, h.head (by norm_num), State.recordHead]
  rw [show fieldAt _ 8 8 = fieldAt _ (4 + (2 + (1 + (1 + 0)))) 8 from rfl]
  simp only [fieldAt_skip, fieldAt_head]; norm_num

theorem State.HoldsRecord.audit : t.slotField k 0x10 8 = s.flint.audit % 2 ^ 64 := by
  rw [h.head (by norm_num), State.recordHead]
  rw [show fieldAt _ 0x10 8 = fieldAt _ (4 + (2 + (1 + (1 + (8 + 0))))) 8 from rfl]
  simp only [fieldAt_skip, fieldAt_head]; norm_num

theorem State.HoldsRecord.used : t.slotField k 0x18 4 = 0x200 := by
  rw [h.head (by norm_num), State.recordHead]
  rw [show fieldAt _ 0x18 4 = fieldAt _ (4 + (2 + (1 + (1 + (8 + (8 + 0)))))) 4 from rfl]
  simp only [fieldAt_skip]
  have := fieldAt_head 4 0x200 []
  rw [List.append_nil] at this
  exact this

theorem State.HoldsRecord.crc : t.slotField k 0x1C 4 = crc32c (s.recordHead seq ++ (leBytes 4 0 ++ s.recordRest)) := by
  have hd : ∀ l, slice (s.recordHead seq ++ l) 0x1C 4 = slice l 0 4 := fun l => by
    rw [slice, slice, List.drop_left' (s.length_recordHead seq), List.drop_zero]
  rw [t.slotField_eq_fieldAt k (by norm_num), h.bytes, fieldAt, hd, ← fieldAt, fieldAt_head]
  exact Nat.mod_eq_of_lt (crc32c_lt _)

/-- The slot of a record is valid, of kind START_RECORD (R487, R489). -/
theorem State.HoldsRecord.code : t.slotCode k = 2 := by
  have hf : t.slotFormed k = true := by
    simp [State.slotFormed, h.commit, h.magic, h.format, h.used]
  have hv : t.slotValid k = true := by
    simp only [State.slotValid, hf, h.used, h.good, h.crc, h.bytes, s.slotCrc_record, decide_true, Bool.and_self]
  have hk : t.slotIsSave k = false := by simp [State.slotIsSave, h.kind]
  simp [State.slotCode, hf, hv, hk]
end

/-- What a record leaves of the Cellar memory: the draft, its CRC and the commit pattern (R485). -/
theorem State.slotWrite_holdsRecord (s : State) (k : Nat) :
    (s.slotWrite k { kind := 1 } []).HoldsRecord s k (s.cellar.highSeq + 1) := by
  have hl : (s.slotDraft { kind := 1 } (s.cellar.highSeq + 1) []).length = 0x200 := by
    simp [State.slotDraft_record, State.length_recordHead, State.length_recordRest]
  have hcrc : slotCrc (s.slotDraft { kind := 1 } (s.cellar.highSeq + 1) []) = crc32c (s.slotDraft { kind := 1 } (s.cellar.highSeq + 1) []) := by
    rw [s.slotDraft_record, s.slotCrc_record]
  refine ⟨?bytes, ?commit, ?good⟩
  case commit =>
    rw [State.slotField, State.slotBytes]
    have := Memory.bytes_write 0 (Memory.write 0 (Memory.write 0 s.cellar.mem (slotSize * k)
      (s.slotDraft { kind := 1 } (s.cellar.highSeq + 1) [])) (slotSize * k + 0x1C)
      (leBytes 4 (slotCrc (s.slotDraft { kind := 1 } (s.cellar.highSeq + 1) [])))) (slotSize * k + 0x7FFF8) (leBytes 8 commitPattern)
    rw [leBytes_length] at this
    refine (congrArg leNat this).trans ?_
    rw [leNat_leBytes]; rfl
  case good =>
    simp only [State.slotWrite, slotErrs, hl, List.filter_filter]
    exact List.filter_eq_nil_iff.mpr fun w _ => by by_cases h : w / 65536 = k <;> simp [h]; omega
  case bytes =>
    have hm : ∀ off n, off + n ≤ 0x1C ∨ (0x20 ≤ off ∧ off + n ≤ 0x200) →
        Memory.bytes 0 (s.slotWrite k { kind := 1 } []).cellar.mem (slotSize * k + off) n
          = ((s.slotDraft { kind := 1 } (s.cellar.highSeq + 1) []).drop off).take n := by
      intro off n ho
      simp only [State.slotWrite]
      rw [Memory.bytes_write_of_apart _ _ _ _ _ _ (by omega), Memory.bytes_write_of_apart _ _ _ _ _ _ (by rw [leBytes_length]; omega),
        Memory.bytes_write_part _ _ _ _ _ _ (by omega)]
    have hc : Memory.bytes 0 (s.slotWrite k { kind := 1 } []).cellar.mem (slotSize * k + 0x1C) 4
        = leBytes 4 (crc32c (s.slotDraft { kind := 1 } (s.cellar.highSeq + 1) [])) := by
      simp only [State.slotWrite]
      rw [Memory.bytes_write_of_apart _ _ _ _ _ _ (by omega), ← hcrc]
      have := Memory.bytes_write 0 (Memory.write 0 s.cellar.mem (slotSize * k) (s.slotDraft { kind := 1 } (s.cellar.highSeq + 1) []))
        (slotSize * k + 0x1C) (leBytes 4 (slotCrc (s.slotDraft { kind := 1 } (s.cellar.highSeq + 1) [])))
      rwa [leBytes_length] at this
    have h1 := hm 0 0x1C (by omega)
    have h3 := hm 0x20 0x1E0 (by omega)
    rw [State.slotBytes, Nat.add_zero, show (0x200 : Nat) = 0x1C + (4 + 0x1E0) from rfl, ← Memory.bytes_append, ← Memory.bytes_append]
    rw [hc, show slotSize * k + 0x1C + 4 = slotSize * k + 0x20 from rfl, h3]
    rw [Nat.add_zero] at h1
    have hd : (s.slotDraft { kind := 1 } (s.cellar.highSeq + 1) []).drop 0x20 = s.recordRest := by
      rw [s.slotDraft_record, ← List.append_assoc]
      exact List.drop_left' (by rw [List.length_append, s.length_recordHead, leBytes_length])
    rw [h1, hd, s.slotDraft_record, List.drop_zero, List.take_left' (s.length_recordHead _),
      List.take_of_length_le (by rw [s.length_recordRest])]

/-- A record changes no byte outside its slot. -/
theorem State.slotWrite_byte_outside (s : State) (k : Nat) {a : Nat} (ha : ¬(slotSize * k ≤ a ∧ a < slotSize * (k + 1))) :
    Memory.byte 0 (s.slotWrite k { kind := 1 } []).cellar.mem a = Memory.byte 0 s.cellar.mem a := by
  have hl : (s.slotDraft { kind := 1 } (s.cellar.highSeq + 1) []).length = 0x200 := by
    simp [State.slotDraft_record, State.length_recordHead, State.length_recordRest]
  have hs : slotSize * (k + 1) = slotSize * k + 0x80000 := rfl
  simp only [State.slotWrite]
  rw [Memory.byte_write_of_out 0 _ _ _ (by rw [leBytes_length]; omega), Memory.byte_write_of_out 0 _ _ _ (by rw [leBytes_length]; omega),
    Memory.byte_write_of_out 0 _ _ _ (by omega)]

/-- What the obligation says of a record, for the state in which the record has been written. -/
theorem State.record_written {s t : State} (hm : t.cellar.mem = (s.slotWrite s.targetSlot { kind := 1 } []).cellar.mem)
    (hb : t.cellar.bad = (s.slotWrite s.targetSlot { kind := 1 } []).cellar.bad) (hs : t.cellar.highSeq = s.cellar.highSeq + 1) :
    t.slotCode s.targetSlot = 2 ∧ t.slotSeq s.targetSlot = (s.cellar.highSeq + 1) % 2 ^ 64
      ∧ t.slotField s.targetSlot 0x10 8 = s.flint.audit % 2 ^ 64 ∧ t.cellar.highSeq = s.cellar.highSeq + 1
      ∧ ∀ a, ¬(slotSize * s.targetSlot ≤ a ∧ a < slotSize * (s.targetSlot + 1)) → Memory.byte 0 t.cellar.mem a = Memory.byte 0 s.cellar.mem a := by
  have hw := s.slotWrite_holdsRecord s.targetSlot
  have h : t.HoldsRecord s s.targetSlot (s.cellar.highSeq + 1) := by
    refine ⟨?_, ?_, hb ▸ hw.good⟩
    · rw [State.slotBytes, hm]; exact hw.bytes
    · rw [State.slotField, State.slotBytes, hm]; exact hw.commit
  exact ⟨h.code, h.seq_eq, h.audit, hs, fun a ha => hm ▸ s.slotWrite_byte_outside _ ha⟩

/-! ### Revocation (R496) -/

theorem testBit_foldl_or (l : List Nat) (b r n : Nat) :
    (l.foldl (fun r k => r ||| 2 ^ (b + k)) r).testBit n = (r.testBit n || l.any (fun k => b + k = n)) := by
  induction l generalizing r with
  | nil => simp
  | cons k l ih => rw [List.foldl_cons, ih, Nat.testBit_or, Nat.testBit_two_pow, List.any_cons, Bool.or_assoc]

theorem State.bitAt_blowRevoke (s : State) (kind : Nat) (l : List Nat) (n : Nat) :
    bitAt (s.blowRevoke kind l).fuses.revoke n = (bitAt s.fuses.revoke n || l.any (fun k => 4 * kind + k = n)) := by
  rw [bitAt_eq_testBit, bitAt_eq_testBit]
  exact testBit_foldl_or l (4 * kind) s.fuses.revoke n

/-- The slots of another kind do not meet a slot of this one. -/
theorem Fuses.any_revocable_ne (f : Fuses) {kind kind' slot j : Nat} (hk : kind' ≠ kind) (hs : slot < 4) (hj : j < 4) :
    (f.revocable kind' slot).any (fun k => 4 * kind' + k = 4 * kind + j) = false := by
  rw [List.any_eq_false]
  intro k hm
  have hlt : k < slot := List.mem_range.mp (List.mem_filter.mp hm).1
  simp only [decide_eq_true_eq]
  omega

theorem Fuses.any_revocable_self (f : Fuses) (kind slot j : Nat) :
    (f.revocable kind slot).any (fun k => 4 * kind + k = 4 * kind + j)
      = (decide (j < slot) && (decide (Tbl.get 0 (f.slots kind) j ≠ 0) && !bitAt f.revoke (4 * kind + j))) := by
  rw [Bool.eq_iff_iff, List.any_eq_true]
  simp only [Fuses.revocable, List.mem_filter, List.mem_range, Nat.add_left_cancel_iff, decide_eq_true_eq, Bool.and_eq_true]
  exact ⟨fun ⟨k, h, hk⟩ => hk ▸ h, fun h => ⟨j, h, rfl⟩⟩

/-- The slots that KEY_REVOKE revokes of a kind: those in use below the slot in force. -/
def State.revokes (s : State) (kind : Nat) : List Nat :=
  if kind = 0 then (if s.attic.fwRecovery then [] else s.fuses.revocable 0 s.flint.fwSlot)
  else if s.attic.imageBase.isSome then s.fuses.revocable kind (if kind = 1 then s.flint.imgSlot else s.flint.grnSlot) else []

/-- The fuses after KEY_REVOKE. -/
def State.revoked (s : State) : State := ((s.blowRevoke 0 (s.revokes 0)).blowRevoke 1 (s.revokes 1)).blowRevoke 2 (s.revokes 2)

theorem execKeyRevoke_eq {s : State} (hd : s.done = true) (hp : s.powered = true) :
    execKeyRevoke s = .next ((s.revokes 2).foldl (fun t _ => t.auditAdvance) s.revoked) := by
  simp [execKeyRevoke, hd, hp, State.revoked, State.revokes]

theorem State.foldl_auditAdvance_frame (l : List Nat) (s : State) :
    { l.foldl (fun t _ => t.auditAdvance) s with flint := s.flint } = s := by
  induction l generalizing s with
  | nil => rfl
  | cons a l ih =>
    have h : { s.auditAdvance with flint := s.flint } = s := by unfold State.auditAdvance; split <;> rfl
    exact (congrArg (fun t : State => { t with flint := s.flint }) (ih s.auditAdvance)).trans h

section
variable {s : State} (h0 : s.flint.fwSlot < 4) (h1 : s.flint.imgSlot < 4) (h2 : s.flint.grnSlot < 4)
include h0 h1 h2

theorem State.any_revokes_ne {kind kind' j : Nat} (hk : kind' ≠ kind) (hj : j < 4) :
    (s.revokes kind').any (fun k => 4 * kind' + k = 4 * kind + j) = false := by
  unfold State.revokes
  split
  · next hz =>
    subst hz
    split
    · rfl
    · exact s.fuses.any_revocable_ne hk h0 hj
  · split
    · exact s.fuses.any_revocable_ne hk (by split <;> assumption) hj
    · rfl

/-- The REVOKE bit of a slot after KEY_REVOKE. -/
theorem State.bitAt_revoked {kind j : Nat} (hk : kind < 3) (hj : j < 4) :
    bitAt s.revoked.fuses.revoke (4 * kind + j)
      = (bitAt s.fuses.revoke (4 * kind + j) || (s.revokes kind).any (fun k => 4 * kind + k = 4 * kind + j)) := by
  have hne := fun (k' : Nat) (h : k' ≠ kind) => State.any_revokes_ne h0 h1 h2 h hj
  have hkind : kind = 0 ∨ kind = 1 ∨ kind = 2 := by omega
  rw [State.revoked, State.bitAt_blowRevoke, State.bitAt_blowRevoke, State.bitAt_blowRevoke]
  rcases hkind with rfl | rfl | rfl
  · rw [hne 1 (by decide), hne 2 (by decide), Bool.or_false, Bool.or_false]
  · rw [hne 0 (by decide), hne 2 (by decide), Bool.or_false, Bool.or_false]
  · rw [hne 0 (by decide), hne 1 (by decide), Bool.or_false, Bool.or_false]
end

theorem State.or_any_revokes (s : State) {kind : Nat} (hk : kind < 3) (j : Nat) :
    (bitAt s.fuses.revoke (4 * kind + j) || (s.revokes kind).any (fun k => 4 * kind + k = 4 * kind + j))
      = (bitAt s.fuses.revoke (4 * kind + j) || (decide (Tbl.get 0 (s.fuses.slots kind) j ≠ 0)
        && (if kind = 0 then !s.attic.fwRecovery && decide (j < s.flint.fwSlot)
            else s.attic.imageBase.isSome && decide (j < (if kind = 1 then s.flint.imgSlot else s.flint.grnSlot))))) := by
  cases hb : bitAt s.fuses.revoke (4 * kind + j)
  case true => rfl
  case false =>
    unfold State.revokes
    by_cases hz : kind = 0
    · subst hz
      cases hr : s.attic.fwRecovery
      · simp only [↓reduceIte, Bool.false_eq_true, s.fuses.any_revocable_self, hb]
        simp [Bool.and_comm]
      · simp
    · cases hr : s.attic.imageBase.isSome
      · simp [hz]
      · simp only [hz, ↓reduceIte, s.fuses.any_revocable_self, hb]
        simp [Bool.and_comm]

theorem State.slotWrite_frame (s : State) (i : Nat) (h : SlotHead) (parts : List SlotPart) :
    { s.slotWrite i h parts with cellar := s.cellar } = s := by
  unfold State.slotWrite; rfl

theorem State.slotWrite_highSeq (s : State) (i : Nat) (h : SlotHead) (parts : List SlotPart) :
    (s.slotWrite i h parts).cellar.highSeq = s.cellar.highSeq + 1 := by
  unfold State.slotWrite; rfl

/-- A slot has been written as the start record. -/
def State.startRecorded (u : State) : State :=
  { u with cellar := { u.cellar with job := .idle, startWritten := true, seq := u.cellar.highSeq } }

/-- A slot has been written as the audit record of one advance. -/
def State.auditRecorded (u : State) : State :=
  ({ u with cellar := { u.cellar with seq := u.cellar.highSeq } } : State).auditWritten 1

theorem execStartRecordWrite_eq {s : State} (hj : s.cellar.job = .startRecord) (hp : s.pw.phase = .none) :
    exec .startRecordWrite s = .next (s.slotWrite s.targetSlot { kind := 1 } []).startRecorded := by
  simp only [exec, execStartRecordWrite, hj, hp, decide_true, Bool.and_self, ↓reduceIte, State.startRecorded]

theorem execAuditRecordWrite_eq {s : State} (hd : 0 < s.flint.auditDue) (hj : s.cellar.job = .idle) (hp : s.pw.phase = .none) :
    exec .auditRecordWrite s = .next (s.slotWrite s.targetSlot { kind := 1 } []).auditRecorded := by
  simp only [exec, execAuditRecordWrite, hd, hj, hp, decide_true, Bool.and_self, ↓reduceIte, State.auditRecorded]

/-- The record counts down what is due, and where the LC_ADVANCE waits for this record its fuse bit is blown (R504). -/
theorem State.auditRecorded_eq (u : State) : u.auditRecorded = { u with
    cellar := { u.cellar with seq := u.cellar.highSeq }
    flint := { u.flint with auditDue := u.flint.auditDue - 1, lcPending := u.flint.lcPending - 1 }
    fuses := if u.flint.lcPending = 1 then
      { u.fuses with lifecycle := Nat.max u.fuses.lifecycle (Nat.min 3 (u.flint.lifecycle + 1)) } else u.fuses } := by
  by_cases h : u.flint.lcPending = 1
  · simp [State.auditRecorded, State.auditWritten, State.lcBlow, h]
  · have hn : ¬(0 < u.flint.lcPending ∧ u.flint.lcPending ≤ 1) := by omega
    simp [State.auditRecorded, State.auditWritten, h, hn]

/-- What the obligation says of the Cellar after a record. -/
def State.RecordWritten (s t : State) : Prop :=
  t.slotCode s.targetSlot = 2 ∧ t.slotSeq s.targetSlot = (s.cellar.highSeq + 1) % 2 ^ 64
    ∧ t.slotField s.targetSlot 0x10 8 = s.flint.audit % 2 ^ 64 ∧ t.cellar.highSeq = s.cellar.highSeq + 1
    ∧ ∀ a, ¬(slotSize * s.targetSlot ≤ a ∧ a < slotSize * (s.targetSlot + 1)) → Memory.byte 0 t.cellar.mem a = Memory.byte 0 s.cellar.mem a

/-- The slot of a state u stands as the record of s, and the rest of u is s. -/
structure State.RecordIn (s u : State) : Prop where
  rest : { u with cellar := s.cellar } = s
  seq : u.cellar.highSeq = s.cellar.highSeq + 1
  slot : ∀ t : State, t.cellar.mem = u.cellar.mem → t.cellar.bad = u.cellar.bad → t.cellar.highSeq = s.cellar.highSeq + 1 → s.RecordWritten t

theorem State.slotWrite_recordIn (s : State) : s.RecordIn (s.slotWrite s.targetSlot { kind := 1 } []) :=
  ⟨s.slotWrite_frame _ _ _, s.slotWrite_highSeq _ _ _, fun _ => State.record_written⟩

theorem State.RecordIn.startRecorded {s u : State} (h : s.RecordIn u) :
    s.RecordWritten u.startRecorded ∧ u.startRecorded.cellar.startWritten = true ∧ u.startRecorded.cellar.job = .idle
      ∧ { u.startRecorded with cellar := s.cellar } = s :=
  ⟨h.slot u.startRecorded rfl rfl h.seq, rfl, rfl, h.rest⟩

theorem State.RecordIn.auditRecorded {s u : State} (h : s.RecordIn u) :
    s.RecordWritten u.auditRecorded
      ∧ u.auditRecorded.flint.auditDue = s.flint.auditDue - 1 ∧ u.auditRecorded.flint.lcPending = s.flint.lcPending - 1
      ∧ u.auditRecorded.fuses = (if s.flint.lcPending = 1 then
          { s.fuses with lifecycle := Nat.max s.fuses.lifecycle (Nat.min 3 (s.flint.lifecycle + 1)) } else s.fuses)
      ∧ { u.auditRecorded with cellar := s.cellar, flint := s.flint, fuses := s.fuses } = s := by
  have hfl : u.flint = s.flint := (congrArg State.flint h.rest :)
  have hfu : u.fuses = s.fuses := (congrArg State.fuses h.rest :)
  rw [u.auditRecorded_eq, hfl, hfu]
  exact ⟨h.slot _ rfl rfl h.seq, rfl, rfl, rfl, (congrArg (fun t : State => { t with flint := s.flint, fuses := s.fuses }) h.rest :)⟩

/-- Settles O47: a record is written whole into the target slot, and KEY_REVOKE blows the bits of `State.revokes`. -/
theorem recordsAndRevocation : Obligations.RecordsAndRevocation := by
  intro s k written
  refine ⟨fun hj hp => ⟨_, execStartRecordWrite_eq hj hp, s.slotWrite_recordIn.startRecorded⟩,
    fun hd hp hj => ⟨_, execAuditRecordWrite_eq hd hj hp, s.slotWrite_recordIn.auditRecorded⟩, fun hd hr hl h0 h1 h2 => ?revoke⟩
  case revoke =>
    refine ⟨_, execKeyRevoke_eq hd (State.powered_of_rails hr hl), ?_, fun kind hk j hj => ?_⟩
    · exact (congrArg (fun t : State => { t with fuses := { t.fuses with revoke := s.fuses.revoke } })
        (State.foldl_auditAdvance_frame (s.revokes 2) s.revoked) :)
    · have hf : ((s.revokes 2).foldl (fun t _ => t.auditAdvance) s.revoked).fuses = s.revoked.fuses :=
        (congrArg State.fuses (State.foldl_auditAdvance_frame (s.revokes 2) s.revoked) :)
      rw [hf, State.bitAt_revoked h0 h1 h2 hk hj, s.or_any_revokes hk j]

end Sys2Proof.Machine

namespace Sys2Proof.Machine

/-! ### Resets (R36, R41, R72) -/

/-- What a reset of the whole device keeps, and what it puts at its reset value. -/
def ResetKeeps (s t : State) : Prop :=
  t.cellar = { mem := s.cellar.mem, corr := s.cellar.corr, bad := s.cellar.bad } ∧ t.flash = { mem := s.flash.mem } ∧ t.fuses = s.fuses
    ∧ t.hostMem = s.hostMem ∧ t.pending = s.pending ∧ t.out = s.out ∧ t.pw.perstLow = s.pw.perstLow ∧ t.flint.lifecycle = s.fuses.lifecycle
    ∧ { t with cellar := State.reset.cellar, flash := State.reset.flash, fuses := State.reset.fuses, hostMem := State.reset.hostMem,
               out := State.reset.out, free := State.reset.free, pending := State.reset.pending, pw := State.reset.pw,
               flint := { t.flint with lifecycle := State.reset.flint.lifecycle } } = State.reset

theorem State.deviceReset_keeps (s : State) (cause : Nat) : ResetKeeps s (s.deviceReset cause) :=
  ⟨rfl, rfl, rfl, rfl, rfl, rfl, rfl, rfl, rfl⟩

/-- The power monitor's registers are not among what a reset keeps or clears otherwise. -/
theorem ResetKeeps.withPw {s t : State} (h : ResetKeeps s t) {p : Power} (hp : p.perstLow = s.pw.perstLow) :
    ResetKeeps s { t with pw := p } := by
  obtain ⟨hc, hfl, hfu, hh, hpe, ho, -, hl, hr⟩ := h
  exact ⟨hc, hfl, hfu, hh, hpe, ho, hp, hl, hr⟩

theorem exec_resetN {s : State} (hp : s.powered = true) (n : Nat) (ref : Bool) :
    exec (.resetN n ref) s = .next (if 5000 ≤ n ∨ (1000 ≤ n ∧ ref = false) then s.deviceReset 1 else s) := by
  simp only [exec, execResetN, hp, Bool.true_and]
  cases ref <;> simp

/-- Settles O45: every source ends in `State.deviceReset`, and the power monitor's bits are set beside it. -/
theorem resetsBeginStartUp : Obligations.ResetsBeginStartUp := by
  intro s kept levels
  have hk : ∀ cause, kept (s.deviceReset cause) := s.deviceReset_keeps
  have hw : ∀ cause (p : Power), p.perstLow = s.pw.perstLow → kept { s.deviceReset cause with pw := p } :=
    fun cause p hp => (s.deviceReset_keeps cause).withPw hp
  refine ⟨fun ok => ⟨_, rfl, hw 0 _ rfl, rfl, rfl, rfl, rfl, rfl⟩, fun hr hl => ?_⟩
  have hp := State.powered_of_rails hr hl
  refine ⟨fun n hn => ⟨_, (exec_resetN hp n true).trans (congrArg _ (if_pos (.inl hn))), hk 1, ⟨rfl, rfl⟩, rfl⟩,
    fun n hn => ⟨_, (exec_resetN hp n true).trans (congrArg _ (if_neg (by simp; omega))), rfl⟩,
    fun n hn => ⟨_, (exec_resetN hp n false).trans (congrArg _ (if_pos (.inr ⟨hn, rfl⟩))), hk 1, ⟨rfl, rfl⟩, rfl⟩,
    fun he => ⟨{ s.deviceReset 2 with pw := { (s.deviceReset 2).pw with pfailLow := false, vin12Low := false } }, ?_, hw 2 _ rfl, rfl, rfl, rfl⟩,
    fun h3 h6 => ⟨_, ?_, hk 3, ⟨rfl, rfl⟩, rfl⟩⟩
  · simp only [exec, execRestart, hp, Bool.true_and, Bool.or_eq_true, decide_eq_true_eq, he, ↓reduceIte]
  · simp only [exec, execStudyWatchdogExpiry, hp, h3, h6, decide_true, Bool.and_self, ↓reduceIte]

end Sys2Proof.Machine

namespace Sys2Proof.Machine

/-! ### Epochs (R449 to R453) -/

theorem Two.set_get {α : Type} (t : Two α) (w : World) : t.set w (t.get w) = t := by cases w <;> rfl

/-- No time-valued counter of a world runs: closing them at a boundary changes nothing (R452). -/
theorem State.closeTimes_quiet {s : State} {w : World} (h1 : (s.stats.get w).safeSince = []) (h2 : ∀ q ∈ s.boiler.waiting, q.world ≠ some w)
    (tb : Nat) : s.closeTimes w tb = s := by
  have hw : s.boiler.waiting.filter (fun r => r.world = some w) = [] :=
    List.filter_eq_nil_iff.mpr fun q hq => by simpa using h2 q hq
  have hm : s.boiler.waiting.map (fun r => if r.world = some w then { r with since := Nat.max r.since tb } else r) = s.boiler.waiting :=
    (List.map_congr_left fun q hq => if_neg (h2 q hq)).trans (List.map_id _)
  have hs : s.stats.set w { (s.stats.get w) with safeSince := [] } = s.stats := by
    rw [← h1]; exact Two.set_get s.stats w
  simp only [State.closeTimes, hw, hm, h1, List.map_nil, List.foldl_nil, hs]

theorem State.publish_none {s : State} {w : World} (h : (s.stats.get w).latched = none) : s.publish w = s := by
  rw [State.publish, h]

/-- The epoch engine after a boundary at T_b, whose closing and whose next bank are given (R449 to R452). -/
def EpochEngine.closed (e : EpochEngine) (tb cause : Nat) (lf : Bool) (r : Bank × Bank) : EpochEngine :=
  { e with
    latched := some { bank := r.1, start := e.start, stop := tb, cause := cause ||| e.cause }
    bank := r.2
    bankNext := {}
    start := tb
    cause := if lf then 64 else 0
    next := nextEpoch tb e.periodMs
    bounded := true }

/-- A boundary where nothing waits to be published and no time-valued counter runs. -/
theorem State.takeBoundary_quiet {s : State} {w : World} (h1 : (s.stats.get w).safeSince = [])
    (h2 : ∀ q ∈ s.boiler.waiting, q.world ≠ some w) (h3 : (s.stats.get w).latched = none) (tb cause : Nat) (split : Bool) :
    s.takeBoundary w tb cause split = { s with stats := s.stats.set w ((s.stats.get w).closed tb cause s.qz.lf
      (if split then ((s.stats.get w).bank, (s.stats.get w).bankNext)
        else ((s.stats.get w).bank.plus (s.stats.get w).bankNext).splitAt tb (s.stats.get w).recent)) } := by
  simp only [State.takeBoundary, State.publish_none h3, State.closeTimes_quiet h1 h2, EpochEngine.closed]

theorem Two.set_set {α : Type} (t : Two α) (w : World) (x y : α) : (t.set w x).set w y = t.set w y := by cases w <;> rfl

theorem Two.get_set_self {α : Type} (t : Two α) (w : World) (x : α) : (t.set w x).get w = x := by cases w <;> rfl

/-- No periodic boundary is due. -/
theorem State.duePeriod_none {s : State} {w : World}
    (h : (s.stats.get w).periodMs = 0 ∨ s.now < (s.stats.get w).next ∨ (s.stats.get w).running = false) : s.duePeriod w = s := by
  refine if_neg fun hd => ?_
  simp only [Bool.and_eq_true, decide_eq_true_eq] at hd
  obtain ⟨⟨hr, hp⟩, hn⟩ := hd
  rcases h with h | h | h
  · exact hp h
  · omega
  · exact absurd (h.symm.trans hr) (by decide)

theorem State.duePeriod_due {s : State} {w : World} (h1 : (s.stats.get w).running = true) (h2 : (s.stats.get w).periodMs ≠ 0)
    (h3 : (s.stats.get w).next ≤ s.now) : s.duePeriod w = s.takeBoundary w (s.stats.get w).next 1 true := by
  simp [State.duePeriod, h1, h2, h3]

/-- A trigger that no boundary has come before within 10 µs takes its own (R450). -/
theorem State.trigger_alone {s : State} {w : World} {tb : Nat} (h1 : (s.stats.get w).running = true)
    (h2 : (s.stats.get w).periodMs = 0 ∨ s.now < (s.stats.get w).next)
    (h3 : (s.stats.get w).bounded = false ∨ (s.stats.get w).start + 10000 ≤ tb) (cause : Nat) :
    s.trigger w tb cause = s.takeBoundary w tb cause false := by
  have hn : ((s.stats.get w).bounded && tb < (s.stats.get w).start + 10000) = false := by
    rcases h3 with h | h
    · rw [h]; rfl
    · rw [decide_eq_false (by omega), Bool.and_false]
  simp only [State.trigger, State.duePeriod_none (h2.imp_right .inl), h1, hn, Bool.not_true, Bool.false_eq_true, ↓reduceIte]

/-- The state but for the statistics, after the statistics alone have changed. -/
theorem SameBytes.stats (s : State) (x : Two EpochEngine) : SameBytes s { s with stats := x } := .of_mems rfl rfl rfl rfl

/-- What a boundary leaves, where the statistics of the world alone change. -/
theorem State.closed_begins (s : State) (w : World) (tb cause : Nat) (r : Bank × Bank) :
    let t : State := { s with stats := s.stats.set w ((s.stats.get w).closed tb cause s.qz.lf r) }
    ((t.stats.get w).start = tb ∧ (t.stats.get w).next = nextEpoch tb (t.stats.get w).periodMs
        ∧ (t.stats.get w).bounded = true ∧ t.ctxs = s.ctxs ∧ SameBytes s t)
      ∧ (t.stats.get w).latched = some { bank := r.1, start := (s.stats.get w).start, stop := tb, cause := cause ||| (s.stats.get w).cause }
      ∧ (t.stats.get w).bank = r.2 := by
  intro t
  have ht : t.stats.get w = (s.stats.get w).closed tb cause s.qz.lf r := Two.get_set_self _ _ _
  rw [ht]
  exact ⟨⟨rfl, rfl, rfl, rfl, .stats s _⟩, rfl, rfl⟩

@[simp] theorem State.msixRunning_stats (s : State) (w : World) (v : Nat) : (s.msixRunning w v).stats = s.stats :=
  (congrArg State.stats (State.msixRunning_frame s w v) :)

/-- Settles O43: a boundary is `State.takeBoundary`, which publishes and closes nothing where nothing runs. -/
theorem epochsClose : Obligations.EpochsClose := by
  intro s w e quiet parts begins
  refine ⟨fun hr hp hn ⟨hq1, hq2⟩ hl => ?period, fun v hd hv hr hp hb ⟨hq1, hq2⟩ hl => ?now, fun v hd hl hv hp hn => ?write,
    fun p hp hn => ?publish⟩
  case period =>
    refine ⟨_, rfl, ?_⟩
    rw [State.duePeriod_due hr hp hn, State.takeBoundary_quiet hq1 hq2 hl]
    exact s.closed_begins w e.next 1 (e.bank, e.bankNext)
  case now =>
    have hb0 : bitAt v.toNat 0 = true := by rw [← getLsbD_eq_bitAt]; exact hv
    refine ⟨_, rfl, ?_⟩
    rw [State.stCtlWrite, hd, hb0, Bool.and_self, if_pos rfl, State.trigger_alone hr hp hb, State.takeBoundary_quiet hq1 hq2 hl]
    have h := s.closed_begins w s.now 4 parts
    simp only [Bool.false_eq_true, ↓reduceIte]
    exact h
  case write =>
    have hbad : ((s.stats.get w).lock || decide (86400000 < v.toNat)) = false := by
      rw [hl, decide_eq_false (by omega)]; rfl
    have hno : (decide (v.toNat ≠ 0) && decide ((s.stats.get w).start + v.toNat * 1000000 ≤ s.now)) = false := by
      rcases hn with rfl | hn
      · rfl
      · rw [decide_eq_false (not_le.mpr hn), Bool.and_false]
    refine ⟨{ s with stats := s.stats.set w { e with periodMs := v.toNat, next := nextEpoch e.start v.toNat } },
      congrArg Host.Outcome.next ?_, Two.get_set_self _ _ _, rfl⟩
    simp only [State.stPeriodSet, hd, hbad, State.duePeriod_none hp, hno, Bool.false_eq_true, ↓reduceIte, Two.set_set]
    rfl
  case publish =>
    refine ⟨s.publish w, ?_, ?_⟩
    · have hp' : (s.stats.get w).latched = some p := hp
      simp only [exec, execEpochPublish, hp', hn, ↓reduceIte]
    · rw [State.publish, hp]
      simp only [State.msixRunning_stats, Two.get_upd]
      rfl

end Sys2Proof.Machine

namespace Sys2Proof.Machine

/-! ### Compare units (R438 to R443) -/

/-- What an event of a unit changes beside the unit: latches, Dumbwaiter requests, and the message (R443). -/
theorem State.cmpEvent_frame (s : State) (u : Nat) (late : Bool) :
    { s.cmpEvent u late with ctxs := s.ctxs, dws := s.dws, fns := s.fns, out := s.out }
      = s.modCmp u (fun x => { x with fired := true, late := x.late || late, pend := true }) := by
  unfold State.cmpEvent
  dsimp only
  generalize (if late = true then 3 else 1) = k
  split
  · split
    · exact (congrArg (fun t : State => { t with ctxs := s.ctxs, dws := s.dws }) (State.msixRunning_frame
        (((s.modCmp u (fun x => { x with fired := true, late := x.late || late, pend := true })).latchEvents 2 u k).dwRequestUnit u) _ _) :)
    · rfl
  · rfl

/-- The event of a unit: FIRED, PEND and LATE of this unit alone (R443). -/
theorem State.cmpEvent_cmp (s : State) (u : Nat) (late : Bool) (m : Nat) :
    (s.cmpEvent u late).cmp m
      = if m = u then { s.cmp u with fired := true, late := (s.cmp u).late || late, pend := true } else s.cmp m := by
  have hq := congrArg State.qz (s.cmpEvent_frame u late)
  rw [State.cmp, show (s.cmpEvent u late).qz = _ from hq, ← State.cmp, State.cmp_modCmp]

/-- A unit that matches takes its state after the match and has its event (R439). -/
theorem State.cmpMatch_cmp {s : State} {u : Nat} (h : (s.cmp u).matchesAt s.qz.window s.qz.prev s.qz.now = true) (m : Nat) :
    (s.cmpMatch u).cmp m = if m = u then { ((s.cmp u).afterMatch s.qz.now).1 with
        fired := true, late := ((s.cmp u).afterMatch s.qz.now).1.late || ((s.cmp u).afterMatch s.qz.now).2, pend := true }
      else s.cmp m := by
  simp only [State.cmpMatch, h, ↓reduceIte, State.cmpEvent_cmp, State.cmp_modCmp]
  split <;> rfl

/-- Under a Filino image no ROM program takes a step. -/
theorem State.romRun_image {s : State} (h : s.attic.config = .image) : s.romRun = s := by simp [State.romRun, h]

theorem State.cmpEvent_attic (s : State) (u : Nat) (late : Bool) : (s.cmpEvent u late).attic = s.attic := by
  have h := congrArg State.attic (s.cmpEvent_frame u late); exact h

theorem State.cmpMatch_attic (s : State) (u : Nat) : (s.cmpMatch u).attic = s.attic := by
  unfold State.cmpMatch
  dsimp only
  split
  · exact State.cmpEvent_attic _ u _
  · rfl

theorem execCompareMatch_eq {s : State} (h : s.attic.config = .image) (u : Nat) : exec (.compareMatch u) s = .next (s.cmpMatch u) :=
  congrArg Host.Outcome.next (State.romRun_image (by rw [s.cmpMatch_attic]; exact h))

/-- The distance by which a counter value stands past a target, modulo 2^32. -/
def cmpPast (t q : Nat) : Nat := (q % 2 ^ 32 + 2 ^ 32 - t % 2 ^ 32) % 2 ^ 32

theorem cmpPassed_iff {t q : Nat} : cmpPassed t q = true ↔ cmpPast t q < 2 ^ 31 := by
  simp only [cmpPassed, cmpPast, decide_eq_true_eq]

theorem cmpPast_add {t q k : Nat} (h : k ≤ cmpPast t q) : cmpPast (t + k) q = cmpPast t q - k := by
  simp only [cmpPast] at *; omega

theorem cmpPast_add_past {t q k : Nat} (h : cmpPast t q < k) (hk : k ≤ cmpPast t q + 2 ^ 32) :
    cmpPast (t + k) q = cmpPast t q + 2 ^ 32 - k := by
  simp only [cmpPast] at *; omega

/-- The automatic adds stop at the first target that is not passed (R440). -/
theorem cmpAdds_spec {t i q : Nat} (hi : 0 < i) (hi2 : i ≤ 2000000000) (hp : cmpPassed t q = true) :
    cmpPassed (t + cmpAdds t i q * i) q = false ∧ ∀ m, 1 ≤ m → m < cmpAdds t i q → cmpPassed (t + m * i) q = true := by
  have hd : cmpPast t q < 2 ^ 31 := cmpPassed_iff.mp hp
  have hn : cmpAdds t i q = cmpPast t q / i + 1 := rfl
  have hlow : cmpPast t q / i * i ≤ cmpPast t q := Nat.div_mul_le_self _ _
  have hhigh : cmpPast t q < (cmpPast t q / i + 1) * i := Nat.lt_mul_of_div_lt (Nat.lt_succ_self _) hi
  rw [hn]
  refine ⟨?_, fun m h1 hm => ?_⟩
  · rw [Bool.eq_false_iff, Ne, cmpPassed_iff, cmpPast_add_past hhigh (by rw [Nat.add_mul]; omega), Nat.add_mul]
    omega
  · have hle : m * i ≤ cmpPast t q := (Nat.mul_le_mul_right i (by omega : m ≤ cmpPast t q / i)).trans hlow
    rw [cmpPassed_iff, cmpPast_add hle]
    omega

theorem completes_compareMatch_once {s : State} {u : Nat} (hc : s.attic.config = .image)
    (h : (s.cmp u).matchesAt s.qz.window s.qz.prev s.qz.now = true) (hi : (s.cmp u).int = 0) :
    Completes (.compareMatch u) s (fun t => (t.cmp u).fired = true ∧ (t.cmp u).pend = true ∧ (t.cmp u).arm = false
      ∧ (t.cmp u).tgt = (s.cmp u).tgt ∧ (∀ m, m ≠ u → t.cmp m = s.cmp m)) := by
  refine ⟨_, execCompareMatch_eq hc u, ?_⟩
  simp only [State.cmpMatch_cmp h, ↓reduceIte, CmpUnit.afterMatch, hi]
  exact ⟨trivial, trivial, trivial, trivial, fun m hm => if_neg hm⟩

theorem completes_compareMatch_again {s : State} {u : Nat} (hc : s.attic.config = .image)
    (h : (s.cmp u).matchesAt s.qz.window s.qz.prev s.qz.now = true) (hi : (s.cmp u).int ≠ 0) (hi2 : (s.cmp u).int.toNat ≤ 2000000000)
    (hp : cmpPassed (s.cmp u).tgt.toNat s.qz.now = true) :
    Completes (.compareMatch u) s (fun t => (t.cmp u).fired = true ∧ (t.cmp u).pend = true ∧ (t.cmp u).arm = true
      ∧ (∃ n, 1 ≤ n ∧ (t.cmp u).tgt = BitVec.ofNat 32 ((s.cmp u).tgt.toNat + n * (s.cmp u).int.toNat)
        ∧ cmpPassed ((s.cmp u).tgt.toNat + n * (s.cmp u).int.toNat) s.qz.now = false
        ∧ (∀ m, 1 ≤ m → m < n → cmpPassed ((s.cmp u).tgt.toNat + m * (s.cmp u).int.toNat) s.qz.now = true)
        ∧ (t.cmp u).missed = satAt 65535 ((s.cmp u).missed + n - 1))
      ∧ (∀ m, m ≠ u → t.cmp m = s.cmp m)) := by
  have hpos : 0 < (s.cmp u).int.toNat := Nat.pos_of_ne_zero fun h0 => hi (BitVec.eq_of_toNat_eq h0)
  have harm : (s.cmp u).arm = true := by
    simp only [CmpUnit.matchesAt, Bool.and_eq_true] at h; exact h.1
  obtain ⟨hstop, hgo⟩ := cmpAdds_spec hpos hi2 hp
  refine ⟨_, execCompareMatch_eq hc u, ?_⟩
  simp only [State.cmpMatch_cmp h, ↓reduceIte, CmpUnit.afterMatch, hi]
  refine ⟨trivial, trivial, harm, ⟨cmpAdds (s.cmp u).tgt.toNat (s.cmp u).int.toNat s.qz.now, Nat.le_add_left 1 _, rfl, hstop, hgo, ?_⟩,
    fun m hm => if_neg hm⟩
  exact congrArg (satAt 65535) (Nat.add_sub_assoc (Nat.le_add_left 1 _) _).symm

/-! ### Writes to a compare unit (R441, R442) -/

/-- Quartz one advance on, with no write waiting (R434, R403). -/
def State.advanced (s : State) : State :=
  { s with qz := { s.qz with prev := s.qz.now, now := (s.qz.now + Config.advanceNs) % 2 ^ 64, writes := [] } }.landsKeep

/-- On the reference a write to a unit applies at the advance that it makes (R442). -/
theorem State.cmpAccept_eq {s : State} (hq : OnReference s) (u : Nat) (cw : CmpWrite) :
    s.cmpAccept u cw = s.advanced.cmpApply [(u, cw)] u := by
  obtain ⟨hlf, hlost, hrails, hw⟩ := hq
  simp [State.cmpAccept, State.tick, State.advanceTo, State.advanced, hlf, hlost, hrails, hw]

/-- A write with no event to a unit that then does not match. -/
theorem State.cmpApply_quiet {s : State} {u : Nat} {cw : CmpWrite} {x : CmpUnit} (hx : (s.cmp u).applyWrite s.qz.now cw = (x, false))
    (hm : x.matchesAt s.qz.window s.qz.prev s.qz.now = false) : s.cmpApply [(u, cw)] u = s.modCmp u (fun _ => x) := by
  have hap : (s.cmp u).applyAll s.qz.now [cw] = (x, false) := by simp only [CmpUnit.applyAll, hx, Bool.or_false]
  have hself : (s.modCmp u (fun _ => x)).cmp u = x := (State.cmp_modCmp s u _ u).trans (if_pos rfl)
  have hmatch : (s.modCmp u (fun _ => x)).cmpMatch u = s.modCmp u (fun _ => x) := by
    rw [State.cmpMatch, hself]
    exact if_neg (ne_true_of_eq_false hm)
  simp only [State.cmpApply, List.filter_cons, decide_true, ↓reduceIte, List.filter_nil, List.map_cons, List.map_nil, hap, hmatch]
  rfl

/-- An accepted write on the reference that has no event, to a unit that then does not match, changes the unit alone. -/
theorem State.cmpAccept_quiet {s : State} {u : Nat} {cw : CmpWrite} {x : CmpUnit} (hq : OnReference s)
    (hx : (s.cmp u).applyWrite ((s.qz.now + Config.advanceNs) % 2 ^ 64) cw = (x, false))
    (hm : x.matchesAt s.qz.window s.qz.now ((s.qz.now + Config.advanceNs) % 2 ^ 64) = false) :
    (s.cmpAccept u cw).qz.now = (s.qz.now + Config.advanceNs) % 2 ^ 64 ∧ (s.cmpAccept u cw).cmp u = x
      ∧ ∀ m, m ≠ u → (s.cmpAccept u cw).cmp m = s.cmp m := by
  have hc := State.cmp_modCmp s.advanced u (fun _ => x)
  rw [State.cmpAccept_eq hq, State.cmpApply_quiet (s := s.advanced) hx hm]
  exact ⟨rfl, (hc u).trans (if_pos rfl), fun m hne => (hc m).trans (if_neg hne)⟩

theorem State.cmpHostWrite_own {s : State} {w : World} {u : Nat} (hd : s.done = true) (hw : s.cmpWorld u = some w)
    (hl : (s.cmp u).lock = false) (off : Nat) (cw : CmpWrite) : s.cmpHostWrite w u off cw = s.cmpAccept u cw := by
  simp [State.cmpHostWrite, State.hostItem, hd, hw, hl]

theorem CmpUnit.matchesAt_unarmed {x : CmpUnit} (h : x.arm = false) (window : Bool) (prev now : Nat) :
    x.matchesAt window prev now = false := by simp [CmpUnit.matchesAt, h]

section
variable {s : State} {w : World} {u : Nat} (hq : OnReference s) (hd : s.done = true) (hw : s.cmpWorld u = some w)
  (hl : (s.cmp u).lock = false) (ha : (s.cmp u).arm = false)
include hq hd hw hl ha

theorem completes_cmpTgtWrite (v : W32) : Completes (.cmpTgtWrite w u v) s (fun t => t.qz.now = (s.qz.now + Config.advanceNs) % 2 ^ 64
    ∧ t.cmp u = { s.cmp u with tgt := v, tgtLate := cmpPassed v.toNat ((s.qz.now + Config.advanceNs) % 2 ^ 64) }
    ∧ ∀ m, m ≠ u → t.cmp m = s.cmp m) :=
  ⟨_, congrArg Host.Outcome.next (State.cmpHostWrite_own hd hw hl _ _),
    State.cmpAccept_quiet hq rfl (CmpUnit.matchesAt_unarmed (x := { s.cmp u with tgt := v, tgtLate := cmpPassed v.toNat _ }) ha _ _ _)⟩

theorem completes_cmpIntWrite {v : W32} (hv : v = 0 ∨ 1000 ≤ v.toNat ∧ v.toNat ≤ 2000000000) :
    Completes (.cmpIntWrite w u v) s (fun t => t.qz.now = (s.qz.now + Config.advanceNs) % 2 ^ 64
      ∧ t.cmp u = { s.cmp u with int := v } ∧ ∀ m, m ≠ u → t.cmp m = s.cmp m) := by
  have hok : ¬((1 ≤ v.toNat ∧ v.toNat ≤ 999) ∨ 2000000000 < v.toNat) := by
    rcases hv with rfl | hv
    · decide
    · omega
  refine ⟨_, congrArg Host.Outcome.next ((if_neg hok).trans (State.cmpHostWrite_own hd hw hl _ _)),
    State.cmpAccept_quiet hq ?_ (CmpUnit.matchesAt_unarmed ha _ _ _)⟩
  simp only [CmpUnit.applyWrite, ha, Bool.false_and, Bool.false_eq_true, ↓reduceIte]

omit ha in
theorem completes_cmpArmWrite {v : W32} (hv : v.getLsbD 0 = true) (hwin : s.qz.window = true)
    (hp : cmpPassed (s.cmp u).tgt.toNat ((s.qz.now + Config.advanceNs) % 2 ^ 64) = false) :
    Completes (.cmpArmWrite w u v) s (fun t => t.qz.now = (s.qz.now + Config.advanceNs) % 2 ^ 64
      ∧ (t.cmp u).arm = true ∧ (t.cmp u).irq = v.getLsbD 1 ∧ (t.cmp u).tgt = (s.cmp u).tgt ∧ (t.cmp u).fired = (s.cmp u).fired
      ∧ (bits v.toNat 16 11 < (s.wcfg w).msixCount → (t.cmp u).vec = bits v.toNat 16 11) ∧ ∀ m, m ≠ u → t.cmp m = s.cmp m) := by
  rw [getLsbD_eq_bitAt] at hv
  have h := State.cmpAccept_quiet (u := u) (cw := .ctl v (s.wcfg w).msixCount) hq rfl
    (by rw [hwin, CmpUnit.matchesAt, if_pos rfl]; exact (congrArg _ hp).trans (Bool.and_false _))
  obtain ⟨hnow, hu, hne⟩ := h
  refine ⟨_, congrArg Host.Outcome.next (State.cmpHostWrite_own hd hw hl _ _), hnow, ?_⟩
  rw [hu]
  exact ⟨hv, (getLsbD_eq_bitAt v 1).symm, rfl, rfl, fun hlt => if_pos hlt, hne⟩
end

/-! ### Two clocks, SYNC and linked counters (R435 to R437, R445) -/

theorem State.report_room {s : State} {m : W64} {c : Option Nat} (h : (s.fc.buf.filter (fun r => msgSource r.msg = msgSource m)).length < 4) :
    s.report m c = { s with fc := { s.fc with buf := s.fc.buf ++ [{ msg := m, ctx := c }] } } := if_pos h

theorem msgSource_faultMsg (source sub kind addr : Nat) (w : Option World) (severe : Bool) (h : source < 256) :
    msgSource (faultMsg source sub kind addr w severe) = source := by
  simp only [msgSource, faultMsg, bits, BitVec.toNat_ofNat]
  rcases w with _ | _ | _ <;> simp only <;> omega

theorem completes_refLost {s : State} (hp : s.powered = true) (hlf : s.qz.lf = false)
    (hb : (s.fc.buf.filter (fun r => msgSource r.msg = 99)).length < 4) : Completes (.refLost true) s (fun t => t.qz.lf = true
      ∧ t.qz.refLost = true ∧ t.qz.lfCnt = satInc32 s.qz.lfCnt ∧ t.qz.refLostBit = true ∧ t.qz.now = s.qz.now
      ∧ t.fc.buf = s.fc.buf ++ [⟨faultMsg 99 0 0x13 1 none false, none⟩]) := by
  simp only [Completes, exec, execRefLost, State.whenPowered, hp, ↓reduceIte, State.enterLf, hlf, Bool.false_eq_true]
  rw [State.report_room (by rw [msgSource_faultMsg _ _ _ _ _ _ (by decide)]; exact hb)]
  exact ⟨_, rfl, rfl, rfl, rfl, by simp, rfl, rfl⟩

theorem completes_lfAbsent {s : State} (hp : s.powered = true) (hlf : s.qz.lf = false) (ha : s.qz.lfAbsent = false)
    (hb : (s.fc.buf.filter (fun r => msgSource r.msg = 99)).length < 4) (r : Bool) :
    Completes (.lfAbsent r) s (fun t => t.qz = { s.qz with lfAbsent := true }
      ∧ t.fc.buf = s.fc.buf ++ [⟨faultMsg 99 0 0x13 2 none true, none⟩]) := by
  simp only [Completes, exec, execLfAbsent, State.whenPowered, hp, ↓reduceIte, ha, Bool.false_eq_true]
  rw [State.report_room (by rw [msgSource_faultMsg _ _ _ _ _ _ (by decide)]; exact hb)]
  simp only [hlf, Bool.false_and, Bool.false_eq_true, ↓reduceIte]
  exact ⟨_, rfl, rfl, rfl⟩

theorem completes_lfEdge_reference {s : State} (hp : s.powered = true) (hlf : s.qz.lf = false) (good : Bool) :
    Completes (.lfEdge good) s (fun t => t.qz = { s.qz with
        lfAbsent := false, tL := s.qz.now, lfEdges := 0, goodPeriods := if good then Nat.min 32 (s.qz.goodPeriods + 1) else 0 }
      ∧ { t with qz := s.qz } = s) := by
  simp only [Completes, exec, execLfEdge, hp, hlf, Bool.not_true, Bool.false_eq_true, ↓reduceIte]
  exact ⟨_, rfl, rfl, rfl⟩

/-- An LF edge in LF running sets the counter to the time of the edge, where that is later (R434, R436). -/
theorem completes_lfEdge_lf {s : State} (hp : s.powered = true) (hlf : s.qz.lf = true) (hw : s.qz.writes = []) (hn : s.qz.now < 2 ^ 64)
    (hk : s.qz.tL + (s.qz.lfEdges + 1) * 1953125 / 64 < 2 ^ 64) :
    Completes (.lfEdge false) s (fun t => t.qz.now = Nat.max s.qz.now (s.qz.tL + (s.qz.lfEdges + 1) * 1953125 / 64)
      ∧ t.qz.lfEdges = s.qz.lfEdges + 1 ∧ t.qz.lf = true ∧ t.qz.units = s.qz.units) := by
  have hmax : Nat.max s.qz.now (s.qz.tL + lfNs (s.qz.lfEdges + 1)) % 2 ^ 64 = Nat.max s.qz.now (s.qz.tL + lfNs (s.qz.lfEdges + 1)) :=
    Nat.mod_eq_of_lt (Nat.max_lt.mpr ⟨hn, hk⟩)
  simp only [Completes, exec, execLfEdge, hp, hlf, Bool.not_true, Bool.false_eq_true, ↓reduceIte]
  have hg : ¬(32 ≤ goodAfter s.qz.goodPeriods false ∧ (!s.qz.debugHalt) = true) := fun h => absurd h.1 (by simp [goodAfter])
  rw [if_neg hg]
  split
  · next heq => exact ⟨_, rfl, heq.symm, rfl, rfl, rfl⟩
  · refine ⟨_, rfl, ?_⟩
    simp only [State.advanceTo, hw, List.map_nil, List.dedup_nil, List.foldl_nil]
    exact ⟨hmax, rfl, rfl, rfl⟩

theorem completes_statSync {s : State} {since : Nat} (hp : s.powered = true) (hlf : s.qz.lf = false) (h1 : since + 1000 ≤ s.now)
    (h2 : s.qz.sync + 100000 ≤ since) (h3 : s.qz.syncFalling = false) (h4 : (s.stats.get .slate).syncEn = false)
    (h5 : (s.stats.get .granite).syncEn = false) : Completes (.statSync since true) s (fun t =>
      t.qz = { s.qz with sync := since, syncCnt := satInc32 s.qz.syncCnt } ∧ { t with qz := s.qz } = s) := by
  refine ⟨{ s with qz := { s.qz with sync := since, syncCnt := satInc32 s.qz.syncCnt } }, ?_, rfl, rfl⟩
  simp [exec, execStatSync, hp, hlf, h1, h2, h3, h4, h5]

theorem State.linkedAt_quartz (s : State) (w : World) : s.linkedAt w 0x400000 = some (.qz, s.qz.now) := rfl

theorem completes_linkedLowRead {s : State} {w : World} (hp : s.powered = true) (hd : s.done = true) :
    Completes (.linkedLowRead w 0x400000) s (fun t => t.out = s.out ++ [.readData (BitVec.ofNat 64 (s.qz.now % 2 ^ 32))]
      ∧ t.qz.snap.get w = { low := some 0x400000, high := BitVec.ofNat 32 (s.qz.now / 2 ^ 32) } ∧ t.qz.now = s.qz.now) := by
  simp only [Completes, exec, execLinkedLowRead, State.whenPowered, hp, ↓reduceIte, Bool.false_eq_true, State.linkedLow, hd,
    State.linkedAt_quartz, Option.map_some, Option.getD_some]
  exact ⟨_, rfl, rfl, Two.get_set_self _ _ _, rfl⟩

theorem State.linkedHigh_quartz {s : State} {w : World} (hd : s.done = true) : s.linkedHigh w 0x400004
    = some (if (s.qz.snap.get w).low = some 0x400000 then (BitVec.ofNat 64 (s.qz.snap.get w).high.toNat, s)
        else (BitVec.ofNat 64 (s.qz.now / 2 ^ 32 % 2 ^ 32), s.setTorn w .qz)) := by
  have hle : decide (4 ≤ 0x400004) = true := rfl
  have hsub : (0x400004 : Nat) - 4 = 0x400000 := rfl
  simp only [State.linkedHigh, hd, hle, Bool.and_self, ↓reduceIte, hsub, State.linkedAt_quartz, Option.map_some, State.snapOf]

theorem completes_linkedHighRead {s : State} {w : World} (hp : s.powered = true) (hd : s.done = true) :
    ((s.qz.snap.get w).low = some 0x400000 → Completes (.linkedHighRead w 0x400004) s (fun t =>
        t = { s with out := s.out ++ [.readData (BitVec.ofNat 64 (s.qz.snap.get w).high.toNat)] }))
    ∧ ((s.qz.snap.get w).low ≠ some 0x400000 → Completes (.linkedHighRead w 0x400004) s (fun t =>
        t.out = s.out ++ [.readData (BitVec.ofNat 64 (s.qz.now / 2 ^ 32 % 2 ^ 32))] ∧ t.qz.torn.get w = true ∧ t.qz.now = s.qz.now)) := by
  simp only [Completes, exec, execLinkedHighRead, State.whenPowered, hp, ↓reduceIte, State.linkedHigh_quartz hd, Option.getD_some]
  refine ⟨fun h => ⟨_, rfl, ?_⟩, fun h => ⟨_, rfl, ?_⟩⟩
  · rw [if_pos h]; rfl
  · rw [if_neg h]; exact ⟨rfl, Two.get_set_self _ _ _, rfl⟩

/-- Settles O42: clause by clause, with the lemmas above. -/
theorem quartzCounts : Obligations.QuartzCounts := by
  intro s w z now
  exact ⟨completes_refLost, completes_lfEdge_reference, completes_lfEdge_lf, completes_lfAbsent,
    fun u hq hd hw hl ha => ⟨completes_cmpTgtWrite hq hd hw hl ha, fun v hv => completes_cmpIntWrite hq hd hw hl ha hv,
      fun v hv hwin hp => completes_cmpArmWrite hq hd hw hl hv hwin hp⟩,
    fun u hc h => ⟨completes_compareMatch_once hc h, completes_compareMatch_again hc h⟩,
    fun since => completes_statSync, completes_linkedLowRead, fun hp hd => (completes_linkedHighRead hp hd).1,
    fun hp hd => (completes_linkedHighRead hp hd).2⟩

end Sys2Proof.Machine

namespace Sys2Proof.Machine

/-! ### Mailboxes (R278, R279) -/

theorem State.msix_sends {s : State} {w : World} {vec : Nat} (h : Sends s w vec) : s.msix w vec = s.emit (.msix w vec) := by
  obtain ⟨hv, hm⟩ := h
  exact (if_pos hv).trans (if_neg (ne_true_of_eq_false hm))

/-- Of the rest of the state nothing but the other mailboxes' owner functions and what is put out may have changed. -/
def OnlyMailbox (s t : State) (m : Nat) : Prop :=
  (∀ n, n ≠ m → t.mb n = s.mb n) ∧ { t with mbs := s.mbs, fns := s.fns, out := s.out } = s

theorem State.modMb_only (s : State) (m : Nat) (f : Mailbox → Mailbox) :
    OnlyMailbox s (s.modMb m f) m ∧ (s.modMb m f).mb m = f (s.mb m) ∧ (s.modMb m f).out = s.out :=
  ⟨⟨fun n hn => (State.mb_modMb s m f n).trans (if_neg hn), rfl⟩, (State.mb_modMb s m f m).trans (if_pos rfl), rfl⟩

theorem OnlyMailbox.emit {s t : State} {m : Nat} (h : OnlyMailbox s t m) (o : OutItem) : OnlyMailbox s (t.emit o) m :=
  ⟨h.1, (congrArg (fun t : State => { t with out := s.out }) h.2 :)⟩

theorem OnlyMailbox.msix {s t : State} {m : Nat} (h : OnlyMailbox s t m) (w : World) (v : Nat) : OnlyMailbox s (t.msix w v) m := by
  have hf := State.msix_frame t w v
  exact ⟨fun n hn => (congrArg (fun u : State => u.mb n) hf :).trans (h.1 n hn),
    (congrArg (fun u : State => { u with mbs := s.mbs, fns := s.fns, out := s.out }) hf :).trans h.2⟩

theorem State.mbHost_own {s : State} {w : World} {m : Nat} (hd : s.done = true) (hw : s.mbWorld m = some w) (hp : s.mbPartner m ≠ 0)
    (off : Nat) (k : State → State) : s.mbHost w m off k = k s := by
  simp [State.mbHost, State.hostItem, hd, hw, hp]

/-! ### Bits of a word -/

/-- A number with a bit taken away that it has. -/
theorem bitAt_sub_two_pow {v b : Nat} (hb : bitAt v b = true) (j : Nat) : bitAt (v - 2 ^ b) j = (bitAt v j && decide (j ≠ b)) := by
  rw [bitAt_eq_testBit] at hb ⊢
  rw [bitAt_eq_testBit]
  have hr : v % 2 ^ b < 2 ^ b := Nat.mod_lt _ (Nat.two_pow_pos b)
  have hodd : v / 2 ^ b % 2 = 1 := by rwa [Nat.testBit_eq_decide_div_mod_eq, decide_eq_true_eq] at hb
  have hv : v = 2 ^ b * (2 * (v / 2 ^ b / 2) + 1) + v % 2 ^ b := by
    have h1 := Nat.div_add_mod v (2 ^ b)
    have h2 : 2 * (v / 2 ^ b / 2) + 1 = v / 2 ^ b := by omega
    rw [h2]; exact h1.symm
  have hsub : v - 2 ^ b = 2 ^ b * (2 * (v / 2 ^ b / 2)) + v % 2 ^ b := by
    have : v - 2 ^ b = 2 ^ b * (2 * (v / 2 ^ b / 2) + 1) + v % 2 ^ b - 2 ^ b := by rw [← hv]
    rw [this, Nat.mul_add, Nat.mul_one]; omega
  rw [hsub, Nat.testBit_two_pow_mul_add _ hr]
  conv_rhs => rw [hv, Nat.testBit_two_pow_mul_add _ hr]
  rcases lt_trichotomy j b with hj | rfl | hj
  · simp [hj, hj.ne]
  · simp
  · obtain ⟨k, rfl⟩ : ∃ k, j = b + (k + 1) := ⟨j - b - 1, by omega⟩
    have h1 : ¬ b + (k + 1) < b := by omega
    have h2 : b + (k + 1) - b = k + 1 := by omega
    have h3 : (2 * (v / 2 ^ b / 2) + 1) / 2 = v / 2 ^ b / 2 := by omega
    simp [h2, Nat.testBit_succ, h3]

theorem bitAt_or (a b i : Nat) : bitAt (a ||| b) i = (bitAt a i || bitAt b i) := by
  simp only [bitAt_eq_testBit, Nat.testBit_or]

theorem bitAt_xor (a b i : Nat) : bitAt (a ^^^ b) i = (bitAt a i ^^ bitAt b i) := by
  simp only [bitAt_eq_testBit, Nat.testBit_xor]

theorem bitAt_mod (v : Nat) {i n : Nat} (h : i < n) : bitAt (v % 2 ^ n) i = bitAt v i := by
  simp only [bitAt_eq_testBit, Nat.testBit_mod_two_pow, h, decide_true, Bool.true_and]

theorem bitAt_div (v n i : Nat) : bitAt (v / 2 ^ n) i = bitAt v (n + i) := by
  simp only [bitAt_eq_testBit, Nat.testBit_div_two_pow, Nat.add_comm]

theorem bitAt_sub_self (v b : Nat) : bitAt (if bitAt v b then v - 2 ^ b else v) b = false := by
  by_cases h : bitAt v b = true
  · rw [if_pos h, bitAt_sub_two_pow h]; simp
  · rw [if_neg h]; simpa using h

theorem bitAt_sub_ne (v : Nat) {b j : Nat} (hj : j ≠ b) : bitAt (if bitAt v b then v - 2 ^ b else v) j = bitAt v j := by
  by_cases h : bitAt v b = true
  · rw [if_pos h, bitAt_sub_two_pow h]; simp [hj]
  · rw [if_neg h]

/-! ### Requests, acknowledges, notes and messages -/

theorem completes_mbRequest {s : State} {w : World} {m : Nat} (hw : s.mbWorld m = some w) (hp : s.mbPartner m ≠ 0) (hd : s.done = true)
    (v : W32) : Completes (.mbRequest w m v) s (fun t => OnlyMailbox s t m ∧ t.out = s.out
      ∧ (∀ i, i < 16 → bitAt (t.mb m).req i = (bitAt (s.mb m).req i || v.getLsbD i)
        ∧ bitAt (t.mb m).note i = (bitAt (s.mb m).note i && !v.getLsbD (16 + i)))
      ∧ { t.mb m with req := (s.mb m).req, note := (s.mb m).note } = s.mb m) := by
  obtain ⟨ho, hx, hout⟩ := s.modMb_only m (fun x =>
    { x with req := x.req ||| v.toNat % 65536, note := (x.note ||| v.toNat / 65536 % 65536) ^^^ (v.toNat / 65536 % 65536) })
  refine ⟨_, congrArg Host.Outcome.next (State.mbHost_own hd hw hp 0 _), ho, hout, fun i hi => ?_, by rw [hx]⟩
  rw [hx]
  simp only [bitAt_or, bitAt_xor, getLsbD_eq_bitAt]
  rw [show (65536 : Nat) = 2 ^ 16 from rfl, bitAt_mod _ hi, bitAt_mod _ hi, bitAt_div]
  exact ⟨rfl, by cases bitAt (s.mb m).note i <;> cases bitAt v.toNat (16 + i) <;> rfl⟩

/-- A mailbox after an acknowledge has been delivered (R279). -/
def Mailbox.delivered (x : Mailbox) (code b : Nat) (reply : List (Nat × W64)) : Mailbox :=
  { x with
    msg := reply.foldl (fun t p => if p.1 < 8 then Tbl.put 0 t p.1 p.2 else t) x.msg
    ackCode := code, ackBit := b, ackValid := true
    req := if bitAt x.req b then x.req - 2 ^ b else x.req }

theorem State.mbDeliver_sends {s : State} {w : World} {m : Nat} (hw : s.mbWorld m = some w) (hs : Sends s w (s.mb m).vec)
    (code b : Nat) (reply : List (Nat × W64)) :
    OnlyMailbox s (s.mbDeliver m code b reply) m ∧ (s.mbDeliver m code b reply).mb m = (s.mb m).delivered code b reply
      ∧ (s.mbDeliver m code b reply).out = s.out ++ [.msix w (s.mb m).vec] := by
  obtain ⟨ho, hx, hout⟩ := s.modMb_only m (fun x => x.delivered code b reply)
  have hd : s.mbDeliver m code b reply = (s.modMb m (fun x => x.delivered code b reply)).emit (.msix w (s.mb m).vec) := by
    rw [State.mbDeliver, hw]
    exact State.msix_sends (s := s.modMb m _) hs
  rw [hd]
  exact ⟨ho.emit _, hx, congrArg (· ++ _) hout⟩

theorem completes_mbAcknowledge {s : State} {w : World} {m bit i : Nat} {code : BitVec 16} {v : W64} (hw : s.mbWorld m = some w)
    (hp : s.mbPartner m ≠ 0) (hb : bit < 16) (hi : i < 8) (hh : ¬(s.fc.graniteHalt = true ∧ w = .granite ∧ s.mbPartner m = 1)) :
    ((s.mb m).ackValid = false → Sends s w (s.mb m).vec → Completes (.mbAcknowledge m code bit [(i, v)]) s (fun t => OnlyMailbox s t m
        ∧ (t.mb m).ackValid = true ∧ (t.mb m).ackCode = code.toNat ∧ (t.mb m).ackBit = bit ∧ bitAt (t.mb m).req bit = false
        ∧ (∀ j, j ≠ bit → bitAt (t.mb m).req j = bitAt (s.mb m).req j) ∧ Tbl.get 0 (t.mb m).msg i = v
        ∧ (∀ j, j ≠ i → Tbl.get 0 (t.mb m).msg j = Tbl.get 0 (s.mb m).msg j) ∧ t.out = s.out ++ [.msix w (s.mb m).vec]))
      ∧ ((s.mb m).ackValid = true → Completes (.mbAcknowledge m code bit [(i, v)]) s (fun t => OnlyMailbox s t m ∧ t.out = s.out
        ∧ t.mb m = { s.mb m with held := (s.mb m).held ++ [(code.toNat, bit, [(i, v)])] })) := by
  have hex : exec (.mbAcknowledge m code bit [(i, v)]) s = .next (s.mbAck m code.toNat bit [(i, v)]) := by
    refine congrArg Host.Outcome.next (if_neg ?_)
    simp only [hw, hp, Bool.or_eq_true, Bool.and_eq_true, decide_eq_true_eq, false_or, not_or, Option.some.injEq]
    exact ⟨fun h => hh ⟨h.1.1, h.1.2, h.2⟩, by omega⟩
  refine ⟨fun hv hs => ⟨_, hex, ?_⟩, fun hv => ⟨_, hex, ?_⟩⟩
  · obtain ⟨ho, hx, hout⟩ := State.mbDeliver_sends hw hs code.toNat bit [(i, v)]
    rw [State.mbAck, hv, if_neg Bool.false_ne_true, hx]
    refine ⟨ho, rfl, rfl, rfl, bitAt_sub_self _ _, fun j hj => bitAt_sub_ne _ hj, ?_, fun j hj => ?_, hout⟩
    · exact (congrArg (Tbl.get 0 · i) (if_pos hi)).trans (Tbl.get_put_self 0 _ i v)
    · exact (congrArg (Tbl.get 0 · j) (if_pos hi)).trans (Tbl.get_put_ne 0 _ v hj)
  · obtain ⟨ho, hx, hout⟩ := s.modMb_only m (fun x => { x with held := x.held ++ [(code.toNat, bit, [(i, v)])] })
    rw [State.mbAck, hv, if_pos rfl]
    exact ⟨ho, hout, hx⟩

theorem completes_mbAckClear {s : State} {w : World} {m : Nat} (hw : s.mbWorld m = some w) (hp : s.mbPartner m ≠ 0) {v : W32}
    (hd : s.done = true) (hv : v.getLsbD 31 = true) (ha : (s.mb m).ackValid = true) :
    ((s.mb m).held = [] → Completes (.mbAckClear w m v) s (fun t => OnlyMailbox s t m ∧ t.out = s.out
        ∧ t.mb m = { s.mb m with ackValid := false }))
      ∧ (∀ code bit reply rest, (s.mb m).held = (code, bit, reply) :: rest → Sends s w (s.mb m).vec →
        Completes (.mbAckClear w m v) s (fun t => OnlyMailbox s t m
          ∧ (t.mb m).ackValid = true ∧ (t.mb m).ackCode = code ∧ (t.mb m).ackBit = bit ∧ (t.mb m).held = rest
          ∧ t.out = s.out ++ [.msix w (s.mb m).vec])) := by
  rw [getLsbD_eq_bitAt] at hv
  have hex : exec (.mbAckClear w m v) s = .next (match (s.mb m).held with
      | [] => s.modMb m (fun x => { x with ackValid := false })
      | (c, b, r) :: rest => (s.modMb m (fun x => { x with ackValid := false, held := rest })).mbDeliver m c b r) := by
    refine congrArg Host.Outcome.next ((State.mbHost_own hd hw hp 8 _).trans ?_)
    rw [hv, ha, Bool.and_self, if_pos rfl] <;> rfl
  refine ⟨fun hh => ⟨_, hex, ?_⟩, fun code bit reply rest hh hs => ⟨_, hex, ?_⟩⟩
  · obtain ⟨ho, hx, hout⟩ := s.modMb_only m (fun x => { x with ackValid := false })
    rw [hh]
    exact ⟨ho, hout, hx⟩
  · obtain ⟨ho, hx, hout⟩ := s.modMb_only m (fun x => { x with ackValid := false, held := rest })
    have hvec : ((s.modMb m (fun x => { x with ackValid := false, held := rest })).mb m).vec = (s.mb m).vec := by rw [hx]
    obtain ⟨ho2, hx2, hout2⟩ := State.mbDeliver_sends (s := s.modMb m (fun x => { x with ackValid := false, held := rest }))
      (w := w) (m := m) hw (by rw [hvec]; exact hs) code bit reply
    rw [hh]
    dsimp only
    rw [hx2, hx, hout2, hvec, hout]
    exact ⟨⟨fun n hn => (ho2.1 n hn).trans (ho.1 n hn),
      (congrArg (fun t : State => { t with mbs := s.mbs, fns := s.fns, out := s.out }) ho2.2 :).trans ho.2⟩, rfl, rfl, rfl, rfl, rfl⟩

theorem completes_mbNote {s : State} {w : World} {m : Nat} (hw : s.mbWorld m = some w) (hp : s.mbPartner m ≠ 0) (v : BitVec 16) :
    Completes (.mbNote m v) s (fun t => OnlyMailbox s t m ∧ t.mb m = { s.mb m with note := (s.mb m).note ||| v.toNat }
      ∧ (Sends s w (s.mb m).vec → t.out = (if (List.range 16).any (fun i => v.getLsbD i && !bitAt (s.mb m).noteMask i)
        then s.out ++ [.msix w (s.mb m).vec] else s.out))) := by
  obtain ⟨ho, hx, hout⟩ := s.modMb_only m (fun x => { x with note := x.note ||| v.toNat })
  have hex : exec (.mbNote m v) s = .next (if (List.range 16).any (fun i => v.getLsbD i && !bitAt (s.mb m).noteMask i)
      then (s.modMb m (fun x => { x with note := x.note ||| v.toNat })).msix w (s.mb m).vec
      else s.modMb m (fun x => { x with note := x.note ||| v.toNat })) := by
    refine congrArg Host.Outcome.next ((if_neg hp).trans ?_)
    simp only [State.mbNoteSet, hw, getLsbD_eq_bitAt]
  refine ⟨_, hex, ?_⟩
  split
  · exact ⟨ho.msix w _, (congrArg (fun t : State => t.mb m) (State.msix_frame _ w _) :).trans hx,
      fun hs => by rw [State.msix_sends (s := s.modMb m _) hs]; exact congrArg (· ++ _) hout⟩
  · exact ⟨ho, hx, fun _ => hout⟩

theorem completes_mbMsgWrite {s : State} {w : World} {m : Nat} (hw : s.mbWorld m = some w) (hp : s.mbPartner m ≠ 0) {i : Nat} {v : W64}
    (hd : s.done = true) (hi : i < 8) :
    ((s.mb m).req = 0 → (s.mb m).ackValid = false → Completes (.mbMsgWrite w m i v) s (fun t => OnlyMailbox s t m ∧ t.out = s.out
        ∧ t.mb m = { s.mb m with msg := Tbl.put 0 (s.mb m).msg i v }))
      ∧ ((s.mb m).req ≠ 0 ∨ (s.mb m).ackValid = true → Completes (.mbMsgWrite w m i v) s (fun t => OnlyMailbox s t m ∧ t.out = s.out
        ∧ t.mb m = { s.mb m with collide := true })) := by
  obtain ⟨ho, hx, hout⟩ := s.modMb_only m (fun x =>
    if x.req ≠ 0 ∨ x.ackValid then { x with collide := true } else { x with msg := Tbl.put 0 x.msg i v })
  have hex : exec (.mbMsgWrite w m i v) s = .next (s.modMb m (fun x =>
      if x.req ≠ 0 ∨ x.ackValid then { x with collide := true } else { x with msg := Tbl.put 0 x.msg i v })) :=
    congrArg Host.Outcome.next ((if_pos hi).trans (State.mbHost_own hd hw hp _ _))
  refine ⟨fun hr ha => ⟨_, hex, ho, hout, hx.trans (if_neg ?_)⟩, fun h => ⟨_, hex, ho, hout, hx.trans (if_pos h)⟩⟩
  simp [hr, ha]

/-- Settles O33: each command is a change of the one mailbox, with its message where one is due. -/
theorem mailboxesExchange : Obligations.MailboxesExchange := by
  intro s w m hw hp x only
  exact ⟨fun v hd => completes_mbRequest hw hp hd v, fun code bit i v hb hi hh => completes_mbAcknowledge hw hp hb hi hh,
    fun v hd hv ha => completes_mbAckClear hw hp hd hv ha, fun v => completes_mbNote hw hp v,
    fun i v hd hi => completes_mbMsgWrite hw hp hd hi⟩

end Sys2Proof.Machine

namespace Sys2Proof.Machine

/-! ### The flash service (R281 to R283, R503) -/

/-- An acknowledge on a mailbox that is free for it is delivered at once. -/
theorem State.mbAck_free {s : State} {m : Nat} (h : (s.mb m).ackValid = false) (code bit : Nat) (reply : List (Nat × W64)) :
    s.mbAck m code bit reply = s.mbDeliver m code bit reply := by
  rw [State.mbAck, h, if_neg Bool.false_ne_true]

/-- The mailboxes after a delivery. -/
theorem State.mb_mbDeliver (s : State) (m code bit : Nat) (reply : List (Nat × W64)) :
    (s.mbDeliver m code bit reply).mb m = (s.mb m).delivered code bit reply
      ∧ ∀ n, n ≠ m → (s.mbDeliver m code bit reply).mb n = s.mb n := by
  have hmb : ∀ n, (s.mbDeliver m code bit reply).mb n = (s.modMb m (fun x => x.delivered code bit reply)).mb n := by
    intro n
    rw [State.mbDeliver]
    cases s.mbWorld m with
    | none => rfl
    | some w => exact (congrArg (fun t : State => t.mb n) (State.msix_frame (s.modMb m (fun x => x.delivered code bit reply)) w _) :)
  obtain ⟨ho, hx, -⟩ := s.modMb_only m (fun x => x.delivered code bit reply)
  exact ⟨(hmb m).trans hx, fun n hn => (hmb n).trans (ho.1 n hn)⟩

/-- The service's acknowledge of a state u whose mailboxes are those of s reaches the host, and leaves the flash as it is in u. -/
theorem State.flashAck_of {s u : State} {m : Nat} (hu : u.mbs = s.mbs) (h : (s.mb m).ackValid = false) (bit code : Nat) (msg1 : Option Nat) :
    FlashAcked s (u.flashAck m bit code msg1) m bit code msg1 ∧ (u.flashAck m bit code msg1).flash = u.flash
      ∧ (u.flashAck m bit code msg1).flint = u.flint := by
  have hmb : ∀ n, u.mb n = s.mb n := fun n => congrArg (fun l => Tbl.get ({} : Mailbox) l n) hu
  have hv : (u.mb m).ackValid = false := (congrArg Mailbox.ackValid (hmb m)).trans h
  have acked : ∀ reply : List (Nat × W64), (∀ v, msg1 = some v → reply = [(1, BitVec.ofNat 64 v)]) → (msg1 = none → reply = []) →
      FlashAcked s (u.mbAck m code bit reply) m bit code msg1 ∧ (u.mbAck m code bit reply).flash = u.flash
        ∧ (u.mbAck m code bit reply).flint = u.flint := by
    intro reply hsome hnone
    rw [State.mbAck_free hv]
    obtain ⟨hm, hn⟩ := u.mb_mbDeliver m code bit reply
    have hf := State.mbDeliver_frame u m code bit reply
    refine ⟨⟨?_, ?_, ?_, ?_, fun v hv => ?_, fun he => ?_, fun n hne => (hn n hne).trans (hmb n)⟩,
      (congrArg State.flash hf :), (congrArg State.flint hf :)⟩
    · rw [hm]; rfl
    · rw [hm]; rfl
    · rw [hm]; rfl
    · rw [hm]; exact bitAt_sub_self _ _
    · rw [hm, hsome v hv]; exact Tbl.get_put_self 0 _ 1 _
    · rw [hm, hnone he, ← hmb m]; rfl
  cases msg1 with
  | none => exact acked [] (fun v hv => nomatch hv) (fun _ => rfl)
  | some v => exact acked [(1, BitVec.ofNat 64 v)] (fun v hv => by cases hv; rfl) (fun he => nomatch he)

/-- A request of the operation is served. -/
theorem State.flashServe_asks {s : State} {w : World} {m bit op : Nat} (h : FlashAsks s w m bit op) (f : State → Nat → State) :
    s.flashServe w bit op f = f s m := by
  obtain ⟨hm, hd, hb, hr, ho, -⟩ := h
  simp [State.flashServe, hm, hd, hr, ho, Nat.not_le.mpr hb]

/-- Byte i of a run of doublewords is byte i mod 8 of doubleword i / 8. -/
theorem flatMap_leBytes_getElem (f : Nat → Nat) (n : Nat) {i : Nat} (h : i < ((List.range n).flatMap (fun i => leBytes 8 (f i))).length) :
    ((List.range n).flatMap (fun i => leBytes 8 (f i)))[i] = BitVec.ofNat 8 (f (i / 8) / 2 ^ (8 * (i % 8))) := by
  induction n with
  | zero => simp at h
  | succ n ih =>
    have hi : i < (n + 1) * 8 := by rwa [length_flatMap_leBytes] at h
    simp only [List.range_succ, List.flatMap_append, List.getElem_append, length_flatMap_leBytes]
    by_cases hn : i < n * 8
    · rw [dif_pos hn, ih]
    · rw [dif_neg hn]
      simp only [List.flatMap_cons, List.flatMap_nil, List.append_nil, leBytes_getElem]
      rw [show i / 8 = n by omega, show i - n * 8 = i % 8 by omega]

/-- A served operation that ends with an acknowledge: the flash and the verifier are as the operation left them. -/
theorem completes_flash {i : Instr} {s : State} {w : World} {m bit op code : Nat} {msg1 : Option Nat} {f : State → Nat → State} {P : State → Prop}
    (hi : exec i s = .next (s.flashServe w bit op f)) (hq : FlashAsks s w m bit op) (u : State) (hf : f s m = u.flashAck m bit code msg1)
    (hu : u.mbs = s.mbs) (h : ∀ t : State, FlashAcked s t m bit code msg1 → t.flash = u.flash → t.flint = u.flint → P t) :
    Completes i s P := by
  obtain ⟨-, -, -, -, -, hv⟩ := id hq
  obtain ⟨ha, hfl, hfi⟩ := State.flashAck_of hu hv bit code msg1
  refine ⟨_, hi, ?_⟩
  rw [State.flashServe_asks hq, hf]
  exact h _ ha hfl hfi

/-- Settles O34: each operation acts on the flash, and its acknowledge moves the mailbox alone. -/
theorem flashServiceActs : Obligations.FlashServiceActs := by
  intro s w m bit
  refine ⟨fun hq hs hk hg => ?_, fun hq hs => ?_, fun x hx hw => ⟨fun hq h1 h40 hoff hmax => ?_, fun hq hc ha => ?_, fun hq hc hw' hk hd => ?_,
    fun hq => ?_, fun hq => ?_⟩⟩
  · have hg' : (decide (s.flashTarget m = 2) && decide (w = .slate)) = false := by simpa using hg
    have hs' : ¬ s.flash.session.isSome = true := by simp [hs]
    refine completes_flash rfl hq _ ((if_neg hs').trans ((if_neg hk).trans (if_neg (Bool.eq_false_iff.mp hg')))) rfl
      (fun t hack hfl _ => ⟨hack, by rw [hfl], fun a => ?_⟩)
    rw [hfl]; exact s.byte_flashErase _ _ a
  · exact completes_flash rfl hq s (if_pos hs) rfl (fun t hack hfl _ => ⟨hack, hfl⟩)
  · have hm : x.mine w = true := decide_eq_true hw
    have hr : (decide (s.mbMsg m 2 = 0) || decide (40 < s.mbMsg m 2) || decide (s.mbMsg m 1 ≠ x.written)
        || decide (copyMax x.target < s.mbMsg m 1 + s.mbMsg m 2)) = false := by simp; omega
    have hlen : (((List.range 5).flatMap (fun i => leBytes 8 (s.mbMsg m (3 + i)))).take (s.mbMsg m 2)).length = s.mbMsg m 2 := by
      rw [List.length_take, length_flatMap_leBytes]; omega
    refine completes_flash (code := 0) (msg1 := none) rfl hq 
      ({ s with
        flash := {
          mem := Memory.write 0xFF s.flash.mem (x.base + s.mbMsg m 1) (((List.range 5).flatMap (fun i => leBytes 8 (s.mbMsg m (3 + i)))).take (s.mbMsg m 2))
          session := some { x with written := s.mbMsg m 1 + s.mbMsg m 2 } } }) ?hf ?hu ?ends
    case hf => dsimp only; rw [hx]; exact (if_neg (by simp [hm])).trans (if_neg (Bool.eq_false_iff.mp hr))
    case hu => rfl
    case ends =>
      refine fun t hack hfl _ => ⟨hack, by rw [hfl], fun i hi => ?_, fun a ha => ?_⟩
      · rw [hfl]
        refine (Memory.byte_write 0xFF s.flash.mem _ _ (hlen.symm ▸ hi)).trans ?_
        rw [List.getElem_take, flatMap_leBytes_getElem, extractLsb'_eq_ofNat]
        rfl
      · rw [hfl]
        exact Memory.byte_write_of_out 0xFF s.flash.mem _ _ (by rwa [hlen])
  · have hm : x.mine w = true := decide_eq_true hw
    have hg : (decide (w = .slate) && decide (x.target = 1)
        && decide (s.graniteDigest x.base ≠ s.attic.gdigest)) = false := by
      obtain ⟨hgr, -⟩ := Bool.or_eq_false_iff.mp ha
      rw [Bool.and_assoc, hgr, Bool.and_false]
    refine completes_flash rfl hq ((s.flashChecked x.base (copyMax x.target)).flashClose)
      (by
        dsimp only; rw [hx]; dsimp only
        rw [hm, hc]
        refine (if_neg (by simp)).trans ((if_neg (by simp)).trans ((if_neg ?_).trans (congrArg (fun t : State => t.flashAck m bit 0 _) (if_neg ?_))))
        · exact Bool.eq_false_iff.mp hg
        · exact Bool.eq_false_iff.mp ha) rfl
      (fun t hack hfl hfi => ⟨hack, by rw [hfl]; rfl, by rw [hfl]; rfl, hfi⟩)
  · have hm : x.mine w = true := decide_eq_true hw
    refine completes_flash (code := 4) (msg1 := some (s.genInForce x.target)) rfl hq 
      ({ s.flashChecked x.base (copyMax x.target) with flash := { s.flash with session := some { x with denied := true } } }) ?hf ?hu ?ends
    case hf =>
      dsimp only; rw [hx]; dsimp only
      rw [hm, hc]
      exact (if_neg (by simp)).trans ((if_neg (by simp)).trans (if_pos (by simp only [Bool.and_eq_true, decide_eq_true_eq]; exact ⟨⟨hw', hk⟩, hd⟩)))
    case hu => rfl
    case ends => exact fun t hack hfl _ => ⟨hk ▸ hack, by rw [hfl], by rw [hfl]⟩
  · have hm : x.mine w = true := decide_eq_true hw
    refine completes_flash rfl hq (s.flashDrop x) (by rw [hx]; exact if_pos hm) rfl
      (fun t hack hfl _ => ⟨hack, by rw [hfl]; rfl, fun a => ?_⟩)
    rw [hfl]; exact s.byte_flashErase _ _ a
  · have hm : x.mine w = true := decide_eq_true hw
    refine completes_flash rfl hq s (by rw [hx]; dsimp only; rw [hm]; rfl) rfl (fun t hack hfl _ => ⟨hack, hfl⟩)

end Sys2Proof.Machine

namespace Sys2Proof.Machine

/-! ### Register writes (R7, R10, R11, R74, R233 to R237) -/

/-- A change of one function's registers, seen at that function and at the rest of the state. -/
theorem State.modFn_only (s : State) (w : World) (g : Func → Func) :
    (s.modFn w g).fn w = g (s.fn w) ∧ { s.modFn w g with fns := s.fns } = s :=
  ⟨(State.fn_modFn s w g w).trans (if_pos rfl), rfl⟩

theorem exec_registerWrite {s : State} (hp : s.powered = true) (w : World) (off : Nat) (v : W64) (h4 : off % 4 = 0) :
    exec (.registerWrite w off false v) s = .next (s.write32 w off (v.setWidth 32)) := by
  simp [exec, execRegisterWrite, State.whenPowered, hp, h4]

/-- A write of 32 bits that is not half of a 64-bit register reaches the block of its offset. -/
theorem State.write32_fy (s : State) (w : World) (off : Nat) (v : W32) (h1 : isLow64 off = false) (h2 : (decide (4 ≤ off) && isLow64 (off - 4)) = false)
    (h3 : off < 0x10000) : s.write32 w off v = s.fyWrite w off v := by
  simp [State.write32, h1, h2, h3]

theorem completes_readOnly {s : State} (hp : s.powered = true) (w : World) (v : W64) (off : Nat) (h : off ∈ [0x00, 0x04, 0x10, 0x8000, 0x9010]) :
    Completes (.registerWrite w off false v) s (fun t => t = s) := by
  refine ⟨_, exec_registerWrite hp w off v ?_, ?_⟩
  all_goals
    simp only [List.mem_cons, List.not_mem_nil, or_false] at h
    rcases h with rfl | rfl | rfl | rfl | rfl <;> rfl

/-- Before DONE a write past the identity region is discarded (R74). -/
theorem completes_beforeDone {s : State} (hp : s.powered = true) (hd : s.done = false) (w : World) (v : W64) {off : Nat} (h : 0x10000 ≤ off)
    (h4 : off % 4 = 0) (hl : isLow64 off = false) (hh : off < 4 ∨ isLow64 (off - 4) = false) :
    Completes (.registerWrite w off false v) s (fun t => t = s) := by
  have hhi : isLow64 (off - 4) = false := hh.resolve_left (by omega)
  refine ⟨_, exec_registerWrite hp w off v h4, ?_⟩
  simp [State.write32, hl, hhi, hd, Nat.not_lt.mpr h]

theorem completes_misaligned {s : State} (hp : s.powered = true) (w : World) {off n : Nat} (isWrite : Bool) (hn : n < 4 ∨ off % n ≠ 0)
    (hb : (s.fc.buf.filter (fun r => msgSource r.msg = 108)).length < 4) :
    Completes (.misalignedRegAccess w off n isWrite) s (fun t =>
      t.fc.buf = s.fc.buf ++ [⟨faultMsg 108 w.bit 5 off (some w) false, none⟩]
        ∧ t.out = (if isWrite then s.out else s.out ++ [.readData 0]) ∧ { t with fc := s.fc, out := s.out } = s) := by
  simp only [Completes, exec, execMisalignedRegAccess, if_pos hn, State.whenPowered, hp, ↓reduceIte, State.accessFault]
  rw [State.report_room (by rw [msgSource_faultMsg _ _ _ _ _ _ (by decide)]; exact hb)]
  cases isWrite <;> exact ⟨_, rfl, rfl, rfl, rfl⟩

/-- Settles O32: by the offset, and for a 64-bit register by the word held. -/
theorem registerWrites : Obligations.RegisterWrites := by
  intro s w v
  refine ⟨fun hp off wide => ⟨_, rfl, ?_⟩, ⟨rfl, rfl, rfl, rfl, rfl, fun k => decide_eq_true_iff, fun k h0 h2 => ?_, fun h => ?_⟩, fun hp => ?_⟩
  · simp [hp]
  · rw [pciBarBytes, if_neg h0, if_neg h2]
  · exact Nat.sub_add_cancel h
  · refine ⟨⟨_, exec_registerWrite hp w 0x08 v rfl, ?_⟩, ⟨_, exec_registerWrite hp w 0x50 v rfl, ?_⟩, ⟨s.modFn w (fun f => { f with aqSqBase := v.toNat }), ?_, s.modFn_only w _⟩,
      ⟨_, exec_registerWrite hp w 0x48 v rfl, ?_⟩, ⟨_, exec_registerWrite hp w 0x4C v rfl, ?_⟩, fun off h => completes_readOnly hp w v off h,
      fun hd => ⟨_, exec_registerWrite hp w 0x1000C v rfl, ?_⟩, fun hd off h h4 hl hh => completes_beforeDone hp hd w v h h4 hl hh,
      fun off n isWrite hn hb => completes_misaligned hp w isWrite hn hb⟩
    · exact (BitVec.toNat_setWidth 32 v) ▸ s.modFn_only w _
    · exact (BitVec.toNat_setWidth 32 v) ▸ s.modFn_only w _
    · simp [exec, execRegisterWrite, State.whenPowered, hp, isLow64, State.write64]
    · obtain ⟨hf, hs⟩ := s.modFn_only w (fun f => { f with heldLow := Tbl.put 0 f.heldLow 0x48 (v.setWidth 32) })
      exact ⟨(congrArg Func.aqCqBase hf :), (congrArg (fun f : Func => (Tbl.get 0 f.heldLow 0x48).toNat) hf).trans
        ((congrArg BitVec.toNat (Tbl.get_put_self 0 _ 0x48 _)).trans (BitVec.toNat_setWidth 32 v)), hs⟩
    · obtain ⟨hf, hs⟩ := s.modFn_only w (fun f => { f with
        aqCqBase := (BitVec.ofNat 64 ((v.setWidth 32).toNat * 2 ^ 32 + (Tbl.get 0 (s.fn w).heldLow 0x48).toNat)).toNat })
      refine ⟨(congrArg Func.aqCqBase hf).trans ?_, hs⟩
      have h1 := (Tbl.get 0 (s.fn w).heldLow 0x48).isLt
      have h2 : v.toNat % 2 ^ 32 < 2 ^ 32 := Nat.mod_lt _ (by norm_num)
      simp only [BitVec.toNat_ofNat, BitVec.toNat_setWidth]
      exact Nat.mod_eq_of_lt (by omega)
    · have he : s.write32 w 0x1000C (v.setWidth 32) = s.modFn w (fun f => { f with eventMask := (v.setWidth 32).toNat % 32 }) := by
        simp [State.write32, isLow64, hd, State.qmWrite]
      rw [he]
      exact (BitVec.toNat_setWidth 32 v) ▸ s.modFn_only w _

end Sys2Proof.Machine

namespace Sys2Proof.Machine

/-! ### Pantry commands (R234, R339, R341, R347, R352) -/

/-- Items put out one after another. -/
theorem State.foldl_emit {α : Type} (f : α → OutItem) (l : List α) (s : State) :
    l.foldl (fun t x => t.emit (f x)) s = { s with out := s.out ++ l.map f } := by
  induction l generalizing s with
  | nil => simp
  | cons x l ih =>
    rw [List.foldl_cons, ih]
    simp only [State.emit, List.append_assoc, List.singleton_append, List.map_cons]

theorem State.modPn_pantryOnly (s : State) (f : Pantry → Pantry) : { s.modPn f with pantry := s.pantry } = s := rfl

theorem State.modPn_emit_frame (s : State) (f : Pantry → Pantry) (o : OutItem) :
    { ({ (s.modPn f).emit o with out := s.out } : State) with pantry := s.pantry } = s := rfl

theorem completes_pnAlert {s : State} {ch : Nat} (h : ch ∈ s.pantry.trained) : Completes (.pnAlert ch) s (fun t =>
    Tbl.get 0 t.pantry.caErr ch = satInc32 (Tbl.get 0 s.pantry.caErr ch) ∧ t.pantry.mem = s.pantry.mem
      ∧ t.out = s.out ++ (s.pnRecent ch).map (fun x => OutItem.pnCommand ch x.2.1 x.2.2)
      ∧ { ({ t with out := s.out } : State) with pantry := s.pantry } = s) := by
  have hc : s.pantry.trained.contains ch = true := List.contains_iff_mem.mpr h
  refine ⟨_, congrArg Host.Outcome.next ((if_pos hc).trans (State.foldl_emit (fun x : Nat × Nat × Nat => OutItem.pnCommand ch x.2.1 x.2.2) _ _)), ?_, rfl, ?_, rfl⟩
  · exact Tbl.get_upd_self 0 _ _ _
  · rw [List.map_map]; rfl

theorem completes_refresh {s : State} {ch dev : Nat} (h : ch ∈ s.pantry.trained) (hd : dev < s.img.devices) :
    Completes (.refresh ch dev) s (fun t =>
      let row := Tbl.get 0 s.pantry.refresh (2 * ch + dev)
      Tbl.get 0 t.pantry.refresh (2 * ch + dev) = (row + 1) % 2 ^ 21 ∧ t.pantry.mem = s.pantry.mem
        ∧ t.out = s.out ++ [.pnCommand ch dev (pnCommand 3 (row % 16) (row / 16 * 8))]
        ∧ { ({ t with out := s.out } : State) with pantry := s.pantry } = s) := by
  have hc : s.pantry.trained.contains ch = true ∧ dev < s.img.devices := ⟨List.contains_iff_mem.mpr h, hd⟩
  exact ⟨_, congrArg Host.Outcome.next (if_pos hc), Tbl.get_put_self 0 _ _ _, rfl, rfl, State.modPn_emit_frame s _ _⟩

/-- A good burst after its check: corrected, and nothing else of it changed. -/
def State.pnScrubbed (s : State) (b : Nat) : State :=
  match s.pnJudge b with
  | .uncorrectable => s.pnUncorrectable b
  | .corrected => s.pnCorrected b
  | .clean => s

theorem State.pnScrubbed_good {s : State} {b : Nat} (h : s.pnBad b = false) : ∃ k e, s.pnScrubbed b = s.withCorr k e ∧ Tbl.get [] e b = [] := by
  have hb : s.pnJudge b ≠ .uncorrectable := by simpa [State.pnBad] using h
  unfold State.pnScrubbed
  cases hj : s.pnJudge b with
  | uncorrectable => exact absurd hj hb
  | corrected => exact ⟨_, _, rfl, Tbl.get_put_self [] _ _ _⟩
  | clean =>
    refine ⟨s.pantry.corr, s.pantry.errs, rfl, ?_⟩
    unfold State.pnJudge eccJudge at hj
    split_ifs at hj with _ he
    exact he

theorem exec_scrub {s : State} (ha : s.pantry.scrubActive = true) (hd : s.qz.debugHalt = false) (hc : 0 < s.img.cap) :
    exec .scrub s = .next ((s.pnScrubbed s.pantry.scrubBurst).modPn (fun p => { p with
      scrubBurst := if s.img.cap / 32 ≤ s.pantry.scrubBurst + 1 then 0 else s.pantry.scrubBurst + 1
      scrubCnt := if s.img.cap / 32 ≤ s.pantry.scrubBurst + 1 then satInc32 p.scrubCnt else p.scrubCnt })) := by
  simp only [exec, execScrub, ha, hd, hc, decide_true, Bool.not_false, Bool.and_self, ↓reduceIte]
  rfl

theorem completes_scrub {s : State} (ha : s.pantry.scrubActive = true) (hd : s.qz.debugHalt = false) (hc : 0 < s.img.cap)
    (hb : s.pnBad s.pantry.scrubBurst = false) : Completes .scrub s (fun t =>
      t.pantry.scrubBurst = (if s.img.cap / 32 ≤ s.pantry.scrubBurst + 1 then 0 else s.pantry.scrubBurst + 1)
        ∧ t.pantry.scrubCnt = (if s.img.cap / 32 ≤ s.pantry.scrubBurst + 1 then satInc32 s.pantry.scrubCnt else s.pantry.scrubCnt)
        ∧ Tbl.get [] t.pantry.errs s.pantry.scrubBurst = [] ∧ t.pantry.mem = s.pantry.mem ∧ { t with pantry := s.pantry } = s) := by
  obtain ⟨k, e, hs, he⟩ := State.pnScrubbed_good hb
  refine ⟨_, exec_scrub ha hd hc, ?_⟩
  rw [hs]
  exact ⟨rfl, rfl, he, rfl, rfl⟩

/-- The word that a translation entry takes fits its 64 bits (R351). -/
theorem xlat_toNat (v : Nat) : (BitVec.ofNat 64 (bits v 0 3 + v / pageBytes % 2 ^ 43 * pageBytes)).toNat
    = bits v 0 3 + v / 2 ^ 21 % 2 ^ 43 * 2 ^ 21 := by
  have h1 : bits v 0 3 < 2 ^ 3 := Nat.mod_lt _ (by norm_num)
  have h2 : v / 2 ^ 21 % 2 ^ 43 < 2 ^ 43 := Nat.mod_lt _ (by norm_num)
  rw [show pageBytes = 2 ^ 21 from rfl, BitVec.toNat_ofNat]
  exact Nat.mod_eq_of_lt (by omega)

/-- The commit of a translation entry of the world's own page, as a change of Pantry (R352). -/
theorem State.xlatCommit_of_own {s : State} {w : World} {v : Nat} (hd : s.done = true) (hw : s.pageWorld (s.pantry.xlatIdx.get w) = some w)
    (hz : bits v 5 16 = 0) : s.xlatCommit w v = s.modPn (fun p => { p with
        xlat := Tbl.put 0 p.xlat (s.pantry.xlatIdx.get w) (BitVec.ofNat 64 (bits v 0 3 + v / pageBytes % 2 ^ 43 * pageBytes))
        xlatBad := p.xlatBad.filter (fun j => j != s.pantry.xlatIdx.get w)
        rejected := p.rejected.set w false
        busy := if bitAt (s.xlatOf (s.pantry.xlatIdx.get w)) 0 ∧ bits v 0 3 + v / pageBytes % 2 ^ 43 * pageBytes ≠ s.xlatOf (s.pantry.xlatIdx.get w)
          then p.busy.set w true else p.busy }) := by
  simp only [State.xlatCommit, hd, hw, hz, ne_eq, not_true_eq_false, or_self, ↓reduceIte]

theorem State.xlatCommit_entry {s : State} {w : World} {v : Nat} (hd : s.done = true) (hw : s.pageWorld (s.pantry.xlatIdx.get w) = some w)
    (hz : bits v 5 16 = 0) :
    (Tbl.get 0 (s.xlatCommit w v).pantry.xlat (s.pantry.xlatIdx.get w)).toNat = bits v 0 3 + v / 2 ^ 21 % 2 ^ 43 * 2 ^ 21
      ∧ ∀ j, j ≠ s.pantry.xlatIdx.get w → Tbl.get 0 (s.xlatCommit w v).pantry.xlat j = Tbl.get 0 s.pantry.xlat j := by
  rw [State.xlatCommit_of_own hd hw hz]
  refine ⟨?_, fun j hj => Tbl.get_put_ne (0 : W64) _ _ hj⟩
  exact (congrArg BitVec.toNat (Tbl.get_put_self (0 : W64) _ _ _)).trans (xlat_toNat _)

theorem State.xlatCommit_marks {s : State} {w : World} {v : Nat} (hd : s.done = true) (hw : s.pageWorld (s.pantry.xlatIdx.get w) = some w)
    (hz : bits v 5 16 = 0) :
    s.pantry.xlatIdx.get w ∉ (s.xlatCommit w v).pantry.xlatBad ∧ (s.xlatCommit w v).pantry.rejected = s.pantry.rejected.set w false := by
  rw [State.xlatCommit_of_own hd hw hz]
  refine ⟨fun h => ?_, rfl⟩
  obtain ⟨-, hne⟩ := List.mem_filter.mp h
  simp at hne

theorem State.xlatCommit_pantryOnly {s : State} {w : World} {v : Nat} (hd : s.done = true) (hw : s.pageWorld (s.pantry.xlatIdx.get w) = some w)
    (hz : bits v 5 16 = 0) : { s.xlatCommit w v with pantry := s.pantry } = s := by
  rw [State.xlatCommit_of_own hd hw hz]
  exact s.modPn_pantryOnly _

theorem State.xlatCommit_rejected {s : State} {w : World} {v : Nat} (hd : s.done = true)
    (h : s.pageWorld (s.pantry.xlatIdx.get w) ≠ some w ∨ bits v 5 16 ≠ 0) :
    (s.xlatCommit w v).pantry = { s.pantry with rejected := s.pantry.rejected.set w true } ∧ { s.xlatCommit w v with pantry := s.pantry } = s := by
  unfold State.xlatCommit
  rw [if_pos hd, if_pos h]
  exact ⟨rfl, rfl⟩

theorem completes_bar2Read {s : State} {w : World} {off n : Nat} (hp : s.powered = true) (hb : s.bar2Ok w off n = true) (hg : GoodRead s off n) :
    Completes (.bar2Access w off n none) s (fun t =>
      t.out = s.out ++ [.readBytes (Memory.bytes 0 s.pantry.mem off n)] ∧ t.pantry.mem = s.pantry.mem) := by
  have hc : ((s.countWorld w 12 n).pnCheck off n).1 = true := (State.pnCheck_good_iff _ off n).mpr hg
  obtain ⟨k, e, he⟩ := State.pnCheck_good hc
  refine ⟨((s.countWorld w 12 n).withCorr k e).emit (.readBytes (((s.countWorld w 12 n).withCorr k e).pnBytes off n)), ?_, rfl, rfl⟩
  simp only [exec, execBar2Access, hp, hb, Bool.not_true, Bool.false_eq_true, ↓reduceIte, hc, he]

theorem completes_bar2Write {s : State} {w : World} {off : Nat} {d : List Byte} (hp : s.powered = true) (hb : s.bar2Ok w off d.length = true) :
    Completes (.bar2Access w off d.length (some d)) s (fun t =>
      (∀ i, i < d.length → Memory.byte 0 t.pantry.mem (off + i) = d.getD i 0) ∧ t.out = s.out
        ∧ ∀ a, a < off ∨ off + d.length ≤ a → Memory.byte 0 t.pantry.mem a = Memory.byte 0 s.pantry.mem a) := by
  refine ⟨(s.countWorld w 12 d.length).pnWrite off d, ?_, fun i hi => ?_, rfl, fun a ha => Memory.byte_write_of_out 0 s.pantry.mem off d ha⟩
  · simp only [exec, execBar2Access, hp, hb, Bool.not_true, Bool.false_eq_true, ↓reduceIte]
  · exact (Memory.byte_write 0 s.pantry.mem off d hi).trans (List.getD_eq_getElem d 0 hi).symm

theorem completes_bar2Refused {s : State} {w : World} {off n : Nat} (hp : s.powered = true) (hb : s.bar2Ok w off n = false)
    (hf : (s.fc.buf.filter (fun r => msgSource r.msg = 93)).length < 4) :
    Completes (.bar2Access w off n none) s (fun t => t.out = s.out ++ [.readBytes (List.replicate n 0)]
      ∧ t.fc.buf = s.fc.buf ++ [⟨faultMsg 93 w.bit 5 off (some w) false, none⟩] ∧ t.pantry = s.pantry) := by
  simp only [Completes, exec, execBar2Access, hp, hb, Bool.not_true, Bool.false_eq_true, ↓reduceIte]
  rw [State.report_room (by rw [msgSource_faultMsg _ _ _ _ _ _ (by decide)]; exact hf)]
  exact ⟨_, rfl, rfl, rfl, rfl⟩

/-- Settles O37: each command of the Pantry channels, of the host window table and of BAR2 by its own lemma. -/
theorem pantryCommands : Obligations.PantryCommands := fun _ _ =>
  ⟨fun _ h => completes_pnAlert h, fun _ _ h hd => completes_refresh h hd, fun ha hd hc hb => completes_scrub ha hd hc hb,
    fun _ hd => ⟨fun hw hz => ⟨_, rfl, (State.xlatCommit_entry hd hw hz).1, (State.xlatCommit_marks hd hw hz).1, (State.xlatCommit_marks hd hw hz).2,
      (State.xlatCommit_entry hd hw hz).2, State.xlatCommit_pantryOnly hd hw hz⟩, fun h => ⟨_, rfl, State.xlatCommit_rejected hd h⟩⟩, ⟨_, rfl, rfl, rfl⟩,
    fun _ _ hp hb hg => completes_bar2Read hp hb hg, fun _ _ hp hb => completes_bar2Write hp hb, fun _ _ hp hb hf => completes_bar2Refused hp hb hf⟩

end Sys2Proof.Machine

namespace Sys2Proof.Machine

/-! ### Landings (R401 to R412) -/

/-- Of the rest of the state nothing but one Landing and the order of entries may have changed. -/
def OnlyLanding (s t : State) (k : Nat) : Prop :=
  (∀ m, m ≠ k → t.landing m = s.landing m) ∧ { t with lands := s.lands, landOrder := s.landOrder } = s

theorem OnlyLanding.modLanding {s t : State} {k : Nat} (h : OnlyLanding s t k) (f : Landing → Landing) : OnlyLanding s (t.modLanding k f) k :=
  ⟨fun m hm => ((t.landing_modLanding k f m).trans (if_neg hm)).trans (h.1 m hm), h.2⟩

theorem State.modLanding_only (s : State) (k : Nat) (f : Landing → Landing) : OnlyLanding s (s.modLanding k f) k :=
  OnlyLanding.modLanding ⟨fun _ _ => rfl, rfl⟩ f

theorem State.landing_modLanding_self (s : State) (k : Nat) (f : Landing → Landing) : (s.modLanding k f).landing k = f (s.landing k) :=
  (s.landing_modLanding k f k).trans (if_pos rfl)

theorem State.refill_of_none_held {s : State} {k : Nat} (h : (s.landing k).held = []) : s.refill k = s := by
  simp [State.refill, h, State.nearest]

/-- A grant to a request when no other waits beside it. -/
theorem State.grantTo_alone {s : State} {k : Nat} {q : LandReq} (hq : (s.landing k).queue = [q]) (hh : (s.landing k).held = []) :
    ((s.grantTo k q).landing k).grant = some q ∧ ((s.grantTo k q).landing k).queue = []
      ∧ ((s.grantTo k q).landing k).grantCnt = satInc32 (s.landing k).grantCnt ∧ (s.grantTo k q).landOrder = s.landOrder
      ∧ OnlyLanding s (s.grantTo k q) k := by
  rw [State.grantTo]
  generalize hF : (fun l : Landing => ({ l with
      grant := some q
      queue := l.queue.filter (fun r => r.order != q.order)
      held := l.held.filter (fun r => r.order != q.order)
      grantCnt := satInc32 l.grantCnt
      lateCnt := if s.landKey q < 0 then satInc32 l.lateCnt else l.lateCnt
      maxWait := Nat.max l.maxWait (satAt 0xFFFFFFFF (s.now - q.entered)) } : Landing)) = F
  have hF' : ∀ l, (F l).grant = some q ∧ (F l).queue = l.queue.filter (fun r => r.order != q.order)
      ∧ (F l).held = l.held.filter (fun r => r.order != q.order) ∧ (F l).grantCnt = satInc32 l.grantCnt := fun l => hF ▸ ⟨rfl, rfl, rfl, rfl⟩
  obtain ⟨hg, hqu, hhe, hc⟩ := hF' (s.landing k)
  have hr : (s.modLanding k F).refill k = s.modLanding k F := State.refill_of_none_held (by rw [State.landing_modLanding_self, hhe, hh]; rfl)
  rw [hr, State.landing_modLanding_self, State.landing_modLanding_self]
  refine ⟨hg, ?_, hc, rfl, (s.modLanding_only k F).modLanding _⟩
  simp [hqu, hq]

/-- A Landing that serves nobody grants the one request that waits. -/
theorem State.landGrant_alone {s : State} {k : Nat} {q : LandReq} (hg : (s.landing k).grant = none) (hf : (s.landing k).freeze = false)
    (hq : (s.landing k).queue = [q]) : s.landGrant k = s.grantTo k q := by
  have hgr : (s.landing k).grantable = [q] := by simp [Landing.grantable, hf, hq]
  have hn : ∀ n, (s.landing k).next.bind (fun n => (s.landing k).grantable.find? (fun q => q.order = n)) = some n → n = q := by
    intro n h
    obtain ⟨i, -, hi⟩ := Option.bind_eq_some_iff.mp h
    rw [hgr] at hi
    simpa using List.mem_of_find?_eq_some hi
  unfold State.landGrant
  simp only [hg, Option.isSome_none, Bool.false_eq_true, ↓reduceIte]
  split
  · next n h => rw [hn n h]
  · simp [hgr, State.nearest]

theorem State.landGrant_none {s : State} {k : Nat} (hg : (s.landing k).grant = none) (hf : (s.landing k).freeze = false)
    (hq : (s.landing k).queue = []) : s.landGrant k = s.modLanding k (fun l => { l with next := none }) := by
  have hgr : (s.landing k).grantable = [] := by simp [Landing.grantable, hf, hq]
  simp [State.landGrant, hg, hgr, State.nearest]

theorem State.landGrant_busy {s : State} {k : Nat} (hg : (s.landing k).grant.isSome = true) : s.landGrant k = s := if_pos hg

/-- A request as a Landing keeps it: its latest-service time kept, its place in the order, and when it entered. -/
def State.landQueued (s : State) (q : LandReq) : LandReq := { q.kept s.now32 with order := s.landOrder, entered := s.now }

theorem State.landEnter_room {s : State} {k : Nat} (h : (s.landing k).queue.length < 32) (q : LandReq) :
    (s.landEnter k q).landing k = { s.landing k with queue := (s.landing k).queue ++ [s.landQueued q] }
      ∧ (s.landEnter k q).landOrder = s.landOrder + 1 ∧ OnlyLanding s (s.landEnter k q) k := by
  refine ⟨(State.landing_modLanding_self _ _ _).trans (if_pos h), rfl, ?_⟩
  have h0 : OnlyLanding s { s with landOrder := s.landOrder + 1 } k := ⟨fun _ _ => rfl, rfl⟩
  unfold State.landEnter
  exact h0.modLanding _

theorem State.requestDue_eq (s : State) (r : Nat) (w : World) (c : Option Nat) : s.requestDue r w c = dueOf s r w c := rfl

/-- The request of a requester, in the form in which it reaches its Landing. -/
def State.landRequest (s : State) (r : Nat) (w : World) (beats : Nat) (c : Option Nat) (sup : Bool) : LandReq :=
  let due := dueOf s r w c
  { req := r, lst := due.getD s.backgroundLst, tag := w, beats := beats, entered := 0, order := 0, background := due.isNone,
    lowers := false, ctx := c, super := c.elim sup (fun i => if r < 64 then (s.ctx i).super1 else sup) }

theorem exec_landingRequest {s : State} {w : World} {k r beats : Nat} {c : Option Nat} {sup : Bool} (hk : landExists k = true)
    (hp : s.powered = true) (hd : s.qz.debugHalt = false) (hr : r < 103) (hb : 0 < beats) (hw : k < 72 ∨ s.landWorld k = some w) :
    exec (.landingRequest k r w beats false c sup) s = .next ((s.landEnter k (s.landRequest r w beats c sup)).landGrant k) := by
  have hw' : (decide (72 ≤ k) && s.landWorld k != some w) = false := by
    rcases hw with h | h
    · simp [Nat.not_le.mpr h]
    · simp [h]
  simp only [exec, execLandingRequest, hk, hp, hd, hr, hb, hw', decide_true, Bool.not_false, Bool.and_self, ↓reduceIte, Bool.false_eq_true,
    State.requestDue_eq, Bool.false_and]
  cases c <;> rfl

theorem OnlyLanding.trans {s t u : State} {k : Nat} (h : OnlyLanding s t k) (g : OnlyLanding t u k) : OnlyLanding s u k :=
  ⟨fun m hm => (g.1 m hm).trans (h.1 m hm), (congrArg (fun t : State => { t with lands := s.lands, landOrder := s.landOrder }) g.2 :).trans h.2⟩

theorem exec_grantEnd {s : State} {k used : Nat} {g : LandReq} (hd : s.qz.debugHalt = false) (hg : (s.landing k).grant = some g)
    (hb : g.beats ≤ Nat.max 1 (s.landing k).burst) :
    exec (.grantEnd k used) s = .next ((s.modLanding k (fun l => { l with grant := none })).landGrant k) := by
  have hc : ¬(Nat.max 1 (s.landing k).burst ≤ used ∧ Nat.max 1 (s.landing k).burst < g.beats) := fun h => by omega
  simp only [exec, execGrantEnd, hd, hg, Bool.false_eq_true, ↓reduceIte, if_neg hc]

theorem unsignedOf_toInt (v : W32) : unsignedOf 32 v.toInt = v.toNat := by
  have := v.isLt
  rw [unsignedOf, BitVec.toInt_eq_toNat_cond]
  split <;> omega

/-- Settles O39: by whether the Landing serves somebody, and whether one request waits. -/
theorem landingsGrant : Obligations.LandingsGrant := by
  intro s w k hk
  refine ⟨fun r beats c sup hp hd hr hb hw => ⟨fun hg hq hh hf => ?_, fun hg hq => ?_⟩, fun used g hd hg hh hf hb => ⟨fun hq => ?_, fun q hq => ?_⟩,
    fun v h72 hd hw hv => ?_, fun r v hd hb hlo hhi => ?_⟩
  · obtain ⟨hl, ho, honly⟩ := State.landEnter_room (s := s) (k := k) (by simp [hq]) (s.landRequest r w beats c sup)
    have hqu : ((s.landEnter k (s.landRequest r w beats c sup)).landing k).queue = [s.landQueued (s.landRequest r w beats c sup)] := by rw [hl, hq]; rfl
    have hgr := State.landGrant_alone (by rw [hl]; exact hg) (by rw [hl]; exact hf) hqu
    obtain ⟨h1, h2, h3, h4, h5⟩ := State.grantTo_alone hqu (by rw [hl]; exact hh)
    refine ⟨_, exec_landingRequest hk hp hd hr hb hw, ?_⟩
    rw [hgr]
    exact ⟨h1, h2, by rw [h3, hl], h4.trans ho, (honly.trans h5).1, (honly.trans h5).2⟩
  · obtain ⟨hl, -, honly⟩ := State.landEnter_room (s := s) hq (s.landRequest r w beats c sup)
    refine ⟨_, exec_landingRequest hk hp hd hr hb hw, ?_⟩
    rw [State.landGrant_busy (by rw [hl]; exact hg)]
    exact ⟨hl, honly.1, honly.2⟩
  · have hl := s.landing_modLanding_self k (fun l => { l with grant := none })
    refine ⟨_, exec_grantEnd hd hg hb, ?_⟩
    rw [State.landGrant_none (by rw [hl]) (by rw [hl]; exact hf) (by rw [hl]; exact hq)]
    beta_reduce
    rw [State.landing_modLanding_self, hl]
    obtain ⟨ho, hr⟩ := (s.modLanding_only k (fun l => { l with grant := none })).modLanding (fun l => { l with next := none })
    exact ⟨rfl, hq, ho, hr⟩
  · have hl := s.landing_modLanding_self k (fun l => { l with grant := none })
    have hqu : ((s.modLanding k (fun l => { l with grant := none })).landing k).queue = [q] := by rw [hl]; exact hq
    obtain ⟨h1, h2, h3, -, h5⟩ := State.grantTo_alone hqu (by rw [hl]; exact hh)
    refine ⟨_, exec_grantEnd hd hg hb, ?_⟩
    rw [State.landGrant_alone (by rw [hl]) (by rw [hl]; exact hf) hqu]
    obtain ⟨ho, hr⟩ := (s.modLanding_only k (fun l => { l with grant := none })).trans h5
    exact ⟨h1, h2, by rw [h3, hl], ho, hr⟩
  · have h392 : k < 392 := by simp [landExists] at hk; exact hk.1
    have hb : bitAt v.toNat 8 = true := by rwa [← getLsbD_eq_bitAt]
    refine ⟨s.modLanding k (fun l => { l with burst := if 1 ≤ bits v.toNat 0 7 ∧ bits v.toNat 0 7 ≤ 64 then bits v.toNat 0 7 else l.burst, freeze := true }),
      ?_, s.landing_modLanding_self k _, s.modLanding_only k _⟩
    simp [exec, execFreeze, State.ldCtlWrite, State.hostItem, h72, h392, hd, hw, hb]
  · have hs : signed 32 v.toNat = v.toInt := by rw [signed_eq_toInt, BitVec.ofNat_toNat, BitVec.setWidth_eq]
    refine ⟨{ s with bias := s.bias.upd w (fun t => Tbl.put 0 t r v.toNat) }, ?_, ?_, fun m hm => ?_, rfl⟩
    · simp only [exec, execLdBiasWrite, State.ldBiasSet, hd, hb, Bool.and_self, ↓reduceIte, hs, if_neg (Int.not_lt.mpr hlo), if_neg (Int.not_lt.mpr hhi),
        unsignedOf_toInt]
    · rw [Two.get_upd]; exact Tbl.get_put_self 0 _ _ _
    · rw [Two.get_upd]; exact Tbl.get_put_ne 0 _ _ hm

end Sys2Proof.Machine

namespace Sys2Proof.Machine

/-! ### Drives (R372 to R392) -/

/-- A drive without its balls. -/
def Drive.unballed (d : Drive) : Drive := { d with pwmA := false, pwmB := false, en := false }

/-- A drive without its balls, its events, its lease and the writes that wait for one. -/
def Drive.core (d : Drive) : Drive := { d.unballed with event := 0, lease := none, waiting := [], answers := [] }

theorem Drive.gang_of_core {d e : Drive} (h : d.core = e.core) : d.cfg.gang = e.cfg.gang := (congrArg (fun d : Drive => d.cfg.gang) h :)

/-- What the outputs of a drive in the next period are made of, without its balls. -/
theorem Drive.period_of_unballed {d e : Drive} (h : d.unballed = e.unballed) :
    d.perA = e.perA ∧ d.perB = e.perB ∧ d.perFreq = e.perFreq ∧ d.cut = e.cut ∧ d.actA = e.actA :=
  ⟨(congrArg Drive.perA h :), (congrArg Drive.perB h :), (congrArg Drive.perFreq h :), (congrArg Drive.cut h :), (congrArg Drive.actA h :)⟩

/-- What the zero crossings leave of a drive, without its balls. -/
theorem Drive.crossing_of_unballed {d e : Drive} (h : d.unballed = e.unballed) :
    d.zcOk = e.zcOk ∧ d.fire = e.fire ∧ d.event = e.event ∧ d.zcPeriod = e.zcPeriod ∧ d.zcLast = e.zcLast ∧ d.run = e.run :=
  ⟨(congrArg Drive.zcOk h :), (congrArg Drive.fire h :), (congrArg Drive.event h :), (congrArg Drive.zcPeriod h :), (congrArg Drive.zcLast h :),
    (congrArg Drive.run h :)⟩

theorem Drive.output_of_core {d e : Drive} (h : d.core = e.core) : d.actA = e.actA ∧ d.actB = e.actB ∧ d.run = e.run :=
  ⟨(congrArg Drive.actA h :), (congrArg Drive.actB h :), (congrArg Drive.run h :)⟩

theorem Drive.encoder_of_core {d e : Drive} (h : d.core = e.core) :
    d.encPos = e.encPos ∧ d.encLevels = e.encLevels ∧ d.encLast = e.encLast ∧ d.encPeriod = e.encPeriod :=
  ⟨(congrArg Drive.encPos h :), (congrArg Drive.encLevels h :), (congrArg Drive.encLast h :), (congrArg Drive.encPeriod h :)⟩

/-- No drive but one changes. -/
def OtherDrives (s t : State) (n : Nat) : Prop := ∀ m, m ≠ n → t.drive m = s.drive m

/-- Of the drives one alone changes, in no more than its events, its lease and the writes that wait for one. -/
def DriveKept (s t : State) (n : Nat) : Prop := OtherDrives s t n ∧ (t.drive n).core = (s.drive n).core

theorem OtherDrives.trans {s t u : State} {n : Nat} (h : OtherDrives s t n) (g : OtherDrives t u n) : OtherDrives s u n :=
  fun m hm => (g m hm).trans (h m hm)

theorem DriveKept.trans {s t u : State} {n : Nat} (h : DriveKept s t n) (g : DriveKept t u n) : DriveKept s u n :=
  ⟨h.1.trans g.1, g.2.trans h.2⟩

theorem DriveKept.of_drives {s t : State} {n : Nat} (h : t.drives = s.drives) : DriveKept s t n := by
  have hd : ∀ m, t.drive m = s.drive m := fun m => congrArg (fun l => Tbl.get ({} : Drive) l m) h
  exact ⟨fun m _ => hd m, congrArg Drive.core (hd n)⟩

theorem State.drive_modDrive_self (s : State) (n : Nat) (f : Drive → Drive) : (s.modDrive n f).drive n = f (s.drive n) :=
  (s.drive_modDrive n f n).trans (if_pos rfl)

theorem State.modDrive_others (s : State) (n : Nat) (f : Drive → Drive) : OtherDrives s (s.modDrive n f) n :=
  fun m hm => (s.drive_modDrive n f m).trans (if_neg hm)

theorem DriveKept.modDrive {s : State} {n : Nat} {f : Drive → Drive} (h : (f (s.drive n)).core = (s.drive n).core) : DriveKept s (s.modDrive n f) n :=
  ⟨s.modDrive_others n f, (congrArg Drive.core (s.drive_modDrive_self n f)).trans h⟩

theorem State.drive_driveEvent (s : State) (n b : Nat) : (s.driveEvent n b).drive n = { s.drive n with event := (s.drive n).event ||| 2 ^ b } :=
  s.drive_modDrive_self n (fun d => { d with event := d.event ||| 2 ^ b })

theorem State.driveEvent_kept (s : State) (n b : Nat) : DriveKept s (s.driveEvent n b) n :=
  ⟨s.modDrive_others n (fun d => { d with event := d.event ||| 2 ^ b }), (congrArg Drive.core (s.drive_driveEvent n b) :)⟩

/-! #### Leave, of which no drive is a part -/

@[simp] theorem State.countWait_drives (s : State) (q : LeaveReq) : (s.countWait q).drives = s.drives := by
  unfold State.countWait
  cases q.world <;> rfl

@[simp] theorem State.leaveWithdraw_drives (s : State) (p : LeaveReq → Bool) : (s.leaveWithdraw p).drives = s.drives := by
  have h : ∀ (l : List LeaveReq) (t : State), (l.foldl (fun t q => t.countWait q) t).drives = t.drives := by
    intro l
    induction l with
    | nil => exact fun _ => rfl
    | cons q l ih => exact fun t => (ih _).trans (t.countWait_drives q)
  exact h _ s

@[simp] theorem State.leaseRelease_drives (s : State) (l : Nat) : (s.leaseRelease l).drives = s.drives := by
  have h : ∀ t : State, t.drives = s.drives → (t.modBl (fun b => { b with leases := Tbl.put none b.leases l none })).drives = s.drives := fun _ h => h
  have h1 := h _ (s.leaveWithdraw_drives (fun q => q.lease = some l))
  unfold State.leaseRelease
  split
  · split
    · exact h1
    · exact h1
  · exact h1

@[simp] theorem State.leaseReduce_drives (s : State) (l a : Nat) : (s.leaseReduce l a).drives = s.drives := by
  unfold State.leaseReduce
  split <;> rfl

/-! #### Waiting writes, the lease and the balls -/

theorem State.driveAnswer_kept (s : State) (n : Nat) (i : Increase) (r u : Nat) : DriveKept s (s.driveAnswer n i r u) n := by
  unfold State.driveAnswer
  split
  · exact DriveKept.modDrive (s := s) (f := fun d => { d with answers := d.answers ++ [_] }) rfl
  · exact .of_drives rfl

theorem State.foldl_driveAnswer_kept (n r u : Nat) (l : List Increase) (t : State) :
    DriveKept t (l.foldl (fun t i => (t.leaveWithdraw (fun q => q.order = i.order)).driveAnswer n i r u) t) n := by
  induction l generalizing t with
  | nil => exact .of_drives rfl
  | cons i l ih => exact ((DriveKept.of_drives (t.leaveWithdraw_drives _)).trans (State.driveAnswer_kept _ n i r u)).trans (ih _)

theorem State.driveWithdraw_kept (s : State) (n : Nat) (p : Increase → Bool) (r u : Nat) : DriveKept s (s.driveWithdraw n p r u) n := by
  have h : DriveKept s (s.modDrive n (fun d => { d with waiting := d.waiting.filter (fun i => !p i) })) n := .modDrive rfl
  exact h.trans (State.foldl_driveAnswer_kept n r u ((s.drive n).waiting.filter p) _)

/-- A lease that falls to what is wanted, or ends with the writes that wait for it. -/
theorem State.leaseFall_kept (s : State) (n l want have_ : Nat) : DriveKept s
    (if want = 0 then ((s.driveWithdraw n (fun _ => true) 1 0xFE03).leaseRelease l).modDrive n (fun d => { d with lease := none })
      else if want < have_ then s.leaseReduce l want else s) n := by
  split
  · exact ((s.driveWithdraw_kept n _ 1 0xFE03).trans (.of_drives (State.leaseRelease_drives _ _))).trans (.modDrive rfl)
  · split
    · exact .of_drives (s.leaseReduce_drives _ _)
    · exact .of_drives rfl

theorem State.driveTrim_kept (s : State) (n : Nat) : DriveKept s (s.driveTrim n) n := by
  unfold State.driveTrim
  dsimp only
  split
  · exact .of_drives rfl
  · by_cases hi : (s.drive n).inrushEnd.isSome = true
    · rw [if_pos hi]
      exact .of_drives rfl
    · rw [if_neg hi]
      exact s.leaseFall_kept n _ _ _

/-- Setting the balls of drives changes nothing else of them. -/
theorem State.foldl_balls_unballed (g : State → Nat → Drive → Drive) (hg : ∀ t i d, (g t i d).unballed = d.unballed) (l : List Nat) (s : State) (m : Nat) :
    ((l.foldl (fun t i => t.modDrive i (g t i)) s).drive m).unballed = (s.drive m).unballed := by
  induction l generalizing s with
  | nil => rfl
  | cons i l ih =>
    refine (ih _).trans ?_
    rw [State.drive_modDrive]
    split
    · next h => rw [hg, h]
    · rfl

theorem State.driveBalls_unballed (s : State) (n m : Nat) : ((s.driveBalls n).drive m).unballed = (s.drive m).unballed :=
  State.foldl_balls_unballed (fun t i d => { d with pwmA := (t.driveOutputs i).1, pwmB := (t.driveOutputs i).2, en := t.driveEn i })
    (fun _ _ _ => rfl) (s.gangOf n) s m

theorem State.driveBalls_core (s : State) (n m : Nat) : ((s.driveBalls n).drive m).core = (s.drive m).core :=
  congrArg (fun d => { d with event := 0, lease := none, waiting := [], answers := [] }) (s.driveBalls_unballed n m)

theorem State.gangOf_single {s : State} {n : Nat} (h : (s.drive n).cfg.gang = 0) : s.gangOf n = [n] := by
  simp [State.gangOf, h]

theorem State.driveBalls_others {s : State} {n : Nat} (h : (s.drive n).cfg.gang = 0) : OtherDrives s (s.driveBalls n) n := by
  rw [State.driveBalls, State.gangOf_single h]
  exact s.modDrive_others n _

theorem State.driveBalls_kept {s : State} {n : Nat} (h : (s.drive n).cfg.gang = 0) : DriveKept s (s.driveBalls n) n :=
  ⟨State.driveBalls_others h, s.driveBalls_core n n⟩

@[simp] theorem State.report_drives (s : State) (m : W64) (c : Option Nat) : (s.report m c).drives = s.drives :=
  (congrArg State.drives (State.report_frame s m c) :)

/-! #### The commands -/

theorem State.driveLive_iff {s : State} {n : Nat} (hn : n < 64) : s.driveLive n = true ↔ s.done = true ∧ s.attic.config ≠ .bare
    ∧ ((s.drive n).cfg.mode ≠ 0 ∨ (s.drive n).cfg.gang = 2) ∧ 48 + n / 8 ∈ s.boiler.domains := by
  simp [State.driveLive, State.driveEnabled, State.driveDomainOn, hn, and_assoc]

/-- Inputs of a drive whose balls do not work are ignored. -/
theorem exec_deadDrive {s : State} {n : Nat} (h : s.driveLive n = false) (low : Bool) (l : BitVec 3) (ch : Nat) (v : BitVec 12) :
    exec (.driveFault n low) s = .next s ∧ exec (.encoderEdge n l) s = .next s ∧ exec (.adcSample n ch v) s = .next s
      ∧ exec (.zcEdge n) s = .next s := by
  have hd : (!s.driveLive n) = true := by rw [h]; rfl
  exact ⟨if_pos hd, if_pos hd, if_pos hd, if_pos hd⟩

/-- A drive whose outputs hardware has cut (R376, R388). -/
def Drive.offed (d : Drive) : Drive :=
  { d with run := false, inrushEnd := none, perA := 0, perB := 0, fire := false, actA := 0, actB := 0, motion := .off }

/-- A drive whose output has come to 0. -/
def Drive.zeroed (d : Drive) : Drive := { d with actA := 0, actB := 0, motion := .off }

/-- After an event that may be latched the lease falls, and the balls follow. -/
theorem State.settle_kept {u : State} {n : Nat} (hg : (u.drive n).cfg.gang = 0) (moved : Bool) (b : Nat) :
    DriveKept u (((if moved then u.driveEvent n b else u).driveTrim n).driveBalls n) n := by
  have hev : DriveKept u (if moved then u.driveEvent n b else u) n := by
    cases moved
    · exact .of_drives rfl
    · exact u.driveEvent_kept n b
  have htrim := hev.trans (State.driveTrim_kept _ n)
  exact htrim.trans (State.driveBalls_kept ((Drive.gang_of_core htrim.2).trans hg))

theorem State.driveZero_spec {s : State} {n : Nat} (hg : (s.drive n).cfg.gang = 0) : OtherDrives s (s.driveZero n) n
    ∧ ((s.driveZero n).drive n).core = (s.drive n).zeroed.core := by
  have hu := s.drive_modDrive_self n Drive.zeroed
  obtain ⟨ho, hc⟩ := State.settle_kept (u := s.modDrive n Drive.zeroed) (n := n) (by rw [hu]; exact hg)
    ((s.drive n).actA != 0 || (s.drive n).actB != 0) 1
  exact ⟨(s.modDrive_others n Drive.zeroed).trans ho, hc.trans (congrArg Drive.core hu)⟩

/-- The output of a drive is cut: RUN 0, and both outputs 0. -/
theorem State.driveOff_spec {s : State} {n : Nat} (hg : (s.drive n).cfg.gang = 0) : OtherDrives s (s.driveOff n) n
    ∧ ((s.driveOff n).drive n).core = (s.drive n).offed.core := by
  let off : Drive → Drive := fun d => { d with run := false, inrushEnd := none, perA := 0, perB := 0, fire := false }
  have hu := s.drive_modDrive_self n off
  obtain ⟨ho, hc⟩ := State.driveZero_spec (s := s.modDrive n off) (n := n) (by rw [hu]; exact hg)
  exact ⟨(s.modDrive_others n off).trans ho, hc.trans (congrArg (fun d : Drive => d.zeroed.core) hu)⟩

/-- Cause FAULT is set: whatever else waits is withdrawn, and the outputs are cut (R387, R388). -/
theorem State.driveCauseSet_fault {s : State} {n : Nat} (hg : (s.drive n).cfg.gang = 0) : OtherDrives s (s.driveCauseSet n .fault) n
    ∧ ((s.driveCauseSet n .fault).drive n).core = ({ s.drive n with causeFault := true } : Drive).offed.core := by
  let u := s.modDrive n (fun d => d.setCause .fault true)
  have hu : u.drive n = { s.drive n with causeFault := true } := s.drive_modDrive_self n _
  have hk : DriveKept u (if !(s.drive n).safeOut then ((u.driveEvent n 0).driveEvent n 5).driveWithdraw n (fun _ => true) 2 0xFE01
      else (u.driveEvent n 0).driveWithdraw n (fun _ => true) 2 0xFE01) n := by
    split
    · exact ((u.driveEvent_kept n 0).trans (State.driveEvent_kept _ n 5)).trans (State.driveWithdraw_kept _ n _ 2 0xFE01)
    · exact (u.driveEvent_kept n 0).trans (State.driveWithdraw_kept _ n _ 2 0xFE01)
  obtain ⟨ho, hc⟩ := hk
  have hgang := (Drive.gang_of_core hc).trans ((congrArg (fun d : Drive => d.cfg.gang) hu).trans hg)
  obtain ⟨ho', hc'⟩ := State.driveOff_spec hgang
  have hu' : OtherDrives s u n := s.modDrive_others n _
  refine ⟨(hu'.trans ho).trans ho', hc'.trans ?_⟩
  have := congrArg (fun d : Drive => d.offed) (hc.trans (congrArg Drive.core hu))
  exact this

/-- What a drive in safe output for cause FAULT shows, by its core. -/
theorem Drive.faulted_of_core {d e : Drive} (h : d.core = ({ e with causeFault := true } : Drive).offed.core) :
    d.faultLow = e.faultLow ∧ d.causeFault = true ∧ d.faultCnt = e.faultCnt ∧ d.run = false ∧ d.actA = 0 ∧ d.actB = 0 ∧ d.safeOut = true := by
  have hf : d.causeFault = true := (congrArg Drive.causeFault h :)
  refine ⟨(congrArg Drive.faultLow h :), hf, (congrArg Drive.faultCnt h :), (congrArg Drive.run h :), (congrArg Drive.actA h :),
    (congrArg Drive.actB h :), ?_⟩
  simp [Drive.safeOut, hf]

/-- A fault of a drive that is no member of a gang, with its record. -/
theorem State.driveFaulted_spec {u : State} {n : Nat} (hg : (u.drive n).cfg.gang = 0) (m : W64) :
    OtherDrives u (((u.driveCauseSet n .fault).driveBalls n).report m) n
      ∧ ((((u.driveCauseSet n .fault).driveBalls n).report m).drive n).core = ({ u.drive n with causeFault := true } : Drive).offed.core := by
  obtain ⟨ho, hc⟩ := State.driveCauseSet_fault hg
  have hgang : ((u.driveCauseSet n .fault).drive n).cfg.gang = 0 := (Drive.gang_of_core hc).trans hg
  have hk := (State.driveBalls_kept hgang).trans (.of_drives (State.report_drives _ m none))
  exact ⟨ho.trans hk.1, hk.2.trans hc⟩

/-- FAULT_N of a drive has gone low, and is counted. -/
def Drive.faultSeen (d : Drive) : Drive := { d with faultLow := true, faultCnt := satInc32 d.faultCnt }

theorem exec_driveFault {s : State} {n : Nat} (hl : s.driveLive n = true) (hf : (s.drive n).faultLow = false) (hg : (s.drive n).cfg.gang = 0) :
    exec (.driveFault n true) s = .next ((((((s.modDrive n (fun d => { d with faultLow := true })).modDrive n
      (fun d => { d with faultCnt := satInc32 d.faultCnt })).driveCauseSet n .fault).driveBalls n)).report
        (faultMsg (80 + n / 8) (n % 8) 0x0F n (s.driveWorld n) false)) := by
  simp only [exec, execDriveFault, hl, hf, Bool.not_true, Bool.false_eq_true, ↓reduceIte, State.gangOf_single hg, List.foldl_cons, List.foldl_nil]

theorem completes_driveFault {s : State} {n : Nat} (hl : s.driveLive n = true) (hf : (s.drive n).faultLow = false) (hg : (s.drive n).cfg.gang = 0) :
    Completes (.driveFault n true) s (fun t => (t.drive n).faultLow = true ∧ (t.drive n).causeFault = true
      ∧ (t.drive n).faultCnt = satInc32 (s.drive n).faultCnt ∧ (t.drive n).run = false ∧ (t.drive n).actA = 0 ∧ (t.drive n).actB = 0
      ∧ (t.drive n).safeOut = true ∧ OtherDrives s t n) := by
  refine ⟨_, exec_driveFault hl hf hg, ?_⟩
  generalize hu : (s.modDrive n (fun d => { d with faultLow := true })).modDrive n (fun d => { d with faultCnt := satInc32 d.faultCnt }) = u
  have hud : u.drive n = (s.drive n).faultSeen := by
    rw [← hu, State.drive_modDrive_self, State.drive_modDrive_self]
    rfl
  have huo : OtherDrives s u n := hu ▸ (s.modDrive_others n _).trans (State.modDrive_others _ n _)
  obtain ⟨ho, hc⟩ := State.driveFaulted_spec (u := u) (n := n) (by rw [hud]; exact hg) (faultMsg (80 + n / 8) (n % 8) 0x0F n (s.driveWorld n) false)
  obtain ⟨h1, h2, h3, h4, h5, h6, h7⟩ := Drive.faulted_of_core hc
  exact ⟨h1.trans (congrArg Drive.faultLow hud), h2, h3.trans (congrArg Drive.faultCnt hud), h4, h5, h6, h7, huo.trans ho⟩

theorem completes_encoderEdge {s : State} {n : Nat} {l : BitVec 3} (hl : s.driveLive n = true) (hq : (s.drive n).cfg.quad = true)
    (hg : (s.drive n).cfg.gang = 0) (hs : quadStep (s.drive n).encLevels l.toNat ≠ 0) : Completes (.encoderEdge n l) s (fun t =>
      (t.drive n).encPos = unsignedOf 32 ((s.drive n).encPos + quadStep (s.drive n).encLevels l.toNat) ∧ (t.drive n).encLevels = l.toNat
        ∧ (t.drive n).encLast = some s.now
        ∧ (∀ t1, (s.drive n).encLast = some t1 → (t.drive n).encPeriod = satAt 0xFFFFFFFE (s.now - t1)) ∧ OtherDrives s t n) := by
  let edge : Drive → Drive := fun d => { d with
      encLevels := l.toNat
      encPos := unsignedOf 32 (d.encPos + quadStep (s.drive n).encLevels l.toNat)
      encPeriod := match d.encLast with
        | some t => satAt 0xFFFFFFFE (s.now - t)
        | none => d.encPeriod
      encLast := some s.now }
  have hu := s.drive_modDrive_self n edge
  have hm : DriveKept (s.modDrive n edge) ((s.modDrive n edge).encMatch n ((s.drive n).encPos = (s.drive n).encCmp)) n := by
    unfold State.encMatch
    dsimp only
    split
    · exact State.driveEvent_kept _ n 3
    · exact .of_drives rfl
  obtain ⟨h1, h2, h3, h4⟩ := Drive.encoder_of_core (hm.2.trans (congrArg Drive.core hu))
  refine ⟨(s.modDrive n edge).encMatch n ((s.drive n).encPos = (s.drive n).encCmp), ?_, h1, h2, h3, fun t1 ht => ?_,
    (s.modDrive_others n edge).trans hm.1⟩
  · simp only [exec, execEncoderEdge, hl, hq, hg, Bool.not_true, Bool.false_eq_true, ↓reduceIte, if_neg hs, zero_ne_one]
    rfl
  · rw [h4]
    simp [edge, ht]

/-- A command that changes one drive and nothing else. -/
theorem completes_drive {i : Instr} {s : State} {n : Nat} {f : Drive → Drive} (hi : exec i s = .next (s.modDrive n f)) :
    Completes i s (fun t => t.drive n = f (s.drive n) ∧ OtherDrives s t n ∧ { t with drives := s.drives } = s) :=
  ⟨_, hi, s.drive_modDrive_self n f, s.modDrive_others n f, rfl⟩

theorem State.foldl_cut_spec (l : List Nat) (s : State) (m : Nat) :
    (l.foldl (fun t i => t.modDrive i (fun d => { d with cut := false })) s).drive m
      = { s.drive m with cut := if m ∈ l then false else (s.drive m).cut } := by
  induction l generalizing s with
  | nil => rfl
  | cons i l ih =>
    rw [List.foldl_cons, ih, State.drive_modDrive]
    by_cases h : m = i
    · subst h; simp
    · simp [h]

theorem completes_pwmPeriodEnd {s : State} {n : Nat} (hn : n < 64) (hm : (s.drive n).motion = .follow) :
    Completes (.pwmPeriodEnd n) s (fun t => (t.drive n).perA = (s.drive n).actA ∧ (t.drive n).perB = (s.drive n).actB
      ∧ (t.drive n).perFreq = (s.drive n).freq ∧ (t.drive n).cut = false ∧ (t.drive n).actA = (s.drive n).actA
      ∧ ((s.drive n).cfg.gang = 0 → OtherDrives s t n)) := by
  let period : Drive → Drive := fun d => { d with perA := d.actA, perB := d.actB, perFreq := d.freq, cut := false }
  have he : exec (.pwmPeriodEnd n) s
      = .next ((((s.gangOf n).foldl (fun t i => t.modDrive i (fun d => { d with cut := false })) s).modDrive n period).driveBalls n) := by
    simp only [exec, execPwmPeriodEnd, if_neg (Nat.not_le.mpr hn), hm]
    rfl
  refine ⟨_, he, ?_⟩
  generalize hv : (s.gangOf n).foldl (fun t i => t.modDrive i (fun d => { d with cut := false })) s = v
  have hvd : ∀ m, v.drive m = { s.drive m with cut := if m ∈ s.gangOf n then false else (s.drive m).cut } := fun m =>
    hv ▸ State.foldl_cut_spec (s.gangOf n) s m
  have hu : (v.modDrive n period).drive n = period (s.drive n) := by rw [State.drive_modDrive_self, hvd n]
  have hb := (State.driveBalls_unballed (v.modDrive n period) n n).trans (congrArg Drive.unballed hu)
  obtain ⟨h1, h2, h3, h4, h5⟩ := Drive.period_of_unballed hb
  refine ⟨h1, h2, h3, h4, h5, fun hg => ?_⟩
  have hvo : OtherDrives s v n := fun m hne => by
    rw [hvd m, State.gangOf_single hg]
    simp [hne]
  have hgang : ((v.modDrive n period).drive n).cfg.gang = 0 := by rw [hu]; exact hg
  exact (hvo.trans (v.modDrive_others n period)).trans (State.driveBalls_others hgang)

theorem completes_rampTick {s : State} {n : Nat} (hn : n < 64) (hm : (s.drive n).motion = .follow) (hr : (s.drive n).run = true) :
    Completes (.rampTick n) s (fun t =>
      (t.drive n).actA = rampStep (s.drive n).actA (s.drive n).targetA (s.drive n).cfg.rampUp (s.drive n).cfg.rampDn
        ∧ (t.drive n).actB = rampStep (s.drive n).actB (s.drive n).targetB (s.drive n).cfg.rampUp (s.drive n).cfg.rampDn
        ∧ (t.drive n).run = true ∧ ((s.drive n).cfg.gang = 0 → OtherDrives s t n)) := by
  generalize ha : rampStep (s.drive n).actA (s.drive n).targetA (s.drive n).cfg.rampUp (s.drive n).cfg.rampDn = a
  generalize hb : rampStep (s.drive n).actB (s.drive n).targetB (s.drive n).cfg.rampUp (s.drive n).cfg.rampDn = b
  let ramp : Drive → Drive := fun d => { d with actA := a, actB := b }
  have he : ∃ moved : Bool, exec (.rampTick n) s
      = .next (((if moved then (s.modDrive n ramp).driveEvent n 2 else s.modDrive n ramp).driveTrim n).driveBalls n) := by
    refine ⟨(a != (s.drive n).actA || b != (s.drive n).actB) && decide (a = (s.drive n).targetA) && decide (b = (s.drive n).targetB), ?_⟩
    simp only [exec, execRampTick, if_neg (Nat.not_le.mpr hn), hm, hr, ha, hb, Bool.not_true, Bool.false_eq_true, ↓reduceIte]
    rfl
  obtain ⟨moved, he⟩ := he
  refine ⟨_, he, ?_⟩
  have hu := s.drive_modDrive_self n ramp
  have hev : DriveKept (s.modDrive n ramp) (if moved then (s.modDrive n ramp).driveEvent n 2 else s.modDrive n ramp) n := by
    cases moved
    · exact .of_drives rfl
    · exact State.driveEvent_kept _ n 2
  obtain ⟨ho, hc⟩ := hev.trans (State.driveTrim_kept _ n)
  have hcore := ((State.driveBalls_core _ n n).trans hc).trans (congrArg Drive.core hu)
  obtain ⟨h1, h2, h3⟩ := Drive.output_of_core hcore
  refine ⟨h1, h2, h3.trans hr, fun hg => ?_⟩
  have hgang := (Drive.gang_of_core (hc.trans (congrArg Drive.core hu))).trans hg
  exact ((s.modDrive_others n ramp).trans ho).trans (State.driveBalls_others hgang)

/-- ZC_OK falls (R392). -/
theorem State.zcLost_spec (s : State) (n : Nat) : ((s.zcLost n).drive n).zcOk = false ∧ ((s.zcLost n).drive n).fire = false
    ∧ ((s.drive n).zcOk = true → bitAt ((s.zcLost n).drive n).event 4 = true) ∧ ((s.drive n).cfg.gang = 0 → OtherDrives s (s.zcLost n) n) := by
  let lost : Drive → Drive := fun d => { d with zcOk := false, zcCount := 0, fire := false }
  have hu := s.drive_modDrive_self n lost
  let v : State := if (s.drive n).zcOk then (s.modDrive n lost).driveEvent n 4 else s.modDrive n lost
  have hz : s.zcLost n = v.driveBalls n := rfl
  have hv : DriveKept (s.modDrive n lost) v n ∧ (v.drive n).zcOk = false ∧ (v.drive n).fire = false
      ∧ ((s.drive n).zcOk = true → bitAt (v.drive n).event 4 = true) := by
    cases hk : (s.drive n).zcOk with
    | false =>
      have hv : v = s.modDrive n lost := if_neg (by simp [hk])
      rw [hv, hu]
      exact ⟨.of_drives rfl, rfl, rfl, fun h => nomatch h⟩
    | true =>
      have hv : v = (s.modDrive n lost).driveEvent n 4 := if_pos hk
      rw [hv, State.drive_driveEvent, hu]
      exact ⟨State.driveEvent_kept _ n 4, rfl, rfl, fun _ => by rw [bitAt_or]; exact Bool.or_true _⟩
  obtain ⟨⟨ho, hc⟩, h1, h2, h3⟩ := hv
  obtain ⟨g1, g2, g3, -, -, -⟩ := Drive.crossing_of_unballed (v.driveBalls_unballed n n)
  rw [hz]
  refine ⟨g1.trans h1, g2.trans h2, fun h => (congrArg (bitAt · 4) g3).trans (h3 h), fun hg => ?_⟩
  have hgang := (Drive.gang_of_core (hc.trans (congrArg Drive.core hu))).trans hg
  exact ((s.modDrive_others n lost).trans ho).trans (State.driveBalls_others hgang)

theorem completes_zcEdge_good {s : State} {n t1 : Nat} (hl : s.driveLive n = true) (ht : (s.drive n).zcLast = some t1) (hp : 12000000 ≤ s.now - t1)
    (h1 : 15300000 ≤ s.now - t1) (h2 : s.now - t1 ≤ 22300000) : Completes (.zcEdge n) s (fun t => (t.drive n).zcPeriod = s.now - t1
      ∧ (t.drive n).zcLast = some s.now ∧ (t.drive n).zcOk = ((s.drive n).zcOk || decide (3 ≤ (s.drive n).zcCount)) ∧ (t.drive n).run = (s.drive n).run
      ∧ ((s.drive n).cfg.gang = 0 → OtherDrives s t n)) := by
  let edge : Drive → Drive := fun d => { d with zcLast := some s.now, zcLevel := true }
  let good : Drive → Drive := fun d =>
    { d with zcPeriod := s.now - t1, zcCount := satAt 4 (d.zcCount + 1), zcOk := d.zcOk || 3 ≤ d.zcCount }
  have he : exec (.zcEdge n) s = .next ((((s.modDrive n edge).modDrive n good).modDrive n Drive.fireDecide).driveBalls n) := by
    simp only [exec, execZcEdge, hl, ht, Bool.not_true, Bool.false_eq_true, ↓reduceIte, if_neg (Nat.not_lt.mpr hp), if_pos (And.intro h1 h2)]
    rfl
  refine ⟨_, he, ?_⟩
  have huo : OtherDrives s (((s.modDrive n edge).modDrive n good).modDrive n Drive.fireDecide) n :=
    ((s.modDrive_others n edge).trans (State.modDrive_others _ n good)).trans (State.modDrive_others _ n _)
  have hu : (((s.modDrive n edge).modDrive n good).modDrive n Drive.fireDecide).drive n = (good (edge (s.drive n))).fireDecide := by
    rw [State.drive_modDrive_self, State.drive_modDrive_self, State.drive_modDrive_self]
  have hfire : ∀ d : Drive, d.fireDecide.zcOk = d.zcOk ∧ d.fireDecide.zcPeriod = d.zcPeriod ∧ d.fireDecide.zcLast = d.zcLast
      ∧ d.fireDecide.run = d.run ∧ d.fireDecide.cfg = d.cfg := by
    intro d
    unfold Drive.fireDecide
    split
    · dsimp only; split <;> exact ⟨rfl, rfl, rfl, rfl, rfl⟩
    · exact ⟨rfl, rfl, rfl, rfl, rfl⟩
  obtain ⟨f1, f2, f3, f4, f5⟩ := hfire (good (edge (s.drive n)))
  obtain ⟨g1, -, -, g4, g5, g6⟩ := Drive.crossing_of_unballed ((State.driveBalls_unballed _ n n).trans (congrArg Drive.unballed hu))
  refine ⟨g4.trans f2, g5.trans f3, g1.trans f1, g6.trans f4, fun hg => huo.trans (State.driveBalls_others ?_)⟩
  rw [hu, f5]
  exact hg

theorem completes_zcEdge_bad {s : State} {n t1 : Nat} (hl : s.driveLive n = true) (ht : (s.drive n).zcLast = some t1) (hp : 12000000 ≤ s.now - t1)
    (h : ¬(15300000 ≤ s.now - t1 ∧ s.now - t1 ≤ 22300000)) : Completes (.zcEdge n) s (fun t => (t.drive n).zcOk = false
      ∧ (t.drive n).fire = false ∧ ((s.drive n).zcOk = true → bitAt (t.drive n).event 4 = true) ∧ ((s.drive n).cfg.gang = 0 → OtherDrives s t n)) := by
  let edge : Drive → Drive := fun d => { d with zcLast := some s.now, zcLevel := true }
  have he : exec (.zcEdge n) s = .next ((s.modDrive n edge).zcLost n) := by
    simp only [exec, execZcEdge, hl, ht, Bool.not_true, Bool.false_eq_true, ↓reduceIte, if_neg (Nat.not_lt.mpr hp), if_neg h]
    rfl
  obtain ⟨h1, h2, h3, h4⟩ := State.zcLost_spec (s.modDrive n edge) n
  have hu := s.drive_modDrive_self n edge
  rw [hu] at h3 h4
  exact ⟨_, he, h1, h2, h3, fun hg => (s.modDrive_others n edge).trans (h4 hg)⟩

/-- No current above the limit, no cut (R374). -/
theorem State.ilimCut_below {s : State} {n : Nat} (hg : (s.drive n).cfg.gang ≠ 2) (h : (s.drive n).ilim = 4095 ∨ (s.drive n).adc1 ≤ (s.drive n).ilim) :
    s.ilimCut n = s := by
  simp [State.ilimCut, State.governor, hg, h]

theorem State.driveTrim_unleased {s : State} {n : Nat} (h : (s.drive n).lease = none) : s.driveTrim n = s := by
  simp [State.driveTrim, h]

/-- Settles O40: each event by its own lemma, over the drive it names. -/
theorem driveEvents : Obligations.DriveEvents := by
  intro s n hn
  refine ⟨State.driveLive_iff hn, fun h low l ch v => exec_deadDrive h low l ch v, fun hl hf hg => completes_driveFault hl hf hg, fun hl hf => ?_,
    fun l hl hq hg hs => completes_encoderEdge hl hq hg hs, fun t1 ht ho => ?_, fun v hl => ?_, fun v hl hg hi => ?_,
    fun hm => completes_pwmPeriodEnd hn hm, fun hm hr => completes_rampTick hn hm hr, fun t1 ht ho hlease => ?_,
    fun t1 hl ht hp => ⟨fun h1 h2 => completes_zcEdge_good hl ht hp h1 h2, fun h => completes_zcEdge_bad hl ht hp h⟩, fun t1 ht ho => ?_⟩
  · refine completes_drive (f := fun d => { d with faultLow := false, faultHighAt := s.now }) ?_
    simp only [exec, execDriveFault, hl, hf, Bool.not_true, Bool.not_false, Bool.false_eq_true, ↓reduceIte]
  · refine completes_drive (f := fun d => { d with encPeriod := 0xFFFFFFFF }) ?_
    simp [exec, execEncTimeout, ht, ho, hn]
  · refine completes_drive (f := fun d => { d with adc0 := v.toNat, hist0 := (v.toNat :: d.hist0).take 1024 }) ?_
    simp only [exec, execAdcSample, hl, Bool.not_true, Bool.false_eq_true, ↓reduceIte]
  · refine completes_drive (f := fun d => { d with adc1 := v.toNat, hist1 := (v.toNat :: d.hist1).take 1024 }) ?_
    simp only [exec, execAdcSample, hl, Bool.not_true, Bool.false_eq_true, ↓reduceIte, one_ne_zero]
    exact congrArg Host.Outcome.next (State.ilimCut_below (by rw [State.drive_modDrive_self]; exact hg) (by rw [State.drive_modDrive_self]; exact hi))
  · refine completes_drive (f := fun d => { d with inrushEnd := none }) ?_
    simp only [exec, execInrushEnd, ht, if_pos ho]
    exact congrArg Host.Outcome.next (State.driveTrim_unleased (by rw [State.drive_modDrive_self]; exact hlease))
  · have he : exec (.zcTimeout n) s = .next (s.zcLost n) := by simp [exec, execZcTimeout, ht, ho, hn]
    exact ⟨_, he, s.zcLost_spec n⟩

end Sys2Proof.Machine

namespace Sys2Proof.Machine

/-! ### A power domain that was frozen (R34, R411) -/

/-- Domain 32, of the first cluster, is about to come on again after Boiler switched it off: the Landing of its first Hearth is frozen. -/
def domainFrozen : State :=
  { boiler := { switching := [32], frozen := [32] }
    lands := [(8, { freeze := true })] }

/-- The same state when the domain has come on. -/
def domainThawed : State :=
  ((domainFrozen.modBl (fun b => { b with
    switching := b.switching.filter (fun i => i != 32), domains := b.domains ++ [32] })).landsThaw 32).domainUsable 32

theorem exec_domainOn_domainFrozen : exec (.domainOn 32) domainFrozen = .next domainThawed := by
  simp only [exec, execDomainOn]
  exact if_pos rfl

/-- The domain usable again, the Landing of the Hearth is no longer frozen (R411). -/
theorem domainThawed_freeze : (domainThawed.landing 8).freeze = false := by decide

/-- Refutes O41: DOMAIN_ON need not leave all but Boiler as it is. Where Boiler had switched the domain off, its Landings are frozen, and
Boiler clears their FREEZE as the domain is on again (R411). -/
theorem not_boilerActs : ¬ Obligations.BoilerActs := by
  intro h
  obtain ⟨-, -, -, hon, -⟩ := h domainFrozen
  obtain ⟨t, ht, -, -, hs⟩ := hon 32 rfl (by decide) (by decide)
  have hlands : t.lands = domainFrozen.lands := (congrArg State.lands hs :)
  have hf : (t.landing 8).freeze = true := congrArg (fun l => (Tbl.get ({} : Landing) l 8).freeze) hlands
  rw [exec_domainOn_domainFrozen] at ht
  cases ht
  rw [domainThawed_freeze] at hf
  exact Bool.noConfusion hf

end Sys2Proof.Machine

namespace Sys2Proof.Machine

/-! ### Dumbwaiters (R359 to R369) -/

/-- No engine but one changes, and no context. -/
def OtherEngines (s t : State) (e : Nat) : Prop := (∀ m, m ≠ e → t.dw m = s.dw m) ∧ t.ctxs = s.ctxs

theorem State.dw_modDw_self (s : State) (e : Nat) (f : Dw → Dw) : (s.modDw e f).dw e = f (s.dw e) := (s.dw_modDw e f e).trans (if_pos rfl)

theorem State.modDw_others (s : State) (e : Nat) (f : Dw → Dw) : OtherEngines s (s.modDw e f) e :=
  ⟨fun m hm => (s.dw_modDw e f m).trans (if_neg hm), rfl⟩

theorem OtherEngines.modDw {s t : State} {e : Nat} (h : OtherEngines s t e) (f : Dw → Dw) : OtherEngines s (t.modDw e f) e :=
  ⟨fun m hm => ((t.modDw_others e f).1 m hm).trans (h.1 m hm), h.2⟩

theorem SameBytes.modDw {s t : State} (h : SameBytes s t) (e : Nat) (f : Dw → Dw) : SameBytes s (t.modDw e f) := h

/-- A command that changes one engine, in one or more steps. -/
theorem completes_engine {i : Instr} {s t : State} {e : Nat} {d : Dw} (hi : exec i s = .next t) (hd : t.dw e = d) (ho : OtherEngines s t e)
    (hb : SameBytes s t) : Completes i s (fun t => t.dw e = d ∧ OtherEngines s t e ∧ SameBytes s t) := ⟨t, hi, hd, ho, hb⟩

theorem State.hostItem_own {s : State} {w : World} (hd : s.done = true) {item : Option World} (hw : item = some w) (off : Nat) (k : State → State) :
    s.hostItem w off item k = k s := by
  simp [State.hostItem, hd, hw]

theorem State.dwEnableOn_disabled {t : State} {e : Nat} (hs : (t.dw e).state = .disabled) (hd : t.boiler.domains.contains (dwDomain e) = true) :
    t.dwEnableOn e = (t.modDw e (fun d => { d with enable := true })).modDw e (fun d => { d with state := .idle, reqPending := 0 }) := by
  unfold State.dwEnableOn
  rw [if_pos hs, if_pos hd]

/-- The request for leave of an engine (R361). -/
def State.dwRequest (s : State) (e : Nat) : LeaveReq :=
  s.leaveReq (.dumbwaiter e) false 4 (Nat.max 1 (s.dw e).leave) (satAt 65535 (ceilDiv (s.dw e).cnt (2 ^ 20))) none (s.dwLst e)

/-- A request for leave that Boiler does not refuse outright waits. -/
theorem State.dwAsk_waits {t : State} {e : Nat} (h : t.boiler.denied (t.dwRequest e) = false) : ∃ u, t.dwAsk e = (false, u)
    ∧ u.dw e = { t.dw e with state := .leaveWait } ∧ OtherEngines t u e ∧ SameBytes t u ∧ u.boiler.waiting.length = t.boiler.waiting.length + 1 := by
  let ask : Dw → Dw := fun d => { d with state := .leaveWait }
  have hq : (t.modDw e ask).boiler.denied (t.dwRequest e) ≠ true := by rw [show (t.modDw e ask).boiler = t.boiler from rfl, h]; exact Bool.false_ne_true
  refine ⟨_, if_neg hq, t.dw_modDw_self e ask, t.modDw_others e ask, (SameBytes.refl t).modDw e ask, ?_⟩
  exact (List.length_append (as := t.boiler.waiting)).trans rfl

theorem State.dwRequest_congr {s t : State} {e : Nat} (hi : t.img = s.img) (hn : t.qz = s.qz) (hb : t.boiler = s.boiler)
    (hd : (t.dw e).leave = (s.dw e).leave ∧ (t.dw e).cnt = (s.dw e).cnt ∧ (t.dw e).dl = (s.dw e).dl) : t.dwRequest e = s.dwRequest e := by
  obtain ⟨h1, h2, h3⟩ := hd
  simp only [State.dwRequest, State.leaveReq, State.ownerWorld, State.dwWorld, State.dwLst, State.dwDue, State.backgroundLst, State.now, hi, hn, hb, h1, h2, h3]

theorem State.dwPauseAct_waiting {t : State} {e : Nat} (hs : (t.dw e).state = .leaveWait) (hp : (t.dw e).pause = false) : t.dwPauseAct e = t := by
  simp [State.dwPauseAct, hs, hp]

section
variable {s : State} {w : World} {e : Nat} (hd : s.done = true) (hw : s.dwWorld e = some w)
include hd hw

/-- A write of DW_CTL that is no START. -/
theorem completes_dwPause {v : W32} (h0 : v.getLsbD 0 = false) (h1 : v.getLsbD 1 = true) (hs : (s.dw e).state = .running)
    (hk : (s.dw e).reqKind = 0) : Completes (.dwPause w e v) s (fun t =>
      t.dw e = { s.dw e with pause := true, state := .pausing } ∧ OtherEngines s t e ∧ SameBytes s t) := by
  let pause : Dw → Dw := fun d => { d with pause := bitAt v.toNat 1, tag := if d.isOpen then bits v.toNat 16 16 else d.tag }
  have hb0 : bitAt v.toNat 0 = false := by rwa [← getLsbD_eq_bitAt]
  have hb1 : bitAt v.toNat 1 = true := by rwa [← getLsbD_eq_bitAt]
  have ho : (s.dw e).isOpen = false := by simp [Dw.isOpen, hs]
  have hu : (s.modDw e pause).dw e = { s.dw e with pause := true } := by
    rw [State.dw_modDw_self]
    simp only [pause, hb1, ho, Bool.false_eq_true, ↓reduceIte]
  refine completes_engine (t := (s.modDw e pause).modDw e (fun d => { d with state := .pausing })) ?_ ?_ ?_ ?_
  · have hr : ({ s.dw e with pause := true } : Dw).released = true := by simp [Dw.released, hk]
    have hp : (s.modDw e pause).dwPauseAct e = (s.modDw e pause).modDw e (fun d => { d with state := .pausing }) := by
      simp only [State.dwPauseAct, hu, hs, ↓reduceIte]
      exact if_pos hr
    simp only [exec, execDwPause, State.dwCtlWrite, State.hostItem_own hd hw, hb0, Bool.false_and, Bool.false_eq_true, ↓reduceIte]
    exact congrArg Host.Outcome.next hp
  · rw [State.dw_modDw_self, hu]
  · exact (s.modDw_others e pause).modDw _
  · exact ((SameBytes.refl s).modDw e _).modDw e _

theorem completes_dwStart {v : W32} (h0 : v.getLsbD 0 = true) (h1 : v.getLsbD 1 = false) (hs : (s.dw e).state = .idle)
    (ha : dwAligned (s.dw e).src (s.dw e).dst (s.dw e).cnt = true)
    (hl : s.boiler.denied (s.leaveReq (.dumbwaiter e) false 4 (Nat.max 1 (s.dw e).leave) (satAt 65535 (ceilDiv (s.dw e).cnt (2 ^ 20))) none (s.dwLst e)) = false) :
    Completes (.dwStart w e v) s (fun t => t.dw e = { s.dw e with
          pause := false, tag := bits v.toNat 16 16, start := true, tSrc := (s.dw e).src, tDst := (s.dw e).dst, tCnt := (s.dw e).cnt
          tTag := bits v.toNat 16 16, handover := false, moved := [], descending := dwDescends (s.dw e).src (s.dw e).dst (s.dw e).cnt
          state := .leaveWait }
        ∧ t.boiler.waiting.length = s.boiler.waiting.length + 1 ∧ OtherEngines s t e ∧ SameBytes s t) := by
  let ctl : Dw → Dw := fun d => { d with pause := bitAt v.toNat 1, tag := if d.isOpen then bits v.toNat 16 16 else d.tag }
  let take : Dw → Dw := fun d => { d.taken false with start := true }
  let ask : Dw → Dw := fun d => { d with state := .leaveWait }
  have hb0 : bitAt v.toNat 0 = true := by rwa [← getLsbD_eq_bitAt]
  have hb1 : bitAt v.toNat 1 = false := by rwa [← getLsbD_eq_bitAt]
  have ho : (s.dw e).isOpen = true := by simp [Dw.isOpen, hs]
  have hc : (s.modDw e ctl).dw e = { s.dw e with pause := false, tag := bits v.toNat 16 16 } := by
    rw [State.dw_modDw_self]
    simp only [ctl, hb1, ho, ↓reduceIte]
  have ht : ((s.modDw e ctl).modDw e take).dw e = { s.dw e with
      pause := false, tag := bits v.toNat 16 16, start := true, tSrc := (s.dw e).src, tDst := (s.dw e).dst, tCnt := (s.dw e).cnt
      tTag := bits v.toNat 16 16, handover := false, moved := [], descending := dwDescends (s.dw e).src (s.dw e).dst (s.dw e).cnt } := by
    rw [State.dw_modDw_self, hc]
    simp only [take, Dw.taken, ha, Bool.true_and]
  have hreq : ((s.modDw e ctl).modDw e take).dwRequest e = s.dwRequest e := State.dwRequest_congr rfl rfl rfl (by rw [ht]; exact ⟨rfl, rfl, rfl⟩)
  obtain ⟨u, hu, hud, huo, hub, huw⟩ := State.dwAsk_waits (t := (s.modDw e ctl).modDw e take) (e := e) (by rw [hreq]; exact hl)
  rw [ht] at hud
  have hbegin : (s.modDw e ctl).dwBegin e = u := by
    unfold State.dwBegin
    dsimp only
    rw [show (s.modDw e ctl).modDw e (fun d => { d.taken false with start := true }) = (s.modDw e ctl).modDw e take from rfl, hu, ht]
    simp only [ha, Bool.not_true, Bool.false_eq_true, ↓reduceIte]
  have hidle : ((s.modDw e ctl).dw e).state = .idle := by rw [hc]; exact hs
  refine ⟨u, ?_, hud, huw, ⟨fun m hm => (huo.1 m hm).trans (((s.modDw_others e ctl).modDw take).1 m hm), huo.2⟩, hub⟩
  have hp : u.dwPauseAct e = u := State.dwPauseAct_waiting (by rw [hud]) (by rw [hud])
  simp only [exec, execDwStart, State.dwCtlWrite, State.hostItem_own hd hw, hb0, Bool.true_and]
  rw [if_pos (decide_eq_true hidle)]
  exact congrArg Host.Outcome.next ((congrArg (fun t : State => t.dwPauseAct e) hbegin).trans hp)

theorem completes_dwEnable {v : W32} (h0 : v.getLsbD 0 = true) (h4 : bits v.toNat 4 2 ≠ 2) (hs : (s.dw e).state = .disabled)
    (hdom : s.boiler.domains.contains (dwDomain e) = true) : Completes (.dwEnable w e v) s (fun t =>
      t.dw e = { s.dw e with burstLog := bits v.toNat 1 3, reqKind := bits v.toNat 4 2, reqUnit := bits v.toNat 6 10, irq := v.getLsbD 16
                             enable := true, state := .idle, reqPending := 0 } ∧ OtherEngines s t e ∧ SameBytes s t) := by
  let cfg : Dw → Dw := fun d => { d with burstLog := bits v.toNat 1 3, reqKind := bits v.toNat 4 2, reqUnit := bits v.toNat 6 10, irq := v.getLsbD 16 }
  have hb0 : bitAt v.toNat 0 = true := by rwa [← getLsbD_eq_bitAt]
  have ho : (s.dw e).isOpen = true := by simp [Dw.isOpen, hs]
  have hc := s.dw_modDw_self e cfg
  have hst : ((s.modDw e cfg).dw e).state = .disabled := by rw [hc]; exact hs
  refine completes_engine (t := ((s.modDw e cfg).modDw e (fun d => { d with enable := true })).modDw e (fun d => { d with state := .idle, reqPending := 0 }))
    ?_ ?_ ?_ ?_
  · have hon : (s.modDw e cfg).dwEnableOn e
        = ((s.modDw e cfg).modDw e (fun d => { d with enable := true })).modDw e (fun d => { d with state := .idle, reqPending := 0 }) :=
      State.dwEnableOn_disabled hst hdom
    simp only [exec, execDwEnable, State.dwCfgWrite, State.hostItem_own hd hw, decide_eq_false h4, Bool.false_and, Bool.false_eq_true, ho, hb0, ↓reduceIte,
      ← getLsbD_eq_bitAt]
    exact congrArg Host.Outcome.next hon
  · refine (State.dw_modDw_self _ e _).trans ((congrArg (fun d : Dw => ({ d with state := .idle, reqPending := 0 } : Dw))
      ((State.dw_modDw_self _ e _).trans (congrArg (fun d : Dw => ({ d with enable := true } : Dw)) hc))).trans ?_)
    rfl
  · exact ((s.modDw_others e cfg).modDw _).modDw _
  · exact (((SameBytes.refl s).modDw e _).modDw e _).modDw e _

theorem exec_dwReq {v : W32} (h0 : v.getLsbD 0 = true) (hk : (s.dw e).reqKind = 1) : exec (.dwReq w e v) s = .next (s.modDw e Dw.request) := by
  have hb0 : bitAt v.toNat 0 = true := by rwa [← getLsbD_eq_bitAt]
  simp only [exec, execDwReq, State.dwReqWrite, State.hostItem_own hd hw, hb0, hk, decide_true, Bool.and_self, ↓reduceIte]

theorem completes_dwCqHead {v : W32} (hs : (s.dw e).state ≠ .cqWait) (hi : (ptrOf v.toNat).idx < (s.dw e).cqDepth)
    (hp : ptrDist ⟨(s.dw e).cqHead, (s.dw e).cqHeadWrap⟩ (ptrOf v.toNat) (s.dw e).cqDepth
      ≤ ptrDist ⟨(s.dw e).cqHead, (s.dw e).cqHeadWrap⟩ ⟨(s.dw e).cqTail, (s.dw e).cqTailWrap⟩ (s.dw e).cqDepth) :
    Completes (.dwCqHead w e v) s (fun t => t.dw e = { s.dw e with cqHead := (ptrOf v.toNat).idx, cqHeadWrap := (ptrOf v.toNat).wrap }
      ∧ OtherEngines s t e ∧ SameBytes s t) := by
  refine completes_engine (t := s.modDw e (fun d => { d with cqHead := (ptrOf v.toNat).idx, cqHeadWrap := (ptrOf v.toNat).wrap })) ?_
    (s.dw_modDw_self e _) (s.modDw_others e _) ((SameBytes.refl s).modDw e _)
  have hbad : (decide ((s.dw e).cqDepth ≤ (ptrOf v.toNat).idx)
      || decide (ptrDist ⟨(s.dw e).cqHead, (s.dw e).cqHeadWrap⟩ ⟨(s.dw e).cqTail, (s.dw e).cqTailWrap⟩ (s.dw e).cqDepth
        < ptrDist ⟨(s.dw e).cqHead, (s.dw e).cqHeadWrap⟩ (ptrOf v.toNat) (s.dw e).cqDepth)) = false := by
    simp only [Bool.or_eq_false_iff, decide_eq_false_iff_not, Nat.not_le, Nat.not_lt]
    exact ⟨hi, hp⟩
  simp only [exec, execDwCqHead, State.dwHeadWrite, State.hostItem_own hd hw, hbad, Bool.false_eq_true, ↓reduceIte, if_neg hs]
  split <;> rfl

end

/-! #### A burst -/

theorem Memory.write_append (d : Byte) (m : Memory) (a : Nat) (l k : List Byte) :
    Memory.write d (Memory.write d m a l) (a + l.length) k = Memory.write d m a (l ++ k) := by
  induction l generalizing m a with
  | nil => rfl
  | cons b l ih =>
    rw [List.cons_append, Memory.write, Memory.write, ← ih, List.length_cons]
    congr 1
    omega

/-- A state in which no more than counters and Pantry have changed. -/
def State.PantryMoved (s u : State) : Prop := ∃ st p, u = { s with stats := st, pantry := p } ∧ p.xlat = s.pantry.xlat ∧ p.xlatBad = s.pantry.xlatBad

theorem State.PantryMoved.trans {s t u : State} (h : s.PantryMoved t) (g : t.PantryMoved u) : s.PantryMoved u := by
  obtain ⟨st, p, rfl, h1, h2⟩ := h
  obtain ⟨st', p', rfl, g1, g2⟩ := g
  exact ⟨st', p', rfl, g1.trans h1, g2.trans h2⟩

theorem State.PantryMoved.sameRights {s u : State} (h : s.PantryMoved u) : s.SameRights u := by
  obtain ⟨st, p, rfl, h1, h2⟩ := h
  exact ⟨rfl, h1, h2⟩

theorem State.ReadFrom.pantryMoved {s u : State} (h : s.ReadFrom u) : s.PantryMoved u := by
  obtain ⟨⟨st, k, e, rfl⟩, -⟩ := h
  exact ⟨_, _, rfl, rfl, rfl⟩

/-- A write of a range of Pantry that rights allow writes each of its bytes. -/
theorem State.writeSpan_good {w : World} {sup : Bool} (fuel : Nat) {s : State} {a : Nat} {d : List Byte} (hin : a + d.length ≤ windowBase)
    (hd : ∀ i, i < d.length → s.deny w sup .write (a + i) = none) (hf : d.length = 0 ∨ a % 65536 + d.length ≤ fuel * 65536) :
    ∃ u, s.writeSpan w sup fuel a d = (d.length, .done, u) ∧ s.PantryMoved u ∧ u.pantry.mem = Memory.write 0 s.pantry.mem a d := by
  induction fuel generalizing s a d with
  | zero =>
    obtain rfl : d = [] := List.length_eq_zero_iff.mp (by omega)
    exact ⟨s, rfl, ⟨_, _, rfl, rfl, rfl⟩, rfl⟩
  | succ fuel ih =>
    unfold State.writeSpan
    by_cases hn : d = []
    · subst hn
      exact ⟨s, rfl, ⟨_, _, rfl, rfl, rfl⟩, rfl⟩
    have hpos := List.length_pos_of_ne_nil hn
    rw [if_neg hn, show s.deny w sup _ a = none from hd 0 hpos]
    dsimp only
    generalize hb : Nat.min d.length (blockLeft a) = b
    have hbn : b ≤ d.length := hb ▸ Nat.min_le_left ..
    have hleft : b = d.length ∨ a % 65536 + b = 65536 := by
      have : b = d.length ∨ b = blockLeft a := hb ▸ (Nat.le_total d.length (blockLeft a)).imp Nat.min_eq_left Nat.min_eq_right
      unfold blockLeft at this
      omega
    have hw : s.writeBlock w a (d.take b) = (s.countWorld w 12 (d.take b).length).pnWrite a (d.take b) := if_pos (by omega)
    have hmoved : s.PantryMoved (s.writeBlock w a (d.take b)) := by rw [hw]; exact ⟨_, _, rfl, rfl, rfl⟩
    have hmem : (s.writeBlock w a (d.take b)).pantry.mem = Memory.write 0 s.pantry.mem a (d.take b) := by rw [hw]; rfl
    have hdl : (d.drop b).length = d.length - b := List.length_drop ..
    obtain ⟨u, hu, hsu, hum⟩ := ih (s := s.writeBlock w a (d.take b)) (a := a + b) (d := d.drop b) (by omega)
      (fun i hi => by rw [hmoved.sameRights.deny, Nat.add_assoc]; exact hd _ (by omega)) (by omega)
    refine ⟨u, ?_, hmoved.trans hsu, ?_⟩
    · rw [hu]
      simp only [hdl, Nat.add_sub_cancel' hbn]
    · have hlen : (d.take b).length = b := by rw [List.length_take]; omega
      have happ := Memory.write_append 0 s.pantry.mem a (d.take b) (d.drop b)
      rw [hlen, List.take_append_drop] at happ
      rw [hum, hmem, happ]

/-- A copy within Pantry that rights allow, read and then written. -/
theorem State.readWrite_good {s : State} {w : World} {src dst n : Nat} (hr : ∀ i, i < n → s.deny w false .read (src + i) = none)
    (hwr : ∀ i, i < n → s.deny w false .write (dst + i) = none) (hs : src + n ≤ windowBase) (hd : dst + n ≤ windowBase) (hg : GoodRead s src n) :
    ∃ u v, s.readBytes w false src n = (Memory.bytes 0 s.pantry.mem src n, .done, u)
      ∧ u.writeBytes w false dst (Memory.bytes 0 s.pantry.mem src n) = (n, .done, v) ∧ s.PantryMoved v
      ∧ v.pantry.mem = Memory.write 0 s.pantry.mem dst (Memory.bytes 0 s.pantry.mem src n) := by
  have hlen := Memory.length_bytes 0 s.pantry.mem src n
  obtain ⟨u, hu, hsu⟩ := State.readSpan_good (w := w) (sup := false) (n / 65536 + 2) hs hr hg (.inr (by omega))
  obtain ⟨v, hv, huv, hmem⟩ := State.writeSpan_good (w := w) (sup := false) ((Memory.bytes 0 s.pantry.mem src n).length / 65536 + 2) (s := u)
    (a := dst) (d := Memory.bytes 0 s.pantry.mem src n) (by rw [hlen]; exact hd) (fun i hi => by rw [hsu.sameRights.deny]; exact hwr i (hlen ▸ hi))
    (.inr (by rw [hlen]; omega))
  refine ⟨u, v, hu, ?_, hsu.pantryMoved.trans huv, hmem.trans (by rw [hsu.mem])⟩
  rw [hlen] at hv
  unfold State.writeBytes
  rw [hlen]
  exact hv

/-- What a burst that has moved leaves of its engine (R363). -/
def Dw.burstMoved (d : Dw) (data : List Byte) : Dw :=
  { d with src := d.src + d.burst, dst := d.dst + d.burst, cnt := d.cnt - d.burst, moved := d.moved ++ data }

/-- A burst of a copy that does not descend, by the read and the write that it makes. -/
theorem State.dwMove_of {s t u v : State} {w : World} {e k : Nat} {data : List Byte} {d : Dw} (ht : s.modDw e Dw.useRequest = t) (hho : t.dwHome e = w)
    (hd : t.dw e = d) (hde : d.descending = false) (hin : d.dst + d.burst ≤ windowBase)
    (hu : t.readBytes w false d.src d.burst = (data, .done, u)) (hv : u.writeBytes w false d.dst data = (k, .done, v)) :
    s.dwMove e .ok = (none, v.modDw e (fun x => { x with
      src := if x.descending then x.src else x.src + d.burst
      dst := if x.descending then x.dst else x.dst + d.burst
      cnt := x.cnt - d.burst
      moved := if x.descending then data ++ x.moved else x.moved ++ data })) := by
  have hwin : (decide (windowBase < d.dst + d.burst) && !u.dmaOk w) = false := by
    rw [decide_eq_false (Nat.not_lt.mpr hin), Bool.false_and]
  unfold State.dwMove
  simp only [ht, hho, hd, hde, Bool.false_eq_true, ↓reduceIte, Nat.add_zero, hu, hwin, hv, reduceCtorEq]

theorem Dw.burstMoved_eq {d : Dw} (h : d.descending = false) (data : List Byte) : ({ d with
      src := if d.descending then d.src else d.src + d.burst
      dst := if d.descending then d.dst else d.dst + d.burst
      cnt := d.cnt - d.burst
      moved := if d.descending then data ++ d.moved else d.moved ++ data } : Dw) = d.burstMoved data := by
  simp only [Dw.burstMoved, h, Bool.false_eq_true, ↓reduceIte]

theorem State.modDw_sameRights (s : State) (e : Nat) (f : Dw → Dw) : s.SameRights (s.modDw e f) := ⟨rfl, rfl, rfl⟩

theorem State.modDw_dwHome {s : State} {w : World} {e : Nat} (f : Dw → Dw) (h : s.dwWorld e = some w) : (s.modDw e f).dwHome e = w := by
  have hw : (s.modDw e f).dwWorld e = s.dwWorld e := rfl
  rw [State.dwHome, hw, h]
  rfl

theorem State.goodRead_modDw {s : State} {e a n : Nat} (f : Dw → Dw) (h : GoodRead s a n) : GoodRead (s.modDw e f) a n := h

theorem State.dwMove_good {s : State} {w : World} {e : Nat} {d : Dw} (hw : s.dwWorld e = some w) (hdu : (s.modDw e Dw.useRequest).dw e = d)
    (hde : d.descending = false)
    (hr : ∀ i, i < d.burst → s.deny w false .read (d.src + i) = none ∧ s.deny w false .write (d.dst + i) = none)
    (hs : d.src + d.burst ≤ windowBase) (hd : d.dst + d.burst ≤ windowBase) (hg : GoodRead s d.src d.burst) :
    ∃ u, s.dwMove e .ok = (none, u) ∧ u.dw e = d.burstMoved (Memory.bytes 0 s.pantry.mem d.src d.burst)
      ∧ u.pantry.mem = Memory.write 0 s.pantry.mem d.dst (Memory.bytes 0 s.pantry.mem d.src d.burst)
      ∧ OtherEngines s u e := by
  have hho := State.modDw_dwHome Dw.useRequest hw
  have hsr := s.modDw_sameRights e Dw.useRequest
  have hpn := s.modDw_pantry e Dw.useRequest
  have hgood := State.goodRead_modDw (e := e) Dw.useRequest hg
  have hto := s.modDw_others e Dw.useRequest
  generalize ht : s.modDw e Dw.useRequest = t at *
  obtain ⟨u, v, hu, hv, hmoved, hmem⟩ := State.readWrite_good (s := t) (w := w) (fun i hi => (hsr.deny w false .read _).trans (hr i hi).1)
    (fun i hi => (hsr.deny w false .write _).trans (hr i hi).2) hs hd hgood
  rw [hpn] at hmem hu hv
  have hvd : (∀ m, v.dw m = t.dw m) ∧ v.ctxs = t.ctxs := by
    obtain ⟨st, p, rfl, -, -⟩ := hmoved
    exact ⟨fun _ => rfl, rfl⟩
  refine ⟨_, State.dwMove_of ht hho hdu hde hd hu hv, ?_, hmem, ?_⟩
  · rw [State.dw_modDw_self, hvd.1, hdu]
    exact Dw.burstMoved_eq hde _
  · exact OtherEngines.modDw ⟨fun m hm => (hvd.1 m).trans (hto.1 m hm), hvd.2.trans hto.2⟩ _

theorem completes_dwBurstDone {s : State} {w : World} {e : Nat} (hw : s.dwWorld e = some w) (hst : (s.dw e).state = .running)
    (hrel : (s.dw e).released = true) (hsa : (s.dw e).stopAfter = false) (hde : (s.dw e).descending = false) (hlt : (s.dw e).burst < (s.dw e).cnt)
    (hph : s.pw.phase = .none) (hdb : s.qz.debugHalt = false)
    (hr : ∀ i, i < (s.dw e).burst → s.deny w false .read ((s.dw e).src + i) = none ∧ s.deny w false .write ((s.dw e).dst + i) = none)
    (hs : (s.dw e).src + (s.dw e).burst ≤ windowBase) (hd : (s.dw e).dst + (s.dw e).burst ≤ windowBase) (hg : GoodRead s (s.dw e).src (s.dw e).burst) :
    Completes (.dwBurstDone e .ok) s (fun t => t.dw e = { s.dw e with
          src := (s.dw e).src + (s.dw e).burst, dst := (s.dw e).dst + (s.dw e).burst, cnt := (s.dw e).cnt - (s.dw e).burst
          moved := (s.dw e).moved ++ Memory.bytes 0 s.pantry.mem (s.dw e).src (s.dw e).burst
          reqPending := if (s.dw e).reqKind = 1 ∨ (s.dw e).reqKind = 2 then (s.dw e).reqPending - 1 else (s.dw e).reqPending }
        ∧ (∀ i, i < (s.dw e).burst → Memory.byte 0 t.pantry.mem ((s.dw e).dst + i) = Memory.byte 0 s.pantry.mem ((s.dw e).src + i))
        ∧ (∀ a, a < (s.dw e).dst ∨ (s.dw e).dst + (s.dw e).burst ≤ a → Memory.byte 0 t.pantry.mem a = Memory.byte 0 s.pantry.mem a)
        ∧ OtherEngines s t e) := by
  obtain ⟨u, hu, hud, hmem, ho⟩ := State.dwMove_good (d := (s.dw e).useRequest) hw (s.dw_modDw_self e _) hde hr hs hd hg
  have h32 : ¬ 32 ≤ e := fun h => by simp [State.dwWorld, Nat.not_lt.mpr h] at hw
  have hcnt : (u.dw e).cnt ≠ 0 := by
    rw [hud]
    exact Nat.sub_ne_zero_of_lt hlt
  have hstop : (u.dw e).stopAfter = false := by rw [hud]; exact hsa
  have hlen := Memory.length_bytes 0 s.pantry.mem (s.dw e).src (s.dw e).burst
  refine ⟨u, ?_, hud, fun i hi => ?_, fun a ha => ?_, ho⟩
  · have hoff : ¬(32 ≤ e ∨ s.pw.phase ≠ .none ∨ s.qz.debugHalt = true) := by simp [h32, hph, hdb]
    simp only [exec, execDwBurstDone, hst, hrel, hu, h32, hph, hdb, hcnt, hstop, ne_eq, not_true_eq_false, decide_false, decide_true, Bool.or_self,
      Bool.false_eq_true, Bool.and_self, Bool.or_true, ↓reduceIte, reduceCtorEq]
  · rw [hmem]
    refine (Memory.byte_write 0 s.pantry.mem (s.dw e).dst (Memory.bytes 0 s.pantry.mem (s.dw e).src (s.dw e).burst) (hlen.symm ▸ hi)).trans ?_
    simp [Memory.bytes]
  · rw [hmem]
    exact Memory.byte_write_of_out 0 s.pantry.mem (s.dw e).dst (Memory.bytes 0 s.pantry.mem (s.dw e).src (s.dw e).burst) (by rwa [hlen])

/-- Settles O38: each command of an engine by its own lemma. -/
theorem dumbwaiterCommands : Obligations.DumbwaiterCommands := by
  intro s w e hd hw
  refine ⟨fun v h0 h1 hs ha hl => completes_dwStart hd hw h0 h1 hs ha hl, fun v h0 h1 hs hk => completes_dwPause hd hw h0 h1 hs hk,
    fun v h0 h4 hs hdom => completes_dwEnable hd hw h0 h4 hs hdom, fun v h0 hk hs => ⟨fun hp => ?_, fun hp => ?_⟩,
    fun hst hrel hsa hde hlt hph hdb hr hs hdst hg => completes_dwBurstDone hw hst hrel hsa hde hlt hph hdb hr hs hdst hg,
    fun v hs hi hp => completes_dwCqHead hd hw hs hi hp⟩
  · refine completes_engine (exec_dwReq hd hw h0 hk) ?_ (s.modDw_others e _) ((SameBytes.refl s).modDw e _)
    rw [State.dw_modDw_self]
    simp only [Dw.request, hs, if_pos hp]
  · refine completes_engine (exec_dwReq hd hw h0 hk) ?_ (s.modDw_others e _) ((SameBytes.refl s).modDw e _)
    rw [State.dw_modDw_self]
    simp only [Dw.request, hs, if_neg (Nat.not_lt.mpr hp)]

end Sys2Proof.Machine

namespace Sys2Proof.Machine

/-! ### A context whose WAIT is past its deadline (R104) -/

/-- A command leads to a state with a property that can be evaluated. -/
def leadsTo (i : Instr) (s : State) (p : State → Bool) : Bool :=
  match exec i s with
  | .next t => p t
  | _ => false

theorem of_leadsTo {i : Instr} {s t : State} {p : State → Bool} (h : leadsTo i s p = true) (ht : exec i s = .next t) : p t = true := by
  unfold leadsTo at h
  rw [ht] at h
  exact h

/-- The first context runs a handler activation in a code region of Slate; the second is in a WAIT whose deadline passed 1 ns ago and of whose
end nothing has been found yet. -/
def besideWait (x : Ctx) : State :=
  { ctxs := [(0, { x with state := .running, act := some { code := 10, tgt := 0, att := none } }),
             (1, { state := .waiting, wait := .ccw 0 0, started := true, ccw := some { code := 7 }, deadline := 0 })]
    qz := { now := 1 }
    pantry := {}
    img := { ctxMap := 1, cap := 0x10000, regions := [{ base := 0, len := 0x10000, world := .slate }]
             worlds := ⟨{ attrs := [(0, 2)] }, {}⟩ } }

/-- A WAIT with TIMEOUT has changed by more than its latches (R104). -/
theorem not_onlyLatches_of_timeout {s t : State} {c d : Nat} (hd : d ≠ c) (hs : (s.ctx d).timeout = false) (ht : (t.ctx d).timeout = true) :
    ¬ OnlyLatches s t c := by
  intro h
  have h1 : (t.ctx d).timeout = (s.ctx d).timeout := (congrArg Ctx.timeout (h d hd) :)
  rw [hs, ht] at h1
  exact Bool.noConfusion h1

/-- A READY attachment of a port in a mode, beside the WAIT; register 6 holds a port command. -/
def portBesideWait (mode : Nat) (cmd : W64) : State :=
  { besideWait { regs := [(6, cmd)] } with
    img := { (besideWait {}).img with portMap := 1 }
    ports := [(0, { cfg := { mode := mode, pinDir := [(0, 1)] }, enabled := true })]
    atts := [(0, { state := .ready })] }

theorem issues_portBesideWait : Issues (portBesideWait 5 0x12) 0 := by
  unfold Issues; (repeat' apply And.intro) <;> decide

/-- An open packet takes a word, so that TX_SPACE is latched first (R327), and the WAIT is found to have ended (R104). -/
theorem fopen_findsTimeout : leadsTo (.fopen 0 ⟨0, 0, 0⟩) (portBesideWait 5 0x12) (fun t => (t.ctx 1).timeout) = true := by decide

theorem gpioSet_findsTimeout : leadsTo (.gpioSet 0 ⟨0, 0, 6⟩) (portBesideWait 5 0x12) (fun t => (t.ctx 1).timeout) = true := by decide

/-- Refutes O14: FOPEN takes a word of the transmit FIFO, so the level TX_SPACE is latched before; with an event, a WAIT of another context whose
deadline has passed is found to have ended with TIMEOUT (R104), which is more than a latch. -/
theorem not_portInstructionsMoveWords : ¬ Obligations.PortInstructionsMoveWords := by
  rintro ⟨-, htx, -, -⟩
  obtain ⟨hopen, -⟩ := htx (portBesideWait 5 0x12) 0 0 none 0 0 issues_portBesideWait rfl rfl
  obtain ⟨t, ht, -, -, -, -, -, -, -, hl⟩ := hopen (by decide) rfl (by decide)
  exact not_onlyLatches_of_timeout (d := 1) Nat.one_ne_zero rfl (of_leadsTo fopen_findsTimeout ht) hl

/-- Refutes O15: GPIO_SET latches CMD_DONE, and with that event a WAIT of another context whose deadline has passed is found to have ended with
TIMEOUT (R104), which is more than a latch. -/
theorem not_portCommandsAct : ¬ Obligations.PortCommandsAct := by
  rintro ⟨-, hnow⟩
  obtain ⟨-, -, -, hset, -⟩ := hnow (portBesideWait 5 0x12) 0 0 none ⟨0, 0, 6⟩ issues_portBesideWait rfl (by decide)
  obtain ⟨t, ht, -, -, -, -, -, -, -, hl⟩ := hset (by unfold NamesCmd; decide)
  exact not_onlyLatches_of_timeout (d := 1) Nat.one_ne_zero rfl (of_leadsTo gpioSet_findsTimeout ht) hl

/-- An enabled drive beside the WAIT; register 6 holds 1. -/
def driveBesideWait : State :=
  { besideWait { regs := [(6, 1)] } with
    img := { (besideWait {}).img with driveMap := 1 }
    boiler := { domains := [48] }
    drives := [(0, { cfg := { mode := 1 } })] }

theorem safeReq_findsTimeout : leadsTo (.safeReq 0 ⟨0, 0, 6⟩) driveBesideWait (fun t => (t.ctx 1).timeout) = true := by decide

/-- Refutes O17: SAFE_REQ puts the drive into safe output, which is an event; with it a WAIT of another context whose deadline has passed is found
to have ended with TIMEOUT (R104), which is more than a latch. -/
theorem not_driveAndLeaveInstructions : ¬ Obligations.DriveAndLeaveInstructions := by
  rintro ⟨-, hrun, -⟩
  have hi : Issues driveBesideWait 0 := by unfold Issues; (repeat' apply And.intro) <;> decide
  obtain ⟨-, -, hsafe, -⟩ := hrun driveBesideWait 0 0 0 0 6 hi rfl (by unfold NamesDrive; decide) rfl (by decide) (by decide)
  obtain ⟨t, ht, -, -, -, -, hg⟩ := hsafe rfl rfl
  obtain ⟨-, -, -, hl⟩ := hg (by decide)
  exact not_onlyLatches_of_timeout (d := 1) Nat.one_ne_zero rfl (of_leadsTo safeReq_findsTimeout ht) hl

end Sys2Proof.Machine

namespace Sys2Proof.Machine

/-! ### A HEND past its deadline (R103, R163) -/

/-- The first context is in a WRITE whose deadline passed 1 ns ago; its completion queue is no more, so that its status goes to the store. -/
def hendLate : State :=
  { besideWait {} with
    ctxs := [(0, { state := .running, act := some { code := 1, tgt := 0, att := none }, started := true, ccw := some { code := 1, loc := 0x100 }
                   deadline := 0 })] }

/-- Whether the statuses in the store have COND (R106). -/
def State.storedCond (s : State) : List Bool := s.ovf.map (fun e => bitAt (fieldAt e.compl.body 12 2) 4)

/-- Past its deadline, HEND ends the CCW as it stood before the signals of the instruction (R103). -/
theorem hendLate_withoutCond : leadsTo (.hend 0 ⟨7, 0, 0⟩) hendLate (fun t => t.storedCond = [false]) = true := by decide

/-- With the signals of HEND recorded first, the same CCW would end with COND. -/
theorem hendLate_signalled :
    (((((hendLate.fetchExc 0 0).2.modCtx 0 (fun x => { x with
        cond := x.cond || bitAt 7 2, act := some { code := 1, tgt := 0, att := none, portDone := true, channelDone := true } })).ccwFinish 0
          { normal := true })).countWorld .slate 6 1).storedCond = [true] := by decide

/-- Refutes O16: a HEND that signals both events after the deadline of its CCW ends it with DEADLINE_MISS as it stood before the
instruction, so the status has neither the events nor the COND that HEND signals (R103). -/
theorem not_streamsMoveAndEnd : ¬ Obligations.StreamsMoveAndEnd := by
  rintro ⟨-, hend⟩
  have hi : IssuesPlain hendLate 0 := by unfold IssuesPlain Issues; (repeat' apply And.intro) <;> decide
  obtain ⟨-, hboth, -⟩ := hend hendLate 0 { code := 1, tgt := 0, att := none } 7 0 hi rfl (by decide)
  obtain ⟨t, ht, hs⟩ := hboth (by decide) (by decide) (by decide)
  have hold := of_decide_eq_true (of_leadsTo hendLate_withoutCond ht)
  rw [hs] at hold
  exact absurd (hold.symm.trans hendLate_signalled) (by decide)

end Sys2Proof.Machine

namespace Sys2Proof.Machine

/-! ### A lease that FLVER's wait left (R418) -/

/-- A program stands before a CCW at 0x100, given by its first 8 bytes, with a lease that its record still names as the lease of an FLVER. -/
def leaseLeft (ccw : List Byte) : State :=
  { ctxs := [(0, { state := .running, ccwAddr := 0x100, level := 3, leases := [1], flverLease := some 1 })]
    boiler := { leases := [(1, some { owner := .context 0, plant := false, cls := 5, amount := 1, estMs := 65535, granted := 0 })] }
    pantry := { mem := Memory.write 0 [] 0x100 ccw }
    img := { ctxMap := 1, cap := 0x10000, regions := [{ base := 0, len := 0x10000, world := .slate }]
             worlds := ⟨{ attrs := [(0, 2)] }, {}⟩ } }

theorem unencumbered_leaseLeft (ccw : List Byte) : Unencumbered (leaseLeft ccw) 0 := by
  unfold Unencumbered; (repeat' apply And.intro) <;> rfl

theorem leases_of_goesOn {x y : Ctx} {loc : Nat} {cond : Bool} (h : GoesOn x y loc cond) : y.leases = x.leases := by
  obtain ⟨-, -, -, -, -, -, -, -, -, -, -, -, hl, -⟩ := h
  exact hl

/-- A NOP with command chaining. -/
def nopCcw : Ccw := { loc := 0x100, code := 6, flags := 2 }

theorem nop_releases : leadsTo (.nop 0) (leaseLeft [6, 2]) (fun t => (t.ctx 0).leases = []) = true := by decide

/-- Refutes O21: the end of a CCW releases the lease of an FLVER, so a NOP need not keep the leases of its program: here its record names the
lease that it holds as one. -/
theorem not_chainingAndMarkCommands : ¬ Obligations.ChainingAndMarkCommands := by
  rintro ⟨hgo, -⟩
  have hn : NextCcw (leaseLeft [6, 2]) 0 nopCcw := by unfold NextCcw; (repeat' apply And.intro) <;> decide
  have hw : StartsWell (leaseLeft [6, 2]) 0 nopCcw := by unfold StartsWell; (repeat' apply And.intro) <;> decide
  obtain ⟨t, ht, hx, -⟩ := (hgo _ 0 nopCcw hn (unencumbered_leaseLeft _)).1 rfl hw rfl rfl
  have hl := of_decide_eq_true (of_leadsTo nop_releases ht)
  rw [leases_of_goesOn hx] at hl
  exact absurd hl (by decide)

/-- A LEAVE CCW of amount 0 with command chaining. -/
def leaveNoneCcw : Ccw := { loc := 0x100, code := 0xB, flags := 2, count := 1, param := 2 }

theorem leave_releases : leadsTo (.leaveCcw 0) (leaseLeft [0xB, 2, 1, 0, 2]) (fun t => (t.ctx 0).leases = []) = true := by decide

/-- Refutes O22: the end of a CCW releases the lease of an FLVER, so a LEAVE with AMOUNT 0 and no lease of its budget need not keep the leases of
its program: here its record names the lease that it holds as one. -/
theorem not_waitPlantAndLeaveCommands : ¬ Obligations.WaitPlantAndLeaveCommands := by
  rintro ⟨-, hleave⟩
  have hn : NextCcw (leaseLeft [0xB, 2, 1, 0, 2]) 0 leaveNoneCcw := by unfold NextCcw; (repeat' apply And.intro) <;> decide
  have hw : StartsWell (leaseLeft [0xB, 2, 1, 0, 2]) 0 leaveNoneCcw := by unfold StartsWell; (repeat' apply And.intro) <;> decide
  obtain ⟨t, ht, hx, -⟩ := (hleave _ 0 0 leaveNoneCcw hn (unencumbered_leaseLeft _) hw rfl rfl rfl).2.2 rfl rfl rfl
  have hl := of_decide_eq_true (of_leadsTo leave_releases ht)
  rw [leases_of_goesOn hx] at hl
  exact absurd hl (by decide)

/-- The same program in the middle of its LEAVE, which Boiler has granted as lease 2. -/
def leaseLeftGranted : State :=
  { leaseLeft [] with
    ctxs := [(0, { state := .running, ccwAddr := 0x100, leases := [1, 2], flverLease := some 1, started := true, ccw := some leaveNoneCcw
                   stream := { members := [leaveNoneCcw] }, answer := .granted 2 })] }

theorem leaveGranted_releases : leadsTo (.leaveCcw 0) leaseLeftGranted (fun t => (t.ctx 0).leases = [2]) = true := by decide

/-- Refutes O60: the end of a CCW releases the lease of an FLVER, so a LEAVE that has been granted need not keep the other leases of its program:
here its record names the lease that it held before as one. -/
theorem not_schedulingCommandsComplete : ¬ Obligations.SchedulingCommandsComplete := by
  rintro ⟨hleave, -⟩
  obtain ⟨-, -, hgranted⟩ := hleave leaseLeftGranted 0 leaveNoneCcw rfl
  have hm : Midway leaseLeftGranted 0 leaveNoneCcw := by
    unfold Midway
    exact ⟨rfl, rfl, rfl, by decide, rfl, rfl, rfl, rfl, rfl, rfl, rfl, rfl, rfl, fun z hz => (Option.some_ne_none z hz.symm).elim⟩
  have hu : Unencumbered leaseLeftGranted 0 := by unfold Unencumbered; (repeat' apply And.intro) <;> rfl
  obtain ⟨t, ht, hx, -⟩ := hgranted 2 rfl rfl rfl rfl hm hu rfl rfl rfl rfl (by decide)
  have hl := of_decide_eq_true (of_leadsTo leaveGranted_releases ht)
  rw [leases_of_goesOn hx] at hl
  exact absurd hl (by decide)

end Sys2Proof.Machine

namespace Sys2Proof.Machine

/-! ### A record that is listed twice -/

/-- Eight contexts run on Hearth 0 and context 9 waits for a slot; the records are listed out of the canonical form, under one number: the one that
counts is between a branch and its delay slot, those after it are not. -/
def listedTwice : State :=
  { ctxs := (8, { state := .running, deadline := 5, branch := some (0, 0) })
      :: ((List.range 7).map (fun i => (8, ({ state := .running, deadline := 6, slot := i + 1 } : Ctx)))
        ++ [(9, { state := .ready, deadline := 0 })]) }

theorem preemption_waits : leadsTo (.preemption 0) listedTwice (fun t => (t.ctx 8).state = .running) = true := by decide

/-- Refutes O25: where a table lists a context twice, the record found as the last running one need not be the record that counts, and so preemption
need not take its slot: here that context is between a branch and its delay slot (R186). -/
theorem not_contextsRunAndWake : ¬ Obligations.ContextsRunAndWake := by
  rintro ⟨hsched, -⟩
  obtain ⟨-, hpre, -⟩ := hsched listedTwice
  obtain ⟨t, ht, hready, -⟩ := hpre 0 9 8 { state := .ready, deadline := 0 } { state := .running, deadline := 6, slot := 1 }
    (by decide) (by decide) (by decide) (by decide) (by decide)
  have hrun := of_decide_eq_true (of_leadsTo preemption_waits ht)
  rw [hready] at hrun
  exact absurd hrun (by decide)

end Sys2Proof.Machine

namespace Sys2Proof.Machine

/-! ### A queue with an open group (R260, R263) -/

/-- Slate's function runs with queue 0 of each kind, the command `d` at the front of queue 0. Queue 1 has an open group of which one member is
bound, and context 0 is running. -/
def groupOpenAt (d : List Byte) : State :=
  { attic := { state := 6 }
    fns := ⟨{ fstate := .running }, {}⟩
    qm := ⟨{ sqs := [(0, { state := .enabled, depth := 64, entries := [{ first := {}, ringSlots := 4, data := d }] }),
                     (1, { state := .enabled, depth := 64, accepted := 0x80, groupOpen := true, groups := [(0, { bound := 1 })] })]
             cqs := [(0, { state := .active, depth := 64 })] }, {}⟩
    ctxs := [(0, { state := .running, started := true, parked := true })]
    img := { ctxMap := 1, worlds := ⟨{ sqShare := 2 }, {}⟩ } }

/-- INVALIDATE of queue 1. -/
def invalidateOne : List Byte := 0x17 :: (List.replicate 19 0 ++ 1 :: List.replicate 43 0)

theorem adminFront_groupOpenAt (d : List Byte) (op : Nat) (h : fieldAt d 0 1 = op) :
    AdminFront (groupOpenAt d) .slate op { first := {}, ringSlots := 4, data := d } :=
  ⟨if_pos h, rfl, rfl, rfl, rfl, (by decide : bitAt 0 8 = false)⟩

theorem invalidate_keepsRun : leadsTo (.invalidate .slate) (groupOpenAt invalidateOne) (fun t => (t.sq .slate 1).groupRun = 1) = true := by decide

/-- Refutes O28: INVALIDATE of a queue whose group is open leaves the count of that group at its bound members, which stay in it (R260, R263). -/
theorem not_queueCommands : ¬ Obligations.QueueCommands := by
  intro h
  obtain ⟨-, -, -, -, -, -, -, hinv⟩ := h (groupOpenAt invalidateOne) .slate { first := {}, ringSlots := 4, data := invalidateOne } 1
  have hn : NamesQueue (groupOpenAt invalidateOne) .slate { first := {}, ringSlots := 4, data := invalidateOne } 1 [(8, 12), (22, 42)] := by
    unfold NamesQueue; (repeat' apply And.intro) <;> decide
  obtain ⟨t, ht, -, -, hq⟩ := hinv (adminFront_groupOpenAt _ _ (by decide)) hn (by decide)
  have hrun := of_decide_eq_true (of_leadsTo invalidate_keepsRun ht)
  have hzero : (t.sq .slate 1).groupRun = 0 := (congrArg Sq.groupRun hq :)
  rw [hzero] at hrun
  exact Nat.zero_ne_one hrun

theorem doorbellInv_keepsRun : leadsTo (.doorbellInv .slate 1 0x20000) (groupOpenAt []) (fun t => (t.sq .slate 1).groupRun = 1) = true := by
  decide

/-- Refutes O29: a doorbell with INV leaves the count of an open group at its bound members, which stay in it (R260, R263). -/
theorem not_doorbellsAndFetching : ¬ Obligations.DoorbellsAndFetching := by
  intro h
  obtain ⟨-, hinv, -⟩ := h (groupOpenAt []) .slate 1
  have hok : TailOk (groupOpenAt []) .slate 1 0x20000 := by unfold TailOk; (repeat' apply And.intro) <;> decide
  obtain ⟨t, ht, -, hq⟩ := hinv 0x20000 hok (by decide) (by decide) (by decide)
  have hrun := of_decide_eq_true (of_leadsTo doorbellInv_keepsRun ht)
  have hzero : (t.sq .slate 1).groupRun = 0 := (congrArg Sq.groupRun hq :)
  rw [hzero] at hrun
  exact Nat.zero_ne_one hrun

/-- SUSPEND of the program of context 0. -/
def suspendZero : List Byte := 0x20 :: List.replicate 63 0

theorem suspend_parked : leadsTo (.suspend .slate) (groupOpenAt suspendZero) (fun t => (t.ctx 0).suspendDue = false) = true := by decide

/-- Refutes O30: SUSPEND leaves a program alone that is to be SUSPENDED once its status has been placed (R213, R268), and the record of a running
context may say so. -/
theorem not_contextAndLaneCommands : ¬ Obligations.ContextAndLaneCommands := by
  intro h
  obtain ⟨hsus, -⟩ := h (groupOpenAt suspendZero) .slate { first := {}, ringSlots := 4, data := suspendZero } 0
  have hn : NamesCtx (groupOpenAt suspendZero) .slate { first := {}, ringSlots := 4, data := suspendZero } 0 [(14, 50)] := by
    unfold NamesCtx; (repeat' apply And.intro) <;> decide
  obtain ⟨t, ht, -, hx, -⟩ := hsus (adminFront_groupOpenAt _ _ (by decide)) hn ⟨rfl, rfl⟩ rfl rfl rfl rfl (by decide)
  have hno := of_decide_eq_true (of_leadsTo suspend_parked ht)
  have hdue : (t.ctx 0).suspendDue = true := (congrArg Ctx.suspendDue hx :)
  rw [hdue] at hno
  exact Bool.noConfusion hno

/-! ### A start beside a status of the other world that waits (R268, R270) -/

/-- Slate's driver has set up its function; a status of Granite waits for the store although its completion queue has room. -/
def startBesideStatus : State :=
  { attic := { state := 6 }
    fns := ⟨{ aqDepth := 64 + 64 * 65536 }, {}⟩
    qm := ⟨{}, { cqs := [(0, { state := .active, depth := 64 })] }⟩
    ovfWait := [{ world := .granite, cq := 0, compl := { body := [] } }]
    hostMem := [(0x1B, 0)] }

/-- The status has been placed, and a byte of it stands in host memory. -/
theorem start_places : leadsTo (.functionStart .slate true true) startBesideStatus
    (fun t => hostByteOf t.hostMem 0x1B ≠ hostByteOf startBesideStatus.hostMem 0x1B) = true := by decide

/-- Refutes O31: a start drains the overflow store, and what waits there goes to its queue as soon as that has room; so where a status of the other
world waits although its queue has room, a start writes host memory. -/
theorem not_functionsStartAndStop : ¬ Obligations.FunctionsStartAndStop := by
  intro h
  obtain ⟨hstart, -⟩ := h startBesideStatus .slate rfl
  obtain ⟨hok, -⟩ := hstart true true rfl rfl
  obtain ⟨t, ht, -, -, -, -, -, -, -, -, -, -, -, -, -, -, -, -, -, -, -, hhost⟩ := hok (by decide) (by decide) (by decide)
  exact absurd (hhost 0x1B) (of_decide_eq_true (of_leadsTo start_places ht))

end Sys2Proof.Machine

namespace Sys2Proof.Machine

/-! ### Missed deadlines and late bus errors (R103, R187, R188) -/

/-- A context that runs, whose deadline is past, ends its CCW with DEADLINE_MISS (R103). -/
theorem execDeadlineMiss_past {s : State} {c : Nat} (hrun : (s.ctx c).state = .running) (hfz : s.frozen (s.home c) = false)
    (hdue : (s.ctx c).due = none) (hlate : s.latePast c = true) :
    exec (.deadlineMiss c) s = .next ((s.countBoth (s.home c) (s.ctx c).lane 4 3).ccwStop c 8 0) := by
  show execDeadlineMiss c s = _
  unfold execDeadlineMiss
  simp [hrun, hfz, hdue, hlate, State.countMiss]

/-- Without a missed deadline nothing changes. -/
theorem execDeadlineMiss_not_past {s : State} {c : Nat} (hlate : s.latePast c = false) : exec (.deadlineMiss c) s = .next s := by
  show execDeadlineMiss c s = _
  unfold execDeadlineMiss
  simp [hlate]

theorem deadlineMissEnds : DeadlineMissEnds := by
  intro s c
  refine ⟨fun hrun hstarted hfz hsoft hcode hdue hlt => ?_, fun h => ?_⟩
  · refine ⟨_, execDeadlineMiss_past hrun hfz hdue ?_, rfl⟩
    simp [State.latePast, State.deadlinePast, hstarted, hsoft, hcode, hlt]
  · refine ⟨_, execDeadlineMiss_not_past ?_, rfl⟩
    rcases h with hle | hsoft
    · have hnp : s.deadlinePast c = false := by simpa [State.deadlinePast] using hle
      simp [State.latePast, hnp]
    · simp [State.latePast, hsoft]

/-- The first late error of a context's stores. -/
theorem Ctx.asyncErr_withLate_of_none {x : Ctx} (b : BufStore) (reason : Nat) (h : x.asyncErr = none) :
    (x.withLate b reason).asyncErr = some { reason := reason, addr := b.addr } := by simp only [Ctx.withLate, h]

/-- A late error of the oldest store, the first of its program: what the command leaves (R187). -/
theorem lateBusError_first {s : State} {c reason : Nat} {b : BufStore} {rest : List BufStore} (hst : (s.ctx c).stores = b :: rest)
    (hr : reason = 2 ∨ reason = 3) (hold : b.old = false) (hsus : (s.ctx c).state ≠ .suspended) (hpark : (s.ctx c).parked = false)
    (herr : (s.ctx c).asyncErr = none) :
    Completes (.lateBusError c reason) s (fun t => (t.ctx c).stores = rest ∧ (t.ctx c).asyncErr = some { reason := reason, addr := b.addr }
      ∧ (t.hearths.cnt.get b.world).async = satInc32 (s.hearths.cnt.get b.world).async
      ∧ t.fc = (s.report (s.hearthMsg c 0x06 b.addr b.world) (some c)).fc ∧ (∀ d, d ≠ c → t.ctx d = s.ctx d) ∧ SameBytes s t) := by
  have hf : s.FailsLate b reason := hr.imp id Or.inl
  refine ⟨_, execLateBusError_eq hst hsus hpark hf, ?_⟩
  rw [State.lateError_eq _ c b reason hold, State.withStores_hearthMsg]
  refine ⟨?stores, ?err, ?count, ?record, ?others, ?bytes⟩
  case stores =>
    rw [State.ctx_modCtx, if_pos rfl]
    simp [Ctx.withLate, State.withStores_ctx_self]
  case err =>
    rw [State.ctx_modCtx, if_pos rfl]
    exact Ctx.asyncErr_withLate_of_none b reason (by simp [State.withStores_ctx_self, herr])
  case count => simp [State.withStores]
  case record => simp [State.withStores, State.report_modCtx]
  case others =>
    intro d hd
    rw [State.ctx_modCtx, if_neg hd]
    simp [State.withStores_ctx_other s rest hd]
  case bytes => simp [SameBytes, State.withStores]

/-- The supervisor is entered alike when no late error is pending any more. -/
theorem EntersSuper.asyncTaken {s : State} {c code a : Nat} (h : EntersSuper s c code a) :
    EntersSuper (s.modCtx c (fun x => { x with asyncErr := none })) c code a := by
  obtain ⟨hvis, hlive, husr, haddr⟩ := h
  have hr := State.sameReads_modCtx s c (fun x => { x with asyncErr := none })
  rw [EntersSuper, State.ctx_modCtx_self, hr.vectorWord, hr.vectorAddr]
  exact ⟨hvis, hlive, husr, haddr⟩

/-- An exception that no counter takes enters the supervisor, at the boundary of an instruction. -/
theorem EntersSuper.enters {s : State} {c a : Nat} {e : Exc} {pc : W64} (hen : EntersSuper s c e.code a) (hn : ∀ t : State, t.excNote c e = t) :
    (s.takeExc c e pc false).ctx c = enteredSuper (s.ctx c) e pc (BitVec.ofNat 64 a) false
      ∧ Beside s (s.takeExc c e pc false) c ∧ SameBytes s (s.takeExc c e pc false) := by
  have hread := hen.read
  have hflush := hread.ctx c
  rw [State.ctx_modCtx_self] at hflush
  rw [State.takeExc_super hen (hn _) hread.sameReads hflush]
  refine ⟨State.ctx_setCtx_self .., ?_, ?_⟩
  · exact ((Beside.modCtx ..).trans (hread.beside c)).trans (Beside.setCtx ..)
  · exact ((SameBytes.modCtx ..).trans hread.sameBytes).trans (SameBytes.setCtx ..)

theorem AsyncErr.excNote_exc (e : AsyncErr) (s : State) (c : Nat) : s.excNote c e.exc = s := by
  unfold State.excNote
  simp [AsyncErr.exc]

/-- A pending late error enters the supervisor with its reason and its address (R188). -/
theorem State.asyncTake_enters {s : State} {c a : Nat} {e : AsyncErr} (he : (s.ctx c).asyncErr = some e) (hen : EntersSuper s c 0xE a) :
    (s.asyncTake c).ctx c = enteredSuper { s.ctx c with asyncErr := none } e.exc (s.ctx c).pc (BitVec.ofNat 64 a) false
      ∧ Beside s (s.asyncTake c) c ∧ SameBytes s (s.asyncTake c) := by
  have htake : s.asyncTake c = (s.modCtx c (fun x => { x with asyncErr := none })).takeExc c e.exc (s.ctx c).pc false := by
    unfold State.asyncTake
    rw [he]
  have hbefore := Beside.modCtx s c (fun x => { x with asyncErr := none })
  have hbytes := SameBytes.modCtx s c (fun x => { x with asyncErr := none })
  have hctx := State.ctx_modCtx_self s c (fun x => { x with asyncErr := none })
  have hen' := hen.asyncTaken
  rw [htake]
  generalize s.modCtx c (fun x => { x with asyncErr := none }) = u at hbefore hbytes hctx hen'
  obtain ⟨hc, hb, hs⟩ := EntersSuper.enters (e := e.exc) (pc := (s.ctx c).pc) hen' (fun t => e.excNote_exc t c)
  rw [hctx] at hc
  exact ⟨hc, hbefore.trans hb, hbytes.trans hs⟩

theorem lateBusErrors : LateBusErrors := by
  intro s c
  refine ⟨fun b rest reason => lateBusError_first, fun e a he hdue hiss hen => ⟨_, ?_, State.asyncTake_enters he hen⟩⟩
  show execAsyncBusError c s = _
  unfold execAsyncBusError
  rw [hdue, hiss]
  rfl

/-- Settles O24: a deadline that is past stops the CCW, and the oldest store's late error is recorded and later delivered. -/
theorem programsEndOnDeadlinesAndLateErrors : Obligations.ProgramsEndOnDeadlinesAndLateErrors := ⟨deadlineMissEnds, lateBusErrors⟩

end Sys2Proof.Machine

namespace Sys2Proof.Machine

/-! ### The start of a CCW (R83, R86, R103) -/

/-- A read within one block of rights. -/
theorem State.readBytes_inBlock {s : State} {w : World} {sup : Bool} {a n : Nat} (hn : 0 < n) (hblock : a % 65536 + n ≤ 65536)
    (hin : a + n ≤ windowBase) (hd : s.deny w sup .read a = none) (hg : GoodRead s a n) :
    ∃ u, s.readBytes w sup a n = (Memory.bytes 0 s.pantry.mem a n, .done, u) ∧ s.ReadFrom u := by
  obtain ⟨u, hu, hr⟩ := State.readBlock_good (w := w) (show a < windowBase by omega) hg
  have hb : Nat.min n (blockLeft a) = n := Nat.min_eq_left (by unfold blockLeft; omega)
  refine ⟨u, ?_, hr⟩
  unfold State.readBytes State.readSpan
  rw [if_neg hn.ne', hd]
  dsimp only
  rw [hb, hu]
  dsimp only
  rw [Nat.sub_self, State.readSpan.eq_def]
  split <;> simp

/-- A program's read of good Pantry within one block of rights. -/
theorem State.progRead_inBlock {s : State} {c a n : Nat} (hn : 0 < n) (hblock : a % 65536 + n ≤ 65536)
    (hin : a + n ≤ windowBase) (hd : s.deny (s.home c) false .read a = none) (hg : GoodRead s a n) :
    ∃ u, s.progRead c a n = (Memory.bytes 0 s.pantry.mem a n, .done, u) ∧ s.ReadFrom u := by
  obtain ⟨u, hu, hr⟩ := State.readBytes_inBlock hn hblock hin hd hg
  have hk : s.progReach c a n = n := by
    unfold State.progReach
    split
    · exact Nat.min_eq_left (by omega)
    · rfl
  refine ⟨u, ?_, hr⟩
  unfold State.progRead
  dsimp only
  rw [hk, if_neg (show ¬ windowBase < a + n by omega), hu]
  simp [State.noteDenied]

/-- The next CCW is fetched as it stands in Pantry. -/
theorem NextCcw.fetch {s : State} {c : Nat} {y : Ccw} (h : NextCcw s c y) : ∃ u, s.nextCcw c = (.ok y, u) ∧ s.ReadFrom u := by
  obtain ⟨_, _, _, _, hmem, hprobe, halign, hin, hd, hg, rfl⟩ := h
  obtain ⟨u, hu, hr⟩ := State.progRead_inBlock (n := 16) (by omega) (by omega) hin hd hg
  refine ⟨u, ?_, hr⟩
  unfold State.nextCcw State.ccwFetch
  simp [hmem, hprobe, halign, hu]

/-- The context whose CCW has begun, its deadline the program's. -/
def Ctx.begunAs (y : Ccw) (x : Ctx) : Ctx :=
  { x with
    ccw := some y, started := true, susPass := false, keepDl := false, ticRun := 0, lastCond := false, cond := false
    il := false, long := false, late := false, timeout := false, interimPosted := false, deadline := x.pdeadline
    latch := if cmdTargets y.code && y.code ≠ 7 then Tbl.put 0 x.latch y.tgt 0 else x.latch }

/-- A CCW that starts well begins: what its fetch reads, and the marks of its start. -/
theorem NextCcw.begins {s : State} {c : Nat} {y : Ccw} (h : NextCcw s c y) (hw : StartsWell s c y) (hdln : y.dln = false)
    (hport : s.portHandlerAbsent c y = false) :
    ∃ u, s.ReadFrom u ∧ s.ccwBegin c y.code = .go y y.param (u.modCtx c (Ctx.begunAs y)) := by
  obtain ⟨u, hu, hr⟩ := h.fetch
  obtain ⟨hrun, hstarted, hact, hiss, hmem, _⟩ := h
  obtain ⟨hcheck, hexec, hsus, hkeep, hnow⟩ := hw
  have hsusp : (y.sus && !(s.ctx c).susPass) = false := by rcases hsus with h | h <;> simp [h]
  have hlate : decide ((s.ctx c).pdeadline < s.now) = false := decide_eq_false (Nat.not_lt.mpr hnow)
  refine ⟨u, hr, ?_⟩
  unfold State.ccwBegin
  dsimp only
  rw [hu]
  simp only [hrun, hstarted, hact, hiss, hmem, hcheck, hexec, hsusp, hport, hkeep, hdln, ne_eq, not_true_eq_false, decide_false,
    Option.isSome_none, Bool.not_true, Bool.or_false, Bool.false_eq_true, if_false, Bool.and_false, Bool.false_and, false_and,
    hlate]
  have hk : (u.ctx c).keepDl = false := by rw [hr.ctx]; exact hkeep
  have hp : (u.ctx c).pdeadline = (s.ctx c).pdeadline := by rw [hr.ctx]
  simp only [State.modCtx, Ctx.begunAs, hk, hp, Bool.false_and, ne_eq]

/-! ### The start of a handler activation (R160, R205) -/

/-- The marks that an activation sets on the channels of its attachment. -/
def State.ownMarks (s : State) (a : Nat) (rxOwn txOwn : Bool) : State :=
  let u := if rxOwn then s.modRx a RxChan.setMark else s
  if txOwn then u.txMark a else u

theorem State.att_modAtt_ne (s : State) {a b : Nat} (f : Att → Att) (h : b ≠ a) : (s.modAtt a f).att b = s.att b :=
  (Tbl.get_upd ({} : Att) s.atts a f b).trans (if_neg h)

/-- The state with other attachments. -/
def State.withAtts (s : State) (l : Tbl Att) : State := { s with atts := l }

/-- The marks change the attachments alone. -/
theorem State.ownMarks_eq (s : State) (a : Nat) (rxOwn txOwn : Bool) : ∃ l, s.ownMarks a rxOwn txOwn = s.withAtts l := by
  have hrx : ∃ l, (if rxOwn then s.modRx a RxChan.setMark else s) = s.withAtts l := by
    cases rxOwn
    · exact ⟨s.atts, rfl⟩
    · exact ⟨_, rfl⟩
  obtain ⟨l, hl⟩ := hrx
  unfold State.ownMarks
  dsimp only
  rw [hl]
  cases txOwn
  · exact ⟨l, rfl⟩
  · exact ⟨_, rfl⟩

theorem State.ownMarks_att_ne (s : State) {a b : Nat} (rxOwn txOwn : Bool) (h : b ≠ a) : (s.ownMarks a rxOwn txOwn).att b = s.att b := by
  have hrx : (if rxOwn then s.modRx a RxChan.setMark else s).att b = s.att b := by
    cases rxOwn
    · rfl
    · exact State.att_modAtt_ne s _ h
  unfold State.ownMarks
  cases txOwn
  · exact hrx
  · exact (State.att_modAtt_ne _ _ h).trans hrx

/-- The registers at the entry of a handler: g1 to g4, the others free (R160). -/
def entryRegs (free : Nat) (command target block deadline : W64) : Tbl W64 :=
  Tbl.put 0 (Tbl.put 0 (Tbl.put 0 (Tbl.put 0 (freeRegs (free + 1)) 1 command) 2 target) 3 block) 4 deadline

theorem entryRegs_get (free : Nat) (command target block deadline : W64) :
    Tbl.get 0 (entryRegs free command target block deadline) 1 = command
      ∧ Tbl.get 0 (entryRegs free command target block deadline) 2 = target
      ∧ Tbl.get 0 (entryRegs free command target block deadline) 3 = block
      ∧ Tbl.get 0 (entryRegs free command target block deadline) 4 = deadline := by
  unfold entryRegs
  simp only [Tbl.get_put]
  exact ⟨rfl, rfl, rfl, rfl⟩

/-- The bytes that an activation has left as it begins. -/
def Ctx.bytesLeft (x : Ctx) (y : Ccw) : Nat :=
  if y.nodata then y.count else match x.stream.members with
    | m :: _ => m.bytes - (if x.stream.param.isSome && x.stream.base ≤ 4 then 0 else x.stream.base)
    | [] => 0

/-- A context whose activation begins: registers, control at the entry in user level of its world, everything else of an activation clear. -/
def Ctx.entersHandler (w : World) (entry : Nat) (regs : Tbl W64) (z : Activation) (rx : Option Nat) (x : Ctx) : Ctx :=
  { x with
    regs := regs, pc := BitVec.ofNat 64 entry, st := BitVec.ofNat 64 (8 * w.bit), lc := 0, ls := 0, le := 0, rc := 0
    user := {}, super := {}, gate := {}, branch := none, delayed := [], rep := false, shadow := false, attLatch := none
    due := none, answer := .none, act := some z, rxCommit := rx }

/-- What an activation on an attachment leaves: the marks of its channels, the context entered, and the free values taken. -/
theorem State.activate_eq (s : State) (c : Nat) (y : Ccw) (param entry a : Nat) :
    ∃ own ownTx rx, s.activate c y param entry (some a) =
      { (s.ownMarks a own ownTx).modCtx c (Ctx.entersHandler (s.home c) entry
          (entryRegs s.free
            (BitVec.ofNat 64 (y.code + y.tgt * 16 + y.flags * 2 ^ 8 + (s.ctx c).bytesLeft y * 2 ^ 16 + param % 2 ^ 32 * 2 ^ 32))
            (BitVec.ofNat 64 ((s.ctx c).target y.tgt % 0x4000 + bits ((s.ctx c).target y.tgt) 16 8 * 2 ^ 16 + y.tgt * 2 ^ 24))
            (s.stateBlock (s.home c) (some a) s.free) (BitVec.ofNat 64 (s.ctx c).deadline))
          { code := y.code, tgt := y.tgt, att := some a, rxMark := own, txMark := ownTx } rx) with free := s.free + 28 } := by
  refine ⟨cmdReads y.code && (s.att a).hasChannels && (s.att a).rx.mark.isNone,
    cmdWrites y.code && (s.att a).hasChannels && (s.att a).tx.mark.isNone,
    if cmdReads y.code then ((s.ownMarks a (cmdReads y.code && (s.att a).hasChannels && (s.att a).rx.mark.isNone)
      (cmdWrites y.code && (s.att a).hasChannels && (s.att a).tx.mark.isNone)).att a).rx.markIndex else none, ?_⟩
  unfold State.activate
  extract_lets w x code t left rxOwn txOwn s1 g1 g2 regs0 s2
  exact congrArg (fun t : State => { t with free := s.free + 28 }) (rfl : s2 = s1.modCtx c _)

/-- The checks of a handler's start pass: the CCW is the stream's first member, the attachment's profile is noted, and the activation begins. -/
theorem State.handlerStart_eq {s : State} {c a entry param : Nat} {y : Ccw} (hmem : (s.ctx c).stream.members = [])
    (hkind : (s.ctx c).kind y.tgt = 0) (ha : (s.ctx c).target y.tgt % 4096 = a) (hthere : s.attPresent c a = true)
    (hsafe : (s.port (a / 16)).safe = false) (hdln : y.dln = false)
    (hh : (s.wcfg (s.home c)).handlerFor y.code (s.att a).profile param = some entry) :
    s.handlerStart c y param = ((s.modStream c (fun _ => { members := [y] })).modCtx c
      (fun x => { x with profiles := Tbl.put 0 x.profiles a ((s.att a).profile + 1) })).activate c y param entry (some a) := by
  have hsome : (if bits ((s.ctx c).target y.tgt) 12 2 = 0 then some (bits ((s.ctx c).target y.tgt) 0 12) else none) = some a := by
    refine (if_pos hkind).trans ?_
    rw [← ha]
    simp [bits]
  have hparam : ((s.modStream c (fun _ => { members := [y] })).modCtx c
      (fun x => { x with profiles := Tbl.put 0 x.profiles a ((s.att a).profile + 1) })).paramOf c y param = (.ok param, (s.modStream c
      (fun _ => { members := [y] })).modCtx c (fun x => { x with profiles := Tbl.put 0 x.profiles a ((s.att a).profile + 1) })) := by
    unfold State.paramOf
    rw [State.ctx_modCtx_self, State.modStream, State.ctx_modCtx_self]
    simp [hdln]
  unfold State.handlerStart
  dsimp only
  rw [hsome]
  simp only [hmem, ne_eq, not_true_eq_false, if_false, hthere, hsafe, Bool.not_true, Bool.false_and, Bool.false_eq_true, hparam, hh]

theorem State.modCtx_att (s : State) (c : Nat) (f : Ctx → Ctx) (b : Nat) : (s.modCtx c f).att b = s.att b := rfl

theorem State.home_congr {s t : State} (h : t.img = s.img) (c : Nat) : t.home c = s.home c := by
  unfold State.home State.ctxWorld
  rw [h]

/-- What the start of a handler leaves of other contexts, of other attachments and of memory, and the context entered. -/
theorem State.handlerStart_spec {s : State} {c a entry param : Nat} {y : Ccw} (hmem : (s.ctx c).stream.members = [])
    (hkind : (s.ctx c).kind y.tgt = 0) (ha : (s.ctx c).target y.tgt % 4096 = a) (hthere : s.attPresent c a = true)
    (hsafe : (s.port (a / 16)).safe = false) (hdln : y.dln = false)
    (hh : (s.wcfg (s.home c)).handlerFor y.code (s.att a).profile param = some entry) :
    ∃ own ownTx rx, (s.handlerStart c y param).ctx c = Ctx.entersHandler (s.home c) entry
        (entryRegs s.free
          (BitVec.ofNat 64 (y.code + y.tgt * 16 + y.flags * 2 ^ 8 + (if y.nodata then y.count else y.bytes) * 2 ^ 16 + param % 2 ^ 32 * 2 ^ 32))
          (BitVec.ofNat 64 ((s.ctx c).target y.tgt % 0x4000 + bits ((s.ctx c).target y.tgt) 16 8 * 2 ^ 16 + y.tgt * 2 ^ 24))
          (BitVec.ofNat 64 ((s.img.profiles.get (s.home c)).base + (s.img.profiles.get (s.home c)).stride * a))
          (BitVec.ofNat 64 (s.ctx c).deadline))
        { code := y.code, tgt := y.tgt, att := some a, rxMark := own, txMark := ownTx } rx
        { s.ctx c with stream := { members := [y] }, profiles := Tbl.put 0 (s.ctx c).profiles a ((s.att a).profile + 1) }
      ∧ (∀ d, d ≠ c → (s.handlerStart c y param).ctx d = s.ctx d) ∧ (∀ b, b ≠ a → (s.handlerStart c y param).att b = s.att b)
      ∧ SameBytes s (s.handlerStart c y param) := by
  rw [State.handlerStart_eq hmem hkind ha hthere hsafe hdln hh, State.modStream]
  have hctx : ((s.modCtx c (fun x => { x with stream := { members := [y] } })).modCtx c
      (fun x => { x with profiles := Tbl.put 0 x.profiles a ((s.att a).profile + 1) })).ctx c =
      { s.ctx c with stream := { members := [y] }, profiles := Tbl.put 0 (s.ctx c).profiles a ((s.att a).profile + 1) } := by
    rw [State.ctx_modCtx_self, State.ctx_modCtx_self]
  have hother : ∀ d, d ≠ c → ((s.modCtx c (fun x => { x with stream := { members := [y] } })).modCtx c
      (fun x => { x with profiles := Tbl.put 0 x.profiles a ((s.att a).profile + 1) })).ctx d = s.ctx d := fun d hd => by
    rw [State.ctx_modCtx_ne _ _ hd, State.ctx_modCtx_ne _ _ hd]
  generalize hv : (s.modCtx c (fun x => { x with stream := { members := [y] } })).modCtx c
      (fun x => { x with profiles := Tbl.put 0 x.profiles a ((s.att a).profile + 1) }) = v at hctx hother
  have hatt : ∀ b, v.att b = s.att b := fun b => by rw [← hv, State.modCtx_att, State.modCtx_att]
  have himg : v.img = s.img := by rw [← hv, State.modCtx_img, State.modCtx_img]
  have hhome : v.home c = s.home c := State.home_congr himg c
  have hfree : v.free = s.free := by rw [← hv, State.modCtx_free, State.modCtx_free]
  have hbytes : SameBytes s v := by rw [← hv]; exact (SameBytes.modCtx ..).trans (SameBytes.modCtx ..)
  obtain ⟨own, ownTx, rx, ht⟩ := v.activate_eq c y param entry a
  obtain ⟨l, hl⟩ := v.ownMarks_eq a own ownTx
  have hmarks := fun b hb => v.ownMarks_att_ne (a := a) (b := b) own ownTx hb
  rw [ht]
  rw [hl] at hmarks ⊢
  refine ⟨own, ownTx, rx, ?_, ?_, ?_, ?_⟩
  · refine (State.ctx_modCtx_self (v.withAtts l) c _).trans ?_
    rw [show (v.withAtts l).ctx c = v.ctx c from rfl, hctx, hhome, hfree]
    unfold State.stateBlock
    rw [himg]
    rfl
  · intro d hd
    exact ((State.ctx_modCtx_ne (v.withAtts l) _ hd).trans rfl).trans (hother d hd)
  · intro b hb
    exact (hmarks b hb).trans (hatt b)
  · exact hbytes

/-! ### Handler commands (R87, R160, R205, R314) -/

/-- Presence of an attachment asks for the attachments and what the context has seen removed. -/
theorem State.attPresent_congr {s t : State} {c a : Nat} (hatts : t.atts = s.atts) (hgone : (t.ctx c).gone = (s.ctx c).gone) :
    t.attPresent c a = s.attPresent c a := by
  unfold State.attPresent State.attThere State.att
  rw [hatts, hgone]

/-- A good read leaves the image, the attachments, the ports and the free values. -/
theorem State.ReadFrom.fixed {s u : State} (h : s.ReadFrom u) : u.img = s.img ∧ u.atts = s.atts ∧ u.ports = s.ports ∧ u.free = s.free := by
  obtain ⟨⟨st, k, e, rfl⟩, _⟩ := h
  exact ⟨rfl, rfl, rfl, rfl⟩

/-- The handler of a command on an attachment is found. -/
theorem State.portHandlerAbsent_of_some {s : State} {c a entry : Nat} {y : Ccw} (hkind : (s.ctx c).kind y.tgt = 0)
    (ha : (s.ctx c).target y.tgt % 4096 = a) (hthere : s.attPresent c a = true) (hhub : (s.att a).hub = false)
    (hh : (s.wcfg (s.home c)).handlerFor y.code (s.att a).profile y.param = some entry) : s.portHandlerAbsent c y = false := by
  by_cases hcode : 1 ≤ y.code ∧ y.code ≤ 4
  · have htgt : cmdTargets y.code = true := by
      obtain ⟨h1, h4⟩ := hcode
      generalize y.code = k at h1 h4
      interval_cases k <;> rfl
    have hparam : (s.wcfg (s.home c)).handlerFor y.code (s.att a).profile 0 = some entry := by
      rw [← hh]
      unfold WorldCfg.handlerFor
      simp only [show ¬ y.code = 9 by omega, if_false]
    simp [State.portHandlerAbsent, State.targetAbsent, Ctx.addressed, htgt, hkind, ha, hthere, hhub, hparam]
  · unfold State.portHandlerAbsent
    rw [← Bool.decide_and, decide_eq_false hcode]
    rfl

/-- A command with a handler begins and starts its handler: the context entered, and what is left as it was. -/
theorem NextCcw.starts {s : State} {c a entry : Nat} {y : Ccw} (h : NextCcw s c y) (hw : StartsWell s c y) (hdln : y.dln = false)
    (hkind : (s.ctx c).kind y.tgt = 0) (ha : (s.ctx c).target y.tgt % 4096 = a) (hthere : s.attPresent c a = true)
    (hhub : (s.att a).hub = false) (hsafe : (s.port (a / 16)).safe = false)
    (hh : (s.wcfg (s.home c)).handlerFor y.code (s.att a).profile y.param = some entry) :
    let t := (s.ccwBegin c y.code).run s (fun y p t => t.handlerStart c y p)
    ∃ own ownTx rx, t.ctx c = Ctx.entersHandler (s.home c) entry
        (entryRegs s.free
          (BitVec.ofNat 64 (y.code + y.tgt * 16 + y.flags * 2 ^ 8 + (if y.nodata then y.count else y.bytes) * 2 ^ 16 + y.param % 2 ^ 32 * 2 ^ 32))
          (BitVec.ofNat 64 ((s.ctx c).target y.tgt % 0x4000 + bits ((s.ctx c).target y.tgt) 16 8 * 2 ^ 16 + y.tgt * 2 ^ 24))
          (BitVec.ofNat 64 ((s.img.profiles.get (s.home c)).base + (s.img.profiles.get (s.home c)).stride * a))
          (BitVec.ofNat 64 (s.ctx c).pdeadline))
        { code := y.code, tgt := y.tgt, att := some a, rxMark := own, txMark := ownTx } rx
        { (s.ctx c).begunAs y with stream := { members := [y] }, profiles := Tbl.put 0 (s.ctx c).profiles a ((s.att a).profile + 1) }
      ∧ (∀ d, d ≠ c → t.ctx d = s.ctx d) ∧ (∀ b, b ≠ a → t.att b = s.att b) ∧ SameBytes s t := by
  obtain ⟨u, hr, hb⟩ := h.begins hw hdln (s.portHandlerAbsent_of_some hkind ha hthere hhub hh)
  obtain ⟨himg, hatts, hports, hfree⟩ := hr.fixed
  have hmem := h.2.2.2.2.1
  have hctx : (u.modCtx c (Ctx.begunAs y)).ctx c = (s.ctx c).begunAs y := by rw [State.ctx_modCtx_self, hr.ctx]
  have hother : ∀ d, d ≠ c → (u.modCtx c (Ctx.begunAs y)).ctx d = s.ctx d := fun d hd => by rw [State.ctx_modCtx_ne _ _ hd, hr.ctx]
  have hbytes := hr.sameBytes.trans (SameBytes.modCtx u c (Ctx.begunAs y))
  rw [hb]
  dsimp only [Begun.run]
  replace himg := (State.modCtx_img u c (Ctx.begunAs y)).trans himg
  replace hatts := (State.modCtx_atts u c (Ctx.begunAs y)).trans hatts
  replace hports := (State.modCtx_ports u c (Ctx.begunAs y)).trans hports
  replace hfree := (State.modCtx_free u c (Ctx.begunAs y)).trans hfree
  generalize u.modCtx c (Ctx.begunAs y) = v at hctx hother hbytes himg hatts hports hfree
  have hhome : v.home c = s.home c := State.home_congr himg c
  have hatt : ∀ b, v.att b = s.att b := fun b => by unfold State.att; rw [hatts]
  obtain ⟨own, ownTx, rx, hc, hd, hb', hs⟩ := State.handlerStart_spec (s := v) (c := c) (a := a) (entry := entry) (param := y.param) (y := y)
    (by rw [hctx]; exact hmem) (by rw [hctx]; exact hkind) (by rw [hctx]; exact ha)
    ((State.attPresent_congr hatts (by rw [hctx]; rfl)).trans hthere) (by unfold State.port; rw [hports]; exact hsafe) hdln
    (by rw [hhome, hatt, State.wcfg, himg]; exact hh)
  rw [hhome, hfree, hctx, himg, hatt] at hc
  exact ⟨own, ownTx, rx, hc, fun d hd' => (hd d hd').trans (hother d hd'), fun b hb => (hb' b hb).trans (hatt b), hbytes.trans hs⟩

/-- A SENSE of an attachment starts its handler as the other commands do. -/
theorem NextCcw.sense_run {s : State} {c : Nat} {y : Ccw} (h : NextCcw s c y) (hw : StartsWell s c y) (hdln : y.dln = false)
    (hport : s.portHandlerAbsent c y = false) (hkind : (s.ctx c).kind y.tgt = 0) :
    (s.ccwBegin c y.code).run s (fun y p t => if (t.ctx c).kind y.tgt = 1 then t.driveSenseCcw c y else t.handlerStart c y p)
      = (s.ccwBegin c y.code).run s (fun y p t => t.handlerStart c y p) := by
  obtain ⟨u, hr, hb⟩ := h.begins hw hdln hport
  have hk : ((u.modCtx c (Ctx.begunAs y)).ctx c).kind y.tgt = 0 := by
    rw [State.ctx_modCtx_self, hr.ctx]
    exact hkind
  rw [hb]
  dsimp only [Begun.run]
  rw [hk, if_neg Nat.zero_ne_one]

/-- Settles O20: each command begins, its checks pass, and the activation's context is the one of R160. -/
theorem handlerCommandsActivate : Obligations.HandlerCommandsActivate := by
  intro row hrow s c a entry y h hw hcode hdln hkind ha hthere hhub hsafe hh
  obtain ⟨own, ownTx, rx, hc, hd, hb, hs⟩ := h.starts hw hdln hkind ha hthere hhub hsafe hh
  have hsense := h.sense_run hw hdln (s.portHandlerAbsent_of_some hkind ha hthere hhub hh) hkind
  have hexec : exec (row.1 c) s = .next ((s.ccwBegin c y.code).run s (fun y p t => t.handlerStart c y p)) := by
    rw [hcode] at hsense ⊢
    simp only [List.mem_cons, List.not_mem_nil, or_false] at hrow
    rcases hrow with rfl | rfl | rfl | rfl | rfl
    case inr.inr.inr.inl => exact congrArg Host.Outcome.next hsense
    all_goals rfl
  refine ⟨_, hexec, ?_⟩
  generalize (s.ccwBegin c y.code).run s (fun y p t => t.handlerStart c y p) = t at hc hd hb hs
  rw [hc, ← hcode]
  obtain ⟨h1, h2, h3, h4⟩ := entryRegs_get s.free
    (BitVec.ofNat 64 (y.code + y.tgt * 16 + y.flags * 2 ^ 8 + (if y.nodata then y.count else y.bytes) * 2 ^ 16 + y.param % 2 ^ 32 * 2 ^ 32))
    (BitVec.ofNat 64 ((s.ctx c).target y.tgt % 0x4000 + bits ((s.ctx c).target y.tgt) 16 8 * 2 ^ 16 + y.tgt * 2 ^ 24))
    (BitVec.ofNat 64 ((s.img.profiles.get (s.home c)).base + (s.img.profiles.get (s.home c)).stride * a)) (BitVec.ofNat 64 (s.ctx c).pdeadline)
  refine ⟨⟨_, rfl, rfl, rfl, rfl, rfl, rfl⟩, rfl, rfl, ?_, ?_, h1, h2, h3, h4, rfl, rfl, hd, hb, hs⟩
  · show bitAt (BitVec.ofNat 64 (8 * (s.home c).bit)).toNat 2 = false
    cases s.home c <;> rfl
  · show World.ofBit (bitAt (BitVec.ofNat 64 (8 * (s.home c).bit)).toNat 3) = s.home c
    cases s.home c <;> rfl

end Sys2Proof.Machine

namespace Sys2Proof.Machine

/-! ### Reads of a program (R86) -/

theorem State.progRead_good {s : State} {c a n : Nat} (hin : a + n ≤ windowBase) (hd : ∀ i, i < n → s.deny (s.home c) false .read (a + i) = none)
    (hg : GoodRead s a n) : ∃ u, s.progRead c a n = (Memory.bytes 0 s.pantry.mem a n, .done, u) ∧ s.ReadFrom u := by
  obtain ⟨u, hu, hr⟩ := State.readSpan_good (n / 65536 + 2) hin hd hg (by omega)
  have hk : s.progReach c a n = n := by
    unfold State.progReach
    split
    · exact Nat.min_eq_left (by omega)
    · rfl
  refine ⟨u, ?_, hr⟩
  unfold State.progRead State.readBytes
  dsimp only
  rw [hk, if_neg (show ¬ windowBase < a + n by omega), hu]
  simp [State.noteDenied]

/-! ### The checks of a binding (R80, R534) -/

/-- The checks of a target ask for the image and the ports. -/
theorem State.bindCheck_congr {s t : State} (himg : t.img = s.img) (hports : t.ports = s.ports) (w : World) (r : BindRules) (hdr tgts : List Byte) :
    t.bindCheck w r hdr tgts = s.bindCheck w r hdr tgts := by
  have htc : ∀ lane x, t.targetCheck w lane x = s.targetCheck w lane x := fun lane x => by
    unfold State.targetCheck State.port State.portLane State.driveLane State.portWorld State.driveWorld State.cmpWorld
    rw [himg, hports]
  unfold State.bindCheck
  simp only [htc]

/-- Checks that find nothing find nothing in the header, and at most 16 targets. -/
theorem State.bindCheck_none {s : State} {w : World} {r : BindRules} {hdr tgts : List Byte} (h : s.bindCheck w r hdr tgts = none) :
    r.head hdr = none ∧ bits (fieldAt hdr 3 1) 0 5 ≤ 16 := by
  have hhead : r.head hdr = none := by
    rw [← Option.not_isSome_iff_eq_none]
    intro hs
    unfold State.bindCheck at h
    dsimp only at h
    rw [if_pos hs] at h
    rw [h] at hs
    exact Bool.false_ne_true hs
  refine ⟨hhead, ?_⟩
  unfold BindRules.head at hhead
  split_ifs at hhead with h1 h2 h3 h4 h5
  exact Nat.not_lt.mp h4

/-- The context of a bound program at its first CCW. -/
def Ctx.atFirst (a : Nat) (hdr tgts : List Byte) (now : Nat) (x : Ctx) : Ctx :=
  let limit := if fieldAt hdr 4 4 = 0 then 0xFFFFFFFFFFFFFFFF else now + fieldAt hdr 4 4 * 1000
  { x.withTargets (fieldAt hdr 2 1) (bits (fieldAt hdr 3 1) 0 5) tgts with
    level := fieldAt hdr 0 1, softDl := bitAt (fieldAt hdr 3 1) 5
    pdeadline := limit, deadline := limit
    ccwAddr := a + roundUp (8 + 4 * bits (fieldAt hdr 3 1) 0 5) 16 }

/-- A program that passes its checks is bound: its context is READY at its first CCW (R80). -/
theorem State.bindProgram_eq {s : State} {c a : Nat} {r : BindRules} (ha : (s.ctx c).header = a) (halign : a % 16 = 0)
    (hin : a + 80 ≤ windowBase) (hd : ∀ i, i < 80 → s.deny (s.home c) false .read (a + i) = none) (hg : GoodRead s a 80)
    (hcheck : s.bindCheck (s.home c) r (Memory.bytes 0 s.pantry.mem a 8)
      (Memory.bytes 0 s.pantry.mem (a + 8) (4 * bits (fieldAt (Memory.bytes 0 s.pantry.mem a 8) 3 1) 0 5)) = none) :
    ∃ u, s.ReadFrom u ∧ s.bindProgram c r = (u.modCtx c (Ctx.atFirst a (Memory.bytes 0 s.pantry.mem a 8)
      (Memory.bytes 0 s.pantry.mem (a + 8) (4 * bits (fieldAt (Memory.bytes 0 s.pantry.mem a 8) 3 1) 0 5)) s.now)).makeReady c := by
  obtain ⟨hhead, hn⟩ := State.bindCheck_none hcheck
  have hsmall : a < 2 ^ 38 := lt_of_lt_of_le (by omega) (show windowBase ≤ 2 ^ 38 by decide)
  have haddr : (s.ctx c).headerAddr = a := by
    unfold Ctx.headerAddr
    rw [ha, Nat.mod_eq_of_lt hsmall]
  obtain ⟨u, hu, hru⟩ := State.progRead_good (s := s) (c := c) (a := a) (n := 8) (by omega) (fun i hi => hd i (by omega)) (hg.part (by omega) (by omega))
  have hhome : u.home c = s.home c := State.home_congr hru.fixed.1 c
  generalize hhdr : Memory.bytes 0 s.pantry.mem a 8 = hdr at hcheck hhead hn hu ⊢
  generalize hk : bits (fieldAt hdr 3 1) 0 5 = n at hcheck hn ⊢
  obtain ⟨v, hv, hrv⟩ := State.progRead_good (s := u) (c := c) (a := a + 8) (n := 4 * n) (by omega)
    (fun i hi => by rw [hhome, hru.sameRights.deny, Nat.add_assoc]; exact hd _ (by omega)) (hru.goodRead.mpr (hg.part (by omega) (by omega)))
  rw [hru.mem] at hv
  have hr := hru.trans hrv
  rw [← State.bindCheck_congr hr.fixed.1 hr.fixed.2.2.1] at hcheck
  refine ⟨v, hr, ?_⟩
  have heff : effAddr 0 (a % 2 ^ 38) ≠ none := by
    rw [Nat.mod_eq_of_lt hsmall]
    unfold effAddr
    rw [show bits a 38 4 = 0 by unfold bits; rw [Nat.div_eq_of_lt hsmall]; rfl, if_neg (by omega)]
    simp
  have hspace : ¬ (effAddr 0 ((s.ctx c).header % 2 ^ 38) = none || (s.ctx c).header / 2 ^ 38 ≠ 0) = true := by
    rw [ha, Nat.div_eq_of_lt hsmall]
    simpa using heff
  unfold State.bindProgram
  dsimp only
  rw [if_neg hspace, haddr, if_neg (by omega), hu]
  dsimp only
  rw [hhead]
  dsimp only
  rw [hk, hv]
  dsimp only
  rw [hcheck]
  dsimp only
  refine congrArg (fun t : State => t.makeReady c) ?_
  have hva : (v.ctx c).headerAddr = a := by rw [hr.ctx, haddr]
  unfold Ctx.atFirst State.modCtx
  dsimp only
  rw [hk, hva]

/-! ### The entry that is bound (R215, R252, R256) -/

/-- A flag byte with its six low bits clear has none of them set. -/
theorem bitAt_of_low_clear {f i : Nat} (h : f % 64 = 0) (hi : i < 6) : bitAt f i = false := by
  have hbits : bits f i 1 = 0 := by
    unfold bits
    interval_cases i <;> omega
  simp [bitAt, hbits]

/-- The record of a context that takes an entry in no group (R213). -/
def State.boundRec (s : State) (w : World) (q c h lane : Nat) (e : Entry) : Ctx :=
  { state := .ready, lane := lane, home := h, sq := q, cq := (s.sq w q).cq, tag := (slot0Of e.data).tag, header := (slot0Of e.data).addr
    bindTime := s.now, batch := bitAt (slot0Of e.data).flags 1, bindSq := q, counted := true, stores := (s.ctx c).stores }

/-- The state in which an entry's program is checked: the queue's head has passed the entry, and the context has its record. -/
def State.entryBound (s : State) (w : World) (q : Nat) (e : Entry) (c : Nat) (x : Ctx) : State :=
  ((((s.entryTaken w q e).setCtx c x).modSq w q (fun y => { y with live := y.live + 1 })).countWorld w 0 1)

/-- An entry without inline data and group has its program bound. -/
theorem State.bindEntry_eq (s : State) (w : World) (q : Nat) {e : Entry} (c h : Nat) (hflags : (slot0Of e.data).flags % 64 = 0) :
    ∃ lane, s.bindEntry w q e c h = (s.entryBound w q e c (s.boundRec w q c h lane e)).bindProgram c
      { level := (s.sq w q).level, lanes := (s.sq w q).lanes, backOffice := (s.sq w q).backOffice } := by
  have hgroup : (s.entryTaken w q e).groupJoin w q (slot0Of e.data).flags (slot0Of e.data).tag = (none, s.entryTaken w q e) := by
    unfold State.groupJoin
    rw [bitAt_of_low_clear hflags (by omega)]
    rfl
  have hinline : ∀ t : State, t.inlineCopy c [] = (none, t) := fun t => rfl
  refine ⟨fieldAt (s.progRead c ((slot0Of e.data).addr % 2 ^ 38) 3).1 2 1, ?_⟩
  unfold State.bindEntry
  dsimp only
  rw [hgroup, bitAt_of_low_clear hflags (show 4 < 6 by omega), if_neg Bool.false_ne_true, hinline]
  rfl

/-- The state with other queues, contexts and statistics. -/
def State.withBinding (s : State) (qm : Two Qm) (l : Tbl Ctx) (st : Two EpochEngine) : State := { s with qm := qm, ctxs := l, stats := st }

/-- What a binding changes before its checks: the queue, the context, and the count of programs. -/
theorem State.entryBound_spec (s : State) (w : World) (q : Nat) (e : Entry) (c : Nat) (x : Ctx) :
    (∃ qm l st, s.entryBound w q e c x = s.withBinding qm l st) ∧ (s.entryBound w q e c x).ctx c = x
      ∧ (∀ d, d ≠ c → (s.entryBound w q e c x).ctx d = s.ctx d)
      ∧ ((s.entryBound w q e c x).sq w q).entries = (s.sq w q).entries.drop 1
      ∧ ((s.entryBound w q e c x).sq w q).head = e.first.add (s.sq w q).depth e.ringSlots := by
  refine ⟨⟨_, _, _, rfl⟩, State.ctx_setCtx_self (s.entryTaken w q e) c x, fun d hd => State.ctx_setCtx_ne (s.entryTaken w q e) x hd, ?_⟩
  have hsq : (s.entryBound w q e c x).sq w q = { (s.entryTaken w q e).sq w q with live := ((s.entryTaken w q e).sq w q).live + 1 } :=
    (State.sq_modSq ((s.entryTaken w q e).setCtx c x) w q (fun y => { y with live := y.live + 1 }) w q).trans (if_pos ⟨rfl, rfl⟩)
  rw [hsq, State.entryTaken_sq_self]
  exact ⟨rfl, rfl⟩

theorem State.countSpill_frame (s : State) (w : World) (k h : Nat) :
    (∀ d, (s.countSpill w k h).ctx d = s.ctx d) ∧ (s.countSpill w k h).qm = s.qm ∧ SameBytes s (s.countSpill w k h) := by
  unfold State.countSpill
  split
  · exact ⟨fun _ => rfl, rfl, .refl s⟩
  · exact ⟨fun _ => rfl, rfl, .of_mems rfl rfl rfl rfl⟩

/-- An entry of one slot without flags of its own is bound when a context and a Hearth are found for it. -/
theorem State.programBind_eq {s : State} {w : World} {q c h : Nat} {e : Entry} (hb : s.bindable w q = some e) (hslots : (slot0Of e.data).slots = 1)
    (hflags : (slot0Of e.data).flags % 64 = 0) (hfree : s.freeCtx w = some c) (hplace : s.entryPlaced w q e = .hearth h) :
    s.programBind w q = .next ((s.bindEntry w q e c h).countSpill w (s.homeCluster (s.entryHeader w e).1) h) := by
  have hord := bitAt_of_low_clear hflags (show 5 < 6 by omega)
  have hheld : s.entryHeld (s.sq w q) e = false := by simp [State.entryHeld, hslots, hord]
  unfold State.programBind
  simp only [hb, hheld, hfree, hplace, Bool.false_eq_true, if_false]

/-- The lane in the header of a program without inline data is read from memory. -/
theorem State.entryHeader_lane {s : State} {w : World} {e : Entry} {a : Nat} (ha : (slot0Of e.data).addr = a) (hflags : (slot0Of e.data).flags % 64 = 0)
    (hin : a + 80 ≤ windowBase) (hd : ∀ i, i < 80 → s.deny w false .read (a + i) = none) (hg : GoodRead s a 80) :
    (s.entryHeader w e).1 = fieldAt (Memory.bytes 0 s.pantry.mem a 8) 2 1 := by
  have hsmall : a < 2 ^ 38 := lt_of_lt_of_le (by omega) (show windowBase ≤ 2 ^ 38 by decide)
  have hinl := bitAt_of_low_clear hflags (show 4 < 6 by omega)
  obtain ⟨u, hu, -⟩ := State.readSpan_good (s := s) (w := w) (sup := false) (8 / 65536 + 2) (a := a) (n := 8) (by omega) (fun i hi => hd i (by omega))
    (hg.part (by omega) (by omega)) (by omega)
  unfold State.entryHeader State.readBytes
  dsimp only
  rw [hinl, if_neg Bool.false_ne_true, ha, Nat.mod_eq_of_lt hsmall, hu]

theorem State.withBinding_frame (s : State) (qm : Two Qm) (l : Tbl Ctx) (st : Two EpochEngine) :
    s.SameRights (s.withBinding qm l st) ∧ (s.withBinding qm l st).pantry = s.pantry ∧ (s.withBinding qm l st).ports = s.ports
      ∧ (s.withBinding qm l st).now = s.now ∧ SameBytes s (s.withBinding qm l st) :=
  ⟨⟨rfl, rfl, rfl⟩, rfl, rfl, rfl, .of_mems rfl rfl rfl rfl⟩

theorem State.ReadFrom.qm {s u : State} (h : s.ReadFrom u) : u.qm = s.qm := by
  obtain ⟨⟨st, k, e, rfl⟩, _⟩ := h
  rfl

theorem State.pnBad_congr {s t : State} (himg : t.img = s.img) (h : t.pantry = s.pantry) (b : Nat) : t.pnBad b = s.pnBad b := by
  unfold State.pnBad State.pnJudge
  rw [himg, h]

/-- A context that has become READY at a place of the order of R218. -/
def Ctx.readied (n : Nat) (x : Ctx) : Ctx := { x with state := .ready, wait := .none, readySeq := n, slotDue := false }

theorem State.makeReady_qm (s : State) (c : Nat) : (s.makeReady c).qm = s.qm := rfl

/-- A program found READY: its context, the others, and the queues as they were. -/
theorem State.readied_spec (u : State) (c : Nat) (f : Ctx → Ctx) (w : World) (k h : Nat) :
    (∃ n, (((u.modCtx c f).makeReady c).countSpill w k h).ctx c = (f (u.ctx c)).readied n)
      ∧ (∀ d, d ≠ c → (((u.modCtx c f).makeReady c).countSpill w k h).ctx d = u.ctx d)
      ∧ (((u.modCtx c f).makeReady c).countSpill w k h).qm = u.qm ∧ SameBytes u (((u.modCtx c f).makeReady c).countSpill w k h) := by
  have hself : ((u.modCtx c f).makeReady c).ctx c = (f (u.ctx c)).readied (u.modCtx c f).hearths.readySeq := by
    rw [State.ctx_makeReady_self, State.ctx_modCtx_self, Ctx.readied]
  have hother : ∀ d, d ≠ c → ((u.modCtx c f).makeReady c).ctx d = u.ctx d := fun d hd => by
    rw [State.ctx_makeReady_ne _ hd, State.ctx_modCtx_ne _ _ hd]
  have hqm : ((u.modCtx c f).makeReady c).qm = u.qm := (State.makeReady_qm ..).trans (State.modCtx_qm ..)
  have hbytes : SameBytes u ((u.modCtx c f).makeReady c) := (SameBytes.modCtx u c f).trans (SameBytes.makeReady (u.modCtx c f) c)
  generalize (u.modCtx c f).makeReady c = v at hself hother hqm hbytes
  obtain ⟨hc, hq, hs⟩ := v.countSpill_frame w k h
  exact ⟨⟨_, (hc c).trans hself⟩, fun d hd => (hc d).trans (hother d hd), hq.trans hqm, hbytes.trans hs⟩

theorem roundUp_sixteen (a : Nat) : roundUp a 16 = 16 * ((a + 15) / 16) := by
  unfold roundUp ceilDiv
  omega

/-- Settles O26: the front entry is not held and finds its context and its Hearth; its program passes its checks and is READY at its first CCW. -/
theorem programBinds : Obligations.ProgramBinds := by
  intro s w q c h e rest hb hent hslots hflags hfree hhome a hdr n halign hin hd hg hres hplace hcheck
  subst hhome
  have hpl : s.entryPlaced (s.home c) q e = .hearth h := by
    unfold State.entryPlaced
    rw [State.entryHeader_lane rfl hflags hin hd hg]
    exact hplace
  refine ⟨_, s.programBind_eq hb hslots hflags hfree hpl, ?_⟩
  obtain ⟨lane, hentry⟩ := s.bindEntry_eq (s.home c) q c h hflags
  obtain ⟨⟨qm, l, st, hwith⟩, hctx, hother, hents, hhead⟩ := s.entryBound_spec (s.home c) q e c (s.boundRec (s.home c) q c h lane e)
  obtain ⟨hrights, hpn, hports, hnow, hsb⟩ := s.withBinding_frame qm l st
  rw [hentry]
  rw [hwith] at hctx hother hents hhead ⊢
  generalize s.withBinding qm l st = v at hctx hother hents hhead hrights hpn hports hnow hsb ⊢
  have hn : n = bits (fieldAt hdr 3 1) 0 5 := by simp [n, bits]
  have hhome : v.home c = s.home c := hrights.home c
  obtain ⟨u, hr, hu⟩ := State.bindProgram_eq (s := v) (c := c) (a := a)
    (r := { level := (s.sq (s.home c) q).level, lanes := (s.sq (s.home c) q).lanes, backOffice := (s.sq (s.home c) q).backOffice })
    (by rw [hctx]; rfl) halign hin (fun i hi => by rw [hhome, hrights.deny]; exact hd i hi)
    (fun b hb => (State.pnBad_congr hrights.img hpn b).trans (hg b hb)) (by
      rw [hn] at hcheck
      rw [hhome, hpn, State.bindCheck_congr hrights.img hports]
      exact hcheck)
  rw [hu, hpn, hnow]
  obtain ⟨⟨seq, hc⟩, ho, hqm, hbytes⟩ := u.readied_spec c (Ctx.atFirst a hdr (Memory.bytes 0 s.pantry.mem (a + 8) (4 * n)) s.now) (s.home c)
    (s.homeCluster (s.entryHeader (s.home c) e).1) h
  rw [hn] at hc ho hqm hbytes
  rw [hr.ctx, hctx] at hc
  have hsq : ∀ t : State, t.qm = u.qm → t.sq (s.home c) q = v.sq (s.home c) q := fun t ht => by unfold State.sq; rw [ht, hr.qm]
  rw [hn]
  generalize ((u.modCtx c (Ctx.atFirst a hdr (Memory.bytes 0 s.pantry.mem (a + 8) (4 * bits (fieldAt hdr 3 1) 0 5)) s.now)).makeReady c).countSpill
    (s.home c) (s.homeCluster (s.entryHeader (s.home c) e).1) h = t at hc ho hqm hbytes ⊢
  rw [hc]
  refine ⟨rfl, rfl, ?_, rfl, rfl, rfl, rfl, rfl, rfl, rfl, ?_, ?_, ?_, fun d hd => ?_, (hsb.trans hr.sameBytes).trans hbytes⟩
  · exact congrArg (a + ·) (roundUp_sixteen _)
  · show (if fieldAt hdr 4 4 = 0 then _ else s.now + fieldAt hdr 4 4 * 1000) = _
    rw [Nat.mul_comm]
  · rw [hsq t hqm, hents, hent]
    rfl
  · rw [hsq t hqm, hhead]
  · rw [ho d hd, hr.ctx, hother d hd]

end Sys2Proof.Machine

namespace Sys2Proof.Machine

/-! ### What the end of a plain CCW moves aside (R99, R109) -/

/-- The state with other contexts, statistics, corrections, Hearths and Boiler. -/
def State.setAside (s : State) (l : Tbl Ctx) (st : Two EpochEngine) (k : Tbl Nat) (e : Tbl (List Nat)) (h : Hearths) (b : Boiler) : State :=
  { s with ctxs := l, stats := st, pantry := { s.pantry with corr := k, errs := e }, hearths := h, boiler := b }

/-- Nothing but contexts, statistics, corrections, Hearths and Boiler has changed. -/
def State.Aside (s t : State) : Prop := ∃ l st k e h b, t = s.setAside l st k e h b

namespace State.Aside
variable {s t u : State}

theorem refl (s : State) : s.Aside s := ⟨s.ctxs, s.stats, s.pantry.corr, s.pantry.errs, s.hearths, s.boiler, rfl⟩

theorem trans (h : s.Aside t) (h' : t.Aside u) : s.Aside u := by
  obtain ⟨l, st, k, e, z, b, rfl⟩ := h
  obtain ⟨l', st', k', e', z', b', rfl⟩ := h'
  exact ⟨l', st', k', e', z', b', rfl⟩

theorem of_readFrom (h : s.ReadFrom u) : s.Aside u := by
  obtain ⟨⟨st, k, e, rfl⟩, _⟩ := h
  exact ⟨s.ctxs, st, k, e, s.hearths, s.boiler, rfl⟩

theorem modCtx (s : State) (c : Nat) (f : Ctx → Ctx) : s.Aside (s.modCtx c f) := ⟨_, s.stats, s.pantry.corr, s.pantry.errs, s.hearths, s.boiler, rfl⟩

theorem modHt (s : State) (w : World) (f : HearthCnt → HearthCnt) : s.Aside (s.modHt w f) :=
  ⟨s.ctxs, s.stats, s.pantry.corr, s.pantry.errs, _, s.boiler, rfl⟩

theorem modBl (s : State) (f : Boiler → Boiler) : s.Aside (s.modBl f) := ⟨s.ctxs, s.stats, s.pantry.corr, s.pantry.errs, s.hearths, _, rfl⟩

theorem countBank (s : State) (w : World) (x : Counted) : s.Aside (s.countBank w x) :=
  ⟨s.ctxs, _, s.pantry.corr, s.pantry.errs, s.hearths, s.boiler, rfl⟩

theorem countLane (s : State) (w : World) (lane i n : Nat) : s.Aside (s.countLane w lane i n) := by
  unfold State.countLane
  split
  · exact countBank ..
  · exact refl s

theorem countBoth (s : State) (w : World) (lane i j : Nat) : s.Aside (s.countBoth w lane i j) := (countBank ..).trans (countLane ..)

theorem countWait (s : State) (q : LeaveReq) : s.Aside (s.countWait q) := by
  unfold State.countWait
  split
  · exact countBank ..
  · exact refl s

theorem leaveWithdraw (s : State) (p : LeaveReq → Bool) : s.Aside (s.leaveWithdraw p) := by
  have hfold : ∀ (l : List LeaveReq) (t : State), t.Aside (l.foldl (fun t q => t.countWait q) t) := by
    intro l
    induction l with
    | nil => exact refl
    | cons q l ih => exact fun t => (countWait t q).trans (ih _)
  exact (hfold (s.boiler.waiting.filter p) s).trans (modBl _ (fun b => { b with waiting := b.waiting.filter (fun q => !p q) }))

theorem leaseRelease (s : State) (n : Nat) : s.Aside (s.leaseRelease n) := by
  have hfirst := (leaveWithdraw s (fun q => q.lease = some n)).trans (modBl _ (fun b => { b with leases := Tbl.put none b.leases n none }))
  unfold State.leaseRelease
  dsimp only
  split
  · split
    · exact hfirst.trans (modCtx ..)
    · exact hfirst
  · exact hfirst

theorem flverRelease (s : State) (c : Nat) : s.Aside (s.flverRelease c) := by
  unfold State.flverRelease
  split
  · exact (leaseRelease ..).trans (modCtx ..)
  · exact refl s

/-- What stays as it was. -/
theorem kept (h : s.Aside t) : t.atts = s.atts ∧ t.drives = s.drives ∧ t.pantry.mem = s.pantry.mem ∧ t.hostMem = s.hostMem ∧ t.qm = s.qm
    ∧ t.ovf = s.ovf ∧ t.ovfWait = s.ovfWait ∧ t.fns = s.fns ∧ t.img = s.img ∧ t.lands = s.lands := by
  obtain ⟨l, st, k, e, z, b, rfl⟩ := h
  exact ⟨rfl, rfl, rfl, rfl, rfl, rfl, rfl, rfl, rfl, rfl⟩

theorem now (h : s.Aside t) : t.now = s.now := by
  obtain ⟨l, st, k, e, z, b, rfl⟩ := h
  rfl

end State.Aside

/-- The context of a CCW that ends with SUCCESS and no condition, in a program that holds no lease and no Flint session, is no group member and
has no late error. -/
structure Ctx.EndsPlainly (y : Ccw) (loc cq last : Nat) (x : Ctx) : Prop where
  ccw : x.ccw = some y
  ccwAddr : x.ccwAddr = loc
  queue : x.cq = cq
  orphaned : x.orphaned = false
  group : x.group = none
  asyncCcw : x.asyncCcw = none
  leases : x.leases = []
  flint : x.flint = none
  lastStatus : x.lastStatus = last
  cond : x.cond = false
  long : x.long = false
  timeout : x.timeout = false
  members : x.stream.members = []
  locks : x.locks = []

namespace Ctx.EndsPlainly
variable {y : Ccw} {loc cq last : Nat} {x : Ctx}

theorem quiet (h : x.EndsPlainly y loc cq last) : x.quiet.EndsPlainly y loc cq last := by
  obtain ⟨h1, h2, h3, h4, h5, h6, h7, h8, h9, h10, h11, h12, h13, h14⟩ := h
  exact ⟨h1, h2, h3, h4, h5, h6, h7, h8, h9, h10, h11, h12, h13, h14⟩

theorem released (h : x.EndsPlainly y loc cq last) (n : Nat) :
    ({ x with leases := x.leases.filter (fun m => m != n), ccwLease := x.ccwLease.filter (fun p => p.2 != n) } : Ctx).EndsPlainly y loc cq last := by
  obtain ⟨h1, h2, h3, h4, h5, h6, h7, h8, h9, h10, h11, h12, h13, h14⟩ := h
  exact ⟨h1, h2, h3, h4, h5, h6, by simp [h7], h8, h9, h10, h11, h12, h13, h14⟩

end Ctx.EndsPlainly

theorem State.leaveWithdraw_ctx (s : State) (p : LeaveReq → Bool) (c : Nat) : (s.leaveWithdraw p).ctx c = s.ctx c := by
  have hfold : ∀ (l : List LeaveReq) (t : State), (l.foldl (fun t q => t.countWait q) t).ctx c = t.ctx c := by
    intro l
    induction l with
    | nil => exact fun _ => rfl
    | cons q l ih =>
      intro t
      refine (ih _).trans (?_ : (t.countWait q).ctx c = t.ctx c)
      unfold State.countWait
      split <;> rfl
  exact hfold _ s

/-- The release of a lease changes a context by its lease numbers alone. -/
theorem State.leaseRelease_plain {s : State} {c n : Nat} {y : Ccw} {loc cq last : Nat} (h : (s.ctx c).EndsPlainly y loc cq last) :
    ((s.leaseRelease n).ctx c).EndsPlainly y loc cq last := by
  have hfirst : ((s.leaveWithdraw (fun q => q.lease = some n)).modBl (fun b => { b with leases := Tbl.put none b.leases n none })).ctx c = s.ctx c :=
    s.leaveWithdraw_ctx _ c
  unfold State.leaseRelease
  dsimp only
  generalize (s.leaveWithdraw (fun q => q.lease = some n)).modBl (fun b => { b with leases := Tbl.put none b.leases n none }) = v at hfirst ⊢
  rw [← hfirst] at h
  split
  · split
    · next d _ =>
      rw [State.ctx_modCtx]
      split
      · next hd => subst hd; exact h.released n
      · exact h
    · exact h
  · exact h

theorem State.flverRelease_plain {s : State} {c : Nat} {y : Ccw} {loc cq last : Nat} (h : (s.ctx c).EndsPlainly y loc cq last) :
    ((s.flverRelease c).ctx c).EndsPlainly y loc cq last := by
  unfold State.flverRelease
  split
  · next n _ =>
    rw [State.ctx_modCtx_self]
    obtain ⟨h1, h2, h3, h4, h5, h6, h7, h8, h9, h10, h11, h12, h13, h14⟩ := State.leaseRelease_plain (n := n) h
    exact ⟨h1, h2, h3, h4, h5, h6, h7, h8, h9, h10, h11, h12, h13, h14⟩
  · exact h

/-! ### The end of an activation that never was (R99, R110, R409) -/

/-- Nothing of a context's waits at a Landing, at a drive or in an open packet. -/
structure State.Unwaiting (s : State) (c : Nat) : Prop where
  lands : s.lands = []
  wait : (s.ctx c).wait = .none
  visit : (s.ctx c).visit = none
  act : (s.ctx c).act = none
  packets : (s.atts.all (fun p => p.2.tx.owner ≠ some c)) = true
  answers : (s.drives.all (fun p => p.2.answers.all (fun y => y.ctx ≠ c))) = true

theorem State.landWithdraw_of_none {s : State} (p : LandReq → Bool) (h : s.lands = []) : s.landWithdraw p = s := by
  have hs : ({ s with lands := [] } : State) = s := h ▸ rfl
  unfold State.landWithdraw
  rw [h]
  exact hs

theorem State.Unwaiting.openCancel {s t : State} {c : Nat} (h : s.Unwaiting c) (hatts : t.atts = s.atts) : t.openCancel c = t := by
  have hnone : t.atts.filter (fun p => p.2.tx.owner = some c) = [] := by
    rw [hatts, List.filter_eq_nil_iff]
    intro p hp
    have := List.all_eq_true.mp h.packets p hp
    simpa using this
  unfold State.openCancel
  rw [hnone]
  rfl

/-- The requests of a context that has none end: its verification's lease alone is released. -/
theorem State.Unwaiting.requestsEnd {s : State} {c : Nat} (h : s.Unwaiting c) :
    s.requestsEnd c = (s.leaveWithdrawOwner (.context c)).flverRelease c := by
  have hdrives : ((s.leaveWithdrawOwner (.context c)).flverRelease c).drives = s.drives :=
    ((State.Aside.leaveWithdraw s _).trans (State.Aside.flverRelease _ c)).kept.2.1
  have hnone : s.drives.filter (fun p => p.2.answers.any (fun y => y.ctx = c)) = [] := by
    rw [List.filter_eq_nil_iff]
    intro p hp
    have := List.all_eq_true.mp h.answers p hp
    simpa using this
  unfold State.requestsEnd
  simp only [h.wait, hdrives, hnone, List.map_nil, List.foldl_nil]

theorem State.Unwaiting.actEnd {s : State} {c : Nat} (h : s.Unwaiting c) (abnormal : Bool) :
    s.actEnd c abnormal = ((s.leaveWithdrawOwner (.context c)).flverRelease c).modCtx c Ctx.quiet := by
  have hvisit : s.visitAbandon c = s := by simp [State.visitAbandon, h.visit]
  have hatts : ((s.leaveWithdrawOwner (.context c)).flverRelease c).atts = s.atts :=
    ((State.Aside.leaveWithdraw s _).trans (State.Aside.flverRelease _ c)).kept.1
  unfold State.actEnd
  dsimp only
  rw [State.landWithdraw_of_none _ h.lands, hvisit, h.requestsEnd, h.act]
  exact congrArg (fun t : State => t.modCtx c Ctx.quiet) (h.openCancel hatts)

/-! ### The end of a CCW that does nothing (R99, R106, R109) -/

theorem State.issueStores_of_none {s : State} {c : Nat} (h : (s.ctx c).stores = []) : s.issueStores c = s.modCtx c (fun x => { x with stores := [] }) := by
  unfold State.issueStores
  rw [h]
  rfl

theorem State.locksEnd_of_none {s : State} {c : Nat} (h : (s.ctx c).locks = []) :
    s.locksEnd c = s.modHt (s.home c) (fun h => { h with lockRel := satAt 0xFFFFFFFF (h.lockRel + 0) }) := by
  unfold State.locksEnd
  dsimp only
  rw [h]
  rfl

/-- The activation, the stores and the locks of a context that has none of them end. -/
theorem State.Unwaiting.ends {s : State} {c : Nat} {y : Ccw} {loc cq last : Nat} (h : s.Unwaiting c) (hp : (s.ctx c).EndsPlainly y loc cq last)
    (hst : (s.ctx c).stores = []) (abnormal : Bool) :
    s.Aside (((s.issueStores c).actEnd c abnormal).locksEnd c)
      ∧ ((((s.issueStores c).actEnd c abnormal).locksEnd c).ctx c).EndsPlainly y loc cq last := by
  have hissue := State.issueStores_of_none hst
  have hctx : (s.issueStores c).ctx c = { s.ctx c with stores := [] } := by rw [hissue, State.ctx_modCtx_self]
  have hfirst : s.Aside (s.issueStores c) := hissue ▸ .modCtx ..
  generalize s.issueStores c = t at hctx hfirst
  obtain ⟨hatts, hdrives, _, _, _, _, _, _, _, hlands⟩ := hfirst.kept
  have hu : t.Unwaiting c := by
    obtain ⟨h1, h2, h3, h4, h5, h6⟩ := h
    exact ⟨hlands.trans h1, by rw [hctx]; exact h2, by rw [hctx]; exact h3, by rw [hctx]; exact h4, by rw [hatts]; exact h5, by rw [hdrives]; exact h6⟩
  have hpt : (t.ctx c).EndsPlainly y loc cq last := by
    obtain ⟨h1, h2, h3, h4, h5, h6, h7, h8, h9, h10, h11, h12, h13, h14⟩ := hp
    rw [hctx]
    exact ⟨h1, h2, h3, h4, h5, h6, h7, h8, h9, h10, h11, h12, h13, h14⟩
  have hplain := State.flverRelease_plain (s := t.leaveWithdrawOwner (.context c)) (c := c) (y := y) (loc := loc) (cq := cq) (last := last)
    (by rw [State.leaveWithdrawOwner, State.leaveWithdraw_ctx]; exact hpt)
  have haside : s.Aside ((t.leaveWithdrawOwner (.context c)).flverRelease c) :=
    (hfirst.trans (.leaveWithdraw t _)).trans (.flverRelease _ c)
  rw [hu.actEnd]
  generalize (t.leaveWithdrawOwner (.context c)).flverRelease c = v at hplain haside
  have hq : ((v.modCtx c Ctx.quiet).ctx c).locks = [] := by rw [State.ctx_modCtx_self]; exact hplain.quiet.locks
  rw [State.locksEnd_of_none hq]
  refine ⟨(haside.trans (.modCtx ..)).trans (.modHt ..), ?_⟩
  rw [State.modHt_ctx, State.ctx_modCtx_self]
  exact hplain.quiet

theorem State.chainLast_of_last (s : State) (c fuel : Nat) {m : Ccw} (h : m.cd = false) : s.chainLast c fuel m = (.ok m, s) := by
  cases fuel
  · rfl
  · simp [State.chainLast, h]

theorem State.countBank_ctx (s : State) (w : World) (x : Counted) (c : Nat) : (s.countBank w x).ctx c = s.ctx c := rfl

theorem State.countLane_ctx (s : State) (w : World) (lane i n c : Nat) : (s.countLane w lane i n).ctx c = s.ctx c := by
  unfold State.countLane
  split <;> rfl

/-- A CCW without data and without a condition, the last of its program, ends the program with SUCCESS. -/
theorem State.Unwaiting.ccwFinish {s : State} {c : Nat} {y : Ccw} {loc cq last : Nat} (h : s.Unwaiting c)
    (hp : (s.ctx c).EndsPlainly y loc cq last) (hst : (s.ctx c).stores = [])
    (hpast : s.latePast c = false) (hlate : s.lateSoft c = false) (hcd : y.cd = false) (hcc : y.cc = false) :
    ∃ t, s.Aside t ∧ (t.ctx c).EndsPlainly y loc cq last ∧
      s.ccwFinish c {} = t.programEnd c { status := 0, unit := 0, addr := loc, residual := 0, flags := 3 } := by
  obtain ⟨haside, hplain⟩ := h.ends hp hst false
  have hmissed : s.missed c {} = {} := by simp [State.missed, hpast]
  have hil : (s.ctx c).lengthIndication {} y.code = false := by simp [Ctx.lengthIndication, hp.long]
  unfold State.ccwFinish
  simp only [hmissed, if_true, hp.ccw, Option.getD_some, hlate, hil, hp.members, ne_eq, not_true_eq_false, if_false, Bool.false_and,
    Bool.false_eq_true, decide_false]
  generalize ((s.issueStores c).actEnd c false).locksEnd c = t at haside hplain
  have hflags : (t.ctx c).flagBits true true false false = 3 := by simp [Ctx.flagBits, hplain.cond, hplain.long, hplain.timeout, bnat, fPort, fChan]
  simp only [State.chainLast_of_last _ c _ hcd, hplain.members, hplain.ccwAddr, hflags, hcc, if_true, Bool.not_false, show ¬ 0 = 11 by decide,
    show ¬ 0 = 12 by decide, show ¬ 0 = 14 by decide, decide_false, Bool.or_self, Bool.false_eq_true, if_false]
  refine ⟨_, (haside.trans ((State.Aside.countBank ..).trans (State.Aside.countLane ..))).trans (State.Aside.modCtx ..), ?_, rfl⟩
  rw [State.ctx_modCtx_self, State.countLane_ctx, State.countBank_ctx]
  obtain ⟨h1, h2, h3, h4, h5, h6, h7, h8, h9, h10, h11, h12, h13, h14⟩ := hplain
  exact ⟨h1, h2, h3, h4, h5, h6, h7, h8, h9, h10, h11, h12, h13, h14⟩

/-! ### The end of a program (R109, R213, R264) -/

/-- The state with other host memory, queues, functions and messages put out. -/
def State.setHost (s : State) (m : Memory) (qm : Two Qm) (f : Two Func) (o : List OutItem) : State :=
  { s with hostMem := m, qm := qm, fns := f, out := o }

/-- Nothing but host memory, the queues, the functions and what is put out has changed. -/
def State.OnlyHost (s t : State) : Prop := ∃ m qm f o, t = s.setHost m qm f o

namespace State.OnlyHost
variable {s t : State}

theorem refl (s : State) : s.OnlyHost s := ⟨s.hostMem, s.qm, s.fns, s.out, rfl⟩

theorem hostWrite (h : s.OnlyHost t) (a : Nat) (l : List Byte) : s.OnlyHost (t.hostWrite a l) := by
  obtain ⟨m, qm, f, o, rfl⟩ := h
  exact ⟨_, qm, f, o, rfl⟩

theorem modCq (h : s.OnlyHost t) (w : World) (n : Nat) (k : Cq → Cq) : s.OnlyHost (t.modCq w n k) := by
  obtain ⟨m, qm, f, o, rfl⟩ := h
  exact ⟨m, _, f, o, rfl⟩

theorem modSq (h : s.OnlyHost t) (w : World) (n : Nat) (k : Sq → Sq) : s.OnlyHost (t.modSq w n k) := by
  obtain ⟨m, qm, f, o, rfl⟩ := h
  exact ⟨m, _, f, o, rfl⟩

theorem modFn (h : s.OnlyHost t) (w : World) (k : Func → Func) : s.OnlyHost (t.modFn w k) := by
  obtain ⟨m, qm, f, o, rfl⟩ := h
  exact ⟨m, qm, _, o, rfl⟩

theorem msix (h : s.OnlyHost t) (w : World) (v : Nat) : s.OnlyHost (t.msix w v) := by
  unfold State.msix
  split
  · split
    · exact h.modFn w _
    · obtain ⟨m, qm, f, o, rfl⟩ := h
      exact ⟨m, qm, f, _, rfl⟩
  · exact h

theorem qmEvent (h : s.OnlyHost t) (w : World) (b : Nat) : s.OnlyHost (t.qmEvent w b) := by
  unfold State.qmEvent
  dsimp only
  split
  · exact h.modFn w _
  · exact (h.modFn w _).msix w _

theorem cqRaw (s : State) (w : World) (n : Nat) (e : Compl) : s.OnlyHost (s.cqRaw w n e) := by
  have hplaced := fun f => ((OnlyHost.refl s).hostWrite ((s.cq w n).base + 32 * (s.cq w n).tail.idx)
    (e.bytes (s.sq w e.sq).head.word (!(s.cq w n).tail.wrap))).modCq w n f
  rcases State.cqRaw_cases s w n e with h | h <;> rw [h]
  · exact hplaced _
  · exact ((hplaced _).modCq w n _).msix w _

/-- An entry placed in a queue changes host memory, the queues, and what is sent. -/
theorem cqPut (s : State) (w : World) (n : Nat) (e : Compl) (hev : bitAt (s.fn w).accepted 8 = false) : s.OnlyHost (s.cqPut w n e) := by
  rcases State.cqPut_cases s w n e hev with h | h <;> rw [h]
  · exact cqRaw s w n e
  · exact (cqRaw s w n e).qmEvent w 0

/-- What stays as it was. -/
theorem kept (h : s.OnlyHost t) : t.atts = s.atts ∧ t.drives = s.drives ∧ t.pantry = s.pantry ∧ t.img = s.img ∧ ∀ c, t.ctx c = s.ctx c := by
  obtain ⟨m, qm, f, o, rfl⟩ := h
  exact ⟨rfl, rfl, rfl, rfl, fun _ => rfl⟩

end State.OnlyHost

/-- The leases, the session and the record of a context that holds none end: it is FREE. -/
theorem State.ctxFree_plain {s : State} {c : Nat} {y : Ccw} {loc cq last : Nat} (hp : (s.ctx c).EndsPlainly y loc cq last)
    (hh : (s.qm.get (s.home c)).haltWait = none) :
    s.Aside (s.ctxFree c) ∧ ((s.ctxFree c).ctx c).state = .free ∧ ((s.ctxFree c).ctx c).lastStatus = last := by
  have hends : s.ctxLeasesEnd c = (s.leaveWithdrawOwner (.context c)).flverRelease c := by
    unfold State.ctxLeasesEnd
    rw [hp.leases]
    rfl
  have hplain := State.flverRelease_plain (s := s.leaveWithdrawOwner (.context c)) (c := c) (y := y) (loc := loc) (cq := cq) (last := last)
    (by rw [State.leaveWithdrawOwner, State.leaveWithdraw_ctx]; exact hp)
  have haside : s.Aside ((s.leaveWithdrawOwner (.context c)).flverRelease c) := (State.Aside.leaveWithdraw s _).trans (.flverRelease _ c)
  unfold State.ctxFree
  dsimp only
  rw [hends]
  generalize (s.leaveWithdrawOwner (.context c)).flverRelease c = v at hplain haside
  have hclose : v.flintClose c = v := by simp [State.flintClose, hplain.flint]
  rw [hclose, State.modCtx_qm, haside.kept.2.2.2.2.1, hh]
  refine ⟨haside.trans (.modCtx ..), ?_, ?_⟩
  · rw [State.ctx_modCtx_self]
    rfl
  · rw [State.ctx_modCtx_self]
    exact hplain.lastStatus

theorem State.cqRaw_haltWait (s : State) (w : World) (n : Nat) (e : Compl) (u : World) :
    ((s.cqRaw w n e).qm.get u).haltWait = (s.qm.get u).haltWait := by
  have hmod : ∀ (t : State) (f : Cq → Cq), ((t.modCq w n f).qm.get u).haltWait = (t.qm.get u).haltWait := by
    intro t f
    cases w <;> cases u <;> rfl
  rcases State.cqRaw_cases s w n e with h | h <;> rw [h]
  · exact hmod _ _
  · rw [State.cqAnnounce, State.msix_qm, hmod]
    exact hmod _ _

/-- The final status of a program is placed, and its context is FREE. -/
theorem State.programGone_plain {s : State} {c : Nat} {y : Ccw} {loc cq last : Nat} (posted : Bool) (hp : (s.ctx c).EndsPlainly y loc cq last)
    (hh : (s.qm.get (s.home c)).haltWait = none) :
    ∃ u, (u = s ∨ ∃ q f, u = s.modSq (s.home c) q f) ∧ u.Aside (s.programGone c posted) ∧ ((s.programGone c posted).ctx c).state = .free
      ∧ ((s.programGone c posted).ctx c).lastStatus = last := by
  unfold State.programGone
  dsimp only
  rw [hp.group]
  dsimp only
  split
  · refine ⟨_, .inr ⟨_, _, rfl⟩, State.ctxFree_plain hp ?_⟩
    generalize (s.ctx c).bindSq = q
    generalize hw : s.home c = w at hh
    rw [show (s.modSq w q (fun q => { q with live := q.live - 1 })).home c = w from hw]
    cases w <;> exact hh
  · exact ⟨s, .inl rfl, State.ctxFree_plain hp hh⟩

/-- What the end of a program leaves when its one final status finds room. -/
theorem State.programEnd_plain {s : State} {c : Nat} {y : Ccw} {loc cq last : Nat} (hp : (s.ctx c).EndsPlainly y loc cq last) (flags : Nat)
    (hprobe : s.isProbe c = false) (hres : s.isResident c = false) (hopen : s.cqOpen (s.home c) cq = true)
    (hwaits : s.cqWaits (s.home c) cq = false) (hev : bitAt (s.fn (s.home c)).accepted 8 = false) (hh : (s.qm.get (s.home c)).haltWait = none) :
    let t := s.programEnd c { status := 0, unit := 0, addr := loc, residual := 0, flags := flags }
    (t.ctx c).state = .free ∧ (t.ctx c).lastStatus = last ∧ t.atts = s.atts ∧ t.drives = s.drives ∧ t.pantry.mem = s.pantry.mem
      ∧ (t.cq (s.home c) cq).tail = (s.cq (s.home c) cq).tail.add (s.cq (s.home c) cq).depth 1
      ∧ ∃ e : Compl, e.body = ({ addr := loc, residual := 0, status := 0, flags := flags ||| fFinal, unit := 0 } : Block).bytes
        ∧ ∃ head, t.hostMem = hostWriteOf s.hostMem ((s.cq (s.home c) cq).base + 32 * (s.cq (s.home c) cq).tail.idx)
          (e.bytes head (!(s.cq (s.home c) cq).tail.wrap)) := by
  have hcount : s.Aside (s.countFinal c 0) := by
    unfold State.countFinal
    exact .countBoth ..
  have hctx : (s.countFinal c 0).ctx c = s.ctx c := by
    unfold State.countFinal State.countBoth
    rw [if_pos rfl, State.countLane_ctx]
    rfl
  have hend : s.programEnd c { status := 0, unit := 0, addr := loc, residual := 0, flags := flags } =
      ((s.countFinal c 0).cqPut (s.home c) cq ((s.countFinal c 0).statusCompl c
        { addr := loc, residual := 0, status := 0, flags := flags ||| fFinal, unit := 0 } 1)).programGone c true := by
    obtain ⟨_, _, _, _, hqm, hovf, hwait, _, _, _⟩ := hcount.kept
    have hput := State.complete_of_open (s := s.countFinal c 0) (w := s.home c) (n := cq) ((s.countFinal c 0).statusCompl c
        { addr := loc, residual := 0, status := 0, flags := flags ||| fFinal, unit := 0 } 1)
      (by rw [← hopen]; unfold State.cqOpen State.cq State.storeOf; rw [hqm, hovf])
      (by rw [← hwaits]; unfold State.cqWaits; rw [hwait])
    unfold State.programEnd
    simp only [hp.asyncCcw, Ending.withAsync, hprobe, hres, hp.group, Option.isSome_none, Bool.false_and, Bool.false_eq_true, if_false,
      hp.queue, hp.orphaned, State.completeOld, hput, if_true]
  rw [hend]
  clear hend
  obtain ⟨hatts, hdrives, hmem, hhost, hqm, _, _, hfns, himg, _⟩ := hcount.kept
  generalize s.countFinal c 0 = v at *
  have hbody : (v.statusCompl c { addr := loc, residual := 0, status := 0, flags := flags ||| fFinal, unit := 0 } 1).body
    = ({ addr := loc, residual := 0, status := 0, flags := flags ||| fFinal, unit := 0 } : Block).bytes := rfl
  generalize v.statusCompl c { addr := loc, residual := 0, status := 0, flags := flags ||| fFinal, unit := 0 } 1 = e at hbody
  have hevv : bitAt (v.fn (s.home c)).accepted 8 = false := by rw [← hev]; unfold State.fn; rw [hfns]
  have hcq : v.cq (s.home c) cq = s.cq (s.home c) cq := by unfold State.cq; rw [hqm]
  obtain ⟨ratts, rdrives, rpn, rimg, rctx⟩ := (State.OnlyHost.cqPut v (s.home c) cq e hevv).kept
  have rtail := State.cqRaw_tail v (s.home c) cq e
  have rhost := (State.cqPut_hostMem v (s.home c) cq e hevv).trans (State.cqRaw_hostMem v (s.home c) cq e)
  have rhalt := State.cqRaw_haltWait v (s.home c) cq e (s.home c)
  have rqm := State.cqPut_qm v (s.home c) cq e hevv
  rw [hqm, hh] at rhalt
  rw [hcq] at rtail rhost
  have rcq : (v.cqPut (s.home c) cq e).cq (s.home c) cq = (v.cqRaw (s.home c) cq e).cq (s.home c) cq := by unfold State.cq; rw [rqm]
  have rhome : (v.cqPut (s.home c) cq e).home c = s.home c := State.home_congr (rimg.trans himg) c
  generalize v.cqPut (s.home c) cq e = r at *
  obtain ⟨u, hu, haside, hfree, hlast⟩ := State.programGone_plain (s := r) (c := c) (y := y) (loc := loc) (cq := cq) (last := last) true
    (by rw [rctx, hctx]; exact hp) (by rw [rhome, rqm]; exact rhalt)
  have hkept : u.atts = r.atts ∧ u.drives = r.drives ∧ u.pantry = r.pantry ∧ u.hostMem = r.hostMem
      ∧ u.cq (s.home c) cq = r.cq (s.home c) cq := by
    rcases hu with rfl | ⟨q, f, rfl⟩
    · exact ⟨rfl, rfl, rfl, rfl, rfl⟩
    · exact ⟨rfl, rfl, rfl, rfl, State.cq_modSq ..⟩
  obtain ⟨uatts, udrives, upn, uhost, ucq⟩ := hkept
  obtain ⟨gatts, gdrives, gmem, ghost, gqm, _⟩ := haside.kept
  refine ⟨hfree, hlast, ?_, ?_, ?_, ?_, e, hbody, (v.sq (s.home c) e.sq).head.word, ?_⟩
  · rw [gatts, uatts, ratts, hatts]
  · rw [gdrives, udrives, rdrives, hdrives]
  · rw [gmem, upn, rpn, hmem]
  · rw [show (r.programGone c true).cq (s.home c) cq = u.cq (s.home c) cq by unfold State.cq; rw [gqm], ucq, rcq, rtail]
  · rw [ghost, uhost, rhost, hhost]

/-- The first 16 bytes of an entry are those of its status block. -/
theorem Compl.bytes_body {e : Compl} {b : Block} (h : e.body = b.bytes) (head : Nat) (phase : Bool) : (e.bytes head phase).take 16 = b.bytes := by
  have hlen : b.bytes.length = 16 := by simp [Block.bytes]
  have htake : ∀ l : List Byte, (b.bytes ++ l).take 16 = b.bytes := fun l => List.take_left' hlen
  unfold Compl.bytes
  simp only [h, List.append_assoc, htake]

/-! ### NOP without command chaining (R87, R99) -/

/-- A NOP that passes its checks is in no data chain and has no deadline of its own (R93). -/
theorem Ccw.nop_flags {y : Ccw} {x : Ctx} {resident slave : Bool} (hcode : y.code = 6) (h : y.check x resident false slave = none) :
    y.cd = false ∧ y.dln = false := by
  have hflags : y.flags &&& 0xE5 = 0 := by
    unfold Ccw.check at h
    dsimp only at h
    rw [if_neg (show ¬ y.code = 0xC by omega)] at h
    split at h
    · exact absurd h (Option.some_ne_none _)
    split at h
    · exact absurd h (Option.some_ne_none _)
    split at h
    · exact absurd h (Option.some_ne_none _)
    next hgood =>
      rw [hcode] at hgood
      by_contra hne
      exact hgood (by simp [flagsAccepted, hne])
  have hbit : ∀ i, (0xE5 : Nat).testBit i = true → bitAt y.flags i = false := by
    intro i hi
    have := congrArg (fun n => n.testBit i) hflags
    rw [Nat.testBit_and, hi, Bool.and_true] at this
    rw [bitAt_eq_testBit]
    simpa using this
  exact ⟨hbit 0 rfl, hbit 7 rfl⟩

/-- Settles O23: the NOP begins, ends with SUCCESS and both events, and its program's one final status takes the place of the ring's tail. -/
theorem programEndsWithFinalStatus : Obligations.ProgramEndsWithFinalStatus := by
  intro s c y h hun hw hcode hcc hpost q
  obtain ⟨hcd, hdln⟩ := Ccw.nop_flags hcode hw.1
  obtain ⟨u, hr, hb⟩ := h.begins hw hdln (by simp [State.portHandlerAbsent, hcode])
  rw [hcode] at hb
  have hexec : exec (.nop c) s = .next ((u.modCtx c (Ctx.begunAs y)).ccwFinish c {}) := by
    show Host.Outcome.next ((s.ccwBegin c 6).run s (fun _ _ t => t.ccwFinish c {})) = _
    rw [hb]
    rfl
  refine ⟨_, hexec, ?_⟩
  obtain ⟨hstores, hlocks, hwait, hvisit, hasync, -, hsoft, -, -, -, hlands, hpackets, hanswers⟩ := hun
  obtain ⟨hres, hgroup, horph, hleases, hflint, hactive, hfull, hstore, hwaits, hhalt, hev⟩ := hpost
  obtain ⟨-, -, hact, -, hmem, hprobe, -⟩ := h
  have hctx : (u.modCtx c (Ctx.begunAs y)).ctx c = (s.ctx c).begunAs y := by rw [State.ctx_modCtx_self, hr.ctx]
  have haside : s.Aside (u.modCtx c (Ctx.begunAs y)) := (State.Aside.of_readFrom hr).trans (.modCtx ..)
  generalize u.modCtx c (Ctx.begunAs y) = v at hctx haside
  have hlate : v.lateSoft c = false := by
    unfold State.lateSoft
    rw [hctx]
    simp [Ctx.begunAs, hsoft]
  have hnow : v.now ≤ (v.ctx c).deadline := by
    rw [hctx, show v.now = s.now from haside.now]
    exact hw.2.2.2.2
  have hpast : v.latePast c = false := by
    have hans : v.answered c = none := by
      unfold State.answered
      rw [hctx]
      simp [Ctx.begunAs, hcode]
    simp [State.latePast, State.deadlinePast, hans, hnow]
  obtain ⟨hatts, hdrives, hpn, hhost, hqm, hovf, hovfw, hfns, himg, hl⟩ := haside.kept
  have hplain : (v.ctx c).EndsPlainly y (s.ctx c).ccwAddr (s.ctx c).cq (s.ctx c).lastStatus := by
    rw [hctx]
    exact ⟨rfl, rfl, rfl, horph, hgroup, hasync, hleases, hflint, rfl, rfl, rfl, rfl, hmem, hlocks⟩
  have hunw : v.Unwaiting c := by
    refine ⟨hl.trans hlands, ?_, ?_, ?_, hatts ▸ hpackets, hdrives ▸ hanswers⟩ <;> rw [hctx]
    · exact hwait
    · exact hvisit
    · exact hact
  obtain ⟨w, hvw, hwp, hfin⟩ := hunw.ccwFinish hplain (by rw [hctx]; exact hstores) hpast hlate hcd hcc
  obtain ⟨watts, wdrives, wpn, whost, wqm, wovf, wovfw, wfns, wimg, -⟩ := (haside.trans hvw).kept
  have hhome : w.home c = s.home c := State.home_congr wimg c
  have hcq : w.cq (s.home c) (s.ctx c).cq = q := by unfold q State.cq; rw [wqm]
  rw [hfin]
  obtain ⟨hfree, hlast, tatts, tdrives, tpn, ttail, e, hbody, head, thost⟩ := State.programEnd_plain (s := w) hwp 3
    (by rw [← hprobe]; unfold State.isProbe; rw [hhome, State.wcfg, wimg]; rfl)
    (by rw [← hres]; unfold State.isResident State.wcfg; rw [wimg])
    (by
      rw [hhome]
      unfold State.cqOpen
      rw [hcq, show w.storeOf (s.home c) (s.ctx c).cq = [] by rw [← hstore]; unfold State.storeOf; rw [wovf]]
      simp [hactive, hfull, q])
    (by rw [hhome, ← hwaits]; unfold State.cqWaits; rw [wovfw]) (by rw [hhome, ← hev]; unfold State.fn; rw [wfns])
    (by rw [hhome, wqm]; exact hhalt)
  rw [hhome, hcq] at ttail thost
  rw [whost] at thost
  refine ⟨⟨hfree, ttail, ?_⟩, hlast, tpn.trans wpn, tatts.trans watts, tdrives.trans wdrives, fun a ha => ?_⟩
  · rw [thost, ← hostBytesOf_take _ _ (by decide : 16 ≤ 32), ← Compl.bytes_length e head (!q.tail.wrap), hostBytesOf_write]
    exact Compl.bytes_body hbody _ _
  · rw [thost]
    exact hostByteOf_write_of_out _ _ _ (by rw [Compl.bytes_length]; exact ha)

end Sys2Proof.Machine

namespace Sys2Proof.Machine

/-! ### A read of no byte in a partner block (R10, log 115) -/

/-- A supervisor's read of no byte at an address of a partner block that is not aligned to 64 bits is reported as an access that R10 refuses. -/
theorem State.hRead_empty {s : State} {c a m : Nat} (hm : s.partnerAt c a = some m) (hodd : (a - Tbl.get 0 s.img.mbAddr m) % 8 ≠ 0) :
    s.hRead c a 0 = ([], none, s.report (faultMsg 107 m 0x05 (0x200000 + 256 * m + (a - Tbl.get 0 s.img.mbAddr m)) (s.mbWorld m) false)) := by
  have hmis : mbMisaligned (a - Tbl.get 0 s.img.mbAddr m) 0 = true := by simp [mbMisaligned, hodd]
  have hmeets : s.meetsPartner (s.ctx c) a 0 = false := by simp [State.meetsPartner, blockParts]
  unfold State.hRead
  rw [hmeets, if_neg Bool.false_ne_true, State.hReadPart_eq, hm]
  simp [State.mbPartnerRead, State.mbPartnerFault, hmis]

/-- The partner block at an address asks for the image and the level of the context. -/
theorem State.partnerAt_congr {s t : State} {c : Nat} (himg : t.img = s.img) (hc : (t.ctx c).st = (s.ctx c).st) (a : Nat) :
    t.partnerAt c a = s.partnerAt c a := by
  have hw : ∀ m, t.mbWorld m = s.mbWorld m := fun m => by unfold State.mbWorld; rw [himg]
  have hp : ∀ m, t.mbPartner m = s.mbPartner m := fun m => by unfold State.mbPartner State.flashMb State.wcfg; simp only [hw, himg]
  unfold State.partnerAt Ctx.super1 Ctx.world State.mbBlockAt
  simp only [hw, hp, himg, hc]

theorem State.modCtx_sameRights (s : State) (c : Nat) (f : Ctx → Ctx) : s.SameRights (s.modCtx c f) := ⟨rfl, rfl, rfl⟩

theorem State.SameRights.trans {s t u : State} (h : s.SameRights t) (h' : t.SameRights u) : s.SameRights u :=
  ⟨h'.img.trans h.img, h'.xlat.trans h.xlat, h'.xlatBad.trans h.xlatBad⟩

/-- The state with other fault reports waiting. -/
def State.withBuf (s : State) (l : List Report) : State := { s with fc := { s.fc with buf := l } }

theorem State.withBuf_frame (s : State) (l : List Report) : s.SameRights (s.withBuf l) ∧ (s.withBuf l).pantry = s.pantry
    ∧ (s.withBuf l).fc.buf = l ∧ ∀ c, (s.withBuf l).ctx c = s.ctx c := ⟨⟨rfl, rfl, rfl⟩, rfl, rfl, fun _ => rfl⟩

theorem State.report_empty {s : State} (h : s.fc.buf = []) (m : W64) : s.report m none = s.withBuf [{ msg := m, ctx := none }] := by
  rw [State.report_room (by rw [h]; exact Nat.succ_pos 3), h]
  rfl

theorem State.ReadFrom.fc {s u : State} (h : s.ReadFrom u) : u.fc = s.fc := by
  obtain ⟨⟨st, k, e, rfl⟩, _⟩ := h
  rfl

theorem PantryRange.read {s u : State} {c a n : Nat} {k : AccKind} (h : PantryRange s c k a n) (hr : s.ReadFrom u) : PantryRange u c k a n :=
  h.congr hr.sameRights (by rw [hr.ctx]) (by rw [hr.ctx])

/-- An answered FLVER whose message has no byte and lies at an odd address of a partner block leaves a report behind. -/
theorem flverBlock_reports {s : State} {c m : Nat} {rd ra : Reg} {d : List Byte} {x : Ctx} (hx : s.ctx c = x) (hans : x.answer = .verified)
    (hlease : x.flverLease = none) (hlen : fieldAt d 8 8 = 0) (hm : s.partnerAt c (fieldAt d 0 8) = some m)
    (hodd : (fieldAt d 0 8 - Tbl.get 0 s.img.mbAddr m) % 8 ≠ 0) (hmsg : PantryRange s c .read (fieldAt d 0 8) 0)
    (hsig : PantryRange s c .read (fieldAt d 16 8) 29792) (hkey : PantryRange s c .read (fieldAt d 24 8) 64)
    (hgs : GoodRead s (fieldAt d 16 8) 29792) (hgk : GoodRead s (fieldAt d 24 8) 64) (hbuf : s.fc.buf = []) :
    ∃ u v, flverBlock s c x ⟨rd, ra, 0⟩ d = retireW u rd v ∧ u.fc.buf ≠ [] ∧ x.Changes (u.ctx c) := by
  have hexc : s.flverExc c [(fieldAt d 0 8, fieldAt d 8 8), (fieldAt d 16 8, 29792), (fieldAt d 24 8, 64)] = none := by
    rw [hlen]
    simp [State.flverExc, State.rangeExc_none hmsg, State.rangeExc_none hsig, State.rangeExc_none hkey]
  have hrel : s.flverRelease c = s := by
    unfold State.flverRelease
    rw [hx, hlease]
  have hctx := State.ctx_modCtx_self s c (fun y => { y with answer := .none })
  have hrights := State.modCtx_sameRights s c (fun y => { y with answer := .none })
  have hpn := State.modCtx_pantry s c (fun y => { y with answer := .none })
  have hfc := State.modCtx_fc s c (fun y => { y with answer := .none })
  unfold flverBlock
  dsimp only
  rw [if_pos hans, hrel, hexc]
  dsimp only
  rw [if_neg (not_not_intro hans), hlen]
  generalize s.modCtx c (fun y => { y with answer := .none }) = t at hctx hrights hpn hfc
  rw [State.hRead_empty (by rw [State.partnerAt_congr hrights.img (by rw [hctx])]; exact hm) (by rw [hrights.img]; exact hodd),
    State.report_empty (by rw [hfc]; exact hbuf)]
  dsimp only
  obtain ⟨hr2, hp2, hb2, hc2⟩ := t.withBuf_frame [⟨faultMsg 107 m 0x05 (0x200000 + 256 * m + (fieldAt d 0 8 - Tbl.get 0 t.img.mbAddr m))
    (t.mbWorld m) false, none⟩]
  generalize t.withBuf _ = v at hr2 hp2 hb2 hc2 ⊢
  have hvr := hrights.trans hr2
  have hvc : v.ctx c = { s.ctx c with answer := .none } := (hc2 c).trans hctx
  have hgood : ∀ a n, GoodRead s a n → GoodRead v a n := fun a n h b hb => (State.pnBad_congr hvr.img (hp2.trans hpn) b).trans (h b hb)
  have hrange : ∀ a n, PantryRange s c .read a n → PantryRange v c .read a n := fun a n h =>
    h.congr hvr (by rw [hvc]; rfl) (by rw [hvc]; rfl)
  obtain ⟨w, hw, hvw⟩ := State.hRead_range (hrange _ _ hsig) (by omega) (hgood _ _ hgs)
  obtain ⟨z, hz, hwz⟩ := State.hRead_range ((hrange _ _ hkey).read hvw) (by omega) (hvw.goodRead.mpr (hgood _ _ hgk))
  rw [hw]
  dsimp only
  rw [hz]
  refine ⟨z, _, rfl, ?_, ?_⟩
  · rw [hwz.fc, hvw.fc, hb2]
    exact List.cons_ne_nil _ _
  · rw [hwz.ctx, hvw.ctx, hvc, hx]
    exact ⟨rfl, rfl, rfl, rfl, rfl⟩

/-! ### A verification of an empty message in a partner block (R10, R167) -/

/-- A supervisor of Slate executes an answered FLVER whose block, at 0x10000, names a message of no byte at an odd address of the partner block of
mailbox 0, a signature at 0x10200 and a key at 0x10080. -/
def emptyInPartner : State :=
  { ctxs := [(0, { state := .running, act := some { code := 10, tgt := 0, att := none }, st := 4, regs := [(1, 0x10000)], answer := .verified })]
    pantry := { mem := [(0x10000, 1), (0x10002, 3), (0x10011, 2), (0x10012, 1), (0x10018, 0x80), (0x1001A, 1)] }
    img := { ctxMap := 1, cap := 0x20000, mbMap := 1, mbAddr := [(0, 0x30000)]
             regions := [{ base := 0, len := 0x10000, world := .slate }, { base := 0x10000, len := 0x10000, world := .slate }]
             worlds := ⟨{ attrs := [(0, 3)], partner := [(0, 1)] }, {}⟩ } }

theorem issues_emptyInPartner : Issues emptyInPartner 0 := by unfold Issues; (repeat' apply And.intro) <;> decide

theorem pnBad_emptyInPartner (b : Nat) : emptyInPartner.pnBad b = false := rfl

/-- FLVER reads its block and goes on with it. -/
theorem Issues.flver {s : State} {c : Nat} {rd ra : Reg} (h : Issues s c) (hrep : (s.ctx c).rep = false) {a : Nat}
    (ha : ((s.ctx c).g ra).toNat = a) (halign : a % 8 = 0) (hr : PantryRange s c .read a 32) (hg : GoodRead s a 32) :
    ∃ u, s.ReadFrom u ∧ exec (.flver c ⟨rd, ra, 0⟩) s = .next (s.instrEnd c (flverBlock u c (s.ctx c) ⟨rd, ra, 0⟩ (Memory.bytes 0 s.pantry.mem a 32))) := by
  have hf := h.readFrom
  obtain ⟨u, hu, hfu⟩ := State.hRead_range (hr.read hf) (by omega) (hf.goodRead.mpr hg)
  rw [hf.mem] at hu
  refine ⟨u, hf.trans hfu, congrArg Host.Outcome.next ((h.instr_eq (h.allows_norep hrep) _).trans (congrArg (s.instrEnd c) ?_))⟩
  dsimp only
  rw [ha]
  simp only [legal, decide_true, if_true, halign, ne_eq, not_true_eq_false, if_false, State.rangeExc_none (hr.read hf), hu]

/-- In the second region of the state every byte may be read, and no partner block lies there. -/
theorem range_emptyInPartner (a n : Nat) (h : 0x10000 ≤ a) (h1 : a + n ≤ 0x20000) : PantryRange emptyInPartner 0 .read a n := by
  refine ⟨by unfold windowBase; omega, fun i hi => ⟨?_, fun _ => ?_⟩⟩
  · have hplace : emptyInPartner.place (a + i) = .region .slate 0 := by
      have hfind : findRegion (a + i) emptyInPartner.img.regions 0 = some (1, { base := 0x10000, len := 0x10000, world := .slate }) := by
        show findRegion (a + i) [{ base := 0, len := 0x10000, world := .slate }, { base := 0x10000, len := 0x10000, world := .slate }] 0 = _
        unfold findRegion
        rw [if_neg (show ¬ (0 ≤ a + i ∧ a + i < 0 + 0x10000) by omega)]
        unfold findRegion
        rw [if_pos (show 0x10000 ≤ a + i ∧ a + i < 0x10000 + 0x10000 by omega)]
      unfold State.place
      rw [if_pos (show a + i < windowBase by unfold windowBase; omega), if_pos (show a + i < emptyInPartner.img.cap from (by omega : a + i < 0x20000)), hfind]
      rfl
    unfold State.deny
    rw [hplace]
    rfl
  · have hmb : ∀ m, Tbl.get 0 emptyInPartner.img.mbAddr m ≤ a + i → a + i < Tbl.get 0 emptyInPartner.img.mbAddr m + 256 → False := by
      intro m h2 h3
      have hget : Tbl.get 0 emptyInPartner.img.mbAddr m = if m = 0 then 0x30000 else 0 := Tbl.get_cons ..
      rw [hget] at h2 h3
      by_cases hm : m = 0
      · rw [if_pos hm] at h2
        omega
      · rw [if_neg hm] at h3
        omega
    unfold State.mbBlockAt
    rw [List.find?_eq_none]
    intro m _ hm
    simp only [Bool.and_eq_true, decide_eq_true_eq] at hm
    obtain ⟨⟨_, h2⟩, h3⟩ := hm
    exact hmb m h2 h3

theorem flverFields_emptyInPartner : let d := Memory.bytes 0 emptyInPartner.pantry.mem 0x10000 32
    fieldAt d 0 8 = 0x30001 ∧ fieldAt d 8 8 = 0 ∧ fieldAt d 16 8 = 0x10200 ∧ fieldAt d 24 8 = 0x10080 := by decide

/-- Refutes O19: an answered FLVER whose message has no byte, at an odd address of a partner block of its supervisor, is reported as a narrow access
to that block (R10, log 115): the Fault Collector's buffer has changed beside the context. -/
theorem not_flintAbsorbsAndVerifies : ¬ Obligations.FlintAbsorbsAndVerifies := by
  rintro ⟨-, hver⟩
  have hi := issues_emptyInPartner
  have hgood : ∀ a n, GoodRead emptyInPartner a n := fun a n b _ => pnBad_emptyInPartner b
  have hempty : PantryRange emptyInPartner 0 .read 0x30001 0 := ⟨by decide, fun i hi => absurd hi (Nat.not_lt_zero i)⟩
  have hblock := range_emptyInPartner 0x10000 32 (by omega) (by omega)
  have hsig := range_emptyInPartner 0x10200 29792 (by omega) (by omega)
  have hkey := range_emptyInPartner 0x10080 64 (by omega) (by omega)
  obtain ⟨h0, h1, h2, h3⟩ := flverFields_emptyInPartner
  obtain ⟨u, hu, hexec⟩ := Issues.flver (rd := 2) (ra := 1) hi rfl (a := 0x10000) rfl rfl hblock (hgood _ _)
  obtain ⟨w, v, hw, hbuf, hch⟩ := flverBlock_reports (s := u) (c := 0) (m := 0) (rd := 2) (ra := 1) (x := emptyInPartner.ctx 0) (hu.ctx 0) rfl rfl h1
    (by rw [h0, State.partnerAt_congr hu.fixed.1 (by rw [hu.ctx])]; decide) (by rw [h0, hu.fixed.1]; decide) (h0 ▸ hempty.read hu)
    (h2 ▸ hsig.read hu) (h3 ▸ hkey.read hu) (hu.goodRead.mpr (hgood _ _)) (hu.goodRead.mpr (hgood _ _)) (by rw [hu.fc]; rfl)
  rw [hw] at hexec
  rw [← h0, ← h1] at hempty
  rw [← h2] at hsig
  rw [← h3] at hkey
  obtain ⟨hans, -⟩ := hver emptyInPartner 0 2 1 hi rfl rfl hblock hempty hsig hkey (hgood _ _) (hgood _ _) (hgood _ _) (hgood _ _)
  obtain ⟨t, ht, -, -, -, -, ⟨-, hb⟩, -⟩ := hans rfl
  rw [hexec] at ht
  cases ht
  have hret := hi.retiredFrom (u := w) (r := { writes := [(2, v)] }) rfl rfl hch
  have hfc : (emptyInPartner.instrEnd 0 (.retire { writes := [(2, v)] } w)).fc = w.fc := (congrArg State.fc hret.rest :)
  have hkept : (emptyInPartner.instrEnd 0 (.retire { writes := [(2, v)] } w)).fc = (emptyInPartner.flverRelease 0).fc := (congrArg State.fc hb :)
  exact hbuf (congrArg (fun k => k.buf) (hfc.symm.trans hkept))

end Sys2Proof.Machine

namespace Sys2Proof.Machine

/-! ### The checksum unit (R152, R165) -/

/-- CRC writes the running value of its algorithm. -/
theorem Issues.crc {s : State} {c : Nat} {f : FmtA} {alg : BitVec 4} {size : BitVec 2} {v : Nat} (h : Issues s c) (hlegal : ¬ (alg = 5 ∧ size = 0))
    (hv : crcUpdate alg.toNat ((s.ctx c).g f.ra).toNat (leBytes (2 ^ size.toNat) ((s.ctx c).g f.rb).toNat) = some v) :
    Completes (.crc c f alg size 0) s (fun t => WritesReg s t c f.rd (BitVec.ofNat 64 v) ∧ RegFrame s t c) := by
  refine ⟨_, congrArg Host.Outcome.next ((h.instr_eq h.allows_any _).trans (congrArg (s.instrEnd c) ?_)), h.retireW f.rd (BitVec.ofNat 64 v)⟩
  simp only [legal, decide_true, if_true, hv, hlegal, if_false]

/-- An instruction that leaves its context with other registers retires. -/
theorem Issues.retiredFrom_regs {s u : State} {c : Nat} {l : Tbl W64} (h : Issues s c) {r : Ret} (hs : r.stay = false) (hy : r.yield = false)
    (hc : u.ctx c = (s.ctx c).withRegs l) : u.RetiredFrom c r (s.instrEnd c (.retire r u)) := by
  obtain ⟨_, _, _, hasync, hdue, hslot, _, _⟩ := h
  have ht := State.instrEnd_retire (s := s) (t := u) (c := c) (r := r) hs hy ((congrArg Ctx.due hc :).trans hdue)
    ((congrArg Ctx.asyncErr hc :).trans hasync) ((congrArg Ctx.slotDue hc :).trans hslot)
  rw [ht]
  exact ⟨State.ctx_modCtx_self .., fun d hd => State.ctx_modCtx_ne _ _ hd, by
    unfold State.modCtx State.setCtx State.countWorld State.countBank
    rfl⟩

/-- The registers after an element of CRCB: the running value, and the cursors past its bytes. -/
def Ctx.checked (x : Ctx) (f : FmtA) (v k : Nat) : Ctx :=
  ((x.setG f.rd (BitVec.ofNat 64 v)).setG f.ra (x.g f.ra + BitVec.ofNat 64 k)).setG f.rb (x.g f.rb - BitVec.ofNat 64 k)

theorem Ctx.checked_eq (x : Ctx) (f : FmtA) (v k : Nat) : x.checked f v k = x.withRegs (x.checked f v k).regs := by
  unfold Ctx.checked
  rw [Ctx.setG_eq, Ctx.setG_eq (x.setG f.rd (BitVec.ofNat 64 v)), Ctx.setG_eq x]
  rfl

/-- A block of up to 64 bytes is one element of CRCB. -/
theorem crcbRun_one {s u : State} {c n alg v limit : Nat} {f : FmtA} {d : List Byte} (hrb : f.rb ≠ 0) (hn : ((s.ctx c).g f.rb).toNat = n) (h0 : 1 ≤ n)
    (h64 : n ≤ 64) (hlimit : 1 ≤ limit) (hr : PantryRange s c .read ((s.ctx c).g f.ra).toNat n)
    (hu : s.hRead c ((s.ctx c).g f.ra).toNat n = (d, none, u)) (hc : u.ctx c = s.ctx c) (hv : crcUpdate alg ((s.ctx c).g f.rd).toNat d = some v) :
    crcbRun f alg c limit 0 s = .retire {} (u.modCtx c (fun y => y.checked f v n)) := by
  obtain ⟨fuel, rfl⟩ : ∃ fuel, limit = fuel + 1 := ⟨limit - 1, by omega⟩
  have hk : Nat.min 64 n = n := Nat.min_eq_right h64
  have hzero : (((u.modCtx c (fun y => y.checked f v n)).ctx c).g f.rb).toNat = 0 := by
    rw [State.ctx_modCtx_self, hc, Ctx.checked, Ctx.g_setG _ _ hrb, if_pos rfl, toNat_sub_ofNat (by omega), hn, Nat.sub_self]
  have hstep : u.modCtx c (fun y => ((y.setG f.rd (BitVec.ofNat 64 v)).setG f.ra ((s.ctx c).g f.ra + BitVec.ofNat 64 n)).setG f.rb
      ((s.ctx c).g f.rb - BitVec.ofNat 64 n)) = u.modCtx c (fun y => y.checked f v n) := by
    unfold State.modCtx Ctx.checked
    rw [hc]
  unfold crcbRun
  dsimp only
  rw [hn, if_neg (by omega), hk, State.rangeExc_none hr]
  dsimp only
  rw [hu]
  dsimp only
  rw [hv, Option.getD_some, hstep]
  unfold crcbRun
  dsimp only
  rw [if_pos hzero]
  rfl

theorem checksumUnit : ChecksumUnit := by
  intro s c f alg
  refine ⟨fun size v h hlegal hv => h.crc hlegal hv, ?_⟩
  intro limit v h hdel hrd hra hrb hda hdb hab n h0 h64 hlimit heven hr hg hv
  have hf := h.1.readFrom
  obtain ⟨u, hu, hfu⟩ := State.hRead_range (hr.read hf) (by omega) (hf.goodRead.mpr hg)
  rw [hf.mem] at hu
  have hsu := hf.trans hfu
  have halg : alg.toNat < 8 := by
    by_contra hge
    have hnone : ∀ k w d, 8 ≤ k → crcUpdate k w d = none := by
      intro k w d hk
      obtain ⟨j, rfl⟩ : ∃ j, k = j + 8 := ⟨k - 8, by omega⟩
      rfl
    rw [hnone _ _ _ (by omega)] at hv
    exact Option.some_ne_none _ hv.symm
  have hodd : ¬ (alg = 5 ∧ ((s.ctx c).g f.rb).toNat % 2 = 1) := fun ⟨h5, h1⟩ => by
    have := heven h5
    omega
  have hctx : (s.fetched c).ctx c = s.ctx c := State.fetched_ctx ..
  have hrun : crcbRun f alg.toNat c limit 0 (s.fetched c) = .retire {} (u.modCtx c (fun y => y.checked f v n)) :=
    crcbRun_one hrb (by rw [hctx]) h0 h64 hlimit (by rw [hctx]; exact hr.read hf) (by rw [hctx]; exact hu) (hfu.ctx c) (by rw [hctx]; exact hv)
  have hretire : s.instr c blockPlace (fun t x => legal (decide ((0 : BitVec 4) = 0) && decide ((0 : BitVec 2) = 0) && decide (alg.toNat < 8)) t
      (if alg = 5 ∧ (x.g f.rb).toNat % 2 = 1 then .exc (excOperand f.rb) t else crcbRun f alg.toNat c (x.elements limit) 0 t))
      = s.instrEnd c (.retire {} (u.modCtx c (fun y => y.checked f v n))) := by
    refine (h.1.instr_eq (h.allows _) _).trans (congrArg (s.instrEnd c) ?_)
    rw [← hrun]
    simp only [legal, decide_true, Bool.true_and, halg, if_true, if_neg hodd, h.1.elements_eq]
  refine ⟨_, congrArg Host.Outcome.next hretire, ?_⟩
  have hown : (u.modCtx c (fun y => y.checked f v n)).ctx c = (s.ctx c).checked f v n := by rw [State.ctx_modCtx_self, hsu.ctx]
  have hbeside : Beside s (u.modCtx c (fun y => y.checked f v n)) c := (hsu.beside c).trans (.modCtx ..)
  have hbytes : SameBytes s (u.modCtx c (fun y => y.checked f v n)) := hsu.sameBytes.trans (.modCtx ..)
  generalize u.modCtx c (fun y => y.checked f v n) = w at hown hbeside hbytes ⊢
  have hret := h.1.retiredFrom_regs (u := w) (r := {}) rfl rfl (hown.trans (Ctx.checked_eq ..))
  have hcf := hret.ctxFrame rfl
  rw [hown, Ctx.checked_eq] at hcf
  have hg' : ∀ q, ((s.instrEnd c (.retire {} w)).ctx c).g q = ((s.ctx c).checked f v n).g q := fun q => by
    rw [hret.own, Ctx.retire_g _ rfl, hown]
    unfold Ctx.flush
    rw [Ctx.setAll_delayed, show ((s.ctx c).checked f v n).delayed = [] by rw [Ctx.checked_eq]; exact hdel]
    rfl
  have hread : ∀ q, ((s.ctx c).checked f v n).g q = if q = f.rb then (s.ctx c).g f.rb - BitVec.ofNat 64 n
      else if q = f.ra then (s.ctx c).g f.ra + BitVec.ofNat 64 n else if q = f.rd then BitVec.ofNat 64 v else (s.ctx c).g q := fun q => by
    unfold Ctx.checked
    rw [Ctx.g_setG _ _ hrb, Ctx.g_setG _ _ hra, Ctx.g_setG _ _ hrd]
  refine ⟨?_, ?_, ?_, fun q h1 h2 h3 => ?_, hcf.of_withRegs, hret.beside hbeside, hret.sameBytes hbytes⟩
  · rw [hg', hread, if_neg hdb, if_neg hda, if_pos rfl]
  · rw [hg', hread, if_neg hab, if_pos rfl]
  · rw [hg', hread, if_pos rfl, BitVec.ofNat_toNat, BitVec.setWidth_eq, BitVec.sub_self]
    rfl
  · rw [hg', hread, if_neg h3, if_neg h2, if_neg h1]

/-! ### The control unit (R166) -/

theorem State.ReadFrom.besideWrite {s w : State} (h : s.ReadFrom w) (c : Nat) (x : World) (a : Nat) (l : List Byte) :
    BesideBlock s ((w.countWorld x 12 l.length).pnWrite a l) c := by
  obtain ⟨⟨st, k, e, rfl⟩, _⟩ := h
  exact ⟨fun _ _ => rfl, rfl⟩

/-- The bytes and the host memory that a write of Pantry leaves. -/
theorem State.ReadFrom.memWrite {s w : State} (h : s.ReadFrom w) (x : World) (a : Nat) (l : List Byte) :
    ((w.countWorld x 12 l.length).pnWrite a l).pantry.mem = Memory.write 0 s.pantry.mem a l
      ∧ ((w.countWorld x 12 l.length).pnWrite a l).hostMem = s.hostMem
      ∧ ∀ c, ((w.countWorld x 12 l.length).pnWrite a l).ctx c = s.ctx c := by
  obtain ⟨⟨st, k, e, rfl⟩, _⟩ := h
  exact ⟨rfl, rfl, fun _ => rfl⟩

/-- A control-unit instruction whose block may be read and written and is not refused: the result is delayed, and the operation's bytes are
written back. -/
theorem Issues.ctl {s : State} {c : Nat} {f : FmtA} (h : Issues s c) (hrep : (s.ctx c).rep = false) {a size off : Nat} {y : Int} {l : List Byte}
    {refuse : Nat × Nat × (List Byte → Bool)} {op : List Byte → Int → Int × Nat × List Byte} (ha : ((s.ctx c).g f.ra).toNat = a)
    (halign : a % 8 = 0) (hsize : 0 < size) (hr : PantryRange s c .read a size) (hw : PantryRange s c .write a size) (hg : GoodRead s a size)
    (hrefuse : ((s.fetched c).hPeek c (a + refuse.1) refuse.2.1).any refuse.2.2 = false)
    (hop : op (Memory.bytes 0 s.pantry.mem a size) (signed 32 ((s.ctx c).g f.rb).toNat) = (y, off, l)) (hl : l ≠ []) (hoff : off + l.length ≤ size) :
    let t := s.instr c norepPlace (ctlStep f c size refuse op)
    WritesLate s t c [] f.rd (BitVec.ofInt 64 y) ∧ t.pantry.mem = Memory.write 0 s.pantry.mem (a + off) l ∧ CtlFrame s t c a off l.length := by
  have hf := h.readFrom
  obtain ⟨u, hu, hfu⟩ := State.hRead_range (hr.read hf) hsize (hf.goodRead.mpr hg)
  rw [hf.mem] at hu
  have hsu := hf.trans hfu
  have hwrite := State.hWrite_range (d := l) ((hw.part (b := a + off) (m := l.length) (by omega) (by omega)).read hsu) hl
  have hstep : ctlStep f c size refuse op (s.fetched c) (s.ctx c)
      = retireD ((u.countWorld (u.ctx c).world 12 l.length).pnWrite (a + off) l) f.rd (BitVec.ofInt 64 y) := by
    unfold ctlStep
    dsimp only
    rw [ha, if_neg (by omega), hrefuse, Bool.and_false, if_neg Bool.false_ne_true, State.rangeExc_none (hr.read hf)]
    dsimp only
    rw [State.rangeExc_none (hw.read hf)]
    dsimp only
    rw [hu]
    dsimp only
    rw [hop, hwrite]
  obtain ⟨hmem, hhost, hctx⟩ := hsu.memWrite (u.ctx c).world (a + off) l
  have hbeside := hsu.besideWrite c (u.ctx c).world (a + off) l
  intro t
  have ht : t = s.instrEnd c (retireD ((u.countWorld (u.ctx c).world 12 l.length).pnWrite (a + off) l) f.rd (BitVec.ofInt 64 y)) :=
    (h.instr_eq (h.allows_norep hrep) _).trans (congrArg (s.instrEnd c) hstep)
  clear_value t
  subst ht
  generalize (u.countWorld (u.ctx c).world 12 l.length).pnWrite (a + off) l = w at hmem hhost hctx hbeside
  have hch := Ctx.Changes.of_eq (hctx c)
  have hret := h.retiredFrom (u := w) (r := { late := [(f.rd, BitVec.ofInt 64 y)] }) rfl rfl hch
  have hpn : (s.instrEnd c (retireD w f.rd (BitVec.ofInt 64 y))).pantry.mem = Memory.write 0 s.pantry.mem (a + off) l :=
    (congrArg Pantry.mem hret.pantry).trans hmem
  refine ⟨hret.writes rfl hch, hpn, fun b hb => ?_, hret.hostMem.trans hhost, ?_, (hret.withBlock s.pantry.mem s.pantry.poison).beside hbeside⟩
  · rw [hpn]
    exact Memory.byte_write_of_out 0 _ _ _ hb
  · have hcf := hret.ctxFrame rfl
    rwa [hctx] at hcf

theorem sat64_eq (v : Int) : sat64 v = max (-9223372036854775808) (min 9223372036854775807 v) := by
  unfold sat64
  split
  · omega
  · split <;> omega

/-- The PI step of the model is that of R166. -/
theorem piOp_eq (d : List Byte) (e : Int) :
    let r := piStep (sfield d 0 4) (sfield d 4 4) (sfield d 8 4) (sfield d 12 4) (sfield d 16 8) e
    piOp d e = (r.1, 16, leBytes 8 (unsignedOf 64 r.2) ++ leBytes 4 (unsignedOf 32 r.1)) := by
  have hdiv : ∀ v : Int, v.fdiv 65536 = v / 65536 := fun v => Int.fdiv_eq_ediv_of_nonneg v (by decide)
  unfold piOp piStep
  simp only [hdiv, sat64_eq]

/-- The rate limit of the model is that of R166. -/
theorem rlimOp_eq (d : List Byte) (e : Int) :
    let y := sfield d 8 4 + max (-(fieldAt d 4 4 : Int)) (min (fieldAt d 0 4 : Int) (e - sfield d 8 4))
    rlimOp d e = (y, 8, leBytes 4 (unsignedOf 32 y)) := by
  have hclamp : ∀ up dn v : Int, (if (if up < v then up else v) < -dn then -dn else if up < v then up else v) = max (-dn) (min up v) := by
    intro up dn v
    split <;> split at * <;> omega
  unfold rlimOp
  simp only [hclamp]

/-- The first-order model step is that of R166. -/
theorem fomOp_eq (d : List Byte) (e : Int) :
    let y := sfield d 8 4 + ((fieldAt d 0 2 : Int) * (e - sfield d 8 4) + 32768) / 65536
    fomOp d e = (y, 8, leBytes 4 (unsignedOf 32 y)) := by
  have hdiv : ∀ v : Int, v.fdiv 65536 = v / 65536 := fun v => Int.fdiv_eq_ediv_of_nonneg v (by decide)
  unfold fomOp
  simp only [hdiv]

/-- An output held to its limits, with the integral that goes with it. -/
theorem limited_range {umin umax i i1 u e : Int} (hlim : umin ≤ umax) :
    let r : Int × Int := if umax < u then (umax, if 0 < e then i else i1) else if u < umin then (umin, if e < 0 then i else i1) else (u, i1)
    (umin ≤ r.1 ∧ r.1 ≤ umax) ∧ (r.2 = i ∨ r.2 = i1) := by
  dsimp only
  split
  · exact ⟨⟨hlim, le_refl _⟩, ite_eq_or_eq ..⟩
  · split
    · exact ⟨⟨le_refl _, hlim⟩, ite_eq_or_eq ..⟩
    · exact ⟨⟨by omega, by omega⟩, .inr rfl⟩

/-- What the PI step gives stays within the limits of its output and within 64 bits. -/
theorem piStep_range {kp ki umin umax i e : Int} (hlim : umin ≤ umax) (hi : -9223372036854775808 ≤ i ∧ i ≤ 9223372036854775807) :
    (umin ≤ (piStep kp ki umin umax i e).1 ∧ (piStep kp ki umin umax i e).1 ≤ umax)
      ∧ -9223372036854775808 ≤ (piStep kp ki umin umax i e).2 ∧ (piStep kp ki umin umax i e).2 ≤ 9223372036854775807 := by
  obtain ⟨hout, hint⟩ := limited_range (umin := umin) (umax := umax) (i := i) (e := e)
    (i1 := max (-9223372036854775808) (min 9223372036854775807 (i + ki * e)))
    (u := max (-9223372036854775808) (min 9223372036854775807
      ((kp * e) / 65536 + max (-9223372036854775808) (min 9223372036854775807 (i + ki * e)) / 65536))) hlim
  have hint' : (piStep kp ki umin umax i e).2 = i
      ∨ (piStep kp ki umin umax i e).2 = max (-9223372036854775808) (min 9223372036854775807 (i + ki * e)) := hint
  refine ⟨hout, ?_⟩
  generalize ki * e = m at hint'
  omega

theorem ofNat_unsignedOf (n : Nat) (v : Int) : BitVec.ofNat n (unsignedOf n v) = BitVec.ofInt n v := by
  have hpos : (0 : Int) < ((2 ^ n : Nat) : Int) := by exact_mod_cast Nat.two_pow_pos n
  have hlt : (v % ((2 ^ n : Nat) : Int)).toNat < 2 ^ n := by
    have h1 := Int.emod_lt_of_pos v hpos
    have h2 := Int.emod_nonneg v hpos.ne'
    omega
  apply BitVec.eq_of_toNat_eq
  rw [BitVec.toNat_ofNat, BitVec.toNat_ofInt, unsignedOf, Nat.mod_eq_of_lt hlt]

/-- A field of a block of 32 bytes of which some were written. -/
theorem fieldAt_written (m : Memory) (a off o n : Nat) (l : List Byte) (h : off + o + n ≤ 32) (hl : o + n ≤ l.length) :
    fieldAt (Memory.bytes 0 (Memory.write 0 m (a + off) l) a 32) (off + o) n = leNat ((l.drop o).take n) := by
  rw [fieldAt, slice_bytes _ _ _ _ _ h, ← Nat.add_assoc, Memory.bytes_write_part _ _ _ _ _ _ hl]

theorem toInt_leNat_word (v : Int) : (BitVec.ofNat 32 (leNat (leBytes 4 (unsignedOf 32 v)))).toInt = (BitVec.ofInt 32 v).toInt := by
  rw [leNat_leBytes, ← ofNat_unsignedOf]
  exact congrArg BitVec.toInt (BitVec.eq_of_toNat_eq (by simp))

theorem toInt_leNat_long (v : Int) : (BitVec.ofNat 64 (leNat (leBytes 8 (unsignedOf 64 v)))).toInt = (BitVec.ofInt 64 v).toInt := by
  rw [leNat_leBytes, ← ofNat_unsignedOf]
  exact congrArg BitVec.toInt (BitVec.eq_of_toNat_eq (by simp))

/-- The fields of a shorter block are those of the longer one from its address. -/
theorem fieldAt_bytes (m : Memory) (a n off k : Nat) (h : off + k ≤ n) (hn : n ≤ 32) :
    fieldAt (Memory.bytes 0 m a n) off k = fieldAt (Memory.bytes 0 m a 32) off k := by
  rw [fieldAt, fieldAt, slice_bytes _ _ _ _ _ h, slice_bytes _ _ _ _ _ (by omega)]

theorem sfield_toInt (d : List Byte) (off : Nat) : sfield d off 4 = (BitVec.ofNat 32 (fieldAt d off 4)).toInt ∧
    sfield d off 8 = (BitVec.ofNat 64 (fieldAt d off 8)).toInt := ⟨signed_eq_toInt 31 _, signed_eq_toInt 63 _⟩

theorem toInt_range_word (v : W32) : -2147483648 ≤ v.toInt ∧ v.toInt ≤ 2147483647 := by
  have h1 := BitVec.le_toInt v
  have h2 := BitVec.toInt_lt (x := v)
  omega

theorem toInt_range_long (v : W64) : -9223372036854775808 ≤ v.toInt ∧ v.toInt ≤ 9223372036854775807 := by
  have h1 := BitVec.le_toInt v
  have h2 := BitVec.toInt_lt (x := v)
  omega

/-- The low word of a register as a signed number. -/
theorem signed_register (v : W64) : signed 32 v.toNat = (v.setWidth 32).toInt := by
  rw [signed_eq_toInt 31]
  exact congrArg BitVec.toInt (BitVec.ofNat_toNat 32 v)

/-- UMIN over UMAX alone refuses a block of PI. -/
theorem Issues.pi_unrefused {s : State} {c a : Nat} (h : Issues s c) (hr : PantryRange s c .read a 32) (hg : GoodRead s a 32)
    (hlim : sfield (Memory.bytes 0 s.pantry.mem a 32) 8 4 ≤ sfield (Memory.bytes 0 s.pantry.mem a 32) 12 4) :
    ((s.fetched c).hPeek c (a + piRefuse.1) piRefuse.2.1).any piRefuse.2.2 = false := by
  have hf := h.readFrom
  obtain ⟨u, hu, -⟩ := State.hRead_range (n := 8) ((hr.part (b := a + 8) (m := 8) (by omega) (by omega)).read hf) (by omega)
    (hf.goodRead.mpr (hg.part (by omega) (by omega)))
  have hfield : ∀ off, off + 4 ≤ 8 → fieldAt (Memory.bytes 0 s.pantry.mem (a + 8) 8) off 4 = fieldAt (Memory.bytes 0 s.pantry.mem a 32) (8 + off) 4 := by
    intro off ho
    rw [fieldAt, fieldAt, slice_bytes _ _ _ _ _ ho, slice_bytes _ _ _ _ _ (by omega), Nat.add_assoc]
  have hpeek : (s.fetched c).hPeek c (a + 8) 8 = some (Memory.bytes 0 s.pantry.mem (a + 8) 8) := by
    unfold State.hPeek
    rw [hu, hf.mem]
  show ((s.fetched c).hPeek c (a + 8) 8).any piRefuse.2.2 = false
  rw [hpeek, Option.any_some]
  refine decide_eq_false ?_
  unfold sfield at hlim ⊢
  rw [hfield 4 (by omega), hfield 0 (by omega)]
  exact Int.not_lt.mpr hlim

/-- A control-unit instruction that writes back the word at byte 8 of its block of 16 bytes. -/
theorem Issues.ctl_word {s : State} {c : Nat} {f : FmtA} (h : Issues s c) (hrep : (s.ctx c).rep = false) {a : Nat} {y : Int}
    {op : List Byte → Int → Int × Nat × List Byte} (ha : ((s.ctx c).g f.ra).toNat = a) (halign : a % 8 = 0) (hr : PantryRange s c .read a 16)
    (hw : PantryRange s c .write a 16) (hg : GoodRead s a 16)
    (hop : op (Memory.bytes 0 s.pantry.mem a 16) (signed 32 ((s.ctx c).g f.rb).toNat) = (y, 8, leBytes 4 (unsignedOf 32 y))) :
    ∃ t, Host.Outcome.next (s.instr c norepPlace (ctlStep f c 16 refusesNone op)) = (.next t : Result) ∧ WritesLate s t c [] f.rd (BitVec.ofInt 64 y)
      ∧ (BitVec.ofNat 32 (fieldAt (Memory.bytes 0 t.pantry.mem a 32) 8 4)).toInt = (BitVec.ofInt 32 y).toInt ∧ CtlFrame s t c a 8 4 := by
  have hnone : ∀ o : Option (List Byte), o.any (fun _ => false) = false := fun o => by cases o <;> rfl
  obtain ⟨hlate, hmem, hframe⟩ := h.ctl (f := f) (refuse := refusesNone) hrep ha halign (by omega) hr hw hg (hnone _) hop (List.cons_ne_nil _ _)
    (by simp)
  refine ⟨_, rfl, hlate, ?_, hframe⟩
  have hfield := fieldAt_written s.pantry.mem a 8 0 4 (leBytes 4 (unsignedOf 32 y)) (by omega) (by simp)
  rw [List.drop_zero, List.take_of_length_le (by simp), ← hmem] at hfield
  exact (congrArg (fun v => (BitVec.ofNat 32 v).toInt) hfield).trans (toInt_leNat_word y)

theorem controlUnit : ControlUnit := by
  intro s c f h hrep a e fld now halign
  have he : signed 32 ((s.ctx c).g f.rb).toNat = e := signed_register _
  refine ⟨fun hr hw hg hlim => ?pi, fun hr hw hg => ⟨?rlim, ?fom⟩⟩
  case pi =>
    have hw4 : ∀ off, sfield (Memory.bytes 0 s.pantry.mem a 32) off 4 = fld off 4 := fun off => (sfield_toInt _ off).1
    have hw8 : sfield (Memory.bytes 0 s.pantry.mem a 32) 16 8 = fld 16 8 := (sfield_toInt _ 16).2
    have hop := piOp_eq (Memory.bytes 0 s.pantry.mem a 32) e
    dsimp only at hop
    rw [hw4, hw4, hw4, hw4, hw8] at hop
    have hinteg : -9223372036854775808 ≤ fld 16 8 ∧ fld 16 8 ≤ 9223372036854775807 := toInt_range_long _
    obtain ⟨⟨hlo, hhi⟩, hilo, hihi⟩ := piStep_range (kp := fld 0 4) (ki := fld 4 4) (e := e) hlim hinteg
    have hmin : -2147483648 ≤ fld 8 4 := (toInt_range_word _).1
    have hmax : fld 12 4 ≤ 2147483647 := (toInt_range_word _).2
    obtain ⟨hlate, hmem, hframe⟩ := h.ctl (f := f) (a := a)
      (l := leBytes 8 (unsignedOf 64 (piStep (fld 0 4) (fld 4 4) (fld 8 4) (fld 12 4) (fld 16 8) e).2)
        ++ leBytes 4 (unsignedOf 32 (piStep (fld 0 4) (fld 4 4) (fld 8 4) (fld 12 4) (fld 16 8) e).1))
      hrep rfl halign (by omega) hr hw hg (h.pi_unrefused hr hg (by rw [hw4, hw4]; exact hlim))
      (by rw [he]; exact hop) (List.append_ne_nil_of_left_ne_nil (List.cons_ne_nil _ _) _) (by simp)
    refine ⟨_, rfl, hlate, ?_, ?_, hframe⟩
    · have hfield := fieldAt_written s.pantry.mem a 16 0 8 (leBytes 8 (unsignedOf 64 (piStep (fld 0 4) (fld 4 4) (fld 8 4) (fld 12 4) (fld 16 8) e).2)
        ++ leBytes 4 (unsignedOf 32 (piStep (fld 0 4) (fld 4 4) (fld 8 4) (fld 12 4) (fld 16 8) e).1)) (by omega) (by simp)
      rw [List.drop_zero, List.take_left' (leBytes_length ..), ← hmem] at hfield
      refine (congrArg (fun v => (BitVec.ofNat 64 v).toInt) hfield).trans ((toInt_leNat_long _).trans ?_)
      exact BitVec.toInt_ofInt_eq_self (by decide) hilo (lt_of_le_of_lt hihi (by decide))
    · have hfield := fieldAt_written s.pantry.mem a 16 8 4 (leBytes 8 (unsignedOf 64 (piStep (fld 0 4) (fld 4 4) (fld 8 4) (fld 12 4) (fld 16 8) e).2)
        ++ leBytes 4 (unsignedOf 32 (piStep (fld 0 4) (fld 4 4) (fld 8 4) (fld 12 4) (fld 16 8) e).1)) (by omega) (by simp)
      rw [List.drop_left' (leBytes_length ..), List.take_of_length_le (by simp), ← hmem] at hfield
      refine (congrArg (fun v => (BitVec.ofNat 32 v).toInt) hfield).trans ((toInt_leNat_word _).trans ?_)
      exact BitVec.toInt_ofInt_eq_self (by decide) (hmin.trans hlo) (lt_of_le_of_lt (hhi.trans hmax) (by decide))
  case rlim =>
    have hop := rlimOp_eq (Memory.bytes 0 s.pantry.mem a 16) e
    dsimp only at hop
    rw [sfield, fieldAt_bytes _ _ 16 8 4 (by omega) (by omega), fieldAt_bytes _ _ 16 0 4 (by omega) (by omega),
      fieldAt_bytes _ _ 16 4 4 (by omega) (by omega), ← sfield, (sfield_toInt _ 8).1] at hop
    exact h.ctl_word hrep rfl halign hr hw hg (by rw [he]; exact hop)
  case fom =>
    have hop := fomOp_eq (Memory.bytes 0 s.pantry.mem a 16) e
    dsimp only at hop
    rw [sfield, fieldAt_bytes _ _ 16 8 4 (by omega) (by omega), fieldAt_bytes _ _ 16 0 2 (by omega) (by omega), ← sfield,
      (sfield_toInt _ 8).1] at hop
    exact h.ctl_word hrep rfl halign hr hw hg (by rw [he]; exact hop)

/-- Settles O18: CRC and CRCB by one step of the running value, the control unit by one block read, updated and written back. -/
theorem checksumAndControlUnits : Obligations.ChecksumAndControlUnits := ⟨checksumUnit, controlUnit⟩

end Sys2Proof.Machine

namespace Sys2Proof.Machine

/-! ### Latched events (R104, R105, R158) -/

/-- A context after events of an item have been latched in it. -/
def Ctx.latchedBy (x : Ctx) (now kind id events : Nat) : Ctx :=
  if x.state = .free then x else
    { x.waitExpires now with
      latch := (x.targetsNaming kind id).foldl (fun l i => Tbl.upd 0 l i (fun e => e ||| events)) x.latch
      attLatch := match x.attLatch with
        | some a => if kind = 0 && a.att = id then some { a with events := a.events ||| events } else some a
        | none => none }

theorem Ctx.latchedBy_of_free {x : Ctx} (h : x.state = .free) (now kind id events : Nat) : x.latchedBy now kind id events = x := if_pos h

theorem Ctx.waitExpires_eq (x : Ctx) (now : Nat) : ∃ o, x.waitExpires now = { x with timeout := o } := by
  have key : ∀ (p : Prop) [Decidable p], ∃ o, (if p then { x with timeout := true } else x) = { x with timeout := o } := by
    intro p _
    split
    · exact ⟨true, rfl⟩
    · exact ⟨x.timeout, rfl⟩
  exact key _

/-- Latching touches the latches and the mark of a WAIT that has timed out alone. -/
theorem Ctx.latchedBy_eq (x : Ctx) (now kind id events : Nat) :
    ∃ o l al, x.latchedBy now kind id events = { x with timeout := o, latch := l, attLatch := al } := by
  unfold Ctx.latchedBy
  split
  · exact ⟨x.timeout, x.latch, x.attLatch, rfl⟩
  · obtain ⟨o, ho⟩ := x.waitExpires_eq now
    rw [ho]
    exact ⟨o, _, _, rfl⟩

theorem Tbl.get_map {α : Type} (d : α) (f : α → α) (hf : f d = d) (t : Tbl α) (k : Nat) :
    Tbl.get d (t.map (fun p => (p.1, f p.2))) k = f (Tbl.get d t k) := by
  induction t with
  | nil => exact hf.symm
  | cons p t ih =>
    rw [List.map_cons, Tbl.get_cons, Tbl.get_cons, ih]
    split <;> rfl

theorem State.ctx_latchEvents (s : State) (kind id events c : Nat) :
    (s.latchEvents kind id events).ctx c = (s.ctx c).latchedBy s.now kind id events := by
  have hmap : (s.latchEvents kind id events).ctxs = s.ctxs.map (fun p => (p.1, p.2.latchedBy s.now kind id events)) := by
    unfold State.latchEvents Ctx.latchedBy
    refine List.map_congr_left fun p _ => ?_
    dsimp only
    split <;> rfl
  exact (congrArg (fun l => Tbl.get ({} : Ctx) l c) hmap).trans (Tbl.get_map ({} : Ctx) (fun x => x.latchedBy s.now kind id events) rfl s.ctxs c)

theorem State.ctx_attEvent (s : State) (a bit c : Nat) : (s.attEvent a bit).ctx c = (s.ctx c).latchedBy s.now 0 a (2 ^ bit) :=
  s.ctx_latchEvents 0 a (2 ^ bit) c

/-! ### Discovery (R291 to R294, R309 to R314)

Discovery changes one attachment; what it does beside that (latched events, counts, the state block, what is put out) leaves the
attachments, the image, the time and the configuration of the ports as they are. -/

/-- Attachment a alone may have changed, and neither the image, the configuration in force nor the time. -/
structure State.AttMoved (s t : State) (a : Nat) : Prop where
  others : OtherAtts s t a
  img : t.img = s.img
  attic : t.attic = s.attic
  now : t.now = s.now
  cfg : ∀ n, (t.port n).cfg = (s.port n).cfg

/-- What lies beside the attachments may have changed: neither the image, the configuration in force nor the time. -/
structure State.AttsKept (s t : State) : Prop where
  atts : t.atts = s.atts
  img : t.img = s.img
  attic : t.attic = s.attic
  now : t.now = s.now
  cfg : ∀ n, (t.port n).cfg = (s.port n).cfg

namespace State.AttsKept
variable {s t u : State}

theorem refl (s : State) : s.AttsKept s := ⟨rfl, rfl, rfl, rfl, fun _ => rfl⟩

theorem trans (h : s.AttsKept t) (g : t.AttsKept u) : s.AttsKept u :=
  ⟨g.atts.trans h.atts, g.img.trans h.img, g.attic.trans h.attic, g.now.trans h.now, fun n => (g.cfg n).trans (h.cfg n)⟩

theorem att (h : s.AttsKept t) (b : Nat) : t.att b = s.att b := congrArg (fun l => Tbl.get ({} : Att) l b) h.atts

theorem of_ports (hp : t.ports = s.ports) (ha : t.atts = s.atts) (hi : t.img = s.img) (hc : t.attic = s.attic) (hn : t.now = s.now) :
    s.AttsKept t := ⟨ha, hi, hc, hn, fun n => congrArg (fun l => (Tbl.get ({} : Port) l n).cfg) hp⟩

theorem attEvent (s : State) (a bit : Nat) : s.AttsKept (s.attEvent a bit) := of_ports rfl rfl rfl rfl rfl

theorem emit (s : State) (o : OutItem) : s.AttsKept (s.emit o) := of_ports rfl rfl rfl rfl rfl

theorem modCtx (s : State) (c : Nat) (f : Ctx → Ctx) : s.AttsKept (s.modCtx c f) := of_ports rfl rfl rfl rfl rfl

theorem pnWrite (s : State) (a : Nat) (d : List Byte) : s.AttsKept (s.pnWrite a d) := by
  have h := State.pnWrite_frame s a d
  exact of_ports (congrArg State.ports h :) (congrArg State.atts h :) (congrArg State.img h :) (congrArg State.attic h :) (congrArg State.now h :)

theorem stats {x : Two EpochEngine} (h : { t with stats := x } = s) : s.AttsKept t :=
  of_ports (congrArg State.ports h :) (congrArg State.atts h :) (congrArg State.img h :) (congrArg State.attic h :) (congrArg State.now h :)

theorem countLane (s : State) (w : World) (l i n : Nat) : s.AttsKept (s.countLane w l i n) := stats (State.countLane_frame s w l i n)

theorem countPort (s : State) (p i n : Nat) : s.AttsKept (s.countPort p i n) := stats (State.countPort_frame s p i n)

theorem report (s : State) (m : W64) (c : Option Nat) : s.AttsKept (s.report m c) := by
  have h := State.report_frame s m c
  exact of_ports (congrArg State.ports h :) (congrArg State.atts h :) (congrArg State.img h :) (congrArg State.attic h :) (congrArg State.now h :)

theorem laneAtt (s : State) (a i : Nat) : s.AttsKept (s.laneAtt a i) := by
  unfold State.laneAtt
  split
  · exact countLane ..
  · exact refl s

theorem textOut (s : State) (a : Nat) : s.AttsKept (s.textOut a) := by
  unfold State.textOut
  split
  · exact emit ..
  · exact refl s

theorem modPort (s : State) (n : Nat) {f : Port → Port} (hf : ∀ p, (f p).cfg = p.cfg) : s.AttsKept (s.modPort n f) := by
  refine ⟨rfl, rfl, rfl, rfl, fun m => ?_⟩
  rw [State.port_modPort]
  split
  · next h => rw [h, hf]
  · rfl

theorem txSpaceLatch (s : State) (a : Nat) : s.AttsKept (s.txSpaceLatch a) := by
  unfold State.txSpaceLatch
  split
  · exact attEvent ..
  · exact refl s

theorem txSpaceLatches (s : State) (a : Nat) : s.AttsKept (s.txSpaceLatches a) := by
  unfold State.txSpaceLatches
  induction portAtts a generalizing s with
  | nil => exact refl s
  | cons b l ih =>
    rw [List.foldl_cons]
    refine trans ?_ (ih _)
    split
    · exact txSpaceLatch ..
    · exact refl s

theorem blockInit (s : State) (a : Nat) : s.AttsKept (s.blockInit a) := by
  unfold State.blockInit
  split
  · exact pnWrite ..
  · exact refl s

theorem hubReset (s : State) (a : Nat) : s.AttsKept (s.hubReset a) := by
  unfold State.hubReset
  dsimp only
  split
  · exact refl s
  · exact emit ..

theorem moved (h : s.AttsKept t) (a : Nat) : s.AttMoved t a := ⟨fun b _ => h.att b, h.img, h.attic, h.now, h.cfg⟩

end State.AttsKept

namespace State.AttMoved
variable {s t u : State} {a : Nat}

theorem trans (h : s.AttMoved t a) (g : t.AttMoved u a) : s.AttMoved u a :=
  ⟨fun b hb => (g.others b hb).trans (h.others b hb), g.img.trans h.img, g.attic.trans h.attic, g.now.trans h.now, fun n => (g.cfg n).trans (h.cfg n)⟩

theorem beside (h : s.AttMoved t a) (g : t.AttsKept u) : s.AttMoved u a := h.trans (g.moved a)

theorem modAtt (s : State) (a : Nat) (f : Att → Att) : s.AttMoved (s.modAtt a f) a :=
  ⟨fun _ hb => State.att_modAtt_ne s f hb, rfl, rfl, rfl, fun _ => rfl⟩

theorem attChange (s : State) (a : Nat) (f : Att → Att) : s.AttMoved (s.attChange a f) a := by
  unfold State.attChange
  dsimp only
  split
  · exact (modAtt ..).beside (.attEvent ..)
  · exact modAtt ..

theorem portWorld (h : s.AttMoved t a) (n : Nat) : t.portWorld n = s.portWorld n := by
  unfold State.portWorld
  rw [h.img]

/-- The candidates of an attachment follow from the image, the configuration of its port, and its descriptors. -/
theorem candidates (h : s.AttMoved t a) (hd : (t.att a).desc = (s.att a).desc) : t.candidates a = s.candidates a := by
  unfold State.candidates State.candEntries
  rw [h.portWorld, h.img, h.cfg, hd]

end State.AttMoved

theorem State.att_modAtt_self (s : State) (a : Nat) (f : Att → Att) : (s.modAtt a f).att a = f (s.att a) := (s.att_modAtt a f a).trans (if_pos rfl)

/-- An attachment that changes takes its new value, with a new SEQ where its entry has changed. -/
theorem State.att_attChange (s : State) (a : Nat) (f : Att → Att) : ∃ q, (s.attChange a f).att a = { f (s.att a) with seq := q } := by
  have hatt : ∀ (t : State) (p : Prop) [Decidable p], (if p then t.attEvent a 3 else t).att a = t.att a := by
    intro t p _
    split <;> rfl
  unfold State.attChange
  dsimp only
  rw [hatt, State.att_modAtt_self]
  split
  · exact ⟨_, rfl⟩
  · exact ⟨_, rfl⟩

/-- The configuration of a USB device changes its configuration value and toggles alone. -/
theorem State.usbConfigure_moved (s : State) (a v : Nat) : s.AttMoved (s.usbConfigure a v) a
    ∧ ∃ k l, (s.usbConfigure a v).att a = { s.att a with config := k, toggles := l } := by
  unfold State.usbConfigure
  split
  · next d _ =>
    dsimp only
    exact ⟨(State.AttMoved.modAtt ..).beside (.emit ..), (if v = 0 then fieldAt d.config 5 1 else v), [], (s.att_modAtt_self a
      (fun t => { t with config := if v = 0 then fieldAt d.config 5 1 else v, toggles := [] }) :)⟩
  · exact ⟨(State.AttsKept.refl s).moved a, _, _, rfl⟩

/-- An attachment that is accepted is READY with its profile and version. -/
theorem State.attAccept_ready (s : State) (a num ver : Nat) (e : Option Nat) :
    s.AttMoved (s.attAccept a num ver e) a ∧ ((s.attAccept a num ver e).att a).state = .ready ∧ ((s.attAccept a num ver e).att a).profile = num
      ∧ ((s.attAccept a num ver e).att a).pver = ver ∧ ((s.attAccept a num ver e).att a).probe = none
      ∧ ((s.attAccept a num ver e).att a).probeWait = none := by
  unfold State.attAccept
  extract_lets p0 s0 s1 s2 s3
  have h0 : s.AttMoved s0 a := (State.AttMoved.modAtt ..).trans (State.usbConfigure_moved ..).1
  have h1 : (s0.attChange a (fun t => { t with
      state := .ready, profile := num, pver := ver, probe := none, probeWait := none, since := s0.now })).AttsKept s3 := by
    have hport : (s0.attChange a (fun t => { t with
      state := .ready, profile := num, pver := ver, probe := none, probeWait := none, since := s0.now })).AttsKept s1 := .modPort _ _ fun _ => rfl
    refine (hport.trans (.laneAtt s1 a 8)).trans ?_
    dsimp only [s3]
    split
    · exact .textOut ..
    · exact .refl _
  obtain ⟨q, hq⟩ := s0.att_attChange a (fun t => { t with
      state := .ready, profile := num, pver := ver, probe := none, probeWait := none, since := s0.now })
  have key : ∀ t : State, s3.AttsKept t → s.AttMoved t a ∧ (t.att a).state = .ready ∧ (t.att a).profile = num ∧ (t.att a).pver = ver
      ∧ (t.att a).probe = none ∧ (t.att a).probeWait = none := by
    intro t ht
    have hatt := (h1.trans ht).att a
    rw [hq] at hatt
    refine ⟨(h0.trans (.attChange ..)).beside (h1.trans ht), ?_⟩
    rw [hatt]
    exact ⟨rfl, rfl, rfl, rfl, rfl⟩
  split
  · exact key _ (.pnWrite ..)
  · exact key _ (.refl _)

/-- The candidate after the last leaves the attachment FAILED. -/
theorem State.tryCand_none {s : State} {a i : Nat} (himg : s.attic.config = .image) (h : (s.candidates a)[i]? = none) :
    s.AttMoved (s.tryCand a i) a ∧ ((s.tryCand a i).att a).state = .failed ∧ ((s.tryCand a i).att a).status = 3
      ∧ ((s.tryCand a i).att a).probe = none ∧ ((s.tryCand a i).att a).probeWait = none := by
  have heq : s.tryCand a i = s.attChange a (fun t => { t with state := .failed, status := 3, probe := none, probeWait := none, since := s.now }) := by
    unfold State.tryCand
    rw [if_neg (by simp [himg]), h]
  obtain ⟨q, hq⟩ := s.att_attChange a (fun t => { t with state := .failed, status := 3, probe := none, probeWait := none, since := s.now })
  rw [heq, hq]
  exact ⟨.attChange .., rfl, rfl, rfl, rfl⟩

/-- A candidate that names no probe is accepted. -/
theorem State.tryCand_unprobed {s : State} {a i : Nat} {q : Profile} (himg : s.attic.config = .image) (h : (s.candidates a)[i]? = some q)
    (hq : q.probe = 0) : s.AttMoved (s.tryCand a i) a ∧ ((s.tryCand a i).att a).state = .ready ∧ ((s.tryCand a i).att a).profile = q.num
      ∧ ((s.tryCand a i).att a).pver = q.verMax := by
  have heq : s.tryCand a i = s.attAccept a q.num q.verMax (s.candEntries a)[i]? := by
    unfold State.tryCand
    rw [if_neg (by simp [himg]), h]
    exact if_pos hq
  rw [heq]
  obtain ⟨hm, h1, h2, h3, -⟩ := s.attAccept_ready a q.num q.verMax (s.candEntries a)[i]?
  exact ⟨hm, h1, h2, h3⟩

/-- PROBING is entered with the first candidate, the descriptors and the other attachments as they were. -/
theorem State.enterProbing_tries (s : State) (a : Nat) : ∃ t, s.enterProbing a = t.tryCand a 0 ∧ s.AttMoved t a
    ∧ t.candidates a = s.candidates a := by
  unfold State.enterProbing
  dsimp only
  generalize hf : (fun t : Att => ({ t with
      state := .probing, status := 0, since := s.now, probe := none, probeWait := none
      speed := if (s.port (a / 16)).cfg.mode = 1 then t.speed else 3
      resRx := (s.port (a / 16)).cfg.reserve (s.port (a / 16)).cfg.resRx (a % 16)
      resTx := (s.port (a / 16)).cfg.reserve (s.port (a / 16)).cfg.resTx (a % 16) } : Att)) = f
  have hdesc : ∀ t, (f t).desc = t.desc := fun t => hf ▸ rfl
  have h0 : s.AttsKept (s.txSpaceLatches a) := .txSpaceLatches ..
  obtain ⟨q, hq⟩ := (s.txSpaceLatches a).att_attChange a f
  have h2 : ((s.txSpaceLatches a).attChange a f).AttsKept ((((s.txSpaceLatches a).attChange a f).blockInit a).txSpaceLatch a) :=
    (State.AttsKept.blockInit ..).trans (.txSpaceLatch ..)
  have hm := ((h0.moved a).trans (.attChange _ a f)).beside h2
  refine ⟨_, rfl, hm, hm.candidates ?_⟩
  rw [h2.att, hq]
  exact (hdesc _).trans (congrArg Att.desc (h0.att a))

theorem State.noteRefused_frame (s : State) (q : LeaveReq) :
    { s.noteRefused q with boiler := s.boiler, fc := s.fc, fns := s.fns, out := s.out } = s := by
  unfold State.noteRefused
  extract_lets own s1
  have h1 : { s1 with boiler := s.boiler } = s := by
    dsimp only [s1]
    split <;> rfl
  clear_value s1
  have hev : { s1.blEvent 1 with boiler := s.boiler, fns := s1.fns, out := s1.out } = s :=
    (congrArg (fun u : State => { u with boiler := s.boiler }) (s1.blEvent_frame 1) :).trans h1
  have hev1 : ∀ w, { s1.blEvent1 w 1 with boiler := s.boiler, fns := s1.fns, out := s1.out } = s := fun w =>
    (congrArg (fun u : State => { u with boiler := s.boiler }) (s1.blEvent1_frame w 1) :).trans h1
  rename_i src
  dsimp only [src]
  split
  · exact (congrArg (fun u : State => { u with boiler := s.boiler, fc := s.fc, fns := s.fns, out := s.out })
      ((s1.blEvent 1).report_frame (faultMsg 98 0 0x1B q.cls none true) none) :).trans
        (congrArg (fun u : State => { u with fc := s.fc, fns := s.fns, out := s.out }) hev :)
  · split
    · next w _ => exact (congrArg (fun u : State => { u with fc := s.fc, fns := s.fns, out := s.out }) (hev1 w) :)
    · exact h1 ▸ rfl

/-- Boiler's requests for leave change its own registers, the events and records of a refusal, and the work that is refused. -/
theorem State.boilerAsk_frame (s : State) (k : BoilerWork) (lst : Nat) :
    { s.boilerAsk k lst with boiler := s.boiler, fc := s.fc, fns := s.fns, out := s.out, hearths := s.hearths, dws := s.dws } = s := by
  have hdw : ∀ (l : List Nat) (d : Nat) (t : State), { l.foldl (fun t e =>
      if dwDomain e = d && (t.dw e).enableWait then t.modDw e (fun x => { x with enableWait := false }) else t) t with dws := t.dws } = t := by
    intro l d
    induction l with
    | nil => exact fun t => rfl
    | cons e l ih =>
      intro t
      rw [List.foldl_cons]
      refine (congrArg (fun u : State => { u with dws := t.dws }) (ih _) :).trans ?_
      split <;> rfl
  have hwork : ∀ t : State, { t.workRefused k with boiler := t.boiler, hearths := t.hearths, dws := t.dws } = t := by
    intro t
    unfold State.workRefused
    split
    · rfl
    · rfl
    · exact (congrArg (fun u : State => { u with boiler := t.boiler, hearths := t.hearths }) (hdw _ _ t) :)
    · rfl
  unfold State.boilerAsk State.leaveArrive
  generalize s.leaveReq (.boiler k) false 0 (s.boiler.workAmount k) 65535 none lst = q
  split
  · split
    · next t h =>
      split at h
      · cases h
        exact (congrArg (fun u : State => { u with boiler := s.boiler, fc := s.fc, fns := s.fns, out := s.out, hearths := s.hearths, dws := s.dws })
          (hwork (s.noteRefused q)) :).trans (congrArg (fun u : State => { u with hearths := s.hearths, dws := s.dws }) (s.noteRefused_frame q) :)
      · cases h
    · next h =>
      split at h
      · cases h
      · cases h
        rfl
  · rfl

/-- A waiting probe that starts changes the attachment that waits. -/
theorem State.probeBegin_att {s : State} {w : World} {a : Nat} (h : (s.att a).probeWait = none) : (s.probeBegin w).2.att a = s.att a := by
  have hne : ∀ (t : State) (b : Nat) (f : Att → Att), (s.att b).probeWait ≠ none → t.atts = s.atts → (t.modAtt b f).att a = s.att a := by
    intro t b f hb ht
    have hab : a ≠ b := fun e => hb (e ▸ h)
    exact (State.att_modAtt_ne t f hab).trans (congrArg (fun l => Tbl.get ({} : Att) l a) ht)
  unfold State.probeBegin
  split
  · next b c hb hc =>
    split
    · next i l hi =>
      have hw : (s.att b).probeWait ≠ none := by simp [hi]
      split
      · dsimp only
        split
        · refine hne _ b _ hw ?_
          unfold State.countSpill State.makeReady
          split <;> rfl
        · next j _ =>
          have hask : ∀ t : State, (t.boilerAsk (.cluster j) s.backgroundLst).atts = t.atts := fun t =>
            (congrArg State.atts (t.boilerAsk_frame (.cluster j) s.backgroundLst) :)
          exact (congrArg (fun l => Tbl.get ({} : Att) l a) (hask _)).trans (hne s b _ hw rfl)
        · rfl
      · rfl
    · rfl
  · rfl

/-- Probes that start leave an attachment that waits for none. -/
theorem State.probesOf_att {s : State} {a : Nat} (b : Nat) (h : (s.att a).probeWait = none) : (s.probesOf b).att a = s.att a := by
  have hstart : ∀ (w : World) (n : Nat) (t : State), (t.att a).probeWait = none → (t.probesStart w n).att a = t.att a := by
    intro w n
    induction n with
    | zero => exact fun t _ => rfl
    | succ n ih =>
      intro t ht
      have hb : (t.probeBegin w).2.att a = t.att a := State.probeBegin_att ht
      unfold State.probesStart
      split
      · next u hu =>
        rw [hu] at hb
        exact (ih u (hb ▸ ht)).trans hb
      · next u hu =>
        rw [hu] at hb
        exact hb
  unfold State.probesOf
  split
  · exact hstart _ _ s h
  · rfl

/-- An attachment that leaves DEBOUNCE or ENUMERATING by a command alone. -/
theorem exec_enumerationDone {s : State} {a : Nat} (h : (s.att a).state = .enumerating) (hd : (s.att a).since + 60000000 ≤ s.now)
    (d : Descriptors) : exec (.enumerationDone a (some d)) s = .next (s.enumerated a d) := by
  simp only [exec, execEnumerationDone]
  rw [if_neg (by simp [h, Nat.not_lt.mpr hd])]

theorem usbConnect_debounces {s : State} {n : Nat} {hub : Bool} (hm : (s.port n).cfg.mode = 1) (hv : (s.port n).vbus = true)
    (he : (s.att (16 * n)).state = .empty) (hh : hub = true → (s.port n).cfg.hubs = true) (hr : none ∉ (s.port n).refused) :
    exec (.usbConnect n none hub) s
      = .next (s.attChange (16 * n) (fun t => { seq := t.seq, state := .debounce, tier := 0, parent := 0, hubPort := 0, since := s.now })) := by
  have hconn : s.connection n none = some (0, 0, 0) := if_pos (by simp [he, hr])
  have hgroup : s.foundNow n 0 0 = [] := by simp [State.foundNow]
  have hfind : (portAtts (16 * n)).find? (fun a => (s.att a).state = .empty) = some (16 * n) := by
    have h16 : 16 * n / 16 * 16 + 0 = 16 * n := by omega
    unfold portAtts
    rw [List.range_succ_eq_map, List.map_cons, h16, List.find?_cons_of_pos (by simp [he])]
  have hhub : (hub && (!(s.port n).cfg.hubs || decide (0 = 2))) = false := by
    cases hub
    · rfl
    · simp [hh rfl]
  simp only [exec, execUsbConnect, hm, hv, hconn, hgroup, hfind, hhub]
  rfl

/-- The removal of an attachment while no context is in a CCW. -/
theorem State.attWithdrawn_kept {s : State} (h : ∀ c, (s.ctx c).started = false) (a : Nat) :
    s.AttsKept (s.attWithdrawn a) ∧ SameBytes s (s.attWithdrawn a) := by
  unfold State.attWithdrawn
  generalize s.ctxs.map (fun p => p.1) = l
  induction l generalizing s with
  | nil => exact ⟨.refl s, .refl s⟩
  | cons c l ih =>
    rw [List.foldl_cons]
    have hstep : ∀ g : Ctx → Ctx, (∀ x, (g x).started = x.started) → ∀ d, ((s.modCtx c g).ctx d).started = false := by
      intro g hg d
      rw [State.ctx_modCtx]
      split
      · rw [hg]; exact h c
      · exact h d
    dsimp only
    rw [if_neg (by simp [h])]
    split
    · have hgone := hstep (fun x => { x with gone := x.gone ++ [a] }) fun _ => rfl
      obtain ⟨h1, h2⟩ := ih hgone
      exact ⟨(State.AttsKept.modCtx s c (fun x => { x with gone := x.gone ++ [a] })).trans h1,
        (SameBytes.modCtx s c (fun x => { x with gone := x.gone ++ [a] })).trans h2⟩
    · exact ih h

theorem SameBytes.attEvent (s : State) (a bit : Nat) : SameBytes s (s.attEvent a bit) := .of_mems rfl rfl rfl rfl

theorem SameBytes.of_stats {s t : State} {x : Two EpochEngine} (h : { t with stats := x } = s) : SameBytes s t :=
  .of_mems (congrArg (fun u : State => u.pantry.mem) h :) (congrArg (fun u : State => u.cellar.mem) h :)
    (congrArg (fun u : State => u.flash.mem) h :) (congrArg State.hostMem h :)

theorem SameBytes.laneAtt (s : State) (a i : Nat) : SameBytes s (s.laneAtt a i) := by
  unfold State.laneAtt
  split
  · exact .of_stats (State.countLane_frame ..)
  · exact .refl s

theorem SameBytes.modAtt (s : State) (a : Nat) (f : Att → Att) : SameBytes s (s.modAtt a f) := .refl s

theorem SameBytes.modPort (s : State) (n : Nat) (f : Port → Port) : SameBytes s (s.modPort n f) := .refl s

theorem SameBytes.attChange (s : State) (a : Nat) (f : Att → Att) : SameBytes s (s.attChange a f) := by
  unfold State.attChange
  dsimp only
  split
  · exact (modAtt s a _).trans (.attEvent _ a 3)
  · exact modAtt s a _

theorem SameBytes.countLost (s : State) (n k : Nat) : SameBytes s (s.countLost n k) := by
  unfold State.countLost
  exact (modPort s n _).trans (.of_stats (State.countPort_frame _ n 4 k))

theorem State.AttsKept.countLost (s : State) (n k : Nat) : s.AttsKept (s.countLost n k) := by
  unfold State.countLost
  exact (State.AttsKept.modPort s n (f := fun p => { p with rxLost := satAt 0xFFFFFFFF (p.rxLost + k) }) fun _ => rfl).trans (.countPort _ n 4 k)

theorem State.chanClear_cleared (s : State) (a : Nat) : s.AttMoved (s.chanClear a) a ∧ (s.chanClear a).att a = { s.att a with rx := {}, tx := {} }
    ∧ SameBytes s (s.chanClear a) := by
  unfold State.chanClear
  dsimp only
  generalize (((s.att a).rx.words.drop ((s.att a).rx.read - (s.att a).rx.freed)).filter (fun f => !f.head)).map FifoWord.items = l
  have hk := State.AttsKept.countLost (s.modAtt a (fun t => { t with rx := {}, tx := {} })) (a / 16) l.sum
  exact ⟨(State.AttMoved.modAtt ..).beside hk, (hk.att a).trans (s.att_modAtt_self a (fun t => { t with rx := {}, tx := {} })),
    (SameBytes.refl s).trans (.countLost ..)⟩

/-- An attachment that goes while no context is in a CCW is EMPTY, and nothing else of its port's attachments changes. -/
theorem State.attDetach_empty {s : State} {a : Nat} (hne : (s.att a).state ≠ .empty) (h : ∀ c, (s.ctx c).started = false) (status : Nat) :
    s.AttMoved (s.attDetach a status) a ∧ ((s.attDetach a status).att a).state = .empty ∧ ((s.attDetach a status).att a).status = status
      ∧ ((s.attDetach a status).att a).rx = {} ∧ ((s.attDetach a status).att a).tx = {} ∧ SameBytes s (s.attDetach a status) := by
  unfold State.attDetach
  dsimp only
  rw [if_neg hne]
  generalize hf : (fun t : Att => ({
      seq := t.seq, status := status
      error := if !!(s.att a).cmds.isEmpty then (s.att a).error else if status = 5 then 0x0B else 0x0C
      since := s.now } : Att)) = f
  have hf' : ∀ t q, ({ f t with seq := q } : Att).state = .empty ∧ ({ f t with seq := q } : Att).status = status
      ∧ ({ f t with seq := q } : Att).rx = {} ∧ ({ f t with seq := q } : Att).tx = {} := fun t q => hf ▸ ⟨rfl, rfl, rfl, rfl⟩
  have h0 : s.AttsKept (if (s.att a).hasChannels then s.txSpaceLatch a else s)
      ∧ SameBytes s (if (s.att a).hasChannels then s.txSpaceLatch a else s)
      ∧ ∀ c, ((if (s.att a).hasChannels then s.txSpaceLatch a else s).ctx c).started = false := by
    unfold State.txSpaceLatch
    split
    · split
      · refine ⟨.attEvent .., .attEvent .., fun c => ?_⟩
        obtain ⟨o, l, al, hl⟩ := (s.ctx c).latchedBy_eq s.now 0 a (2 ^ 1)
        rw [State.ctx_attEvent, hl]
        exact h c
      · exact ⟨.refl s, .refl s, h⟩
    · exact ⟨.refl s, .refl s, h⟩
  generalize (if (s.att a).hasChannels then s.txSpaceLatch a else s) = s0 at h0 ⊢
  obtain ⟨hk0, hb0, hs0⟩ := h0
  obtain ⟨hk1, hb1⟩ := State.attWithdrawn_kept hs0 a
  obtain ⟨hm2, -, hb2⟩ := (s0.attWithdrawn a).chanClear_cleared a
  obtain ⟨q, hq⟩ := ((s0.attWithdrawn a).chanClear a).att_attChange a f
  have hm3 := (((hk0.trans hk1).moved a).trans hm2).trans (.attChange _ a f)
  have hb3 := ((hb0.trans hb1).trans hb2).trans (.attChange _ a f)
  generalize ((s0.attWithdrawn a).chanClear a).attChange a f = u at hm3 hb3 hq ⊢
  have hcut : u.AttsKept (if !(s.att a).cmds.isEmpty then (u.attEvent a 5).countPort (a / 16) 6 1 else u)
      ∧ SameBytes u (if !(s.att a).cmds.isEmpty then (u.attEvent a 5).countPort (a / 16) 6 1 else u) := by
    split
    · exact ⟨(State.AttsKept.attEvent ..).trans (.countPort ..), (SameBytes.attEvent ..).trans (.of_stats (State.countPort_frame ..))⟩
    · exact ⟨.refl u, .refl u⟩
  generalize (if !(s.att a).cmds.isEmpty then (u.attEvent a 5).countPort (a / 16) 6 1 else u) = v at hcut ⊢
  have key : ∀ t, u.AttsKept t → SameBytes u t → s.AttMoved t a ∧ (t.att a).state = .empty ∧ (t.att a).status = status
      ∧ (t.att a).rx = {} ∧ (t.att a).tx = {} ∧ SameBytes s t := by
    intro t ht hb
    obtain ⟨h1, h2, h3, h4⟩ := hf' (((s0.attWithdrawn a).chanClear a).att a) q
    rw [ht.att, hq]
    exact ⟨hm3.beside ht, h1, h2, h3, h4, hb3.trans hb⟩
  have hl : u.AttsKept (v.laneAtt a 9) := hcut.1.trans (.laneAtt ..)
  have hlb : SameBytes u (v.laneAtt a 9) := hcut.2.trans (.laneAtt ..)
  split
  · exact key _ hl hlb
  · exact key _ (hl.trans (.modPort _ _ fun _ => rfl)) (hlb.trans (.modPort ..))

end Sys2Proof.Machine

namespace Sys2Proof.Machine

/-- The attachments of a port without a device have nothing to detach. -/
theorem State.detachAll_of_empty {s : State} {n : Nat} (h : PortEmpty s n) (status : Nat) : s.detachAll n status = s := by
  unfold State.detachAll
  unfold PortEmpty at h
  generalize portAtts (16 * n) = l at h
  induction l with
  | nil => rfl
  | cons a l ih =>
    rw [List.foldl_cons, State.attDetach, if_pos (h a List.mem_cons_self)]
    exact ih fun b hb => h b (List.mem_cons_of_mem a hb)

theorem State.port_modPort_self (s : State) (n : Nat) (f : Port → Port) : (s.modPort n f).port n = f (s.port n) :=
  (s.port_modPort n f n).trans (if_pos rfl)

theorem State.port_modPort_ne (s : State) {n m : Nat} (f : Port → Port) (h : m ≠ n) : (s.modPort n f).port m = s.port m :=
  (s.port_modPort n f m).trans (if_neg h)

/-- A device whose connection has been found debounces, and one that is stable is enumerated (R292, R309). -/
theorem debounce_or_enumerates (s : State) (n a : Nat) :
    (∀ hub : Bool, (s.port n).cfg.mode = 1 → (s.port n).vbus = true → (s.att (16 * n)).state = .empty → (hub = true → (s.port n).cfg.hubs = true)
      → none ∉ (s.port n).refused → Completes (.usbConnect n none hub) s (fun t => (t.att (16 * n)).state = .debounce ∧ (t.att (16 * n)).tier = 0
        ∧ (t.att (16 * n)).since = s.now ∧ OtherAtts s t (16 * n) ∧ SameBytes s t))
    ∧ ((s.att a).state = .debounce → (s.att a).since + 100000000 ≤ s.now → Completes (.debounceStable a) s (fun t =>
        (t.att a).state = .enumerating ∧ (t.att a).since = s.now ∧ OtherAtts s t a))
    ∧ ((s.att a).state = .debounce → s.now < (s.att a).since + 100000000 → Completes (.debounceStable a) s (fun t => t = s)) := by
  refine ⟨fun hub hm hv he hh hr => ?_, fun hs ht => ?_, fun hs ht => ?_⟩
  · obtain ⟨q, hq⟩ := s.att_attChange (16 * n) (fun t => { seq := t.seq, state := .debounce, tier := 0, parent := 0, hubPort := 0, since := s.now })
    refine ⟨_, usbConnect_debounces hm hv he hh hr, ?_⟩
    beta_reduce
    rw [hq]
    exact ⟨rfl, rfl, rfl, (State.AttMoved.attChange ..).others, .attChange ..⟩
  · obtain ⟨q, hq⟩ := s.att_attChange a (fun t => { t with state := .enumerating, since := s.now })
    have hk := State.AttsKept.hubReset (s.attChange a (fun t => { t with state := .enumerating, since := s.now })) a
    refine ⟨_, congrArg Host.Outcome.next (if_pos (by simp [hs, ht])), ?_⟩
    beta_reduce
    rw [hk.att, hq]
    exact ⟨rfl, rfl, ((State.AttMoved.attChange ..).beside hk).others⟩
  · exact ⟨s, congrArg Host.Outcome.next (if_neg (by simp [Nat.not_le.mpr ht])), rfl⟩

/-- Descriptors that cannot be read: twice the attempt is repeated, the third leaves the attachment FAILED (R292, R309). -/
theorem enumeration_fails {s : State} {a : Nat} (h : (s.att a).state = .enumerating) (hd : (s.att a).since + 60000000 ≤ s.now) :
    ((s.att a).attempts < 2 → Completes (.enumerationDone a none) s (fun t =>
        t.att a = { s.att a with attempts := (s.att a).attempts + 1, since := s.now } ∧ OtherAtts s t a))
    ∧ (2 ≤ (s.att a).attempts → Completes (.enumerationDone a none) s (fun t =>
        (t.att a).state = .failed ∧ (t.att a).status = 2 ∧ bitAt (t.port (a / 16)).event 6 = true ∧ OtherAtts s t a)) := by
  have hg : ¬((s.att a).state ≠ .enumerating ∨ s.now < (s.att a).since + 60000000) := by simp [h, Nat.not_lt.mpr hd]
  refine ⟨fun hatt => ?_, fun hatt => ?_⟩
  · have hk := State.AttsKept.hubReset (s.modAtt a (fun t => { t with attempts := t.attempts + 1, since := s.now })) a
    refine ⟨_, (if_neg (by simpa using hg)).trans (if_neg (Nat.not_le.mpr hatt)), ?_⟩
    beta_reduce
    rw [hk.att, State.att_modAtt_self]
    exact ⟨rfl, ((State.AttMoved.modAtt ..).beside hk).others⟩
  · obtain ⟨q, hq⟩ := s.att_attChange a (fun t => { t with state := .failed, status := 2, since := s.now })
    have hk := State.AttsKept.modPort (s.attChange a (fun t => { t with state := .failed, status := 2, since := s.now })) (a / 16)
      (f := fun p => { p with event := p.event ||| 64 }) fun _ => rfl
    refine ⟨_, (if_neg (by simpa using hg)).trans (if_pos hatt), ?_⟩
    beta_reduce
    rw [hk.att, hq, State.port_modPort_self]
    refine ⟨rfl, rfl, ?_, ((State.AttMoved.attChange ..).beside hk).others⟩
    simp only [bitAt_eq_testBit, Nat.testBit_or, Bool.or_eq_true]
    exact .inr (by decide)

/-- A hub that is configured is READY (R294). -/
theorem enumeration_hub {s : State} {a : Nat} (h : (s.att a).state = .enumerating) (hd : (s.att a).since + 60000000 ≤ s.now) {d : Descriptors}
    (hc : d.cls = 9) (hh : (s.port (a / 16)).cfg.hubs = true) (ht : (s.att a).tier < 2) : Completes (.enumerationDone a (some d)) s (fun t =>
      (t.att a).state = .ready ∧ (t.att a).hub = true ∧ (t.att a).speed = d.speed ∧ (t.att a).desc = some d ∧ OtherAtts s t a) := by
  refine ⟨_, exec_enumerationDone h hd d, ?_⟩
  unfold State.enumerated
  extract_lets s0 t c
  have h0 : s.AttMoved s0 a := (State.AttMoved.modAtt ..).beside (.emit ..)
  have htier : t.tier < 2 := by
    have : s0.att a = { s.att a with addr := 1 + a % 16 } := s.att_modAtt_self a (fun t => { t with addr := 1 + a % 16 })
    show (s0.att a).tier < 2
    rw [this]
    exact ht
  have hhub : c.hubs = true := (congrArg PortCfg.hubs (h0.cfg (a / 16))).trans hh
  beta_reduce
  rw [if_pos hc, if_pos (by simp [hhub, htier])]
  obtain ⟨q, hq⟩ := s0.att_attChange a (fun t => { t with state := .ready, hub := true, speed := d.speed, desc := some d, since := s0.now })
  have hm := h0.trans (.attChange s0 a (fun t => { t with state := .ready, hub := true, speed := d.speed, desc := some d, since := s0.now }))
  generalize s0.attChange a (fun t => { t with state := .ready, hub := true, speed := d.speed, desc := some d, since := s0.now }) = u at hq hm ⊢
  have hk : u.AttsKept ((u.modPort (a / 16) (fun p => { p with event := p.event ||| 1 })).laneAtt a 8) :=
    (State.AttsKept.modPort u (a / 16) (f := fun p => { p with event := p.event ||| 1 }) fun _ => rfl).trans (.laneAtt _ a 8)
  generalize (u.modPort (a / 16) (fun p => { p with event := p.event ||| 1 })).laneAtt a 8 = v at hk ⊢
  obtain ⟨hm2, k, l, hv⟩ := v.usbConfigure_moved a 0
  have hk2 : (v.usbConfigure a 0).AttsKept ((v.usbConfigure a 0).hubStart a) := (State.AttsKept.emit ..).trans (.emit ..)
  rw [hk2.att, hv, hk.att, hq]
  exact ⟨rfl, rfl, rfl, rfl, (((hm.beside hk).trans hm2).beside hk2).others⟩

/-- The room of a receive channel follows from the channels and reserves of its port. -/
theorem State.rxFree_congr {s t : State} {a : Nat} (h : ∀ b, (t.att b).rx = (s.att b).rx ∧ (t.att b).resRx = (s.att b).resRx) :
    t.rxFree a = s.rxFree a := by
  unfold State.rxFree
  simp only [(h _).1, (h _).2]

/-- A device that no profile knows is FAILED, and one whose first candidate names no probe is READY with it (R309, R311). -/
theorem enumeration_probes {s : State} {a : Nat} (h : (s.att a).state = .enumerating) (hd : (s.att a).since + 60000000 ≤ s.now) {d : Descriptors}
    (hc : d.cls ≠ 9)
    (hroom : ceilDiv (maxInOf d) 4 + 1 ≤ (s.modAtt a (fun t => { t with
      resRx := (s.port (a / 16)).cfg.reserve (s.port (a / 16)).cfg.resRx (a % 16)
      resTx := (s.port (a / 16)).cfg.reserve (s.port (a / 16)).cfg.resTx (a % 16) })).rxFree a) :
    ∃ t, exec (.enumerationDone a (some d)) s = .next (t.tryCand a 0) ∧ s.AttMoved t a
      ∧ t.candidates a = (s.modAtt a (fun t => { t with desc := some d })).candidates a := by
  rw [exec_enumerationDone h hd d]
  unfold State.enumerated
  extract_lets s0 t c room s1
  have h0 : s.AttMoved s0 a := (State.AttMoved.modAtt ..).beside (.emit ..)
  have hatt0 : s0.att a = { s.att a with addr := 1 + a % 16 } := s.att_modAtt_self a (fun t => { t with addr := 1 + a % 16 })
  have hdesc : (s1.att a).desc = some d := congrArg Att.desc (s0.att_modAtt_self a (fun t => { t with desc := some d }))
  have hroom0 : room = (s.modAtt a (fun t => { t with
      resRx := (s.port (a / 16)).cfg.reserve (s.port (a / 16)).cfg.resRx (a % 16)
      resTx := (s.port (a / 16)).cfg.reserve (s.port (a / 16)).cfg.resTx (a % 16) })).rxFree a := by
    have hcfg : c = (s.port (a / 16)).cfg := h0.cfg (a / 16)
    refine State.rxFree_congr fun b => ?_
    rw [State.att_modAtt, State.att_modAtt, hcfg]
    split
    · rw [hatt0]
      exact ⟨rfl, rfl⟩
    · next hb => exact ⟨congrArg Att.rx (h0.others b hb), congrArg Att.resRx (h0.others b hb)⟩
  rw [if_neg hc, if_neg (by rw [hroom0]; exact Nat.not_lt.mpr hroom)]
  obtain ⟨u, hu, hm, hcand⟩ := State.enterProbing_tries (s1.modAtt a (fun t => { t with speed := d.speed })) a
  have h1 : s.AttMoved s1 a := h0.trans (.modAtt ..)
  have h2 : s.AttMoved (s1.modAtt a (fun t => { t with speed := d.speed })) a := h1.trans (.modAtt ..)
  refine ⟨u, congrArg Host.Outcome.next hu, h2.trans hm, hcand.trans ?_⟩
  have hs : (s.modAtt a (fun t => { t with desc := some d })).AttMoved (s1.modAtt a (fun t => { t with speed := d.speed })) a :=
    ⟨fun b hb => (h2.others b hb).trans (State.att_modAtt_ne s _ hb).symm, h2.img, h2.attic, h2.now, h2.cfg⟩
  refine hs.candidates ?_
  have hdesc2 : ((s1.modAtt a (fun t => { t with speed := d.speed })).att a).desc = (s1.att a).desc :=
    (congrArg Att.desc (s1.att_modAtt_self a (fun t => { t with speed := d.speed })) :)
  have hdesc3 : ((s.modAtt a (fun t => { t with desc := some d })).att a).desc = some d :=
    congrArg Att.desc (s.att_modAtt_self a (fun t => { t with desc := some d }))
  rw [hdesc2, hdesc, hdesc3]

/-- What ENUMERATION_DONE does with a device that is no hub: no candidate, or a first one that names no probe. -/
theorem enumeration_ends {s : State} {a : Nat} (h : (s.att a).state = .enumerating) (hd : (s.att a).since + 60000000 ≤ s.now) {d : Descriptors}
    (hc : d.cls ≠ 9) (himg : s.attic.config = .image)
    (hroom : ceilDiv (maxInOf d) 4 + 1 ≤ (s.modAtt a (fun t => { t with
      resRx := (s.port (a / 16)).cfg.reserve (s.port (a / 16)).cfg.resRx (a % 16)
      resTx := (s.port (a / 16)).cfg.reserve (s.port (a / 16)).cfg.resTx (a % 16) })).rxFree a) :
    ((s.modAtt a (fun t => { t with desc := some d })).candidates a = [] → Completes (.enumerationDone a (some d)) s (fun t =>
        (t.att a).state = .failed ∧ (t.att a).status = 3 ∧ OtherAtts s t a))
    ∧ (∀ q rest, (s.modAtt a (fun t => { t with desc := some d })).candidates a = q :: rest → q.probe = 0 →
        Completes (.enumerationDone a (some d)) s (fun t =>
          (t.att a).state = .ready ∧ (t.att a).profile = q.num ∧ (t.att a).pver = q.verMax ∧ OtherAtts s t a)) := by
  obtain ⟨t, ht, hm, hcand⟩ := enumeration_probes h hd hc hroom
  have himg' : t.attic.config = .image := (congrArg Attic.config hm.attic).trans himg
  refine ⟨fun hl => ⟨_, ht, ?_⟩, fun q rest hl hq => ⟨_, ht, ?_⟩⟩
  · obtain ⟨hm2, h1, h2, -⟩ := State.tryCand_none (i := 0) himg' (by rw [hcand, hl]; rfl)
    exact ⟨h1, h2, (hm.trans hm2).others⟩
  · obtain ⟨hm2, h1, h2, h3⟩ := State.tryCand_unprobed (i := 0) himg' (q := q) (by rw [hcand, hl]; rfl) hq
    exact ⟨h1, h2, h3, (hm.trans hm2).others⟩

/-- A probe program that has ended in time with SUCCESS and a version within the range makes its attachment READY (R313). -/
theorem probeEnd_accepts {s : State} {a : Nat} {r : ProbeRun} {q : Profile} (hs : (s.att a).state = .probing) (hr : (s.att a).probe = some r)
    (hq : (s.candidates a)[r.cand]? = some q) (hfree : (s.ctx r.ctx).state = .free) (h0 : (s.ctx r.ctx).lastStatus = 0)
    (hmin : q.verMin ≤ (s.ctx r.ctx).lastUnit) (hmax : (s.ctx r.ctx).lastUnit ≤ q.verMax)
    (ht : (s.ctx r.ctx).endedAt ≤ (s.att a).probeStart + q.timeoutMs * 1000000) : Completes (.probeEnd a) s (fun t =>
      (t.att a).state = .ready ∧ (t.att a).profile = q.num ∧ (t.att a).pver = (s.ctx r.ctx).lastUnit ∧ (t.att a).probe = none) := by
  have hexec : exec (.probeEnd a) s
      = .next ((s.attAccept a q.num (s.ctx r.ctx).lastUnit (s.candEntries a)[r.cand]?).probesOf a) := by
    simp only [exec, execProbeEnd, hs, hr]
    rw [if_neg (by simp [hfree]), hq]
    dsimp only
    rw [if_pos (by simp [h0, hmin, hmax, State.probeInTime, hr, hfree, ht])]
  obtain ⟨-, h1, h2, h3, h4, h5⟩ := s.attAccept_ready a q.num (s.ctx r.ctx).lastUnit (s.candEntries a)[r.cand]?
  refine ⟨_, hexec, ?_⟩
  beta_reduce
  rw [State.probesOf_att a h5]
  exact ⟨h1, h2, h3, h4⟩

/-- A probe that takes too long gives way; with no candidate left its attachment is FAILED (R313). -/
theorem probeTimeout_fails {s : State} {a : Nat} {r : ProbeRun} {q : Profile} (hs : (s.att a).state = .probing) (hr : (s.att a).probe = some r)
    (hq : (s.candidates a)[r.cand]? = some q) :
    (s.now < (s.att a).probeStart + q.timeoutMs * 1000000 → Completes (.probeTimeout a) s (fun t => t = s))
    ∧ ((s.att a).probeStart + q.timeoutMs * 1000000 ≤ s.now → s.attic.config = .image → (s.candidates a)[r.cand + 1]? = none →
      (s.ctx r.ctx).live = false → ((s.ctx r.ctx).state = .free → (s.att a).probeStart + q.timeoutMs * 1000000 < (s.ctx r.ctx).endedAt) →
      Completes (.probeTimeout a) s (fun t => (t.att a).state = .failed ∧ (t.att a).status = 3 ∧ (t.att a).probe = none)) := by
  have hexec : exec (.probeTimeout a) s = .next (if (s.att a).probeStart + q.timeoutMs * 1000000 ≤ s.now && !s.probeInTime a q then
      (((s.modAtt a (fun t => { t with probe := none })).haltOp r.ctx).tryCand a (r.cand + 1)).probesOf a else s) := by
    simp only [exec, execProbeTimeout, hs, hr]
    rw [hq]
  refine ⟨fun ht => ⟨s, hexec.trans (congrArg Host.Outcome.next (if_neg (by simp [Nat.not_le.mpr ht]))), rfl⟩, fun ht himg hnone hlive hend => ?_⟩
  have hlate : s.probeInTime a q = false := by
    simp only [State.probeInTime, hr, Option.any_some, Bool.and_eq_false_iff, decide_eq_false_iff_not]
    by_cases hf : (s.ctx r.ctx).state = .free
    · exact .inr (Nat.not_le.mpr (hend hf))
    · exact .inl hf
  have hhalt : (s.modAtt a (fun t => { t with probe := none })).haltOp r.ctx = s.modAtt a (fun t => { t with probe := none }) := by
    have : ((s.modAtt a (fun t => { t with probe := none })).ctx r.ctx).live = false := hlive
    unfold State.haltOp
    dsimp only
    rw [this]
    rfl
  have hcand : (s.modAtt a (fun t => { t with probe := none })).candidates a = s.candidates a :=
    (State.AttMoved.modAtt s a (fun t => { t with probe := none })).candidates
      (congrArg Att.desc (s.att_modAtt_self a (fun t => { t with probe := none })) :)
  obtain ⟨-, h1, h2, h3, h4⟩ := State.tryCand_none (s := s.modAtt a (fun t => { t with probe := none })) (i := r.cand + 1) himg
    (by rw [hcand]; exact hnone)
  refine ⟨_, hexec.trans (congrArg Host.Outcome.next (if_pos (by simp [ht, hlate]))), ?_⟩
  beta_reduce
  rw [hhalt, State.probesOf_att a h4]
  exact ⟨h1, h2, h3⟩

/-- A failed serial attachment is probed again 5 s after it failed (R309). -/
theorem reprobe_accepts {s : State} {a : Nat} (hs : (s.att a).state = .failed) (hm : (s.port (a / 16)).cfg.mode ≠ 1) (himg : s.attic.config = .image) :
    (s.now < (s.att a).since + 5000000000 → Completes (.reprobeTimer a) s (fun t => t = s))
    ∧ ((s.att a).since + 5000000000 ≤ s.now → ∀ q rest, s.candidates a = q :: rest → q.probe = 0 → Completes (.reprobeTimer a) s (fun t =>
      (t.att a).state = .ready ∧ (t.att a).profile = q.num ∧ (t.att a).pver = q.verMax ∧ OtherAtts s t a)) := by
  refine ⟨fun ht => ⟨s, congrArg Host.Outcome.next (if_neg (by simp [Nat.not_le.mpr ht])), rfl⟩, fun ht q rest hl hq => ?_⟩
  obtain ⟨t, hprobe, hmv, hcand⟩ := s.enterProbing_tries a
  obtain ⟨hm2, h1, h2, h3⟩ := State.tryCand_unprobed (s := t) (a := a) (i := 0) (q := q) ((congrArg Attic.config hmv.attic).trans himg)
    (by rw [hcand, hl]; rfl) hq
  refine ⟨_, congrArg Host.Outcome.next ((if_pos (by simp [hs, hm, ht])).trans hprobe), ?_⟩
  exact ⟨h1, h2, h3, (hmv.trans hm2).others⟩

theorem State.AttsKept.keepRefused (s : State) (n : Nat) (keep : Option (Nat × Nat) → Bool) : s.AttsKept (s.keepRefused n keep) := by
  unfold State.keepRefused
  exact State.AttsKept.modPort s n fun _ => rfl

/-- An attachment without anything behind it that is removed while no context is in a CCW (R294, R309). -/
theorem usbDisconnect_empties {s : State} {a : Nat} (hm : (s.port (a / 16)).cfg.mode = 1) (hne : (s.att a).state ≠ .empty)
    (hb : s.behind a = []) (hc : NoCcw s) : Completes (.usbDisconnect a) s (fun t =>
      (t.att a).state = .empty ∧ (t.att a).status = 0 ∧ (t.att a).rx = {} ∧ (t.att a).tx = {} ∧ OtherAtts s t a ∧ SameBytes s t) := by
  have htree : s.detachTree a 0 3 = s.attDetach a 0 := by
    unfold State.detachTree
    rw [hb]
    rfl
  have hexec : exec (.usbDisconnect a) s = .next (if (s.att a).hub then (s.attDetach a 0).keepRefused (a / 16)
      (fun p => p.all (fun w => ((s.attDetach a 0).att (16 * (a / 16) + w.1)).hub)) else s.attDetach a 0) := by
    simp only [exec, execUsbDisconnect]
    rw [if_neg (by simp [hm]), htree]
  obtain ⟨hmv, h1, h2, h3, h4, hbytes⟩ := State.attDetach_empty hne (fun c => (hc c).1) 0
  refine ⟨_, hexec, ?_⟩
  beta_reduce
  split
  · have hk := State.AttsKept.keepRefused (s.attDetach a 0) (a / 16) (fun p => p.all (fun w => ((s.attDetach a 0).att (16 * (a / 16) + w.1)).hub))
    rw [hk.att]
    exact ⟨h1, h2, h3, h4, (hmv.beside hk).others, hbytes⟩
  · exact ⟨h1, h2, h3, h4, hmv.others, hbytes⟩

theorem overcurrent_cuts {s : State} {n : Nat} (hv : (s.port n).vbus = true) (he : PortEmpty s n) : Completes (.overcurrent n) s (fun t =>
    (t.port n).vbus = false ∧ (t.port n).ocCnt = satInc32 (s.port n).ocCnt ∧ bitAt (t.port n).event 3 = true
      ∧ (let times := s.now :: (s.port n).ocTimes.filter (fun t => s.now ≤ t + 60000000000)
         (t.port n).ocLockout = decide (3 ≤ times.length)
           ∧ (t.port n).ocRetry = if 3 ≤ times.length then none else some (s.now + (s.port n).cfg.ocRetryMs * 1000000))
      ∧ ∀ m, m ≠ n → t.port m = s.port m) := by
  generalize htimes : s.now :: (s.port n).ocTimes.filter (fun t => s.now ≤ t + 60000000000) = times
  have hexec : exec (.overcurrent n) s = .next ((s.modPort n (fun p => { p with
      vbus := false, ocTimes := times, ocLockout := decide (3 ≤ times.length), event := p.event ||| 8, ocCnt := satInc32 p.ocCnt
      refused := []
      ocRetry := if 3 ≤ times.length then none else some (s.now + p.cfg.ocRetryMs * 1000000) })).report
        (faultMsg (64 + n / 16) (n % 16) 0x0E n (s.portWorld n) false)) := by
    subst htimes
    simp only [exec, execOvercurrent, hv]
    rw [State.detachAll_of_empty he]
    rfl
  refine ⟨_, hexec, ?_⟩
  have hrep : ∀ (t : State) (msg : W64) (m : Nat), (t.report msg).port m = t.port m := fun t msg m =>
    congrArg (fun l => Tbl.get ({} : Port) l m) (congrArg State.ports (State.report_frame t msg none) :)
  simp only [hrep]
  refine ⟨?_, ?_, ?_, ⟨?_, ?_⟩, fun m hm => State.port_modPort_ne s _ hm⟩
  all_goals rw [State.port_modPort_self]
  simp only [bitAt_eq_testBit, Nat.testBit_or, Bool.or_eq_true]
  exact .inr (by decide)

theorem State.modPort_frame (s : State) (n : Nat) (f : Port → Port) : { s.modPort n f with ports := s.ports } = s := rfl

theorem State.portPower_frame (s : State) (n : Nat) : { s.portPower n with ports := s.ports } = s := rfl

theorem State.port_portPower (s : State) (n : Nat) : (s.portPower n).port n = { s.port n with vbus :=
    (s.port n).cfg.mode = 1 && (s.port n).enabled && !(s.port n).ocLockout && (s.port n).ocRetry.isNone && !((s.port n).cfg.vbusSafeOff && (s.port n).safe) } :=
  s.port_modPort_self n _

theorem ocRetry_powers {s : State} {n t1 : Nat} (h : (s.port n).ocRetry = some t1) (ht : t1 ≤ s.now) : Completes (.ocRetryExpiry n) s (fun t =>
    (t.port n).ocRetry = none
      ∧ (t.port n).vbus = ((s.port n).cfg.mode = 1 && (s.port n).enabled && !(s.port n).ocLockout && !((s.port n).cfg.vbusSafeOff && (s.port n).safe))
      ∧ { t with ports := s.ports } = s) := by
  have hexec : exec (.ocRetryExpiry n) s = .next ((s.modPort n (fun p => { p with ocRetry := none })).portPower n) := by
    simp only [exec, execOcRetryExpiry, h]
    rw [if_pos ht]
  refine ⟨_, hexec, ?_⟩
  have hport : ((s.modPort n (fun p => { p with ocRetry := none })).portPower n).port n = { s.port n with
      ocRetry := none, vbus := (s.port n).cfg.mode = 1 && (s.port n).enabled && !(s.port n).ocLockout && !((s.port n).cfg.vbusSafeOff && (s.port n).safe) } := by
    rw [State.port_portPower, State.port_modPort_self]
    simp
  have hframe : { (s.modPort n (fun p => { p with ocRetry := none })).portPower n with ports := s.ports } = s :=
    (congrArg (fun t : State => { t with ports := s.ports }) ((s.modPort n (fun p => { p with ocRetry := none })).portPower_frame n) :)
  beta_reduce
  rw [hport]
  exact ⟨rfl, rfl, hframe⟩

/-- The pins of a port without a pulse go low, and nothing but the port changes. -/
theorem State.pinsOff_of_quiet {s : State} {n : Nat} (h : ∀ i, ((s.port n).pin i).pulseEnd = none) :
    { s.pinsOff n with ports := s.ports } = s ∧ PortEmpty (s.pinsOff n) n = PortEmpty s n := by
  unfold State.pinsOff
  generalize (s.port n).cfg.outputs = l
  induction l generalizing s with
  | nil => exact ⟨rfl, rfl⟩
  | cons i l ih =>
    have hcut : s.pulseCut n i = s := if_neg (by simp [h i])
    rw [List.foldl_cons, hcut]
    have hpin : ∀ j, (((s.modPin n i (fun p => { p with level := false, blink := none })).port n).pin j).pulseEnd = none := by
      intro j
      unfold State.modPin Port.pin
      rw [State.port_modPort_self, Tbl.get_upd]
      split
      · exact h i
      · exact h j
    obtain ⟨h1, h2⟩ := ih hpin
    exact ⟨(congrArg (fun t : State => { t with ports := s.ports }) h1 :), h2⟩

theorem phyFault_disables {s : State} {n : Nat} (hen : (s.port n).enabled = true) (he : PortEmpty s n) (hp : ∀ i, ((s.port n).pin i).pulseEnd = none) :
    Completes (.portPhyFault n) s (fun t => (t.port n).enabled = false ∧ (t.port n).vbus = false ∧ { t with ports := s.ports } = s) := by
  obtain ⟨hframe, hempty⟩ := State.pinsOff_of_quiet hp
  have hexec : exec (.portPhyFault n) s = .next (((s.pinsOff n).modPort n (fun p => { p with
      enabled := false, lpZ := true, ocRetry := none, rts := false, rtsAt := none, refused := [] })).portPower n) := by
    simp only [exec, execPortPhyFault, State.portDisable]
    rw [if_pos hen, State.detachAll_of_empty (by rw [hempty]; exact he)]
  generalize s.pinsOff n = u at hframe hexec
  generalize hf : (fun p : Port => ({ p with
      enabled := false, lpZ := true, ocRetry := none, rts := false, rtsAt := none, refused := [] } : Port)) = f at hexec
  have hport : ((u.modPort n f).portPower n).port n = { f (u.port n) with vbus := false } := by
    rw [State.port_portPower, State.port_modPort_self, ← hf]
    simp
  refine ⟨_, hexec, ?_⟩
  beta_reduce
  rw [hport, ← hf]
  have hpower : { (u.modPort n f).portPower n with ports := u.ports } = u :=
    (congrArg (fun t : State => { t with ports := u.ports }) ((u.modPort n f).portPower_frame n) :)
  exact ⟨rfl, rfl, (congrArg (fun t : State => { t with ports := s.ports }) (hf ▸ hpower) :).trans hframe⟩

/-- Settles O35: by the command, through the lemmas on what accepting, rejecting, probing and detaching an attachment do. -/
theorem portsDiscover : Obligations.PortsDiscover := by
  intro s n a
  obtain ⟨hconn, hdeb, hearly⟩ := debounce_or_enumerates s n a
  refine ⟨hconn, hdeb, hearly, fun hs ht => ⟨(enumeration_fails hs ht).1, (enumeration_fails hs ht).2, fun d => ⟨enumeration_hub hs ht, fun hc himg hroom =>
    enumeration_ends hs ht hc himg hroom⟩⟩, fun r q hs hr hq => ⟨fun hf h0 h1 h2 h3 => probeEnd_accepts hs hr hq hf h0 h1 h2 h3, probeTimeout_fails hs hr hq⟩,
    reprobe_accepts, usbDisconnect_empties, overcurrent_cuts, fun t1 => ocRetry_powers, phyFault_disables⟩

end Sys2Proof.Machine

namespace Sys2Proof.Machine

/-! ### Events latched in every context (R105, R327) -/

/-- No context has lost a latched event, and each names the same targets. -/
def State.Latches (s t : State) : Prop :=
  ∀ c, (t.ctx c).state = (s.ctx c).state ∧ (∀ k i, (t.ctx c).targetsNaming k i = (s.ctx c).targetsNaming k i)
    ∧ ∀ i b, bitAt (Tbl.get 0 (s.ctx c).latch i) b = true → bitAt (Tbl.get 0 (t.ctx c).latch i) b = true

theorem latchFold_bit (l : List Nat) (t : Tbl Nat) (e i b : Nat) :
    bitAt (Tbl.get 0 (l.foldl (fun t i => Tbl.upd 0 t i (fun v => v ||| e)) t) i) b = true
      ↔ bitAt (Tbl.get 0 t i) b = true ∨ (i ∈ l ∧ bitAt e b = true) := by
  induction l generalizing t with
  | nil => simp
  | cons j l ih =>
    rw [List.foldl_cons, ih, Tbl.get_upd]
    by_cases h : i = j
    · subst h
      simp only [if_pos, bitAt_eq_testBit, Nat.testBit_or, Bool.or_eq_true, List.mem_cons, true_or, true_and]
      tauto
    · simp only [List.mem_cons, h, if_false, false_or]

namespace State.Latches
variable {s t u : State}

theorem of_ctxs (h : t.ctxs = s.ctxs) : s.Latches t := fun c => by
  have hc : t.ctx c = s.ctx c := congrArg (fun l => Tbl.get ({} : Ctx) l c) h
  rw [hc]
  exact ⟨rfl, fun _ _ => rfl, fun _ _ => id⟩

theorem refl (s : State) : s.Latches s := of_ctxs rfl

theorem trans (h : s.Latches t) (g : t.Latches u) : s.Latches u := fun c =>
  ⟨(g c).1.trans (h c).1, fun k i => ((g c).2.1 k i).trans ((h c).2.1 k i), fun i b hb => (g c).2.2 i b ((h c).2.2 i b hb)⟩

theorem modAtt (s : State) (a : Nat) (f : Att → Att) : s.Latches (s.modAtt a f) := of_ctxs rfl

theorem attEvent (s : State) (a bit : Nat) : s.Latches (s.attEvent a bit) := by
  intro c
  rw [State.ctx_attEvent]
  obtain ⟨o, l, al, hl⟩ := (s.ctx c).latchedBy_eq s.now 0 a (2 ^ bit)
  refine ⟨by rw [hl], fun k i => by rw [hl]; rfl, fun i b hb => ?_⟩
  unfold Ctx.latchedBy
  split
  · exact hb
  · exact (latchFold_bit _ _ _ i b).mpr (.inl hb)

end State.Latches

/-- An event of an attachment, with what was latched before and after it. -/
theorem State.attEvent_latched {s u t : State} {a bit : Nat} (h : s.Latches u) (g : (u.attEvent a bit).Latches t) : AttLatched s t a bit := by
  intro c i hfree hi
  have hu := h c
  refine (g c).2.2 i bit ?_
  rw [State.ctx_attEvent]
  unfold Ctx.latchedBy
  rw [if_neg (by rw [hu.1]; exact hfree)]
  refine (latchFold_bit _ _ _ i bit).mpr (.inr ⟨by rw [hu.2.1]; exact hi, ?_⟩)
  simp [bitAt_eq_testBit]

/-! ### Functions of the FIFOs (R316 to R324)

They change the two channels of one attachment, and beside them counts and events alone. -/

/-- Of the attachments the channels of one alone have changed; no latched event is lost, and no byte of memory has changed. -/
structure State.FifoMoved (s t : State) (a : Nat) : Prop where
  moved : s.AttMoved t a
  latches : s.Latches t
  bytes : SameBytes s t
  own : ∃ r x, t.att a = { s.att a with rx := r, tx := x }

namespace State.FifoMoved
variable {s t u : State} {a : Nat}

theorem refl (s : State) (a : Nat) : s.FifoMoved s a := ⟨(State.AttsKept.refl s).moved a, .refl s, .refl s, _, _, rfl⟩

theorem trans (h : s.FifoMoved t a) (g : t.FifoMoved u a) : s.FifoMoved u a := by
  obtain ⟨r, x, ht⟩ := h.own
  obtain ⟨r', x', hu⟩ := g.own
  refine ⟨h.moved.trans g.moved, h.latches.trans g.latches, h.bytes.trans g.bytes, r', x', ?_⟩
  rw [hu, ht]

theorem of_kept (h : s.AttsKept t) (hl : s.Latches t) (hb : SameBytes s t) (a : Nat) : s.FifoMoved t a :=
  ⟨h.moved a, hl, hb, _, _, h.att a⟩

theorem modRx (s : State) (a : Nat) (f : RxChan → RxChan) : s.FifoMoved (s.modRx a f) a :=
  ⟨.modAtt .., .of_ctxs rfl, .modAtt .., _, _, s.att_modAtt_self a (fun t => { t with rx := f t.rx })⟩

theorem modTx (s : State) (a : Nat) (f : TxChan → TxChan) : s.FifoMoved (s.modTx a f) a :=
  ⟨.modAtt .., .of_ctxs rfl, .modAtt .., _, _, s.att_modAtt_self a (fun t => { t with tx := f t.tx })⟩

theorem attEvent (s : State) (b bit a : Nat) : s.FifoMoved (s.attEvent b bit) a := of_kept (.attEvent ..) (.attEvent s b bit) (.attEvent ..) a

theorem emit (s : State) (o : OutItem) (a : Nat) : s.FifoMoved (s.emit o) a := of_kept (.emit ..) (.of_ctxs rfl) (.refl s) a

theorem modPort (s : State) (n : Nat) {f : Port → Port} (hf : ∀ p, (f p).cfg = p.cfg) (a : Nat) : s.FifoMoved (s.modPort n f) a :=
  of_kept (.modPort s n hf) (.of_ctxs rfl) (.modPort ..) a

theorem countPort (s : State) (p i n a : Nat) : s.FifoMoved (s.countPort p i n) a :=
  of_kept (.countPort ..) (.of_ctxs (congrArg State.ctxs (State.countPort_frame s p i n) :)) (.of_stats (State.countPort_frame ..)) a

theorem report (s : State) (m : W64) (c : Option Nat) (a : Nat) : s.FifoMoved (s.report m c) a := by
  have h := State.report_frame s m c
  exact of_kept (.report ..) (.of_ctxs (congrArg State.ctxs h :)) (.of_mems (congrArg (fun u : State => u.pantry.mem) h :)
    (congrArg (fun u : State => u.cellar.mem) h :) (congrArg (fun u : State => u.flash.mem) h :) (congrArg State.hostMem h :)) a

theorem countLost (s : State) (n k a : Nat) : s.FifoMoved (s.countLost n k) a := by
  unfold State.countLost
  exact (modPort s n (f := fun p => { p with rxLost := satAt 0xFFFFFFFF (p.rxLost + k) }) (fun _ => rfl) a).trans (countPort _ n 4 k a)

theorem rtsFlow (s : State) (n a : Nat) : s.FifoMoved (s.rtsFlow n) a := by
  unfold State.rtsFlow
  dsimp only
  split
  · split
    · exact modPort s n (f := fun p => { p with rts := false }) (fun _ => rfl) a
    · split
      · exact modPort s n (f := fun p => { p with rts := true }) (fun _ => rfl) a
      · exact refl s a
  · exact refl s a

theorem rxGapTry (s : State) (a : Nat) : s.FifoMoved (s.rxGapTry a) a := by
  unfold State.rxGapTry
  dsimp only
  split
  · exact refl s a
  · have h1 : s.FifoMoved (if (s.att a).rx.gapAt.isNone && 0 < s.rxFree a then
        s.modRx a (fun r => { r with gapAt := some r.wpos, words := r.words ++ [{ w := 0, head := true }] }) else s) a := by
      split
      · exact modRx ..
      · exact refl s a
    generalize (if (s.att a).rx.gapAt.isNone && 0 < s.rxFree a then
        s.modRx a (fun r => { r with gapAt := some r.wpos, words := r.words ++ [{ w := 0, head := true }] }) else s) = t at h1 ⊢
    split
    · split
      · refine ((h1.trans (modRx ..)).trans (modPort _ _ ?_ _)).trans ((countPort ..).trans (attEvent ..))
        exact fun _ => rfl
      · exact h1
    · exact h1

theorem rxClose (s : State) (a flags : Nat) : s.FifoMoved (s.rxClose a flags) a := by
  unfold State.rxClose
  dsimp only
  split
  · exact (modRx ..).trans ((countPort ..).trans (attEvent ..))
  · exact refl s a

theorem rxBoundary (s : State) (a : Nat) : s.FifoMoved (s.rxBoundary a) a := (modRx ..).trans (rxGapTry ..)

theorem rxLose (s : State) (a k : Nat) : s.FifoMoved (s.rxLose a k) a := (modRx ..).trans ((countLost ..).trans (rxGapTry ..))

theorem usbClose (s : State) (a ep flags : Nat) : s.FifoMoved (s.usbClose a ep flags) a := by
  unfold State.usbClose
  split
  · exact (rxClose ..).trans (rxBoundary ..)
  · exact refl s a

theorem txChange (s : State) (a : Nat) (f : TxChan → TxChan) : s.FifoMoved (s.txChange a f) a := by
  unfold State.txChange
  dsimp only
  split
  · exact (modTx ..).trans (attEvent ..)
  · exact modTx ..

theorem portWordBad (s : State) (n at_ a : Nat) : s.FifoMoved (s.portWordBad n at_) a := by
  unfold State.portWordBad
  exact (modPort s n (f := fun p => { p with eccUncorr := satInc32 p.eccUncorr, event := p.event ||| 32 }) (fun _ => rfl) a).trans (report ..)

theorem txWordBad (s : State) (a : Nat) : s.FifoMoved (s.txWordBad a) a := by
  unfold State.txWordBad
  dsimp only
  split
  · split
    · exact (portWordBad ..).trans (txChange ..)
    · exact portWordBad ..
  · exact portWordBad ..

theorem lineErrs (s : State) (n k a : Nat) : s.FifoMoved (s.lineErrs n k) a := by
  unfold State.lineErrs
  split
  · exact refl s a
  · exact (modPort s n (f := fun p => { p with lineErr := satAt 0xFFFFFFFF (p.lineErr + k) }) (fun _ => rfl) a).trans (countPort _ n 7 k a)

theorem rxPack (s : State) (a : Nat) (l : List Byte) : s.FifoMoved (s.rxPack a l) a := by
  induction l generalizing s with
  | nil => exact refl s a
  | cons b l ih =>
    unfold State.rxPack
    exact (modRx ..).trans (ih _)

theorem of_rxOpen (h : s.rxOpen a = some t) : s.FifoMoved t a := by
  unfold State.rxOpen at h
  split_ifs at h <;> cases h
  · exact refl s a
  · exact modRx ..

theorem rxBytes (s : State) (a : Nat) (l : List Byte) : s.FifoMoved (s.rxBytes a l).2 a := by
  unfold State.rxBytes
  dsimp only
  split
  · exact (rxGapTry ..).trans (rxLose ..)
  · split
    · exact (rxGapTry ..).trans (rxLose ..)
    · next u hu =>
      have hopen := (rxGapTry s a).trans (of_rxOpen hu)
      split
      · exact hopen.trans (rxLose ..)
      · exact hopen.trans ((rxPack ..).trans (countPort ..))

end State.FifoMoved

end Sys2Proof.Machine

namespace Sys2Proof.Machine

/-! ### The ends of port commands, pulses and blinks (R300 to R308) -/

/-- One attachment alone has changed, and not in its pending commands and its error; no latched event is lost, and no byte of memory has changed. -/
structure State.CmdsKept (s t : State) (a : Nat) : Prop where
  moved : s.AttMoved t a
  latches : s.Latches t
  bytes : SameBytes s t
  cmds : (t.att a).cmds = (s.att a).cmds
  error : (t.att a).error = (s.att a).error
  errEp : (t.att a).errEp = (s.att a).errEp

namespace State.CmdsKept
variable {s t u : State} {a : Nat}

theorem of_fifo (h : s.FifoMoved t a) : s.CmdsKept t a := by
  obtain ⟨r, x, ht⟩ := h.own
  exact ⟨h.moved, h.latches, h.bytes, by rw [ht], by rw [ht], by rw [ht]⟩

theorem trans (h : s.CmdsKept t a) (g : t.CmdsKept u a) : s.CmdsKept u a :=
  ⟨h.moved.trans g.moved, h.latches.trans g.latches, h.bytes.trans g.bytes, g.cmds.trans h.cmds, g.error.trans h.error, g.errEp.trans h.errEp⟩

theorem modAtt (s : State) (a : Nat) {f : Att → Att} (hf : ∀ x, (f x).cmds = x.cmds ∧ (f x).error = x.error ∧ (f x).errEp = x.errEp) :
    s.CmdsKept (s.modAtt a f) a := by
  obtain ⟨h1, h2, h3⟩ := hf (s.att a)
  refine ⟨.modAtt .., .of_ctxs rfl, .modAtt .., ?_, ?_, ?_⟩
  all_goals rw [State.att_modAtt_self]; assumption

end State.CmdsKept

theorem Att.toggled_eq (t : Att) (ep k : Nat) : ∃ l, t.toggled ep k = { t with toggles := l } := by
  unfold Att.toggled
  split
  · exact ⟨_, rfl⟩
  · exact ⟨_, rfl⟩

/-- A command's error is set and counted. -/
theorem State.attFail_fails (s : State) (a e : Nat) : s.AttMoved (s.attFail a e) a ∧ s.Latches (s.attFail a e) ∧ SameBytes s (s.attFail a e)
    ∧ ∃ q, (s.attFail a e).att a = { s.att a with error := e, seq := q } := by
  have hl : s.Latches (s.attError a e) := by
    unfold State.attError State.attChange
    dsimp only
    split
    · exact (State.Latches.modAtt s a _).trans (.attEvent _ a 3)
    · exact .modAtt s a _
  have hm : s.AttMoved (s.attError a e) a := .attChange ..
  have hb : SameBytes s (s.attError a e) := .attChange ..
  obtain ⟨q, hq⟩ : ∃ q, (s.attError a e).att a = { s.att a with error := e, seq := q } := s.att_attChange a (fun t => { t with error := e })
  unfold State.attFail
  generalize s.attError a e = u at hl hm hb hq ⊢
  have hk := State.FifoMoved.countPort u (a / 16) 6 1 a
  have hatt := (State.AttsKept.countPort u (a / 16) 6 1).att a
  exact ⟨hm.trans hk.moved, hl.trans hk.latches, hb.trans hk.bytes, q, hatt.trans hq⟩

/-- A command that ends is taken off the pending ones, with its error, and CMD_DONE is latched (R305, R307, R327). -/
theorem State.cmdEnd_ends (s : State) (a : Nat) (x : PortCmd) (err : Nat) :
    ((s.cmdEnd a x err).att a).cmds = (s.att a).cmds.erase x ∧ ((s.cmdEnd a x err).att a).error = (if err = 0 then (s.att a).error else err)
      ∧ ((s.cmdEnd a x err).att a).errEp = (if err = 0 then (s.att a).errEp else x.ep) ∧ AttLatched s (s.cmdEnd a x err) a 5
      ∧ OtherAtts s (s.cmdEnd a x err) a ∧ SameBytes s (s.cmdEnd a x err) := by
  unfold State.cmdEnd
  extract_lets n s1 s2 s3 mps s4
  have hatt1 : s1.att a = { s.att a with cmds := (s.att a).cmds.erase x, errEp := if err = 0 then (s.att a).errEp else x.ep } :=
    s.att_modAtt_self a (fun t => { t with cmds := t.cmds.erase x, errEp := if err = 0 then t.errEp else x.ep })
  have hm1 : s.AttMoved s1 a := .modAtt ..
  have hl1 : s.Latches s1 := .of_ctxs rfl
  have hb1 : SameBytes s s1 := .modAtt ..
  clear_value s1
  have h2 : s1.CmdsKept s2 a := by
    dsimp only [s2]
    split
    · exact .of_fifo ((State.FifoMoved.rxClose ..).trans (.rxBoundary ..))
    · split
      · exact .of_fifo (.usbClose ..)
      · exact .of_fifo (.refl ..)
  have h3 : s1.CmdsKept s3 a := by
    refine h2.trans ?_
    dsimp only [s3]
    split
    · exact .of_fifo (.txWordBad ..)
    · split
      · exact .of_fifo (.lineErrs ..)
      · exact .of_fifo (.refl ..)
  have h4 : s1.CmdsKept s4 a := by
    refine h3.trans ?_
    clear_value s3
    dsimp only [s4]
    have hid : s3.CmdsKept s3 a := .of_fifo (.refl ..)
    split
    · split
      · refine (State.CmdsKept.modAtt s3 a fun y => ?_).trans (.of_fifo (.emit ..))
        obtain ⟨l, hl⟩ := y.toggled_eq x.ep 1
        rw [hl]
        exact ⟨rfl, rfl, rfl⟩
      · exact hid
    · split
      · exact .modAtt s3 a fun y => ⟨rfl, rfl, rfl⟩
      · exact hid
    · split
      · exact .of_fifo (.emit ..)
      · exact hid
    · split
      · exact .of_fifo (.modPort s3 n (f := fun p => { p with lineSel := x.arg }) (fun _ => rfl) a)
      · exact hid
    · exact hid
  clear_value s4
  have hend : ∀ u v : State, s.AttMoved v a → s.Latches v → SameBytes s v → u = v.cmdNow a →
      AttLatched s u a 5 ∧ OtherAtts s u a ∧ SameBytes s u := by
    rintro u v hm hl hb rfl
    exact ⟨State.attEvent_latched hl (.refl _), (hm.beside (.attEvent ..)).others, hb.trans (.attEvent ..)⟩
  by_cases he : err = 0
  · simp only [if_pos he] at hatt1 ⊢
    have hatt : (s4.cmdNow a).att a = s4.att a := (State.AttsKept.attEvent s4 a 5).att a
    rw [hatt, h4.cmds, h4.error, h4.errEp, hatt1]
    exact ⟨rfl, rfl, rfl, hend _ s4 (hm1.trans h4.moved) (hl1.trans h4.latches) (hb1.trans h4.bytes) rfl⟩
  · simp only [if_neg he] at hatt1 ⊢
    obtain ⟨hfm, hfl, hfb, q, hq⟩ := s4.attFail_fails a err
    have hatt : ((s4.attFail a err).cmdNow a).att a = (s4.attFail a err).att a := (State.AttsKept.attEvent (s4.attFail a err) a 5).att a
    rw [hatt, hq]
    exact ⟨h4.cmds.trans (by rw [hatt1]), rfl, h4.errEp.trans (by rw [hatt1]), hend _ (s4.attFail a err) ((hm1.trans h4.moved).trans hfm)
      ((hl1.trans h4.latches).trans hfl) ((hb1.trans h4.bytes).trans hfb) rfl⟩

theorem cmdDone_ends {s : State} {a ep : Nat} {k : PortCmd} (hk : (s.att a).cmds.find? (fun y => cmdMode y.code ≠ 1 || y.ep = ep) = some k)
    (ht : s.cmdTurn a k = true) :
    (s.cmdComplete a k = true → Completes (.cmdDone a ep 0) s (fun t => (t.att a).cmds = (s.att a).cmds.erase k
      ∧ (t.att a).error = (s.att a).error ∧ AttLatched s t a 5 ∧ OtherAtts s t a ∧ SameBytes s t))
    ∧ (∀ err, 1 ≤ err → err ≤ 0x0E → Completes (.cmdDone a ep err) s (fun t => (t.att a).cmds = (s.att a).cmds.erase k ∧ (t.att a).error = err
      ∧ (t.att a).errEp = k.ep ∧ AttLatched s t a 5 ∧ OtherAtts s t a ∧ SameBytes s t)) := by
  refine ⟨fun hc => ⟨s.cmdEnd a k 0, ?_, ?_⟩, fun err h1 h2 => ⟨s.cmdEnd a k err, ?_, ?_⟩⟩
  · simp only [exec, execCmdDone, hk, ht, hc]
    rfl
  · obtain ⟨h1, h2, -, h3, h4, h5⟩ := s.cmdEnd_ends a k 0
    exact ⟨h1, h2, h3, h4, h5⟩
  · simp only [exec, execCmdDone, hk, ht]
    rw [if_neg (by decide), if_neg (by omega), if_pos h2]
  · obtain ⟨g1, g2, g3, g4, g5, g6⟩ := s.cmdEnd_ends a k err
    have he : err ≠ 0 := by omega
    rw [if_neg he] at g2 g3
    exact ⟨g1, g2, g3, g4, g5, g6⟩

theorem stretchTimeout_ends {s : State} {a : Nat} {k : PortCmd} {rest : List PortCmd} (hk : (s.att a).cmds = k :: rest) (hm : cmdMode k.code = 4)
    (ht : s.cmdTurn a k = true) : Completes (.stretchTimeout a) s (fun t => (t.att a).cmds = rest ∧ (t.att a).error = 9 ∧ AttLatched s t a 5
      ∧ OtherAtts s t a) := by
  obtain ⟨h1, h2, -, h3, h4, -⟩ := s.cmdEnd_ends a k 9
  refine ⟨s.cmdEnd a k 9, ?_, ?_⟩
  · simp only [exec, execStretchTimeout, hk, hm, ht]
    rfl
  · rw [hk, List.erase_cons_head] at h1
    exact ⟨h1, h2, h3, h4⟩

theorem intPoll_begins {s : State} {a ep : Nat} {k : PortCmd} (hk : (s.att a).cmds = [k]) (h5 : k.code = 5) (he : k.ep = ep) (hr : k.toRecv = 0) :
    Completes (.intPollInterval a ep) s (fun t => t.att a = { s.att a with cmds := [{ k with toRecv := k.arg }] } ∧ OtherAtts s t a
      ∧ { t with atts := s.atts } = s) := by
  refine ⟨_, rfl, ?_, (State.AttMoved.modAtt ..).others, rfl⟩
  rw [State.att_modAtt_self, hk, List.map_cons, List.map_nil, if_pos ⟨h5, he, hr⟩]

theorem State.pin_modPin_self (s : State) (n i : Nat) (f : Pin → Pin) : ((s.modPin n i f).port n).pin i = f ((s.port n).pin i) := by
  unfold State.modPin Port.pin
  rw [State.port_modPort_self, Tbl.get_upd_self]

theorem State.pin_modPin_ne (s : State) (n : Nat) {i j : Nat} (f : Pin → Pin) (h : j ≠ i) : ((s.modPin n i f).port n).pin j = (s.port n).pin j := by
  unfold State.modPin Port.pin
  rw [State.port_modPort_self]
  exact Tbl.get_upd_ne _ _ _ h

theorem pulse_ends {s : State} {n pin t1 : Nat} (h : ((s.port n).pin pin).pulseEnd = some t1) (ht : t1 ≤ s.now) :
    Completes (.pulseEnd n pin) s (fun t => (t.port n).pin pin = { (s.port n).pin pin with
        level := false, pulseEnd := none, gapUntil := s.now + Tbl.get 0 (s.port n).cfg.pulseGap pin * 1000000 }
      ∧ (∀ i, i ≠ pin → (t.port n).pin i = (s.port n).pin i) ∧ AttLatched s t (16 * n) 5 ∧ t.atts = s.atts) := by
  generalize hf : (fun p : Pin => ({ p with
      level := false, pulseEnd := none, gapUntil := s.now + Tbl.get 0 (s.port n).cfg.pulseGap pin * 1000000 } : Pin)) = f
  have hexec : exec (.pulseEnd n pin) s = .next (((s.modPin n pin f).cmdNow (16 * n)).attEvent (16 * n) 6) := by
    simp only [exec, execPulseEnd, h]
    rw [if_pos ht, ← hf]
  have hlat : s.Latches (s.modPin n pin f) := .of_ctxs rfl
  have hself := s.pin_modPin_self n pin f
  have hne : ∀ i, i ≠ pin → ((s.modPin n pin f).port n).pin i = (s.port n).pin i := fun i hi => s.pin_modPin_ne n f hi
  have hatts : (s.modPin n pin f).atts = s.atts := rfl
  generalize s.modPin n pin f = u at hexec hlat hself hne hatts
  refine ⟨_, hexec, ?_, hne, State.attEvent_latched hlat (.attEvent _ _ 6), hatts⟩
  refine hself.trans ?_
  rw [← hf]

theorem blink_toggles {s : State} {n pin : Nat} {b : Nat × Nat} (h : ((s.port n).pin pin).blink = some b) :
    Completes (.blinkToggle n pin) s (fun t => (t.port n).pin pin = { (s.port n).pin pin with level := !((s.port n).pin pin).level }
      ∧ (∀ i, i ≠ pin → (t.port n).pin i = (s.port n).pin i) ∧ { t with ports := s.ports } = s) := by
  refine ⟨s.modPin n pin (fun p => { p with level := !p.level }), congrArg Host.Outcome.next (if_pos (by rw [h]; rfl)), s.pin_modPin_self n pin _,
    fun i hi => s.pin_modPin_ne n _ hi, s.modPort_frame n _⟩

theorem exec_ctsChange {s : State} {n : Nat} (high : Bool) (hm : (s.port n).cfg.mode = 2) (he : (s.port n).enabled = true) :
    exec (.ctsChange n high) s = .next (s.modPort n (fun p => { p with cts := high })) :=
  congrArg Host.Outcome.next (if_pos (by simp [hm, he]))

theorem cts_changes {s : State} {n : Nat} (high : Bool) (hm : (s.port n).cfg.mode = 2) (he : (s.port n).enabled = true) :
    Completes (.ctsChange n high) s (fun t => t.port n = { s.port n with cts := high } ∧ (∀ m, m ≠ n → t.port m = s.port m)
      ∧ { t with ports := s.ports } = s) :=
  ⟨_, exec_ctsChange high hm he, s.port_modPort_self n _, fun _ h => s.port_modPort_ne _ h, s.modPort_frame n _⟩

end Sys2Proof.Machine

namespace Sys2Proof.Machine

/-! ### The wire side of the FIFOs (R295, R298, R318 to R324) -/

theorem State.rxGapTry_of_none {s : State} {a : Nat} (h : (s.att a).rx.gap = 0) : s.rxGapTry a = s := if_pos h

theorem State.rtsFlow_ctxs (s : State) (n : Nat) : (s.rtsFlow n).ctxs = s.ctxs := by
  unfold State.rtsFlow
  dsimp only
  split
  · split
    · rfl
    · split <;> rfl
  · rfl

theorem State.rtsFlow_att (s : State) (n a : Nat) : (s.rtsFlow n).att a = s.att a := by
  unfold State.rtsFlow
  dsimp only
  split
  · split
    · rfl
    · split <;> rfl
  · rfl

theorem State.rtsFlow_rxLost (s : State) (n m : Nat) : ((s.rtsFlow n).port m).rxLost = (s.port m).rxLost := by
  have h : ∀ b : Bool, ((s.modPort n (fun p => { p with rts := b })).port m).rxLost = (s.port m).rxLost := by
    intro b
    rw [State.port_modPort]
    split
    · next hm => rw [hm]
    · rfl
  unfold State.rtsFlow
  dsimp only
  split
  · split
    · exact h false
    · split
      · exact h true
      · rfl
  · rfl

theorem State.countPort_ctxs (s : State) (p i k : Nat) : (s.countPort p i k).ctxs = s.ctxs := (congrArg State.ctxs (s.countPort_frame p i k) :)

theorem State.countPort_att (s : State) (p i k a : Nat) : (s.countPort p i k).att a = s.att a := (State.AttsKept.countPort s p i k).att a

theorem State.countPort_port (s : State) (p i k n : Nat) : (s.countPort p i k).port n = s.port n :=
  congrArg (fun l => Tbl.get ({} : Port) l n) (congrArg State.ports (s.countPort_frame p i k) :)

theorem State.att_modRx_self (s : State) (a : Nat) (f : RxChan → RxChan) : (s.modRx a f).att a = { s.att a with rx := f (s.att a).rx } :=
  s.att_modAtt_self a (fun t => { t with rx := f t.rx })

/-- The character as it is stored. -/
def uartWord (line : Nat) (v : Byte) : W32 := BitVec.ofNat 32 (v.toNat % 2 ^ (5 + bits line 24 2))

/-- A character without an error that ends no packet reaches the channel of its port. -/
theorem exec_uartChar {s : State} {n : Nat} (v : Byte) (hm : (s.port n).cfg.mode = 2) (hw : s.wireOpen (16 * n) = true)
    (hd : s.driverOn n = false) (he : (s.port n).cfg.eopEn = false) : exec (.rxItemArrival (16 * n) (.char v false false false)) s
      = .next ((if ((s.rxWord (16 * n) (uartWord (s.port n).lineWord v) false).2.att (16 * n)).rx.openItems = (s.port n).cfg.limit then
          (s.rxWord (16 * n) (uartWord (s.port n).lineWord v) false).2.rxClose (16 * n) 32
        else (s.rxWord (16 * n) (uartWord (s.port n).lineWord v) false).2).rtsFlow n) := by
  have hn : 16 * n / 16 = n := by omega
  have hn0 : 16 * n % 16 = 0 := by omega
  have hline : s.lineErrs n 0 = s := if_pos rfl
  simp only [exec, execRxItemArrival, hw, hn, hn0, hm, State.uartChar, hd, he, Bool.or_self, hline, bnat, Bool.false_and, Bool.not_true,
    Bool.false_eq_true, ↓reduceIte, Nat.mul_zero, Nat.add_zero, decide_true, Bool.and_self, uartWord] <;> rfl

theorem uartChar_stored {s : State} {n p1 : Nat} (v : Byte) (hm : (s.port n).cfg.mode = 2) (hw : s.wireOpen (16 * n) = true)
    (hd : s.driverOn n = false) (hg : (s.att (16 * n)).rx.gap = 0) (hdis : (s.att (16 * n)).rx.discard = false)
    (ho : (s.att (16 * n)).rx.openAt = some p1) (hf : 0 < s.rxFree (16 * n)) (he : (s.port n).cfg.eopEn = false)
    (hl : (s.att (16 * n)).rx.openItems + 1 ≠ (s.port n).cfg.limit) :
    Completes (.rxItemArrival (16 * n) (.char v false false false)) s (fun t =>
      (t.att (16 * n)).rx = { (s.att (16 * n)).rx with
          words := (s.att (16 * n)).rx.words ++ [{ w := BitVec.ofNat 32 (v.toNat % 2 ^ (5 + bits (s.port n).lineWord 24 2)), items := 1 }]
          openItems := (s.att (16 * n)).rx.openItems + 1 }
        ∧ OtherAtts s t (16 * n) ∧ t.ctxs = s.ctxs) := by
  have hexec := exec_uartChar v hm hw hd he
  generalize hwd : uartWord (s.port n).lineWord v = wd at hexec
  have hword : s.rxWord (16 * n) wd false = (true, (s.modRx (16 * n) (fun r => { r with
      words := r.words ++ [{ w := wd, items := 1 }], openItems := r.openItems + 1, openErr := r.openErr || false })).countPort (16 * n / 16) 0 1) := by
    have hopen : s.rxOpen (16 * n) = some s := if_pos (by rw [ho]; rfl)
    unfold State.rxWord
    dsimp only
    rw [State.rxGapTry_of_none hg, hopen]
    dsimp only
    rw [if_neg (by simp [RxChan.shut, hdis, hg]), if_neg hf.ne']
  rw [hword] at hexec
  dsimp only at hexec
  rw [State.countPort_att, State.att_modRx_self, if_neg hl] at hexec
  refine ⟨_, hexec, ?_, ?_, ?_⟩
  · rw [State.rtsFlow_att, State.countPort_att, State.att_modRx_self]
    simp only [Bool.or_false, ← hwd, uartWord]
  · exact ((State.FifoMoved.modRx ..).trans ((State.FifoMoved.countPort ..).trans (.rtsFlow ..))).moved.others
  · rw [State.rtsFlow_ctxs, State.countPort_ctxs]
    rfl

/-- The limit of a packet is never 0. -/
theorem PortCfg.limit_pos (c : PortCfg) : 0 < c.limit := by
  unfold PortCfg.limit
  have h1 := fun h : c.pktMax ≠ 0 => Nat.pos_of_ne_zero h
  split <;> split
  · decide
  · next h => exact Nat.lt_min.mpr ⟨h1 h, by decide⟩
  · decide
  · next h => exact Nat.lt_min.mpr ⟨h1 h, by decide⟩

theorem State.countLost_ctxs (s : State) (n k : Nat) : (s.countLost n k).ctxs = s.ctxs := State.countPort_ctxs _ n 4 k

theorem State.countLost_rxLost (s : State) (n k : Nat) : ((s.countLost n k).port n).rxLost = satAt 0xFFFFFFFF ((s.port n).rxLost + k) := by
  unfold State.countLost
  rw [State.countPort_port, State.port_modPort_self]

/-- The room of a receive channel follows from the words that the channels of its port hold, and from the reserves. -/
theorem State.rxFree_words {s t : State} {a : Nat} (h : ∀ b, (t.att b).rx.words = (s.att b).rx.words ∧ (t.att b).rx.freed = (s.att b).rx.freed
    ∧ (t.att b).resRx = (s.att b).resRx) : t.rxFree a = s.rxFree a := by
  unfold State.rxFree RxChan.units RxChan.wpos
  simp only [(h _).1, (h _).2.1, (h _).2.2]

/-- A channel without an open packet that loses k items. -/
def RxChan.loses (r : RxChan) (k : Nat) : RxChan :=
  { r with openAt := none, openItems := 0, openErr := false, gap := r.gap + k, gapBoundary := false, discard := true }

theorem State.modRx_congr {s : State} {a : Nat} {f g : RxChan → RxChan} (h : f (s.att a).rx = g (s.att a).rx) : s.modRx a f = s.modRx a g :=
  congrArg (fun x => ({ s with atts := Tbl.put {} s.atts a { s.att a with rx := x } } : State)) h

/-- A loss at a channel without an open packet and without room. -/
theorem State.rxLose_closed {s : State} {a : Nat} (k : Nat) (ho : (s.att a).rx.openAt = none) (hf : s.rxFree a = 0) :
    s.rxLose a k = (s.modRx a (fun r => r.loses k)).countLost (a / 16) k := by
  have hatt : ∀ b, (((s.modRx a (fun r => r.loses k)).countLost (a / 16) k).att b) = (s.modRx a (fun r => r.loses k)).att b :=
    (State.AttsKept.countLost ..).att
  have hfree : ((s.modRx a (fun r => r.loses k)).countLost (a / 16) k).rxFree a = 0 := by
    refine (State.rxFree_words fun b => ?_).trans hf
    rw [hatt]
    unfold State.modRx
    rw [State.att_modAtt]
    split
    · next h => subst h; exact ⟨rfl, rfl, rfl⟩
    · exact ⟨rfl, rfl, rfl⟩
  have hgap : ((s.modRx a (fun r => r.loses k)).countLost (a / 16) k).rxGapTry a = (s.modRx a (fun r => r.loses k)).countLost (a / 16) k := by
    have hself := (hatt a).trans (s.att_modRx_self a (fun r => r.loses k))
    generalize (s.modRx a (fun r => r.loses k)).countLost (a / 16) k = u at hfree hself
    have hb : (u.att a).rx.gapBoundary = false := by rw [hself]; rfl
    unfold State.rxGapTry
    simp only [hfree, hb, Nat.lt_irrefl, decide_false, Bool.and_false, Bool.false_eq_true, ↓reduceIte]
    split
    · rfl
    · split <;> rfl
  unfold State.rxLose
  simp only [ho, Option.isSome_none, Bool.false_eq_true, ↓reduceIte, Nat.add_zero]
  refine (congrArg (fun t : State => (t.countLost (a / 16) k).rxGapTry a) (State.modRx_congr ?_)).trans hgap
  simp only [ho, RxChan.loses]

theorem uartChar_lost {s : State} {n : Nat} (v : Byte) (hm : (s.port n).cfg.mode = 2) (hw : s.wireOpen (16 * n) = true)
    (hd : s.driverOn n = false) (hg : (s.att (16 * n)).rx.gap = 0) (hdis : (s.att (16 * n)).rx.discard = false)
    (ho : (s.att (16 * n)).rx.openAt = none) (hf : s.rxFree (16 * n) = 0) (he : (s.port n).cfg.eopEn = false) :
    Completes (.rxItemArrival (16 * n) (.char v false false false)) s (fun t =>
      (t.att (16 * n)).rx.words = (s.att (16 * n)).rx.words ∧ (t.att (16 * n)).rx.gap = 1 ∧ (t.att (16 * n)).rx.discard = true
        ∧ (t.port n).rxLost = satAt 0xFFFFFFFF ((s.port n).rxLost + 1) ∧ OtherAtts s t (16 * n) ∧ t.ctxs = s.ctxs) := by
  have hexec := exec_uartChar v hm hw hd he
  have hword : s.rxWord (16 * n) (uartWord (s.port n).lineWord v) false
      = (false, (s.modRx (16 * n) (fun r => r.loses 1)).countLost (16 * n / 16) 1) := by
    have hopen : s.rxOpen (16 * n) = none := by
      unfold State.rxOpen
      rw [if_neg (by simp [ho]), if_neg (by omega)]
    unfold State.rxWord
    dsimp only
    rw [State.rxGapTry_of_none hg, hopen]
    dsimp only
    rw [if_neg (by simp [RxChan.shut, hdis, hg]), State.rxLose_closed 1 ho hf]
  rw [hword] at hexec
  dsimp only at hexec
  have hatt : ((s.modRx (16 * n) (fun r => r.loses 1)).countLost (16 * n / 16) 1).att (16 * n) = { s.att (16 * n) with rx := (s.att (16 * n)).rx.loses 1 } :=
    ((State.AttsKept.countLost ..).att _).trans (State.att_modRx_self ..)
  have hlimit : ((s.att (16 * n)).rx.loses 1).openItems ≠ (s.port n).cfg.limit := (PortCfg.limit_pos _).ne
  have hn : 16 * n / 16 = n := by omega
  rw [hn] at hexec hatt
  rw [hatt, if_neg hlimit] at hexec
  refine ⟨_, hexec, ?_, ?_, ?_, ?_, ?_, ?_⟩
  · rw [State.rtsFlow_att, hatt]
    rfl
  · rw [State.rtsFlow_att, hatt]
    exact congrArg (· + 1) hg
  · rw [State.rtsFlow_att, hatt]
    rfl
  · rw [State.rtsFlow_rxLost, State.countLost_rxLost]
    rfl
  · exact ((State.FifoMoved.modRx ..).trans ((State.FifoMoved.countLost ..).trans (.rtsFlow ..))).moved.others
  · rw [State.rtsFlow_ctxs, State.countLost_ctxs]
    rfl

/-- A byte of an SPI or I2C transfer is counted off its command, and goes to the channel (R299, R300). -/
theorem serialByte_counted {s : State} {a : Nat} {k : PortCmd} (v : Byte) (hm : (s.port (a / 16)).cfg.mode = 3 ∨ (s.port (a / 16)).cfg.mode = 4)
    (hw : s.wireOpen a = true) (hf : 2 ≤ s.rxFree a) (hk : (s.att a).cmds = [k]) (ht : s.takesByte a k = true) :
    Completes (.rxItemArrival a (.byte v false)) s (fun t => (t.att a).cmds = [{ k with toRecv := k.toRecv - 1 }] ∧ OtherAtts s t a) := by
  have hroom : s.byteRoom a = true := by
    unfold State.byteRoom
    dsimp only
    split
    · simp
      omega
    · exact decide_eq_true hf
  have hmode : (decide ((s.port (a / 16)).cfg.mode = 3) || decide ((s.port (a / 16)).cfg.mode = 4)) = true := by simpa using hm
  have hexec : exec (.rxItemArrival a (.byte v false)) s = .next (s.serialByte a v false) := by
    simp only [exec, execRxItemArrival, hw, hroom, hmode]
    rfl
  refine ⟨_, hexec, ?_⟩
  unfold State.serialByte
  rw [hk, List.find?_cons_of_pos ht]
  dsimp only
  have h0 : s.FifoMoved (if k.code = 13 then s.emit (.wire (a / 16) (a % 16) [BitVec.ofNat 8 k.fill]) else s) a := by
    split
    · exact .emit ..
    · exact .refl ..
  have h0k : (if k.code = 13 then s.emit (.wire (a / 16) (a % 16) [BitVec.ofNat 8 k.fill]) else s).att a = s.att a := by
    split <;> rfl
  generalize (if k.code = 13 then s.emit (.wire (a / 16) (a % 16) [BitVec.ofNat 8 k.fill]) else s) = s0 at h0 h0k ⊢
  have h1 : (s0.modAtt a (fun t => { t with cmds := t.cmds.map (fun z => if z = k then { k with toRecv := k.toRecv - 1 } else z) })).att a
      = { s.att a with cmds := [{ k with toRecv := k.toRecv - 1 }] } := by
    rw [State.att_modAtt_self, h0k, hk]
    simp
  have hm1 := h0.moved.trans (.modAtt s0 a (fun t => { t with cmds := t.cmds.map (fun z => if z = k then { k with toRecv := k.toRecv - 1 } else z) }))
  generalize s0.modAtt a (fun t => { t with cmds := t.cmds.map (fun z => if z = k then { k with toRecv := k.toRecv - 1 } else z) }) = u at h1 hm1 ⊢
  have key : ∀ t, u.FifoMoved t a → (t.att a).cmds = [{ k with toRecv := k.toRecv - 1 }] ∧ OtherAtts s t a := by
    intro t ht
    obtain ⟨r, x, hr⟩ := ht.own
    exact ⟨by rw [hr, h1], (hm1.trans ht.moved).others⟩
  have hb : u.FifoMoved (u.rxBytes a [v]).2 a := .rxBytes ..
  split
  · exact key _ (hb.trans ((State.FifoMoved.rxClose ..).trans (.rxBoundary ..)))
  · split
    · exact key _ (hb.trans (.rxClose ..))
    · exact key _ hb

end Sys2Proof.Machine

namespace Sys2Proof.Machine

/-! ### Gap markers, idle lines, packets and hand-off (R22, R295, R304, R320, R324) -/

/-- The head word of a gap marker. -/
def gapWord (gap : Nat) : W32 := BitVec.ofNat 32 (2 * 2 ^ 28 + (if 65535 < gap then 2 ^ 16 + 65535 else gap))

theorem gapWord_eq (gap : Nat) : gapWord gap = BitVec.ofNat 32 (2 * 2 ^ 28 + bnat (65535 < gap) * 2 ^ 16 + satAt 65535 gap) := by
  unfold gapWord satAt bnat
  congr 1
  by_cases h : 65535 < gap
  · simp [h, Nat.not_le.mpr h]
  · simp [h, Nat.not_lt.mp h]

/-- A channel whose pending marker has taken the next word. -/
def RxChan.gapPlaced (r : RxChan) : RxChan := { r with gapAt := some r.wpos, words := r.words ++ [{ w := 0, head := true }] }

/-- A channel whose marker closes at its boundary. -/
def RxChan.gapClosed (r : RxChan) (place gap : Nat) : RxChan :=
  { r with words := r.words.set place { w := gapWord gap, head := true }
           visible := place + r.freed + 1, gap := 0, gapAt := none, gapBoundary := false }

theorem RxChan.gapClosed_placed (r : RxChan) : r.gapPlaced.gapClosed r.words.length r.gap = { r with
    words := r.words ++ [{ head := true, w := gapWord r.gap }], visible := r.wpos + 1, gap := 0, gapAt := none, gapBoundary := false } := by
  have hset : (r.words ++ [({ w := 0, head := true } : FifoWord)]).set r.words.length { w := gapWord r.gap, head := true }
      = r.words ++ [{ w := gapWord r.gap, head := true }] := by
    rw [List.set_append_right _ _ (Nat.le_refl _), Nat.sub_self]
    rfl
  unfold RxChan.gapClosed RxChan.gapPlaced RxChan.wpos
  rw [hset, Nat.add_comm r.words.length]

/-- A marker at its boundary takes the word that is free, and closes. -/
theorem State.rxGapTry_closes {s : State} {a : Nat} (hg : (s.att a).rx.gap ≠ 0) (ha : (s.att a).rx.gapAt = none)
    (hb : (s.att a).rx.gapBoundary = true) (hf : 0 < s.rxFree a) :
    s.rxGapTry a = ((((s.modRx a RxChan.gapPlaced).modRx a (fun r => r.gapClosed (s.att a).rx.words.length (s.att a).rx.gap)).modPort (a / 16)
      (fun p => { p with gapCnt := satInc32 p.gapCnt, event := p.event ||| 16 })).countPort (a / 16) 5 1).attEvent a 0 := by
  have hplaced : ((s.modRx a RxChan.gapPlaced).att a).rx = (s.att a).rx.gapPlaced := congrArg Att.rx (s.att_modRx_self a RxChan.gapPlaced)
  have hpos : (s.att a).rx.wpos - (s.att a).rx.freed = (s.att a).rx.words.length := by
    unfold RxChan.wpos
    omega
  have hvis : (s.att a).rx.wpos + 1 = (s.att a).rx.words.length + (s.att a).rx.freed + 1 := by
    unfold RxChan.wpos
    omega
  unfold State.rxGapTry
  dsimp only
  rw [if_neg hg, if_pos (by simp [ha, hf])]
  generalize hu : s.modRx a (fun r => { r with gapAt := some r.wpos, words := r.words ++ [{ w := 0, head := true }] }) = u
  rw [show s.modRx a RxChan.gapPlaced = u from hu] at hplaced ⊢
  rw [hplaced]
  dsimp only [RxChan.gapPlaced]
  rw [if_pos hb, ← gapWord_eq, hvis]
  refine congrArg (fun t : State => ((t.modPort (a / 16) (fun p => { p with gapCnt := satInc32 p.gapCnt, event := p.event ||| 16 })).countPort
    (a / 16) 5 1).attEvent a 0) (State.modRx_congr ?_)
  rw [hplaced]
  unfold RxChan.gapClosed RxChan.gapPlaced
  dsimp only
  rw [hpos]

theorem gapMarker_stored {s : State} {a : Nat} (hc : (s.att a).hasChannels = true) (hg : (s.att a).rx.gap ≠ 0) (ha : (s.att a).rx.gapAt = none)
    (hb : (s.att a).rx.gapBoundary = true) (hf : 0 < s.rxFree a) : Completes (.gapMarkerStored a) s (fun t =>
      (t.att a).rx.gap = 0 ∧ (t.att a).rx.visible = (s.att a).rx.wpos + 1
        ∧ (t.att a).rx.words = (s.att a).rx.words ++ [{ head := true, w := BitVec.ofNat 32 (2 * 2 ^ 28
            + (if 65535 < (s.att a).rx.gap then 2 ^ 16 + 65535 else (s.att a).rx.gap)) }]
        ∧ (t.port (a / 16)).gapCnt = satInc32 (s.port (a / 16)).gapCnt ∧ bitAt (t.port (a / 16)).event 4 = true
        ∧ AttLatched s t a 0 ∧ OtherAtts s t a) := by
  have hexec : exec (.gapMarkerStored a) s = .next (s.rxGapTry a) := congrArg Host.Outcome.next (if_pos hc)
  have hothers := (State.FifoMoved.rxGapTry s a).moved.others
  rw [State.rxGapTry_closes hg ha hb hf] at hexec hothers
  have huatt : ((s.modRx a RxChan.gapPlaced).modRx a (fun r => r.gapClosed (s.att a).rx.words.length (s.att a).rx.gap)).att a
      = { s.att a with rx := { (s.att a).rx with words := (s.att a).rx.words ++ [{ head := true, w := gapWord (s.att a).rx.gap }]
                                                 visible := (s.att a).rx.wpos + 1, gap := 0, gapAt := none, gapBoundary := false } } := by
    rw [State.att_modRx_self, State.att_modRx_self]
    exact congrArg (fun r => { s.att a with rx := r }) (RxChan.gapClosed_placed _)
  have huc : ((s.modRx a RxChan.gapPlaced).modRx a (fun r => r.gapClosed (s.att a).rx.words.length (s.att a).rx.gap)).ctxs = s.ctxs := rfl
  have hup : ∀ n, ((s.modRx a RxChan.gapPlaced).modRx a (fun r => r.gapClosed (s.att a).rx.words.length (s.att a).rx.gap)).port n = s.port n := fun _ => rfl
  generalize (s.modRx a RxChan.gapPlaced).modRx a (fun r => r.gapClosed (s.att a).rx.words.length (s.att a).rx.gap) = u at hexec hothers huatt huc hup
  generalize hv : (u.modPort (a / 16) (fun p => { p with gapCnt := satInc32 p.gapCnt, event := p.event ||| 16 })).countPort (a / 16) 5 1 = v
    at hexec hothers
  have hvatt : v.att a = u.att a := by
    rw [← hv, State.countPort_att]
    rfl
  have hvp : v.port (a / 16) = { s.port (a / 16) with gapCnt := satInc32 (s.port (a / 16)).gapCnt, event := (s.port (a / 16)).event ||| 16 } := by
    rw [← hv, State.countPort_port, State.port_modPort_self, hup]
  have hlat : s.Latches v := by
    refine .of_ctxs ?_
    rw [← hv, State.countPort_ctxs]
    exact huc
  refine ⟨_, hexec, ?_⟩
  have hatt : (v.attEvent a 0).att a = u.att a := hvatt
  have hport : (v.attEvent a 0).port (a / 16) = v.port (a / 16) := rfl
  beta_reduce
  rw [hatt, huatt, hport, hvp]
  refine ⟨rfl, rfl, rfl, rfl, ?_, State.attEvent_latched hlat (.refl _), hothers⟩
  simp only [bitAt_eq_testBit, Nat.testBit_or, Bool.or_eq_true]
  exact .inr (by decide)

/-- A channel whose open packet closes. -/
def RxChan.closed (r : RxChan) (p flags : Nat) : RxChan :=
  { r with words := r.words.set (p - r.freed)
             { w := BitVec.ofNat 32 (2 ^ 28 + flags * 2 ^ 16 + bnat r.openErr * 2 ^ 19 + r.openItems % 2 ^ 16), head := true, span := r.wpos - p - 1 }
           visible := r.wpos, openAt := none, openItems := 0, openErr := false }

theorem State.rxClose_open {s : State} {a p : Nat} (h : (s.att a).rx.openAt = some p) (flags : Nat) :
    s.rxClose a flags = ((s.modRx a (fun r => r.closed p flags)).countPort (a / 16) 2 1).attEvent a 0 := by
  unfold State.rxClose
  dsimp only
  rw [h]
  exact congrArg (fun t : State => (t.countPort (a / 16) 2 1).attEvent a 0) (State.modRx_congr rfl)

theorem idleClose_closes {s : State} {n p1 : Nat} (hm : (s.port n).cfg.mode = 2) (hi : (s.port n).cfg.rxIdle ≠ 0) (he : (s.port n).enabled = true)
    (hc : (s.att (16 * n)).hasChannels = true) (hg : (s.att (16 * n)).rx.gap = 0) (ho : (s.att (16 * n)).rx.openAt = some p1) :
    Completes (.rxIdleClose n) s (fun t => (t.att (16 * n)).rx.openAt = none ∧ (t.att (16 * n)).rx.visible = (s.att (16 * n)).rx.wpos
      ∧ (t.att (16 * n)).rx.words = (s.att (16 * n)).rx.words.set (p1 - (s.att (16 * n)).rx.freed)
          { w := BitVec.ofNat 32 (2 ^ 28 + bnat (s.att (16 * n)).rx.openErr * 2 ^ 19 + (s.att (16 * n)).rx.openItems % 2 ^ 16), head := true
            span := (s.att (16 * n)).rx.wpos - p1 - 1 }
      ∧ AttLatched s t (16 * n) 0 ∧ OtherAtts s t (16 * n)) := by
  have hexec : exec (.rxIdleClose n) s = .next (((s.rxClose (16 * n) 0).rxBoundary (16 * n)).rtsFlow n) :=
    congrArg Host.Outcome.next (if_pos (by simp [hm, hi, he, hc]))
  have hatt : (s.rxClose (16 * n) 0).att (16 * n) = { s.att (16 * n) with rx := (s.att (16 * n)).rx.closed p1 0 } := by
    rw [State.rxClose_open ho]
    exact (State.countPort_att _ _ 2 1 _).trans (State.att_modRx_self ..)
  have hothers := (State.FifoMoved.rxClose s (16 * n) 0).moved
  have hlat : AttLatched s (s.rxClose (16 * n) 0) (16 * n) 0 := by
    rw [State.rxClose_open ho]
    refine State.attEvent_latched (.of_ctxs ?_) (.refl _)
    rw [State.countPort_ctxs]
    rfl
  generalize s.rxClose (16 * n) 0 = u at hexec hatt hothers hlat
  have hbound : (u.rxBoundary (16 * n)) = u.modRx (16 * n) (fun r => { r with discard := false, gapBoundary := r.gapBoundary || r.gap != 0 }) := by
    refine State.rxGapTry_of_none ?_
    rw [State.att_modRx_self, hatt]
    exact hg
  rw [hbound] at hexec
  refine ⟨_, hexec, ?_⟩
  have hfin : ((u.modRx (16 * n) (fun r => { r with discard := false, gapBoundary := r.gapBoundary || r.gap != 0 })).rtsFlow n).att (16 * n)
      = { u.att (16 * n) with rx := { (u.att (16 * n)).rx with
          discard := false, gapBoundary := (u.att (16 * n)).rx.gapBoundary || (u.att (16 * n)).rx.gap != 0 } } := by
    rw [State.rtsFlow_att, State.att_modRx_self]
  have hend : u.FifoMoved ((u.modRx (16 * n) (fun r => { r with discard := false, gapBoundary := r.gapBoundary || r.gap != 0 })).rtsFlow n) (16 * n) :=
    (State.FifoMoved.modRx ..).trans (.rtsFlow ..)
  beta_reduce
  rw [hfin, hatt]
  refine ⟨rfl, rfl, ?_, fun c i hf hi => (hend.latches c).2.2 i 0 (hlat c i hf hi), (hothers.trans hend.moved).others⟩
  simp only [RxChan.closed, Nat.zero_mul, Nat.add_zero]

end Sys2Proof.Machine

namespace Sys2Proof.Machine

/-- Whether two states agree in what the room of a channel follows from. -/
theorem State.rxFree_eq {s t : State} {a : Nat} (h : t.atts = s.atts) : t.rxFree a = s.rxFree a := by
  unfold State.rxFree State.att
  rw [h]

theorem State.rxPack_open {s : State} {a : Nat} (l : List Byte) : ((s.rxPack a l).att a).rx.openItems = (s.att a).rx.openItems + l.length
    ∧ ((s.rxPack a l).att a).rx.openAt = (s.att a).rx.openAt ∧ (s.rxPack a l).ctxs = s.ctxs := by
  induction l generalizing s with
  | nil => exact ⟨rfl, rfl, rfl⟩
  | cons b l ih =>
    unfold State.rxPack
    dsimp only
    obtain ⟨h1, h2, h3⟩ := ih (s := s.modRx a (fun r => { r with
      words := if (s.att a).rx.openItems % 4 = 0 then r.words ++ [{ w := b.setWidth 32, items := 1 }] else packLast r.words ((s.att a).rx.openItems % 4) b
      openItems := r.openItems + 1 }))
    rw [h1, h2, h3, State.att_modRx_self, List.length_cons]
    refine ⟨?_, rfl, rfl⟩
    dsimp only
    omega

/-- Bytes that find room in the open packet are stored in it. -/
theorem State.rxBytes_stored {s : State} {a p : Nat} {l : List Byte} (hg : (s.att a).rx.gap = 0) (hd : (s.att a).rx.discard = false)
    (ho : (s.att a).rx.openAt = some p)
    (hf : ceilDiv ((s.att a).rx.openItems + l.length) 4 - ceilDiv (s.att a).rx.openItems 4 ≤ s.rxFree a) :
    (s.rxBytes a l).2 = (s.rxPack a l).countPort (a / 16) 0 l.length := by
  have hopen : s.rxOpen a = some s := if_pos (by rw [ho]; rfl)
  unfold State.rxBytes
  dsimp only
  rw [State.rxGapTry_of_none hg, hopen]
  dsimp only
  rw [if_neg (by simp [RxChan.shut, hd, hg]), if_neg (Nat.not_lt.mpr hf)]

theorem State.usbServed_kept (s : State) (a ep : Nat) : s.AttsKept (s.usbServed a ep) ∧ (s.usbServed a ep).ctxs = s.ctxs := by
  unfold State.usbServed
  split
  · exact ⟨.modPort s (a / 16) (f := fun p => { p with rrSlot := a % 16 }) fun _ => rfl, rfl⟩
  · exact ⟨.refl s, rfl⟩

/-- A whole packet of a pending transfer that goes on is stored in the open packet (R295). -/
theorem usbInPacket_stored {s : State} {a ep p1 : Nat} {k : PortCmd} {e : Endpoint} {data : List Byte} (hk : (s.att a).cmds = [k]) (hep : k.ep = ep)
    (h7 : bitAt ep 7 = true) (he : (s.att a).endpoint ep = some e) (ht : s.usbTurn a ep = true) (hne : data ≠ []) (hlen : data.length = e.mps)
    (hrecv : e.mps < k.toRecv) (hw : s.wireOpen a = true) (hdrop : s.portDrop (a / 16) = true) (hg : (s.att a).rx.gap = 0)
    (hd : (s.att a).rx.discard = false) (ho : (s.att a).rx.openAt = some p1) (hoe : (s.att a).rx.openEp = ep)
    (hl : (s.att a).rx.openItems + e.mps ≤ (s.port (a / 16)).cfg.limit)
    (hf : ceilDiv ((s.att a).rx.openItems + e.mps) 4 - ceilDiv (s.att a).rx.openItems 4 ≤ s.rxFree a) :
    Completes (.usbInPacket a ep data) s (fun t => (t.att a).cmds = [{ k with toRecv := k.toRecv - e.mps }]
      ∧ (t.att a).rx.openItems = (s.att a).rx.openItems + e.mps ∧ (t.att a).rx.openAt = some p1 ∧ OtherAtts s t a ∧ t.ctxs = s.ctxs) := by
  generalize hF : (fun t : Att => ({ t.toggled k.ep 1 with
      rrEp := k.ep
      rx := if t.rx.openAt.isSome || t.rx.shut then t.rx else { t.rx with openEp := k.ep }
      cmds := t.cmds.map (fun z => if z = k then { k with toRecv := k.toRecv - e.mps } else z) } : Att)) = F
  have hFa : ∀ x, x = F (s.att a) → x.cmds = [{ k with toRecv := k.toRecv - e.mps }] ∧ x.rx = (s.att a).rx ∧ x.resRx = (s.att a).resRx := by
    rintro x rfl
    obtain ⟨l, hl⟩ := (s.att a).toggled_eq k.ep 1
    rw [← hF]
    dsimp only
    rw [hl, hk, ho]
    simp
  have hpos : 0 < e.mps := hlen ▸ List.length_pos_of_ne_nil hne
  have htake : data.take k.toRecv = data := List.take_of_length_le (by omega)
  have hline : (if (s.port (a / 16)).cfg.mode = 1 then s.lineErrs (a / 16) 0 else s) = s := by
    split
    · exact if_pos rfl
    · rfl
  obtain ⟨hsk, hsc⟩ := s.usbServed_kept a k.ep
  generalize hu : (s.usbServed a k.ep).modAtt a F = u
  have huatt : u.att a = F (s.att a) := by
    rw [← hu, State.att_modAtt_self, hsk.att]
  obtain ⟨hcmds, hrx, hres⟩ := hFa _ huatt
  have hothers : OtherAtts s u a := by
    rw [← hu]
    exact ((hsk.moved a).trans (.modAtt ..)).others
  have hfree : u.rxFree a = s.rxFree a := by
    refine State.rxFree_congr fun b => ?_
    by_cases hb : b = a
    · subst hb
      exact ⟨hrx, hres⟩
    · rw [hothers b hb]
      exact ⟨rfl, rfl⟩
  have hexec : exec (.usbInPacket a ep data) s = .next ((u.rxBytes a data).2) := by
    have hfind : (s.att a).cmds.find? (fun x => x.ep % 128 = ep % 128 && 0 < x.toRecv && (bitAt x.ep 7 || x.code = 1)) = some k := by
      rw [hk]
      exact List.find?_cons_of_pos (by simp [hep, h7]; omega)
    have hends : (decide (data.length < e.mps) || decide (k.toRecv - data.length = 0)) = false := by
      simp only [Bool.or_eq_false_iff, decide_eq_false_iff_not]
      omega
    simp only [exec, execUsbInPacket, hline, hfind, he, hw, hep, ht, hdrop, ho, hoe, htake, hends]
    rw [if_neg (by simp [hlen]), if_neg (by simp), if_neg (by simp), if_neg hne, if_neg (by simp; omega), ← hu, ← hF, ← hlen, hep]
    rfl
  have hstored : (u.rxBytes a data).2 = (u.rxPack a data).countPort (a / 16) 0 data.length :=
    State.rxBytes_stored (p := p1) (by rw [hrx]; exact hg) (by rw [hrx]; exact hd) (by rw [hrx]; exact ho) (by rw [hrx, hfree, hlen]; exact hf)
  rw [hstored] at hexec
  obtain ⟨h1, h2, h3⟩ := u.rxPack_open (a := a) data
  obtain ⟨r, x, hr⟩ := (State.FifoMoved.rxPack u a data).own
  refine ⟨_, hexec, ?_⟩
  beta_reduce
  rw [State.countPort_att, State.countPort_ctxs, h1, h2, hr, hcmds, hrx, hlen]
  refine ⟨rfl, rfl, ho, ?_, ?_⟩
  · exact fun b hb => (((State.FifoMoved.rxPack u a data).trans (.countPort ..)).moved.others b hb).trans (hothers b hb)
  · rw [h3, ← hu]
    exact hsc

/-- Events that a list of attachments gets reach every one of them. -/
theorem State.latched_of_foldl {s u : State} (h : s.Latches u) (l : List Nat) (bit : Nat) :
    (l.foldl (fun t a => if (t.att a).state = .empty then t else t.attEvent a bit) u).atts = u.atts
      ∧ (l.foldl (fun t a => if (t.att a).state = .empty then t else t.attEvent a bit) u).ports = u.ports
      ∧ (l.foldl (fun t a => if (t.att a).state = .empty then t else t.attEvent a bit) u).drives = u.drives
      ∧ u.Latches (l.foldl (fun t a => if (t.att a).state = .empty then t else t.attEvent a bit) u)
      ∧ ∀ b ∈ l, (u.att b).state ≠ .empty → AttLatched s (l.foldl (fun t a => if (t.att a).state = .empty then t else t.attEvent a bit) u) b bit := by
  induction l generalizing u with
  | nil => exact ⟨rfl, rfl, rfl, .refl u, fun b hb => absurd hb List.not_mem_nil⟩
  | cons a l ih =>
    rw [List.foldl_cons]
    by_cases he : (u.att a).state = .empty
    · rw [if_pos he]
      obtain ⟨h1, h2, h3, h4, h5⟩ := ih h
      refine ⟨h1, h2, h3, h4, fun b hb hne => ?_⟩
      rcases List.mem_cons.mp hb with rfl | hb
      · exact absurd he hne
      · exact h5 b hb hne
    · rw [if_neg he]
      obtain ⟨h1, h2, h3, h4, h5⟩ := ih (h.trans (.attEvent u a bit))
      refine ⟨h1, h2, h3, (State.Latches.attEvent u a bit).trans h4, fun b hb hne => ?_⟩
      rcases List.mem_cons.mp hb with rfl | hb
      · exact State.attEvent_latched h h4
      · exact h5 b hb hne

/-- A raw level of the one input of a GPIO pair that has been stable through its filter is accepted (R304). -/
theorem input_accepted {s : State} {n since : Nat} {levels : BitVec 4} (hm : (s.port n).cfg.mode = 4) (he : (s.port n).enabled = true)
    (h0 : bits (s.port n).cfg.gpioDir 0 1 = 0) (hl : levels.getLsbD 0 ≠ bitAt (s.port n).inputs 0)
    (h1 : bits (s.port n).cfg.gpioDir 1 1 ≠ 0 ∨ levels.getLsbD 1 = bitAt (s.port n).inputs 1) (ht : since + 10000 ≤ s.now) :
    Completes (.inputChange n levels since) s (fun t => (t.port n).inputs = (s.port n).inputs ^^^ 1 ∧ t.atts = s.atts ∧ t.drives = s.drives
      ∧ ∀ b ∈ portAtts (16 * n), (s.att b).state ≠ .empty → AttLatched s t b 4) := by
  have hlev : ∀ i, bitAt levels.toNat i = levels.getLsbD i := fun i => (getLsbD_eq_bitAt levels i).symm
  have hch : (((List.range 2).filter (fun i => (s.port n).cfg.dir i = 0)).filter
      (fun i => bitAt levels.toNat i != bitAt (s.port n).inputs i && since + (s.port n).cfg.filterNs i ≤ s.now)) = [0] := by
    have hd0 : (s.port n).cfg.dir 0 = 0 := (if_pos hm).trans h0
    have hd1 : (s.port n).cfg.dir 1 = bits (s.port n).cfg.gpioDir 1 1 := if_pos hm
    have hf : ∀ i, (s.port n).cfg.filterNs i = 10000 := fun i => if_pos hm
    have hx0 : (bitAt levels.toNat 0 != bitAt (s.port n).inputs 0) = true := by rw [hlev]; exact bne_iff_ne.mpr hl
    rw [List.filter_filter, List.range_succ, List.range_succ, List.range_zero]
    rcases h1 with h | h
    · simp [hd0, hd1, h, hf, hx0, ht]
    · have hx1 : (bitAt levels.toNat 1 != bitAt (s.port n).inputs 1) = false := by rw [hlev, h]; exact bne_self_eq_false _
      simp [hd0, hf, hx0, hx1, ht]
  have hexec : exec (.inputChange n levels since) s = .next ((portAtts (16 * n)).foldl (fun t a => if (t.att a).state = .empty then t else t.attEvent a 4)
      (s.modPort n (fun p => { p with inputs := (s.port n).inputs ^^^ 1 }))) := by
    have h45 : ¬((4 : Nat) = 5) := by decide
    simp only [exec, execInputChange, hm, he, if_neg h45, if_true, hch]
    rfl
  have hlat : s.Latches (s.modPort n (fun p => { p with inputs := (s.port n).inputs ^^^ 1 })) := .of_ctxs rfl
  have hport := s.port_modPort_self n (fun p => { p with inputs := (s.port n).inputs ^^^ 1 })
  have hatts : (s.modPort n (fun p => { p with inputs := (s.port n).inputs ^^^ 1 })).atts = s.atts := rfl
  have hdrives : (s.modPort n (fun p => { p with inputs := (s.port n).inputs ^^^ 1 })).drives = s.drives := rfl
  generalize s.modPort n (fun p => { p with inputs := (s.port n).inputs ^^^ 1 }) = u at hexec hlat hport hatts hdrives
  obtain ⟨g1, g2, g3, -, g5⟩ := State.latched_of_foldl hlat (portAtts (16 * n)) 4
  refine ⟨_, hexec, ?_, g1.trans hatts, g3.trans hdrives, fun b hb hne => g5 b hb ?_⟩
  · refine (congrArg (fun l => (Tbl.get ({} : Port) l n).inputs) g2).trans ?_
    exact congrArg Port.inputs hport
  · exact (congrArg (fun l => (Tbl.get ({} : Att) l b).state ≠ .empty) hatts).mpr hne

/-- Part of the packet at the front is handed off. -/
theorem handOff_part {m l : Nat} {q : TxPacket} (qs : List TxPacket) (hbad : q.bad = false) (hlen : q.len = some l) (hm : q.handed + m < l) :
    handOff m (q :: qs) = { data := slice q.bytes q.handed m, done := 0, shares := [(q.ctx, m)], rest := { q with handed := q.handed + m } :: qs } := by
  have hmin : Nat.min m (l - q.handed) = m := Nat.min_eq_left (by omega)
  unfold handOff
  simp only [hbad, hlen, hmin, Bool.false_eq_true, ↓reduceIte]
  rw [if_pos hm]

theorem State.ctxHandoff_kept (s : State) (a c k : Nat) : s.AttsKept (s.ctxHandoff a c k) ∧ (s.ctxHandoff a c k).out = s.out
    ∧ SameBytes s (s.ctxHandoff a c k) := by
  unfold State.ctxHandoff
  split
  · split
    · exact ⟨.modCtx s c _, rfl, .modCtx s c _⟩
    · exact ⟨.refl s, rfl, .refl s⟩
  · exact ⟨.refl s, rfl, .refl s⟩

theorem State.uartSends_kept (s : State) (n k : Nat) : s.AttsKept (s.uartSends n k) ∧ (s.uartSends n k).out = s.out ∧ SameBytes s (s.uartSends n k) :=
  ⟨.modPort s n fun _ => rfl, rfl, .modPort s n _⟩

/-- Nothing is put out by a change of a transmit channel. -/
theorem State.txChange_out (s : State) (a : Nat) (f : TxChan → TxChan) : (s.txChange a f).out = s.out := by
  unfold State.txChange
  dsimp only
  split <;> rfl

theorem State.txChange_tx (s : State) (a : Nat) (f : TxChan → TxChan) : ((s.txChange a f).att a).tx = f (s.att a).tx := by
  have h : (s.modTx a f).att a = { s.att a with tx := f (s.att a).tx } := s.att_modAtt_self a (fun t => { t with tx := f t.tx })
  unfold State.txChange
  dsimp only
  split
  · exact congrArg Att.tx h
  · exact congrArg Att.tx h

theorem State.countPort_out (s : State) (p i k : Nat) : (s.countPort p i k).out = s.out := (congrArg State.out (s.countPort_frame p i k) :)

/-- The bytes of one context that go out without a command. -/
theorem State.handed_kept (s : State) (a : Nat) {h : Handed} {c m : Nat} (hs : h.shares = [(c, m)]) (hd : h.data ≠ []) :
    s.AttsKept (s.handed a none h) ∧ (s.handed a none h).out = s.out ++ [.wire (a / 16) (a % 16) h.data] ∧ SameBytes s (s.handed a none h) := by
  obtain ⟨hk1, ho1, hb1⟩ := s.ctxHandoff_kept a c m
  have key : ∀ u : State, s.AttsKept u → u.out = s.out → SameBytes s u → s.AttsKept (u.emit (.wire (a / 16) (a % 16) h.data))
      ∧ (u.emit (.wire (a / 16) (a % 16) h.data)).out = s.out ++ [.wire (a / 16) (a % 16) h.data]
      ∧ SameBytes s (u.emit (.wire (a / 16) (a % 16) h.data)) :=
    fun u hk ho hb => ⟨hk.trans (.emit ..), congrArg (· ++ [OutItem.wire (a / 16) (a % 16) h.data]) ho, hb.trans (.refl u)⟩
  unfold State.handed
  dsimp only
  rw [hs, if_neg hd, List.foldl_cons, List.foldl_nil]
  split
  · obtain ⟨hk2, ho2, hb2⟩ := (s.ctxHandoff a c m).uartSends_kept (a / 16) h.data.length
    exact key _ (hk1.trans hk2) (ho2.trans ho1) (hb1.trans hb2)
  · exact key _ hk1 ho1 hb1

/-- Bytes of a closed packet pass the hand-off point of a port without a pending command (R324). -/
theorem txHandoff_sends {s : State} {a k m : Nat} {q : TxPacket} {qs : List TxPacket} (hc : (s.att a).hasChannels = true)
    (he : (s.port (a / 16)).enabled = true) (hcmds : (s.att a).cmds = []) (hmay : s.mayStart (a / 16) = true) (hbad : q.bad = false)
    (hm : Nat.min k (s.sendLimit a) = m) (hq : (s.att a).tx.packets = q :: qs) (hlen : q.len.isSome = true) (hlt : q.handed + m < q.len.getD 0)
    (hne : slice q.bytes q.handed m ≠ []) : Completes (.txHandoff a k) s (fun t => (t.att a).tx.packets = { q with handed := q.handed + m } :: qs
      ∧ t.out = s.out ++ [.wire (a / 16) (a % 16) (slice q.bytes q.handed m)] ∧ OtherAtts s t a ∧ SameBytes s t) := by
  obtain ⟨l, hl⟩ := Option.isSome_iff_exists.mp hlen
  rw [hl, Option.getD_some] at hlt
  have hhand := handOff_part qs hbad hl hlt
  generalize hd : slice q.bytes q.handed m = d at hhand hne
  have hm0 : m ≠ 0 := by
    rintro rfl
    refine hne (hd ▸ ?_)
    unfold slice
    rw [List.take_zero]
  have hline : (if (s.port (a / 16)).cfg.mode = 1 then s.lineErrs (a / 16) 0 else s) = s := by
    split
    · exact if_pos rfl
    · rfl
  have hsender : (s.att a).sender = none := by
    unfold Att.sender
    rw [hcmds]
    rfl
  generalize hu : ((s.txChange a (fun t => ({ t with packets := { q with handed := q.handed + m } :: qs } : TxChan).clampMark)).countPort (a / 16) 1
    d.length).countPort (a / 16) 3 0 = u
  have htake : s.txTake a m = ({ data := d, done := 0, shares := [(q.ctx, m)], rest := { q with handed := q.handed + m } :: qs }, u) := by
    unfold State.txTake
    dsimp only
    rw [hq, hhand, ← hu]
  have hexec : exec (.txHandoff a k) s = .next (u.handed a none { data := d, done := 0, shares := [(q.ctx, m)], rest := { q with handed := q.handed + m } :: qs }) := by
    have hdata : d.isEmpty = false := by simpa using hne
    simp only [exec, execTxHandoff, hline, hm, hsender, hc, he, hq, hmay, htake, hdata, hbad, hl]
    rw [if_neg (by simp [hm0]), if_neg (by simp [hbad]), if_neg (by simp), if_neg (by simp)]
    rfl
  have hfifo : s.FifoMoved u a := by
    rw [← hu]
    exact (State.FifoMoved.txChange ..).trans ((State.FifoMoved.countPort ..).trans (.countPort ..))
  have hout : u.out = s.out := by
    rw [← hu]
    rw [State.countPort_out, State.countPort_out, State.txChange_out]
  have hpackets : (u.att a).tx.packets = { q with handed := q.handed + m } :: qs := by
    rw [← hu, State.countPort_att, State.countPort_att, State.txChange_tx]
    rfl
  obtain ⟨hk, ho, hb⟩ := u.handed_kept a (h := { data := d, done := 0, shares := [(q.ctx, m)], rest := { q with handed := q.handed + m } :: qs }) rfl hne
  refine ⟨_, hexec, ?_, ho.trans (by rw [hout]), (hfifo.moved.beside hk).others, hfifo.bytes.trans hb⟩
  rw [hk.att, hpackets]

/-- Settles O36: by the command or the item that ends, arrives or goes out, through the lemmas on the channel of one attachment. -/
theorem channelsMove : Obligations.ChannelsMove := by
  intro s n a
  exact ⟨fun ep k hk ht => cmdDone_ends hk ht, fun k rest => stretchTimeout_ends, fun ep k => intPoll_begins, fun pin t1 => pulse_ends,
    fun pin b => blink_toggles, cts_changes, fun v p1 => uartChar_stored v, uartChar_lost, fun v k hm hw hf hk _ ht => serialByte_counted v hm hw hf hk ht, gapMarker_stored,
    fun p1 => idleClose_closes, fun ep k e data p1 => usbInPacket_stored, fun levels since => input_accepted, fun k m q qs => txHandoff_sends⟩

end Sys2Proof.Machine

namespace Sys2Proof.Machine

/-! ### The Fault Collector's views (R463 to R467) -/

/-- The record of a message's source is active once the message is in the view. -/
theorem View.enter_active (v : View) (cfg : FaultCfg) (t : Nat) (m : W64) (c : Option Nat) (h : Bool) :
    (Tbl.get {} (v.enter cfg t m c h).view.recs (msgSource m)).active = true := by
  unfold View.enter
  dsimp only
  rw [Tbl.get_put_self]
  split
  · assumption
  · rfl

theorem View.enter_eventCnt (v : View) (cfg : FaultCfg) (t : Nat) (m : W64) (c : Option Nat) (h : Bool) :
    (v.enter cfg t m c h).view.eventCnt = satInc32 v.eventCnt := rfl

theorem View.enter_histSeq (v : View) (cfg : FaultCfg) (t : Nat) (m : W64) (c : Option Nat) :
    (v.enter cfg t m c true).view.histSeq = (v.histSeq + 1) % 2 ^ 32 := rfl

/-- The view of a world with a message entered, where the message belongs to it (R463). -/
def State.viewWith (s : State) (w : World) (m : W64) (c : Option Nat) (h : Bool) : View :=
  if entersView m w then ((s.fc.views.get w).enter (Tbl.get {} s.fc.cfg (msgSource m)) s.now m c h).view else s.fc.views.get w

theorem State.viewWith_of_enters {s : State} {w : World} {m : W64} (he : entersView m w = true) (c : Option Nat) (h : Bool) :
    s.viewWith w m c h = ((s.fc.views.get w).enter (Tbl.get {} s.fc.cfg (msgSource m)) s.now m c h).view := if_pos he

theorem State.viewWith_of_not {s : State} {w : World} {m : W64} (he : entersView m w = false) (c : Option Nat) (h : Bool) :
    s.viewWith w m c h = s.fc.views.get w := if_neg (by simp [he])

theorem State.msixRunning_fc (s : State) (w : World) (v : Nat) : (s.msixRunning w v).fc = s.fc :=
  (congrArg State.fc (s.msixRunning_frame w v) :)

/-- A message into the view of a world changes that view alone of the Collector. -/
theorem State.enterFnView_fc (s : State) (w : World) (m : W64) (c : Option Nat) (h : Bool) :
    (s.enterFnView w m c h).1.fc = { s.fc with views := s.fc.views.set w (s.viewWith w m c h) } := by
  unfold State.enterFnView
  split
  · next he =>
    rw [State.viewWith_of_enters he]
    dsimp only
    split
    · exact State.msixRunning_fc ..
    · rfl
  · next he =>
    rw [State.viewWith_of_not (by simpa using he), Two.set_get]

theorem State.enterFnView_now (s : State) (w : World) (m : W64) (c : Option Nat) (h : Bool) : (s.enterFnView w m c h).1.now = s.now :=
  (congrArg State.now (s.enterFnView_frame w m c h) :)

/-- What entering a message changes of the Collector: the views that it belongs to, the Study view, and the ERR_N pulse. -/
structure State.Entered (s t : State) (m : W64) (c : Option Nat) (h : Bool) : Prop where
  buf : t.fc.buf = s.fc.buf
  halt : t.fc.graniteHalt = s.fc.graniteHalt
  triples : t.fc.triples = s.fc.triples
  study : t.fc.study = (s.fc.study.enter (Tbl.get {} s.fc.cfg (msgSource m)) s.now (studyMsg m) c h).view
  view : ∀ w, t.fc.views.get w = s.viewWith w m c h

theorem State.enterViews_enters (s : State) (m : W64) (c : Option Nat) (h : Bool) : State.Entered s (s.enterViews m c h) m c h := by
  have ha := s.enterFnView_fc .slate m c h
  have hb := (s.enterFnView .slate m c h).1.enterFnView_fc .granite m c h
  have hg : (s.enterFnView .slate m c h).1.viewWith .granite m c h = s.viewWith .granite m c h := by
    unfold State.viewWith
    rw [State.enterFnView_now, ha]
    rfl
  rw [hg, ha] at hb
  exact
    { buf := (congrArg Collector.buf hb :)
      halt := (congrArg Collector.graniteHalt hb :)
      triples := (congrArg Collector.triples hb :)
      study := (congrArg (fun f : Collector => (f.study.enter (Tbl.get {} s.fc.cfg (msgSource m)) s.now (studyMsg m) c h).view) hb :)
      view := fun w => (congrArg (fun f : Collector => f.views.get w) hb).trans (by cases w <;> rfl) }

/-- A message's low byte, its source, is the same in the Study view. -/
theorem msgSource_studyMsg (m : W64) : msgSource (studyMsg m) = msgSource m := by
  unfold studyMsg
  split
  · simp only [msgSource, bits, BitVec.toNat_ofNat]
    omega
  · rfl

/-- The mark of an injected message leaves its source. -/
theorem msgSource_marked (m : W64) : msgSource (m ||| (1 <<< 62 : W64)) = msgSource m := by
  simp only [msgSource, bits, BitVec.toNat_or, Nat.pow_zero, Nat.div_one, Nat.or_mod_two_pow]
  exact Nat.or_zero _

theorem msgSource_injected (hi lo : W32) : msgSource (BitVec.ofNat 64 (hi.toNat * 2 ^ 32 + lo.toNat)) = (lo % 256).toNat := by
  have hlo : (lo % 256).toNat = lo.toNat % 256 := BitVec.toNat_umod
  rw [hlo]
  simp only [msgSource, bits, BitVec.toNat_ofNat]
  omega

/-! ### The Collector's commands (R464 to R471, R480) -/

theorem State.enterViews_ctxs (s : State) (m : W64) (c : Option Nat) (h : Bool) : (s.enterViews m c h).ctxs = s.ctxs :=
  (congrArg State.ctxs (s.enterViews_frame m c h) :)

theorem State.enterViews_sameBytes (s : State) (m : W64) (c : Option Nat) (h : Bool) : SameBytes s (s.enterViews m c h) :=
  have hf := s.enterViews_frame m c h
  .of_mems (congrArg (fun u : State => u.pantry.mem) hf :) (congrArg (fun u : State => u.cellar.mem) hf :)
    (congrArg (fun u : State => u.flash.mem) hf :) (congrArg State.hostMem hf :)

/-- The oldest message enters the views that it belongs to (R463, R464). -/
theorem completes_faultMessage {s : State} {r : Report} {rest : List Report} (hb : s.fc.buf = r :: rest) (w : World) :
    Completes (.faultMessage none) s (fun t => t.fc.buf = rest
      ∧ (Tbl.get {} t.fc.study.recs (msgSource (studyMsg r.msg))).active = true ∧ t.fc.study.eventCnt = satInc32 s.fc.study.eventCnt
      ∧ (entersView r.msg w = true → (Tbl.get {} (t.fc.views.get w).recs (msgSource r.msg)).active = true
        ∧ (t.fc.views.get w).eventCnt = satInc32 (s.fc.views.get w).eventCnt
        ∧ (t.fc.views.get w).histSeq = ((s.fc.views.get w).histSeq + 1) % 2 ^ 32)
      ∧ (entersView r.msg w = false → t.fc.views.get w = s.fc.views.get w) ∧ t.ctxs = s.ctxs ∧ SameBytes s t) := by
  have hx : exec (.faultMessage none) s = .next (({ s with fc := { s.fc with buf := rest } } : State).enterViews r.msg r.ctx true) := by
    change Host.Outcome.next s.takeReport = _
    unfold State.takeReport
    rw [hb]
  have he := State.enterViews_enters { s with fc := { s.fc with buf := rest } } r.msg r.ctx true
  refine ⟨_, hx, he.buf, ?_, ?_, fun hv => ?_, fun hv => ?_, State.enterViews_ctxs .., ?_⟩
  · rw [he.study]
    exact View.enter_active ..
  · rw [he.study]
    exact View.enter_eventCnt ..
  · rw [he.view w, State.viewWith_of_enters hv]
    exact ⟨View.enter_active .., View.enter_eventCnt .., View.enter_histSeq ..⟩
  · rw [he.view w, State.viewWith_of_not hv]
  · exact State.enterViews_sameBytes { s with fc := { s.fc with buf := rest } } ..

theorem View.clear_free (v : View) (src n : Nat) :
    Tbl.get {} (v.clear src false).recs n = if n = src then (Tbl.get {} v.recs src).cleared else Tbl.get {} v.recs n :=
  Tbl.get_upd ..

theorem completes_recordClear {s : State} (w : World) {src : Nat} {x : W32} (hd : s.done = true) (hs : src < 256) (hx : x.getLsbD 0 = true) :
    Completes (.recordClear (some w) src x) s (fun t => t.fc.views.get w = (s.fc.views.get w).clear src (s.causePresent (some w) src)
      ∧ { t with fc := s.fc } = s) := by
  have hr : s.recordWrite (some w) src x.toNat =
      { s with fc := { s.fc with views := s.fc.views.upd w (fun v => v.clear src (s.causePresent (some w) src)) } } := by
    simp [State.recordWrite, hs, hd, ← getLsbD_eq_bitAt, hx]
  exact ⟨_, congrArg Host.Outcome.next hr, Two.get_upd_self .., rfl⟩

theorem completes_recordClear_study {s : State} {src : Nat} {x : W32} (hs : src < 256) (hx : x.getLsbD 0 = true)
    (hc : s.causePresent none src = false) : Completes (.recordClear none src x) s (fun t =>
      (Tbl.get {} t.fc.study.recs src).active = false ∧ t.fc.views = s.fc.views ∧ { t with fc := s.fc } = s) := by
  have hr : s.recordWrite none src x.toNat = { s with fc := { s.fc with study := s.fc.study.clear src false } } := by
    simp [State.recordWrite, hs, ← getLsbD_eq_bitAt, hx, hc]
  refine ⟨_, congrArg Host.Outcome.next hr, ?_, rfl, rfl⟩
  dsimp only
  rw [View.clear_free, if_pos rfl]
  rfl

theorem State.enterViews_study_active (s : State) {m : W64} {n : Nat} (c : Option Nat) (h : Bool) (hn : msgSource m = n) :
    (Tbl.get {} (s.enterViews m c h).fc.study.recs n).active = true := by
  have ha := View.enter_active s.fc.study (Tbl.get {} s.fc.cfg (msgSource m)) s.now (studyMsg m) c h
  rw [msgSource_studyMsg, hn] at ha
  rw [(s.enterViews_enters m c h).study]
  rwa [hn]

/-- An injected message enters the Study view, as one of its own source (R471). -/
theorem completes_faultInject {s : State} (w : World) (hi : W32) (hd : s.done = true) (hl : s.flint.lifecycle = 0) :
    Completes (.faultInject w hi) s (fun t =>
      (Tbl.get {} t.fc.study.recs (Tbl.get 0 (s.fn w).heldLow 0x500018 % 256).toNat).active = true ∧ t.fc.buf = s.fc.buf ∧ t.ctxs = s.ctxs) := by
  have hr : exec (.faultInject w hi) s = .next (s.enterViews
      (BitVec.ofNat 64 (hi.toNat * 2 ^ 32 + (Tbl.get 0 (s.fn w).heldLow 0x500018).toNat) ||| (1 <<< 62 : W64)) none true) := by
    change Host.Outcome.next (s.inject w _) = _
    simp only [State.inject, hd, hl, ↓reduceIte]
  have he := State.enterViews_enters s
    (BitVec.ofNat 64 (hi.toNat * 2 ^ 32 + (Tbl.get 0 (s.fn w).heldLow 0x500018).toNat) ||| (1 <<< 62 : W64)) none true
  refine ⟨_, hr, ?_, he.buf, State.enterViews_ctxs ..⟩
  exact State.enterViews_study_active s none true ((msgSource_marked _).trans (msgSource_injected hi _))

theorem completes_faultInject_denied {s : State} (w : World) (hi : W32) (hd : s.done = true) (hl : s.flint.lifecycle ≠ 0) :
    Completes (.faultInject w hi) s (fun t =>
      t.fc.views.get w = { s.fc.views.get w with injectDenied := true } ∧ { t with fc := s.fc } = s) := by
  have hr : exec (.faultInject w hi) s =
      .next { s with fc := { s.fc with views := s.fc.views.upd w (fun v => { v with injectDenied := true }) } } := by
    change Host.Outcome.next (s.inject w _) = _
    simp only [State.inject, hd, hl, ↓reduceIte]
  exact ⟨_, hr, Two.get_upd_self .., rfl⟩

end Sys2Proof.Machine

namespace Sys2Proof.Machine

/-! ### Maps of words (R501) -/

/-- A map with word j in the middle: the words above it, it, and the words below it. -/
theorem map_split (m j : Nat) : m = 2 ^ (32 * j) * (2 ^ 32 * (m / 2 ^ (32 * j) / 2 ^ 32) + wordOf m j) + m % 2 ^ (32 * j) := by
  have h : 2 ^ 32 * (m / 2 ^ (32 * j) / 2 ^ 32) + wordOf m j = m / 2 ^ (32 * j) := Nat.div_add_mod ..
  rw [h]
  exact (Nat.div_add_mod ..).symm

theorem wordPut_split (m j v : Nat) :
    wordPut m j v = 2 ^ (32 * j) * (2 ^ 32 * (m / 2 ^ (32 * j) / 2 ^ 32) + v) + m % 2 ^ (32 * j) := by
  have h := map_split m j
  refine Nat.sub_eq_of_eq_add ?_
  calc m + v * 2 ^ (32 * j)
      = 2 ^ (32 * j) * (2 ^ 32 * (m / 2 ^ (32 * j) / 2 ^ 32) + wordOf m j) + m % 2 ^ (32 * j) + v * 2 ^ (32 * j) := by rw [← h]
    _ = _ := by ring

theorem wordOf_split_self {P h v l : Nat} (j : Nat) (hP : P = 2 ^ (32 * j)) (hv : v < 2 ^ 32) (hl : l < P) :
    wordOf (P * (2 ^ 32 * h + v) + l) j = v := by
  unfold wordOf bits
  rw [← hP, Nat.mul_add_div (by omega), Nat.div_eq_of_lt hl, Nat.add_zero, Nat.mul_add_mod, Nat.mod_eq_of_lt hv]

/-- The words below word j do not see it. -/
theorem wordOf_split_lt {P l : Nat} {i j : Nat} (x : Nat) (hP : P = 2 ^ (32 * j)) (hi : i < j) : wordOf (P * x + l) i = wordOf l i := by
  obtain ⟨k, rfl⟩ := Nat.exists_eq_add_of_lt hi
  have hQ : P * x = 2 ^ (32 * i) * (2 ^ 32 * (2 ^ (32 * k) * x)) := by
    rw [hP, show 32 * (i + k + 1) = 32 * i + (32 + 32 * k) by ring, pow_add, pow_add]
    ring
  unfold wordOf bits
  rw [hQ, Nat.mul_add_div (Nat.two_pow_pos _), Nat.mul_add_mod]

/-- The words above word j do not see it. -/
theorem wordOf_split_gt {P h v l : Nat} {i j : Nat} (hP : P = 2 ^ (32 * j)) (hi : j < i) (hv : v < 2 ^ 32) (hl : l < P) :
    wordOf (P * (2 ^ 32 * h + v) + l) i = wordOf h (i - j - 1) := by
  have hpow : 2 ^ (32 * i) = P * (2 ^ 32 * 2 ^ (32 * (i - j - 1))) := by
    rw [hP, ← pow_add, ← pow_add]
    congr 1
    omega
  unfold wordOf bits
  rw [hpow, ← Nat.div_div_eq_div_mul, Nat.mul_add_div (by omega), Nat.div_eq_of_lt hl, Nat.add_zero, ← Nat.div_div_eq_div_mul,
    Nat.mul_add_div (Nat.two_pow_pos _), Nat.div_eq_of_lt hv, Nat.add_zero]

theorem wordOf_wordPut_self (m j : Nat) {v : Nat} (hv : v < 2 ^ 32) : wordOf (wordPut m j v) j = v := by
  rw [wordPut_split]
  exact wordOf_split_self j rfl hv (Nat.mod_lt _ (Nat.two_pow_pos _))

theorem wordOf_wordPut_ne (m : Nat) {i j v : Nat} (hv : v < 2 ^ 32) (hi : i ≠ j) : wordOf (wordPut m j v) i = wordOf m i := by
  have hl : m % 2 ^ (32 * j) < 2 ^ (32 * j) := Nat.mod_lt _ (Nat.two_pow_pos _)
  have hw : wordOf m j < 2 ^ 32 := Nat.mod_lt _ (Nat.two_pow_pos _)
  conv_rhs => rw [map_split m j]
  rw [wordPut_split]
  rcases Nat.lt_or_gt_of_ne hi with h | h
  · rw [wordOf_split_lt _ rfl h, wordOf_split_lt _ rfl h]
  · rw [wordOf_split_gt rfl h hv hl, wordOf_split_gt rfl h hw hl]

/-! ### The Granite control words (R476, R477) -/

/-- A write of a control word leaves the Collector and the contexts as they are. -/
def ControlWord.KeepsCollector (x : ControlWord) : Prop := ∀ v s, (x.put v s).fc = s.fc ∧ (x.put v s).ctxs = s.ctxs

namespace ControlWord.KeepsCollector

theorem imgWord (get : ImageCfg → Nat) (set : Nat → ImageCfg → ImageCfg) (j : Nat) : (imgWord get set j).KeepsCollector :=
  fun _ _ => ⟨rfl, rfl⟩

theorem graniteCfgWord (get : WorldCfg → Nat) (set : Nat → WorldCfg → WorldCfg) (j : Nat) : (graniteCfgWord get set j).KeepsCollector :=
  fun _ _ => ⟨rfl, rfl⟩

theorem noWord : noWord.KeepsCollector := fun _ _ => ⟨rfl, rfl⟩

theorem laneWord (l j : Nat) : (laneWord l j).KeepsCollector := fun _ _ => ⟨rfl, rfl⟩

theorem ite {p : Prop} [Decidable p] {x y : ControlWord} (hx : x.KeepsCollector) (hy : y.KeepsCollector) :
    (if p then x else y).KeepsCollector := by
  split
  · exact hx
  · exact hy

theorem assignWord (i : Nat) : (assignWord i).KeepsCollector :=
  .ite (imgWord _ _ _) (.ite (imgWord _ _ _) (.ite (imgWord _ _ _) (.ite (imgWord _ _ _) (.ite (imgWord _ _ _) (.ite (fun _ _ => ⟨rfl, rfl⟩)
    (.ite (imgWord _ _ _) (.ite (imgWord _ _ _) (.ite (imgWord _ _ _) (.ite (imgWord _ _ _) noWord)))))))))

theorem hostWord (i : Nat) : (hostWord i).KeepsCollector := by
  unfold Machine.hostWord
  split <;> exact graniteCfgWord _ _ _

theorem driveWord (n i : Nat) : (driveWord n i).KeepsCollector := by
  unfold Machine.driveWord
  dsimp only
  refine .ite (fun v s => ?_) fun v s => ?_
  · dsimp only
    split <;> exact ⟨rfl, rfl⟩
  · dsimp only
    split <;> exact ⟨rfl, rfl⟩

theorem portModeWord (n : Nat) : (portModeWord n).KeepsCollector := by
  intro v s
  unfold Machine.portModeWord
  dsimp only
  split <;> exact ⟨rfl, rfl⟩

theorem controlWord (i : Nat) : (controlWord i).KeepsCollector :=
  .ite (assignWord i) (.ite (laneWord _ _) (.ite (graniteCfgWord _ _ _) (.ite (graniteCfgWord _ _ _) (.ite (graniteCfgWord _ _ _)
    (.ite (graniteCfgWord _ _ _) (.ite (graniteCfgWord _ _ _) (.ite (portModeWord _) (.ite (driveWord _ _) (.ite (hostWord _) noWord)))))))))

end ControlWord.KeepsCollector

theorem Tbl.find_filter_self {α : Type} (t : Tbl α) (k : Nat) : Tbl.find (t.filter (fun p => decide (p.1 ≠ k))) k = none := by
  induction t with
  | nil => rfl
  | cons p t ih =>
    by_cases h : p.1 = k
    · rw [List.filter_cons_of_neg (by simpa using h)]
      exact ih
    · rw [List.filter_cons_of_pos (by simpa using h)]
      exact (if_neg (fun e => h e.symm)).trans ih

theorem Tbl.find_put_default {α : Type} [DecidableEq α] (d : α) (t : Tbl α) (k : Nat) : Tbl.find (Tbl.put d t k d) k = none := by
  rw [Tbl.put, if_pos rfl]
  exact Tbl.find_filter_self t k

theorem Tbl.find_put_of_ne {α : Type} [DecidableEq α] {d v : α} (t : Tbl α) (k : Nat) (h : v ≠ d) : Tbl.find (Tbl.put d t k v) k = some v := by
  rw [Tbl.put, if_neg h, Tbl.find_ins, if_pos rfl]

/-- Where no copies are listed, all three read good with the value in force. -/
theorem State.copiesOf_same {t : State} {word : Nat} (h : Tbl.find t.fc.triples word = none) :
    ∀ x ∈ t.copiesOf word, x.good = true ∧ x.corrected = false ∧ x.value = BitVec.ofNat 32 ((controlWord word).read t) := by
  intro x hx
  unfold State.copiesOf at hx
  dsimp only at hx
  rw [h] at hx
  simp only [List.mem_cons, List.not_mem_nil, or_false, or_self] at hx
  subst hx
  exact ⟨rfl, rfl, rfl⟩

theorem State.copiesOf_listed {t : State} {word : Nat} {l : List CopyRead} (h : Tbl.find t.fc.triples word = some l) : t.copiesOf word = l := by
  unfold State.copiesOf
  dsimp only
  rw [h]

/-- A vote takes the copies off the list, and changes nothing else of the Collector. -/
theorem State.wordVoted_fc (s : State) (i : Nat) (v : W32) :
    (s.wordVoted i v).fc = { s.fc with triples := Tbl.put [] s.fc.triples i [] } ∧ (s.wordVoted i v).ctxs = s.ctxs := by
  unfold State.wordVoted
  dsimp only
  split
  · exact ⟨rfl, rfl⟩
  · obtain ⟨hf, hc⟩ := ControlWord.KeepsCollector.controlWord i v.toNat (s.copiesSet i [])
    exact ⟨hf, hc⟩

theorem State.wordVoted_kept {s : State} {i : Nat} {v : W32} (h : v.toNat = (controlWord i).read s) : s.wordVoted i v = s.copiesSet i [] := if_pos h

theorem controlWord_portMap {i : Nat} (h : i < 16) :
    controlWord i = imgWord (·.portMap) (fun v g => { g with portMap := v }) i := by
  unfold controlWord assignWord
  rw [if_pos (by omega), if_pos h]

/-- The value voted of a word of the port map is the one in force, and no other word of the map changes. -/
theorem State.wordVoted_portMap (s : State) {i : Nat} (h : i < 16) (v : W32) :
    wordOf (s.wordVoted i v).img.portMap i = v.toNat ∧ ∀ j, j ≠ i → wordOf (s.wordVoted i v).img.portMap j = wordOf s.img.portMap j := by
  unfold State.wordVoted
  rw [controlWord_portMap h]
  dsimp only
  split
  · next hv => exact ⟨hv.symm, fun _ _ => rfl⟩
  · exact ⟨wordOf_wordPut_self _ _ v.isLt, fun j hj => wordOf_wordPut_ne _ v.isLt hj⟩

end Sys2Proof.Machine

namespace Sys2Proof.Machine

/-! ### Granite halts (R478) -/

/-- From `s` to `t` ports may have entered safe state, and no port has left it; the image, the Collector, the queues and the activations
stand as they were. -/
structure State.Safer (s t : State) : Prop where
  img : t.img = s.img
  fc : t.fc = s.fc
  qm : t.qm = s.qm
  act : ∀ c, (t.ctx c).act = (s.ctx c).act
  safe : ∀ n, (s.port n).safe = true → (t.port n).safe = true

namespace State.Safer
variable {s t u : State}

theorem refl (s : State) : s.Safer s := ⟨rfl, rfl, rfl, fun _ => rfl, fun _ h => h⟩

theorem trans (h : s.Safer t) (g : t.Safer u) : s.Safer u :=
  ⟨g.img.trans h.img, g.fc.trans h.fc, g.qm.trans h.qm, fun c => (g.act c).trans (h.act c), fun n hn => g.safe n (h.safe n hn)⟩

theorem foldl {α : Type} (f : State → α → State) (hf : ∀ (t : State) (a : α), t.Safer (f t a)) (l : List α) (s : State) : s.Safer (l.foldl f s) := by
  induction l generalizing s with
  | nil => exact .refl s
  | cons a l ih => exact (hf s a).trans (ih _)

theorem modPort (s : State) (n : Nat) (f : Port → Port) (hf : ∀ p, p.safe = true → (f p).safe = true) : s.Safer (s.modPort n f) := by
  refine ⟨rfl, rfl, rfl, fun _ => rfl, fun m hm => ?_⟩
  rw [State.port_modPort]
  split
  · next h => exact hf _ (h ▸ hm)
  · exact hm

theorem modPin (s : State) (n i : Nat) (f : Pin → Pin) : s.Safer (s.modPin n i f) := modPort s n _ fun _ h => h

theorem attEvent (s : State) (a b : Nat) : s.Safer (s.attEvent a b) := by
  refine ⟨rfl, rfl, rfl, fun c => ?_, fun _ h => h⟩
  rw [State.ctx_attEvent]
  obtain ⟨o, l, al, h⟩ := (s.ctx c).latchedBy_eq s.now 0 a (2 ^ b)
  rw [h]

theorem ofStats {s t : State} (h : { t with stats := s.stats } = s) : s.Safer t :=
  ⟨(congrArg State.img h :), (congrArg State.fc h :), (congrArg State.qm h :), fun c => (congrArg (fun u : State => (u.ctx c).act) h :),
    fun n hn => ((congrArg (fun u : State => (u.port n).safe) h).trans hn :)⟩

theorem modAtt (s : State) (a : Nat) (f : Att → Att) : s.Safer (s.modAtt a f) := ⟨rfl, rfl, rfl, fun _ => rfl, fun _ h => h⟩

theorem attChange (s : State) (a : Nat) (f : Att → Att) : s.Safer (s.attChange a f) := by
  unfold State.attChange
  dsimp only
  split
  · exact (modAtt s a _).trans (attEvent _ a 3)
  · exact modAtt s a _

theorem attFail (s : State) (a e : Nat) : s.Safer (s.attFail a e) := (attChange s a _).trans (ofStats (State.countPort_frame _ _ _ _))

theorem pulseCut (s : State) (n i : Nat) : s.Safer (s.pulseCut n i) := by
  unfold State.pulseCut
  split
  · exact (((modPin s n i _).trans (attFail _ _ _)).trans (attEvent _ _ _)).trans (attEvent _ _ _)
  · exact .refl s

theorem pinsSafe (s : State) (n : Nat) : s.Safer (s.pinsSafe n) :=
  foldl _ (fun t i => (pulseCut t n i).trans (modPin _ n i _)) _ s

theorem portPower (s : State) (n : Nat) : s.Safer (s.portPower n) := modPort s n _ fun _ h => h

theorem portSafeOn (s : State) (n : Nat) : s.Safer (s.portSafeOn n) := by
  have key : ∀ (f : Port → Port) (e : Bool), (∀ p, p.safe = true → (f p).safe = true) →
      s.Safer ((if e = true then (s.modPort n f).pinsSafe n else s.modPort n f).portPower n) := by
    intro f e hf
    refine .trans ((modPort s n f hf).trans ?_) (portPower _ n)
    split
    · exact pinsSafe _ n
    · exact .refl _
  exact key _ _ fun _ _ => rfl

theorem countLane (s : State) (w : World) (l i n : Nat) : s.Safer (s.countLane w l i n) := ofStats (State.countLane_frame s w l i n)

theorem laneEntered (s : State) (w : World) (l : Option Nat) : s.Safer (s.laneEntered w l) := by
  cases l with
  | none => exact .refl s
  | some l =>
    unfold State.laneEntered
    dsimp only
    split
    · exact countLane ..
    · exact (countLane s w l 5 1).trans ⟨rfl, rfl, rfl, fun _ => rfl, fun _ h => h⟩

end State.Safer

/-- The hardware of a port whose member enters safe state is in it. -/
theorem State.portSafeOn_safe (s : State) (n : Nat) : ((s.portSafeOn n).port n).safe = true := by
  unfold State.portSafeOn
  dsimp only
  refine (Safer.portPower _ n).safe n ?_
  have h1 : ∀ f : Port → Port, (f (s.port n)).safe = true → ((s.modPort n f).port n).safe = true := by
    intro f hf
    rw [State.port_modPort_self]
    exact hf
  split
  · exact (Safer.pinsSafe _ n).safe n (h1 _ rfl)
  · exact h1 _ rfl

/-- With no CCW on the port, entering safe state stops none. -/
theorem State.portMemberSafe_idle {s : State} (hc : ∀ c, (s.ctx c).act = none) (n : Nat) :
    s.Safer (s.portMemberSafe n) ∧ ((s.portMemberSafe n).port n).safe = true := by
  unfold State.portMemberSafe
  split
  · next h => exact ⟨.refl s, h⟩
  · have hs := Safer.portSafeOn s n
    have hsafe := s.portSafeOn_safe n
    generalize s.portSafeOn n = t at hs hsafe
    have hct : ∀ c, (t.ctx c).act = none := fun c => (hs.act c).trans (hc c)
    have hfold : ∀ l : List Nat, l.foldl (fun t c =>
        let on := (t.ctx c).act.any (fun y => y.att.any (fun a => a / 16 = n))
        if on && (t.ctx c).live && !t.isResident c && !t.isProbe c then t.ccwStop c 3 0xFF01 else t) t = t := by
      intro l
      induction l with
      | nil => rfl
      | cons c l ih =>
        rw [List.foldl_cons]
        dsimp only
        rw [hct c]
        exact ih
    rw [hfold]
    dsimp only
    split
    · exact ⟨hs.trans (.laneEntered ..), (Safer.laneEntered t _ _).safe n hsafe⟩
    · exact ⟨hs, hsafe⟩

/-- With no CCW in progress, all ports listed enter safe state. -/
theorem State.portsSafe_idle {s : State} (hc : ∀ c, (s.ctx c).act = none) (l : List Nat) :
    s.Safer (l.foldl (fun t n => t.portMemberSafe n) s) ∧ ∀ n ∈ l, ((l.foldl (fun t n => t.portMemberSafe n) s).port n).safe = true := by
  induction l generalizing s with
  | nil => exact ⟨.refl s, by simp⟩
  | cons a l ih =>
    obtain ⟨h1, h2⟩ := State.portMemberSafe_idle hc a
    obtain ⟨h3, h4⟩ := ih (s := s.portMemberSafe a) fun c => (h1.act c).trans (hc c)
    refine ⟨h1.trans h3, fun n hn => ?_⟩
    rcases List.mem_cons.1 hn with rfl | hn
    · exact h3.safe _ h2
    · exact h4 n hn

theorem State.mem_worldPorts {s : State} {w : World} {n : Nat} (h : s.portWorld n = some w) : n ∈ s.worldPorts w := by
  have hn : n < 256 := by
    by_contra hn
    rw [State.portWorld, if_neg hn] at h
    cases h
  exact List.mem_filter.2 ⟨List.mem_range.2 hn, decide_eq_true h⟩

theorem State.worldSafe_idle {s : State} {w : World} (hc : ∀ c, (s.ctx c).act = none) (hd : s.worldDrives w = []) :
    s.Safer (s.worldSafe w) ∧ ∀ n, s.portWorld n = some w → ((s.worldSafe w).port n).safe = true := by
  unfold State.worldSafe
  rw [hd]
  obtain ⟨h1, h2⟩ := State.portsSafe_idle hc (s.worldPorts w)
  exact ⟨h1, fun n hn => h2 n (State.mem_worldPorts hn)⟩

theorem State.visitsHalt_none {s : State} (hv : ∀ d, (s.ctx d).visit = none) : s.visitsHalt = s := by
  unfold State.visitsHalt
  generalize s.worldCtxs .slate = l
  induction l with
  | nil => rfl
  | cons c l ih =>
    rw [List.foldl_cons, hv c]
    exact ih

/-- Every program of Granite's queues not yet bound is discarded. -/
def State.graniteDiscard (s : State) : State :=
  { s with qm := s.qm.upd .granite (fun (m : Qm) => { m with sqs := m.sqs.map (fun (p : Nat × Sq) => (p.1, p.2.discard)) }) }

theorem State.graniteDiscard_entries (s : State) (q : Nat) : (s.graniteDiscard.sq .granite q).entries = [] := by
  have h : s.graniteDiscard.sq .granite q = (s.sq .granite q).discard := Tbl.get_map ({} : Sq) Sq.discard rfl (s.qm.get .granite).sqs q
  rw [h]
  rfl

theorem State.auditAdvance_eq (s : State) : ∃ f, s.auditAdvance = { s with flint := f } := by
  unfold State.auditAdvance
  split
  · exact ⟨_, rfl⟩
  · exact ⟨s.flint, rfl⟩

/-- Granite halts with no CCW in progress and no drive: its queues are empty and its ports in safe state. -/
theorem State.graniteStop_idle {s : State} (hh : s.fc.graniteHalt = false) (hc : NoCcw s) (hv : ∀ d, (s.ctx d).visit = none)
    (hd : s.worldDrives .granite = []) : s.graniteStop.fc = { s.fc with graniteHalt := true }
      ∧ (∀ q, (s.graniteStop.sq .granite q).entries = []) ∧ ∀ n, s.portWorld n = some .granite → (s.graniteStop.port n).safe = true := by
  obtain ⟨f, hf⟩ := State.auditAdvance_eq { s with fc := { s.fc with graniteHalt := true } }
  have hv' : ∀ d, (({ s with fc := { s.fc with graniteHalt := true }, flint := f } : State).ctx d).visit = none := hv
  have hstop : s.graniteStop = (({ s with fc := { s.fc with graniteHalt := true }, flint := f } : State).graniteDiscard).worldSafe .granite := by
    unfold State.graniteStop
    rw [if_neg (by simp [hh])]
    dsimp only
    rw [hf, State.visitsHalt_none hv']
    exact (congrArg (fun l : List Nat => l.foldl (fun t n => t.driveCauseSet n .program)
      ((({ s with fc := { s.fc with graniteHalt := true }, flint := f } : State).graniteDiscard).worldSafe .granite)) hd :)
  have hact : ∀ c, ((({ s with fc := { s.fc with graniteHalt := true }, flint := f } : State).graniteDiscard).ctx c).act = none :=
    fun c => (hc c).2
  obtain ⟨h1, h2⟩ := State.worldSafe_idle (w := .granite) hact hd
  rw [hstop]
  refine ⟨h1.fc, fun q => ?_, h2⟩
  have he := congrArg (fun m : Two Qm => (Tbl.get ({} : Sq) (m.get .granite).sqs q).entries) h1.qm
  exact he.trans (State.graniteDiscard_entries _ q)

/-- A report leaves the halt of Granite and the copies of its control words as they are. -/
theorem State.report_halt (s : State) (m : W64) (c : Option Nat) :
    (s.report m c).fc.graniteHalt = s.fc.graniteHalt ∧ (s.report m c).fc.triples = s.fc.triples := by
  unfold State.report
  split
  · exact ⟨rfl, rfl⟩
  · exact ⟨(s.enterViews_enters m c false).halt, (s.enterViews_enters m c false).triples⟩

end Sys2Proof.Machine

namespace Sys2Proof.Machine

/-! ### The vote over three copies (R476 to R478) -/

section
variable {s : State} {word : Nat} {a b c : CopyRead} (h5 : 5 ≤ s.attic.state) (h6 : s.attic.state ≤ 6)
include h5 h6

theorem tripleSweep_clean (hv : voteOf [a, b, c] = .clean) :
    exec (.tripleSweep word a b c) s = .next (s.wordVoted word (voteValue [a, b, c])) := by
  simp only [exec, execTripleSweep, h5, h6, decide_true, Bool.and_self, ↓reduceIte, hv]

theorem tripleSweep_repaired (hv : voteOf [a, b, c] = .repaired) :
    exec (.tripleSweep word a b c) s = .next ((s.wordVoted word (voteValue [a, b, c])).report (faultMsg 109 0 0x16 word none false)) := by
  simp only [exec, execTripleSweep, h5, h6, decide_true, Bool.and_self, ↓reduceIte, hv]

theorem tripleSweep_unvotable (hv : voteOf [a, b, c] = .unvotable) :
    exec (.tripleSweep word a b c) s = .next ((s.copiesSet word [a, b, c]).graniteStop.report (faultMsg 109 0 0x17 word none true)) := by
  simp only [exec, execTripleSweep, h5, h6, decide_true, Bool.and_self, ↓reduceIte, hv]

end

theorem completes_tripleSweep_clean {s : State} {word : Nat} {a b c : CopyRead} (h5 : 5 ≤ s.attic.state) (h6 : s.attic.state ≤ 6)
    (hv : voteOf [a, b, c] = .clean) (hr : (voteValue [a, b, c]).toNat = (controlWord word).read s) :
    Completes (.tripleSweep word a b c) s (fun t =>
      (∀ x ∈ t.copiesOf word, x.good = true ∧ x.corrected = false ∧ x.value = BitVec.ofNat 32 ((controlWord word).read t))
      ∧ t = { s with fc := { s.fc with triples := Tbl.put [] s.fc.triples word [] } }) := by
  refine ⟨s.copiesSet word [], ?_, State.copiesOf_same (Tbl.find_put_default ([] : List CopyRead) s.fc.triples word), rfl⟩
  rw [tripleSweep_clean h5 h6 hv, State.wordVoted_kept hr]

theorem completes_tripleSweep_repaired {s : State} {word : Nat} {a b c : CopyRead} (h5 : 5 ≤ s.attic.state) (h6 : s.attic.state ≤ 6)
    (hb : (s.fc.buf.filter (fun r => msgSource r.msg = 109)).length < 4) (hv : voteOf [a, b, c] = .repaired) :
    Completes (.tripleSweep word a b c) s (fun t =>
      (∀ x ∈ t.copiesOf word, x.good = true ∧ x.corrected = false ∧ x.value = BitVec.ofNat 32 ((controlWord word).read t))
      ∧ t.fc.graniteHalt = s.fc.graniteHalt ∧ t.ctxs = s.ctxs
      ∧ t.fc.buf = s.fc.buf ++ [⟨faultMsg 109 0 0x16 word none false, none⟩]
      ∧ (word < 16 → wordOf t.img.portMap word = (voteValue [a, b, c]).toNat
        ∧ ∀ j, j ≠ word → wordOf t.img.portMap j = wordOf s.img.portMap j)) := by
  obtain ⟨hf, hc⟩ := s.wordVoted_fc word (voteValue [a, b, c])
  have hm := fun h : word < 16 => s.wordVoted_portMap h (voteValue [a, b, c])
  have hx := tripleSweep_repaired h5 h6 hv (word := word)
  generalize s.wordVoted word (voteValue [a, b, c]) = t at hf hc hm hx
  have hroom : (t.fc.buf.filter (fun r => msgSource r.msg = msgSource (faultMsg 109 0 0x16 word none false))).length < 4 := by
    rw [msgSource_faultMsg _ _ _ _ _ _ (by decide), hf]
    exact hb
  rw [State.report_room hroom] at hx
  refine ⟨_, hx, State.copiesOf_same ?_, ?_, hc, ?_, hm⟩
  · exact (congrArg (fun f : Collector => Tbl.find f.triples word) hf).trans (Tbl.find_put_default ([] : List CopyRead) s.fc.triples word)
  · exact (congrArg Collector.graniteHalt hf :)
  · exact (congrArg (fun f : Collector => f.buf ++ _) hf :)

theorem completes_tripleSweep_unvotable {s : State} {word : Nat} {a b c : CopyRead} (h5 : 5 ≤ s.attic.state) (h6 : s.attic.state ≤ 6)
    (hh : s.fc.graniteHalt = false) (hc : NoCcw s) (hvis : ∀ d, (s.ctx d).visit = none) (hd : s.worldDrives .granite = [])
    (hv : voteOf [a, b, c] = .unvotable) : Completes (.tripleSweep word a b c) s (fun t =>
      t.fc.graniteHalt = true ∧ t.copiesOf word = [a, b, c] ∧ (∀ q, (t.sq .granite q).entries = [])
      ∧ ∀ n, s.portWorld n = some .granite → (t.port n).safe = true) := by
  obtain ⟨hf, hq, hp⟩ := State.graniteStop_idle (s := s.copiesSet word [a, b, c]) hh hc hvis hd
  have hx := tripleSweep_unvotable h5 h6 hv (word := word)
  generalize (s.copiesSet word [a, b, c]).graniteStop = t at hf hq hp hx
  obtain ⟨hhalt, htr⟩ := t.report_halt (faultMsg 109 0 0x17 word none true) none
  have hr := t.report_frame (faultMsg 109 0 0x17 word none true) none
  refine ⟨_, hx, ?_, State.copiesOf_listed ?_, fun q => ?_, fun n hn => ?_⟩
  · rw [hhalt, hf]
  · rw [htr, hf]
    exact Tbl.find_put_of_ne s.fc.triples word (List.cons_ne_nil _ _)
  · exact ((congrArg (fun u : State => (u.sq .granite q).entries) hr).trans (hq q) :)
  · exact ((congrArg (fun u : State => (u.port n).safe) hr).trans (hp n hn) :)

/-! ### O44 -/

/-- Settles O44: by the command; entering a message into the views is said once (`State.Entered`), as is a vote (`State.wordVoted_fc`), and
with no CCW in progress the halt of Granite is its flag, its queues and its ports. -/
theorem faultsAreCollected : Obligations.FaultsAreCollected := by
  intro s w
  refine ⟨fun r rest hb => completes_faultMessage hb w, fun hp hn => ⟨_, if_pos (by simp [hp, hn]), rfl⟩, fun src x hd hs hx => ⟨fun hc => ?_, fun hc => ?_⟩,
    fun src x hs hx hc => completes_recordClear_study hs hx hc, fun hi hd hl => completes_faultInject_denied w hi hd hl,
    fun hi hd hl => completes_faultInject w hi hd hl, fun x hd => ?_, fun hh => ?_, fun mv hp h1 h2 => ?_, fun mv hp h1 => ?_,
    fun word a b c h5 h6 => ⟨fun hv hr => completes_tripleSweep_clean h5 h6 hv hr, fun hb hv => completes_tripleSweep_repaired h5 h6 hb hv,
      fun hh hc hvis hd hv => completes_tripleSweep_unvotable h5 h6 hh hc hvis hd hv⟩⟩
  · obtain ⟨t, ht, hv, hk⟩ := completes_recordClear w hd hs hx
    rw [hc] at hv
    have hrec := fun n => (congrArg (fun v : View => Tbl.get {} v.recs n) hv).trans (View.clear_free ..)
    have hself := (hrec src).trans (if_pos rfl)
    exact ⟨t, ht, (congrArg FaultRec.active hself :), (congrArg FaultRec.severe hself :), (congrArg FaultRec.first hself :),
      fun n hn => (hrec n).trans (if_neg hn), hk⟩
  · obtain ⟨t, ht, hv, hk⟩ := completes_recordClear w hd hs hx
    rw [hc] at hv
    exact ⟨t, ht, hv, hk⟩
  · refine ⟨{ s with fc := { s.fc with hold := s.fc.hold.set w (x.getLsbD 0) } }, congrArg Host.Outcome.next ?_, rfl, rfl⟩
    rw [State.errHoldSet, if_pos hd, ← getLsbD_eq_bitAt]
  · exact ⟨_, congrArg Host.Outcome.next (if_pos hh), rfl, rfl⟩
  · refine ⟨{ s with pw := { s.pw with holdupMv := mv, ready := true } }, congrArg Host.Outcome.next ?_, rfl⟩
    rw [if_pos ⟨h1, hp⟩, Nat.mod_eq_of_lt h2]
  · exact ⟨_, congrArg Host.Outcome.next (if_pos ⟨h1, hp⟩), rfl⟩

end Sys2Proof.Machine

namespace Sys2Proof.Machine

/-! ### What most functions of the model hand on

Most functions of the model hand on what the start and the host fixed (the configuration, the image, the state of each function), the
Cellar and the flash, and the count of restarts; and every function hands on the mark of a failed read on the link, the order of the host
memory's list, and, where they had it, the canonical form of Pantry, the Cellar and the flash. That is stated once for each function, in the
order of the model's files: `_still` of all of it, `_kept` where Pantry may be written, `_stores` where what was fixed may change, and
`_pantryOk` for the form of Pantry in these two cases. -/

/-- What the start and the host fixed, the Cellar and the flash. -/
structure Still.Fixed where
  attic : Attic
  img : ImageCfg
  hosts : HostState × HostState
  cellar : Cellar
  flash : Flash

/-- The form of the contents of the Cellar and of the flash, the order of the host memory's list, and the mark of a failed read on the
link. -/
structure Still.Stores where
  cellar : Bool
  flash : Bool
  host : Bool
  linkBad : Bool

/-- The parts of a state that nearly all functions hand on. -/
structure Still.Kept where
  fixed : Still.Fixed
  stores : Still.Stores

/-- The parts of a state that most functions hand on. -/
structure Still where
  kept : Still.Kept
  /-- The restarts counted of each world. -/
  restarts : Nat × Nat
  /-- Pantry has its canonical form. -/
  pantry : Bool

def State.still (s : State) : Still where
  kept :=
    { fixed :=
        { attic := s.attic, img := s.img, hosts := ((s.fns.get .slate).host, (s.fns.get .granite).host), cellar := s.cellar
          flash := s.flash }
      stores :=
        { cellar := Memory.wf 0 s.cellar.mem, flash := Memory.wf 0xFF s.flash.mem, host := Tbl.rising none s.hostMem
          linkBad := s.linkBad } }
  restarts := ((s.hearths.cnt.get .slate).restart, (s.hearths.cnt.get .granite).restart)
  pantry := Memory.wf 0 s.pantry.mem

section
variable {u : State} {pw : Power} {attic : Attic} {img : ImageCfg} {qz : Quartz} {stats : Two EpochEngine} {fc : Collector}
    {cellar : Cellar} {fuses : Fuses} {flint : FlintUnit} {jtag : Jtag} {linkUp : Bool} {fns : Two Func} {qm : Two Qm} {ovf : List OvfEntry}
    {ovfWait : List WaitStatus} {mbs : Tbl Mailbox} {flash : Flash} {hearths : Hearths} {ctxs : Tbl Ctx} {ports : Tbl Port} {atts : Tbl Att}
    {pantry : Pantry} {dws : Tbl Dw} {drives : Tbl Drive} {lands : Tbl Landing} {bias : Two (Tbl Nat)} {landOrder : Nat} {boiler : Boiler}
    {hostMem : Memory} {linkBad : Bool} {out : List OutItem} {free : Nat} {pending : List Instr}

/-- A state whose parts are those of `u` where `State.still` looks. -/
@[simp] theorem State.still_mk
    (hattic : attic = u.attic) (himg : img = u.img) (hcellar : cellar = u.cellar) (hflash : flash = u.flash) (hhost : hostMem = u.hostMem)
    (hs : (fns.get .slate).host = (u.fns.get .slate).host) (hg : (fns.get .granite).host = (u.fns.get .granite).host)
    (hrs : (hearths.cnt.get .slate).restart = (u.hearths.cnt.get .slate).restart)
    (hrg : (hearths.cnt.get .granite).restart = (u.hearths.cnt.get .granite).restart) (hpantry : pantry.mem = u.pantry.mem) :
    (State.mk pw attic img qz stats fc cellar fuses flint jtag linkUp fns qm ovf ovfWait mbs flash hearths ctxs ports atts pantry dws drives
      lands bias landOrder boiler hostMem u.linkBad out free pending).still = u.still := by
  simp only [State.still, hattic, himg, hcellar, hflash, hhost, hs, hg, hrs, hrg, hpantry]

/-- A state whose parts are those of `u` where `Still.Kept` looks. -/
@[simp] theorem State.still_kept_mk
    (hattic : attic = u.attic) (himg : img = u.img) (hcellar : cellar = u.cellar) (hflash : flash = u.flash) (hhost : hostMem = u.hostMem)
    (hs : (fns.get .slate).host = (u.fns.get .slate).host) (hg : (fns.get .granite).host = (u.fns.get .granite).host) :
    (State.mk pw attic img qz stats fc cellar fuses flint jtag linkUp fns qm ovf ovfWait mbs flash hearths ctxs ports atts pantry dws drives
      lands bias landOrder boiler hostMem u.linkBad out free pending).still.kept = u.still.kept := by
  simp only [State.still, hattic, himg, hcellar, hflash, hhost, hs, hg]

/-- A state whose stores are those of `u`. -/
@[simp] theorem State.still_stores_mk (hcellar : cellar.mem = u.cellar.mem) (hflash : flash.mem = u.flash.mem) (hhost : hostMem = u.hostMem) :
    (State.mk pw attic img qz stats fc cellar fuses flint jtag linkUp fns qm ovf ovfWait mbs flash hearths ctxs ports atts pantry dws drives
      lands bias landOrder boiler hostMem u.linkBad out free pending).still.kept.stores = u.still.kept.stores := by
  simp only [State.still, hcellar, hflash, hhost]

/-- A state with the Pantry of `u`. -/
@[simp] theorem State.still_pantry_mk :
    (State.mk pw attic img qz stats fc cellar fuses flint jtag linkUp fns qm ovf ovfWait mbs flash hearths ctxs ports atts u.pantry dws drives
      lands bias landOrder boiler hostMem linkBad out free pending).still.pantry = u.still.pantry := rfl

end

end Sys2Proof.Machine

namespace Sys2Proof.Machine

@[simp] theorem State.setCtx_linkBad (s : State) (c : Nat) (x : Ctx) : (s.setCtx c x).linkBad = s.linkBad := rfl
@[simp] theorem State.modCtx_linkBad (s : State) (c : Nat) (f : Ctx → Ctx) : (s.modCtx c f).linkBad = s.linkBad := rfl
@[simp] theorem State.modFn_linkBad (s : State) (w : World) (f : Func → Func) : (s.modFn w f).linkBad = s.linkBad := rfl
@[simp] theorem State.modSq_linkBad (s : State) (w : World) (q : Nat) (f : Sq → Sq) : (s.modSq w q f).linkBad = s.linkBad := rfl
@[simp] theorem State.modCq_linkBad (s : State) (w : World) (q : Nat) (f : Cq → Cq) : (s.modCq w q f).linkBad = s.linkBad := rfl
@[simp] theorem State.modPort_linkBad (s : State) (n : Nat) (f : Port → Port) : (s.modPort n f).linkBad = s.linkBad := rfl
@[simp] theorem State.modAtt_linkBad (s : State) (a : Nat) (f : Att → Att) : (s.modAtt a f).linkBad = s.linkBad := rfl
@[simp] theorem State.modDrive_linkBad (s : State) (n : Nat) (f : Drive → Drive) : (s.modDrive n f).linkBad = s.linkBad := rfl
@[simp] theorem State.modDw_linkBad (s : State) (e : Nat) (f : Dw → Dw) : (s.modDw e f).linkBad = s.linkBad := rfl
@[simp] theorem State.modMb_linkBad (s : State) (m : Nat) (f : Mailbox → Mailbox) : (s.modMb m f).linkBad = s.linkBad := rfl
@[simp] theorem State.modCmp_linkBad (s : State) (u : Nat) (f : CmpUnit → CmpUnit) : (s.modCmp u f).linkBad = s.linkBad := rfl
@[simp] theorem State.modPn_linkBad (s : State) (f : Pantry → Pantry) : (s.modPn f).linkBad = s.linkBad := rfl
@[simp] theorem State.modBl_linkBad (s : State) (f : Boiler → Boiler) : (s.modBl f).linkBad = s.linkBad := rfl
@[simp] theorem State.modLanding_linkBad (s : State) (k : Nat) (f : Landing → Landing) : (s.modLanding k f).linkBad = s.linkBad := rfl
@[simp] theorem State.modRx_linkBad (s : State) (a : Nat) (f : RxChan → RxChan) : (s.modRx a f).linkBad = s.linkBad := rfl
@[simp] theorem State.modTx_linkBad (s : State) (a : Nat) (f : TxChan → TxChan) : (s.modTx a f).linkBad = s.linkBad := rfl
@[simp] theorem State.countBank_linkBad (s : State) (w : World) (c : Counted) : (s.countBank w c).linkBad = s.linkBad := rfl
@[simp] theorem State.emit_linkBad (s : State) (o : OutItem) : (s.emit o).linkBad = s.linkBad := rfl
@[simp] theorem State.hostWrite_linkBad (s : State) (a : Nat) (data : List Byte) : (s.hostWrite a data).linkBad = s.linkBad := rfl
@[simp] theorem State.latchEvents_linkBad (s : State) (kind id events : Nat) : (s.latchEvents kind id events).linkBad = s.linkBad := rfl

@[simp] theorem State.setCtx_still (s : State) (c : Nat) (x : Ctx) : (s.setCtx c x).still = s.still := rfl
@[simp] theorem State.modCtx_still (s : State) (c : Nat) (f : Ctx → Ctx) : (s.modCtx c f).still = s.still := rfl
@[simp] theorem State.modSq_still (s : State) (w : World) (q : Nat) (f : Sq → Sq) : (s.modSq w q f).still = s.still := rfl
@[simp] theorem State.modCq_still (s : State) (w : World) (q : Nat) (f : Cq → Cq) : (s.modCq w q f).still = s.still := rfl
@[simp] theorem State.modPort_still (s : State) (n : Nat) (f : Port → Port) : (s.modPort n f).still = s.still := rfl
@[simp] theorem State.modAtt_still (s : State) (a : Nat) (f : Att → Att) : (s.modAtt a f).still = s.still := rfl
@[simp] theorem State.modDrive_still (s : State) (n : Nat) (f : Drive → Drive) : (s.modDrive n f).still = s.still := rfl
@[simp] theorem State.modDw_still (s : State) (e : Nat) (f : Dw → Dw) : (s.modDw e f).still = s.still := rfl
@[simp] theorem State.modMb_still (s : State) (m : Nat) (f : Mailbox → Mailbox) : (s.modMb m f).still = s.still := rfl
@[simp] theorem State.modCmp_still (s : State) (u : Nat) (f : CmpUnit → CmpUnit) : (s.modCmp u f).still = s.still := rfl
@[simp] theorem State.modBl_still (s : State) (f : Boiler → Boiler) : (s.modBl f).still = s.still := rfl
@[simp] theorem State.modLanding_still (s : State) (k : Nat) (f : Landing → Landing) : (s.modLanding k f).still = s.still := rfl
@[simp] theorem State.modRx_still (s : State) (a : Nat) (f : RxChan → RxChan) : (s.modRx a f).still = s.still := rfl
@[simp] theorem State.modTx_still (s : State) (a : Nat) (f : TxChan → TxChan) : (s.modTx a f).still = s.still := rfl
@[simp] theorem State.countBank_still (s : State) (w : World) (c : Counted) : (s.countBank w c).still = s.still := rfl
@[simp] theorem State.emit_still (s : State) (o : OutItem) : (s.emit o).still = s.still := rfl
@[simp] theorem State.latchEvents_still (s : State) (kind id events : Nat) : (s.latchEvents kind id events).still = s.still := rfl

/-- What an update of one of the two leaves alone is the same for both. -/
theorem Two.get_upd_of_same {α β : Type} (t : Two α) (w : World) (f : α → α) (g : α → β) (h : ∀ x, g (f x) = g x) (v : World) :
    g ((t.upd w f).get v) = g (t.get v) := by
  cases w <;> cases v
  · exact h _
  · rfl
  · rfl
  · exact h _

@[simp] theorem State.modFn_still (s : State) (w : World) (f : Func → Func) (h : ∀ x, (f x).host = x.host) : (s.modFn w f).still = s.still := by
  have hg : ∀ v, ((s.fns.upd w f).get v).host = (s.fns.get v).host := Two.get_upd_of_same _ w f Func.host h
  exact State.still_mk rfl rfl rfl rfl rfl (hg .slate) (hg .granite) rfl rfl rfl

@[simp] theorem State.modPn_still (s : State) (f : Pantry → Pantry) (h : ∀ p, (f p).mem = p.mem) : (s.modPn f).still = s.still :=
  State.still_mk rfl rfl rfl rfl rfl rfl rfl rfl rfl (h s.pantry)

@[simp] theorem State.modHt_still (s : State) (w : World) (f : HearthCnt → HearthCnt) (h : ∀ x, (f x).restart = x.restart) :
    (s.modHt w f).still = s.still := by
  have hg : ∀ v, ((s.hearths.cnt.upd w f).get v).restart = (s.hearths.cnt.get v).restart := Two.get_upd_of_same _ w f HearthCnt.restart h
  exact State.still_mk rfl rfl rfl rfl rfl rfl rfl (hg .slate) (hg .granite) rfl

/-- A byte more on the list of the host memory keeps its order, and mends none. -/
theorem Tbl.rising_ins_eq {α : Type} (t : Tbl α) (b : Option Nat) (k : Nat) (v : α) (hb : ∀ x ∈ b, x < k) :
    Tbl.rising b (Tbl.ins t k v) = Tbl.rising b t := by
  induction t generalizing b with
  | nil => cases b <;> simp_all [Tbl.rising, Tbl.ins]
  | cons p t ih =>
    obtain ⟨k', v'⟩ := p
    have ht : k' < k → Tbl.rising (some k') (Tbl.ins t k v) = Tbl.rising (some k') t := fun h => ih (some k') fun x hx => by cases hx; exact h
    simp only [Tbl.ins]
    split
    · next h =>
      cases b with
      | none => simp [Tbl.rising, h]
      | some x =>
        have hx := hb x rfl
        simp [Tbl.rising, h, hx, show x < k' by omega]
    · split
      · next h1 h2 =>
        subst h2
        cases b <;> rfl
      · next h1 h2 =>
        have h3 := ht (by omega)
        cases b <;> simp only [Tbl.rising, h3]

theorem rising_hostWriteOf_eq (m : Memory) (a : Nat) (l : List Byte) : Tbl.rising none (hostWriteOf m a l) = Tbl.rising none m := by
  induction l generalizing m a with
  | nil => rfl
  | cons b l ih => exact (ih _ _).trans (Tbl.rising_ins_eq m none a b fun _ hx => by cases hx)

@[simp] theorem State.hostWrite_still (s : State) (a : Nat) (data : List Byte) : (s.hostWrite a data).still = s.still := by
  simp only [State.still, State.hostWrite, rising_hostWriteOf_eq]

end Sys2Proof.Machine

namespace Sys2Proof.Machine

/-! ### Results, branches and loops -/

/-- No step that answers with this result has changed what `State.still` holds. -/
def KeepsStill (s : State) (r : Result) : Prop := ∀ t, r = .next t → t.still = s.still

/-- No step that answers with this result has changed what `Still.Kept` holds. -/
def KeepsKept (s : State) (r : Result) : Prop := ∀ t, r = .next t → t.still.kept = s.still.kept

/-- No step that answers with this result has changed the stores. -/
def KeepsStores (s : State) (r : Result) : Prop := ∀ t, r = .next t → t.still.kept.stores = s.still.kept.stores

/-- A step that answers with this result leaves Pantry in its canonical form. -/
def FormsPantry (r : Result) : Prop := ∀ t, r = .next t → t.still.pantry = true

@[simp] theorem keepsStill_next {s t : State} : KeepsStill s (.next t) ↔ t.still = s.still :=
  ⟨fun h => h t rfl, fun h u hu => by cases hu; exact h⟩

@[simp] theorem keepsKept_next {s t : State} : KeepsKept s (.next t) ↔ t.still.kept = s.still.kept :=
  ⟨fun h => h t rfl, fun h u hu => by cases hu; exact h⟩

@[simp] theorem keepsStores_next {s t : State} : KeepsStores s (.next t) ↔ t.still.kept.stores = s.still.kept.stores :=
  ⟨fun h => h t rfl, fun h u hu => by cases hu; exact h⟩

@[simp] theorem formsPantry_next {t : State} : FormsPantry (.next t) ↔ t.still.pantry = true :=
  ⟨fun h => h t rfl, fun h u hu => by cases hu; exact h⟩

@[simp] theorem keepsStill_ite {s : State} {p : Prop} [Decidable p] {a b : Result} :
    KeepsStill s (if p then a else b) ↔ (p → KeepsStill s a) ∧ (¬p → KeepsStill s b) := by
  split <;> simp [*]

@[simp] theorem keepsKept_ite {s : State} {p : Prop} [Decidable p] {a b : Result} :
    KeepsKept s (if p then a else b) ↔ (p → KeepsKept s a) ∧ (¬p → KeepsKept s b) := by
  split <;> simp [*]

@[simp] theorem keepsStores_ite {s : State} {p : Prop} [Decidable p] {a b : Result} :
    KeepsStores s (if p then a else b) ↔ (p → KeepsStores s a) ∧ (¬p → KeepsStores s b) := by
  split <;> simp [*]

@[simp] theorem formsPantry_ite {p : Prop} [Decidable p] {a b : Result} :
    FormsPantry (if p then a else b) ↔ (p → FormsPantry a) ∧ (¬p → FormsPantry b) := by
  split <;> simp [*]

/-- From `s` to `t` the list of the host memory keeps its order, no mark of a failed read on the link comes to stay, and the Cellar, the
flash and Pantry keep the canonical form that they had. -/
structure State.FormKept (s t : State) : Prop where
  host : t.still.kept.stores.host = s.still.kept.stores.host
  linkBad : s.linkBad = false → t.linkBad = false
  cellar : s.still.kept.stores.cellar = true → t.still.kept.stores.cellar = true
  flash : s.still.kept.stores.flash = true → t.still.kept.stores.flash = true
  pantry : s.still.pantry = true → t.still.pantry = true

namespace State.FormKept
variable {s t u : State}

theorem refl (s : State) : s.FormKept s := ⟨rfl, id, id, id, id⟩

theorem trans (h : s.FormKept t) (g : t.FormKept u) : s.FormKept u :=
  ⟨g.host.trans h.host, g.linkBad ∘ h.linkBad, g.cellar ∘ h.cellar, g.flash ∘ h.flash, g.pantry ∘ h.pantry⟩

theorem of_stores (h : t.still.kept.stores = s.still.kept.stores) (hp : s.still.pantry = true → t.still.pantry = true) : s.FormKept t := by
  have hl : t.linkBad = s.linkBad := congrArg Still.Stores.linkBad h
  refine ⟨congrArg Still.Stores.host h, fun hs => hl.trans hs, ?_, ?_, hp⟩ <;> rw [h] <;> exact id

theorem of_kept (h : t.still.kept = s.still.kept) (hp : s.still.pantry = true → t.still.pantry = true) : s.FormKept t :=
  of_stores (congrArg Still.Kept.stores h) hp

theorem of_still (h : t.still = s.still) : s.FormKept t := of_kept (congrArg Still.kept h) fun hp => (congrArg Still.pantry h).trans hp

end State.FormKept

/-- Every step that answers with this result keeps the form of the memories and the mark of a failed read. -/
def KeepsForm (s : State) (r : Result) : Prop := ∀ t, r = .next t → s.FormKept t

theorem keepsForm_next {s t : State} : KeepsForm s (.next t) ↔ s.FormKept t :=
  ⟨fun h => h t rfl, fun h u hu => by cases hu; exact h⟩

theorem KeepsStill.form {s : State} {r : Result} (h : KeepsStill s r) : KeepsForm s r := fun t ht => .of_still (h t ht)

theorem KeepsKept.form {s : State} {r : Result} (h : KeepsKept s r) (hp : s.still.pantry = true → FormsPantry r) : KeepsForm s r :=
  fun t ht => .of_kept (h t ht) fun hs => hp hs t ht

theorem KeepsStores.form {s : State} {r : Result} (h : KeepsStores s r) (hp : s.still.pantry = true → FormsPantry r) : KeepsForm s r :=
  fun t ht => .of_stores (h t ht) fun hs => hp hs t ht

@[simp] theorem still_ite (p : Prop) [Decidable p] (s t : State) : (if p then s else t).still = if p then s.still else t.still :=
  apply_ite State.still p s t

@[simp] theorem still_kept_ite (p : Prop) [Decidable p] (s t : Still) : (if p then s else t).kept = if p then s.kept else t.kept :=
  apply_ite Still.kept p s t

@[simp] theorem still_stores_ite (p : Prop) [Decidable p] (s t : Still.Kept) : (if p then s else t).stores = if p then s.stores else t.stores :=
  apply_ite Still.Kept.stores p s t

@[simp] theorem still_pantry_ite (p : Prop) [Decidable p] (s t : Still) :
    (if p then s else t).pantry = true ↔ (p → s.pantry = true) ∧ (¬p → t.pantry = true) := by
  split <;> simp [*]

@[simp] theorem foldl_still {α : Type} (l : List α) (s : State) (f : State → α → State) (h : ∀ t x, (f t x).still = t.still) :
    (l.foldl f s).still = s.still := by
  induction l generalizing s with
  | nil => rfl
  | cons x l ih => exact (ih (f s x)).trans (h s x)

@[simp] theorem foldl_kept {α : Type} (l : List α) (s : State) (f : State → α → State) (h : ∀ t x, (f t x).still.kept = t.still.kept) :
    (l.foldl f s).still.kept = s.still.kept := by
  induction l generalizing s with
  | nil => rfl
  | cons x l ih => exact (ih (f s x)).trans (h s x)

@[simp] theorem foldl_stores {α : Type} (l : List α) (s : State) (f : State → α → State)
    (h : ∀ t x, (f t x).still.kept.stores = t.still.kept.stores) : (l.foldl f s).still.kept.stores = s.still.kept.stores := by
  induction l generalizing s with
  | nil => rfl
  | cons x l ih => exact (ih (f s x)).trans (h s x)

@[simp] theorem foldl_pantry {α : Type} (l : List α) (s : State) (f : State → α → State)
    (h : ∀ t x, t.still.pantry = true → (f t x).still.pantry = true) (hs : s.still.pantry = true) : (l.foldl f s).still.pantry = true := by
  induction l generalizing s with
  | nil => exact hs
  | cons x l ih => exact ih (f s x) (h s x hs)

@[simp] theorem foldl_snd_still {α β : Type} (l : List α) (r : β × State) (f : β × State → α → β × State)
    (h : ∀ r x, (f r x).2.still = r.2.still) : (l.foldl f r).2.still = r.2.still := by
  induction l generalizing r with
  | nil => rfl
  | cons x l ih => exact (ih (f r x)).trans (h r x)

@[simp] theorem foldl_snd_stores {α β : Type} (l : List α) (r : β × State) (f : β × State → α → β × State)
    (h : ∀ r x, (f r x).2.still.kept.stores = r.2.still.kept.stores) : (l.foldl f r).2.still.kept.stores = r.2.still.kept.stores := by
  induction l generalizing r with
  | nil => rfl
  | cons x l ih => exact (ih (f r x)).trans (h r x)

@[simp] theorem foldl_snd_pantry {α β : Type} (l : List α) (r : β × State) (f : β × State → α → β × State)
    (h : ∀ r x, r.2.still.pantry = true → (f r x).2.still.pantry = true) (hr : r.2.still.pantry = true) :
    (l.foldl f r).2.still.pantry = true := by
  induction l generalizing r with
  | nil => exact hr
  | cons x l ih => exact ih (f r x) (h r x hr)

/-- The state of a result that a match has taken apart is that of the result. -/
theorem still_of_pair {α : Type} {r : α × State} {a : α} {t : State} (h : r = (a, t)) : t.still = r.2.still := by rw [h]
theorem still_of_triple {α β : Type} {r : α × β × State} {a : α} {b : β} {t : State} (h : r = (a, b, t)) : t.still = r.2.2.still := by
  rw [h]

/-- Where a CCW begins, or has ended at its start, the state is still as given. -/
def Begun.StillIs (d : Still) : Begun → Prop
  | .no => True
  | .done t | .go _ _ t => t.still = d

@[simp] theorem Begun.stillIs_no (d : Still) : Begun.no.StillIs d := trivial
@[simp] theorem Begun.stillIs_done (d : Still) (t : State) : (Begun.done t).StillIs d ↔ t.still = d := Iff.rfl
@[simp] theorem Begun.stillIs_go (d : Still) (y : Ccw) (p : Nat) (t : State) : (Begun.go y p t).StillIs d ↔ t.still = d := Iff.rfl
@[simp] theorem Begun.stillIs_ite (d : Still) (p : Prop) [Decidable p] (x y : Begun) :
    (if p then x else y).StillIs d ↔ (p → x.StillIs d) ∧ (¬p → y.StillIs d) := by
  split <;> simp [*]

end Sys2Proof.Machine

namespace Sys2Proof.Machine

/-! ### Statistics, messages and readiness (Ops.lean) -/

@[simp] theorem State.takeFree_still (s : State) : s.takeFree.2.still = s.still := by simp [State.takeFree]

@[simp] theorem State.countWorld_still (s : State) (w : World) (i n : Nat) : (s.countWorld w i n).still = s.still :=
  (congrArg State.still (State.countWorld_frame s w i n) :)

@[simp] theorem State.countLane_still (s : State) (w : World) (lane i n : Nat) : (s.countLane w lane i n).still = s.still :=
  (congrArg State.still (State.countLane_frame s w lane i n) :)

@[simp] theorem State.countPort_still (s : State) (port i n : Nat) : (s.countPort port i n).still = s.still :=
  (congrArg State.still (State.countPort_frame s port i n) :)

@[simp] theorem State.countBoth_still (s : State) (w : World) (lane iw il : Nat) : (s.countBoth w lane iw il).still = s.still :=
  (congrArg State.still (State.countBoth_frame s w lane iw il) :)

@[simp] theorem State.msix_still (s : State) (w : World) (vec : Nat) : (s.msix w vec).still = s.still := by
  unfold State.msix
  split <;> simp

@[simp] theorem State.msixRunning_still (s : State) (w : World) (vec : Nat) : (s.msixRunning w vec).still = s.still := by simp [State.msixRunning]

@[simp] theorem State.enterFnView_still (s : State) (w : World) (m : W64) (ctx : Option Nat) (history : Bool) :
    (s.enterFnView w m ctx history).1.still = s.still := by
  unfold State.enterFnView
  split
  · dsimp only
    split <;> simp
  · rfl

@[simp] theorem State.enterViews_still (s : State) (m : W64) (ctx : Option Nat) (history : Bool) : (s.enterViews m ctx history).still = s.still := by
  simp [State.enterViews]

@[simp] theorem State.report_still (s : State) (m : W64) (ctx : Option Nat) : (s.report m ctx).still = s.still := by simp [State.report]

@[simp] theorem State.takeReport_still (s : State) : s.takeReport.still = s.still := by
  unfold State.takeReport
  split <;> simp

@[simp] theorem State.blEvent1_still (s : State) (w : World) (bit : Nat) : (s.blEvent1 w bit).still = s.still := by simp [State.blEvent1]

@[simp] theorem State.blEvent_still (s : State) (bit : Nat) : (s.blEvent bit).still = s.still := by simp [State.blEvent]

@[simp] theorem State.qmEvent_still (s : State) (w : World) (bit : Nat) : (s.qmEvent w bit).still = s.still := by simp [State.qmEvent]

@[simp] theorem State.dbError_still (s : State) (w : World) (off : Nat) : (s.dbError w off).still = s.still := by simp [State.dbError]

@[simp] theorem State.whenPowered_keepsStill {s t : State} (h : t.still = s.still) : KeepsStill s (s.whenPowered t) := by
  simp [State.whenPowered, h]

@[simp] theorem State.accessFault_still (s : State) (w : World) (off : Nat) : (s.accessFault w off).still = s.still := by simp [State.accessFault]

@[simp] theorem State.discardFault_still (s : State) (w : World) (src off : Nat) : (s.discardFault w src off).still = s.still := by
  simp [State.discardFault]

@[simp] theorem State.hostItem_still (s : State) (fn : World) (off : Nat) (item : Option World) (k : State → State)
    (h : ∀ t, (k t).still = t.still) : (s.hostItem fn off item k).still = s.still := by
  unfold State.hostItem
  split
  · split <;> simp [h]
  · rfl

@[simp] theorem State.hostItem_kept (s : State) (fn : World) (off : Nat) (item : Option World) (k : State → State)
    (h : ∀ t, (k t).still.kept = t.still.kept) : (s.hostItem fn off item k).still.kept = s.still.kept := by
  unfold State.hostItem
  split
  · split <;> simp [h]
  · rfl

@[simp] theorem State.hostItem_pantryOk (s : State) (fn : World) (off : Nat) (item : Option World) (k : State → State)
    (h : ∀ t, t.still.pantry = true → (k t).still.pantry = true) (hp : s.still.pantry = true) :
    (s.hostItem fn off item k).still.pantry = true := by
  unfold State.hostItem
  split
  · split <;> simp [h, hp]
  · exact hp

@[simp] theorem State.makeReady_still (s : State) (c : Nat) : (s.makeReady c).still = s.still := (congrArg State.still (State.makeReady_frame s c) :)

@[simp] theorem State.attEvent_still (s : State) (a bit : Nat) : (s.attEvent a bit).still = s.still :=
  (congrArg State.still (State.attEvent_frame s a bit) :)

@[simp] theorem State.driveEvent_still (s : State) (n bit : Nat) : (s.driveEvent n bit).still = s.still :=
  (congrArg State.still (State.driveEvent_frame s n bit) :)

/-! ### The Landings (Landings.lean) -/

@[simp] theorem State.landsKeep_still (s : State) : s.landsKeep.still = s.still := by simp [State.landsKeep]

@[simp] theorem State.refill_still (s : State) (k : Nat) : (s.refill k).still = s.still := by
  unfold State.refill
  dsimp only
  split
  · split <;> simp
  · simp

@[simp] theorem State.grantTo_still (s : State) (k : Nat) (q : LandReq) : (s.grantTo k q).still = s.still := by simp [State.grantTo]

@[simp] theorem State.landGrant_still (s : State) (k : Nat) : (s.landGrant k).still = s.still := by
  unfold State.landGrant
  dsimp only
  split
  · simp
  · split
    · simp
    · split <;> simp

@[simp] theorem State.landEnter_still (s : State) (k : Nat) (q : LandReq) : (s.landEnter k q).still = s.still := by simp [State.landEnter]

@[simp] theorem execLandingRequest_keepsStill (k r : Nat) (tag : World) (beats : Nat) (lowers : Bool) (ctx : Option Nat) (sup : Bool) (s : State) :
    KeepsStill s (execLandingRequest k r tag beats lowers ctx sup s) := by simp [execLandingRequest]

@[simp] theorem execGrantEnd_keepsStill (k used : Nat) (s : State) : KeepsStill s (execGrantEnd k used s) := by
  unfold execGrantEnd
  split
  · simp
  · dsimp only
    split <;> simp

@[simp] theorem State.landThaw_still (s : State) (k : Nat) : (s.landThaw k).still = s.still := by simp [State.landThaw]
@[simp] theorem State.landsFreeze_still (s : State) (d : Nat) : (s.landsFreeze d).still = s.still := by simp -implicitDefEqProofs [State.landsFreeze]
@[simp] theorem State.landsThaw_still (s : State) (d : Nat) : (s.landsThaw d).still = s.still := by simp [State.landsThaw]
@[simp] theorem State.ldCtlWrite_still (s : State) (fn : World) (k v : Nat) : (s.ldCtlWrite fn k v).still = s.still := by simp [State.ldCtlWrite]
@[simp] theorem execFreeze_keepsStill (fn : World) (k : Nat) (v : W32) (s : State) : KeepsStill s (execFreeze fn k v s) := by simp [execFreeze]
@[simp] theorem State.ldBiasSet_still (s : State) (fn : World) (r : Nat) (v : W32) : (s.ldBiasSet fn r v).still = s.still := by simp [State.ldBiasSet]

@[simp] theorem execLdBiasWrite_keepsStill (fn : World) (r : Nat) (v : W32) (s : State) : KeepsStill s (execLdBiasWrite fn r v s) := by
  simp [execLdBiasWrite]

@[simp] theorem State.landWithdraw_still (s : State) (p : LandReq → Bool) : (s.landWithdraw p).still = s.still := by simp [State.landWithdraw]
@[simp] theorem State.ldWrite_still (s : State) (fn : World) (off : Nat) (v : W32) : (s.ldWrite fn off v).still = s.still := by simp [State.ldWrite]

/-! ### Boiler's leases and waiting requests (Lease.lean) -/

@[simp] theorem State.noteRefused_still (s : State) (q : LeaveReq) : (s.noteRefused q).still = s.still := by
  unfold State.noteRefused
  split <;> split <;> simp

@[simp] theorem State.leaveArrive_still (s : State) (q : LeaveReq) : (s.leaveArrive q).2.still = s.still := by simp [State.leaveArrive]

@[simp] theorem State.countWait_still (s : State) (q : LeaveReq) : (s.countWait q).still = s.still := by
  unfold State.countWait
  split <;> simp

@[simp] theorem State.leaveWithdraw_still (s : State) (p : LeaveReq → Bool) : (s.leaveWithdraw p).still = s.still := by simp [State.leaveWithdraw]

@[simp] theorem State.leaveWithdrawOwner_still (s : State) (o : LeaveOwner) : (s.leaveWithdrawOwner o).still = s.still := by
  simp [State.leaveWithdrawOwner]

@[simp] theorem State.leaseRelease_still (s : State) (n : Nat) : (s.leaseRelease n).still = s.still := by
  unfold State.leaseRelease
  split
  · split <;> simp
  · simp

@[simp] theorem State.leaseReduce_still (s : State) (n amount : Nat) : (s.leaseReduce n amount).still = s.still := by
  unfold State.leaseReduce
  split <;> simp

@[simp] theorem State.leaseGrant_still (s : State) (q : LeaveReq) : (s.leaseGrant q).2.still = s.still := by
  unfold State.leaseGrant
  split
  · split <;> simp
  · simp

@[simp] theorem State.flverRelease_still (s : State) (c : Nat) : (s.flverRelease c).still = s.still := by
  unfold State.flverRelease
  split <;> simp

@[simp] theorem State.ctxLeasesEnd_still (s : State) (c : Nat) : (s.ctxLeasesEnd c).still = s.still := by simp [State.ctxLeasesEnd]

@[simp] theorem execLeaseOverrun_keepsStill (lease : Nat) (s : State) : KeepsStill s (execLeaseOverrun lease s) := by
  unfold execLeaseOverrun
  split <;> simp

@[simp] theorem State.blWrite_still (s : State) (fn : World) (off : Nat) (v : W32) : (s.blWrite fn off v).still = s.still := by simp [State.blWrite]

/-! ### The drive ports (Drives.lean) -/

@[simp] theorem State.driveBalls_still (s : State) (n : Nat) : (s.driveBalls n).still = s.still := by simp -implicitDefEqProofs [State.driveBalls]

@[simp] theorem State.driveAnswer_still (s : State) (n : Nat) (i : Increase) (result unit : Nat) :
    (s.driveAnswer n i result unit).still = s.still := by
  unfold State.driveAnswer
  split <;> simp

@[simp] theorem State.driveWithdraw_still (s : State) (n : Nat) (p : Increase → Bool) (result unit : Nat) :
    (s.driveWithdraw n p result unit).still = s.still := by simp [State.driveWithdraw]

@[simp] theorem State.driveTrim_still (s : State) (n : Nat) : (s.driveTrim n).still = s.still := by
  unfold State.driveTrim
  dsimp only
  split <;> simp

@[simp] theorem State.driveZero_still (s : State) (n : Nat) : (s.driveZero n).still = s.still := by simp [State.driveZero]
@[simp] theorem State.driveStop_still (s : State) (n : Nat) : (s.driveStop n).still = s.still := by simp [State.driveStop]
@[simp] theorem State.driveOff_still (s : State) (n : Nat) : (s.driveOff n).still = s.still := by simp [State.driveOff]

@[simp] theorem State.driveAsk_still (s : State) (n item value : Nat) (ctx : Option Nat) (total est lst : Nat) :
    (s.driveAsk n item value ctx total est lst).2.still = s.still := by
  unfold State.driveAsk
  dsimp only
  split
  · rfl
  · split <;> rename_i heq <;> simpa using (congrArg (·.2.still) heq).symm

@[simp] theorem State.driveFixed_still (s : State) (n : Nat) : (s.driveFixed n).still = s.still := by simp [State.driveFixed]

@[simp] theorem State.driveCauseSet_still (s : State) (n : Nat) (c : Cause) : (s.driveCauseSet n c).still = s.still := by
  unfold State.driveCauseSet
  extract_lets d entry s1 s2 cut s3
  have h3 : s3.still = s.still := by simp [s3, s2, s1]
  split
  · simp [h3]
  · simp [h3]
  · split <;> simp [h3]
  · split
    · exact h3
    · split <;> simp [h3]

@[simp] theorem State.driveCauseClear_still (s : State) (n : Nat) (c : Cause) : (s.driveCauseClear n c).still = s.still := by
  unfold State.driveCauseClear
  dsimp only
  split
  · simp
  · split
    · simp
    · split <;> simp

@[simp] theorem State.driveApply_still (s : State) (n item v inrushMs : Nat) : (s.driveApply n item v inrushMs).still = s.still := by
  simp [State.driveApply]

@[simp] theorem State.driveRaise_still (s : State) (n item v : Nat) (ctx : Option Nat) (lst : Nat) :
    (s.driveRaise n item v ctx lst).2.still = s.still := by
  unfold State.driveRaise
  grind [State.driveWithdraw_still, State.driveAsk_still, State.driveApply_still]

@[simp] theorem State.driveFaultClear_still (s : State) (n : Nat) : (s.driveFaultClear n).2.still = s.still := by simp [State.driveFaultClear]
@[simp] theorem State.encMatch_still (s : State) (n : Nat) (before : Bool) : (s.encMatch n before).still = s.still := by simp [State.encMatch]
@[simp] theorem State.ilimCut_still (s : State) (n : Nat) : (s.ilimCut n).still = s.still := by simp [State.ilimCut]

@[simp] theorem State.driveWrite_still (s : State) (n item : Nat) (v : Int) (ctx : Option Nat) (lst : Nat) :
    (s.driveWrite n item v ctx lst).2.still = s.still := by
  unfold State.driveWrite
  split
  · simp
  · split <;> simp

@[simp] theorem State.driveGranted_still (s : State) (n lease order : Nat) : (s.driveGranted n lease order).still = s.still := by
  unfold State.driveGranted
  split <;> simp

@[simp] theorem State.driveRefused_still (s : State) (n order : Nat) : (s.driveRefused n order).still = s.still := by
  unfold State.driveRefused
  split <;> simp

@[simp] theorem execDriveFault_keepsStill (n : Nat) (low : Bool) (s : State) : KeepsStill s (execDriveFault n low s) := by simp [execDriveFault]

@[simp] theorem execEncoderEdge_keepsStill (n : Nat) (levels : BitVec 3) (s : State) : KeepsStill s (execEncoderEdge n levels s) := by
  simp [execEncoderEdge]

@[simp] theorem execEncTimeout_keepsStill (n : Nat) (s : State) : KeepsStill s (execEncTimeout n s) := by simp [execEncTimeout]
@[simp] theorem execAdcSample_keepsStill (n ch : Nat) (v : BitVec 12) (s : State) : KeepsStill s (execAdcSample n ch v s) := by simp [execAdcSample]

@[simp] theorem execPwmPeriodEnd_keepsStill (n : Nat) (s : State) : KeepsStill s (execPwmPeriodEnd n s) := by
  unfold execPwmPeriodEnd
  split
  · simp
  · dsimp only
    split <;> simp -implicitDefEqProofs

@[simp] theorem execRampTick_keepsStill (n : Nat) (s : State) : KeepsStill s (execRampTick n s) := by
  unfold execRampTick
  split
  · simp
  · dsimp only
    split <;> simp

@[simp] theorem execInrushEnd_keepsStill (n : Nat) (s : State) : KeepsStill s (execInrushEnd n s) := by
  unfold execInrushEnd
  split <;> simp

@[simp] theorem State.zcLost_still (s : State) (n : Nat) : (s.zcLost n).still = s.still := by simp [State.zcLost]

@[simp] theorem execZcEdge_keepsStill (n : Nat) (s : State) : KeepsStill s (execZcEdge n s) := by
  unfold execZcEdge
  split
  · simp
  · dsimp only
    split <;> simp

@[simp] theorem execZcTimeout_keepsStill (n : Nat) (s : State) : KeepsStill s (execZcTimeout n s) := by simp [execZcTimeout]

@[simp] theorem State.stopLink_still (s : State) (port pin : Nat) (level : Bool) : (s.stopLink port pin level).still = s.still := by
  refine foldl_still _ _ _ fun t n => ?_
  dsimp only
  split_ifs
  · split <;> simp
  · simp
  · rfl

@[simp] theorem State.driveMemberSafe_still (s : State) (n : Nat) : (s.driveMemberSafe n).still = s.still := by simp [State.driveMemberSafe]
@[simp] theorem State.driveMemberRelease_still (s : State) (n : Nat) : (s.driveMemberRelease n).still = s.still := by simp [State.driveMemberRelease]
@[simp] theorem State.pdWrite_still (s : State) (fn : World) (off : Nat) (v : W32) : (s.pdWrite fn off v).still = s.still := by simp [State.pdWrite]

/-! ### The port FIFOs (Fifo.lean) -/

@[simp] theorem State.txSpaceLatch_still (s : State) (a : Nat) : (s.txSpaceLatch a).still = s.still := by simp [State.txSpaceLatch]
@[simp] theorem State.txSpaceLatches_still (s : State) (a : Nat) : (s.txSpaceLatches a).still = s.still := by simp [State.txSpaceLatches]
@[simp] theorem State.rtsFlow_still (s : State) (n : Nat) : (s.rtsFlow n).still = s.still := by simp [State.rtsFlow]
@[simp] theorem State.txChange_still (s : State) (a : Nat) (f : TxChan → TxChan) : (s.txChange a f).still = s.still := by simp [State.txChange]
@[simp] theorem State.countLost_still (s : State) (n k : Nat) : (s.countLost n k).still = s.still := by simp [State.countLost]

@[simp] theorem State.rxGapTry_still (s : State) (a : Nat) : (s.rxGapTry a).still = s.still := by
  unfold State.rxGapTry
  dsimp only
  split
  · simp
  · split <;> simp

@[simp] theorem State.rxLose_still (s : State) (a k : Nat) : (s.rxLose a k).still = s.still := by simp [State.rxLose]
@[simp] theorem State.rxBoundary_still (s : State) (a : Nat) : (s.rxBoundary a).still = s.still := by simp [State.rxBoundary]

@[simp] theorem State.rxClose_still (s : State) (a flags : Nat) : (s.rxClose a flags).still = s.still := by
  unfold State.rxClose
  dsimp only
  split <;> simp

theorem State.still_of_rxOpen {s t : State} {a : Nat} (h : s.rxOpen a = some t) : t.still = s.still := by
  unfold State.rxOpen at h
  split_ifs at h <;> cases h <;> rfl

@[simp] theorem State.rxWord_still (s : State) (a : Nat) (w : W32) (err : Bool) : (s.rxWord a w err).2.still = s.still := by
  unfold State.rxWord
  dsimp only
  split
  · simp
  · split
    · simp
    · rename_i heq
      simpa using State.still_of_rxOpen heq

@[simp] theorem State.rxPack_still (s : State) (a : Nat) (l : List Byte) : (s.rxPack a l).still = s.still := by
  induction l generalizing s with
  | nil => rfl
  | cons b l ih => simp [State.rxPack, ih]

@[simp] theorem State.rxBytes_still (s : State) (a : Nat) (data : List Byte) : (s.rxBytes a data).2.still = s.still := by
  unfold State.rxBytes
  dsimp only
  split
  · simp
  · split
    · simp
    · rename_i heq
      simpa using State.still_of_rxOpen heq

@[simp] theorem State.rxZero_still (s : State) (a flags : Nat) : (s.rxZero a flags).still = s.still := by simp [State.rxZero]
@[simp] theorem execGapMarkerStored_keepsStill (a : Nat) (s : State) : KeepsStill s (execGapMarkerStored a s) := by simp [execGapMarkerStored]
@[simp] theorem execRxIdleClose_keepsStill (port : Nat) (s : State) : KeepsStill s (execRxIdleClose port s) := by simp [execRxIdleClose]
@[simp] theorem State.portWordBad_still (s : State) (n at_ : Nat) : (s.portWordBad n at_).still = s.still := by simp [State.portWordBad]
@[simp] theorem State.portWordSoft_still (s : State) (n : Nat) : (s.portWordSoft n).still = s.still := by simp [State.portWordSoft]

@[simp] theorem State.fifoRead_still (s : State) (a : Nat) (chk : WordCheck) : (s.fifoRead a chk).2.2.still = s.still := by
  unfold State.fifoRead
  dsimp only
  split
  · simp
  · split <;> simp

@[simp] theorem State.txOpen_still (s : State) (a c : Nat) : (s.txOpen a c).still = s.still := by simp [State.txOpen]
@[simp] theorem State.txPut_still (s : State) (a : Nat) (w : W32) : (s.txPut a w).still = s.still := by simp [State.txPut]
@[simp] theorem State.txClose_still (s : State) (a len : Nat) : (s.txClose a len).still = s.still := by simp [State.txClose]
@[simp] theorem State.txTake_still (s : State) (a n : Nat) : (s.txTake a n).2.still = s.still := by simp [State.txTake]

@[simp] theorem State.txWordBad_still (s : State) (a : Nat) : (s.txWordBad a).still = s.still := by
  unfold State.txWordBad
  dsimp only
  split <;> simp

@[simp] theorem State.txRewind_still (s : State) (a : Nat) : (s.txRewind a).still = s.still := by simp [State.txRewind]
@[simp] theorem State.txCancelOpen_still (s : State) (a : Nat) : (s.txCancelOpen a).still = s.still := by simp [State.txCancelOpen]
@[simp] theorem State.txMark_still (s : State) (a : Nat) : (s.txMark a).still = s.still := by simp [State.txMark]
@[simp] theorem State.txUnmark_still (s : State) (a : Nat) : (s.txUnmark a).still = s.still := by simp [State.txUnmark]
@[simp] theorem State.chanClear_still (s : State) (a : Nat) : (s.chanClear a).still = s.still := by simp [State.chanClear]

/-! ### The lane ports (Ports.lean) -/

@[simp] theorem State.attChange_still (s : State) (a : Nat) (f : Att → Att) : (s.attChange a f).still = s.still := by
  simp -implicitDefEqProofs [State.attChange]

@[simp] theorem State.modPin_still (s : State) (n i : Nat) (f : Pin → Pin) : (s.modPin n i f).still = s.still := by simp [State.modPin]
@[simp] theorem State.attError_still (s : State) (a e : Nat) : (s.attError a e).still = s.still := by simp [State.attError]
@[simp] theorem State.attFail_still (s : State) (a e : Nat) : (s.attFail a e).still = s.still := by simp [State.attFail]
@[simp] theorem State.pulseCut_still (s : State) (n i : Nat) : (s.pulseCut n i).still = s.still := by simp [State.pulseCut]
@[simp] theorem State.pinsSafe_still (s : State) (n : Nat) : (s.pinsSafe n).still = s.still := by simp [State.pinsSafe]
@[simp] theorem State.cmdAdd_still (s : State) (a : Nat) (x : PortCmd) : (s.cmdAdd a x).still = s.still := by simp [State.cmdAdd]
@[simp] theorem State.usbClose_still (s : State) (a ep flags : Nat) : (s.usbClose a ep flags).still = s.still := by simp [State.usbClose]
@[simp] theorem State.cmdNow_still (s : State) (a : Nat) : (s.cmdNow a).still = s.still := by simp [State.cmdNow]
@[simp] theorem State.cmdAbort_still (s : State) (a ep : Nat) : (s.cmdAbort a ep).still = s.still := by simp [State.cmdAbort]

@[simp] theorem State.cmdStart_still (s0 : State) (a c word : Nat) : (s0.cmdStart a c word).still = s0.still := by
  unfold State.cmdStart
  dsimp only
  split <;> simp

@[simp] theorem State.portCommand_still (s : State) (a c word : Nat) : (s.portCommand a c word).2.still = s.still := by simp [State.portCommand]
@[simp] theorem State.lineErrs_still (s : State) (n k : Nat) : (s.lineErrs n k).still = s.still := by simp [State.lineErrs]

@[simp] theorem State.cmdEnd_still (s : State) (a : Nat) (x : PortCmd) (err : Nat) : (s.cmdEnd a x err).still = s.still := by
  unfold State.cmdEnd
  extract_lets n s1 s2 s3 mps s4
  have h3 : s3.still = s.still := by simp [s3, s2, s1]
  have h4 : s4.still = s.still := by
    dsimp only [s4]
    split <;> simp [h3]
  simp [h4]

@[simp] theorem execCmdDone_keepsStill (a ep err : Nat) (s : State) : KeepsStill s (execCmdDone a ep err s) := by
  unfold execCmdDone
  split <;> simp

@[simp] theorem execStretchTimeout_keepsStill (a : Nat) (s : State) : KeepsStill s (execStretchTimeout a s) := by
  unfold execStretchTimeout
  split <;> simp

@[simp] theorem execIntPollInterval_keepsStill (a ep : Nat) (s : State) : KeepsStill s (execIntPollInterval a ep s) := by simp [execIntPollInterval]

@[simp] theorem execPulseEnd_keepsStill (port pin : Nat) (s : State) : KeepsStill s (execPulseEnd port pin s) := by
  unfold execPulseEnd
  split <;> simp

@[simp] theorem execBlinkToggle_keepsStill (port pin : Nat) (s : State) : KeepsStill s (execBlinkToggle port pin s) := by simp [execBlinkToggle]
@[simp] theorem execCtsChange_keepsStill (port : Nat) (high : Bool) (s : State) : KeepsStill s (execCtsChange port high s) := by simp [execCtsChange]
@[simp] theorem State.driverRaise_still (s : State) (n : Nat) : (s.driverRaise n).still = s.still := by simp [State.driverRaise]
@[simp] theorem State.uartSends_still (s : State) (n k : Nat) : (s.uartSends n k).still = s.still := by simp [State.uartSends]

@[simp] theorem State.uartChar_still (s : State) (n : Nat) (v : Byte) (framing parity brk : Bool) :
    (s.uartChar n v framing parity brk).still = s.still := by simp [State.uartChar]

@[simp] theorem State.serialByte_still (s : State) (a : Nat) (v : Byte) (last : Bool) : (s.serialByte a v last).still = s.still := by
  unfold State.serialByte
  split <;> simp

@[simp] theorem execRxItemArrival_keepsStill (a : Nat) (x : RxItem) (s : State) : KeepsStill s (execRxItemArrival a x s) := by
  unfold execRxItemArrival
  split
  · simp
  · split <;> simp

@[simp] theorem State.gpioEvent_still (s : State) (a levels changed since : Nat) : (s.gpioEvent a levels changed since).still = s.still := by
  simp [State.gpioEvent]

@[simp] theorem execInputChange_keepsStill (port : Nat) (levels : BitVec 4) (since : Nat) (s : State) :
    KeepsStill s (execInputChange port levels since s) := by simp [execInputChange]

@[simp] theorem State.ctxHandoff_still (s : State) (a c k : Nat) : (s.ctxHandoff a c k).still = s.still := by
  unfold State.ctxHandoff
  split <;> simp

@[simp] theorem State.usbServed_still (s : State) (a ep : Nat) : (s.usbServed a ep).still = s.still := by simp [State.usbServed]

@[simp] theorem State.handed_still (s : State) (a : Nat) (x : Option PortCmd) (h : Handed) : (s.handed a x h).still = s.still := by
  unfold State.handed
  split <;> simp

@[simp] theorem execTxHandoff_keepsStill (a n : Nat) (s0 : State) (chk : WordCheck) (retried : Nat) :
    KeepsStill s0 (execTxHandoff a n s0 chk retried) := by
  unfold execTxHandoff
  extract_lets s k x
  have hs : s.still = s0.still := by simp [s]
  split
  · simp [hs]
  split
  · dsimp only [x]
    split <;> simp [hs]
  · simp +zetaDelta [hs]

@[simp] theorem execUsbInPacket_keepsStill (a ep : Nat) (data : List Byte) (s0 : State) (retried : Nat) :
    KeepsStill s0 (execUsbInPacket a ep data s0 retried) := by
  unfold execUsbInPacket
  dsimp only
  split <;> simp

@[simp] theorem State.portPower_still (s : State) (n : Nat) : (s.portPower n).still = s.still := by simp [State.portPower]
@[simp] theorem State.portSafeOn_still (s : State) (n : Nat) : (s.portSafeOn n).still = s.still := by simp [State.portSafeOn]
@[simp] theorem State.portSafeOff_still (s : State) (n : Nat) : (s.portSafeOff n).still = s.still := by simp [State.portSafeOff]
@[simp] theorem State.poWrite_still (s : State) (fn : World) (off : Nat) (v : W32) : (s.poWrite fn off v).still = s.still := by simp [State.poWrite]


end Sys2Proof.Machine

namespace Sys2Proof.Machine

/-! ### The device buffer space (Access.lean) -/

@[simp] theorem State.pnUncorrectable_still (s : State) (burst : Nat) : (s.pnUncorrectable burst).still = s.still := by simp [State.pnUncorrectable]

@[simp] theorem State.pnCorrected_still (s : State) (burst : Nat) : (s.pnCorrected burst).still = s.still := by simp [State.pnCorrected]

@[simp] theorem State.pnCheck_still (s : State) (a n : Nat) : (s.pnCheck a n).2.still = s.still := by
  refine foldl_snd_still _ _ _ fun r b => ?_
  split <;> simp

@[simp] theorem State.pnWrite_kept (s : State) (a : Nat) (data : List Byte) : (s.pnWrite a data).still.kept = s.still.kept := rfl

@[simp] theorem State.pnWrite_pantryOk (s : State) (a : Nat) (data : List Byte) (hp : s.still.pantry = true) :
    (s.pnWrite a data).still.pantry = true := Memory.wf_write 0 s.pantry.mem a data hp

@[simp] theorem State.readBlock_still (s : State) (w : World) (a n : Nat) : (s.readBlock w a n).2.still = s.still := by
  unfold State.readBlock
  split
  · simp
  · split <;> simp

@[simp] theorem State.writeBlock_kept (s : State) (w : World) (a : Nat) (data : List Byte) :
    (s.writeBlock w a data).still.kept = s.still.kept := by
  unfold State.writeBlock
  split <;> simp

@[simp] theorem State.writeBlock_pantryOk (s : State) (w : World) (a : Nat) (data : List Byte) (hp : s.still.pantry = true) :
    (s.writeBlock w a data).still.pantry = true := by
  unfold State.writeBlock
  split <;> simp [hp]

@[simp] theorem State.xlatNote_still (s : State) (a : Nat) : (s.xlatNote a).still = s.still := by simp [State.xlatNote]

/-- A state that is as after the mark is set, with the mark as it was. -/
theorem State.kept_unmarked {s t : State} (h : t.still.kept = ({ s with linkBad := true } : State).still.kept) :
    ({ t with linkBad := s.linkBad } : State).still.kept = s.still.kept :=
  (congrArg (fun k : Still.Kept => { k with stores := { k.stores with linkBad := s.linkBad } }) h :)

theorem State.still_unmarked {s t : State} (h : t.still = ({ s with linkBad := true } : State).still) :
    ({ t with linkBad := s.linkBad } : State).still = s.still :=
  (congrArg (fun k : Still => { k with kept := { k.kept with stores := { k.kept.stores with linkBad := s.linkBad } } }) h :)

theorem State.stores_unmarked {s t : State} (h : t.still.kept.stores = ({ s with linkBad := true } : State).still.kept.stores) :
    ({ t with linkBad := s.linkBad } : State).still.kept.stores = s.still.kept.stores :=
  (congrArg (fun k : Still.Stores => { k with linkBad := s.linkBad }) h :)

@[simp] theorem State.onLink_keepsKept (s : State) (r : LinkResult) (k : State → Result) (h : ∀ t, KeepsKept t (k t)) :
    KeepsKept s (s.onLink r k) := by
  unfold State.onLink
  split
  · exact h s
  · have hk := h { s with linkBad := true }
    split
    · next t heq => exact keepsKept_next.2 (State.kept_unmarked (hk t heq))
    · next hne => exact fun t ht => absurd ht (hne t)

@[simp] theorem State.onLink_keepsStores (s : State) (r : LinkResult) (k : State → Result) (h : ∀ t, KeepsStores t (k t)) :
    KeepsStores s (s.onLink r k) := by
  unfold State.onLink
  split
  · exact h s
  · have hk := h { s with linkBad := true }
    split
    · next t heq => exact keepsStores_next.2 (State.stores_unmarked (hk t heq))
    · next hne => exact fun t ht => absurd ht (hne t)

@[simp] theorem State.onLink_formsPantry (s : State) (r : LinkResult) (k : State → Result) (hs : s.still.pantry = true)
    (h : ∀ t, t.still.pantry = true → FormsPantry (k t)) : FormsPantry (s.onLink r k) := by
  unfold State.onLink
  split
  · exact h s hs
  · have hk := h { s with linkBad := true } hs
    split
    · next t heq => exact formsPantry_next.2 (hk t heq)
    · next hne => exact fun t ht => absurd ht (hne t)

@[simp] theorem State.onLink_keepsStill (s : State) (r : LinkResult) (k : State → Result) (h : ∀ t, KeepsStill t (k t)) :
    KeepsStill s (s.onLink r k) := by
  unfold State.onLink
  split
  · exact h s
  · have hk := h { s with linkBad := true }
    split
    · next t heq =>
      have ht := hk t heq
      exact keepsStill_next.2 (State.still_unmarked ht)
    · next hne => exact fun t ht => absurd ht (hne t)

@[simp] theorem State.readSpan_still (s : State) (w : World) (super : Bool) (fuel a n : Nat) : (s.readSpan w super fuel a n).2.2.still = s.still := by
  induction fuel generalizing s a n with
  | zero => rfl
  | succ fuel ih =>
    unfold State.readSpan
    grind [State.xlatNote_still, State.readBlock_still]

@[simp] theorem State.readBytes_still (s : State) (w : World) (super : Bool) (a n : Nat) : (s.readBytes w super a n).2.2.still = s.still := by
  simp [State.readBytes]

@[simp] theorem State.writeSpan_kept (s : State) (w : World) (super : Bool) (fuel a : Nat) (data : List Byte) :
    (s.writeSpan w super fuel a data).2.2.still.kept = s.still.kept := by
  induction fuel generalizing s a data with
  | zero => rfl
  | succ fuel ih =>
    unfold State.writeSpan
    grind [State.xlatNote_still, State.writeBlock_kept]

@[simp] theorem State.writeSpan_pantryOk (s : State) (w : World) (super : Bool) (fuel a : Nat) (data : List Byte) (hp : s.still.pantry = true) :
    (s.writeSpan w super fuel a data).2.2.still.pantry = true := by
  induction fuel generalizing s a data with
  | zero => exact hp
  | succ fuel ih =>
    unfold State.writeSpan
    grind [State.xlatNote_still, State.writeBlock_pantryOk]

@[simp] theorem State.writeBytes_kept (s : State) (w : World) (super : Bool) (a : Nat) (data : List Byte) :
    (s.writeBytes w super a data).2.2.still.kept = s.still.kept := by simp [State.writeBytes]

@[simp] theorem State.writeBytes_pantryOk (s : State) (w : World) (super : Bool) (a : Nat) (data : List Byte) (hp : s.still.pantry = true) :
    (s.writeBytes w super a data).2.2.still.pantry = true := by simp [State.writeBytes, hp]

/-! ### The queue manager (Queue.lean) -/

@[simp] theorem State.cqAnnounce_still (s : State) (w : World) (n : Nat) : (s.cqAnnounce w n).still = s.still := by simp [State.cqAnnounce]

@[simp] theorem State.cqRaw_still (s : State) (w : World) (n : Nat) (e : Compl) : (s.cqRaw w n e).still = s.still := by simp [State.cqRaw]

@[simp] theorem State.eventEntry_still (s : State) (w : World) (code detail : Nat) : (s.eventEntry w code detail).still = s.still := by
  simp [State.eventEntry]

@[simp] theorem State.qmEventEntry_still (s : State) (w : World) (bit code detail : Nat) : (s.qmEventEntry w bit code detail).still = s.still := by
  simp [State.qmEventEntry]

@[simp] theorem State.cqPut_still (s : State) (w : World) (n : Nat) (e : Compl) : (s.cqPut w n e).still = s.still := by simp [State.cqPut]
@[simp] theorem State.ovfPut_still (s : State) (w : World) (n : Nat) (e : Compl) : (s.ovfPut w n e).still = s.still := by simp [State.ovfPut]
@[simp] theorem State.complete_still (s : State) (w : World) (n : Nat) (e : Compl) : (s.complete w n e).2.still = s.still := by simp [State.complete]

@[simp] theorem State.completeOld_still (s : State) (w : World) (n : Nat) (orphaned : Bool) (e : Compl) :
    (s.completeOld w n orphaned e).2.still = s.still := by simp [State.completeOld]

@[simp] theorem State.orphanPlaced_still (s : State) (w : World) (e : Compl) : (s.orphanPlaced w e).still = s.still := by simp [State.orphanPlaced]

@[simp] theorem State.ovfAdmit_still (s : State) (l : List WaitStatus) : (s.ovfAdmit l).still = s.still := by
  induction l generalizing s with
  | nil => rfl
  | cons x l ih =>
    simp [State.ovfAdmit, ih]

@[simp] theorem State.ovfDrain_still (s : State) (w : World) (n fuel : Nat) : (s.ovfDrain w n fuel).still = s.still := by
  induction fuel generalizing s with
  | zero => rfl
  | succ fuel ih =>
    unfold State.ovfDrain
    dsimp only
    split
    · split <;> simp [ih]
    · rfl

@[simp] theorem State.cqDrain_still (s : State) (w : World) (n : Nat) : (s.cqDrain w n).still = s.still := by simp [State.cqDrain]

@[simp] theorem State.adminDone_still (s : State) (w : World) (tag astatus result0 result1 : Nat) :
    (s.adminDone w tag astatus result0 result1).still = s.still := by simp [State.adminDone]

@[simp] theorem State.groupCover_still (s : State) (w : World) (q g cq : Nat) (orphaned : Bool) :
    (s.groupCover w q g cq orphaned).still = s.still := by simp [State.groupCover]

@[simp] theorem State.groupCut_still (s : State) (w : World) (q : Nat) : (s.groupCut w q).still = s.still := by simp [State.groupCut]

@[simp] theorem State.sqError_still (s : State) (w : World) (q : Nat) (first : Ptr) (reason : Nat) :
    (s.sqError w q first reason).still = s.still := by simp [State.sqError]

@[simp] theorem State.sqDoorbell_still (s : State) (fn : World) (q v : Nat) : (s.sqDoorbell fn q v).2.still = s.still := by simp [State.sqDoorbell]

@[simp] theorem State.fetchPlain_still (s : State) (w : World) (q : Nat) : (s.fetchPlain w q).still = s.still := by
  unfold State.fetchPlain
  dsimp only
  split
  · simp
  · split <;> split <;> simp

@[simp] theorem State.fetchVariable_still (s : State) (w : World) (q : Nat) : (s.fetchVariable w q).still = s.still := by
  unfold State.fetchVariable
  dsimp only
  split
  · simp
  · split
    · simp
    · split <;> simp

@[simp] theorem execSqEntryFetch_keepsStill (fn : World) (q : Nat) (r : LinkResult) (s : State) : KeepsStill s (execSqEntryFetch fn q r s) := by
  unfold execSqEntryFetch
  split
  · split <;> simp
  · simp

@[simp] theorem execNotBeforeExpiry_keepsStill (fn : World) (q : Nat) (s : State) : KeepsStill s (execNotBeforeExpiry fn q s) := by
  unfold execNotBeforeExpiry
  split <;> simp

@[simp] theorem execIntDelayExpiry_keepsStill (fn : World) (q : Nat) (s : State) : KeepsStill s (execIntDelayExpiry fn q s) := by
  simp [execIntDelayExpiry]

@[simp] theorem State.cqDoorbell_still (s : State) (fn : World) (q v : Nat) : (s.cqDoorbell fn q v).still = s.still := by simp [State.cqDoorbell]

@[simp] theorem execCqHeadDoorbell_keepsStill (fn : World) (q : Nat) (v : W32) (s : State) : KeepsStill s (execCqHeadDoorbell fn q v s) := by
  simp [execCqHeadDoorbell]

@[simp] theorem State.msixWrite_still (s : State) (fn : World) (v i : Nat) (d : W32) : (s.msixWrite fn v i d).still = s.still := by
  simp [State.msixWrite]

@[simp] theorem State.qmWrite_still (s : State) (fn : World) (off : Nat) (v : W32) : (s.qmWrite fn off v).still = s.still := by simp [State.qmWrite]

/-! ### Status blocks, locks and the end of a program (Status.lean) -/

@[simp] theorem State.lockPass_still (s : State) (num : Nat) (w : World) : (s.lockPass num w).still = s.still := by
  unfold State.lockPass
  split <;> simp

@[simp] theorem State.lockDrop_still (s : State) (c : Nat) (l : LockRef) : (s.lockDrop c l).still = s.still := by simp [State.lockDrop]
@[simp] theorem State.locksEnd_still (s : State) (c : Nat) : (s.locksEnd c).still = s.still := by simp [State.locksEnd]
@[simp] theorem State.visitLocksEnd_still (s : State) (c : Nat) : (s.visitLocksEnd c).still = s.still := by simp [State.visitLocksEnd]

@[simp] theorem State.flintClose_still (s : State) (c : Nat) : (s.flintClose c).still = s.still := by
  unfold State.flintClose
  split
  · dsimp only
    split <;> simp
  · simp

@[simp] theorem State.lateError_still (s : State) (c : Nat) (b : BufStore) (reason : Nat) : (s.lateError c b reason).still = s.still := by
  simp [State.lateError]

@[simp] theorem State.issueOne_still (s : State) (c : Nat) (b : BufStore) : (s.issueOne c b).still = s.still := by simp [State.issueOne]
@[simp] theorem State.issueStores_still (s : State) (c : Nat) : (s.issueStores c).still = s.still := by simp [State.issueStores]
@[simp] theorem State.storesLost_still (s : State) (w : World) : (s.storesLost w).still = s.still := by simp [State.storesLost]
@[simp] theorem State.postInterim_still (s : State) (c : Nat) (b : Block) : (s.postInterim c b).still = s.still := by simp [State.postInterim]

@[simp] theorem State.ctxFree_still (s : State) (c : Nat) : (s.ctxFree c).still = s.still := by
  unfold State.ctxFree
  dsimp only
  split <;> simp

@[simp] theorem State.programGone_still (s : State) (c : Nat) (posted : Bool) : (s.programGone c posted).still = s.still := by
  unfold State.programGone
  dsimp only
  split <;> simp

@[simp] theorem State.countFinal_still (s : State) (c status : Nat) : (s.countFinal c status).still = s.still := by simp [State.countFinal]
@[simp] theorem State.residentEnd_still (s : State) (c : Nat) (e : Ending) : (s.residentEnd c e).still = s.still := by simp [State.residentEnd]
@[simp] theorem State.programEnd_still (s : State) (c : Nat) (e0 : Ending) : (s.programEnd c e0).still = s.still := by simp [State.programEnd]
@[simp] theorem State.visitAbandon_still (s : State) (c : Nat) : (s.visitAbandon c).still = s.still := by simp [State.visitAbandon]
@[simp] theorem State.commitPoint_still (s : State) (c a : Nat) : (s.commitPoint c a).still = s.still := by simp [State.commitPoint]
@[simp] theorem State.actRxEnd_still (s : State) (c a : Nat) (own : Bool) : (s.actRxEnd c a own).still = s.still := by simp [State.actRxEnd]

@[simp] theorem State.actTxEnd_still (s : State) (a : Nat) (own abnormal : Bool) : (s.actTxEnd a own abnormal).still = s.still := by
  simp [State.actTxEnd]

@[simp] theorem State.openCancel_still (s : State) (c : Nat) : (s.openCancel c).still = s.still := by simp [State.openCancel]

@[simp] theorem State.requestsEnd_still (s : State) (c : Nat) : (s.requestsEnd c).still = s.still := by
  unfold State.requestsEnd
  split <;> simp -implicitDefEqProofs

@[simp] theorem State.actEnd_still (s : State) (c : Nat) (abnormal : Bool) : (s.actEnd c abnormal).still = s.still := by
  unfold State.actEnd
  split
  · split <;> simp
  · simp

/-! ### The memory accesses and the stream of a program (Stream.lean) -/

@[simp] theorem State.noteDenied_still (s : State) (c a : Nat) (x : XferStop) : (s.noteDenied c a x).still = s.still := by
  unfold State.noteDenied
  split <;> simp

@[simp] theorem State.progRead_still (s : State) (c a n : Nat) : (s.progRead c a n).2.2.still = s.still := by simp [State.progRead]

@[simp] theorem State.bufStore_still (s : State) (c : Nat) (w : World) (a : Nat) (data : List Byte) : (s.bufStore c w a data).still = s.still := by
  simp [State.bufStore]

@[simp] theorem State.placeBytes_kept (s : State) (c : Nat) (w : World) (a : Nat) (data : List Byte) :
    (s.placeBytes c w a data).still.kept = s.still.kept := by simp [State.placeBytes]

@[simp] theorem State.placeBytes_pantryOk (s : State) (c : Nat) (w : World) (a : Nat) (data : List Byte) (hp : s.still.pantry = true) :
    (s.placeBytes c w a data).still.pantry = true := by
  have h1 : (if Nat.min data.length (windowBase - a) = 0 then s
      else s.writeBlock w a (data.take (Nat.min data.length (windowBase - a)))).still.pantry = true := by
    split <;> simp [hp]
  unfold State.placeBytes
  dsimp only
  split
  · rw [State.bufStore_still]
    exact h1
  · exact h1

@[simp] theorem State.progWrite_kept (s : State) (c a : Nat) (data : List Byte) : (s.progWrite c a data).2.2.still.kept = s.still.kept := by
  unfold State.progWrite
  dsimp only
  split <;> simp

@[simp] theorem State.progWrite_pantryOk (s : State) (c a : Nat) (data : List Byte) (hp : s.still.pantry = true) :
    (s.progWrite c a data).2.2.still.pantry = true := by
  unfold State.progWrite
  dsimp only
  split <;> simp [hp]

@[simp] theorem State.ccwFetch_still (s : State) (c loc : Nat) : (s.ccwFetch c loc).2.still = s.still := by
  unfold State.ccwFetch
  grind [State.progRead_still]

@[simp] theorem State.memberFetch_still (s : State) (c : Nat) (m : Ccw) : (s.memberFetch c m).2.2.still = s.still := by
  unfold State.memberFetch
  grind [State.ccwFetch_still]

@[simp] theorem State.modStream_still (s : State) (c : Nat) (f : Stream → Stream) : (s.modStream c f).still = s.still := by simp [State.modStream]

@[simp] theorem State.memberPst_still (s : State) (c : Nat) (m : Ccw) (residual : Nat) : (s.memberPst c m residual).still = s.still := by
  simp [State.memberPst]

@[simp] theorem State.streamStep_still (s : State) (c : Nat) : (s.streamStep c).2.still = s.still := by
  unfold State.streamStep
  dsimp only
  split <;> simp

@[simp] theorem State.idalFind_still (s : State) (c base off fuel idx start : Nat) : (s.idalFind c base off fuel idx start).2.still = s.still := by
  induction fuel generalizing s idx start with
  | zero => rfl
  | succ fuel ih =>
    unfold State.idalFind
    grind [State.progRead_still]

@[simp] theorem State.pieceOf_still (s : State) (c : Nat) (m : Ccw) (off : Nat) : (s.pieceOf c m off).2.still = s.still := by
  unfold State.pieceOf
  grind [State.idalFind_still, State.modStream_still]

@[simp] theorem State.streamSpan_still (s : State) (c : Nat) : (s.streamSpan c).2.still = s.still := by
  unfold State.streamSpan
  grind [State.streamStep_still, State.pieceOf_still]

@[simp] theorem State.streamMoved_still (s : State) (c n : Nat) : (s.streamMoved c n).still = s.still := by simp [State.streamMoved]

@[simp] theorem State.streamTake_still (s : State) (c fuel n : Nat) : (s.streamTake c fuel n).2.2.still = s.still := by
  induction fuel generalizing s n with
  | zero => rfl
  | succ fuel ih =>
    unfold State.streamTake
    grind [State.streamSpan_still, State.progRead_still, State.streamMoved_still]

@[simp] theorem State.streamPut_kept (s : State) (c fuel : Nat) (data : List Byte) : (s.streamPut c fuel data).2.2.still.kept = s.still.kept := by
  induction fuel generalizing s data with
  | zero => rfl
  | succ fuel ih =>
    unfold State.streamPut
    grind [State.streamSpan_still, State.progWrite_kept, State.streamMoved_still]

@[simp] theorem State.streamPut_pantryOk (s : State) (c fuel : Nat) (data : List Byte) (hp : s.still.pantry = true) :
    (s.streamPut c fuel data).2.2.still.pantry = true := by
  induction fuel generalizing s data with
  | zero => exact hp
  | succ fuel ih =>
    unfold State.streamPut
    grind [State.streamSpan_still, State.progWrite_pantryOk, State.streamMoved_still]

@[simp] theorem State.streamGet_still (s : State) (c n : Nat) : (s.streamGet c n).2.2.still = s.still := by
  unfold State.streamGet
  dsimp only
  split <;> simp

@[simp] theorem State.streamStore_kept (s : State) (c : Nat) (data : List Byte) : (s.streamStore c data).2.2.still.kept = s.still.kept := by
  unfold State.streamStore
  dsimp only
  split <;> simp

@[simp] theorem State.streamStore_pantryOk (s : State) (c : Nat) (data : List Byte) (hp : s.still.pantry = true) :
    (s.streamStore c data).2.2.still.pantry = true := by
  unfold State.streamStore
  dsimp only
  split <;> simp [hp]

@[simp] theorem State.chainLast_still (s : State) (c fuel : Nat) (m : Ccw) : (s.chainLast c fuel m).2.still = s.still := by
  induction fuel generalizing s m with
  | zero => rfl
  | succ fuel ih =>
    unfold State.chainLast
    grind [State.memberFetch_still]

/-! ### Boiler's own requests and placement (Place.lean) -/

@[simp] theorem State.workRefused_still (s : State) (k : BoilerWork) : (s.workRefused k).still = s.still := by
  unfold State.workRefused
  split <;> simp

@[simp] theorem State.boilerAsk_still (s : State) (k : BoilerWork) (lst : Nat) : (s.boilerAsk k lst).still = s.still := by
  unfold State.boilerAsk
  grind [State.leaveArrive_still, State.workRefused_still]

@[simp] theorem execLeaveRequest_keepsStill (work : BoilerWork) (s : State) : KeepsStill s (execLeaveRequest work s) := by simp [execLeaveRequest]
@[simp] theorem State.countSpill_still (s : State) (w : World) (k h : Nat) : (s.countSpill w k h).still = s.still := by simp [State.countSpill]


end Sys2Proof.Machine

namespace Sys2Proof.Machine

/-! ### Binding, the end of a CCW and its start (Program.lean) -/

@[simp] theorem State.asyncEnd_still (s : State) (c : Nat) : (s.asyncEnd c).still = s.still := by
  unfold State.asyncEnd
  split <;> simp

@[simp] theorem State.suspendAt_still (s : State) (c cause addr resid flags : Nat) : (s.suspendAt c cause addr resid flags).still = s.still := by
  simp [State.suspendAt]

@[simp] theorem State.peekCount_still (s : State) (c loc : Nat) : (s.peekCount c loc).2.still = s.still := by
  unfold State.peekCount
  grind [State.ccwFetch_still]

@[simp] theorem State.boundary_still (s : State) (c : Nat) : (s.boundary c).still = s.still := by simp [State.boundary]
@[simp] theorem State.countMiss_still (s : State) (c : Nat) : (s.countMiss c).still = s.still := by simp [State.countMiss]

@[simp] theorem State.ccwFinish_still (s0 : State) (c : Nat) (o0 : CcwOut) : (s0.ccwFinish c o0).still = s0.still := by
  unfold State.ccwFinish
  extract_lets o s x0 y late il cur st s1 x t n flags k s2 s3
  have hs : s.still = s0.still := by simp [s]
  have h3 : s3.still = s0.still := by simp [s3, s2, s1, hs]
  split
  · simp [h3]
  split
  · simp [h3]
  split
  · simp [h3]
  split <;> simp [still_of_pair ‹_›, h3]

@[simp] theorem State.missEnd_still (s : State) (c : Nat) (port chan : Bool) : (s.missEnd c port chan).still = s.still := by simp [State.missEnd]

@[simp] theorem State.dueEnd_still (s : State) (c : Nat) : (s.dueEnd c).still = s.still := by
  unfold State.dueEnd
  dsimp only
  split <;> simp

@[simp] theorem State.ccwStop_still (s : State) (c status unit : Nat) : (s.ccwStop c status unit).still = s.still := by simp [State.ccwStop]

@[simp] theorem State.noteTargets_still (s : State) (c : Nat) (w : World) (lane n : Nat) (tgts : List Byte) :
    (s.noteTargets c w lane n tgts).still = s.still := by
  unfold State.noteTargets
  split <;> simp

@[simp] theorem State.bindFail_still (s : State) (c status unit : Nat) : (s.bindFail c status unit).still = s.still := by simp [State.bindFail]

@[simp] theorem State.bindProgram_still (s : State) (c : Nat) (rules : BindRules) : (s.bindProgram c rules).still = s.still := by
  unfold State.bindProgram
  grind [State.bindFail_still, State.progRead_still, State.modCtx_still, State.noteTargets_still, State.makeReady_still]

@[simp] theorem State.inlineCopy_kept (s : State) (c : Nat) (data : List Byte) : (s.inlineCopy c data).2.still.kept = s.still.kept := by
  unfold State.inlineCopy
  grind [State.progWrite_kept, State.issueStores_still]

@[simp] theorem State.inlineCopy_pantryOk (s : State) (c : Nat) (data : List Byte) (hp : s.still.pantry = true) :
    (s.inlineCopy c data).2.still.pantry = true := by
  unfold State.inlineCopy
  grind [State.progWrite_pantryOk, State.issueStores_still]

@[simp] theorem State.entryTaken_still (s : State) (w : World) (q : Nat) (e : Entry) : (s.entryTaken w q e).still = s.still := by
  simp [State.entryTaken]

@[simp] theorem State.groupJoin_still (s : State) (w : World) (q flags tag : Nat) : (s.groupJoin w q flags tag).2.still = s.still := by
  simp [State.groupJoin]

@[simp] theorem State.bindWait_still (s : State) (w : World) (q : Nat) : (s.bindWait w q).still = s.still := by simp [State.bindWait]

@[simp] theorem State.bindEntry_kept (s : State) (w : World) (q : Nat) (e : Entry) (c h : Nat) :
    (s.bindEntry w q e c h).still.kept = s.still.kept := by
  unfold State.bindEntry
  grind [State.entryTaken_still, State.groupJoin_still, State.modSq_still, State.setCtx_still, State.countWorld_still,
    State.inlineCopy_kept, State.bindFail_still, State.bindProgram_still]

@[simp] theorem State.bindEntry_pantryOk (s : State) (w : World) (q : Nat) (e : Entry) (c h : Nat) (hp : s.still.pantry = true) :
    (s.bindEntry w q e c h).still.pantry = true := by
  unfold State.bindEntry
  grind [State.entryTaken_still, State.groupJoin_still, State.modSq_still, State.setCtx_still, State.countWorld_still,
    State.inlineCopy_pantryOk, State.bindFail_still, State.bindProgram_still]

@[simp] theorem State.programBind_keepsKept (s : State) (fn : World) (q : Nat) : KeepsKept s (s.programBind fn q) := by
  unfold State.programBind
  split
  · simp
  · split
    · simp
    · split <;> simp

@[simp] theorem State.programBind_formsPantry (s : State) (fn : World) (q : Nat) (hp : s.still.pantry = true) :
    FormsPantry (s.programBind fn q) := by
  unfold State.programBind
  split
  · simp [hp]
  · split
    · simp [hp]
    · split <;> simp [hp]

@[simp] theorem execProgramBind_keepsKept (fn : World) (q : Nat) (s : State) (link : LinkResult) : KeepsKept s (execProgramBind fn q s link) := by
  simp [execProgramBind]

@[simp] theorem execProgramBind_formsPantry (fn : World) (q : Nat) (s : State) (link : LinkResult) (hp : s.still.pantry = true) :
    FormsPantry (execProgramBind fn q s link) :=
  State.onLink_formsPantry s link _ hp fun t ht => t.programBind_formsPantry fn q ht

@[simp] theorem State.programCheck_still (s : State) (c : Nat) (y : Ccw) (reason : Nat) : (s.programCheck c y reason).still = s.still := by
  simp [State.programCheck]

@[simp] theorem State.nextCcw_still (s : State) (c : Nat) : (s.nextCcw c).2.still = s.still := by
  unfold State.nextCcw
  split
  · dsimp only
    split
    · simp
    · split <;> simp
  · dsimp only
    split <;> simp

@[simp] theorem State.ccwBegin_stillIs (s : State) (c code : Nat) : (s.ccwBegin c code).StillIs s.still := by
  unfold State.ccwBegin
  extract_lets x cont
  split
  · trivial
  split <;> rename_i hn
  · simp [still_of_pair hn]
  split
  · trivial
  split
  · split <;> simp [still_of_pair hn]
  split
  · simp [still_of_pair hn]
  split
  · simp [still_of_pair hn]
  split
  · simp [still_of_pair hn]
  extract_lets dl passed s2
  split <;> simp [s2, still_of_pair hn]

@[simp] theorem State.withdrawn_still (s : State) (c loc resid : Nat) : (s.withdrawn c loc resid).still = s.still := by simp [State.withdrawn]

@[simp] theorem State.activate_still (s : State) (c : Nat) (y : Ccw) (param entry : Nat) (a : Option Nat) :
    (s.activate c y param entry a).still = s.still := by
  unfold State.activate
  split <;> split <;> simp

@[simp] theorem State.paramOf_still (s : State) (c : Nat) (y : Ccw) (param : Nat) : (s.paramOf c y param).2.still = s.still := by
  unfold State.paramOf
  grind [State.streamGet_still, State.modStream_still]

@[simp] theorem State.handlerStart_still (s : State) (c : Nat) (y : Ccw) (param : Nat) : (s.handlerStart c y param).still = s.still := by
  unfold State.handlerStart
  grind [State.modStream_still, State.withdrawn_still, State.ccwFinish_still, State.modCtx_still, State.paramOf_still, State.activate_still]

/-! ### The channel commands (Ccws.lean) -/

@[simp] theorem Begun.run_still (b : Begun) (s : State) (f : Ccw → Nat → State → State) (hb : b.StillIs s.still)
    (h : ∀ y p t, (f y p t).still = t.still) : (b.run s f).still = s.still := by
  rcases b with _ | t | ⟨y, p, t⟩
  · rfl
  · exact hb
  · exact (h y p t).trans hb

@[simp] theorem Begun.run_kept (b : Begun) (s : State) (f : Ccw → Nat → State → State) (hb : b.StillIs s.still)
    (h : ∀ y p t, (f y p t).still.kept = t.still.kept) : (b.run s f).still.kept = s.still.kept := by
  rcases b with _ | t | ⟨y, p, t⟩
  · rfl
  · exact congrArg Still.kept hb
  · exact (h y p t).trans (congrArg Still.kept hb)

@[simp] theorem Begun.run_pantryOk (b : Begun) (s : State) (f : Ccw → Nat → State → State) (hb : b.StillIs s.still)
    (h : ∀ y p t, t.still.pantry = true → (f y p t).still.pantry = true) (hp : s.still.pantry = true) : (b.run s f).still.pantry = true := by
  rcases b with _ | t | ⟨y, p, t⟩
  · exact hp
  · exact (congrArg Still.pantry hb).trans hp
  · exact h y p t ((congrArg Still.pantry hb).trans hp)

@[simp] theorem State.ccwPresent_still (s : State) (c : Nat) (y : Ccw) (f : State → State) (h : ∀ t, (f t).still = t.still) :
    (s.ccwPresent c y f).still = s.still := by
  unfold State.ccwPresent
  split <;> simp [h]

@[simp] theorem execWrite_keepsStill (c : Nat) (s : State) (link : LinkResult) : KeepsStill s (execWrite c s link) := by simp [execWrite]
@[simp] theorem execRead_keepsStill (c : Nat) (s : State) (link : LinkResult) : KeepsStill s (execRead c s link) := by simp [execRead]
@[simp] theorem execControl_keepsStill (c : Nat) (s : State) (link : LinkResult) : KeepsStill s (execControl c s link) := by simp [execControl]

@[simp] theorem State.driveSenseCcw_kept (s : State) (c : Nat) (y : Ccw) : (s.driveSenseCcw c y).still.kept = s.still.kept := by
  unfold State.driveSenseCcw
  grind [State.modStream_still, State.streamStore_kept, State.ccwFinish_still, State.modCtx_still]

@[simp] theorem State.driveSenseCcw_pantryOk (s : State) (c : Nat) (y : Ccw) (hp : s.still.pantry = true) :
    (s.driveSenseCcw c y).still.pantry = true := by
  unfold State.driveSenseCcw
  grind [State.modStream_still, State.streamStore_pantryOk, State.ccwFinish_still, State.modCtx_still]

@[simp] theorem execSense_keepsKept (c : Nat) (s : State) (link : LinkResult) : KeepsKept s (execSense c s link) := by simp [execSense]

@[simp] theorem execSense_formsPantry (c : Nat) (s : State) (link : LinkResult) (hp : s.still.pantry = true) : FormsPantry (execSense c s link) := by
  refine State.onLink_formsPantry s link _ hp fun u hu => ?_
  rw [formsPantry_next]
  refine Begun.run_pantryOk _ u _ (u.ccwBegin_stillIs c 4) (fun y p t ht => ?_) hu
  split <;> simp [ht]

@[simp] theorem execExec_keepsStill (c : Nat) (s : State) (link : LinkResult) : KeepsStill s (execExec c s link) := by simp [execExec]

@[simp] theorem State.ticStep_keepsStill (s : State) (c : Nat) : KeepsStill s (s.ticStep c) := by
  unfold State.ticStep
  dsimp only
  split
  · simp
  split <;> rename_i h
  · simp [still_of_pair h]
  · split
    · simp
    · split <;> simp [still_of_pair h]

@[simp] theorem execTic_keepsStill (c : Nat) (s : State) (link : LinkResult) : KeepsStill s (execTic c s link) := by simp [execTic]
@[simp] theorem execNop_keepsStill (c : Nat) (s : State) (link : LinkResult) : KeepsStill s (execNop c s link) := by simp [execNop]
@[simp] theorem execPost_keepsStill (c : Nat) (s : State) (link : LinkResult) : KeepsStill s (execPost c s link) := by simp [execPost]

@[simp] theorem State.markCcw_still (s : State) (c op : Nat) (f : Nat → State → State) (h : ∀ a t, (f a t).still = t.still) :
    (s.markCcw c op f).still = s.still := by
  have hb := s.ccwBegin_stillIs c 8
  unfold State.markCcw
  split <;> rename_i heq
  · rfl
  · rwa [heq] at hb
  · rw [heq, Begun.stillIs_go] at hb
    simp [h, hb]

@[simp] theorem State.waitRun_still (s : State) (c : Nat) (y : Ccw) (mask : Nat) : (s.waitRun c y mask).still = s.still := by simp [State.waitRun]

@[simp] theorem State.waitStep_keepsStill (s : State) (c : Nat) : KeepsStill s (s.waitStep c) := by
  unfold State.waitStep
  split <;> simp

@[simp] theorem execWait_keepsStill (c : Nat) (s : State) (link : LinkResult) : KeepsStill s (execWait c s link) := by simp [execWait]

@[simp] theorem State.plantRun_still (s : State) (c : Nat) (y : Ccw) (p : Nat) : (s.plantRun c y p).still = s.still := by
  unfold State.plantRun
  grind [State.driveWrite_still, State.modCtx_still, State.ccwFinish_still]

@[simp] theorem State.driveAnswerTake_still (s : State) (n c : Nat) : (s.driveAnswerTake n c).2.still = s.still := by simp [State.driveAnswerTake]

@[simp] theorem State.plantStep_keepsStill (s : State) (c : Nat) : KeepsStill s (s.plantStep c) := by
  unfold State.plantStep
  split
  · split <;> simp
  · simp

@[simp] theorem execPlant_keepsStill (c : Nat) (s : State) (link : LinkResult) : KeepsStill s (execPlant c s link) := by simp [execPlant]

@[simp] theorem State.leaveCcwAsk_still (s : State) (c : Nat) (q : LeaveReq) : (s.leaveCcwAsk c q).still = s.still := by
  unfold State.leaveCcwAsk
  grind [State.leaveArrive_still, State.ccwFinish_still, State.modCtx_still]

@[simp] theorem State.leaveCcwRun_still (s : State) (c : Nat) (y : Ccw) (p : Nat) : (s.leaveCcwRun c y p).still = s.still := by
  unfold State.leaveCcwRun
  dsimp only
  split
  · split <;> simp
  · simp

@[simp] theorem State.leaveCcwStep_keepsStill (s : State) (c : Nat) : KeepsStill s (s.leaveCcwStep c) := by
  unfold State.leaveCcwStep
  split
  · split <;> simp
  · simp

@[simp] theorem execLeaveCcw_keepsStill (c : Nat) (s : State) (link : LinkResult) : KeepsStill s (execLeaveCcw c s link) := by simp [execLeaveCcw]
@[simp] theorem execDeadlineMiss_keepsStill (c : Nat) (s : State) : KeepsStill s (execDeadlineMiss c s) := by simp [execDeadlineMiss]

@[simp] theorem execLateBusError_keepsStill (c reason : Nat) (s : State) : KeepsStill s (execLateBusError c reason s) := by
  unfold execLateBusError
  dsimp only
  split <;> simp

/-! ### Suspension, resumption, issue and migration (Contexts.lean) -/

@[simp] theorem State.suspendDueSet_still (s : State) (c cause : Nat) : (s.suspendDueSet c cause).still = s.still := by simp [State.suspendDueSet]

@[simp] theorem State.moveCtx_still (s : State) (c : Nat) : (s.moveCtx c).still = s.still := by
  unfold State.moveCtx
  dsimp only
  split <;> simp

@[simp] theorem State.suspendOp_still (s : State) (c : Nat) : (s.suspendOp c).still = s.still := by simp [State.suspendOp]

@[simp] theorem State.headerAgain_still (s : State) (c : Nat) : (s.headerAgain c).still = s.still := by
  unfold State.headerAgain
  grind [State.progRead_still, State.bindFail_still, State.modCtx_still]

@[simp] theorem State.progressAgain_still (s : State) (c : Nat) : (s.progressAgain c).still = s.still := by
  unfold State.progressAgain
  dsimp only
  split
  · rfl
  split <;> rename_i h1
  · simp [still_of_pair h1]
  split <;> rename_i h2
  · simp [still_of_pair h2, still_of_pair h1]
  split <;> rename_i h3 <;> simp [still_of_pair h3, still_of_pair h2, still_of_pair h1]

@[simp] theorem State.refetch_still (s : State) (c : Nat) : (s.refetch c).still = s.still := by simp [State.refetch]
@[simp] theorem State.resumeNow_still (s0 : State) (c : Nat) (pass : Bool) : (s0.resumeNow c pass).still = s0.still := by simp [State.resumeNow]

@[simp] theorem State.resumeWithdrawn_still (s : State) (c : Nat) : (s.resumeWithdrawn c).still = s.still := by
  unfold State.resumeWithdrawn
  dsimp only
  split <;> simp

@[simp] theorem State.resumeOp_still (s : State) (c : Nat) (command : Bool) : (s.resumeOp c command).still = s.still := by
  unfold State.resumeOp
  dsimp only
  split_ifs
  · rfl
  all_goals split <;> simp

@[simp] theorem State.haltOp_still (s : State) (c : Nat) : (s.haltOp c).still = s.still := by simp [State.haltOp]
@[simp] theorem State.attWithdrawn_still (s : State) (a : Nat) : (s.attWithdrawn a).still = s.still := by simp [State.attWithdrawn]
@[simp] theorem State.readyAgain_still (s : State) (c : Nat) : (s.readyAgain c).still = s.still := by simp [State.readyAgain]
@[simp] theorem State.statusPlaced_still (s : State) (c : Nat) : (s.statusPlaced c).still = s.still := by simp [State.statusPlaced]

@[simp] theorem execWaitEnd_keepsStill (c : Nat) (s : State) : KeepsStill s (execWaitEnd c s) := by
  unfold execWaitEnd
  dsimp only
  split
  · split
    · simp
    · split <;> simp
  · simp

@[simp] theorem State.recordError_still (s : State) (c word : Nat) : (s.recordError c word).still = s.still := by
  unfold State.recordError
  dsimp only
  split <;> simp

@[simp] theorem execIssueSlotFree_keepsStill (h : Nat) (s : State) : KeepsStill s (execIssueSlotFree h s) := by
  unfold execIssueSlotFree
  split
  · simp
  · split
    · split <;> simp
    · split
      · split <;> simp
      · simp

@[simp] theorem State.slotLost_still (s : State) (c : Nat) : (s.slotLost c).still = s.still := by simp [State.slotLost]

@[simp] theorem execPreemption_keepsStill (h : Nat) (s : State) : KeepsStill s (execPreemption h s) := by
  unfold execPreemption
  split <;> simp

@[simp] theorem execQuantumEnd_keepsStill (c : Nat) (s : State) : KeepsStill s (execQuantumEnd c s) := by simp [execQuantumEnd]
@[simp] theorem execLockWaitTimeout_keepsStill (c : Nat) (s : State) : KeepsStill s (execLockWaitTimeout c s) := by simp [execLockWaitTimeout]
@[simp] theorem State.migrateCtx_still (s : State) (c : Nat) : (s.migrateCtx c).still = s.still := by simp [State.migrateCtx]
@[simp] theorem execCheckerMismatch_keepsStill (h : Nat) (s : State) : KeepsStill s (execCheckerMismatch h s) := by simp [execCheckerMismatch]

@[simp] theorem State.actMigrate_still (s : State) (c : Nat) : (s.actMigrate c).still = s.still := by
  unfold State.actMigrate
  split
  · split <;> simp
  · simp

@[simp] theorem execMigratingPlaced_keepsStill (c : Nat) (s : State) : KeepsStill s (execMigratingPlaced c s) := by simp [execMigratingPlaced]

@[simp] theorem State.residentPlace_kept (s : State) (w : World) (e : ResidentEntry) (lst : Nat) (again : Bool)
    (f : State → Nat → Nat → State) (h : ∀ t k i, (f t k i).still = t.still) :
    (s.residentPlace w e lst again f).still.kept = s.still.kept := by
  have hr : (if again then (s.modCtx e.ctx (fun x => { x with restarts := satAt 255 (x.restarts + 1) })).modHt w
      (fun h => { h with restart := satInc32 h.restart }) else s).still.kept = s.still.kept := by
    split <;> rfl
  unfold State.residentPlace
  dsimp only
  split
  · simp
  · simp
  · rw [State.countSpill_still, h, State.countWorld_still]
    exact hr

@[simp] theorem State.residentPlace_pantryOk (s : State) (w : World) (e : ResidentEntry) (lst : Nat) (again : Bool)
    (f : State → Nat → Nat → State) (h : ∀ t k i, (f t k i).still = t.still) (hp : s.still.pantry = true) :
    (s.residentPlace w e lst again f).still.pantry = true := by
  have hr : (if again then (s.modCtx e.ctx (fun x => { x with restarts := satAt 255 (x.restarts + 1) })).modHt w
      (fun h => { h with restart := satInc32 h.restart }) else s).still.pantry = s.still.pantry := by
    split <;> rfl
  unfold State.residentPlace
  dsimp only
  split
  · simp [hp]
  · simp [hp]
  · rw [State.countSpill_still, h, State.countWorld_still, hr]
    exact hp

/-- A binding that is not again counts no restart. -/
@[simp] theorem State.residentPlace_still (s : State) (w : World) (e : ResidentEntry) (lst : Nat)
    (f : State → Nat → Nat → State) (h : ∀ t k i, (f t k i).still = t.still) : (s.residentPlace w e lst false f).still = s.still := by
  unfold State.residentPlace
  dsimp only
  split <;> simp [h]

/-- What binds a resident program on its Hearth. -/
theorem State.residentBound_still (s t : State) (e : ResidentEntry) (h : Nat) :
    (let s1 := (t.modCtx e.ctx (e.record s.now h)).bindProgram e.ctx
        { level := 3, lanes := if e.lane < 128 then 2 ^ e.lane else 0, backOffice := e.lane = 0xFF }
      if (s1.ctx e.ctx).state = .ready then (s1.ctx e.ctx).driveTargets.foldl (fun t n => t.driveCauseClear n .program) s1
      else s1).still = t.still := by
  simp

@[simp] theorem State.bindResident_kept (s : State) (w : World) (e : ResidentEntry) (again : Bool) :
    (s.bindResident w e again).still.kept = s.still.kept :=
  s.residentPlace_kept w e _ again _ fun t _ h => s.residentBound_still t e h

@[simp] theorem State.bindResident_pantryOk (s : State) (w : World) (e : ResidentEntry) (again : Bool) (hp : s.still.pantry = true) :
    (s.bindResident w e again).still.pantry = true :=
  s.residentPlace_pantryOk w e _ again _ (fun t _ h => s.residentBound_still t e h) hp

@[simp] theorem State.bindResident_still (s : State) (w : World) (e : ResidentEntry) : (s.bindResident w e false).still = s.still :=
  s.residentPlace_still w e _ _ fun t _ h => s.residentBound_still t e h

/-! ### The mailboxes (Mailbox.lean) -/

@[simp] theorem State.mbHost_still (s : State) (fn : World) (m off : Nat) (k : State → State) (h : ∀ t, (k t).still = t.still) :
    (s.mbHost fn m off k).still = s.still := by
  simp [State.mbHost, h]

@[simp] theorem State.mbDbWrite_still (s : State) (fn : World) (m v : Nat) : (s.mbDbWrite fn m v).still = s.still := by
  simp -implicitDefEqProofs [State.mbDbWrite]

@[simp] theorem execMbRequest_keepsStill (fn : World) (m : Nat) (v : W32) (s : State) : KeepsStill s (execMbRequest fn m v s) := by
  simp [execMbRequest]

@[simp] theorem State.mbDeliver_still (s : State) (m code b : Nat) (reply : List (Nat × W64)) : (s.mbDeliver m code b reply).still = s.still := by
  unfold State.mbDeliver
  dsimp only
  split <;> simp

@[simp] theorem State.mbAck_still (s : State) (m code b : Nat) (reply : List (Nat × W64)) : (s.mbAck m code b reply).still = s.still := by
  simp [State.mbAck]

@[simp] theorem execMbAcknowledge_keepsStill (m : Nat) (code : BitVec 16) (bit : Nat) (reply : List (Nat × W64)) (s : State) :
    KeepsStill s (execMbAcknowledge m code bit reply s) := by simp [execMbAcknowledge]

@[simp] theorem State.mbAckWrite_still (s : State) (fn : World) (m v : Nat) : (s.mbAckWrite fn m v).still = s.still := by
  refine State.mbHost_still _ _ _ _ _ fun t => ?_
  split
  · split <;> simp
  · rfl

@[simp] theorem execMbAckClear_keepsStill (fn : World) (m : Nat) (v : W32) (s : State) : KeepsStill s (execMbAckClear fn m v s) := by
  simp [execMbAckClear]

@[simp] theorem State.mbNoteSet_still (s : State) (m v : Nat) : (s.mbNoteSet m v).still = s.still := by
  unfold State.mbNoteSet
  split <;> simp

@[simp] theorem execMbNote_keepsStill (m : Nat) (bits : BitVec 16) (s : State) : KeepsStill s (execMbNote m bits s) := by simp [execMbNote]

@[simp] theorem State.mbMsgSet_still (s : State) (fn : World) (m i : Nat) (v : W64) : (s.mbMsgSet fn m i v).still = s.still := by
  simp -implicitDefEqProofs [State.mbMsgSet]

@[simp] theorem execMbMsgWrite_keepsStill (fn : World) (m i : Nat) (v : W64) (s : State) : KeepsStill s (execMbMsgWrite fn m i v s) := by
  simp [execMbMsgWrite]

@[simp] theorem State.mbWrite_still (s : State) (fn : World) (off : Nat) (v : W32) : (s.mbWrite fn off v).still = s.still := by
  unfold State.mbWrite
  split <;> simp -implicitDefEqProofs

@[simp] theorem State.mbPartnerFault_still (s : State) (m off n : Nat) : (s.mbPartnerFault m off n).still = s.still := by simp [State.mbPartnerFault]

@[simp] theorem State.mbPartnerWord_still (s : State) (m off v : Nat) : (s.mbPartnerWord m off v).still = s.still := by
  unfold State.mbPartnerWord
  split <;> simp

@[simp] theorem State.mbPartnerLong_still (s : State) (m off v : Nat) : (s.mbPartnerLong m off v).still = s.still := by simp [State.mbPartnerLong]

@[simp] theorem State.mbPartnerWrite_still (s : State) (m off : Nat) (data : List Byte) : (s.mbPartnerWrite m off data).still = s.still := by
  simp [State.mbPartnerWrite]


end Sys2Proof.Machine

namespace Sys2Proof.Machine

/-! ### Exceptions, gates and the retirement of an instruction (Exceptions.lean) -/

@[simp] theorem State.vectorRead_still (s : State) (w : World) (code : Nat) : (s.vectorRead w code).2.still = s.still := by simp [State.vectorRead]

@[simp] theorem State.contextError_still (s : State) (c unit : Nat) : (s.contextError c unit).still = s.still := by
  unfold State.contextError
  split <;> simp

@[simp] theorem State.nestedFault_still (s : State) (c code : Nat) : (s.nestedFault c code).still = s.still := by simp [State.nestedFault]
@[simp] theorem State.excNote_still (s : State) (c : Nat) (e : Exc) : (s.excNote c e).still = s.still := by simp [State.excNote]

@[simp] theorem State.toVector_still (s : State) (c : Nat) (e : Exc) (super : Bool) (x : Ctx) : (s.toVector c e super x).still = s.still := by
  unfold State.toVector
  dsimp only
  split <;> simp

@[simp] theorem State.takeExc_still (s : State) (c : Nat) (e : Exc) (pc : W64) (ds : Bool) : (s.takeExc c e pc ds).still = s.still := by
  simp [State.takeExc]

@[simp] theorem State.asyncTake_still (s : State) (c : Nat) : (s.asyncTake c).still = s.still := by
  unfold State.asyncTake
  split <;> simp

@[simp] theorem execAsyncBusError_keepsStill (c : Nat) (s : State) : KeepsStill s (execAsyncBusError c s) := by simp [execAsyncBusError]

@[simp] theorem State.fetchExc_still (s : State) (c a : Nat) : (s.fetchExc c a).2.still = s.still := by
  unfold State.fetchExc
  split <;> simp

@[simp] theorem State.afterRetire_still (s : State) (c : Nat) : (s.afterRetire c).still = s.still := by simp [State.afterRetire]

@[simp] theorem State.raise_still (s : State) (c : Nat) (e : Exc) (pc : W64) (ds : Bool) : (s.raise c e pc ds).still = s.still := by
  simp [State.raise]

@[simp] theorem blockExc_still (c done : Nat) (e : Exc) (s : State) : (blockExc c done e s).state.still = s.still := by simp [blockExc]
@[simp] theorem State.enterWait_still (s : State) (c : Nat) (w : Wait) : (s.enterWait c w).still = s.still := by simp [State.enterWait]

@[simp] theorem State.instr_still (s : State) (c : Nat) (p : Place1) (f : State → Ctx → IStep) (h : ∀ t x, (f t x).state.still = t.still) :
    (s.instr c p f).still = s.still := by
  unfold State.instr
  extract_lets x a at1 ds
  split
  · rfl
  split
  · simp
  split <;> rename_i s1 hf
  · simp [still_of_pair hf]
  · split
    · simp [still_of_pair hf]
    · have hi := (h s1 x).trans (still_of_pair hf)
      split <;> rename_i hs <;> rw [hs] at hi <;> simpa using hi

@[simp] theorem State.instr_kept (s : State) (c : Nat) (p : Place1) (f : State → Ctx → IStep)
    (h : ∀ t x, (f t x).state.still.kept = t.still.kept) : (s.instr c p f).still.kept = s.still.kept := by
  unfold State.instr
  extract_lets x a at1 ds
  split
  · rfl
  split
  · simp
  split <;> rename_i s1 hf
  · simp [still_of_pair hf]
  · split
    · simp [still_of_pair hf]
    · have hi := (h s1 x).trans (congrArg Still.kept (still_of_pair hf))
      split <;> rename_i hs <;> rw [hs] at hi <;> simpa using hi

@[simp] theorem State.instr_pantryOk (s : State) (c : Nat) (p : Place1) (f : State → Ctx → IStep) (hp : s.still.pantry = true)
    (h : ∀ t x, t.still.pantry = true → (f t x).state.still.pantry = true) : (s.instr c p f).still.pantry = true := by
  unfold State.instr
  extract_lets x a at1 ds
  split
  · exact hp
  split
  · simp [hp]
  split <;> rename_i s1 hf
  · simp [still_of_pair hf, hp]
  · have h1 : s1.still.pantry = true := (congrArg Still.pantry (still_of_pair hf)).trans (by simp [hp])
    split
    · simp [h1]
    · have hi := h s1 x h1
      split <;> rename_i hs <;> rw [hs] at hi <;> simpa using hi

@[simp] theorem State.asyncAt_still (s : State) (c : Nat) : (s.asyncAt c).2.still = s.still := by
  unfold State.asyncAt
  split <;> simp

@[simp] theorem State.crossGate_kept (s : State) (c n entry : Nat) : (s.crossGate c n entry).state.still.kept = s.still.kept := by
  unfold State.crossGate
  split <;> rename_i h
  · simp [still_of_pair h]
  · dsimp only
    split <;> simp [still_of_pair h]

@[simp] theorem State.crossGate_pantryOk (s : State) (c n entry : Nat) (hp : s.still.pantry = true) :
    (s.crossGate c n entry).state.still.pantry = true := by
  unfold State.crossGate
  split <;> rename_i h
  · simp [still_of_pair h, hp]
  · dsimp only
    split <;> simp [still_of_pair h, hp]

@[simp] theorem State.trap_kept (s : State) (c n : Nat) : (s.trap c n).state.still.kept = s.still.kept := by simp [State.trap]

@[simp] theorem State.trap_pantryOk (s : State) (c n : Nat) (hp : s.still.pantry = true) : (s.trap c n).state.still.pantry = true := by
  simp [State.trap, hp]

@[simp] theorem State.visitReturn_still (s : State) (c : Nat) (v : Visit) : (s.visitReturn c v).state.still = s.still := by
  unfold State.visitReturn
  split <;> rename_i h1
  · simp [still_of_pair h1]
  split <;> simp [still_of_triple ‹_›, still_of_pair h1]

@[simp] theorem retxLoad_still (v : SaveSet) (s : State) (c : Nat) : (retxLoad v s c).state.still = s.still := by simp [retxLoad]
@[simp] theorem State.endContext_still (s : State) (c code : Nat) : (s.endContext c code).still = s.still := by simp [State.endContext]

@[simp] theorem State.retx_still (s : State) (c : Nat) : (s.retx c).state.still = s.still := by
  unfold State.retx
  dsimp only
  split
  · simp
  · split
    · simp
    · split
      · simp
      · split
        · simp
        · split <;> simp

/-! ### The operand forms of instructions (Operands.lean) -/

@[simp] theorem retireW_still (s : State) (rd : Reg) (v : W64) : (retireW s rd v).state.still = s.still := by simp [retireW]
@[simp] theorem retireD_still (s : State) (rd : Reg) (v : W64) : (retireD s rd v).state.still = s.still := by simp [retireD]

@[simp] theorem legal_kept (ok : Bool) (s : State) (k : IStep) (h : k.state.still.kept = s.still.kept) :
    (legal ok s k).state.still.kept = s.still.kept := by
  unfold legal
  split
  · exact h
  · rfl

@[simp] theorem legal_pantryOk (ok : Bool) (s : State) (k : IStep) (h : k.state.still.pantry = true) (hp : s.still.pantry = true) :
    (legal ok s k).state.still.pantry = true := by
  unfold legal
  split
  · exact h
  · exact hp

@[simp] theorem legal_still (ok : Bool) (s : State) (k : IStep) (h : k.state.still = s.still) : (legal ok s k).state.still = s.still := by
  simp [legal, h]

@[simp] theorem arithStep_still (s : State) (x : Ctx) (rd : Reg) (r : Arith) : (arithStep s x rd r).state.still = s.still := by simp [arithStep]

@[simp] theorem State.hReadPart_still (s : State) (c a n : Nat) : (s.hReadPart c a n).2.2.still = s.still := by
  unfold State.hReadPart
  split
  · dsimp only
    split <;> simp
  · dsimp only
    split <;> simp

@[simp] theorem State.hReadParts_still (c : Nat) (l : List (Nat × Nat)) (s : State) : (State.hReadParts c l s).2.2.still = s.still := by
  induction l generalizing s with
  | nil => rfl
  | cons p l ih =>
    unfold State.hReadParts
    split <;> simp [ih, still_of_triple ‹_›]

@[simp] theorem State.hRead_still (s : State) (c a n : Nat) : (s.hRead c a n).2.2.still = s.still := by simp [State.hRead]

@[simp] theorem State.hWritePart_kept (s : State) (c a : Nat) (data : List Byte) : (s.hWritePart c a data).still.kept = s.still.kept := by
  unfold State.hWritePart
  dsimp only
  split <;> simp

@[simp] theorem State.hWritePart_pantryOk (s : State) (c a : Nat) (data : List Byte) (hp : s.still.pantry = true) :
    (s.hWritePart c a data).still.pantry = true := by
  unfold State.hWritePart
  dsimp only
  split <;> simp [hp]

@[simp] theorem State.hWrite_kept (s : State) (c a : Nat) (data : List Byte) : (s.hWrite c a data).still.kept = s.still.kept := by
  unfold State.hWrite
  split <;> simp

@[simp] theorem State.hWrite_pantryOk (s : State) (c a : Nat) (data : List Byte) (hp : s.still.pantry = true) :
    (s.hWrite c a data).still.pantry = true := by
  unfold State.hWrite
  split
  · exact foldl_pantry _ _ _ (fun t p ht => t.hWritePart_pantryOk c _ _ ht) hp
  · simp [hp]

@[simp] theorem loadStep_still (f : FmtM) (c size : Nat) (sx : Bool) (s : State) (x : Ctx) : (loadStep f c size sx s x).state.still = s.still := by
  unfold loadStep
  split
  · rfl
  split
  · rfl
  split
  · simp
  · split <;> simp [still_of_triple ‹_›]

@[simp] theorem storeStep_kept (f : FmtM) (c size : Nat) (s : State) (x : Ctx) : (storeStep f c size s x).state.still.kept = s.still.kept := by
  unfold storeStep
  split
  · rfl
  split
  · rfl
  split <;> simp

@[simp] theorem storeStep_pantryOk (f : FmtM) (c size : Nat) (s : State) (x : Ctx) (hp : s.still.pantry = true) :
    (storeStep f c size s x).state.still.pantry = true := by
  unfold storeStep
  split
  · exact hp
  split
  · exact hp
  split <;> simp [hp]

@[simp] theorem withPort_still (s : State) (x : Ctx) (r : Reg) (k : Nat → Option Nat → IStep) (h : ∀ a t, (k a t).state.still = s.still) :
    (withPort s x r k).state.still = s.still := by
  unfold withPort
  split
  · rfl
  · exact h _ _

@[simp] theorem withDrive_still (s : State) (x : Ctx) (r : Reg) (k : Nat → IStep) (h : ∀ n, (k n).state.still = s.still) :
    (withDrive s x r k).state.still = s.still := by
  simp [withDrive, h]

/-! ### Loads, stores and block instructions (Mem.lean) -/

@[simp] theorem execLdb_keepsStill (c : Nat) (f : FmtM) (s : State) (link : LinkResult) : KeepsStill s (execLdb c f s link) := by simp [execLdb]
@[simp] theorem execLdh_keepsStill (c : Nat) (f : FmtM) (s : State) (link : LinkResult) : KeepsStill s (execLdh c f s link) := by simp [execLdh]
@[simp] theorem execLdw_keepsStill (c : Nat) (f : FmtM) (s : State) (link : LinkResult) : KeepsStill s (execLdw c f s link) := by simp [execLdw]
@[simp] theorem execLdd_keepsStill (c : Nat) (f : FmtM) (s : State) (link : LinkResult) : KeepsStill s (execLdd c f s link) := by simp [execLdd]
@[simp] theorem execLdbs_keepsStill (c : Nat) (f : FmtM) (s : State) (link : LinkResult) : KeepsStill s (execLdbs c f s link) := by simp [execLdbs]
@[simp] theorem execLdhs_keepsStill (c : Nat) (f : FmtM) (s : State) (link : LinkResult) : KeepsStill s (execLdhs c f s link) := by simp [execLdhs]
@[simp] theorem execLdws_keepsStill (c : Nat) (f : FmtM) (s : State) (link : LinkResult) : KeepsStill s (execLdws c f s link) := by simp [execLdws]
@[simp] theorem execStb_keepsKept (c : Nat) (f : FmtM) (s : State) : KeepsKept s (execStb c f s) := by simp [execStb]

@[simp] theorem execStb_formsPantry (c : Nat) (f : FmtM) (s : State) (hp : s.still.pantry = true) : FormsPantry (execStb c f s) :=
  formsPantry_next.2 (s.instr_pantryOk c _ _ hp fun _ _ ht => storeStep_pantryOk _ _ _ _ _ ht)

@[simp] theorem execSth_keepsKept (c : Nat) (f : FmtM) (s : State) : KeepsKept s (execSth c f s) := by simp [execSth]

@[simp] theorem execSth_formsPantry (c : Nat) (f : FmtM) (s : State) (hp : s.still.pantry = true) : FormsPantry (execSth c f s) :=
  formsPantry_next.2 (s.instr_pantryOk c _ _ hp fun _ _ ht => storeStep_pantryOk _ _ _ _ _ ht)

@[simp] theorem execStw_keepsKept (c : Nat) (f : FmtM) (s : State) : KeepsKept s (execStw c f s) := by simp [execStw]

@[simp] theorem execStw_formsPantry (c : Nat) (f : FmtM) (s : State) (hp : s.still.pantry = true) : FormsPantry (execStw c f s) :=
  formsPantry_next.2 (s.instr_pantryOk c _ _ hp fun _ _ ht => storeStep_pantryOk _ _ _ _ _ ht)

@[simp] theorem execStd_keepsKept (c : Nat) (f : FmtM) (s : State) : KeepsKept s (execStd c f s) := by simp [execStd]

@[simp] theorem execStd_formsPantry (c : Nat) (f : FmtM) (s : State) (hp : s.still.pantry = true) : FormsPantry (execStd c f s) :=
  formsPantry_next.2 (s.instr_pantryOk c _ _ hp fun _ _ ht => storeStep_pantryOk _ _ _ _ _ ht)

@[simp] theorem execLea_keepsStill (c : Nat) (f : FmtM) (s : State) : KeepsStill s (execLea c f s) := by
  refine keepsStill_next.mpr (State.instr_still _ _ _ _ fun t x => ?_)
  split
  · rfl
  · split <;> simp

@[simp] theorem execFence_keepsStill (c : Nat) (f : FmtA) (s : State) : KeepsStill s (execFence c f s) := by
  refine keepsStill_next.mpr (State.instr_still _ _ _ _ fun t x => legal_still _ _ _ ?_)
  split <;> simp [still_of_pair ‹_›]

@[simp] theorem movbRun_kept (f : FmtA) (c fuel done : Nat) (s : State) : (movbRun f c fuel done s).state.still.kept = s.still.kept := by
  induction fuel generalizing done s with
  | zero =>
    unfold movbRun
    simp
  | succ fuel ih =>
    unfold movbRun
    dsimp only
    split
    · rfl
    split
    · simp
    · simp
    · split <;> simp [ih, still_of_triple ‹_›]

@[simp] theorem movbRun_pantryOk (f : FmtA) (c fuel done : Nat) (s : State) (hp : s.still.pantry = true) :
    (movbRun f c fuel done s).state.still.pantry = true := by
  induction fuel generalizing done s with
  | zero =>
    unfold movbRun
    simp [hp]
  | succ fuel ih =>
    unfold movbRun
    dsimp only
    split
    · exact hp
    split
    · simp [hp]
    · simp [hp]
    · split
      · simp [still_of_triple ‹_›, hp]
      · next s1 h =>
        have h1 : s1.still.pantry = true := (congrArg Still.pantry (still_of_triple h)).trans (by simp [hp])
        exact ih _ _ (by simp [h1])

@[simp] theorem execMovb_keepsKept (c : Nat) (f : FmtA) (limit : Nat) (s : State) (link : LinkResult) :
    KeepsKept s (execMovb c f limit s link) := by simp [execMovb]

@[simp] theorem execMovb_formsPantry (c : Nat) (f : FmtA) (limit : Nat) (s : State) (link : LinkResult) (hp : s.still.pantry = true) :
    FormsPantry (execMovb c f limit s link) :=
  State.onLink_formsPantry s link _ hp fun u hu => formsPantry_next.2 (u.instr_pantryOk c _ _ hu fun _ _ ht => movbRun_pantryOk _ _ _ _ _ ht)

@[simp] theorem fillbRun_kept (f : FmtA) (c fuel done : Nat) (s : State) : (fillbRun f c fuel done s).state.still.kept = s.still.kept := by
  induction fuel generalizing done s with
  | zero =>
    unfold fillbRun
    simp
  | succ fuel ih =>
    unfold fillbRun
    dsimp only
    split
    · rfl
    · split <;> simp [ih]

@[simp] theorem fillbRun_pantryOk (f : FmtA) (c fuel done : Nat) (s : State) (hp : s.still.pantry = true) :
    (fillbRun f c fuel done s).state.still.pantry = true := by
  induction fuel generalizing done s with
  | zero =>
    unfold fillbRun
    simp [hp]
  | succ fuel ih =>
    unfold fillbRun
    dsimp only
    split
    · exact hp
    split
    · simp [hp]
    · exact ih _ _ (by simp [hp])

@[simp] theorem execFillb_keepsKept (c : Nat) (f : FmtA) (limit : Nat) (s : State) : KeepsKept s (execFillb c f limit s) := by simp [execFillb]

@[simp] theorem execFillb_formsPantry (c : Nat) (f : FmtA) (limit : Nat) (s : State) (hp : s.still.pantry = true) :
    FormsPantry (execFillb c f limit s) :=
  formsPantry_next.2 (s.instr_pantryOk c _ _ hp fun _ _ ht => fillbRun_pantryOk _ _ _ _ _ ht)

/-! ### Branches, loops and system instructions (Flow.lean) -/

@[simp] theorem branchTo_still (t : State) (w : List (Reg × W64)) (to1 : W64) : (branchTo t w to1).state.still = t.still := by simp [branchTo]
@[simp] theorem execBz_keepsStill (c : Nat) (ra : Reg) (disp : BitVec 21) (s : State) : KeepsStill s (execBz c ra disp s) := by simp [execBz]
@[simp] theorem execBnz_keepsStill (c : Nat) (ra : Reg) (disp : BitVec 21) (s : State) : KeepsStill s (execBnz c ra disp s) := by simp [execBnz]
@[simp] theorem execBr_keepsStill (c : Nat) (disp : BitVec 26) (s : State) : KeepsStill s (execBr c disp s) := by simp [execBr]
@[simp] theorem execCall_keepsStill (c : Nat) (disp : BitVec 26) (s : State) : KeepsStill s (execCall c disp s) := by simp [execCall]
@[simp] theorem jumpTo_still (t : State) (w : List (Reg × W64)) (a : W64) : (jumpTo t w a).state.still = t.still := by simp [jumpTo]
@[simp] theorem execJr_keepsStill (c : Nat) (f : FmtA) (s : State) : KeepsStill s (execJr c f s) := by simp [execJr]
@[simp] theorem execJalr_keepsStill (c : Nat) (f : FmtA) (s : State) : KeepsStill s (execJalr c f s) := by simp [execJalr]

@[simp] theorem loopStart_still (t : State) (c : Nat) (x : Ctx) (count len : Nat) : (loopStart t c x count len).state.still = t.still := by
  simp [loopStart]

@[simp] theorem execLoop_keepsStill (c : Nat) (rsv ra : Reg) (len : BitVec 16) (s : State) : KeepsStill s (execLoop c rsv ra len s) := by
  simp [execLoop]

@[simp] theorem execLoopi_keepsStill (c : Nat) (count : BitVec 10) (len : BitVec 16) (s : State) : KeepsStill s (execLoopi c count len s) := by
  simp [execLoopi]

@[simp] theorem execRep_keepsStill (c : Nat) (rsv : BitVec 26) (s : State) : KeepsStill s (execRep c rsv s) := by
  refine keepsStill_next.mpr (State.instr_still _ _ _ _ fun t x => legal_still _ _ _ ?_)
  split <;> simp [still_of_pair ‹_›]

@[simp] theorem execMfc_keepsStill (c : Nat) (f : FmtA) (s : State) : KeepsStill s (execMfc c f s) := by simp [execMfc]

@[simp] theorem mtcStep_still (t : State) (c : Nat) (x : Ctx) (n : Nat) (v : W64) (ra : Reg) : (mtcStep t c x n v ra).state.still = t.still := by
  unfold mtcStep
  split <;> simp

@[simp] theorem execMtc_keepsStill (c : Nat) (f : FmtA) (s : State) : KeepsStill s (execMtc c f s) := by simp [execMtc]
@[simp] theorem execRetx_keepsStill (c : Nat) (f : FmtA) (s : State) : KeepsStill s (execRetx c f s) := by simp [execRetx]
@[simp] theorem execTrap_keepsKept (c : Nat) (n : BitVec 8) (rsv : BitVec 18) (s : State) : KeepsKept s (execTrap c n rsv s) := by
  simp [execTrap]

@[simp] theorem execTrap_formsPantry (c : Nat) (n : BitVec 8) (rsv : BitVec 18) (s : State) (hp : s.still.pantry = true) :
    FormsPantry (execTrap c n rsv s) :=
  formsPantry_next.2 (s.instr_pantryOk c _ _ hp fun t _ ht => legal_pantryOk _ _ _ (t.trap_pantryOk c _ ht) ht)

@[simp] theorem execNiw_keepsStill (c : Nat) (k : BitVec 7) (rsv : BitVec 19) (s : State) : KeepsStill s (execNiw c k rsv s) := by
  simp -implicitDefEqProofs [execNiw]

@[simp] theorem execYield_keepsStill (c : Nat) (f : FmtA) (s : State) : KeepsStill s (execYield c f s) := by simp -implicitDefEqProofs [execYield]

@[simp] theorem State.lockTake_still (s : State) (c : Nat) (x : Ctx) (r : Reg) : (s.lockTake c x r).state.still = s.still := by
  unfold State.lockTake
  split <;> simp

@[simp] theorem execLock_keepsStill (c : Nat) (f : FmtA) (s : State) : KeepsStill s (execLock c f s) := by simp [execLock]

@[simp] theorem execUnlock_keepsStill (c : Nat) (f : FmtA) (s : State) : KeepsStill s (execUnlock c f s) := by
  refine keepsStill_next.mpr (State.instr_still _ _ _ _ fun t x => legal_still _ _ _ ?_)
  dsimp only
  split <;> simp

/-! ### The port instructions and marks (PortIns.lean) -/

@[simp] theorem State.rxCommitAt_still (s : State) (c a pos : Nat) : (s.rxCommitAt c a pos).still = s.still := by simp [State.rxCommitAt]

@[simp] theorem execFrd_keepsStill (c : Nat) (f : FmtA) (s : State) (chk : WordCheck) : KeepsStill s (execFrd c f s chk) := by
  refine keepsStill_next.mpr (State.instr_still _ _ _ _ fun t x => legal_still _ _ _ (withPort_still _ _ _ _ fun a _ => ?_))
  simp

@[simp] theorem execFopen_keepsStill (c : Nat) (f : FmtA) (s : State) : KeepsStill s (execFopen c f s) := by
  refine keepsStill_next.mpr (State.instr_still _ _ _ _ fun t x => legal_still _ _ _ (withPort_still _ _ _ _ fun a _ => ?_))
  simp

@[simp] theorem execFput_keepsStill (c : Nat) (f : FmtA) (s : State) : KeepsStill s (execFput c f s) := by
  refine keepsStill_next.mpr (State.instr_still _ _ _ _ fun t x => legal_still _ _ _ (withPort_still _ _ _ _ fun a _ => ?_))
  simp

@[simp] theorem execFclose_keepsStill (c : Nat) (f : FmtA) (s : State) : KeepsStill s (execFclose c f s) := by
  refine keepsStill_next.mpr (State.instr_still _ _ _ _ fun t x => legal_still _ _ _ (withPort_still _ _ _ _ fun a _ => ?_))
  simp

@[simp] theorem State.setRxMark_still (s : State) (c a : Nat) : (s.setRxMark c a).still = s.still := by simp [State.setRxMark]
@[simp] theorem State.releaseRxMark_still (s : State) (c a : Nat) : (s.releaseRxMark c a).still = s.still := by simp [State.releaseRxMark]
@[simp] theorem State.rewindRxMark_still (s : State) (c a : Nat) : (s.rewindRxMark c a).still = s.still := by simp [State.rewindRxMark]
@[simp] theorem State.setTxMark_still (s : State) (c a : Nat) : (s.setTxMark c a).still = s.still := by simp [State.setTxMark]
@[simp] theorem State.releaseTxMark_still (s : State) (c a : Nat) : (s.releaseTxMark c a).still = s.still := by simp [State.releaseTxMark]

@[simp] theorem State.fmk_still (s : State) (c op : Nat) (rd ra rb : Reg) (g : State → Nat → State) (h : ∀ t a, (g t a).still = t.still) :
    (s.fmk c op rd ra rb g).still = s.still := by
  unfold State.fmk
  dsimp only
  split
  · rfl
  · refine State.instr_still _ _ _ _ fun t x => legal_still _ _ _ ?_
    simp [h]

@[simp] theorem State.markOp_still (s : State) (c op : Nat) (via : MarkVia) (g : State → Nat → State) (h : ∀ t a, (g t a).still = t.still) :
    (s.markOp c op via g).still = s.still := by
  cases via <;> simp [State.markOp, h]

@[simp] theorem execSetRx_keepsStill (c : Nat) (via : MarkVia) (s : State) : KeepsStill s (execSetRx c via s) := by simp [execSetRx]
@[simp] theorem execSetTx_keepsStill (c : Nat) (via : MarkVia) (s : State) : KeepsStill s (execSetTx c via s) := by simp [execSetTx]
@[simp] theorem execReleaseRx_keepsStill (c : Nat) (via : MarkVia) (s : State) : KeepsStill s (execReleaseRx c via s) := by simp [execReleaseRx]
@[simp] theorem execReleaseTx_keepsStill (c : Nat) (via : MarkVia) (s : State) : KeepsStill s (execReleaseTx c via s) := by simp [execReleaseTx]
@[simp] theorem execRewindRx_keepsStill (c : Nat) (via : MarkVia) (s : State) : KeepsStill s (execRewindRx c via s) := by simp [execRewindRx]
@[simp] theorem execRewindTx_keepsStill (c : Nat) (f : FmtA) (s : State) : KeepsStill s (execRewindTx c f s) := by simp [execRewindTx]

@[simp] theorem execPstat_keepsStill (c : Nat) (f : FmtA) (s : State) : KeepsStill s (execPstat c f s) := by
  refine keepsStill_next.mpr (State.instr_still _ _ _ _ fun t x => legal_still _ _ _ (withPort_still _ _ _ _ fun a _ => ?_))
  simp

@[simp] theorem State.outputCommit_still (s : State) (c a code : Nat) : (s.outputCommit c a code).still = s.still := by simp [State.outputCommit]
@[simp] theorem State.pcmd_still (s : State) (c code : Nat) (f : FmtA) : (s.pcmd c code f).still = s.still := by simp [State.pcmd]
@[simp] theorem execUsbCtrl_keepsStill (c : Nat) (f : FmtA) (s : State) : KeepsStill s (execUsbCtrl c f s) := by simp [execUsbCtrl]
@[simp] theorem execUsbIn_keepsStill (c : Nat) (f : FmtA) (s : State) : KeepsStill s (execUsbIn c f s) := by simp [execUsbIn]
@[simp] theorem execUsbOut_keepsStill (c : Nat) (f : FmtA) (s : State) : KeepsStill s (execUsbOut c f s) := by simp [execUsbOut]
@[simp] theorem execUsbOutZlp_keepsStill (c : Nat) (f : FmtA) (s : State) : KeepsStill s (execUsbOutZlp c f s) := by simp [execUsbOutZlp]
@[simp] theorem execUsbIntPoll_keepsStill (c : Nat) (f : FmtA) (s : State) : KeepsStill s (execUsbIntPoll c f s) := by simp [execUsbIntPoll]
@[simp] theorem execUsbClearHalt_keepsStill (c : Nat) (f : FmtA) (s : State) : KeepsStill s (execUsbClearHalt c f s) := by simp [execUsbClearHalt]
@[simp] theorem execUsbAbort_keepsStill (c : Nat) (f : FmtA) (s : State) : KeepsStill s (execUsbAbort c f s) := by simp [execUsbAbort]
@[simp] theorem execUartBreak_keepsStill (c : Nat) (f : FmtA) (s : State) : KeepsStill s (execUartBreak c f s) := by simp [execUartBreak]
@[simp] theorem execUartLine_keepsStill (c : Nat) (f : FmtA) (s : State) : KeepsStill s (execUartLine c f s) := by simp [execUartLine]
@[simp] theorem execUartRts_keepsStill (c : Nat) (f : FmtA) (s : State) : KeepsStill s (execUartRts c f s) := by simp [execUartRts]
@[simp] theorem execUartClose_keepsStill (c : Nat) (f : FmtA) (s : State) : KeepsStill s (execUartClose c f s) := by simp [execUartClose]
@[simp] theorem execSpiXfer_keepsStill (c : Nat) (f : FmtA) (s : State) : KeepsStill s (execSpiXfer c f s) := by simp [execSpiXfer]
@[simp] theorem execSpiRead_keepsStill (c : Nat) (f : FmtA) (s : State) : KeepsStill s (execSpiRead c f s) := by simp [execSpiRead]
@[simp] theorem execI2cWrite_keepsStill (c : Nat) (f : FmtA) (s : State) : KeepsStill s (execI2cWrite c f s) := by simp [execI2cWrite]
@[simp] theorem execI2cRead_keepsStill (c : Nat) (f : FmtA) (s : State) : KeepsStill s (execI2cRead c f s) := by simp [execI2cRead]
@[simp] theorem execI2cWriteRead_keepsStill (c : Nat) (f : FmtA) (s : State) : KeepsStill s (execI2cWriteRead c f s) := by simp [execI2cWriteRead]
@[simp] theorem execI2cGpio_keepsStill (c : Nat) (f : FmtA) (s : State) : KeepsStill s (execI2cGpio c f s) := by simp [execI2cGpio]
@[simp] theorem execGpioSet_keepsStill (c : Nat) (f : FmtA) (s : State) : KeepsStill s (execGpioSet c f s) := by simp [execGpioSet]
@[simp] theorem execGpioPulse_keepsStill (c : Nat) (f : FmtA) (s : State) : KeepsStill s (execGpioPulse c f s) := by simp [execGpioPulse]
@[simp] theorem execGpioBlink_keepsStill (c : Nat) (f : FmtA) (s : State) : KeepsStill s (execGpioBlink c f s) := by simp [execGpioBlink]

@[simp] theorem State.latchOpen_still (s : State) (c a : Nat) : (s.latchOpen c a).still = s.still := by
  unfold State.latchOpen
  split <;> simp

@[simp] theorem execWaite_keepsStill (c : Nat) (f : FmtA) (s : State) : KeepsStill s (execWaite c f s) := by simp [execWaite]

/-! ### The stream, drive and leave instructions (StreamIns.lean) -/

@[simp] theorem State.streamDue_still (s : State) (c : Nat) (e : Nat × Nat) : (s.streamDue c e).still = s.still := by simp [State.streamDue]

@[simp] theorem execXget_keepsStill (c : Nat) (f : FmtA) (s : State) (link : LinkResult) : KeepsStill s (execXget c f s link) := by
  refine State.onLink_keepsStill _ _ _ fun u => keepsStill_next.mpr (State.instr_still _ _ _ _ fun t x => legal_still _ _ _ ?_)
  dsimp only
  split
  · rfl
  split
  · rfl
  · split <;> simp [still_of_triple ‹_›]

@[simp] theorem execXput_keepsKept (c : Nat) (f : FmtA) (s : State) (link : LinkResult) : KeepsKept s (execXput c f s link) := by
  refine State.onLink_keepsKept _ _ _ fun u => keepsKept_next.mpr (State.instr_kept _ _ _ _ fun t x => legal_kept _ _ _ ?_)
  split
  · rfl
  split
  · simp
  · split <;> simp [still_of_triple ‹_›]

@[simp] theorem execXput_formsPantry (c : Nat) (f : FmtA) (s : State) (link : LinkResult) (hp : s.still.pantry = true) :
    FormsPantry (execXput c f s link) := by
  refine State.onLink_formsPantry _ _ _ hp fun u hu =>
    formsPantry_next.mpr (State.instr_pantryOk _ _ _ _ hu fun t x ht => legal_pantryOk _ _ _ ?_ ht)
  split
  · exact ht
  split
  · simp [ht]
  · split <;> simp [still_of_triple ‹_›, ht]

@[simp] theorem execXrem_keepsStill (c : Nat) (f : FmtA) (s : State) : KeepsStill s (execXrem c f s) := by simp [execXrem]

@[simp] theorem State.chanDonePst_still (s : State) (c : Nat) (y : Activation) : (s.chanDonePst c y).still = s.still := by
  unfold State.chanDonePst
  split
  · dsimp only
    split <;> simp
  · dsimp only
    split <;> simp

@[simp] theorem State.hendDone_still (s : State) (c : Nat) (y : Activation) (flags unit : Nat) :
    (s.hendDone c y flags unit).state.still = s.still := by simp [State.hendDone]

@[simp] theorem execHend_keepsStill (c : Nat) (f : FmtA) (s : State) (link : LinkResult) : KeepsStill s (execHend c f s link) := by
  refine State.onLink_keepsStill _ _ _ fun u => keepsStill_next.mpr (State.instr_still _ _ _ _ fun t x => legal_still _ _ _ ?_)
  split
  · rfl
  · split <;> simp

@[simp] theorem execDrd_keepsStill (c : Nat) (f : FmtA) (item : BitVec 8) (s : State) : KeepsStill s (execDrd c f item s) := by
  refine keepsStill_next.mpr (State.instr_still _ _ _ _ fun t x => legal_still _ _ _ (withDrive_still _ _ _ _ fun n => ?_))
  split <;> simp

@[simp] theorem State.dwr_still (s : State) (c item : Nat) (f : FmtA) : (s.dwr c item f).still = s.still := by
  refine State.instr_still _ _ _ _ fun t x => withDrive_still _ _ _ _ fun n => ?_
  split
  · simp [still_of_pair ‹_›]
  extract_lets v
  split
  · rfl
  split
  · rfl
  split
  · rfl
  · split <;> simp [still_of_pair ‹_›]

@[simp] theorem execRun_keepsStill (c : Nat) (f : FmtA) (s : State) : KeepsStill s (execRun c f s) := by simp [execRun]
@[simp] theorem execDutyA_keepsStill (c : Nat) (f : FmtA) (s : State) : KeepsStill s (execDutyA c f s) := by simp [execDutyA]
@[simp] theorem execDutyB_keepsStill (c : Nat) (f : FmtA) (s : State) : KeepsStill s (execDutyB c f s) := by simp [execDutyB]
@[simp] theorem execBurst_keepsStill (c : Nat) (f : FmtA) (s : State) : KeepsStill s (execBurst c f s) := by simp [execBurst]
@[simp] theorem execPwmFreq_keepsStill (c : Nat) (f : FmtA) (s : State) : KeepsStill s (execPwmFreq c f s) := by simp [execPwmFreq]
@[simp] theorem execDir_keepsStill (c : Nat) (f : FmtA) (s : State) : KeepsStill s (execDir c f s) := by simp [execDir]
@[simp] theorem execIlim_keepsStill (c : Nat) (f : FmtA) (s : State) : KeepsStill s (execIlim c f s) := by simp [execIlim]
@[simp] theorem execSafeReq_keepsStill (c : Nat) (f : FmtA) (s : State) : KeepsStill s (execSafeReq c f s) := by simp [execSafeReq]
@[simp] theorem execFaultClear_keepsStill (c : Nat) (f : FmtA) (s : State) : KeepsStill s (execFaultClear c f s) := by simp [execFaultClear]
@[simp] theorem execEncCmp_keepsStill (c : Nat) (f : FmtA) (s : State) : KeepsStill s (execEncCmp c f s) := by simp [execEncCmp]
@[simp] theorem execEncZero_keepsStill (c : Nat) (f : FmtA) (s : State) : KeepsStill s (execEncZero c f s) := by simp [execEncZero]

@[simp] theorem State.leaveBlock_still (s : State) (c : Nat) (x : Ctx) (f : FmtA) (d : List Byte) :
    (s.leaveBlock c x f d).state.still = s.still := by
  unfold State.leaveBlock
  extract_lets amount plant cls n est dl bad lst ask
  have hask : ∀ q, (ask q).state.still = s.still := by
    intro q
    dsimp only [ask]
    split <;> simp [still_of_pair ‹_›]
  split
  · rfl
  split
  · exact hask _
  split
  · split_ifs
    · simp
    · simp
    · exact hask _
  · rfl

@[simp] theorem execLeaveInstr_keepsStill (c : Nat) (f : FmtA) (s : State) (link : LinkResult) : KeepsStill s (execLeaveInstr c f s link) := by
  refine State.onLink_keepsStill _ _ _ fun u => keepsStill_next.mpr (State.instr_still _ _ _ _ fun t x => legal_still _ _ _ ?_)
  dsimp only
  split
  · simp
  · simp
  split
  · rfl
  split
  · simp
  · split <;> simp [still_of_triple ‹_›]

/-! ### The coprocessors (Coproc.lean) -/

@[simp] theorem execCrc_keepsStill (c : Nat) (f : FmtA) (alg : BitVec 4) (size : BitVec 2) (rsv : BitVec 4) (s : State) :
    KeepsStill s (execCrc c f alg size rsv s) := by
  refine keepsStill_next.mpr (State.instr_still _ _ _ _ fun t x => legal_still _ _ _ ?_)
  split <;> simp

@[simp] theorem crcbRun_still (f : FmtA) (alg c fuel done : Nat) (s : State) : (crcbRun f alg c fuel done s).state.still = s.still := by
  induction fuel generalizing done s with
  | zero =>
    unfold crcbRun
    simp
  | succ fuel ih =>
    unfold crcbRun
    dsimp only
    split
    · rfl
    · split
      · simp
      · split <;> simp [ih, still_of_triple ‹_›]

@[simp] theorem execCrcb_keepsStill (c : Nat) (f : FmtA) (alg : BitVec 4) (size : BitVec 2) (rsv : BitVec 4) (limit : Nat) (s : State)
    (link : LinkResult) : KeepsStill s (execCrcb c f alg size rsv limit s link) := by
  refine State.onLink_keepsStill _ _ _ fun u => keepsStill_next.mpr (State.instr_still _ _ _ _ fun t x => legal_still _ _ _ ?_)
  simp

@[simp] theorem ctlStep_kept (f : FmtA) (c size : Nat) (refuse : Nat × Nat × (List Byte → Bool))
    (op : List Byte → Int → Int × Nat × List Byte) (t : State) (x : Ctx) :
    (ctlStep f c size refuse op t x).state.still.kept = t.still.kept := by
  unfold ctlStep
  dsimp only
  split
  · rfl
  split
  · rfl
  split
  · simp
  split
  · simp
  split <;> simp [still_of_triple ‹_›]

@[simp] theorem ctlStep_pantryOk (f : FmtA) (c size : Nat) (refuse : Nat × Nat × (List Byte → Bool))
    (op : List Byte → Int → Int × Nat × List Byte) (t : State) (x : Ctx) (hp : t.still.pantry = true) :
    (ctlStep f c size refuse op t x).state.still.pantry = true := by
  unfold ctlStep
  dsimp only
  split
  · exact hp
  split
  · exact hp
  split
  · simp [hp]
  split
  · simp [hp]
  split <;> simp [still_of_triple ‹_›, hp]

@[simp] theorem execPi_keepsKept (c : Nat) (f : FmtA) (s : State) (link : LinkResult) : KeepsKept s (execPi c f s link) := by
  simp [execPi]

@[simp] theorem execPi_formsPantry (c : Nat) (f : FmtA) (s : State) (link : LinkResult) (hp : s.still.pantry = true) :
    FormsPantry (execPi c f s link) :=
  State.onLink_formsPantry s link _ hp fun u hu => formsPantry_next.2 (u.instr_pantryOk c _ _ hu fun _ _ ht => ctlStep_pantryOk _ _ _ _ _ _ _ ht)

@[simp] theorem execRlim_keepsKept (c : Nat) (f : FmtA) (s : State) (link : LinkResult) : KeepsKept s (execRlim c f s link) := by
  simp [execRlim]

@[simp] theorem execRlim_formsPantry (c : Nat) (f : FmtA) (s : State) (link : LinkResult) (hp : s.still.pantry = true) :
    FormsPantry (execRlim c f s link) :=
  State.onLink_formsPantry s link _ hp fun u hu => formsPantry_next.2 (u.instr_pantryOk c _ _ hu fun _ _ ht => ctlStep_pantryOk _ _ _ _ _ _ _ ht)

@[simp] theorem execFom_keepsKept (c : Nat) (f : FmtA) (s : State) (link : LinkResult) : KeepsKept s (execFom c f s link) := by
  simp [execFom]

@[simp] theorem execFom_formsPantry (c : Nat) (f : FmtA) (s : State) (link : LinkResult) (hp : s.still.pantry = true) :
    FormsPantry (execFom c f s link) :=
  State.onLink_formsPantry s link _ hp fun u hu => formsPantry_next.2 (u.instr_pantryOk c _ _ hu fun _ _ ht => ctlStep_pantryOk _ _ _ _ _ _ _ ht)

@[simp] theorem execFlinit_keepsStill (c : Nat) (f : FmtA) (s : State) : KeepsStill s (execFlinit c f s) := by simp [execFlinit]

@[simp] theorem flabsRun_still (f : FmtA) (c fuel done : Nat) (s : State) : (flabsRun f c fuel done s).state.still = s.still := by
  induction fuel generalizing done s with
  | zero =>
    unfold flabsRun
    simp
  | succ fuel ih =>
    unfold flabsRun
    dsimp only
    split
    · rfl
    · split
      · simp
      · split <;> simp [ih, still_of_triple ‹_›]

@[simp] theorem execFlabs_keepsStill (c : Nat) (f : FmtA) (limit : Nat) (s : State) (link : LinkResult) :
    KeepsStill s (execFlabs c f limit s link) := by
  refine State.onLink_keepsStill _ _ _ fun u => keepsStill_next.mpr (State.instr_still _ _ _ _ fun t x => legal_still _ _ _ ?_)
  split <;> simp

@[simp] theorem execFlsqz_keepsStill (c : Nat) (f : FmtA) (s : State) : KeepsStill s (execFlsqz c f s) := by
  refine keepsStill_next.mpr (State.instr_still _ _ _ _ fun t x => legal_still _ _ _ ?_)
  split <;> simp

@[simp] theorem State.flverAsk_still (s : State) (c : Nat) : (s.flverAsk c).state.still = s.still := by simp [State.flverAsk]

@[simp] theorem flverBlock_still (t : State) (c : Nat) (x : Ctx) (f : FmtA) (d : List Byte) : (flverBlock t c x f d).state.still = t.still := by
  unfold flverBlock
  dsimp only
  split
  · simp
  split
  · simp
  split <;> rename_i h1
  · simp [still_of_triple h1]
  split <;> rename_i h2
  · simp [still_of_triple h2, still_of_triple h1]
  split <;> rename_i h3 <;> simp [still_of_triple h3, still_of_triple h2, still_of_triple h1]

@[simp] theorem execFlver_keepsStill (c : Nat) (f : FmtA) (s : State) (link : LinkResult) : KeepsStill s (execFlver c f s link) := by
  refine State.onLink_keepsStill _ _ _ fun u => keepsStill_next.mpr (State.instr_still _ _ _ _ fun t x => legal_still _ _ _ ?_)
  dsimp only
  split
  · rfl
  split
  · simp
  · split <;> simp [still_of_triple ‹_›]

@[simp] theorem execFlend_keepsStill (c : Nat) (f : FmtA) (s : State) : KeepsStill s (execFlend c f s) := by simp [execFlend]


end Sys2Proof.Machine

namespace Sys2Proof.Machine

/-! ### Safe state and the attachments of lane ports (Discovery.lean) -/

@[simp] theorem State.laneEntered_still (s : State) (w : World) (l : Option Nat) : (s.laneEntered w l).still = s.still := by
  unfold State.laneEntered
  split <;> simp

@[simp] theorem State.laneLeft_still (s : State) (w : World) (l : Option Nat) : (s.laneLeft w l).still = s.still := by
  unfold State.laneLeft
  split
  · split <;> simp
  · simp

@[simp] theorem State.portMemberSafe_still (s : State) (n : Nat) : (s.portMemberSafe n).still = s.still := by
  unfold State.portMemberSafe
  split
  · simp
  · split <;> simp

@[simp] theorem State.portMemberRelease_still (s : State) (n : Nat) : (s.portMemberRelease n).still = s.still := by
  unfold State.portMemberRelease
  split
  · simp
  · split <;> simp

@[simp] theorem State.driveSafeIn_still (s : State) (n : Nat) : (s.driveSafeIn n).still = s.still := by
  unfold State.driveSafeIn
  split <;> simp

@[simp] theorem State.driveSafeOut_still (s : State) (n : Nat) : (s.driveSafeOut n).still = s.still := by
  unfold State.driveSafeOut
  split <;> simp

@[simp] theorem State.worldSafe_still (s : State) (w : World) : (s.worldSafe w).still = s.still := by simp [State.worldSafe]

@[simp] theorem State.laneAtt_still (s : State) (a i : Nat) : (s.laneAtt a i).still = s.still := by
  unfold State.laneAtt
  split <;> simp

@[simp] theorem State.attDetach_still (s : State) (a status : Nat) : (s.attDetach a status).still = s.still := by simp [State.attDetach]

@[simp] theorem State.detachTree_still (s : State) (a status k : Nat) : (s.detachTree a status k).still = s.still := by
  induction k generalizing s a with
  | zero => rfl
  | succ k ih => simp [State.detachTree, ih]

@[simp] theorem State.detachAll_still (s : State) (n status : Nat) : (s.detachAll n status).still = s.still := by simp [State.detachAll]
@[simp] theorem State.pinsOff_still (s : State) (n : Nat) : (s.pinsOff n).still = s.still := by simp [State.pinsOff]
@[simp] theorem State.portDisable_still (s : State) (n : Nat) : (s.portDisable n).still = s.still := by simp [State.portDisable]
@[simp] theorem execPortPhyFault_keepsStill (port : Nat) (s : State) : KeepsStill s (execPortPhyFault port s) := by simp [execPortPhyFault]
@[simp] theorem execOvercurrent_keepsStill (port : Nat) (s : State) : KeepsStill s (execOvercurrent port s) := by simp [execOvercurrent]

@[simp] theorem execOcRetryExpiry_keepsStill (port : Nat) (s : State) : KeepsStill s (execOcRetryExpiry port s) := by
  unfold execOcRetryExpiry
  split <;> simp

@[simp] theorem State.blockInit_kept (s : State) (a : Nat) : (s.blockInit a).still.kept = s.still.kept := by
  unfold State.blockInit
  split <;> simp

@[simp] theorem State.blockInit_pantryOk (s : State) (a : Nat) (hp : s.still.pantry = true) : (s.blockInit a).still.pantry = true := by
  unfold State.blockInit
  split <;> simp [hp]

@[simp] theorem State.textOut_still (s : State) (a : Nat) : (s.textOut a).still = s.still := by simp [State.textOut]

@[simp] theorem State.usbConfigure_still (s : State) (a want : Nat) : (s.usbConfigure a want).still = s.still := by
  unfold State.usbConfigure
  split <;> simp

@[simp] theorem State.attAccept_kept (s0 : State) (a num ver : Nat) (entry : Option Nat) :
    (s0.attAccept a num ver entry).still.kept = s0.still.kept := by
  unfold State.attAccept
  dsimp only
  split <;> simp

@[simp] theorem State.attAccept_pantryOk (s0 : State) (a num ver : Nat) (entry : Option Nat) (hp : s0.still.pantry = true) :
    (s0.attAccept a num ver entry).still.pantry = true := by
  unfold State.attAccept
  dsimp only
  split <;> simp [hp]

@[simp] theorem State.probeBegin_still (s : State) (w : World) : (s.probeBegin w).2.still = s.still := by
  unfold State.probeBegin
  split
  · split
    · split
      · dsimp only
        split <;> simp
      · simp
    · simp
  · simp

@[simp] theorem State.probesStart_still (s : State) (w : World) (k : Nat) : (s.probesStart w k).still = s.still := by
  induction k generalizing s with
  | zero => rfl
  | succ k ih =>
    unfold State.probesStart
    grind [State.probeBegin_still]

@[simp] theorem State.probesOf_still (s : State) (a : Nat) : (s.probesOf a).still = s.still := by
  unfold State.probesOf
  split <;> simp

@[simp] theorem State.tryCand_kept (s : State) (a i : Nat) : (s.tryCand a i).still.kept = s.still.kept := by
  unfold State.tryCand
  split
  · simp
  · split <;> simp

@[simp] theorem State.tryCand_pantryOk (s : State) (a i : Nat) (hp : s.still.pantry = true) : (s.tryCand a i).still.pantry = true := by
  unfold State.tryCand
  split
  · simp [hp]
  · split <;> simp [hp]

@[simp] theorem State.enterProbing_kept (s : State) (a : Nat) : (s.enterProbing a).still.kept = s.still.kept := by simp [State.enterProbing]

@[simp] theorem State.enterProbing_pantryOk (s : State) (a : Nat) (hp : s.still.pantry = true) : (s.enterProbing a).still.pantry = true := by
  simp [State.enterProbing, hp]

@[simp] theorem execProbeEnd_keepsKept (a : Nat) (s : State) : KeepsKept s (execProbeEnd a s) := by
  unfold execProbeEnd
  dsimp only
  split
  · split
    · simp
    · split <;> simp
  · simp

@[simp] theorem execProbeEnd_formsPantry (a : Nat) (s : State) (hp : s.still.pantry = true) :
    FormsPantry (execProbeEnd a s) := by
  unfold execProbeEnd
  dsimp only
  split
  · split
    · simp [hp]
    · split <;> simp [hp]
  · simp [hp]

@[simp] theorem execProbeTimeout_keepsKept (a : Nat) (s : State) : KeepsKept s (execProbeTimeout a s) := by
  unfold execProbeTimeout
  dsimp only
  split
  · split <;> simp
  · simp

@[simp] theorem execProbeTimeout_formsPantry (a : Nat) (s : State) (hp : s.still.pantry = true) :
    FormsPantry (execProbeTimeout a s) := by
  unfold execProbeTimeout
  dsimp only
  split
  · split <;> simp [hp]
  · simp [hp]

@[simp] theorem execReprobeTimer_keepsKept (a : Nat) (s : State) : KeepsKept s (execReprobeTimer a s) := by simp [execReprobeTimer]

@[simp] theorem execReprobeTimer_formsPantry (a : Nat) (s : State) (hp : s.still.pantry = true) :
    FormsPantry (execReprobeTimer a s) := by simp [execReprobeTimer, hp]

@[simp] theorem State.attRefuse_still (s : State) (n : Nat) (place : Option (Nat × Nat)) : (s.attRefuse n place).still = s.still := by
  simp [State.attRefuse]

@[simp] theorem State.keepRefused_still (s : State) (n : Nat) (keep : Option (Nat × Nat) → Bool) : (s.keepRefused n keep).still = s.still := by
  simp [State.keepRefused]

@[simp] theorem State.groupTake_still (s : State) (n par : Nat) (slots hps : List Nat) : (s.groupTake n par slots hps).still = s.still := by
  simp [State.groupTake]

@[simp] theorem execUsbDisconnect_keepsStill (a : Nat) (s : State) (refused : Option Nat) : KeepsStill s (execUsbDisconnect a s refused) := by
  unfold execUsbDisconnect
  split <;> simp

@[simp] theorem execUsbConnect_keepsStill (port : Nat) (parent : Option (Nat × Nat)) (hub : Bool) (s : State) :
    KeepsStill s (execUsbConnect port parent hub s) := by
  unfold execUsbConnect
  split
  · simp
  · split <;> split <;> simp

@[simp] theorem State.hubReset_still (s : State) (a : Nat) : (s.hubReset a).still = s.still := by simp [State.hubReset]
@[simp] theorem execDebounceStable_keepsStill (a : Nat) (s : State) : KeepsStill s (execDebounceStable a s) := by simp [execDebounceStable]
@[simp] theorem State.hubStart_still (s : State) (a : Nat) : (s.hubStart a).still = s.still := by simp [State.hubStart]
@[simp] theorem State.enumerated_kept (s0 : State) (a : Nat) (d : Descriptors) : (s0.enumerated a d).still.kept = s0.still.kept := by
  simp [State.enumerated]

@[simp] theorem State.enumerated_pantryOk (s0 : State) (a : Nat) (d : Descriptors) (hp : s0.still.pantry = true) :
    (s0.enumerated a d).still.pantry = true := by
  simp [State.enumerated, hp]

@[simp] theorem execEnumerationDone_keepsKept (a : Nat) (d : Option Descriptors) (s : State) : KeepsKept s (execEnumerationDone a d s) := by
  unfold execEnumerationDone
  split <;> simp

@[simp] theorem execEnumerationDone_formsPantry (a : Nat) (d : Option Descriptors) (s : State) (hp : s.still.pantry = true) :
    FormsPantry (execEnumerationDone a d s) := by
  unfold execEnumerationDone
  split <;> simp [hp]

@[simp] theorem State.portEnable_kept (s : State) (n : Nat) : (s.portEnable n).still.kept = s.still.kept := by simp [State.portEnable]

@[simp] theorem State.portEnable_pantryOk (s : State) (n : Nat) (hp : s.still.pantry = true) : (s.portEnable n).still.pantry = true := by
  simp +contextual [State.portEnable, hp]

/-! ### Quartz and the statistics epochs (Quartz.lean) -/

@[simp] theorem State.dwRequestUnit_still (s : State) (u : Nat) : (s.dwRequestUnit u).still = s.still := by simp [State.dwRequestUnit]

@[simp] theorem State.cmpEvent_still (s : State) (u : Nat) (late : Bool) : (s.cmpEvent u late).still = s.still := by
  unfold State.cmpEvent
  split <;> split <;> simp

@[simp] theorem State.cmpMatch_still (s : State) (u : Nat) : (s.cmpMatch u).still = s.still := by simp [State.cmpMatch]

@[simp] theorem State.cmpApply_still (s : State) (ws : List (Nat × CmpWrite)) (u : Nat) : (s.cmpApply ws u).still = s.still := by
  simp [State.cmpApply]

@[simp] theorem State.advanceTo_still (s : State) (q : Nat) : (s.advanceTo q).still = s.still := by simp [State.advanceTo]
@[simp] theorem State.tick_still (s : State) : s.tick.still = s.still := by simp [State.tick]
@[simp] theorem State.cmpAccept_still (s : State) (u : Nat) (w : CmpWrite) : (s.cmpAccept u w).still = s.still := by simp [State.cmpAccept]

@[simp] theorem State.cmpHostWrite_still (s : State) (fn : World) (u off : Nat) (w : CmpWrite) : (s.cmpHostWrite fn u off w).still = s.still := by
  simp [State.cmpHostWrite]

@[simp] theorem State.cmpWriteTgt_still (s : State) (fn : World) (u : Nat) (v : W32) : (s.cmpWriteTgt fn u v).still = s.still := by
  simp [State.cmpWriteTgt]

@[simp] theorem State.cmpWriteInt_still (s : State) (fn : World) (u : Nat) (v : W32) : (s.cmpWriteInt fn u v).still = s.still := by
  simp [State.cmpWriteInt]

@[simp] theorem State.cmpWriteCtl_still (s : State) (fn : World) (u : Nat) (v : W32) : (s.cmpWriteCtl fn u v).still = s.still := by
  simp [State.cmpWriteCtl]

@[simp] theorem State.cmpWriteStat_still (s : State) (fn : World) (u : Nat) (v : W32) : (s.cmpWriteStat fn u v).still = s.still := by
  simp [State.cmpWriteStat]

@[simp] theorem State.pendWrite_still (s : State) (fn : World) (w : Nat) (v : W32) : (s.pendWrite fn w v).still = s.still := by simp [State.pendWrite]
@[simp] theorem State.enterLf_still (s : State) : s.enterLf.still = s.still := by simp [State.enterLf]
@[simp] theorem State.leaveLf_still (s : State) : s.leaveLf.still = s.still := by simp [State.leaveLf]
@[simp] theorem execRefLost_keepsStill (byLoss : Bool) (s : State) : KeepsStill s (execRefLost byLoss s) := by simp [execRefLost]
@[simp] theorem execLfEdge_keepsStill (refGood : Bool) (s : State) : KeepsStill s (execLfEdge refGood s) := by simp [execLfEdge]
@[simp] theorem execLfAbsent_keepsStill (refRuns : Bool) (s : State) : KeepsStill s (execLfAbsent refRuns s) := by simp [execLfAbsent]

@[simp] theorem execCmpTgtWrite_keepsStill (fn : World) (u : Nat) (v : W32) (s : State) : KeepsStill s (execCmpTgtWrite fn u v s) := by
  simp [execCmpTgtWrite]

@[simp] theorem execCmpIntWrite_keepsStill (fn : World) (u : Nat) (v : W32) (s : State) : KeepsStill s (execCmpIntWrite fn u v s) := by
  simp [execCmpIntWrite]

@[simp] theorem execCmpArmWrite_keepsStill (fn : World) (u : Nat) (v : W32) (s : State) : KeepsStill s (execCmpArmWrite fn u v s) := by
  simp [execCmpArmWrite]

@[simp] theorem State.publish_still (s : State) (w : World) : (s.publish w).still = s.still := by
  unfold State.publish
  split <;> simp

@[simp] theorem State.closeTimes_still (s : State) (w : World) (tb : Nat) : (s.closeTimes w tb).still = s.still := by simp [State.closeTimes]

@[simp] theorem State.takeBoundary_still (s : State) (w : World) (tb cause : Nat) (split : Bool) :
    (s.takeBoundary w tb cause split).still = s.still := by simp [State.takeBoundary]

@[simp] theorem State.duePeriod_still (s : State) (w : World) : (s.duePeriod w).still = s.still := by simp [State.duePeriod]
@[simp] theorem State.trigger_still (s : State) (w : World) (tb cause : Nat) : (s.trigger w tb cause).still = s.still := by simp [State.trigger]
@[simp] theorem execEpochPeriod_keepsStill (fn : World) (s : State) : KeepsStill s (execEpochPeriod fn s) := by simp [execEpochPeriod]
@[simp] theorem State.stCtlWrite_still (s : State) (fn : World) (v : Nat) : (s.stCtlWrite fn v).still = s.still := by simp [State.stCtlWrite]
@[simp] theorem execEpochNow_keepsStill (fn : World) (v : W32) (s : State) : KeepsStill s (execEpochNow fn v s) := by simp [execEpochNow]
@[simp] theorem State.stPeriodSet_still (s : State) (fn : World) (v : Nat) : (s.stPeriodSet fn v).still = s.still := by simp [State.stPeriodSet]

@[simp] theorem execStPeriodWrite_keepsStill (fn : World) (v : W32) (s : State) : KeepsStill s (execStPeriodWrite fn v s) := by
  simp [execStPeriodWrite]

@[simp] theorem execEpochPublish_keepsStill (fn : World) (s : State) : KeepsStill s (execEpochPublish fn s) := by
  unfold execEpochPublish
  split <;> simp

@[simp] theorem execStatSync_keepsStill (since : Nat) (rising : Bool) (s : State) : KeepsStill s (execStatSync since rising s) := by
  simp [execStatSync]

@[simp] theorem State.setSnap_still (s : State) (fn : World) (b : LinkedBlock) (x : Snapshot) : (s.setSnap fn b x).still = s.still := by
  unfold State.setSnap
  split <;> simp

@[simp] theorem State.setTorn_still (s : State) (fn : World) (b : LinkedBlock) : (s.setTorn fn b).still = s.still := by
  unfold State.setTorn
  split <;> simp

@[simp] theorem State.linkedLow_getD_still (s : State) (fn : World) (off : Nat) (r : W64 × State) (h : r.2.still = s.still) :
    ((s.linkedLow fn off).getD r).2.still = s.still := by
  unfold State.linkedLow
  cases s.linkedAt fn off <;> cases s.done <;> simp [h]

@[simp] theorem State.linkedHigh_getD_still (s : State) (fn : World) (off : Nat) (r : W64 × State) (h : r.2.still = s.still) :
    ((s.linkedHigh fn off).getD r).2.still = s.still := by
  unfold State.linkedHigh
  split
  · cases s.linkedAt fn (off - 4) <;> simp [h]
  · exact h

@[simp] theorem State.qzWrite_still (s : State) (fn : World) (off : Nat) (v : W32) : (s.qzWrite fn off v).still = s.still := by
  unfold State.qzWrite
  split
  · simp
  · split
    · simp
    · split
      · split <;> simp
      · simp

@[simp] theorem State.stWrite_still (s : State) (fn : World) (off : Nat) (v : W32) : (s.stWrite fn off v).still = s.still := by
  unfold State.stWrite
  split
  · simp
  · split
    · simp
    · split
      · simp
      · split
        · simp
        · split <;> simp

/-! ### The Dumbwaiters (Dumbwaiters.lean) -/

@[simp] theorem State.dwLeaseEnd_still (s : State) (e : Nat) : (s.dwLeaseEnd e).still = s.still := by
  unfold State.dwLeaseEnd
  split <;> simp

@[simp] theorem State.dwRest_still (s : State) (e : Nat) (st : DwState) : (s.dwRest e st).still = s.still := by simp [State.dwRest]

@[simp] theorem State.dwRecordWrite_kept (s : State) (e status : Nat) : (s.dwRecordWrite e status).2.still.kept = s.still.kept := by
  unfold State.dwRecordWrite
  grind [State.writeBytes_kept, State.modDw_still, State.msix_still]

@[simp] theorem State.dwRecordWrite_pantryOk (s : State) (e status : Nat) (hp : s.still.pantry = true) :
    (s.dwRecordWrite e status).2.still.pantry = true := by
  unfold State.dwRecordWrite
  grind [State.writeBytes_pantryOk, State.modDw_still, State.msix_still]

@[simp] theorem State.dwFail_still (s : State) (e : Nat) : (s.dwFail e).still = s.still := by simp [State.dwFail]
@[simp] theorem State.dwAsk_still (s : State) (e : Nat) : (s.dwAsk e).2.still = s.still := by simp [State.dwAsk]

@[simp] theorem State.dwEnd_kept (s : State) (e fuel status : Nat) (hand : Bool) : (s.dwEnd e fuel status hand).still.kept = s.still.kept := by
  induction fuel generalizing s status hand with
  | zero => rfl
  | succ fuel ih =>
    unfold State.dwEnd
    grind [State.dwRecordWrite_kept, State.dwFail_still, State.modDw_still, State.dwRest_still, State.dwLeaseEnd_still, State.dwAsk_still]

@[simp] theorem State.dwEnd_pantryOk (s : State) (e fuel status : Nat) (hand : Bool) (hp : s.still.pantry = true) :
    (s.dwEnd e fuel status hand).still.pantry = true := by
  induction fuel generalizing s status hand with
  | zero => exact hp
  | succ fuel ih =>
    unfold State.dwEnd
    grind [State.dwRecordWrite_pantryOk, State.dwFail_still, State.modDw_still, State.dwRest_still, State.dwLeaseEnd_still, State.dwAsk_still]

@[simp] theorem State.dwGranted_still (s : State) (e lease : Nat) : (s.dwGranted e lease).still = s.still := by simp [State.dwGranted]
@[simp] theorem State.dwRefused_kept (s : State) (e : Nat) : (s.dwRefused e).still.kept = s.still.kept := by simp [State.dwRefused]

@[simp] theorem State.dwRefused_pantryOk (s : State) (e : Nat) (hp : s.still.pantry = true) : (s.dwRefused e).still.pantry = true := by
  simp [State.dwRefused, hp]

@[simp] theorem State.dwBegin_kept (s : State) (e : Nat) : (s.dwBegin e).still.kept = s.still.kept := by
  unfold State.dwBegin
  grind [State.modDw_still, State.dwEnd_kept, State.dwAsk_still]

@[simp] theorem State.dwBegin_pantryOk (s : State) (e : Nat) (hp : s.still.pantry = true) : (s.dwBegin e).still.pantry = true := by
  unfold State.dwBegin
  grind [State.modDw_still, State.dwEnd_pantryOk, State.dwAsk_still]

@[simp] theorem State.dwPauseAct_kept (s : State) (e : Nat) : (s.dwPauseAct e).still.kept = s.still.kept := by
  unfold State.dwPauseAct
  grind [State.modDw_still, State.dwLeaseEnd_still, State.dwAsk_still, State.dwEnd_kept]

@[simp] theorem State.dwPauseAct_pantryOk (s : State) (e : Nat) (hp : s.still.pantry = true) : (s.dwPauseAct e).still.pantry = true := by
  unfold State.dwPauseAct
  grind [State.modDw_still, State.dwLeaseEnd_still, State.dwAsk_still, State.dwEnd_pantryOk]

@[simp] theorem State.dwCtlWrite_kept (s : State) (fn : World) (e v : Nat) : (s.dwCtlWrite fn e v).still.kept = s.still.kept := by
  simp [State.dwCtlWrite]

@[simp] theorem State.dwCtlWrite_pantryOk (s : State) (fn : World) (e v : Nat) (hp : s.still.pantry = true) :
    (s.dwCtlWrite fn e v).still.pantry = true := by
  refine State.hostItem_pantryOk _ _ _ _ _ (fun t ht => ?_) hp
  dsimp only
  split_ifs <;> simp [ht]

@[simp] theorem execDwStart_keepsKept (fn : World) (e : Nat) (v : W32) (s : State) : KeepsKept s (execDwStart fn e v s) := by simp [execDwStart]

@[simp] theorem execDwStart_formsPantry (fn : World) (e : Nat) (v : W32) (s : State) (hp : s.still.pantry = true) :
    FormsPantry (execDwStart fn e v s) := by simp [execDwStart, hp]

@[simp] theorem execDwPause_keepsKept (fn : World) (e : Nat) (v : W32) (s : State) : KeepsKept s (execDwPause fn e v s) := by simp [execDwPause]

@[simp] theorem execDwPause_formsPantry (fn : World) (e : Nat) (v : W32) (s : State) (hp : s.still.pantry = true) :
    FormsPantry (execDwPause fn e v s) := by simp [execDwPause, hp]

@[simp] theorem State.dwDisable_kept (s : State) (e : Nat) : (s.dwDisable e).still.kept = s.still.kept := by
  unfold State.dwDisable
  dsimp only
  split <;> simp

@[simp] theorem State.dwDisable_pantryOk (s : State) (e : Nat) (hp : s.still.pantry = true) : (s.dwDisable e).still.pantry = true := by
  unfold State.dwDisable
  dsimp only
  split <;> simp [hp]

@[simp] theorem State.dwEnableOn_still (s : State) (e : Nat) : (s.dwEnableOn e).still = s.still := by simp [State.dwEnableOn]
@[simp] theorem State.dwCfgWrite_kept (s : State) (fn : World) (e v : Nat) : (s.dwCfgWrite fn e v).still.kept = s.still.kept := by
  simp [State.dwCfgWrite]

@[simp] theorem State.dwCfgWrite_pantryOk (s : State) (fn : World) (e v : Nat) (hp : s.still.pantry = true) :
    (s.dwCfgWrite fn e v).still.pantry = true := by
  simp +contextual [State.dwCfgWrite, hp]

@[simp] theorem execDwEnable_keepsKept (fn : World) (e : Nat) (v : W32) (s : State) : KeepsKept s (execDwEnable fn e v s) := by simp [execDwEnable]

@[simp] theorem execDwEnable_formsPantry (fn : World) (e : Nat) (v : W32) (s : State) (hp : s.still.pantry = true) :
    FormsPantry (execDwEnable fn e v s) := by simp [execDwEnable, hp]

@[simp] theorem State.dwReqWrite_still (s : State) (fn : World) (e v : Nat) : (s.dwReqWrite fn e v).still = s.still := by simp [State.dwReqWrite]
@[simp] theorem execDwReq_keepsStill (fn : World) (e : Nat) (v : W32) (s : State) : KeepsStill s (execDwReq fn e v s) := by simp [execDwReq]

@[simp] theorem State.dwDenied_still (s : State) (e a : Nat) (d : Deny) : (s.dwDenied e a d).still = s.still := by
  unfold State.dwDenied
  split <;> simp

@[simp] theorem State.dwMove_kept (s0 : State) (e : Nat) (r : LinkResult) : (s0.dwMove e r).2.still.kept = s0.still.kept := by
  unfold State.dwMove
  extract_lets s d w n up eccAt
  have hs : s.still = s0.still := by simp [s]
  split
  · exact congrArg Still.kept hs
  split <;> rename_i h1
  · simp [still_of_triple h1, hs]
  · simp [still_of_triple h1, hs]
  · simp [still_of_triple h1, hs]
  split
  · simp [still_of_triple h1, hs]
  split <;> simp [still_of_triple ‹_›, still_of_triple h1, hs]

@[simp] theorem State.dwMove_pantryOk (s0 : State) (e : Nat) (r : LinkResult) (hp : s0.still.pantry = true) :
    (s0.dwMove e r).2.still.pantry = true := by
  unfold State.dwMove
  extract_lets s d w n up eccAt
  have hs : s.still.pantry = true := by simp [s, hp]
  split
  · exact hs
  split <;> rename_i h1
  · simp [still_of_triple h1, hs]
  · simp [still_of_triple h1, hs]
  · simp [still_of_triple h1, hs]
  split
  · simp [still_of_triple h1, hs]
  split <;> simp [still_of_triple ‹_›, still_of_triple h1, hs]

@[simp] theorem execDwBurstDone_keepsKept (e : Nat) (r : LinkResult) (s : State) : KeepsKept s (execDwBurstDone e r s) := by
  unfold execDwBurstDone
  dsimp only
  split
  · simp
  split
  · split <;> simp [still_of_pair ‹_›]
  · simp

@[simp] theorem execDwBurstDone_formsPantry (e : Nat) (r : LinkResult) (s : State) (hp : s.still.pantry = true) :
    FormsPantry (execDwBurstDone e r s) := by
  unfold execDwBurstDone
  dsimp only
  split
  · simp [hp]
  split
  · split <;> simp [still_of_pair ‹_›, hp]
  · simp [hp]

@[simp] theorem State.dwHeadWrite_kept (s : State) (fn : World) (e v : Nat) : (s.dwHeadWrite fn e v).still.kept = s.still.kept := by
  refine State.hostItem_kept _ _ _ _ _ fun t => ?_
  dsimp only
  split
  · simp
  · split <;> simp

@[simp] theorem State.dwHeadWrite_pantryOk (s : State) (fn : World) (e v : Nat) (hp : s.still.pantry = true) :
    (s.dwHeadWrite fn e v).still.pantry = true := by
  refine State.hostItem_pantryOk _ _ _ _ _ (fun t ht => ?_) hp
  dsimp only
  split
  · simp [ht]
  · split <;> simp [ht]

@[simp] theorem execDwCqHead_keepsKept (fn : World) (e : Nat) (v : W32) (s : State) : KeepsKept s (execDwCqHead fn e v s) := by simp [execDwCqHead]

@[simp] theorem execDwCqHead_formsPantry (fn : World) (e : Nat) (v : W32) (s : State) (hp : s.still.pantry = true) :
    FormsPantry (execDwCqHead fn e v s) := by simp [execDwCqHead, hp]

@[simp] theorem State.dwHostLoss_kept (s : State) (w : World) : (s.dwHostLoss w).still.kept = s.still.kept := by simp [State.dwHostLoss]

@[simp] theorem State.dwHostLoss_pantryOk (s : State) (w : World) (hp : s.still.pantry = true) : (s.dwHostLoss w).still.pantry = true := by
  simp +contextual [State.dwHostLoss, hp]

@[simp] theorem State.dwDomainOn_still (s : State) (dom : Nat) : (s.dwDomainOn dom).still = s.still := by simp [State.dwDomainOn]

@[simp] theorem State.dwWrite64_still (s : State) (fn : World) (off v : Nat) : (s.dwWrite64 fn off v).still = s.still := by
  simp -implicitDefEqProofs [State.dwWrite64]

@[simp] theorem State.dwWrite_kept (s : State) (fn : World) (off : Nat) (v : W32) : (s.dwWrite fn off v).still.kept = s.still.kept := by
  simp -implicitDefEqProofs [State.dwWrite]
  split <;> simp -implicitDefEqProofs

@[simp] theorem State.dwWrite_pantryOk (s : State) (fn : World) (off : Nat) (v : W32) (hp : s.still.pantry = true) :
    (s.dwWrite fn off v).still.pantry = true := by
  simp -implicitDefEqProofs [State.dwWrite, hp]
  split <;> simp -implicitDefEqProofs [hp]

/-! ### Boiler (Boiler.lean) -/

@[simp] theorem State.paceSend_still (s : State) (j : PaceJob) : (s.paceSend j).still = s.still := by simp [State.paceSend]
@[simp] theorem State.paceStart_still (s : State) (slate granite : Nat) : (s.paceStart slate granite).still = s.still := by simp [State.paceStart]
@[simp] theorem State.paceWrite_still (s : State) (fn : World) (v : Nat) : (s.paceWrite fn v).still = s.still := by simp [State.paceWrite]
@[simp] theorem execPaceChange_keepsStill (fn : World) (v : W32) (s : State) : KeepsStill s (execPaceChange fn v s) := by simp [execPaceChange]

@[simp] theorem State.leaveRefuse_kept (s : State) (q : LeaveReq) : (s.leaveRefuse q).still.kept = s.still.kept := by
  unfold State.leaveRefuse
  split <;> simp

@[simp] theorem State.leaveRefuse_pantryOk (s : State) (q : LeaveReq) (hp : s.still.pantry = true) : (s.leaveRefuse q).still.pantry = true := by
  unfold State.leaveRefuse
  split <;> simp [hp]

@[simp] theorem State.portUngate_kept (s : State) (n : Nat) : (s.portUngate n).still.kept = s.still.kept := by simp [State.portUngate]

@[simp] theorem State.portUngate_pantryOk (s : State) (n : Nat) (hp : s.still.pantry = true) : (s.portUngate n).still.pantry = true := by
  simp [State.portUngate, hp]

@[simp] theorem State.domainSwitch_still (s : State) (d : Nat) : (s.domainSwitch d).still = s.still := by simp [State.domainSwitch]

@[simp] theorem State.workGranted_kept (s : State) (k : BoilerWork) : (s.workGranted k).still.kept = s.still.kept := by
  unfold State.workGranted
  split <;> simp

@[simp] theorem State.workGranted_pantryOk (s : State) (k : BoilerWork) (hp : s.still.pantry = true) : (s.workGranted k).still.pantry = true := by
  unfold State.workGranted
  split <;> simp [hp]

@[simp] theorem State.leaveGranted_kept (s : State) (q : LeaveReq) : (s.leaveGranted q).still.kept = s.still.kept := by
  unfold State.leaveGranted
  split
  · split <;> simp
  · simp
  · simp
  · simp
  · simp

@[simp] theorem State.leaveGranted_pantryOk (s : State) (q : LeaveReq) (hp : s.still.pantry = true) : (s.leaveGranted q).still.pantry = true := by
  unfold State.leaveGranted
  split
  · split <;> simp [hp]
  · simp [hp]
  · simp [hp]
  · simp [hp]
  · simp [hp]

@[simp] theorem leaveWalk_kept (l : List LeaveReq) (pool : Bool) (s : State) : (leaveWalk l pool s).still.kept = s.still.kept := by
  induction l generalizing pool s with
  | nil => rfl
  | cons q l ih =>
    unfold leaveWalk
    split
    · exact ih pool s
    · split <;> simp [ih]

@[simp] theorem leaveWalk_pantryOk (l : List LeaveReq) (pool : Bool) (s : State) (hp : s.still.pantry = true) :
    (leaveWalk l pool s).still.pantry = true := by
  induction l generalizing pool s with
  | nil => exact hp
  | cons q l ih =>
    unfold leaveWalk
    split
    · exact ih pool s hp
    · split <;> simp [ih, hp]

@[simp] theorem execBoilerEvaluate_keepsKept (plant : Bool) (s : State) : KeepsKept s (execBoilerEvaluate plant s) := by simp [execBoilerEvaluate]

@[simp] theorem execBoilerEvaluate_formsPantry (plant : Bool) (s : State) (hp : s.still.pantry = true) :
    FormsPantry (execBoilerEvaluate plant s) := by simp [execBoilerEvaluate, hp]

@[simp] theorem State.domainUsable_kept (s : State) (d : Nat) : (s.domainUsable d).still.kept = s.still.kept := by
  simp -implicitDefEqProofs [State.domainUsable]

@[simp] theorem State.domainUsable_pantryOk (s : State) (d : Nat) (hp : s.still.pantry = true) : (s.domainUsable d).still.pantry = true := by
  simp +contextual -implicitDefEqProofs [State.domainUsable, hp]

@[simp] theorem execDomainOn_keepsKept (d : Nat) (s : State) : KeepsKept s (execDomainOn d s) := by simp [execDomainOn]

@[simp] theorem execDomainOn_formsPantry (d : Nat) (s : State) (hp : s.still.pantry = true) :
    FormsPantry (execDomainOn d s) := by simp [execDomainOn, hp]

@[simp] theorem State.domainOff_still (s : State) (d : Nat) : (s.domainOff d).still = s.still := by simp [State.domainOff]
@[simp] theorem State.domainsOff_still (s : State) : s.domainsOff.still = s.still := by simp [State.domainsOff]

@[simp] theorem execBoilerMeasure_keepsStill (milliV ma100 : Nat) (s : State) : KeepsStill s (execBoilerMeasure milliV ma100 s) := by
  simp [execBoilerMeasure]

@[simp] theorem State.leaveRecheck_kept (s : State) : s.leaveRecheck.still.kept = s.still.kept := by
  refine foldl_kept _ _ _ fun t q => ?_
  split <;> simp

@[simp] theorem State.leaveRecheck_pantryOk (s : State) (hp : s.still.pantry = true) : s.leaveRecheck.still.pantry = true := by
  refine foldl_pantry _ _ _ (fun t q ht => ?_) hp
  split <;> simp [ht]

@[simp] theorem execPaceDone_keepsKept (milliV : Nat) (s : State) : KeepsKept s (execPaceDone milliV s) := by
  unfold execPaceDone
  split <;> simp

@[simp] theorem execPaceDone_formsPantry (milliV : Nat) (s : State) (hp : s.still.pantry = true) :
    FormsPantry (execPaceDone milliV s) := by
  unfold execPaceDone
  split <;> simp [hp]

@[simp] theorem execPmbusAlert_keepsStill (status : Option (BitVec 16)) (s : State) : KeepsStill s (execPmbusAlert status s) := by
  unfold execPmbusAlert
  split
  · simp
  · split
    · dsimp only
      split
      · simp
      · split <;> simp
    · simp


end Sys2Proof.Machine

namespace Sys2Proof.Machine

/-! ### The configuration flash (Image.lean) -/

@[simp] theorem execFlashReadTimeout_keepsStores (base : Nat) (s : State) : KeepsStores s (execFlashReadTimeout base s) := by
  simp [execFlashReadTimeout]

@[simp] theorem execFlashReadTimeout_formsPantry (base : Nat) (s : State) (hp : s.still.pantry = true) :
    FormsPantry (execFlashReadTimeout base s) := by
  simp [execFlashReadTimeout, hp]

@[simp] theorem State.choiceFaults_stores (s : State) (kind : Nat) (c : Choice) :
    (s.choiceFaults kind c).still.kept.stores = s.still.kept.stores := by
  simp [State.choiceFaults]

@[simp] theorem State.choiceFaults_pantryOk (s : State) (kind : Nat) (c : Choice) (hp : s.still.pantry = true) :
    (s.choiceFaults kind c).still.pantry = true := by
  simp [State.choiceFaults, hp]

/-! ### The sections of an image (Sections.lean) -/

@[simp] theorem State.modWcfg_stores (s : State) (w : World) (f : WorldCfg → WorldCfg) :
    (s.modWcfg w f).still.kept.stores = s.still.kept.stores := by
  simp [State.modWcfg]

@[simp] theorem State.modWcfg_pantryOk (s : State) (w : World) (f : WorldCfg → WorldCfg) (hp : s.still.pantry = true) :
    (s.modWcfg w f).still.pantry = true := by
  simp [State.modWcfg, hp]

@[simp] theorem State.imageEntry_still (s : State) (copy type idx : Nat) (w : Option World) (severe : Bool) :
    (s.imageEntry copy type idx w severe).still = s.still := by simp [State.imageEntry]

@[simp] theorem State.applyAssign_stores (s : State) (b : List Byte) : (s.applyAssign b).still.kept.stores = s.still.kept.stores := by
  simp [State.applyAssign]

@[simp] theorem State.applyAssign_pantryOk (s : State) (b : List Byte) (hp : s.still.pantry = true) : (s.applyAssign b).still.pantry = true := by
  simp [State.applyAssign, hp]

@[simp] theorem State.applyKernel_stores (s : State) (copy : Nat) (w : World) (b : List Byte) :
    (s.applyKernel copy w b).still.kept.stores = s.still.kept.stores := by
  simp [State.applyKernel]

@[simp] theorem State.applyKernel_pantryOk (s : State) (copy : Nat) (w : World) (b : List Byte) (hp : s.still.pantry = true) :
    (s.applyKernel copy w b).still.pantry = true := by
  unfold State.applyKernel
  extract_lets load len vec n rs mine attrs s1
  have h1 : s1.still.pantry = true := State.modWcfg_pantryOk s w _ hp
  split
  · exact State.pnWrite_pantryOk _ _ _ (State.modWcfg_pantryOk s1 w _ h1)
  · simp [hp]

@[simp] theorem State.applyHandler_stores (s : State) (copy : Nat) (w : World) (b : List Byte) :
    (s.applyHandler copy w b).still.kept.stores = s.still.kept.stores := by
  simp [State.applyHandler]

@[simp] theorem State.applyHandler_pantryOk (s : State) (copy : Nat) (w : World) (b : List Byte) (hp : s.still.pantry = true) :
    (s.applyHandler copy w b).still.pantry = true := by
  simp +contextual [State.applyHandler, hp]

@[simp] theorem State.applyGates_stores (s : State) (b : List Byte) : (s.applyGates b).still.kept.stores = s.still.kept.stores := by
  simp [State.applyGates]

@[simp] theorem State.applyGates_pantryOk (s : State) (b : List Byte) (hp : s.still.pantry = true) : (s.applyGates b).still.pantry = true := by
  simp [State.applyGates, hp]

@[simp] theorem State.applyResident_stores (s : State) (copy : Nat) (w : World) (b : List Byte) :
    (s.applyResident copy w b).still.kept.stores = s.still.kept.stores := by
  simp [State.applyResident]

@[simp] theorem State.applyResident_pantryOk (s : State) (copy : Nat) (w : World) (b : List Byte) (hp : s.still.pantry = true) :
    (s.applyResident copy w b).still.pantry = true := by
  unfold State.applyResident
  dsimp only
  split
  · refine foldl_pantry _ _ _ (fun t p ht => ?_) (by simp [hp])
    split <;> simp [ht]
  · simp [hp]

@[simp] theorem State.applyHost_stores (s : State) (w : World) (b : List Byte) : (s.applyHost w b).still.kept.stores = s.still.kept.stores := by
  simp [State.applyHost]

@[simp] theorem State.applyHost_pantryOk (s : State) (w : World) (b : List Byte) (hp : s.still.pantry = true) :
    (s.applyHost w b).still.pantry = true := by
  simp [State.applyHost, hp]

@[simp] theorem State.applyShares_stores (s : State) (copy : Nat) : (s.applyShares copy).still.kept.stores = s.still.kept.stores := by
  simp [State.applyShares]

@[simp] theorem State.applyShares_pantryOk (s : State) (copy : Nat) (hp : s.still.pantry = true) : (s.applyShares copy).still.pantry = true := by
  simp [State.applyShares, hp]

@[simp] theorem State.applyPartners_stores (s : State) (copy : Nat) (assignWorld : Option World) :
    (s.applyPartners copy assignWorld).still.kept.stores = s.still.kept.stores := by
  refine foldl_stores _ _ _ fun t m => ?_
  split <;> simp

@[simp] theorem State.applyPartners_pantryOk (s : State) (copy : Nat) (assignWorld : Option World) (hp : s.still.pantry = true) :
    (s.applyPartners copy assignWorld).still.pantry = true := by
  refine foldl_pantry _ _ _ (fun t m ht => ?_) hp
  split <;> simp [ht]

@[simp] theorem State.applyPort_stores (s : State) (copy : Nat) (w : World) (b : List Byte) :
    (s.applyPort copy w b).still.kept.stores = s.still.kept.stores := by
  simp [State.applyPort]

@[simp] theorem State.applyPort_pantryOk (s : State) (copy : Nat) (w : World) (b : List Byte) (hp : s.still.pantry = true) :
    (s.applyPort copy w b).still.pantry = true := by
  simp [State.applyPort, hp]

@[simp] theorem State.applyLane_stores (s : State) (copy : Nat) (sw : Option World) (b : List Byte) :
    (s.applyLane copy sw b).still.kept.stores = s.still.kept.stores := by
  simp [State.applyLane]

@[simp] theorem State.applyLane_pantryOk (s : State) (copy : Nat) (sw : Option World) (b : List Byte) (hp : s.still.pantry = true) :
    (s.applyLane copy sw b).still.pantry = true := by
  simp +contextual [State.applyLane, hp]

@[simp] theorem State.applyProfile_stores (s : State) (copy : Nat) (w : World) (b : List Byte) :
    (s.applyProfile copy w b).still.kept.stores = s.still.kept.stores := by
  simp [State.applyProfile]

@[simp] theorem State.applyProfile_pantryOk (s : State) (copy : Nat) (w : World) (b : List Byte) (hp : s.still.pantry = true) :
    (s.applyProfile copy w b).still.pantry = true := by
  simp [State.applyProfile, hp]

@[simp] theorem State.applyText_stores (s : State) (copy : Nat) (w : World) (b : List Byte) (image : Bool) :
    (s.applyText copy w b image).still.kept.stores = s.still.kept.stores := by simp [State.applyText]

@[simp] theorem State.applyText_pantryOk (s : State) (copy : Nat) (w : World) (b : List Byte) (image : Bool) (hp : s.still.pantry = true) :
    (s.applyText copy w b image).still.pantry = true := by simp [State.applyText, hp]

@[simp] theorem State.applyPlant_still (s : State) (copy : Nat) (w : World) (b : List Byte) (basic : Bool) :
    (s.applyPlant copy w b basic).still = s.still := by simp [State.applyPlant]

@[simp] theorem State.applyBoiler_still (s : State) (b : List Byte) (mode : Nat) : (s.applyBoiler b mode).still = s.still := by
  simp [State.applyBoiler]

@[simp] theorem State.applyPantry_stores (s : State) (b : List Byte) (strong : Bool) :
    (s.applyPantry b strong).still.kept.stores = s.still.kept.stores := by
  simp [State.applyPantry]

@[simp] theorem State.applyPantry_pantryOk (s : State) (b : List Byte) (strong : Bool) (hp : s.still.pantry = true) :
    (s.applyPantry b strong).still.pantry = true := by
  simp [State.applyPantry, hp]

@[simp] theorem State.applyPools_stores (s : State) (copy : Nat) (b : List Byte) : (s.applyPools copy b).still.kept.stores = s.still.kept.stores := by
  simp [State.applyPools]

@[simp] theorem State.applyPools_pantryOk (s : State) (copy : Nat) (b : List Byte) (hp : s.still.pantry = true) :
    (s.applyPools copy b).still.pantry = true := by
  simp +contextual [State.applyPools, hp]

@[simp] theorem State.setPeriod_still (s : State) (w : World) (ms : Nat) (sync lock : Bool) : (s.setPeriod w ms sync lock).still = s.still := by
  simp [State.setPeriod]

@[simp] theorem State.applyTiming_stores (s : State) (copy : Nat) (b : List Byte) :
    (s.applyTiming copy b).still.kept.stores = s.still.kept.stores := by
  simp [State.applyTiming]

@[simp] theorem State.applyTiming_pantryOk (s : State) (copy : Nat) (b : List Byte) (hp : s.still.pantry = true) :
    (s.applyTiming copy b).still.pantry = true := by
  simp +contextual [State.applyTiming, hp]

@[simp] theorem State.applySaveArea_still (s : State) (copy : Nat) (w : World) (addr len : Nat) :
    (s.applySaveArea copy w addr len).still = s.still := by simp [State.applySaveArea]

@[simp] theorem State.applyFault_still (s : State) (copy : Nat) (b : List Byte) : (s.applyFault copy b).still = s.still := by simp [State.applyFault]

/-! ### The ROM programs of drives (Rom.lean) -/

/-- What binds a ROM program on its Hearth. -/
theorem State.romBound_still (s t : State) (n h : Nat) :
    ((((t.modCtx (romCtx n) (fun x => { (s.romEntry n).record s.now h x with
      level := 3, tgtCount := 1, targets := Tbl.put 0 [] 0 (4096 + n) })).makeReady (romCtx n)).driveCauseClear n .program).modDrive n
      (fun d => { d with romPhase := 0, romUntil := s.now, romInt := 0 })).still = t.still := by
  rw [State.modDrive_still, State.driveCauseClear_still, State.makeReady_still, State.modCtx_still]

@[simp] theorem State.romBind_kept (s : State) (w : World) (n : Nat) (again : Bool) : (s.romBind w n again).still.kept = s.still.kept :=
  s.residentPlace_kept w _ _ again _ fun t _ h => s.romBound_still t n h

@[simp] theorem State.romBind_pantryOk (s : State) (w : World) (n : Nat) (again : Bool) (hp : s.still.pantry = true) :
    (s.romBind w n again).still.pantry = true :=
  s.residentPlace_pantryOk w _ _ again _ (fun t _ h => s.romBound_still t n h) hp

@[simp] theorem State.romPut_still (s : State) (n item v : Nat) : (s.romPut n item v).2.still = s.still := by
  unfold State.romPut
  grind [State.driveWrite_still, State.programEnd_still]

@[simp] theorem State.romPuts_still (s : State) (n : Nat) (l : List (Nat × Nat)) : (s.romPuts n l).2.still = s.still := by
  induction l generalizing s with
  | nil => rfl
  | cons x l ih =>
    unfold State.romPuts
    grind [State.romPut_still]

@[simp] theorem State.romHeater_still (s : State) (n : Nat) : (s.romHeater n).still = s.still := by
  unfold State.romHeater
  grind [State.romPuts_still, State.modDrive_still]

@[simp] theorem State.romCharger_still (s : State) (n : Nat) : (s.romCharger n).still = s.still := by
  unfold State.romCharger
  grind [State.romPuts_still, State.modDrive_still]

@[simp] theorem State.romStep_still (s : State) (n : Nat) : (s.romStep n).still = s.still := by
  unfold State.romStep
  dsimp only
  split
  · simp
  · split
    · simp
    · split
      · simp
      · split <;> simp

@[simp] theorem State.romRun_still (s : State) : s.romRun.still = s.still := by simp [State.romRun]
@[simp] theorem execCompareMatch_keepsStill (u : Nat) (s : State) : KeepsStill s (execCompareMatch u s) := by simp [execCompareMatch]

@[simp] theorem State.residentBind_kept (s : State) (w : World) (e : ResidentEntry) (again : Bool) :
    (s.residentBind w e again).still.kept = s.still.kept := by
  simp [State.residentBind]

@[simp] theorem State.residentBind_pantryOk (s : State) (w : World) (e : ResidentEntry) (again : Bool) (hp : s.still.pantry = true) :
    (s.residentBind w e again).still.pantry = true := by
  simp [State.residentBind, hp]

@[simp] theorem execResidentRestart_keepsKept (c : Nat) (s : State) : KeepsKept s (execResidentRestart c s) := by
  unfold execResidentRestart
  dsimp only
  split <;> simp

@[simp] theorem execResidentRestart_formsPantry (c : Nat) (s : State) (hp : s.still.pantry = true) : FormsPantry (execResidentRestart c s) := by
  unfold execResidentRestart
  dsimp only
  split <;> simp [hp]

/-! ### The Cellar: restore, records and the power-fail save (Cellar.lean) -/

@[simp] theorem State.restoreAreas_kept (s : State) (i : Nat) : (s.restoreAreas i).still.kept = s.still.kept := by
  unfold State.restoreAreas
  dsimp only
  split <;> split <;> simp

@[simp] theorem State.restoreAreas_pantryOk (s : State) (i : Nat) (hp : s.still.pantry = true) : (s.restoreAreas i).still.pantry = true := by
  unfold State.restoreAreas
  dsimp only
  split <;> split <;> simp [hp]

@[simp] theorem State.restoreQueue_still (s : State) (e : List Byte) : (s.restoreQueue e).still = s.still := by simp [State.restoreQueue]

@[simp] theorem State.restoreCtx_still (s : State) (e : List Byte) : (s.restoreCtx e).still = s.still := by
  unfold State.restoreCtx
  dsimp only
  split <;> simp

@[simp] theorem State.restoreOvf_still (s : State) (e : List Byte) : (s.restoreOvf e).still = s.still := by simp [State.restoreOvf]
@[simp] theorem State.restoreStats_stores (s : State) (b : List Byte) : (s.restoreStats b).still.kept.stores = s.still.kept.stores := by
  simp [State.restoreStats]

@[simp] theorem State.restoreStats_pantryOk (s : State) (b : List Byte) (hp : s.still.pantry = true) : (s.restoreStats b).still.pantry = true := by
  simp [State.restoreStats, hp]

@[simp] theorem State.restoreSlot_stores (s : State) (i : Nat) : (s.restoreSlot i).still.kept.stores = s.still.kept.stores := by
  unfold State.restoreSlot
  dsimp only
  split <;> simp

@[simp] theorem State.restoreSlot_pantryOk (s : State) (i : Nat) (hp : s.still.pantry = true) : (s.restoreSlot i).still.pantry = true := by
  unfold State.restoreSlot
  dsimp only
  split <;> simp [hp]

@[simp] theorem State.slotReads_still (s : State) : s.slotReads.still = s.still := by simp [State.slotReads]

@[simp] theorem execCellarRestore_keepsStores (s : State) : KeepsStores s (execCellarRestore s) := by
  unfold execCellarRestore
  split
  · simp
  · dsimp only
    split <;> simp

@[simp] theorem execCellarRestore_formsPantry (s : State) (hp : s.still.pantry = true) :
    FormsPantry (execCellarRestore s) := by
  unfold execCellarRestore
  split
  · simp [hp]
  · dsimp only
    split <;> simp [hp]

theorem State.slotWrite_form (s : State) (i : Nat) (h : SlotHead) (parts : List SlotPart) : s.FormKept (s.slotWrite i h parts) :=
  ⟨rfl, id, fun hs => Memory.wf_write 0 _ _ _ (Memory.wf_write 0 _ _ _ (Memory.wf_write 0 _ _ _ hs)), id, id⟩

theorem State.slotOpen_form (s : State) (i : Nat) : s.FormKept (s.slotOpen i) := ⟨rfl, id, fun hs => Memory.wf_write 0 _ _ _ hs, id, id⟩

/-- What the Cellar says of its slots, beside their contents. -/
theorem State.cellarPut_form (s : State) (f : Cellar → Cellar) (h : ∀ c, (f c).mem = c.mem) : s.FormKept { s with cellar := f s.cellar } :=
  .of_stores (State.still_stores_mk (h s.cellar) rfl rfl) id

theorem execStartRecordWrite_keepsForm (s : State) : KeepsForm s (execStartRecordWrite s) := by
  unfold execStartRecordWrite
  split
  · exact keepsForm_next.2 ((s.slotWrite_form ..).trans
      (State.cellarPut_form _ (fun c => { c with job := .idle, startWritten := true, seq := c.highSeq }) fun _ => rfl))
  · exact keepsForm_next.2 (.refl s)

@[simp] theorem State.lcBlow_still (s : State) : s.lcBlow.still = s.still := rfl

@[simp] theorem State.auditWritten_still (s : State) (n : Nat) : (s.auditWritten n).still = s.still := by
  unfold State.auditWritten
  dsimp only
  split
  · simp
  · rfl

theorem execAuditRecordWrite_keepsForm (s : State) : KeepsForm s (execAuditRecordWrite s) := by
  unfold execAuditRecordWrite
  split
  · exact keepsForm_next.2 (((s.slotWrite_form ..).trans (State.cellarPut_form _ (fun c => { c with seq := c.highSeq }) fun _ => rfl)).trans
      (.of_still (State.auditWritten_still ..)))
  · exact keepsForm_next.2 (.refl s)

@[simp] theorem State.auditAdvance_still (s : State) : s.auditAdvance.still = s.still := by simp [State.auditAdvance]
@[simp] theorem State.saveReads_still (s : State) : s.saveReads.still = s.still := by simp [State.saveReads]
@[simp] theorem State.saveStop_still (s : State) : s.saveStop.still = s.still := by simp -implicitDefEqProofs [State.saveStop]
@[simp] theorem State.saveShed_still (s : State) : s.saveShed.still = s.still := by simp [State.saveShed]
theorem execSaveStart_keepsForm (pfail vin12 : Bool) (s : State) : KeepsForm s (execSaveStart pfail vin12 s) := by
  unfold execSaveStart
  split
  · exact keepsForm_next.2 (.refl s)
  · have hidle : ∀ t : State, t.FormKept { t with pw := { t.pw with phase := .ended }, cellar := { t.cellar with job := .idle } } :=
      fun t => .of_stores (State.still_stores_mk rfl rfl rfl) id
    have hsave : ∀ t : State, t.FormKept { t with cellar := { t.cellar with job := .save } } :=
      fun t => .of_stores (State.still_stores_mk rfl rfl rfl) id
    have hstart : ∀ (t : State) (p : Power) (f : Two Func), t.FormKept { t with pw := p, fns := f } :=
      fun t p f => .of_stores (State.still_stores_mk rfl rfl rfl) id
    have hstop : ∀ t : State, t.FormKept t.saveStop.saveShed := fun t => .of_still (by simp)
    have hs2 := fun m p f => ((State.FormKept.of_still (State.report_still s m none)).trans (hstart _ p f)).trans (hstop _)
    dsimp only
    split
    · exact keepsForm_next.2 ((hs2 _ _ _).trans (hidle _))
    · exact keepsForm_next.2 (((hs2 _ _ _).trans (hsave _)).trans (State.slotOpen_form ..))

theorem execSaveCommit_keepsForm (s : State) : KeepsForm s (execSaveCommit s) := by
  unfold execSaveCommit
  split
  · have hput : ∀ t : State, t.FormKept { t with pw := { t.pw with phase := .ended }, cellar := { t.cellar with job := .idle } } :=
      fun t => .of_stores (State.still_stores_mk rfl rfl rfl) id
    exact keepsForm_next.2 ((((State.FormKept.of_still s.saveReads_still).trans (State.slotWrite_form ..)).trans (hput _)).trans
      (.of_still (State.auditWritten_still ..)))
  · exact keepsForm_next.2 (.refl s)

@[simp] theorem execHoldupCollapse_keepsStores (s : State) : KeepsStores s (execHoldupCollapse s) := by simp [execHoldupCollapse]

@[simp] theorem execHoldupCollapse_formsPantry (s : State) (hp : s.still.pantry = true) :
    FormsPantry (execHoldupCollapse s) := by simp [execHoldupCollapse, hp]


end Sys2Proof.Machine

namespace Sys2Proof.Machine

/-! ### Resets and start-up (Attic.lean) -/

theorem State.deviceReset_form (s : State) (cause : Nat) : s.FormKept (s.deviceReset cause) :=
  ⟨rfl, fun _ => rfl, id, id, fun _ => rfl⟩

/-- Power and the levels of its inputs are no part of the memories. -/
theorem State.power_form (s : State) (p : Power) : s.FormKept { s with pw := p } := .of_still (State.still_mk rfl rfl rfl rfl rfl rfl rfl rfl rfl rfl)

theorem execPowerOnReset_keepsForm (railsOk : Bool) (s : State) : KeepsForm s (execPowerOnReset railsOk s) :=
  keepsForm_next.2 ((s.deviceReset_form 0).trans (State.power_form ..))

theorem execResetN_keepsForm (lowNs : Nat) (refPresent : Bool) (s : State) :
    KeepsForm s (execResetN lowNs refPresent s) := by
  unfold execResetN
  refine keepsForm_next.2 ?_
  split
  · exact s.deviceReset_form 1
  · exact .refl s

theorem execRestart_keepsForm (s : State) : KeepsForm s (execRestart s) := by
  unfold execRestart
  split
  · exact keepsForm_next.2 ((s.deviceReset_form 2).trans (State.power_form ..))
  · exact keepsForm_next.2 (.refl s)

theorem execStudyWatchdogExpiry_keepsForm (s : State) : KeepsForm s (execStudyWatchdogExpiry s) := by
  unfold execStudyWatchdogExpiry
  refine keepsForm_next.2 ?_
  split
  · exact s.deviceReset_form 3
  · exact .refl s

@[simp] theorem execAtticHalt_keepsStores (pfail vin12 : Bool) (s : State) : KeepsStores s (execAtticHalt pfail vin12 s) := by simp [execAtticHalt]

@[simp] theorem execAtticHalt_formsPantry (pfail vin12 : Bool) (s : State) (hp : s.still.pantry = true) :
    FormsPantry (execAtticHalt pfail vin12 s) := by simp [execAtticHalt, hp]

@[simp] theorem execAtticProbe_keepsStores (r : FlashProbe) (s : State) : KeepsStores s (execAtticProbe r s) := by
  unfold execAtticProbe
  split
  · simp
  · split <;> simp

@[simp] theorem execAtticProbe_formsPantry (r : FlashProbe) (s : State) (hp : s.still.pantry = true) :
    FormsPantry (execAtticProbe r s) := by
  unfold execAtticProbe
  split
  · simp [hp]
  · split <;> simp [hp]

@[simp] theorem execFirmwareSelect_keepsStores (s : State) : KeepsStores s (execFirmwareSelect s) := by
  unfold execFirmwareSelect
  split
  · simp
  · dsimp only
    split <;> simp

@[simp] theorem execFirmwareSelect_formsPantry (s : State) (hp : s.still.pantry = true) :
    FormsPantry (execFirmwareSelect s) := by
  unfold execFirmwareSelect
  split
  · simp [hp]
  · dsimp only
    split <;> simp [hp]

@[simp] theorem State.chooseBoard_stores (s : State) : s.chooseBoard.still.kept.stores = s.still.kept.stores := by simp [State.chooseBoard]

@[simp] theorem State.chooseBoard_pantryOk (s : State) (hp : s.still.pantry = true) : s.chooseBoard.still.pantry = true := by
  simp [State.chooseBoard, hp]

@[simp] theorem execImageSelect_keepsStores (s : State) : KeepsStores s (execImageSelect s) := by
  unfold execImageSelect
  split
  · simp
  · split
    · simp
    · split
      · simp
      · dsimp only
        split <;> simp

@[simp] theorem execImageSelect_formsPantry (s : State) (hp : s.still.pantry = true) :
    FormsPantry (execImageSelect s) := by
  unfold execImageSelect
  split
  · simp [hp]
  · split
    · simp [hp]
    · split
      · simp [hp]
      · dsimp only
        split <;> simp [hp]

@[simp] theorem State.trainConfig_still (s : State) (p : List Byte) (ch : Nat) : (s.trainConfig p ch).still = s.still := by
  simp -implicitDefEqProofs [State.trainConfig]

@[simp] theorem State.trainAlerts_still (s : State) (p : List Byte) (ch : Nat) (ok : Bool) : (s.trainAlerts p ch ok).still = s.still := by
  simp [State.trainAlerts]

/-- Bytes set one by one leave a memory in its canonical form. -/
theorem Memory.wf_setBytes (v : Nat → Byte) (l : List (Nat × Nat)) (m : Memory) (h : Memory.wf 0 m = true) :
    Memory.wf 0 (l.foldl (fun m x => Memory.setByte 0 m x.1 (v x.2)) m) = true := by
  induction l generalizing m with
  | nil => exact h
  | cons x l ih => exact ih _ (Memory.wf_setByte 0 m x.1 _ h)

@[simp] theorem State.trainPattern_kept (s : State) (p : List Byte) (ch : Nat) : (s.trainPattern p ch).still.kept = s.still.kept := by
  simp [State.trainPattern]

@[simp] theorem State.trainPattern_pantryOk (s : State) (p : List Byte) (ch : Nat) (hp : s.still.pantry = true) :
    (s.trainPattern p ch).still.pantry = true :=
  Memory.wf_setBytes (fun k => (Config.freeValue (s.free + k)).setWidth 8) _ s.pantry.mem hp

@[simp] theorem State.trainAll_kept (s : State) (p : List Byte) (train : List TrainReport) : (s.trainAll p train).still.kept = s.still.kept := by
  refine foldl_kept _ _ _ fun t i => ?_
  dsimp only
  split <;> simp

@[simp] theorem State.trainAll_pantryOk (s : State) (p : List Byte) (train : List TrainReport) (hp : s.still.pantry = true) :
    (s.trainAll p train).still.pantry = true := by
  refine foldl_pantry _ _ _ (fun t i ht => ?_) hp
  dsimp only
  split <;> simp [ht]

@[simp] theorem State.withSect_stores (s : State) (base type : Nat) (w : Option World) (f : State → List Byte → State)
    (h : ∀ t b, (f t b).still.kept.stores = t.still.kept.stores) : (s.withSect base type w f).still.kept.stores = s.still.kept.stores := by
  unfold State.withSect
  split
  · exact h ..
  · rfl

@[simp] theorem State.withSect_pantryOk (s : State) (base type : Nat) (w : Option World) (f : State → List Byte → State)
    (h : ∀ t b, t.still.pantry = true → (f t b).still.pantry = true) (hp : s.still.pantry = true) :
    (s.withSect base type w f).still.pantry = true := by
  unfold State.withSect
  split
  · exact h _ _ hp
  · exact hp

@[simp] theorem State.withBoth_stores (s : State) (base type : Nat) (f : State → World → List Byte → State)
    (h : ∀ t w b, (f t w b).still.kept.stores = t.still.kept.stores) : (s.withBoth base type f).still.kept.stores = s.still.kept.stores := by
  simp [State.withBoth, h]

@[simp] theorem State.withBoth_pantryOk (s : State) (base type : Nat) (f : State → World → List Byte → State)
    (h : ∀ t w b, t.still.pantry = true → (f t w b).still.pantry = true) (hp : s.still.pantry = true) :
    (s.withBoth base type f).still.pantry = true :=
  State.withSect_pantryOk _ _ _ _ _ (fun _ _ ht => h _ _ _ ht) (State.withSect_pantryOk _ _ _ _ _ (fun _ _ ht => h _ _ _ ht) hp)

@[simp] theorem State.lockWaits_stores (s : State) : s.lockWaits.still.kept.stores = s.still.kept.stores := by simp [State.lockWaits]
@[simp] theorem State.lockWaits_pantry (s : State) : s.lockWaits.still.pantry = s.still.pantry := rfl

@[simp] theorem State.applyRom_stores (s : State) : s.applyRom.still.kept.stores = s.still.kept.stores := by simp [State.applyRom]
@[simp] theorem State.applyRom_pantryOk (s : State) (hp : s.still.pantry = true) : s.applyRom.still.pantry = true := by
  have h : ∀ (t : State) (w : World), (t.modWcfg w (fun c => { c with niMax := 16 })).still.pantry = t.still.pantry := fun _ _ => rfl
  have hb : ∀ (t : State) (w : World), (t.modWcfg w (builtinHost w)).still.pantry = t.still.pantry := fun _ _ => rfl
  simp [State.applyRom, h, hb, hp]

@[simp] theorem State.applyRomPrograms_stores (s : State) : s.applyRomPrograms.still.kept.stores = s.still.kept.stores := by
  refine foldl_stores _ _ _ fun t n => ?_
  split
  · split <;> simp
  · rfl

@[simp] theorem State.applyRomPrograms_pantryOk (s : State) (hp : s.still.pantry = true) : s.applyRomPrograms.still.pantry = true := by
  unfold State.applyRomPrograms
  refine foldl_pantry _ _ _ (fun t n ht => ?_) hp
  split
  · split
    · exact ht
    · exact State.modWcfg_pantryOk _ _ _ ht
  · exact ht

@[simp] theorem State.applyBoard_stores (s : State) : s.applyBoard.still.kept.stores = s.still.kept.stores := by
  unfold State.applyBoard
  split
  · simp
  · dsimp only
    split <;> simp

@[simp] theorem State.applyBoard_pantryOk (s : State) (hp : s.still.pantry = true) : s.applyBoard.still.pantry = true := by
  have hrom : s.applyRom.still.pantry = true := s.applyRom_pantryOk hp
  have hbare : ∀ t : State, t.still.pantry = true → { t with attic := { t.attic with config := .bare } }.still.pantry = true := fun _ ht => ht
  have hmap : ∀ (t : State) (m : Nat), t.still.pantry = true → { t with img := { t.img with mbMap := m } }.still.pantry = true := fun _ _ ht => ht
  unfold State.applyBoard
  split
  · exact hbare _ hrom
  · next base _ =>
    have himage : ∀ t sub w, (s.applyRom.imageEntry (copyIndex 2 base) t sub w true).still.pantry = true := fun t sub w =>
      (congrArg Still.pantry (State.imageEntry_still ..)).trans hrom
    dsimp only
    split
    · split_ifs
      · exact hbare _ (himage ..)
      · exact hbare _ (himage ..)
      · refine State.applyRomPrograms_pantryOk _ ((congrArg Still.pantry (State.applyBoiler_still ..)).trans ?_)
        refine State.withBoth_pantryOk _ _ _ _ (fun t w b ht => State.applyText_pantryOk t _ w b false ht) ?_
        refine State.withBoth_pantryOk _ _ _ _ (fun t w b ht => (congrArg Still.pantry (State.applyPlant_still ..)).trans ht) ?_
        refine State.withBoth_pantryOk _ _ _ _ (fun t w b ht => State.applyPort_pantryOk t _ w b ht) ?_
        refine State.withSect_pantryOk _ _ _ _ _ (fun t b ht => State.applyLane_pantryOk t _ _ b ht) ?_
        exact hmap _ _ (State.applyAssign_pantryOk s.applyRom _ hrom)
    · exact hbare _ hrom

@[simp] theorem State.applyFallback_stores (s : State) : s.applyFallback.still.kept.stores = s.still.kept.stores := by simp [State.applyFallback]

@[simp] theorem State.applyFallback_pantryOk (s : State) (hp : s.still.pantry = true) : s.applyFallback.still.pantry = true := by
  simp [State.applyFallback, hp]

@[simp] theorem State.applyRest_stores (s : State) (base k mode : Nat) (boiler pantry : List Byte) :
    (s.applyRest base k mode boiler pantry).still.kept.stores = s.still.kept.stores := by simp [State.applyRest]

@[simp] theorem State.applyRest_pantryOk (s : State) (base k mode : Nat) (boiler pantry : List Byte) (hp : s.still.pantry = true) :
    (s.applyRest base k mode boiler pantry).still.pantry = true := by
  unfold State.applyRest
  refine State.withSect_pantryOk _ _ _ _ _ (fun t b ht => (congrArg Still.pantry (State.applyFault_still ..)).trans ht) ?_
  refine State.withSect_pantryOk _ _ _ _ _ (fun t b ht => State.applyTiming_pantryOk t _ b ht) ?_
  refine State.applyPools_pantryOk _ _ _ ((congrArg Still.pantry (State.applyBoiler_still ..)).trans ?_)
  refine State.withBoth_pantryOk _ _ _ _ (fun t w b ht => State.applyText_pantryOk t _ w b true ht) ?_
  refine State.applyPartners_pantryOk _ _ _ (State.applyShares_pantryOk _ _ ?_)
  refine State.withBoth_pantryOk _ _ _ _ (fun t w b ht => State.applyHost_pantryOk t w b ht) ?_
  refine State.withBoth_pantryOk _ _ _ _ (fun t w b ht => (congrArg Still.pantry (State.applyPlant_still ..)).trans ht) ?_
  refine State.withBoth_pantryOk _ _ _ _ (fun t w b ht => State.applyProfile_pantryOk t _ w b ht) ?_
  refine State.withBoth_pantryOk _ _ _ _ (fun t w b ht => State.applyResident_pantryOk t _ w b ht) ?_
  refine State.withBoth_pantryOk _ _ _ _ (fun t w b ht => State.applyPort_pantryOk t _ w b ht) ?_
  refine State.withSect_pantryOk _ _ _ _ _ (fun t b ht => State.applyLane_pantryOk t _ _ b ht) ?_
  refine State.withBoth_pantryOk _ _ _ _ (fun t w b ht => State.applyHandler_pantryOk t _ w b ht) ?_
  refine State.withBoth_pantryOk _ _ _ _ (fun t w b ht => State.applyKernel_pantryOk t _ w b ht) ?_
  exact State.withSect_pantryOk _ _ _ _ _ (fun t b ht => State.applyGates_pantryOk t b ht) hp

@[simp] theorem State.applyImage_stores (s : State) (base : Nat) (train : List TrainReport) :
    (s.applyImage base train).still.kept.stores = s.still.kept.stores := by
  simp [State.applyImage]

@[simp] theorem State.applyImage_pantryOk (s : State) (base : Nat) (train : List TrainReport) (hp : s.still.pantry = true) :
    (s.applyImage base train).still.pantry = true := by
  have hentry : ∀ (t : State) (k type sub : Nat) (w : Option World), t.still.pantry = true →
      (t.imageEntry k type sub w true).still.pantry = true :=
    fun t k type sub w ht => (congrArg Still.pantry (State.imageEntry_still ..)).trans ht
  have hfail : ∀ t : State, t.still.pantry = true → { t with attic := { t.attic with pantryFail := true } }.still.pantry = true :=
    fun _ ht => ht
  have hcfg : ∀ t : State, t.still.pantry = true → ((t.modWcfg .slate (builtinHost .slate)).modWcfg .granite (builtinHost .granite)).still.pantry
      = true := fun _ ht => ht
  have hmode : ∀ (t : State) (m d g : Nat), t.still.pantry = true →
      { t with attic := { t.attic with mode := m, digest := d, gdigest := g } }.still.pantry = true := fun _ _ _ _ ht => ht
  have h1 : ∀ p, (s.trainAll p train).still.pantry = true := fun p => s.trainAll_pantryOk p train hp
  unfold State.applyImage
  dsimp only
  split_ifs
  · exact State.applyFallback_pantryOk _ (hentry _ _ _ _ _ (hfail _ hp))
  · exact State.applyFallback_pantryOk _ (hfail _ (h1 _))
  · exact State.applyFallback_pantryOk _ (hentry _ _ _ _ _ (h1 _))
  · exact State.applyFallback_pantryOk _ (hentry _ _ _ _ _ (h1 _))
  · exact State.applyRest_pantryOk _ _ _ _ _ _ (State.applyAssign_pantryOk _ _ (State.applyPantry_pantryOk _ _ _ (hmode _ _ _ _ (by
      rw [State.modBl_still, State.lockWaits_pantry]
      exact hcfg _ (h1 _)))))

@[simp] theorem execConfigApply_keepsStores (train : List TrainReport) (s : State) : KeepsStores s (execConfigApply train s) := by
  unfold execConfigApply
  split
  · simp
  · split <;> simp

@[simp] theorem execConfigApply_formsPantry (train : List TrainReport) (s : State) (hp : s.still.pantry = true) :
    FormsPantry (execConfigApply train s) := by
  unfold execConfigApply
  split
  · simp [hp]
  · split <;> simp [hp]

@[simp] theorem State.startUnits_still (s : State) : s.startUnits.still = s.still := by simp -implicitDefEqProofs [State.startUnits]
@[simp] theorem State.startEpoch_still (s : State) (w : World) : (s.startEpoch w).still = s.still := by simp [State.startEpoch]
@[simp] theorem State.romBind_still (s : State) (w : World) (n : Nat) : (s.romBind w n false).still = s.still :=
  s.residentPlace_still w _ _ _ fun t _ h => s.romBound_still t n h

@[simp] theorem State.startResidents_still (s : State) (w : World) : (s.startResidents w).still = s.still := by simp [State.startResidents]
@[simp] theorem State.startDomains_still (s : State) : s.startDomains.still = s.still := by simp [State.startDomains]
@[simp] theorem execAtticDone_keepsStores (s : State) : KeepsStores s (execAtticDone s) := by simp [execAtticDone]

@[simp] theorem execAtticDone_formsPantry (s : State) (hp : s.still.pantry = true) :
    FormsPantry (execAtticDone s) := by simp [execAtticDone, hp]

@[simp] theorem State.blowRevoke_still (s : State) (kind : Nat) (l : List Nat) : (s.blowRevoke kind l).still = s.still := rfl

theorem execKeyRevoke_keepsStill (s : State) : KeepsStill s (execKeyRevoke s) := by
  unfold execKeyRevoke
  split <;> simp

/-! ### The flash service (FlashService.lean) -/

@[simp] theorem State.flashAck_still (s : State) (m bit code : Nat) (msg1 : Option Nat) : (s.flashAck m bit code msg1).still = s.still := by
  simp [State.flashAck]

@[simp] theorem State.flashServe_still (s : State) (fn : World) (bit op : Nat) (f : State → Nat → State)
    (h : ∀ t m, (f t m).still = t.still) : (s.flashServe fn bit op f).still = s.still := by
  unfold State.flashServe
  split <;> simp [h]

theorem State.flashServe_form (s : State) (fn : World) (bit op : Nat) (f : State → Nat → State)
    (h : ∀ (t : State) (m : Nat), t.FormKept (f t m)) :
    s.FormKept (s.flashServe fn bit op f) := by
  unfold State.flashServe
  split
  · exact .refl s
  · split_ifs
    · exact .refl s
    · exact h ..
    · exact .of_still (State.flashAck_still ..)
    · exact .refl s


theorem State.flashAck_form (s : State) (m bit code : Nat) (msg1 : Option Nat) : s.FormKept (s.flashAck m bit code msg1) :=
  .of_still (State.flashAck_still ..)

theorem State.flashErase_form (s : State) (base n : Nat) : s.FormKept (s.flashErase base n) :=
  ⟨rfl, id, id, Memory.wf_filter 0xFF _ _, id⟩

@[simp] theorem State.flashClose_stores (s : State) : s.flashClose.still.kept.stores = s.still.kept.stores := by simp [State.flashClose]

@[simp] theorem State.flashClose_pantryOk (s : State) (hp : s.still.pantry = true) : s.flashClose.still.pantry = true := by
  simp [State.flashClose, hp]

@[simp] theorem State.flashLoss_stores (s : State) (w : World) : (s.flashLoss w).still.kept.stores = s.still.kept.stores := by simp [State.flashLoss]

@[simp] theorem State.flashLoss_pantryOk (s : State) (w : World) (hp : s.still.pantry = true) : (s.flashLoss w).still.pantry = true := by
  simp [State.flashLoss, hp]

/-- A session of the flash service is no part of the flash's contents. -/
theorem State.session_form (s : State) (x : Option FlashSession) : s.FormKept { s with flash := { s.flash with session := x } } :=
  .of_stores (State.still_stores_mk rfl rfl rfl) id

theorem State.flashDrop_form (s : State) (x : FlashSession) : s.FormKept (s.flashDrop x) :=
  (s.flashErase_form ..).trans (State.session_form ..)

theorem State.flashAbortOf_form (s : State) (w : World) : s.FormKept (s.flashAbortOf w) := by
  unfold State.flashAbortOf
  split
  · split
    · exact s.flashDrop_form _
    · exact .refl s
  · exact .refl s

@[simp] theorem State.flashChecked_stores (s : State) (base n : Nat) : (s.flashChecked base n).still.kept.stores = s.still.kept.stores := by
  simp [State.flashChecked]

@[simp] theorem State.flashChecked_pantryOk (s : State) (base n : Nat) (hp : s.still.pantry = true) :
    (s.flashChecked base n).still.pantry = true := by
  simp [State.flashChecked, hp]

theorem execFlashOpen_keepsForm (fn : World) (bit : Nat) (s : State) : KeepsForm s (execFlashOpen fn bit s) := by
  refine keepsForm_next.2 (s.flashServe_form fn bit 1 _ fun t m => ?_)
  dsimp only
  split_ifs
  · exact t.flashAck_form ..
  · exact t.flashAck_form ..
  · exact t.flashAck_form ..
  · exact ((t.flashErase_form ..).trans (State.session_form ..)).trans (State.flashAck_form ..)

theorem State.flashWrite_form (s : State) (a : Nat) (d : List Byte) (x : Option FlashSession) :
    s.FormKept { s with flash := { mem := Memory.write 0xFF s.flash.mem a d, session := x } } :=
  ⟨rfl, id, id, Memory.wf_write 0xFF _ a d, id⟩

theorem execFlashWrite_keepsForm (fn : World) (bit : Nat) (s : State) : KeepsForm s (execFlashWrite fn bit s) := by
  refine keepsForm_next.2 (s.flashServe_form fn bit 2 _ fun t m => ?_)
  split
  · exact t.flashAck_form ..
  · dsimp only
    split_ifs
    · exact t.flashAck_form ..
    · exact t.flashAck_form ..
    · exact (t.flashWrite_form ..).trans (State.flashAck_form ..)

theorem execFlashCommit_keepsForm (fn : World) (bit : Nat) (s : State) : KeepsForm s (execFlashCommit fn bit s) := by
  refine keepsForm_next.2 (s.flashServe_form fn bit 3 _ fun t m => ?_)
  split
  · exact t.flashAck_form ..
  · next x _ =>
    have hcheck : ∀ b n, t.FormKept (t.flashChecked b n) := fun b n => .of_stores (t.flashChecked_stores b n) (t.flashChecked_pantryOk b n)
    have hclose : ∀ u : State, u.FormKept u.flashClose := fun u => u.session_form none
    dsimp only
    split_ifs
    · exact t.flashAck_form ..
    · exact ((hcheck ..).trans (hclose _)).trans (State.flashAck_form ..)
    · exact ((hcheck ..).trans (State.session_form ..)).trans (State.flashAck_form ..)
    · exact (((hcheck ..).trans (hclose _)).trans (.of_still (State.auditAdvance_still _))).trans (State.flashAck_form ..)
    · exact ((hcheck ..).trans (hclose _)).trans (State.flashAck_form ..)

theorem execFlashAbort_keepsForm (fn : World) (bit : Nat) (s : State) : KeepsForm s (execFlashAbort fn bit s) := by
  refine keepsForm_next.2 (s.flashServe_form fn bit 4 _ fun t m => ?_)
  split
  · exact t.flashAck_form ..
  · split
    · exact (t.flashDrop_form _).trans (State.flashAck_form ..)
    · exact t.flashAck_form ..

@[simp] theorem execFlashStatus_keepsStill (fn : World) (bit : Nat) (s : State) : KeepsStill s (execFlashStatus fn bit s) := by simp [execFlashStatus]

/-! ### The functions and the link (Foyer.lean) -/

@[simp] theorem State.queuesLost_still (s : State) (w : World) : (s.queuesLost w).still = s.still := by simp [State.queuesLost]
@[simp] theorem State.hostLostCtx_still (s : State) (c : Nat) : (s.hostLostCtx c).still = s.still := by simp [State.hostLostCtx]
@[simp] theorem State.programsOrphaned_still (s : State) (w : World) : (s.programsOrphaned w).still = s.still := by simp [State.programsOrphaned]
@[simp] theorem State.attestLoss_still (s : State) (w : World) : (s.attestLoss w).still = s.still := by simp [State.attestLoss]
@[simp] theorem State.windowsLost_still (s : State) (w : World) : (s.windowsLost w).still = s.still := by simp [State.windowsLost]
/-- The registers of a function are no part of the memories. -/
@[simp] theorem State.modFn_stores (s : State) (w : World) (f : Func → Func) : (s.modFn w f).still.kept.stores = s.still.kept.stores := rfl
@[simp] theorem State.modFn_stillPantry (s : State) (w : World) (f : Func → Func) : (s.modFn w f).still.pantry = s.still.pantry := rfl

@[simp] theorem State.hostLoss_stores (s : State) (w : World) (cause : Nat) : (s.hostLoss w cause).still.kept.stores = s.still.kept.stores := by
  simp [State.hostLoss]

@[simp] theorem State.hostLoss_pantryOk (s : State) (w : World) (cause : Nat) (hp : s.still.pantry = true) :
    (s.hostLoss w cause).still.pantry = true := by
  have hmod : ∀ t : State, t.still.pantry = true → (t.dwHostLoss w).still.pantry = true := fun t ht => t.dwHostLoss_pantryOk w ht
  unfold State.hostLoss
  split
  · exact hp
  · rw [State.windowsLost_still]
    refine State.flashLoss_pantryOk _ _ ?_
    rw [State.attestLoss_still]
    exact hmod _ (by simp [hp])

@[simp] theorem State.functionStop_stores (s : State) (w : World) : (s.functionStop w).still.kept.stores = s.still.kept.stores := by
  simp [State.functionStop]

@[simp] theorem State.functionStop_pantryOk (s : State) (w : World) (hp : s.still.pantry = true) : (s.functionStop w).still.pantry = true := by
  simp [State.functionStop, hp]

@[simp] theorem execFunctionStop_keepsStores (fn : World) (s : State) : KeepsStores s (execFunctionStop fn s) := by simp [execFunctionStop]

@[simp] theorem execFunctionStop_formsPantry (fn : World) (s : State) (hp : s.still.pantry = true) :
    FormsPantry (execFunctionStop fn s) := by simp [execFunctionStop, hp]

/-- The command that needs the device's supplies keeps what its effect keeps. -/
theorem State.whenPowered_keepsStores {s t : State} (h : t.still.kept.stores = s.still.kept.stores) : KeepsStores s (s.whenPowered t) := by
  simp [State.whenPowered, h]

theorem State.whenPowered_formsPantry {s t : State} (h : t.still.pantry = true) (hs : s.still.pantry = true) :
    FormsPantry (s.whenPowered t) := by
  simp [State.whenPowered, h, hs]

@[simp] theorem State.orphansMake_still (s : State) (w : World) : (s.orphansMake w).still = s.still := by simp [State.orphansMake]
@[simp] theorem State.functionRun_stores (s : State) (w : World) : (s.functionRun w).still.kept.stores = s.still.kept.stores := by
  simp [State.functionRun]

@[simp] theorem State.functionRun_pantryOk (s : State) (w : World) (hp : s.still.pantry = true) : (s.functionRun w).still.pantry = true := by
  simp [State.functionRun, hp]

@[simp] theorem State.functionStart_stores (s : State) (w : World) : (s.functionStart w).still.kept.stores = s.still.kept.stores := by
  simp [State.functionStart]

@[simp] theorem State.functionStart_pantryOk (s : State) (w : World) (hp : s.still.pantry = true) : (s.functionStart w).still.pantry = true := by
  simp [State.functionStart, hp]

theorem execFunctionStart_keepsStores (fn : World) (bme d0 : Bool) (s : State) : KeepsStores s (execFunctionStart fn bme d0 s) :=
  State.whenPowered_keepsStores (by simp)

theorem execFunctionStart_formsPantry (fn : World) (bme d0 : Bool) (s : State) (hp : s.still.pantry = true) :
    FormsPantry (execFunctionStart fn bme d0 s) :=
  State.whenPowered_formsPantry (by simp [hp]) hp

@[simp] theorem State.linkLoss_stores (s : State) : s.linkLoss.still.kept.stores = s.still.kept.stores := by simp [State.linkLoss]

@[simp] theorem State.linkLoss_pantryOk (s : State) (hp : s.still.pantry = true) : s.linkLoss.still.pantry = true := by simp [State.linkLoss, hp]

@[simp] theorem execLinkDown_keepsStores (s : State) : KeepsStores s (execLinkDown s) := by simp [execLinkDown]

@[simp] theorem execLinkDown_formsPantry (s : State) (hp : s.still.pantry = true) :
    FormsPantry (execLinkDown s) := by simp [execLinkDown, hp]

@[simp] theorem execLinkUp_keepsStill (s : State) : KeepsStill s (execLinkUp s) := by simp [execLinkUp]
@[simp] theorem execPerstNLow_keepsStores (s : State) : KeepsStores s (execPerstNLow s) := by simp [execPerstNLow]

@[simp] theorem execPerstNLow_formsPantry (s : State) (hp : s.still.pantry = true) :
    FormsPantry (execPerstNLow s) := by simp [execPerstNLow, hp]

@[simp] theorem execPerstNHigh_keepsStill (s : State) : KeepsStill s (execPerstNHigh s) := by simp [execPerstNHigh]

theorem execBusMasterDisable_keepsStores (fn : World) (d3hot : Bool) (s : State) : KeepsStores s (execBusMasterDisable fn d3hot s) :=
  State.whenPowered_keepsStores (by simp)

theorem execBusMasterDisable_formsPantry (fn : World) (d3hot : Bool) (s : State) (hp : s.still.pantry = true) :
    FormsPantry (execBusMasterDisable fn d3hot s) :=
  State.whenPowered_formsPantry (by simp [hp]) hp

theorem execFunctionLevelReset_keepsForm (fn : World) (s : State) : KeepsForm s (execFunctionLevelReset fn s) := by
  have hloss : ∀ t : State, t.FormKept (t.hostLoss fn 2) := fun t => .of_stores (t.hostLoss_stores fn 2) (t.hostLoss_pantryOk fn 2)
  have hflr : ∀ t : State, t.FormKept (t.modFn fn Func.flr) := fun t => .of_still (State.modFn_still t fn _ fun _ => rfl)
  have hmbs : ∀ t : State, t.FormKept ((List.range 16).foldl (fun t m => if t.mbWorld m = some fn then t.modMb m Mailbox.flr else t) t) :=
    fun t => .of_still (by simp)
  have hhold : ∀ (t : State) (c : Collector), t.FormKept { t with fc := c } := fun t c => .of_still (by simp)
  exact keepsForm_next.2 (((((s.flashAbortOf_form fn).trans (hloss _)).trans (hflr _)).trans (hmbs _)).trans (hhold ..))

@[simp] theorem State.wdogWrite_still (s : State) (fn : World) (v : Nat) : (s.wdogWrite fn v).still = s.still := by simp [State.wdogWrite]

@[simp] theorem execWatchdogRestart_keepsStill (fn : World) (v : W32) (s : State) : KeepsStill s (execWatchdogRestart fn v s) := by
  simp [execWatchdogRestart]

@[simp] theorem execHostWatchdogExpiry_keepsStores (fn : World) (s : State) : KeepsStores s (execHostWatchdogExpiry fn s) := by
  simp [execHostWatchdogExpiry]

@[simp] theorem execHostWatchdogExpiry_formsPantry (fn : World) (s : State) (hp : s.still.pantry = true) :
    FormsPantry (execHostWatchdogExpiry fn s) := by
  simp [execHostWatchdogExpiry, hp]


end Sys2Proof.Machine

namespace Sys2Proof.Machine

/-! ### The administrative commands (Admin.lean) -/

@[simp] theorem refuse_still (s : State) (status : Nat) : (refuse s status).next.still = s.still := by simp [refuse]

@[simp] theorem State.adminRun_still (s : State) (w : World) (op : Nat) (k : List Byte → State → AdminOut)
    (h : ∀ d t, (k d t).next.still = t.still) : (s.adminRun w op k).still = s.still := by
  unfold State.adminRun
  split <;> simp [h]

@[simp] theorem createCq_still (w : World) (d : List Byte) (s : State) : (createCq w d s).next.still = s.still := by simp [createCq]
@[simp] theorem execCreateCq_keepsStill (fn : World) (s : State) : KeepsStill s (execCreateCq fn s) := by simp [execCreateCq]
@[simp] theorem deleteCq_still (w : World) (d : List Byte) (s : State) : (deleteCq w d s).next.still = s.still := by simp [deleteCq]
@[simp] theorem execDeleteCq_keepsStill (fn : World) (s : State) : KeepsStill s (execDeleteCq fn s) := by simp [execDeleteCq]
@[simp] theorem createSq_still (w : World) (d : List Byte) (s : State) : (createSq w d s).next.still = s.still := by simp [createSq]
@[simp] theorem execCreateSq_keepsStill (fn : World) (s : State) : KeepsStill s (execCreateSq fn s) := by simp [execCreateSq]

@[simp] theorem sqNamed_still (w : World) (d : List Byte) (s : State) (rsv : Bool) (k : Nat → AdminOut) (h : ∀ n, (k n).next.still = s.still) :
    (sqNamed w d s rsv k).next.still = s.still := by
  simp [sqNamed, h]

@[simp] theorem State.sqForget_still (s : State) (w : World) (n : Nat) : (s.sqForget w n).still = s.still := by simp [State.sqForget]
@[simp] theorem deleteSq_still (w : World) (d : List Byte) (s : State) : (deleteSq w d s).next.still = s.still := by simp [deleteSq]
@[simp] theorem execDeleteSq_keepsStill (fn : World) (s : State) : KeepsStill s (execDeleteSq fn s) := by simp [execDeleteSq]
@[simp] theorem enableSq_still (w : World) (d : List Byte) (s : State) : (enableSq w d s).next.still = s.still := by simp [enableSq]
@[simp] theorem execEnableSq_keepsStill (fn : World) (s : State) : KeepsStill s (execEnableSq fn s) := by simp [execEnableSq]
@[simp] theorem disableSq_still (w : World) (d : List Byte) (s : State) : (disableSq w d s).next.still = s.still := by simp [disableSq]
@[simp] theorem execDisableSq_keepsStill (fn : World) (s : State) : KeepsStill s (execDisableSq fn s) := by simp [execDisableSq]
@[simp] theorem bindSq_still (w : World) (d : List Byte) (s : State) : (bindSq w d s).next.still = s.still := by simp [bindSq]
@[simp] theorem execBindSq_keepsStill (fn : World) (s : State) : KeepsStill s (execBindSq fn s) := by simp [execBindSq]

@[simp] theorem invalidateSq_still (w : World) (d : List Byte) (s : State) : (invalidateSq w d s).next.still = s.still := by
  simp -implicitDefEqProofs [invalidateSq]

@[simp] theorem execInvalidate_keepsStill (fn : World) (s : State) : KeepsStill s (execInvalidate fn s) := by simp [execInvalidate]

@[simp] theorem ctxCommand_still (w : World) (op : Nat → State → State) (d : List Byte) (s : State) (h : ∀ c t, (op c t).still = t.still) :
    (ctxCommand w op d s).next.still = s.still := by
  unfold ctxCommand
  dsimp only
  split <;> simp [h]

@[simp] theorem execSuspend_keepsStill (fn : World) (s : State) : KeepsStill s (execSuspend fn s) := by simp [execSuspend]
@[simp] theorem execResume_keepsStill (fn : World) (s : State) : KeepsStill s (execResume fn s) := by simp [execResume]

@[simp] theorem execHalt_keepsStill (fn : World) (s : State) : KeepsStill s (execHalt fn s) := by
  unfold execHalt
  split
  · simp
  · dsimp only
    split <;> simp

@[simp] theorem adopt_still (w : World) (d : List Byte) (s : State) : (adopt w d s).next.still = s.still := by
  unfold adopt
  split
  · simp
  · split <;> simp

@[simp] theorem execAdopt_keepsStill (fn : World) (s : State) : KeepsStill s (execAdopt fn s) := by simp [execAdopt]

@[simp] theorem State.adminWrite_still (s : State) (dest : Nat) (data : List Byte) (r : LinkResult) :
    (s.adminWrite dest data r).next.still = s.still := by
  unfold State.adminWrite
  split <;> simp

@[simp] theorem readContext_still (w : World) (r : LinkResult) (d : List Byte) (s : State) : (readContext w r d s).next.still = s.still := by
  simp [readContext]

@[simp] theorem execReadContext_keepsStill (fn : World) (r : LinkResult) (s : State) : KeepsStill s (execReadContext fn r s) := by
  simp [execReadContext]

@[simp] theorem listContexts_still (w : World) (r : LinkResult) (d : List Byte) (s : State) : (listContexts w r d s).next.still = s.still := by
  simp [listContexts]

@[simp] theorem execListContexts_keepsStill (fn : World) (r : LinkResult) (s : State) : KeepsStill s (execListContexts fn r s) := by
  simp [execListContexts]

@[simp] theorem laneSafe_still (w : World) (d : List Byte) (s : State) : (laneSafe w d s).next.still = s.still := by
  unfold laneSafe
  split <;> simp

@[simp] theorem execLaneSafe_keepsStill (fn : World) (s : State) : KeepsStill s (execLaneSafe fn s) := by simp [execLaneSafe]

@[simp] theorem laneRelease_still (w : World) (d : List Byte) (s : State) : (laneRelease w d s).next.still = s.still := by
  unfold laneRelease
  split
  · simp
  · split <;> simp

@[simp] theorem execLaneRelease_keepsStill (fn : World) (s : State) : KeepsStill s (execLaneRelease fn s) := by simp [execLaneRelease]
@[simp] theorem State.sqTailWrite_still (s : State) (fn : World) (q v : Nat) : (s.sqTailWrite fn q v).still = s.still := by simp [State.sqTailWrite]

@[simp] theorem execSqTailDoorbell_keepsStill (fn : World) (q : Nat) (v : W32) (s : State) : KeepsStill s (execSqTailDoorbell fn q v s) := by
  simp [execSqTailDoorbell]

@[simp] theorem execDoorbellInv_keepsStill (fn : World) (q : Nat) (v : W32) (s : State) : KeepsStill s (execDoorbellInv fn q v s) := by
  simp [execDoorbellInv]

@[simp] theorem execDoorbellResume_keepsStill (fn : World) (q : Nat) (v : W32) (s : State) : KeepsStill s (execDoorbellResume fn q v s) := by
  simp [execDoorbellResume]

/-! ### Arithmetic, logic and fields (Alu.lean) -/

@[simp] theorem State.aluOp_still (s : State) (c : Nat) (f : FmtA) (op : W64 → W64 → W64) : (s.aluOp c f op).still = s.still := by
  simp [State.aluOp]
@[simp] theorem State.unaryOp_still (s : State) (c : Nat) (f : FmtA) (op : W64 → W64) : (s.unaryOp c f op).still = s.still := by
  simp [State.unaryOp]

@[simp] theorem State.arithOp_still (s : State) (c : Nat) (f : FmtA) (op : W64 → W64 → Arith) : (s.arithOp c f op).still = s.still := by
  simp [State.arithOp]

@[simp] theorem State.immOp_still (s : State) (c : Nat) (f : FmtI) (op : W64 → BitVec 16 → W64) : (s.immOp c f op).still = s.still := by
  simp [State.immOp]

@[simp] theorem State.shiftOp_still (s : State) (c : Nat) (rd ra : Reg) (rsv : BitVec 8) (op : W64 → W64) :
    (s.shiftOp c rd ra rsv op).still = s.still := by simp [State.shiftOp]

@[simp] theorem State.extOp_still (s : State) (c : Nat) (f : FmtF) : (s.extOp c f).still = s.still := by simp [State.extOp]
@[simp] theorem execAnd_keepsStill (c : Nat) (f : FmtA) (s : State) : KeepsStill s (execAnd c f s) := by simp [execAnd]
@[simp] theorem execOr_keepsStill (c : Nat) (f : FmtA) (s : State) : KeepsStill s (execOr c f s) := by simp [execOr]
@[simp] theorem execXor_keepsStill (c : Nat) (f : FmtA) (s : State) : KeepsStill s (execXor c f s) := by simp [execXor]
@[simp] theorem execAndn_keepsStill (c : Nat) (f : FmtA) (s : State) : KeepsStill s (execAndn c f s) := by simp [execAndn]
@[simp] theorem execNor_keepsStill (c : Nat) (f : FmtA) (s : State) : KeepsStill s (execNor c f s) := by simp [execNor]
@[simp] theorem execSll_keepsStill (c : Nat) (f : FmtA) (s : State) : KeepsStill s (execSll c f s) := by simp [execSll]
@[simp] theorem execSrl_keepsStill (c : Nat) (f : FmtA) (s : State) : KeepsStill s (execSrl c f s) := by simp [execSrl]
@[simp] theorem execSra_keepsStill (c : Nat) (f : FmtA) (s : State) : KeepsStill s (execSra c f s) := by simp [execSra]
@[simp] theorem execRotr_keepsStill (c : Nat) (f : FmtA) (s : State) : KeepsStill s (execRotr c f s) := by simp [execRotr]
@[simp] theorem execMin_keepsStill (c : Nat) (f : FmtA) (s : State) : KeepsStill s (execMin c f s) := by simp [execMin]
@[simp] theorem execMax_keepsStill (c : Nat) (f : FmtA) (s : State) : KeepsStill s (execMax c f s) := by simp [execMax]
@[simp] theorem execMinu_keepsStill (c : Nat) (f : FmtA) (s : State) : KeepsStill s (execMinu c f s) := by simp [execMinu]
@[simp] theorem execMaxu_keepsStill (c : Nat) (f : FmtA) (s : State) : KeepsStill s (execMaxu c f s) := by simp [execMaxu]
@[simp] theorem execMulh_keepsStill (c : Nat) (f : FmtA) (s : State) : KeepsStill s (execMulh c f s) := by simp [execMulh]
@[simp] theorem execMulhu_keepsStill (c : Nat) (f : FmtA) (s : State) : KeepsStill s (execMulhu c f s) := by simp [execMulhu]
@[simp] theorem execCeq_keepsStill (c : Nat) (f : FmtA) (s : State) : KeepsStill s (execCeq c f s) := by simp [execCeq]
@[simp] theorem execCne_keepsStill (c : Nat) (f : FmtA) (s : State) : KeepsStill s (execCne c f s) := by simp [execCne]
@[simp] theorem execClt_keepsStill (c : Nat) (f : FmtA) (s : State) : KeepsStill s (execClt c f s) := by simp [execClt]
@[simp] theorem execCltu_keepsStill (c : Nat) (f : FmtA) (s : State) : KeepsStill s (execCltu c f s) := by simp [execCltu]
@[simp] theorem execCle_keepsStill (c : Nat) (f : FmtA) (s : State) : KeepsStill s (execCle c f s) := by simp [execCle]
@[simp] theorem execCleu_keepsStill (c : Nat) (f : FmtA) (s : State) : KeepsStill s (execCleu c f s) := by simp [execCleu]
@[simp] theorem execCbef32_keepsStill (c : Nat) (f : FmtA) (s : State) : KeepsStill s (execCbef32 c f s) := by simp [execCbef32]
@[simp] theorem execAdd_keepsStill (c : Nat) (f : FmtA) (s : State) : KeepsStill s (execAdd c f s) := by simp [execAdd]
@[simp] theorem execSub_keepsStill (c : Nat) (f : FmtA) (s : State) : KeepsStill s (execSub c f s) := by simp [execSub]
@[simp] theorem execMul_keepsStill (c : Nat) (f : FmtA) (s : State) : KeepsStill s (execMul c f s) := by simp [execMul]
@[simp] theorem execDiv_keepsStill (c : Nat) (f : FmtA) (s : State) : KeepsStill s (execDiv c f s) := by simp [execDiv]
@[simp] theorem execDivu_keepsStill (c : Nat) (f : FmtA) (s : State) : KeepsStill s (execDivu c f s) := by simp [execDivu]
@[simp] theorem execRem_keepsStill (c : Nat) (f : FmtA) (s : State) : KeepsStill s (execRem c f s) := by simp [execRem]
@[simp] theorem execRemu_keepsStill (c : Nat) (f : FmtA) (s : State) : KeepsStill s (execRemu c f s) := by simp [execRemu]
@[simp] theorem execClz_keepsStill (c : Nat) (f : FmtA) (s : State) : KeepsStill s (execClz c f s) := by simp [execClz]
@[simp] theorem execPopc_keepsStill (c : Nat) (f : FmtA) (s : State) : KeepsStill s (execPopc c f s) := by simp [execPopc]
@[simp] theorem execBswap_keepsStill (c : Nat) (f : FmtA) (s : State) : KeepsStill s (execBswap c f s) := by simp [execBswap]
@[simp] theorem execAddi_keepsStill (c : Nat) (f : FmtI) (s : State) : KeepsStill s (execAddi c f s) := by simp [execAddi]
@[simp] theorem execAndi_keepsStill (c : Nat) (f : FmtI) (s : State) : KeepsStill s (execAndi c f s) := by simp [execAndi]
@[simp] theorem execOri_keepsStill (c : Nat) (f : FmtI) (s : State) : KeepsStill s (execOri c f s) := by simp [execOri]
@[simp] theorem execXori_keepsStill (c : Nat) (f : FmtI) (s : State) : KeepsStill s (execXori c f s) := by simp [execXori]
@[simp] theorem execCeqi_keepsStill (c : Nat) (f : FmtI) (s : State) : KeepsStill s (execCeqi c f s) := by simp [execCeqi]
@[simp] theorem execClti_keepsStill (c : Nat) (f : FmtI) (s : State) : KeepsStill s (execClti c f s) := by simp [execClti]
@[simp] theorem execCltui_keepsStill (c : Nat) (f : FmtI) (s : State) : KeepsStill s (execCltui c f s) := by simp [execCltui]
@[simp] theorem execSeth_keepsStill (c : Nat) (f : FmtI) (s : State) : KeepsStill s (execSeth c f s) := by simp [execSeth]

@[simp] theorem execSlli_keepsStill (c : Nat) (rd ra : Reg) (rsv : BitVec 8) (amount : BitVec 6) (s : State) :
    KeepsStill s (execSlli c rd ra rsv amount s) := by simp [execSlli]

@[simp] theorem execSrli_keepsStill (c : Nat) (rd ra : Reg) (rsv : BitVec 8) (amount : BitVec 6) (s : State) :
    KeepsStill s (execSrli c rd ra rsv amount s) := by simp [execSrli]

@[simp] theorem execSrai_keepsStill (c : Nat) (rd ra : Reg) (rsv : BitVec 8) (amount : BitVec 6) (s : State) :
    KeepsStill s (execSrai c rd ra rsv amount s) := by simp [execSrai]

@[simp] theorem execRotri_keepsStill (c : Nat) (rd ra : Reg) (rsv : BitVec 8) (amount : BitVec 6) (s : State) :
    KeepsStill s (execRotri c rd ra rsv amount s) := by simp [execRotri]

@[simp] theorem execExtu_keepsStill (c : Nat) (f : FmtF) (s : State) : KeepsStill s (execExtu c f s) := by simp [execExtu]
@[simp] theorem execExts_keepsStill (c : Nat) (f : FmtF) (s : State) : KeepsStill s (execExts c f s) := by simp [execExts]
@[simp] theorem execIns_keepsStill (c : Nat) (f : FmtF) (s : State) : KeepsStill s (execIns c f s) := by simp [execIns]

/-! ### The Fault Collector and the power monitor (Faults.lean) -/

@[simp] theorem execFaultMessage_keepsStill (ext : Option (W64 × Option Nat)) (s : State) : KeepsStill s (execFaultMessage ext s) := by
  unfold execFaultMessage
  split <;> simp

@[simp] theorem execErrPulseEnd_keepsStill (s : State) : KeepsStill s (execErrPulseEnd s) := by simp [execErrPulseEnd]

@[simp] theorem State.recordWrite_still (s : State) (view : Option World) (src v : Nat) : (s.recordWrite view src v).still = s.still := by
  unfold State.recordWrite
  split
  · split <;> simp
  · simp

@[simp] theorem execRecordClear_keepsStill (view : Option World) (src : Nat) (v : W32) (s : State) : KeepsStill s (execRecordClear view src v s) := by
  simp [execRecordClear]

@[simp] theorem State.inject_still (s : State) (fn : World) (m : W64) : (s.inject fn m).still = s.still := by simp [State.inject]
@[simp] theorem execFaultInject_keepsStill (fn : World) (hi : W32) (s : State) : KeepsStill s (execFaultInject fn hi s) := by simp [execFaultInject]
@[simp] theorem State.errHoldSet_still (s : State) (fn : World) (v : Nat) : (s.errHoldSet fn v).still = s.still := by simp [State.errHoldSet]
@[simp] theorem execErrHoldWrite_keepsStill (fn : World) (v : W32) (s : State) : KeepsStill s (execErrHoldWrite fn v s) := by simp [execErrHoldWrite]

end Sys2Proof.Machine

namespace Sys2Proof.Machine

@[simp] theorem execStudyHoldSet_keepsStill (s : State) : KeepsStill s (execStudyHoldSet s) := by simp [execStudyHoldSet]
@[simp] theorem execSaveArmed_keepsStill (milliV : Nat) (s : State) : KeepsStill s (execSaveArmed milliV s) := by simp [execSaveArmed]
@[simp] theorem execSaveDisarmed_keepsStill (milliV : Nat) (s : State) : KeepsStill s (execSaveDisarmed milliV s) := by simp [execSaveDisarmed]
@[simp] theorem State.fcWrite_still (s : State) (fn : World) (off : Nat) (v : W32) : (s.fcWrite fn off v).still = s.still := by simp [State.fcWrite]

/-! ### Pantry and the host windows (Pantry.lean) -/

@[simp] theorem execPnAlert_keepsStill (ch : Nat) (s : State) : KeepsStill s (execPnAlert ch s) := by simp -implicitDefEqProofs [execPnAlert]
@[simp] theorem execRefresh_keepsStill (ch dev : Nat) (s : State) : KeepsStill s (execRefresh ch dev s) := by simp [execRefresh]

@[simp] theorem execScrub_keepsStill (s : State) : KeepsStill s (execScrub s) := by
  unfold execScrub
  split
  · dsimp only
    split <;> simp
  · simp

@[simp] theorem State.xlatCommit_still (s : State) (fn : World) (v : Nat) : (s.xlatCommit fn v).still = s.still := by
  simp -implicitDefEqProofs [State.xlatCommit]

@[simp] theorem execXlatCommit_keepsStill (fn : World) (hi : W32) (s : State) : KeepsStill s (execXlatCommit fn hi s) := by simp [execXlatCommit]
@[simp] theorem execXlatDrainDone_keepsStill (fn : World) (s : State) : KeepsStill s (execXlatDrainDone fn s) := by simp [execXlatDrainDone]

@[simp] theorem State.pnRegWrite_still (s : State) (fn : World) (off : Nat) (v : W32) : (s.pnRegWrite fn off v).still = s.still := by
  simp [State.pnRegWrite]

@[simp] theorem execBar2Access_keepsKept (fn : World) (off len : Nat) (data : Option (List Byte)) (s : State) :
    KeepsKept s (execBar2Access fn off len data s) := by
  unfold execBar2Access
  split <;> simp

@[simp] theorem execBar2Access_formsPantry (fn : World) (off len : Nat) (data : Option (List Byte)) (s : State) (hp : s.still.pantry = true) :
    FormsPantry (execBar2Access fn off len data s) := by
  unfold execBar2Access
  split <;> simp [hp]

/-! ### The Granite control words (Granite.lean) -/

/-- The words of the Granite controls: a write leaves the memories. -/
def ControlWord.KeepsMemories (x : ControlWord) : Prop :=
  ∀ v s, (x.put v s).still.kept.stores = s.still.kept.stores ∧ (x.put v s).still.pantry = s.still.pantry

@[simp] theorem imgWord_keepsMemories (get : ImageCfg → Nat) (set : Nat → ImageCfg → ImageCfg) (j : Nat) :
    (imgWord get set j).KeepsMemories :=
  fun _ _ => ⟨rfl, rfl⟩

@[simp] theorem graniteCfgWord_keepsMemories (get : WorldCfg → Nat) (set : Nat → WorldCfg → WorldCfg) (j : Nat) :
    (graniteCfgWord get set j).KeepsMemories :=
  fun _ _ => ⟨State.modWcfg_stores .., rfl⟩

@[simp] theorem noWord_keepsMemories : noWord.KeepsMemories := fun _ _ => ⟨rfl, rfl⟩

@[simp] theorem ControlWord.keepsMemories_ite (p : Prop) [Decidable p] (x y : ControlWord) :
    (if p then x else y).KeepsMemories ↔ (p → x.KeepsMemories) ∧ (¬p → y.KeepsMemories) := by
  split <;> simp [*]

@[simp] theorem ControlWord.keepsMemories_mk (r : State → Nat) (k : Nat → State → State) :
    (ControlWord.mk r k).KeepsMemories ↔
      ∀ v s, (k v s).still.kept.stores = s.still.kept.stores ∧ (k v s).still.pantry = s.still.pantry := Iff.rfl

@[simp] theorem assignWord_keepsMemories (i : Nat) : (assignWord i).KeepsMemories := by
  simp [assignWord]

@[simp] theorem hostWord_keepsMemories (i : Nat) : (hostWord i).KeepsMemories := by
  unfold hostWord
  split <;> apply graniteCfgWord_keepsMemories

@[simp] theorem driveWord_keepsMemories (n i : Nat) : (driveWord n i).KeepsMemories := by
  intro v s
  unfold driveWord
  dsimp only
  split <;> simp

@[simp] theorem portModeWord_keepsMemories (n : Nat) : (portModeWord n).KeepsMemories := by
  intro v s
  simp [portModeWord]

@[simp] theorem laneWord_keepsMemories (l j : Nat) : (laneWord l j).KeepsMemories := fun _ _ => ⟨rfl, rfl⟩

@[simp] theorem controlWord_keepsMemories (i : Nat) : (controlWord i).KeepsMemories := by
  simp [controlWord]

@[simp] theorem State.copiesSet_still (s : State) (i : Nat) (l : List CopyRead) : (s.copiesSet i l).still = s.still := by simp [State.copiesSet]

@[simp] theorem State.wordVoted_stores (s : State) (i : Nat) (v : W32) : (s.wordVoted i v).still.kept.stores = s.still.kept.stores := by
  have h : ∀ v t, ((controlWord i).put v t).still.kept.stores = t.still.kept.stores := fun v t => (controlWord_keepsMemories i v t).1
  simp [State.wordVoted, h]

@[simp] theorem State.wordVoted_pantryOk (s : State) (i : Nat) (v : W32) (hp : s.still.pantry = true) : (s.wordVoted i v).still.pantry = true := by
  have h : ∀ v t, ((controlWord i).put v t).still.pantry = t.still.pantry := fun v t => (controlWord_keepsMemories i v t).2
  simp [State.wordVoted, h, hp]

/-! ### Attestation, JTAG and SMBus (Security.lean) -/

@[simp] theorem State.attestSample_still (s : State) (r : AttestReq) : (s.attestSample r).still = s.still := by simp [State.attestSample]

@[simp] theorem execDevkeyDerived_keepsStill (s : State) : KeepsStill s (execDevkeyDerived s) := by
  unfold execDevkeyDerived
  split
  · dsimp only
    split <;> simp
  · simp

@[simp] theorem execAttest_keepsStill (fn : World) (s : State) : KeepsStill s (execAttest fn s) := by
  unfold execAttest
  split
  · simp
  · dsimp only
    split <;> simp

@[simp] theorem execReportWritten_keepsStill (r : LinkResult) (s : State) : KeepsStill s (execReportWritten r s) := by
  have hflint : ∀ (t : State) (f : FlintUnit), { t with flint := f }.still = t.still := fun t f => by simp
  unfold execReportWritten
  split
  · simp
  · split
    · simp
    · refine keepsStill_next.2 ?_
      rw [State.adminDone_still, hflint, State.hostWrite_still, hflint]

@[simp] theorem State.visitsHalt_still (s : State) : s.visitsHalt.still = s.still := by simp [State.visitsHalt]
@[simp] theorem State.graniteStop_still (s : State) : s.graniteStop.still = s.still := by simp [State.graniteStop]

@[simp] theorem execTripleSweep_keepsStores (word : Nat) (a b d : CopyRead) (s : State) : KeepsStores s (execTripleSweep word a b d s) := by
  unfold execTripleSweep
  dsimp only
  split
  · split <;> simp
  · simp

@[simp] theorem execTripleSweep_formsPantry (word : Nat) (a b d : CopyRead) (s : State) (hp : s.still.pantry = true) :
    FormsPantry (execTripleSweep word a b d s) := by
  unfold execTripleSweep
  dsimp only
  split
  · split <;> simp [hp]
  · simp [hp]

@[simp] theorem State.jtagLoad_still (s : State) (code : Nat) : (s.jtagLoad code).still = s.still := by simp [State.jtagLoad]
@[simp] theorem State.jtagRefuse_still (s : State) : s.jtagRefuse.still = s.still := by simp [State.jtagRefuse]

@[simp] theorem State.jtagRun_keepsStill (s : State) (code : Nat) (ok : Bool) (k : State → State) (h : ∀ t, (k t).still = t.still) :
    KeepsStill s (s.jtagRun code ok k) := by
  simp [State.jtagRun, h]

theorem State.jtagRun_keepsKept (s : State) (code : Nat) (ok : Bool) (k : State → State) (h : ∀ t, (k t).still.kept = t.still.kept) :
    KeepsKept s (s.jtagRun code ok k) := by
  simp [State.jtagRun, h]

theorem State.jtagRun_formsPantry (s : State) (code : Nat) (ok : Bool) (k : State → State)
    (h : ∀ t, t.still.pantry = true → (k t).still.pantry = true) (hp : s.still.pantry = true) : FormsPantry (s.jtagRun code ok k) := by
  simp [State.jtagRun, h, hp]

@[simp] theorem execIdcode_keepsStill (s : State) : KeepsStill s (execIdcode s) := by simp -implicitDefEqProofs [execIdcode]
@[simp] theorem execSample_keepsStill (s : State) : KeepsStill s (execSample s) := by simp [execSample]
@[simp] theorem execExtest_keepsStill (s : State) : KeepsStill s (execExtest s) := by simp [execExtest]
@[simp] theorem execClamp_keepsStill (s : State) : KeepsStill s (execClamp s) := by simp [execClamp]
@[simp] theorem execHighz_keepsStill (s : State) : KeepsStill s (execHighz s) := by simp [execHighz]
@[simp] theorem execBypass_keepsStill (s : State) (code : BitVec 8) : KeepsStill s (execBypass s code) := by simp [execBypass]
@[simp] theorem execDbgHalt_keepsStill (s : State) : KeepsStill s (execDbgHalt s) := by simp [execDbgHalt]
@[simp] theorem execDbgRun_keepsStill (s : State) : KeepsStill s (execDbgRun s) := by simp [execDbgRun]

@[simp] theorem State.debugOpen_still (s : State) (w : World) : (s.debugOpen w).still = s.still := by
  unfold State.debugOpen
  split <;> simp

@[simp] theorem State.freeBytes_still (s : State) (n : Nat) : (s.freeBytes n).2.still = s.still := by simp [State.freeBytes]

@[simp] theorem State.debugGet_still (s : State) (t : DebugTarget) : (s.debugGet t).still = s.still := by
  unfold State.debugGet
  split <;> simp

@[simp] theorem execDbgRead_keepsStill (t : DebugTarget) (s : State) : KeepsStill s (execDbgRead t s) := by
  unfold execDbgRead
  split <;> simp

@[simp] theorem State.debugPut_kept (s : State) (t : DebugTarget) (data : List Byte) : (s.debugPut t data).still.kept = s.still.kept := by
  unfold State.debugPut
  split <;> simp

@[simp] theorem State.debugPut_pantryOk (s : State) (t : DebugTarget) (data : List Byte) (hp : s.still.pantry = true) :
    (s.debugPut t data).still.pantry = true := by
  unfold State.debugPut
  split <;> simp [hp]

theorem execDbgWrite_keepsKept (t : DebugTarget) (data : List Byte) (s : State) : KeepsKept s (execDbgWrite t data s) := by
  unfold execDbgWrite
  split
  · exact s.jtagRun_keepsKept _ _ _ fun u => u.debugPut_kept t data
  · exact s.jtagRun_keepsKept _ _ _ fun _ => rfl

theorem execDbgWrite_formsPantry (t : DebugTarget) (data : List Byte) (s : State) (hp : s.still.pantry = true) :
    FormsPantry (execDbgWrite t data s) := by
  unfold execDbgWrite
  split
  · exact s.jtagRun_formsPantry _ _ _ (fun u => u.debugPut_pantryOk t data) hp
  · exact s.jtagRun_formsPantry _ _ _ (fun _ => id) hp

theorem execLcAdvance_keepsStill (s : State) : KeepsStill s (execLcAdvance s) := by
  unfold execLcAdvance State.jtagRun
  rw [keepsStill_next]
  split
  · rfl
  split
  · dsimp only
    split <;> simp
  · simp

theorem execLcRetire_keepsStill (s : State) : KeepsStill s (execLcRetire s) := by
  unfold execLcRetire State.jtagRun
  rw [keepsStill_next]
  split
  · rfl
  split <;> simp

@[simp] theorem State.smbus_keepsStill (s : State) (cmd v : Nat) (acc : SmbAccess) : KeepsStill s (s.smbus cmd v acc) := by
  unfold State.smbus
  split
  · split <;> simp
  · simp

@[simp] theorem execSmbFyId_keepsStill (s : State) (acc : SmbAccess) : KeepsStill s (execSmbFyId s acc) := by simp [execSmbFyId]
@[simp] theorem execSmbAtStatus_keepsStill (s : State) (acc : SmbAccess) : KeepsStill s (execSmbAtStatus s acc) := by simp [execSmbAtStatus]

@[simp] theorem execSmbFaultSummary_keepsStill (s : State) (acc : SmbAccess) : KeepsStill s (execSmbFaultSummary s acc) := by
  simp [execSmbFaultSummary]

@[simp] theorem execSmbDieMeas_keepsStill (s : State) (acc : SmbAccess) : KeepsStill s (execSmbDieMeas s acc) := by simp [execSmbDieMeas]
@[simp] theorem execSmbHoldup_keepsStill (s : State) (acc : SmbAccess) : KeepsStill s (execSmbHoldup s acc) := by simp [execSmbHoldup]
@[simp] theorem execSmbClStatus_keepsStill (s : State) (acc : SmbAccess) : KeepsStill s (execSmbClStatus s acc) := by simp [execSmbClStatus]

/-! ### Registers in BAR0 (Regs.lean) -/

@[simp] theorem State.hostRead_still (s : State) (fn : World) (off : Nat) : (s.hostRead fn off).2.still = s.still := by simp [State.hostRead]

@[simp] theorem State.hostRead64_still (s : State) (fn : World) (off : Nat) : (s.hostRead64 fn off).2.still = s.still := by
  unfold State.hostRead64
  split <;> simp

@[simp] theorem execLinkedLowRead_keepsStill (fn : World) (off : Nat) (s : State) (wide : Bool) : KeepsStill s (execLinkedLowRead fn off s wide) := by
  simp [execLinkedLowRead]

@[simp] theorem execLinkedHighRead_keepsStill (fn : World) (off : Nat) (s : State) : KeepsStill s (execLinkedHighRead fn off s) := by
  simp [execLinkedHighRead]

@[simp] theorem State.holdLow_still (s : State) (fn : World) (off : Nat) (v : W32) : (s.holdLow fn off v).still = s.still := by
  simp -implicitDefEqProofs [State.holdLow]

@[simp] theorem State.write64_stores (s : State) (fn : World) (off : Nat) (v : W64) :
    (s.write64 fn off v).still.kept.stores = s.still.kept.stores := by
  simp [State.write64]

@[simp] theorem State.write64_pantryOk (s : State) (fn : World) (off : Nat) (v : W64) (hp : s.still.pantry = true) :
    (s.write64 fn off v).still.pantry = true := by
  simp [State.write64, hp]

@[simp] theorem State.fyWrite_stores (s : State) (fn : World) (off : Nat) (v : W32) :
    (s.fyWrite fn off v).still.kept.stores = s.still.kept.stores := by
  simp [State.fyWrite]

@[simp] theorem State.fyWrite_pantryOk (s : State) (fn : World) (off : Nat) (v : W32) (hp : s.still.pantry = true) :
    (s.fyWrite fn off v).still.pantry = true := by
  simp [State.fyWrite, hp]

@[simp] theorem State.write32_stores (s : State) (fn : World) (off : Nat) (v : W32) :
    (s.write32 fn off v).still.kept.stores = s.still.kept.stores := by
  simp [State.write32]

@[simp] theorem State.write32_pantryOk (s : State) (fn : World) (off : Nat) (v : W32) (hp : s.still.pantry = true) :
    (s.write32 fn off v).still.pantry = true := by
  simp [State.write32, hp]

theorem execRegisterWrite_keepsStores (fn : World) (off : Nat) (wide : Bool) (v : W64) (s : State) :
    KeepsStores s (execRegisterWrite fn off wide v s) :=
  State.whenPowered_keepsStores (by simp)

theorem execRegisterWrite_formsPantry (fn : World) (off : Nat) (wide : Bool) (v : W64) (s : State) (hp : s.still.pantry = true) :
    FormsPantry (execRegisterWrite fn off wide v s) :=
  State.whenPowered_formsPantry (by simp [hp]) hp

@[simp] theorem execMisalignedRegAccess_keepsStill (fn : World) (off bytes : Nat) (isWrite : Bool) (s : State) :
    KeepsStill s (execMisalignedRegAccess fn off bytes isWrite s) := by simp [execMisalignedRegAccess]

/-! ### The words that a context executes (Words.lean) -/

theorem hearthRun_keepsForm (i : Instr) (s : State) : KeepsForm s (hearthRun i s) := by
  cases i <;> simp +contextual [hearthRun, KeepsStill.form, KeepsKept.form]

theorem execXblk_keepsForm (c : Nat) (w : W32) (s : State) : KeepsForm s (execXblk c w s) := by
  unfold execXblk
  split
  · exact KeepsStill.form (by simp)
  · exact KeepsStill.form (by simp)
  · exact KeepsStill.form (by simp)
  · exact hearthRun_keepsForm _ s

/-! ### Time that passes (Step.lean) -/

@[simp] theorem State.idle_still (s : State) : s.idle.still = s.still := by simp [State.idle]

/-! ### Every command and every step -/

theorem execFuseProg_keepsStill (f : FuseField) (v : BitVec 768) (s : State) : KeepsStill s (execFuseProg f v s) := by
  unfold execFuseProg
  split
  · exact s.jtagRun_keepsStill _ _ _ fun t => by simp
  · exact s.jtagRun_keepsStill _ _ _ fun _ => rfl

/-- The commands that write the Cellar or the flash, those that reset the device, and the words that a context executes, one by one; every other
command leaves these memories as they are. -/
theorem exec_keepsForm (i : Instr) (s : State) : KeepsForm s (exec i s) := by
  cases i
  case powerOnReset railsOk => exact execPowerOnReset_keepsForm railsOk s
  case resetN lowNs refPresent => exact execResetN_keepsForm lowNs refPresent s
  case restart => exact execRestart_keepsForm s
  case studyWatchdogExpiry => exact execStudyWatchdogExpiry_keepsForm s
  case startRecordWrite => exact execStartRecordWrite_keepsForm s
  case auditRecordWrite => exact execAuditRecordWrite_keepsForm s
  case saveStart pfail vin12 => exact execSaveStart_keepsForm pfail vin12 s
  case saveCommit => exact execSaveCommit_keepsForm s
  case flashOpen fn bit => exact execFlashOpen_keepsForm fn bit s
  case flashWrite fn bit => exact execFlashWrite_keepsForm fn bit s
  case flashCommit fn bit => exact execFlashCommit_keepsForm fn bit s
  case flashAbort fn bit => exact execFlashAbort_keepsForm fn bit s
  case functionLevelReset fn => exact execFunctionLevelReset_keepsForm fn s
  case registerWrite fn off wide v =>
    exact (execRegisterWrite_keepsStores fn off wide v s).form (execRegisterWrite_formsPantry fn off wide v s)
  case functionStart fn bme d0 => exact (execFunctionStart_keepsStores fn bme d0 s).form (execFunctionStart_formsPantry fn bme d0 s)
  case busMasterDisable fn d3hot => exact (execBusMasterDisable_keepsStores fn d3hot s).form (execBusMasterDisable_formsPantry fn d3hot s)
  case dbgWrite t data => exact (execDbgWrite_keepsKept t data s).form (execDbgWrite_formsPantry t data s)
  case keyRevoke => exact (execKeyRevoke_keepsStill s).form
  case fuseProg f v => exact (execFuseProg_keepsStill f v s).form
  case lcAdvance => exact (execLcAdvance_keepsStill s).form
  case lcRetire => exact (execLcRetire_keepsStill s).form
  case xblk c w => exact execXblk_keepsForm c w s
  all_goals simp +contextual [exec, KeepsStill.form, KeepsKept.form, KeepsStores.form]

theorem step_keepsForm (s : State) : KeepsForm s (step s) := by
  unfold step
  split
  · exact keepsForm_next.2 (.of_still s.idle_still)
  · next c rest _ =>
    have hrest : s.FormKept { s with pending := rest } := .of_still (by simp)
    exact fun t ht => hrest.trans (exec_keepsForm c { s with pending := rest } t ht)

/-- Where the four memories have their form and keep it, they have it. -/
theorem State.FormKept.memoryOk {s t : State} (h : s.FormKept t) (hs : s.memoryOk = true) : t.memoryOk = true := by
  simp only [State.memoryOk, Bool.and_eq_true] at hs ⊢
  obtain ⟨⟨⟨hpantry, hflash⟩, hcellar⟩, hhost⟩ := hs
  exact ⟨⟨⟨h.pantry hpantry, h.flash hflash⟩, h.cellar hcellar⟩, h.host.trans hhost⟩

/-- Settles O55: no command brings a memory out of its form, nor leaves the mark of a failed read set, and time that passes changes neither. -/
theorem memoryStaysCanonical : Obligations.MemoryStaysCanonical := by
  unfold Obligations.MemoryStaysCanonical
  exact ⟨fun s t hs ht => (step_keepsForm s t ht).memoryOk hs, fun s t hs ht => (step_keepsForm s t ht).linkBad hs⟩

end Sys2Proof.Machine

namespace Sys2Proof.Machine

/-! ### Faults that are recorded (R459 to R469) -/

/-- From `s` to `t` faults have been recorded and announced, and nothing else has changed. -/
def State.Records (s t : State) : Prop := { t with fc := s.fc, fns := s.fns, out := s.out } = s

namespace State.Records
variable {s t u : State}

theorem refl (s : State) : s.Records s := rfl

theorem trans (h : s.Records t) (g : t.Records u) : s.Records u :=
  (congrArg (fun v : State => { v with fc := s.fc, fns := s.fns, out := s.out }) g :).trans h

theorem report (s : State) (m : W64) : s.Records (s.report m) := State.report_frame s m none

/-- A fault that is recorded on a condition. -/
theorem reportIf (s : State) (p : Prop) [Decidable p] (m : W64) : s.Records (if p then s else s.report m) := by
  split
  · exact refl s
  · exact report s m

theorem foldl {α : Type} (l : List α) (f : State → α → State) (h : ∀ t x, Records t (f t x)) (s : State) : s.Records (l.foldl f s) := by
  induction l generalizing s with
  | nil => exact refl s
  | cons x l ih => exact (h s x).trans (ih (f s x))

theorem attic (h : s.Records t) : t.attic = s.attic := (congrArg State.attic h :)
theorem cellar (h : s.Records t) : t.cellar = s.cellar := (congrArg State.cellar h :)
theorem flint (h : s.Records t) : t.flint = s.flint := (congrArg State.flint h :)
theorem flash (h : s.Records t) : t.flash = s.flash := (congrArg State.flash h :)
theorem fuses (h : s.Records t) : t.fuses = s.fuses := (congrArg State.fuses h :)
theorem pantry (h : s.Records t) : t.pantry = s.pantry := (congrArg State.pantry h :)
theorem hostMem (h : s.Records t) : t.hostMem = s.hostMem := (congrArg State.hostMem h :)
theorem ctxs (h : s.Records t) : t.ctxs = s.ctxs := (congrArg State.ctxs h :)

theorem sameBytes (h : s.Records t) : SameBytes s t :=
  .of_mems (congrArg Pantry.mem h.pantry) (congrArg Cellar.mem h.cellar) (congrArg Flash.mem h.flash) h.hostMem

end State.Records

/-! ### The choice between two copies (R56 to R58) -/

/-- What the check of a copy reads: the flash, which reads of it fail, and the fuses. -/
structure State.SameCopies (s t : State) : Prop where
  flash : t.flash.mem = s.flash.mem
  readBad : t.attic.readBad = s.attic.readBad
  fuses : t.fuses = s.fuses

namespace State.SameCopies
variable {s t : State} (h : s.SameCopies t)
include h

theorem flashBytes (a n : Nat) : t.flashBytes a n = s.flashBytes a n := by simp only [State.flashBytes, h.flash]
theorem readable (a n : Nat) : t.readable a n = s.readable a n := by simp only [State.readable, h.readBad]
theorem header (a : Nat) : t.header a = s.header a := by simp only [State.header, h.flashBytes]
theorem sects (a : Nat) : t.sects a = s.sects a := by simp only [State.sects, h.header, h.flashBytes]
theorem signedBytes (a : Nat) : t.signedBytes a = s.signedBytes a := by simp only [State.signedBytes, h.header, h.flashBytes]

theorem checkSects (a : Nat) (l : List Sect) : t.checkSects a l = s.checkSects a l := by
  induction l with
  | nil => rfl
  | cons e l ih => simp only [State.checkSects, h.flashBytes, h.readable, ih]

theorem checkSigned (a kind : Nat) : t.checkSigned a kind = s.checkSigned a kind := by
  simp only [State.checkSigned, h.header, h.sects, h.fuses, h.readable, h.signedBytes, h.flashBytes, h.checkSects]

theorem checkCopy (a kind : Nat) : t.checkCopy a kind = s.checkCopy a kind := by
  simp only [State.checkCopy, h.header, h.sects, h.readable, h.checkSigned]

theorem copyGen (kind i : Nat) : t.copyGen kind i = s.copyGen kind i := by simp only [State.copyGen, h.header, h.readable]
theorem manifestDigest (a : Nat) : t.manifestDigest a = s.manifestDigest a := by simp only [State.manifestDigest, h.signedBytes]

theorem chooseCopy (kind : Nat) : t.chooseCopy kind = s.chooseCopy kind := by
  simp only [State.chooseCopy, h.copyGen, h.manifestDigest, h.checkCopy]

end State.SameCopies

/-- From `s` to `t` conflicts of copies may have been noted, faults recorded, and nothing else has changed. -/
def State.Judges (s t : State) : Prop := ∃ x l, State.Records { s with attic := { s.attic with conflict := x, conflicts := l } } t

namespace State.Judges
variable {s t : State}

theorem choiceFaults (s : State) (kind : Nat) (c : Choice) : s.Judges (s.choiceFaults kind c) := by
  unfold State.choiceFaults
  extract_lets note s1
  have h1 : s.Records s1 := (Records.reportIf s _ _).trans (Records.reportIf _ _ _)
  split
  · have hnoted : ∀ x l, State.Records { s with attic := { s.attic with conflict := x, conflicts := l } }
        { s1 with attic := { s1.attic with conflict := x, conflicts := l } } := fun x l => by
      rw [h1.attic]
      exact (congrArg (fun u : State => { u with attic := { s.attic with conflict := x, conflicts := l } }) h1 :)
    exact ⟨_, _, (hnoted _ _).trans (Records.report _ _)⟩
  · exact ⟨_, _, h1⟩

theorem sameBytes (h : s.Judges t) : SameBytes s t := by
  obtain ⟨x, l, h⟩ := h
  exact h.sameBytes

theorem attic (h : s.Judges t) : ∃ x l, t.attic = { s.attic with conflict := x, conflicts := l } := by
  obtain ⟨x, l, h⟩ := h
  exact ⟨x, l, h.attic⟩

theorem sameCopies (h : s.Judges t) : s.SameCopies t := by
  obtain ⟨x, l, h⟩ := h
  exact ⟨congrArg Flash.mem h.flash, (congrArg Attic.readBad h.attic :), h.fuses⟩

end State.Judges

/-- Changes of the Attic and of Flint are none of the memories. -/
theorem SameBytes.withAttic {s t : State} (h : SameBytes s t) (a : Attic) (f : FlintUnit) : SameBytes s { t with attic := a, flint := f } := h

theorem State.chooseBoard_attic {s : State} {o : Option Nat} (h : (s.chooseCopy 2).sel = o) :
    s.chooseBoard.attic = { (s.choiceFaults 2 (s.chooseCopy 2)).attic with
      sel := 0, boardOk := o.isSome, boardBase := o.map (copyBase 2), config := if o.isSome then .builtin else .bare } := by
  subst h
  rfl

theorem State.chooseBoard_sameBytes (s : State) : SameBytes s s.chooseBoard :=
  (Judges.choiceFaults s 2 (s.chooseCopy 2)).sameBytes.withAttic _ _

/-! ### The probe, the choices and the halt (R47, R57, R59, R65, R72) -/

section
variable {s : State}

theorem execAtticProbe_of_reset (r : FlashProbe) (hstate : s.attic.state = 0) (hrails : s.pw.railsOk = true) (hlost : s.pw.lost = false) :
    execAtticProbe r s = match r with
      | .octal => .next { s with attic := { s.attic with state := 2, octal := true, resetCause := s.pw.cause } }
      | .fallback => .next ({ s with attic := { s.attic with state := 2, fallback := true, resetCause := s.pw.cause } }.report
          (faultMsg 101 0 0x0C 1 none false))
      | .noAnswer => .next ({ s with attic := { s.attic with state := 4, fwRecovery := true, config := .bare, resetCause := s.pw.cause } }.report
          (faultMsg 101 0 0x0A (7 + 16 * 2) none true)) := by
  unfold execAtticProbe
  simp only [hstate, State.powered, hrails, hlost]
  cases r <;> rfl

/-- A change of the Attic, and a fault recorded. -/
theorem State.report_withAttic (s : State) (a : Attic) (m : W64) :
    ({ s with attic := a }.report m).attic = a ∧ SameBytes s ({ s with attic := a }.report m) :=
  ⟨(Records.report _ m).attic, ((SameBytes.refl s).withAttic a s.flint).trans (Records.report _ m).sameBytes⟩

theorem execFlashReadTimeout_of_start (base : Nat) (hp : s.powered = true) (hstate : s.attic.state < 6) :
    execFlashReadTimeout base s = if s.attic.readRetry.contains base then
      .next { s with attic := { s.attic with
        readBad := if s.attic.readBad.contains base then s.attic.readBad else s.attic.readBad ++ [base] } }
    else
      .next ({ s with attic := { s.attic with readRetry := s.attic.readRetry ++ [base] } }.report
        (faultMsg 101 (copySub base) 0x0C 2 none false)) := by
  unfold execFlashReadTimeout
  rw [if_neg (by simp [hp]; omega)]

/-- A read that has failed twice is bad. -/
theorem State.readable_of_readBad {s : State} {base : Nat} (h : base ∈ s.attic.readBad) : s.readable base 1 = false := by
  simp only [State.readable, Bool.not_eq_false', List.any_eq_true]
  exact ⟨base, h, by simp⟩

theorem execFirmwareSelect_of_copy {i : Nat} (hstate : s.attic.state = 2) (h : (s.chooseCopy 3).sel = some i) :
    Completes .firmwareSelect s (fun t => t.attic.state = 3 ∧ t.attic.fwBase = some (copyBase 3 i)
      ∧ t.attic.fwGen = (s.header (copyBase 3 i)).gen ∧ t.attic.fwRecovery = s.attic.fwRecovery ∧ SameBytes s t) := by
  have hj := State.Judges.choiceFaults s 3 (s.chooseCopy 3)
  have hrun : ∃ f, exec .firmwareSelect s = .next {
      (s.choiceFaults 3 (s.chooseCopy 3)).modBl (fun b => { b with domains := b.domains ++ [60] }) with
      attic := { (s.choiceFaults 3 (s.chooseCopy 3)).attic with
        state := 3, fwBase := some (copyBase 3 i), fwGen := (s.header (copyBase 3 i)).gen }
      flint := f } := by
    refine ⟨{ (s.choiceFaults 3 (s.chooseCopy 3)).flint with
      fwSlot := (s.fuses.keySlot 0 (keyHash (s.header (copyBase 3 i)).signKey)).getD 0 }, ?_⟩
    simp only [exec, execFirmwareSelect, hstate, h]
    rfl
  obtain ⟨f, hrun⟩ := hrun
  refine ⟨_, hrun, rfl, rfl, rfl, ?_, hj.sameBytes⟩
  obtain ⟨x, l, ha⟩ := hj.attic
  exact (congrArg Attic.fwRecovery ha :)

theorem execFirmwareSelect_of_none (hstate : s.attic.state = 2) (h : (s.chooseCopy 3).sel = none) :
    Completes .firmwareSelect s (fun t => t.attic.state = 3 ∧ t.attic.fwRecovery = true ∧ SameBytes s t) := by
  have hrun : exec .firmwareSelect s = .next { (s.choiceFaults 3 (s.chooseCopy 3)).modBl (fun b => { b with domains := b.domains ++ [60] }) with
      attic := { (s.choiceFaults 3 (s.chooseCopy 3)).attic with state := 3, fwRecovery := true } } := by
    simp only [exec, execFirmwareSelect, hstate, h]
    rfl
  exact ⟨_, hrun, rfl, rfl, (State.Judges.choiceFaults s 3 (s.chooseCopy 3)).sameBytes⟩

/-- The state in which the choice of a Filino image copy has been recorded. -/
def State.imageJudged (s : State) : State :=
  let t := s.choiceFaults 1 (s.chooseCopy 1)
  { t with attic := { t.attic with
    state := 4, aResult := (s.chooseCopy 1).resA, bResult := (s.chooseCopy 1).resB, genA := s.copyGen 1 0, genB := s.copyGen 1 1 } }

theorem State.imageJudged_sameBytes (s : State) : SameBytes s s.imageJudged :=
  (Judges.choiceFaults s 1 (s.chooseCopy 1)).sameBytes.withAttic _ _

theorem State.imageJudged_sameCopies (s : State) : s.SameCopies s.imageJudged := by
  obtain ⟨hflash, hbad, hfuses⟩ := (Judges.choiceFaults s 1 (s.chooseCopy 1)).sameCopies
  exact ⟨hflash, hbad, hfuses⟩

section
variable (hstate : s.attic.state = 3) (hlife : s.flint.lifecycle ≠ 3) (hfw : s.attic.fwRecovery = false)
include hstate hlife hfw

theorem execImageSelect_of_copy {i : Nat} (h : (s.chooseCopy 1).sel = some i) :
    ∃ f, exec .imageSelect s = .next { s.imageJudged with
      attic := { s.imageJudged.attic with sel := i + 1, imageBase := some (copyBase 1 i), config := .image }, flint := f } := by
  refine ⟨{ s.imageJudged.flint with
    imgSlot := (s.fuses.keySlot 1 (keyHash (s.header (copyBase 1 i)).signKey)).getD 0
    grnSlot := if (s.header (copyBase 1 i)).granite then (s.fuses.keySlot 2 (keyHash (s.header (copyBase 1 i)).granKey)).getD 0 else 0 }, ?_⟩
  simp only [exec, execImageSelect, hstate, hlife, hfw, h]
  rfl

theorem execImageSelect_of_none (h : (s.chooseCopy 1).sel = none) : exec .imageSelect s = .next s.imageJudged.chooseBoard := by
  simp only [exec, execImageSelect, hstate, hlife, hfw, h]
  rfl

/-- With no image copy the choice falls on a board record, or on none. -/
theorem imageSelect_of_board {o : Option Nat} (h1 : (s.chooseCopy 1).sel = none) (h2 : (s.chooseCopy 2).sel = o) :
    Completes .imageSelect s (fun t => t.attic.state = 4 ∧ t.attic.sel = 0 ∧ t.attic.boardOk = o.isSome
      ∧ t.attic.boardBase = o.map (copyBase 2) ∧ t.attic.config = (if o.isSome then .builtin else .bare) ∧ SameBytes s t) := by
  have hsel : (s.imageJudged.chooseCopy 2).sel = o := by rw [s.imageJudged_sameCopies.chooseCopy, h2]
  have hboard := State.chooseBoard_attic hsel
  obtain ⟨x, l, ha⟩ := (State.Judges.choiceFaults s.imageJudged 2 (s.imageJudged.chooseCopy 2)).attic
  refine ⟨_, execImageSelect_of_none hstate hlife hfw h1, ?_, ?_, ?_, ?_, ?_, s.imageJudged_sameBytes.trans (State.chooseBoard_sameBytes _)⟩
  · rw [hboard, ha]
    rfl
  all_goals rw [hboard]

end

end

/-- The probe, the reads that fail, the choices and the halt. -/
theorem startUpProbesAndChooses : StartUpProbesAndChooses := by
  unfold StartUpProbesAndChooses
  intro s
  refine ⟨?probe, ?read, ?firmware, ?image, ?retired, ?halt⟩
  case probe =>
    intro hstate hrails hlost
    have hrun := fun r => execAtticProbe_of_reset r hstate hrails hlost
    refine ⟨⟨_, hrun .octal, rfl⟩, ⟨_, hrun .fallback, State.report_withAttic ..⟩, ⟨_, hrun .noAnswer, ?_⟩⟩
    obtain ⟨hattic, hbytes⟩ := State.report_withAttic s
      { s.attic with state := 4, fwRecovery := true, config := .bare, resetCause := s.pw.cause } (faultMsg 101 0 0x0A (7 + 16 * 2) none true)
    exact ⟨congrArg Attic.state hattic, congrArg Attic.config hattic, hbytes⟩
  case read =>
    intro base hp hstate
    have hrun := execFlashReadTimeout_of_start base hp hstate
    constructor
    · intro hretry
      rw [hretry, if_neg Bool.false_ne_true] at hrun
      exact ⟨_, hrun, State.report_withAttic ..⟩
    · intro hretry
      rw [if_pos hretry] at hrun
      refine ⟨_, hrun, State.readable_of_readBad ?_, rfl⟩
      split
      · next h => exact List.contains_iff_mem.1 h
      · exact List.mem_append_right _ (List.mem_singleton_self _)
  case firmware =>
    exact fun hstate => ⟨fun i h => execFirmwareSelect_of_copy hstate h, execFirmwareSelect_of_none hstate⟩
  case image =>
    intro hstate hlife hfw
    refine ⟨fun i h => ?_, fun h1 h2 => ?_, fun j h1 h2 => ?_⟩
    · obtain ⟨f, hrun⟩ := execImageSelect_of_copy hstate hlife hfw h
      exact ⟨_, hrun, rfl, rfl, rfl, rfl, rfl, rfl, s.imageJudged_sameBytes.withAttic _ _⟩
    · obtain ⟨t, hrun, h4, hsel, hok, _, hcfg, hbytes⟩ := imageSelect_of_board hstate hlife hfw h1 h2
      exact ⟨t, hrun, h4, hsel, hok, hcfg, hbytes⟩
    · exact imageSelect_of_board hstate hlife hfw h1 h2
  case retired =>
    intro hstate hlife
    have hrun : exec .imageSelect s = .next { s with attic := { s.attic with state := 4, config := .bare } } := by
      simp only [exec, execImageSelect, hstate, hlife]
      rfl
    exact ⟨_, hrun, rfl, rfl, .refl s⟩
  case halt =>
    intro pfail vin12 hrails hlost hstate hlevel
    have hrun : exec (.atticHalt pfail vin12) s = .next { s with
        attic := { s.attic with state := 7 }, pw := { s.pw with pfailLow := pfail, vin12Low := vin12 } } := by
      simp [exec, execAtticHalt, State.powered, hrails, hlost, hstate, hlevel]
    exact ⟨_, hrun, rfl, rfl⟩

end Sys2Proof.Machine

namespace Sys2Proof.Machine

/-! ### What no image and no board record gives (R63, R228) -/

theorem State.applyBoard_of_none {s : State} (h : s.attic.boardBase = none) :
    s.applyBoard = { s.applyRom with attic := { s.applyRom.attic with config := .bare } } := by
  unfold State.applyBoard
  rw [h]

/-- What the ROM gives leaves the memories, the fuses, and all of the Attic but the mode word. -/
structure State.RomApplied (s t : State) : Prop where
  attic : t.attic = { s.attic with mode := 0x45 }
  mbMap : t.img.mbMap = 0xAAAA5555
  lockWait : ∀ w, (t.wcfg w).lockWaitUs = 1000
  fuses : t.fuses = s.fuses
  pantry : t.pantry = s.pantry
  cellar : t.cellar = s.cellar
  flash : t.flash = s.flash
  hostMem : t.hostMem = s.hostMem

/-- From `s` to `t` the configuration may have changed, with what the ROM gives it, and nothing else has. -/
def State.Configures (s t : State) : Prop := { t with img := s.img, stats := s.stats, qz := s.qz, boiler := s.boiler, attic := s.attic } = s

namespace State.Configures
variable {s t u : State}

theorem trans (h : s.Configures t) (g : t.Configures u) : s.Configures u :=
  (congrArg (fun v : State => { v with img := s.img, stats := s.stats, qz := s.qz, boiler := s.boiler, attic := s.attic }) g :).trans h

theorem modWcfg (s : State) (w : World) (f : WorldCfg → WorldCfg) : s.Configures (s.modWcfg w f) := rfl
theorem setPeriod (s : State) (w : World) (ms : Nat) (sync lock : Bool) : s.Configures (s.setPeriod w ms sync lock) := rfl
theorem mk (s : State) (i : ImageCfg) (q : Quartz) (a : Attic) (b : Boiler) :
    s.Configures { s with img := i, qz := q, attic := a, boiler := b } := rfl

theorem applyRom (s : State) : s.Configures s.applyRom := by
  have both : ∀ (t : State) (f g : WorldCfg → WorldCfg), t.Configures ((t.modWcfg .slate f).modWcfg .granite g) := fun t f g =>
    (modWcfg t _ _).trans (modWcfg _ _ _)
  have periods : ∀ t : State, t.Configures ((t.setPeriod .slate 60000 false false).setPeriod .granite 60000 false false) := fun t =>
    (setPeriod t _ _ _ _).trans (setPeriod _ _ _ _ _)
  exact ((((both s _ _).trans (both _ _ _)).trans (both _ _ _)).trans (periods _)).trans (mk _ _ _ _ _)

end State.Configures

theorem State.applyRom_attic (s : State) : s.applyRom.attic = { s.attic with mode := 0x45 } := rfl
theorem State.applyRom_mbMap (s : State) : s.applyRom.img.mbMap = 0xAAAA5555 := rfl
theorem State.applyRom_lockWait (s : State) (w : World) : (s.applyRom.wcfg w).lockWaitUs = 1000 := by cases w <;> rfl

theorem State.applyRom_applied (s : State) : s.RomApplied s.applyRom := by
  have h := Configures.applyRom s
  have hattic := s.applyRom_attic
  have hmap := s.applyRom_mbMap
  have hlock := s.applyRom_lockWait
  generalize s.applyRom = t at h hattic hmap hlock ⊢
  exact ⟨hattic, hmap, hlock, (congrArg State.fuses h :), (congrArg State.pantry h :), (congrArg State.cellar h :),
    (congrArg State.flash h :), (congrArg State.hostMem h :)⟩

/-- With no board record the device comes up in the bare safe state. -/
theorem State.applyBoard_applied {s : State} (h : s.attic.boardBase = none) : ∃ t, s.RomApplied t
    ∧ s.applyBoard = { t with attic := { t.attic with config := .bare } } :=
  ⟨s.applyRom, s.applyRom_applied, State.applyBoard_of_none h⟩

/-! ### Training (R342) -/

/-- A burst that training writes begins at a multiple of its 32 bytes. -/
theorem mod_of_mem_trainBursts {mask devices ch b : Nat} (h : b ∈ trainBursts mask devices ch) : b % 32 = 0 := by
  simp only [trainBursts, List.mem_flatMap, List.mem_map, List.mem_range] at h
  obtain ⟨d, _, i, _, rfl⟩ := h
  have hwide : ∀ k, 32 ∣ 2 ^ (8 + k) := fun k => pow_dvd_pow 2 (by omega : 5 ≤ 8 + k)
  refine Nat.mod_eq_zero_of_dvd (dvd_add (dvd_add (Dvd.dvd.mul_left (hwide _) _) (Dvd.dvd.mul_left ?_ _)) (Dvd.dvd.mul_left ?_ _)) <;> decide

/-- Bytes set one by one change no other byte. -/
theorem Memory.byte_setBytes_of_not_mem (v : Nat → Byte) (l : List (Nat × Nat)) (m : Memory) (a : Nat) (h : ∀ p ∈ l, p.1 ≠ a) :
    Memory.byte 0 (l.foldl (fun m x => Memory.setByte 0 m x.1 (v x.2)) m) a = Memory.byte 0 m a := by
  induction l generalizing m with
  | nil => rfl
  | cons x l ih =>
    refine (ih _ fun p hp => h p (List.mem_cons_of_mem _ hp)).trans ?_
    rw [Memory.byte_setByte, if_neg fun hx => h x List.mem_cons_self hx.symm]

/-- From `s` to `t` Pantry may have changed in some bursts alone, and the host memory has not. -/
structure State.WritesBursts (bursts : List Nat) (s t : State) : Prop where
  hostMem : t.hostMem = s.hostMem
  pantry : ∀ a, a / 32 * 32 ∉ bursts → Memory.byte 0 t.pantry.mem a = Memory.byte 0 s.pantry.mem a

namespace State.WritesBursts
variable {l : List Nat} {s t u : State}

theorem of_eq (hh : t.hostMem = s.hostMem) (hm : t.pantry.mem = s.pantry.mem) : WritesBursts l s t := ⟨hh, fun _ _ => by rw [hm]⟩

theorem trans (h : WritesBursts l s t) (g : WritesBursts l t u) : WritesBursts l s u :=
  ⟨g.hostMem.trans h.hostMem, fun a ha => (g.pantry a ha).trans (h.pantry a ha)⟩

theorem foldl {α : Type} (xs : List α) (f : State → α → State) (h : ∀ t, ∀ x ∈ xs, WritesBursts l t (f t x)) (s : State) :
    WritesBursts l s (xs.foldl f s) := by
  induction xs generalizing s with
  | nil => exact of_eq rfl rfl
  | cons x xs ih => exact (h s x List.mem_cons_self).trans (ih (fun t y hy => h t y (List.mem_cons_of_mem _ hy)) (f s x))

theorem trainConfig (s : State) (p : List Byte) (ch : Nat) : WritesBursts l s (s.trainConfig p ch) :=
  foldl (List.range _) _ (fun t d _ => foldl _ (fun u w => u.emit (.pnCommand ch d w)) (fun _ _ _ => of_eq rfl rfl) t) s

theorem trainAlerts (s : State) (p : List Byte) (ch : Nat) (ok : Bool) : WritesBursts l s (s.trainAlerts p ch ok) := by
  unfold State.trainAlerts
  split <;> exact of_eq rfl rfl

theorem trainPattern (s : State) (p : List Byte) (ch : Nat) (h : ∀ b ∈ trainBursts (fieldAt p 0 1) (fieldAt p 1 1) ch, b ∈ l) :
    WritesBursts l s (s.trainPattern p ch) := by
  refine ⟨rfl, fun a ha => Memory.byte_setBytes_of_not_mem (fun k => (Config.freeValue (s.free + k)).setWidth 8) _ s.pantry.mem a ?_⟩
  intro x hx hxa
  have hmem := List.fst_mem_of_mem_zipIdx hx
  simp only [List.mem_flatMap, List.mem_map, List.mem_range] at hmem
  obtain ⟨b, hb, i, hi, hbi⟩ := hmem
  have hmod := mod_of_mem_trainBursts hb
  have hburst : a / 32 * 32 = b := by omega
  exact ha (hburst ▸ h b hb)

/-- Training writes to the bursts of its channels alone. -/
theorem trainAll (s : State) (p : List Byte) (train : List TrainReport) :
    WritesBursts ((maskChans (fieldAt p 0 1)).flatMap (trainBursts (fieldAt p 0 1) (fieldAt p 1 1))) s (s.trainAll p train) := by
  have hpn : ∀ (l : List Nat) (t : State) (f : Pantry → Pantry), (f t.pantry).mem = t.pantry.mem → WritesBursts l t (t.modPn f) :=
    fun l t f h => of_eq rfl h
  refine foldl _ _ (fun t i hi => ?_) s
  dsimp only
  have htrain := (((hpn _ t (fun q => { q with
      train := Tbl.put 0 q.train i (((trainOf train i).map TrainReport.word).getD 0), rstOff := q.rstOff ++ [i] }) rfl).trans
    (trainConfig _ p i)).trans (trainAlerts _ p i ((trainOf train i).any (fun r => r.alertOk)))).trans
    (trainPattern _ p i fun b hb => List.mem_flatMap.2 ⟨i, hi, hb⟩)
  split
  · exact htrain.trans (of_eq rfl rfl)
  · refine htrain.trans ((hpn _ _ (fun q => { q with failed := q.failed ++ [i] }) rfl).trans ?_)
    exact of_eq (Records.report _ _).hostMem (congrArg Pantry.mem (Records.report _ _).pantry)

end State.WritesBursts

/-! ### The configuration is applied (R63, R70) -/

section
variable {s : State} (train : List TrainReport) (hstate : s.attic.state = 4)
include hstate

theorem execConfigApply_of_board (hconfig : s.attic.config ≠ .image) :
    exec (.configApply train) s = .next { s.applyBoard with attic := { s.applyBoard.attic with state := 5 } } := by
  change execConfigApply train s = _
  unfold execConfigApply
  rw [if_neg (not_not.2 hstate)]
  cases hc : s.attic.config
  case image => exact absurd hc hconfig
  all_goals rfl

theorem execConfigApply_of_image {base : Nat} (hconfig : s.attic.config = .image) (hbase : s.attic.imageBase = some base) :
    exec (.configApply train) s = .next { s.applyImage base train with attic := { (s.applyImage base train).attic with state := 5 } } := by
  simp only [exec, execConfigApply, hstate, ne_eq, not_true_eq_false, if_false, hconfig, hbase]

theorem configApply_of_nothing (hconfig : s.attic.config ≠ .image) (hboard : s.attic.boardBase = none) :
    Completes (.configApply train) s (fun t => t.attic.state = 5 ∧ t.attic.config = .bare ∧ t.attic.mode = 0x45 ∧ t.img.mbMap = 0xAAAA5555
      ∧ (t.wcfg .slate).lockWaitUs = 1000 ∧ (t.wcfg .granite).lockWaitUs = 1000 ∧ t.fuses = s.fuses ∧ SameBytes s t) := by
  have hrun := execConfigApply_of_board train hstate hconfig
  obtain ⟨t, hrom, happly⟩ := State.applyBoard_applied hboard
  rw [happly] at hrun
  exact ⟨_, hrun, rfl, rfl, congrArg Attic.mode hrom.attic, hrom.mbMap, hrom.lockWait _, hrom.lockWait _, hrom.fuses,
    .of_mems (congrArg Pantry.mem hrom.pantry) (congrArg Cellar.mem hrom.cellar) (congrArg Flash.mem hrom.flash) hrom.hostMem⟩

end

/-- The image whose training fails is not applied. -/
theorem State.applyImage_of_trainFail {s : State} {base : Nat} {train : List TrainReport} {p : List Byte}
    (hp : (s.section1 base 0x0E none).getD [] = p)
    (hok : pantryBad p (bitAt (fieldAt ((s.section1 base 1 none).getD []) 0 4) 4) (regionsOf ((s.section1 base 2 none).getD [])) = false)
    (hfail : trainOk (fieldAt p 0 1) train = false) :
    s.applyImage base train = { s.trainAll p train with attic := { (s.trainAll p train).attic with pantryFail := true } }.applyFallback := by
  subst hp
  simp only [State.applyImage, hok, hfail, Bool.false_eq_true, if_false, Bool.not_false, if_true]

/-- With no board record to choose, the fallback leaves the bare safe state, and what stood in the memories. -/
theorem State.applyFallback_of_none {s : State} (h : (s.chooseCopy 2).sel = none) :
    s.applyFallback.attic.config = .bare ∧ s.applyFallback.attic.pantryFail = s.attic.pantryFail ∧ s.applyFallback.pantry = s.pantry
      ∧ s.applyFallback.cellar = s.cellar ∧ s.applyFallback.flash = s.flash ∧ s.applyFallback.hostMem = s.hostMem := by
  have hboard := State.chooseBoard_attic h
  obtain ⟨x, l, hj⟩ := Judges.choiceFaults s 2 (s.chooseCopy 2)
  have hfail : s.chooseBoard.attic.pantryFail = s.attic.pantryFail := by rw [hboard, hj.attic]
  have hnone : s.chooseBoard.attic.boardBase = none := by rw [hboard]; rfl
  obtain ⟨t, hrom, happly⟩ := State.applyBoard_applied hnone
  rw [State.applyFallback, happly]
  exact ⟨rfl, (congrArg Attic.pantryFail hrom.attic).trans hfail, hrom.pantry.trans hj.pantry, hrom.cellar.trans hj.cellar,
    hrom.flash.trans hj.flash, hrom.hostMem.trans hj.hostMem⟩

theorem configApply_of_trainFail {s : State} {base : Nat} {train : List TrainReport} {p : List Byte} (hstate : s.attic.state = 4)
    (hconfig : s.attic.config = .image) (hbase : s.attic.imageBase = some base) (hp : (s.section1 base 0x0E none).getD [] = p)
    (hok : pantryBad p (bitAt (fieldAt ((s.section1 base 1 none).getD []) 0 4) 4) (regionsOf ((s.section1 base 2 none).getD [])) = false)
    (hfail : trainOk (fieldAt p 0 1) train = false) (hnone : (s.chooseCopy 2).sel = none) :
    Completes (.configApply train) s (fun t => t.attic.state = 5 ∧ t.attic.pantryFail = true ∧ t.attic.config = .bare
      ∧ (∀ a, a / 32 * 32 ∉ (maskChans (fieldAt p 0 1)).flatMap (trainBursts (fieldAt p 0 1) (fieldAt p 1 1)) →
          Memory.byte 0 t.pantry.mem a = Memory.byte 0 s.pantry.mem a)
      ∧ t.cellar.mem = s.cellar.mem ∧ t.flash.mem = s.flash.mem ∧ t.hostMem = s.hostMem) := by
  have hrun := execConfigApply_of_image train hstate hconfig hbase
  rw [State.applyImage_of_trainFail hp hok hfail] at hrun
  have hkept := s.trainAll_kept p train
  have hattic : (s.trainAll p train).attic = s.attic := congrArg (fun k : Still.Kept => k.fixed.attic) hkept
  have hcellar : (s.trainAll p train).cellar = s.cellar := congrArg (fun k : Still.Kept => k.fixed.cellar) hkept
  have hflash : (s.trainAll p train).flash = s.flash := congrArg (fun k : Still.Kept => k.fixed.flash) hkept
  have hwrites := State.WritesBursts.trainAll s p train
  have hsame : s.SameCopies { s.trainAll p train with attic := { (s.trainAll p train).attic with pantryFail := true } } :=
    ⟨congrArg Flash.mem hflash, (congrArg Attic.readBad hattic :), State.trainAll_fuses ..⟩
  obtain ⟨hbare, hpf, hpantry, hc, hf, hh⟩ := State.applyFallback_of_none ((congrArg Choice.sel (hsame.chooseCopy 2)).trans hnone)
  refine ⟨_, hrun, rfl, hpf, hbare, fun a ha => ?_, ?_, ?_, ?_⟩
  · exact (congrArg (fun q : Pantry => Memory.byte 0 q.mem a) hpantry).trans (hwrites.pantry a ha)
  · exact congrArg Cellar.mem (hc.trans hcellar)
  · exact congrArg Flash.mem (hf.trans hflash)
  · exact hh.trans hwrites.hostMem

end Sys2Proof.Machine

namespace Sys2Proof.Machine

/-! ### The Cellar slots are judged (R71, R489, R490, R503) -/

/-- The newest valid slot holds a save. -/
def State.newestSaves (s : State) : Bool := s.newestSlot.1.any (fun i => s.slotIsSave i)

/-- The newest valid slot was written under the image in force. -/
def State.newestMine (s : State) : Bool := s.newestSlot.1.any (fun i => s.slotField i 0x20 32 = s.attic.digest)

/-- The newest valid slot was written under another Granite part than the image in force. -/
def State.auditSteps (s : State) : Bool :=
  (s.attic.config = .image) && (match s.newestSlot.1 with
    | some i => decide (s.slotField i 0x40 32 ≠ s.attic.gdigest)
    | none => true)

/-- The state with its slots judged, before any is restored. -/
def State.cellarJudged (s : State) : State :=
  { s with
    attic := { s.attic with judged := true }
    cellar := { s.cellar with
      slotA := s.slotCode 0, slotB := s.slotCode 1, newestB := s.newestSlot.1 = some 1, hasNewest := s.newestSlot.1.isSome
      conflict := s.newestSlot.2, noValid := s.slotCode 0 < 2 && s.slotCode 1 < 2
      foreign := s.newestSaves && !s.newestMine, seq := (s.newestSlot.1.map s.slotSeq).getD 0, highSeq := s.slotMax 8 }
    flint := { s.flint with audit := s.slotMax 0x10 + bnat s.auditSteps } }

theorem SameBytes.withCellar (s : State) (a : Attic) (c : Cellar) (f : FlintUnit) (h : c.mem = s.cellar.mem) :
    SameBytes s { s with attic := a, cellar := c, flint := f } := .of_mems rfl h rfl rfl

theorem State.cellarJudged_sameBytes (s : State) : SameBytes s s.cellarJudged := by
  unfold State.cellarJudged
  exact .withCellar s _ _ _ rfl

theorem State.cellarJudged_cellar (s : State) : s.cellarJudged.cellar.slotA = s.slotCode 0 ∧ s.cellarJudged.cellar.slotB = s.slotCode 1
    ∧ s.cellarJudged.cellar.conflict = s.newestSlot.2 ∧ s.cellarJudged.cellar.foreign = (s.newestSaves && !s.newestMine)
    ∧ s.cellarJudged.cellar.restored = s.cellar.restored ∧ s.cellarJudged.cellar.mem = s.cellar.mem := by
  simp only [State.cellarJudged, and_self]

theorem State.cellarJudged_audit (s : State) : s.cellarJudged.flint.audit = s.slotMax 0x10 + bnat s.auditSteps := by
  simp only [State.cellarJudged]

theorem State.Records.slotReads (s : State) : s.Records s.slotReads :=
  foldl _ (fun t w => t.report (faultMsg 104 (w / 65536) 0x01 (w % 65536) none false)) (fun t _ => report t _) s

theorem State.Records.slotFaults (s : State) (p q : Prop) [Decidable p] [Decidable q] (m n : W64) :
    s.Records (if p then s.report m else if q then s.report n else s) := by
  split_ifs
  · exact report s m
  · exact report s n
  · exact refl s

/-- The slots are judged with their faults recorded, and the newest is restored where it is a save of the image in force. -/
theorem execCellarRestore_judges {s : State} (hstate : s.attic.state = 5) (hjudged : s.attic.judged = false) :
    ∃ t, s.cellarJudged.Records t ∧ exec .cellarRestore s = match s.newestSlot.1 with
      | some i => .next (if (decide (s.attic.config = .image) && s.newestSaves && s.newestMine) = true then t.restoreSlot i else t)
      | none => .next t := by
  change ∃ t, _ ∧ execCellarRestore s = _
  unfold execCellarRestore State.cellarJudged State.auditSteps State.newestSaves State.newestMine
  rw [if_neg (by simp [hstate, hjudged])]
  generalize s.newestSlot = n, s.slotCode 0 = a, s.slotCode 1 = b, s.slotMax 8 = high, s.slotMax 0x10 = audit
  exact ⟨_, (State.Records.slotReads _).trans (State.Records.slotFaults _ (n.2 = true) ((a < 2 && b < 2) = true)
    (faultMsg 104 0 0x15 (a + 4) none true) (faultMsg 104 0 0x15 a none false)), rfl⟩

section
variable {s : State} (hstate : s.attic.state = 5) (hjudged : s.attic.judged = false)
include hstate hjudged

/-- Where nothing is restored, the slots are judged and nothing else happens. -/
theorem cellarRestore_of_judged (h : ∀ i, s.newestSlot.1 = some i → (decide (s.attic.config = .image) && s.newestSaves && s.newestMine) = false) :
    ∃ t, exec .cellarRestore s = .next t ∧ t.attic = { s.attic with judged := true } ∧ t.cellar = s.cellarJudged.cellar
      ∧ t.flint = s.cellarJudged.flint ∧ t.ctxs = s.ctxs ∧ SameBytes s t := by
  obtain ⟨t, hrec, hrun⟩ := execCellarRestore_judges hstate hjudged
  refine ⟨t, ?_, hrec.attic, hrec.cellar, hrec.flint, hrec.ctxs, s.cellarJudged_sameBytes.trans hrec.sameBytes⟩
  rw [hrun]
  cases hn : s.newestSlot.1 with
  | none => rfl
  | some i =>
    simp only [h i hn]
    rfl

/-- A save of the image in force is restored. -/
theorem cellarRestore_of_mine {i : Nat} (hconfig : s.attic.config = .image) (hn : s.newestSlot.1 = some i) (hsave : s.newestSaves = true)
    (hmine : s.newestMine = true) : ∃ t, s.cellarJudged.Records t ∧ exec .cellarRestore s = .next (t.restoreSlot i) := by
  obtain ⟨t, hrec, hrun⟩ := execCellarRestore_judges hstate hjudged
  refine ⟨t, hrec, ?_⟩
  rw [hrun, hn]
  simp only [hconfig, hsave, hmine]
  rfl

end

/-- A slot that is restored leaves whether it was foreign, and gives what its header says. -/
theorem State.restoreSlot_cellar (s : State) (i : Nat) : (s.restoreSlot i).attic.cellarRestored = true
    ∧ (s.restoreSlot i).cellar.restored = true ∧ (s.restoreSlot i).cellar.foreign = s.cellar.foreign
    ∧ (s.restoreSlot i).cellar.omitted = s.slotField i 0x64 2 ∧ (s.restoreSlot i).cellar.lostStatus = s.slotField i 0x66 2 := by
  refine ⟨rfl, rfl, ?_, rfl, rfl⟩
  have hstats : ∀ (t : State) (b : List Byte), (t.restoreStats b).cellar.foreign = t.cellar.foreign := fun _ _ => rfl
  have hkept : ∀ t : State, t.still.kept = s.still.kept → t.cellar.foreign = s.cellar.foreign := fun t h =>
    (congrArg (fun k : Still.Kept => k.fixed.cellar.foreign) h :)
  unfold State.restoreSlot
  dsimp only
  split
  · rw [hstats]
    exact hkept _ (by simp)
  · exact hkept _ (by simp)

theorem State.slotField_of_cellar {s t : State} (h : t.cellar.mem = s.cellar.mem) (i off n : Nat) : t.slotField i off n = s.slotField i off n := by
  simp only [State.slotField, State.slotBytes, h]

/-! ### The last step of start-up (R36, R65, R491) -/

/-- The state that enters step 8, before its timers, its drives and its programs start. -/
def State.steppedUp (s : State) : State :=
  let up := fun (f : Func) => { f with host := HostState.autonomous }
  { s with
    attic := { s.attic with state := 6, timeSafe := s.now }
    fns := (s.fns.upd .slate up).upd .granite up
    cellar := { s.cellar with job := if s.attic.config = ConfigKind.image then .startRecord else .idle } }

theorem execAtticDone_still {s : State} (hstate : s.attic.state = 5) (hjudged : s.attic.judged = true) :
    ∃ t, exec .atticDone s = .next t ∧ t.still = s.steppedUp.still := by
  have hrun : exec .atticDone s = .next (((((((((s.steppedUp.startUnits.startEpoch .slate).startEpoch .granite).worldSafe .slate).worldSafe
      .granite).startDomains).startResidents .slate).startResidents .granite).romRun)) := by
    change execAtticDone s = _
    unfold execAtticDone
    rw [if_neg (by simp [hstate, hjudged])]
    rfl
  exact ⟨_, hrun, by simp⟩

/-- Settles O46: the probe and the choices only record faults beside their result; training writes to its bursts, a slot is judged with
nothing else changed, and nothing that step 8 starts changes the Attic, the state of a function or the Cellar. -/
theorem startUpRunsToItsEnd : Obligations.StartUpRunsToItsEnd := by
  unfold Obligations.StartUpRunsToItsEnd
  refine ⟨startUpProbesAndChooses, ?_⟩
  unfold StartUpAppliesAndCompletes
  intro s
  refine ⟨?apply, ?judge, ?done⟩
  case apply =>
    exact fun train hstate => ⟨configApply_of_nothing train hstate, fun base hconfig hbase hok hfail hnone =>
      configApply_of_trainFail hstate hconfig hbase rfl hok hfail hnone⟩
  case judge =>
    intro hstate hjudged
    obtain ⟨hslotA, hslotB, hconflict, hforeign, hrestored, hmem⟩ := s.cellarJudged_cellar
    refine ⟨fun hconfig => ?other, fun hconfig hnone => ?noSlot, fun i hconfig hn hsave hdigest => ?foreign,
      fun i hconfig hn hsave hdigest => ?mine⟩
    case other =>
      have hstep : s.auditSteps = false := by simp [State.auditSteps, hconfig]
      obtain ⟨t, hrun, hattic, hcellar, hflint, hctxs, hbytes⟩ := cellarRestore_of_judged hstate hjudged (by simp [hconfig])
      refine ⟨t, hrun, hattic, ?_, ?_, ?_, hctxs, hbytes⟩
      · rw [hcellar, hslotA]
      · rw [hcellar, hslotB]
      · rw [hflint, State.cellarJudged_audit, hstep, show bnat false = 0 from rfl, Nat.add_zero]
    case noSlot =>
      have hstep : s.auditSteps = true := by simp [State.auditSteps, hconfig, hnone]
      obtain ⟨t, hrun, hattic, hcellar, hflint, hctxs, hbytes⟩ := cellarRestore_of_judged hstate hjudged (by simp [hnone])
      refine ⟨t, hrun, hattic, ?_, ?_, hctxs, hbytes⟩
      · rw [hflint, State.cellarJudged_audit, hstep, show bnat true = 1 from rfl]
      · rw [hcellar, hconflict]
    case foreign =>
      have hsaves : s.newestSaves = true := by simp [State.newestSaves, hn, hsave]
      have hmine : s.newestMine = false := by simp [State.newestMine, hn, hdigest]
      obtain ⟨t, hrun, hattic, hcellar, _, hctxs, hbytes⟩ := cellarRestore_of_judged hstate hjudged (by simp [hmine])
      refine ⟨t, hrun, hattic, ?_, ?_, hctxs, hbytes⟩
      · rw [hcellar, hforeign, hsaves, hmine]
        rfl
      · rw [hcellar, hrestored]
    case mine =>
      have hsaves : s.newestSaves = true := by simp [State.newestSaves, hn, hsave]
      have hmine : s.newestMine = true := by simp [State.newestMine, hn, hdigest]
      obtain ⟨t, hrec, hrun⟩ := cellarRestore_of_mine hstate hjudged hconfig hn hsaves hmine
      obtain ⟨hattic', hrestored', hforeign', homitted, hlost⟩ := t.restoreSlot_cellar i
      rw [State.slotField_of_cellar ((congrArg Cellar.mem hrec.cellar).trans hmem)] at homitted hlost
      refine ⟨_, hrun, hattic', hrestored', hforeign'.trans ?_, homitted, hlost⟩
      rw [hrec.cellar, hforeign, hmine, hsaves]
      rfl
  case done =>
    intro hstate hjudged _ _
    obtain ⟨t, hrun, hstill⟩ := execAtticDone_still hstate hjudged
    have hfixed : t.still.kept.fixed = s.steppedUp.still.kept.fixed := by rw [hstill]
    exact ⟨t, hrun, congrArg Still.Fixed.attic hfixed, congrArg (fun f : Still.Fixed => f.hosts.1) hfixed,
      congrArg (fun f : Still.Fixed => f.hosts.2) hfixed, congrArg (fun f : Still.Fixed => f.cellar.job) hfixed⟩

end Sys2Proof.Machine

namespace Sys2Proof.Machine

/-! ### A Hearth that fails (R225) -/

/-- From `s` to `t` no context has begun to run, no failed Hearth has come back, and no fault message that waits is lost. -/
structure State.Halting (s t : State) : Prop where
  running : ∀ c, (t.ctx c).state = .running → (s.ctx c).state = .running
  failed : t.hearths.failed = s.hearths.failed
  buf : ∀ r ∈ s.fc.buf, r ∈ t.fc.buf

namespace State.Halting
variable {s t u : State}

theorem of_eq (hc : t.ctxs = s.ctxs) (hf : t.hearths.failed = s.hearths.failed) (hb : t.fc.buf = s.fc.buf) : s.Halting t :=
  ⟨fun c h => by rwa [State.ctx, hc] at h, hf, fun r h => hb ▸ h⟩

theorem refl (s : State) : s.Halting s := of_eq rfl rfl rfl

theorem trans (h : s.Halting t) (g : t.Halting u) : s.Halting u :=
  ⟨fun c hr => h.running c (g.running c hr), g.failed.trans h.failed, fun r hr => g.buf r (h.buf r hr)⟩

theorem foldl {α : Type} (l : List α) (f : State → α → State) (h : ∀ t x, Halting t (f t x)) (s : State) : s.Halting (l.foldl f s) := by
  induction l generalizing s with
  | nil => exact refl s
  | cons x l ih => exact (h s x).trans (ih (f s x))

theorem modCtx (s : State) (c : Nat) (f : Ctx → Ctx) (h : ∀ x, (f x).state = .running → x.state = .running) : s.Halting (s.modCtx c f) := by
  refine ⟨fun d hd => ?_, rfl, fun r hr => hr⟩
  rw [State.ctx_modCtx] at hd
  split at hd
  · next hdc => exact hdc ▸ h _ hd
  · exact hd

theorem report (s : State) (m : W64) : s.Halting (s.report m) := by
  have hrec := Records.report s m
  refine ⟨fun c h => ?_, (congrArg (fun u : State => u.hearths.failed) hrec :), fun r hr => ?_⟩
  · rwa [State.ctx, hrec.ctxs] at h
  · unfold State.report
    split
    · exact List.mem_append_left _ hr
    · rw [(s.enterViews_enters m none false).buf]
      exact hr

theorem countWait (s : State) (q : LeaveReq) : s.Halting (s.countWait q) := by
  unfold State.countWait
  split <;> exact of_eq rfl rfl rfl

theorem modBl (s : State) (f : Boiler → Boiler) : s.Halting (s.modBl f) := of_eq rfl rfl rfl
theorem modDrive (s : State) (n : Nat) (f : Drive → Drive) : s.Halting (s.modDrive n f) := of_eq rfl rfl rfl
theorem modHt (s : State) (w : World) (f : HearthCnt → HearthCnt) : s.Halting (s.modHt w f) := of_eq rfl rfl rfl

theorem leaveWithdraw (s : State) (p : LeaveReq → Bool) : s.Halting (s.leaveWithdraw p) := by
  unfold State.leaveWithdraw
  exact (foldl _ _ countWait s).trans (modBl _ _)

theorem leaseRelease (s : State) (n : Nat) : s.Halting (s.leaseRelease n) := by
  have h1 : s.Halting ((s.leaveWithdraw (fun q => q.lease = some n)).modBl (fun b => { b with leases := Tbl.put none b.leases n none })) :=
    (leaveWithdraw s _).trans (modBl _ _)
  unfold State.leaseRelease
  split
  · split
    · exact h1.trans (modCtx _ _ _ fun _ => id)
    · exact h1
  · exact h1

theorem flverRelease (s : State) (c : Nat) : s.Halting (s.flverRelease c) := by
  unfold State.flverRelease
  split
  · exact (leaseRelease s _).trans (modCtx _ _ _ fun _ => id)
  · exact refl s

theorem driveAnswer (s : State) (n : Nat) (i : Increase) (result unit : Nat) : s.Halting (s.driveAnswer n i result unit) := by
  unfold State.driveAnswer
  split
  · exact (modDrive s _ _).trans (modCtx _ _ _ fun _ => id)
  · exact refl s

theorem driveWithdraw (s : State) (n : Nat) (p : Increase → Bool) (result unit : Nat) : s.Halting (s.driveWithdraw n p result unit) :=
  (modDrive s n _).trans (foldl _ (fun t i => (t.leaveWithdraw (fun q => q.order = i.order)).driveAnswer n i result unit)
    (fun t _ => (leaveWithdraw t _).trans (driveAnswer _ _ _ _ _)) _)

theorem requestsEnd (s : State) (c : Nat) : s.Halting (s.requestsEnd c) := by
  have h1 : s.Halting ((s.leaveWithdrawOwner (.context c)).flverRelease c) := (leaveWithdraw s _).trans (flverRelease _ _)
  have hanswers : ∀ t : State, t.Halting (((t.drives.filter (fun p => p.2.answers.any (fun y => y.ctx = c))).map (fun p => p.1)).foldl
      (fun t n => t.modDrive n (fun d => { d with answers := d.answers.filter (fun y => y.ctx != c) })) t) := fun t =>
    foldl _ (fun t n => t.modDrive n (fun d => { d with answers := d.answers.filter (fun y => y.ctx != c) })) (fun t n => modDrive t n _) t
  unfold State.requestsEnd
  dsimp only
  split
  · exact (h1.trans (driveWithdraw _ _ _ _ _)).trans (hanswers _)
  · exact h1.trans (hanswers _)

theorem noteRefused (s : State) (q : LeaveReq) : s.Halting (s.noteRefused q) := by
  have hev1 : ∀ (t : State) (w : World), t.Halting (t.blEvent1 w 1) := fun t w => by
    have h := t.blEvent1_frame w 1
    exact of_eq (congrArg State.ctxs h :) (congrArg (fun u : State => u.hearths.failed) h :) (congrArg (fun u : State => u.fc.buf) h :)
  have hev : ∀ t : State, t.Halting (t.blEvent 1) := fun t => (hev1 t .slate).trans (hev1 _ .granite)
  unfold State.noteRefused
  extract_lets own s1
  have h1 : s.Halting s1 := by
    dsimp only [s1]
    split
    · exact modBl s _
    · exact refl s
  split
  · exact (h1.trans (hev s1)).trans (report _ _)
  · split
    · exact h1.trans (hev1 s1 _)
    · exact h1

theorem workRefused (s : State) (k : BoilerWork) : s.Halting (s.workRefused k) := by
  unfold State.workRefused
  split
  · exact of_eq rfl rfl rfl
  · exact modBl s _
  · refine foldl _ _ (fun t e => ?_) s
    split
    · exact of_eq rfl rfl rfl
    · exact refl t
  · exact refl s

theorem boilerAsk (s : State) (k : BoilerWork) (lst : Nat) : s.Halting (s.boilerAsk k lst) := by
  unfold State.boilerAsk State.leaveArrive
  generalize s.leaveReq (.boiler k) false 0 (s.boiler.workAmount k) 65535 none lst = q
  split
  · split
    · next t h =>
      split at h
      · cases h
        exact (noteRefused s q).trans (workRefused _ k)
      · cases h
    · next t h =>
      split at h
      · cases h
      · cases h
        exact modBl s _
  · exact refl s

theorem moveCtx (s : State) (c : Nat) : s.Halting (s.moveCtx c) := by
  have hcount : ∀ (t : State) (w : World), t.Halting (t.countWorld w 7 1) := fun _ _ => of_eq rfl rfl rfl
  have hspill : ∀ (t : State) (w : World) (k h : Nat), t.Halting (t.countSpill w k h) := fun t w k h => by
    unfold State.countSpill
    split
    · exact refl t
    · exact modHt t _ _
  unfold State.moveCtx
  dsimp only
  split
  · next p _ =>
    refine Halting.trans ?_ (hspill _ _ _ _)
    refine Halting.trans ?_ (hcount _ _)
    exact (modCtx s c (fun x => { x with home := p }) fun _ => id).trans (modHt _ _ _)
  · exact boilerAsk s _ _
  · exact refl s

theorem migrateCtx (s : State) (c : Nat) : s.Halting (s.migrateCtx c) := by
  unfold State.migrateCtx
  dsimp only
  split
  · exact refl s
  · split
    · refine Halting.trans ?_ (moveCtx _ c)
      refine Halting.trans (requestsEnd s c) (modCtx _ c _ fun x h => ?_)
      cases h
    · exact moveCtx s c

end State.Halting

/-- A context of a failed Hearth does not run. -/
theorem State.migrateCtx_not_running (s : State) (c : Nat) : ((s.migrateCtx c).ctx c).state ≠ .running := by
  intro h
  unfold State.migrateCtx at h
  dsimp only at h
  split at h
  · next hfree => simp [hfree] at h
  · split at h
    · have hmid := (Halting.moveCtx _ c).running c h
      rw [State.ctx_modCtx_self] at hmid
      cases hmid
    · next hstopped =>
      have hrun := (Halting.moveCtx s c).running c h
      simp [hrun] at hstopped

/-- No context of a list runs once each has been moved. -/
theorem State.foldl_migrateCtx_not_running (l : List Nat) (s : State) {c : Nat} (h : c ∈ l) :
    ((l.foldl (fun t c => t.migrateCtx c) s).ctx c).state ≠ .running := by
  induction l generalizing s with
  | nil => cases h
  | cons d l ih =>
    rcases List.mem_cons.1 h with rfl | h
    · exact fun hr => s.migrateCtx_not_running _ ((Halting.foldl l _ Halting.migrateCtx _).running _ hr)
    · exact ih _ h

/-- Requests at Landings, and their grants, are nothing else. -/
def State.OnlyLands (s t : State) : Prop := { t with lands := s.lands, landOrder := s.landOrder } = s

namespace State.OnlyLands
variable {s t u : State}

theorem refl (s : State) : s.OnlyLands s := rfl

theorem trans (h : s.OnlyLands t) (g : t.OnlyLands u) : s.OnlyLands u :=
  (congrArg (fun v : State => { v with lands := s.lands, landOrder := s.landOrder }) g :).trans h

theorem foldl {α : Type} (l : List α) (f : State → α → State) (h : ∀ t x, OnlyLands t (f t x)) (s : State) : s.OnlyLands (l.foldl f s) := by
  induction l generalizing s with
  | nil => exact refl s
  | cons x l ih => exact (h s x).trans (ih (f s x))

theorem modLanding (s : State) (k : Nat) (f : Landing → Landing) : s.OnlyLands (s.modLanding k f) := rfl

theorem refill (s : State) (k : Nat) : s.OnlyLands (s.refill k) := by
  unfold State.refill
  dsimp only
  split
  · split
    · rfl
    · exact refl s
  · exact refl s

theorem grantTo (s : State) (k : Nat) (q : LandReq) : s.OnlyLands (s.grantTo k q) :=
  ((modLanding s k _).trans (refill _ k)).trans (modLanding _ k _)

theorem landGrant (s : State) (k : Nat) : s.OnlyLands (s.landGrant k) := by
  unfold State.landGrant
  dsimp only
  split
  · exact refl s
  · split
    · exact grantTo s k _
    · split
      · exact grantTo s k _
      · exact modLanding s k _

theorem landWithdraw (s : State) (p : LandReq → Bool) : s.OnlyLands (s.landWithdraw p) :=
  OnlyLands.trans (t := { s with lands := s.lands.map (fun x =>
      (x.1, { x.2 with queue := x.2.queue.filter (fun q => !p q), held := x.2.held.filter (fun q => !p q) })) }) rfl
    (foldl _ (fun (t : State) (x : Nat × Landing) => x.2.held.foldl (fun u _ => u.refill x.1) t)
      (fun t x => foldl _ (fun (u : State) (_ : LandReq) => u.refill x.1) (fun u _ => refill u x.1) t) _)

end State.OnlyLands

/-- The contexts that leave a Hearth that fails. -/
def State.leaving (s : State) (h : Nat) : List Nat := (s.ctxs.filter (fun p => p.2.home = h && p.2.state ≠ .free)).map (fun p => p.1)

/-- A context that runs on a Hearth is one that leaves it. -/
theorem State.mem_leaving {s : State} {c h : Nat} (hhome : (s.ctx c).home = h) (hrun : (s.ctx c).state = .running) : c ∈ s.leaving h := by
  have hmem : (c, s.ctx c) ∈ s.ctxs := Tbl.mem_of_get_ne fun hd => by
    rw [State.ctx, hd] at hrun
    cases hrun
  exact List.mem_map.2 ⟨_, List.mem_filter.2 ⟨hmem, by simp [hhome, hrun]⟩, rfl⟩

/-- A mismatch puts the Hearth out of service, records it, and moves its contexts. -/
theorem execCheckerMismatch_moves {s : State} {h : Nat} (hh : h < 64) (hp : s.powered = true) (hf : h ∉ s.hearths.failed) :
    ∃ t, s.OnlyLands t ∧ exec (.checkerMismatch h) s = .next ((s.leaving h).foldl (fun t c => t.migrateCtx c)
      ({ t with hearths := { t.hearths with failed := t.hearths.failed ++ [h] } }.report (faultMsg h 0 3 0 none false))) := by
  have hgate : ¬(decide (64 ≤ h) || s.hearths.failed.contains h || !s.powered) = true := by simp [hp, hf, hh]
  change ∃ t, _ ∧ execCheckerMismatch h s = _
  unfold execCheckerMismatch
  rw [if_neg hgate]
  exact ⟨_, (State.OnlyLands.landWithdraw s _).trans (State.OnlyLands.foldl _
    (fun (t : State) k => (t.modLanding k (fun l => { l with grant := none })).landGrant k)
    (fun t k => (State.OnlyLands.modLanding t k _).trans (State.OnlyLands.landGrant _ k)) _), rfl⟩

theorem checkerMismatch_leaves {s : State} {h : Nat} (hh : h < 64) (hp : s.powered = true) (hf : h ∉ s.hearths.failed)
    (hroom : (s.fc.buf.filter (fun r => msgSource r.msg = h)).length < 4) :
    Completes (.checkerMismatch h) s (fun t => h ∈ t.hearths.failed ∧ (⟨faultMsg h 0 3 0 none false, none⟩ : Report) ∈ t.fc.buf
      ∧ ∀ c, (s.ctx c).home = h → (t.ctx c).state ≠ .running) := by
  obtain ⟨t, hlands, hrun⟩ := execCheckerMismatch_moves hh hp hf
  refine ⟨_, hrun, ?_⟩
  have hctxs : t.ctxs = s.ctxs := (congrArg State.ctxs hlands :)
  have hfc : t.fc = s.fc := (congrArg State.fc hlands :)
  have hrep := State.Halting.report { t with hearths := { t.hearths with failed := t.hearths.failed ++ [h] } } (faultMsg h 0 3 0 none false)
  have hin : (⟨faultMsg h 0 3 0 none false, none⟩ : Report)
      ∈ ({ t with hearths := { t.hearths with failed := t.hearths.failed ++ [h] } }.report (faultMsg h 0 3 0 none false)).fc.buf := by
    rw [State.report_room (by rw [msgSource_faultMsg _ _ _ _ _ _ (by omega)]; exact hfc ▸ hroom)]
    exact List.mem_append_right _ (List.mem_singleton_self _)
  have hfold := State.Halting.foldl (s.leaving h) (fun t c => t.migrateCtx c) State.Halting.migrateCtx
    ({ t with hearths := { t.hearths with failed := t.hearths.failed ++ [h] } }.report (faultMsg h 0 3 0 none false))
  refine ⟨?_, hfold.buf _ hin, fun c hhome hr => ?_⟩
  · rw [hfold.failed, hrep.failed]
    exact List.mem_append_right _ (List.mem_singleton_self _)
  · have hbefore : (t.ctx c).state = .running := hrep.running c (hfold.running c hr)
    rw [State.ctx, hctxs] at hbefore
    exact State.foldl_migrateCtx_not_running _ _ (State.mem_leaving hhome hbefore) hr

end Sys2Proof.Machine

namespace Sys2Proof.Machine

/-! ### A migrating context is placed (R225 to R227) -/

/-- Where a context stands, and what is due at its next boundary. -/
structure Ctx.Place where
  home : Nat
  ccwAddr : Nat
  asyncCcw : Option Nat
  suspendDue : Bool

def Ctx.place (x : Ctx) : Ctx.Place := ⟨x.home, x.ccwAddr, x.asyncCcw, x.suspendDue⟩

/-- From `s` to `t` every context stays where it stands, with what is due to it. -/
def State.KeepsPlaces (s t : State) : Prop := ∀ c, (t.ctx c).place = (s.ctx c).place

namespace State.KeepsPlaces
variable {s t u : State}

theorem refl (s : State) : s.KeepsPlaces s := fun _ => rfl

theorem trans (h : s.KeepsPlaces t) (g : t.KeepsPlaces u) : s.KeepsPlaces u := fun c => (g c).trans (h c)

theorem of_ctxs (h : t.ctxs = s.ctxs) : s.KeepsPlaces t := fun c => by rw [State.ctx, h]; rfl

theorem foldl {α : Type} (l : List α) (f : State → α → State) (h : ∀ t x, KeepsPlaces t (f t x)) (s : State) :
    s.KeepsPlaces (l.foldl f s) := by
  induction l generalizing s with
  | nil => exact refl s
  | cons x l ih => exact (h s x).trans (ih (f s x))

theorem modCtx (s : State) (c : Nat) (f : Ctx → Ctx) (h : ∀ x, (f x).place = x.place) : s.KeepsPlaces (s.modCtx c f) := by
  intro d
  rw [State.ctx_modCtx]
  split
  · next hd => exact hd ▸ h _
  · rfl

theorem makeReady (s : State) (c : Nat) : s.KeepsPlaces (s.makeReady c) := by
  intro d
  rw [State.ctx_makeReady]
  split
  · next hd => exact hd ▸ rfl
  · rfl

theorem modHt (s : State) (w : World) (f : HearthCnt → HearthCnt) : s.KeepsPlaces (s.modHt w f) := of_ctxs rfl
theorem modAtt (s : State) (a : Nat) (f : Att → Att) : s.KeepsPlaces (s.modAtt a f) := of_ctxs rfl

theorem attEvent (s : State) (a bit : Nat) : s.KeepsPlaces (s.attEvent a bit) := by
  intro c
  obtain ⟨o, l, al, h⟩ := (s.ctx c).latchedBy_eq s.now 0 a (2 ^ bit)
  rw [State.attEvent, State.ctx_latchEvents, h]
  rfl

theorem txChange (s : State) (a : Nat) (f : TxChan → TxChan) : s.KeepsPlaces (s.txChange a f) := by
  unfold State.txChange
  dsimp only
  split
  · exact (modAtt s a _).trans (attEvent _ a 2)
  · exact modAtt s a _

theorem lockPass (s : State) (num : Nat) (w : World) : s.KeepsPlaces (s.lockPass num w) := by
  unfold State.lockPass
  split
  · exact refl s
  · exact (modCtx s _ _ fun _ => by rfl).trans (makeReady _ _)

theorem lockDrop (s : State) (c : Nat) (l : LockRef) : s.KeepsPlaces (s.lockDrop c l) :=
  (modCtx s c _ fun _ => by rfl).trans (lockPass _ _ _)

theorem locksEnd (s : State) (c : Nat) : s.KeepsPlaces (s.locksEnd c) :=
  (foldl (s.ctx c).locks (fun t k => t.lockDrop c k) (fun t k => lockDrop t c k) s).trans (modHt _ _ _)

theorem visitLocksEnd (s : State) (c : Nat) : s.KeepsPlaces (s.visitLocksEnd c) :=
  foldl _ (fun t k => t.lockDrop c k) (fun t k => lockDrop t c k) s

theorem flintClose (s : State) (c : Nat) : s.KeepsPlaces (s.flintClose c) := by
  have h1 : s.KeepsPlaces (s.modCtx c (fun x => { x with flint := none })) := modCtx s c _ fun _ => rfl
  unfold State.flintClose
  dsimp only
  split
  · split
    · exact h1
    · exact (h1.trans (modCtx _ _ _ fun _ => by rfl)).trans (makeReady _ _)
  · exact refl s

theorem visitAbandon (s : State) (c : Nat) : s.KeepsPlaces (s.visitAbandon c) := by
  unfold State.visitAbandon
  split
  · have hlands : s.KeepsPlaces (s.landWithdraw (fun q => q.ofCtx c)) :=
      of_ctxs (congrArg State.ctxs (OnlyLands.landWithdraw s (fun q => q.ofCtx c)) :)
    exact (hlands.trans (visitLocksEnd _ c)).trans (modCtx _ c _ fun _ => by rfl)
  · exact refl s

theorem actTxEnd (s : State) (a : Nat) (own abnormal : Bool) : s.KeepsPlaces (s.actTxEnd a own abnormal) := by
  have hrewind : ∀ t : State, t.KeepsPlaces (t.txRewind a) := fun t => (txChange t a _).trans (modAtt _ a _)
  have hunmark : ∀ t : State, t.KeepsPlaces (t.txUnmark a) := fun t => modAtt t a _
  unfold State.actTxEnd
  dsimp only
  split_ifs
  · exact (hrewind s).trans (hunmark _)
  · exact hunmark s
  · exact hrewind s
  · exact refl s

theorem actMigrate (s : State) (c : Nat) : s.KeepsPlaces (s.actMigrate c) := by
  unfold State.actMigrate
  split
  · split
    · split
      · next a _ _ =>
        extract_lets u s1
        have h1 : s.KeepsPlaces s1 := by
          dsimp only [s1, u]
          split_ifs
          · exact (modAtt s _ _).trans (modAtt _ _ _)
          · exact modAtt s _ _
          · exact refl s
        split
        · exact h1.trans (actTxEnd _ _ _ _)
        · exact h1
      · exact refl s
    · exact refl s
  · exact refl s

theorem openCancel (s : State) (c : Nat) : s.KeepsPlaces (s.openCancel c) :=
  foldl _ (fun t a => t.txCancelOpen a) (fun t a => txChange t a _) s

/-- What a context held is given up, and it stays where it stands. -/
theorem attempt (s : State) (c : Nat) :
    s.KeepsPlaces (((((s.flintClose c).locksEnd c).visitAbandon c).actMigrate c).openCancel c) :=
  ((((flintClose s c).trans (locksEnd _ c)).trans (visitAbandon _ c)).trans (actMigrate _ c)).trans (openCancel _ c)

end State.KeepsPlaces

/-- A context with nothing due to it is READY again, whether or not it stands at a boundary. -/
theorem State.readyAgain_of_quiet {s : State} {c : Nat} (ha : (s.ctx c).asyncCcw = none) (hs : (s.ctx c).suspendDue = false) :
    s.readyAgain c = s.makeReady c := by
  have hb : (s.makeReady c).boundary c = s.makeReady c := by
    unfold State.boundary
    rw [State.ctx_makeReady_self]
    simp [ha, hs]
  unfold State.readyAgain
  rw [hb, ite_self]

/-- A migrating context that is placed where it stands: the attempt is given up, and it is READY again at its CCW. -/
theorem execMigratingPlaced_restarts {s : State} {c : Nat} (hstate : (s.ctx c).state = .migrating) (hfrozen : s.frozen (s.home c) = false)
    (hhome : (s.ctx c).home ∉ s.hearths.failed) (hout : (s.ctx c).outputHanded = false) (hhanded : (s.ctx c).stream.handed = 0)
    (hdue : (s.ctx c).due = none) :
    ∃ (f : Ctx → Ctx) (g : HearthCnt → HearthCnt), (∀ x, (f x).place = x.place ∧ (f x).act = x.act ∧ (f x).started = false)
      ∧ exec (.migratingPlaced c) s = .next (
        let t := (((((((s.flintClose c).locksEnd c).visitAbandon c).actMigrate c).openCancel c).modCtx c Ctx.quiet).modCtx c f).modHt (s.home c) g
        if (s.ctx c).wait = .status then (t.makeReady c).modCtx c (fun z => { z with wait := .status }) else t.readyAgain c) := by
  have hkept : (s.ctx c).handedOut = false := by
    unfold Ctx.handedOut
    split
    · simp [hout, hhanded]
    · rfl
  have hrun : exec (.migratingPlaced c) s = execMigratingPlaced c s := rfl
  unfold execMigratingPlaced at hrun
  simp only [hfrozen, hstate, hhome, hdue, hkept, Bool.false_eq_true, if_false, reduceCtorEq, decide_false, Bool.or_self, ne_eq,
    not_true_eq_false, List.contains_iff_mem, Option.isSome_none] at hrun
  rw [hrun]
  generalize ((((s.flintClose c).locksEnd c).visitAbandon c).actMigrate c).openCancel c = u
  refine ⟨_, _, ?_, rfl⟩
  exact fun _ => ⟨rfl, rfl, rfl⟩

theorem migratingPlaced_isReady {s : State} {c : Nat} (hstate : (s.ctx c).state = .migrating) (hfrozen : s.frozen (s.home c) = false)
    (hhome : (s.ctx c).home ∉ s.hearths.failed) (hout : (s.ctx c).outputHanded = false) (hhanded : (s.ctx c).stream.handed = 0)
    (hsus : (s.ctx c).suspendDue = false) (hasync : (s.ctx c).asyncCcw = none) (hdue : (s.ctx c).due = none) :
    Completes (.migratingPlaced c) s (fun t => (t.ctx c).state = .ready ∧ (t.ctx c).act = none ∧ (t.ctx c).started = false
      ∧ (t.ctx c).ccwAddr = (s.ctx c).ccwAddr ∧ (t.ctx c).home = (s.ctx c).home) := by
  obtain ⟨f, g, hf, hrun⟩ := execMigratingPlaced_restarts hstate hfrozen hhome hout hhanded hdue
  refine ⟨_, hrun, ?_⟩
  have hplace := State.KeepsPlaces.attempt s c c
  generalize ((((s.flintClose c).locksEnd c).visitAbandon c).actMigrate c).openCancel c = u at hplace ⊢
  dsimp only
  have hctx : ((((u.modCtx c Ctx.quiet).modCtx c f).modHt (s.home c) g).ctx c) = f (u.ctx c).quiet := by
    rw [State.modHt_ctx, State.ctx_modCtx_self, State.ctx_modCtx_self]
  generalize ((u.modCtx c Ctx.quiet).modCtx c f).modHt (s.home c) g = t at hctx ⊢
  obtain ⟨hp, hact, hstarted⟩ := hf (u.ctx c).quiet
  have hat : (t.ctx c).place = (s.ctx c).place := by
    rw [hctx, hp]
    exact hplace
  have hready : t.readyAgain c = t.makeReady c := State.readyAgain_of_quiet
    ((congrArg Ctx.Place.asyncCcw hat :).trans hasync) ((congrArg Ctx.Place.suspendDue hat :).trans hsus)
  have hend : ∀ v, (v = t.makeReady c ∨ v = (t.makeReady c).modCtx c (fun z => { z with wait := .status })) →
      (v.ctx c).state = .ready ∧ (v.ctx c).act = (t.ctx c).act ∧ (v.ctx c).started = (t.ctx c).started
        ∧ (v.ctx c).ccwAddr = (t.ctx c).ccwAddr ∧ (v.ctx c).home = (t.ctx c).home := by
    rintro v (rfl | rfl)
    · rw [State.ctx_makeReady_self]
      exact ⟨rfl, rfl, rfl, rfl, rfl⟩
    · rw [State.ctx_modCtx_self, State.ctx_makeReady_self]
      exact ⟨rfl, rfl, rfl, rfl, rfl⟩
  rw [hready]
  obtain ⟨h1, h2, h3, h4, h5⟩ := hend (if (s.ctx c).wait = .status then (t.makeReady c).modCtx c (fun z => { z with wait := .status }) else
    t.makeReady c) (by split <;> simp)
  refine ⟨h1, h2.trans ?_, h3.trans ?_, h4.trans (congrArg Ctx.Place.ccwAddr hat :), h5.trans (congrArg Ctx.Place.home hat :)⟩
  · rw [hctx, hact]
    rfl
  · rw [hctx, hstarted]

/-! ### A resident program restarts (R230) -/

/-- A restart whose Hearth is found is counted. -/
theorem State.bindResident_restarts {s : State} {w : World} {e : ResidentEntry} {h : Nat}
    (hplace : s.placeHome (if e.cluster < 16 then e.cluster else s.homeCluster e.lane) (s.ctx e.ctx).placeAsked = .hearth h) :
    ((s.bindResident w e true).hearths.cnt.get w).restart = satInc32 (s.hearths.cnt.get w).restart := by
  have hstill : (s.bindResident w e true).still = ((s.modCtx e.ctx (fun x => { x with restarts := satAt 255 (x.restarts + 1) })).modHt w
      (fun h => { h with restart := satInc32 h.restart })).still := by
    unfold State.bindResident State.residentPlace
    simp only [hplace, if_true]
    rw [State.countSpill_still, State.residentBound_still, State.countWorld_still]
  have hcount := congrArg Still.restarts hstill
  cases w
  · exact congrArg Prod.fst hcount
  · exact congrArg Prod.snd hcount

theorem State.bindResident_config (s : State) (w : World) (e : ResidentEntry) (again : Bool) :
    (s.bindResident w e again).attic.config = s.attic.config :=
  congrArg (fun k : Still.Kept => k.fixed.attic.config) (s.bindResident_kept w e again)

theorem residentRestarts : ResidentRestarts := by
  unfold ResidentRestarts
  intro s c at1 e hat he
  have hbind : ∀ again, s.attic.config = .image → (s.residentBind (s.home c) e again).romRun = s.bindResident (s.home c) e again := by
    intro again hconfig
    have hres : s.residentBind (s.home c) e again = s.bindResident (s.home c) e again := by simp [State.residentBind, hconfig]
    rw [hres, State.romRun_image ((s.bindResident_config _ e again).trans hconfig)]
  have hrun : exec (.residentRestart c) s = (if s.now < at1 || !s.issues (s.home c) then .next s
      else if (s.ctx c).state = .free then .next ((s.residentBind (s.home c) e false).romRun)
      else if (s.ctx c).state = .error then .next ((s.residentBind (s.home c) e true).romRun) else .next s) := by
    simp only [exec, execResidentRestart, hat, he]
  refine ⟨fun hearly => ⟨s, ?_, rfl⟩, fun hlate hissues hfree hconfig => ⟨_, ?_, rfl⟩, fun hlate hissues herror hconfig hplace => ?_⟩
  · rw [hrun, if_pos (by simp [hearly])]
  · rw [hrun, if_neg (by simp [hlate, hissues]), if_pos hfree, hbind false hconfig]
  · obtain ⟨h, hplace⟩ := hplace
    refine ⟨_, ?_, State.bindResident_restarts hplace⟩
    rw [hrun, if_neg (by simp [hlate, hissues]), if_neg (by simp [herror]), if_pos herror, hbind true hconfig]

/-- Settles O27: moving a context lets none run, and what a migrating context gives up leaves it where it stands; a binding that is done again
is counted once its Hearth is found. -/
theorem hearthsRecoverAndResidentsRestart : Obligations.HearthsRecoverAndResidentsRestart := by
  unfold Obligations.HearthsRecoverAndResidentsRestart
  refine ⟨?_, residentRestarts⟩
  unfold HearthsFailAndRecover
  exact fun s => ⟨fun h hh hp hf hroom => checkerMismatch_leaves hh hp hf hroom,
    fun c hstate hfrozen hhome hout hhanded hsus hasync hdue => migratingPlaced_isReady hstate hfrozen hhome hout hhanded hsus hasync hdue⟩

end Sys2Proof.Machine
